-- ==== Sys2Proof/Word.lean ====
section
/-! DEFINITION. The machine's words: 64-bit register words, 32-bit lane words, bytes (R7, R303), and
the sparse tables that State is made of: lists of (index, value) pairs in rising order of index. -/

namespace Sys2Proof

/-- A 64-bit register word ("Registers are 64 bits wide", spec/00). -/
abbrev Word := BitVec 64

/-- A 32-bit lane or code word. -/
abbrev W32 := BitVec 32

/-- A byte of memory. -/
abbrev Byte := BitVec 8

/-- A sparse table: the entries that differ from what an unlisted index holds. -/
abbrev Tab (α : Type) := List (Nat × α)

/-- The logical cores, 0-31 (spec/01). -/
abbrev CoreId := Fin 32
/-- The matrix engines of a core, MXE0-MXE3. -/
abbrev MxeId := Fin 4
/-- The task contexts of a core (R331). -/
abbrev CtxId := Fin 4
/-- The stacks and their Glasshouses, 0-7. -/
abbrev StackId := Fin 8
/-- The scale slots (R39). -/
abbrev SlotId := Fin 4096
/-- The turnstiles (R254). -/
abbrev TurnId := Fin 4096
/-- The chip barriers (R257). -/
abbrev BarId := Fin 256
/-- The events of a core (R314). -/
abbrev EvId := Fin 64
/-- The queue pairs of the host interface (R452). -/
abbrev QpId := Fin 64
/-- The receive windows (R260). -/
abbrev WinId := Fin 1024
/-- The gang ports GP0-GP13. -/
abbrev GpId := Fin 14
/-- The scale-out ports XP0-XP3. -/
abbrev XpId := Fin 4
/-- The stream queues of a core (R265), and the command queues of a Glasshouse (R204). -/
abbrev QId := Fin 16

end Sys2Proof
end

