-- ==== Sys2Proof/Syntax.lean ====
section
/-! DEFINITION. The commands of the device: one constructor of Instr per row of
spec/opcode_table.json, with the operands the row's rule gives it. Slot operations carry the fields
of their slot word (R305, R318, R324, R327, R329); events of the fabric, the links and the package
carry what the outside world supplies with them. -/

namespace Sys2Proof

/-- Who makes a CSR access (R14, R256): the host, control core CC0-CC3, a core's scalar unit, a
Glasshouse. -/
inductive Requester where
  | host
  | cc (i : Fin 4)
  | core (n : CoreId)
  | gh (s : StackId)
  deriving DecidableEq, Repr

/-- Fields of a scalar slot (R305). -/
structure ScArgs where
  rd : BitVec 5
  rs1 : BitVec 5
  rs2 : BitVec 5
  fn : BitVec 9
  imm : BitVec 32
  deriving DecidableEq, Repr

/-- Fields of an MX-slot FILL (R318). -/
structure FillArgs where
  dk : Bool
  set : Fin 4
  aboff : BitVec 12
  src : BitVec 17
  len : BitVec 16
  part : BitVec 2
  deriving DecidableEq, Repr

/-- Fields of an MX-slot WLOAD (R318). -/
structure WloadArgs where
  set : Fin 4
  n : Byte
  param : BitVec 17
  deriving DecidableEq, Repr

/-- Fields of an MX-slot PASS (R318). -/
structure PassArgs where
  aboff : BitVec 12
  m : BitVec 9
  tile : Fin 8
  row0 : Byte
  close : Bool
  chain : Fin 4
  xreg : BitVec 5
  kh : Bool
  arow : BitVec 7
  switch : Bool
  deriving DecidableEq, Repr

/-- Fields of an MX-slot SPASS (R318). -/
structure SpassArgs where
  list : BitVec 17
  count : BitVec 9
  m : BitVec 9
  tile : Fin 8
  close : Bool
  chain : Fin 4
  xreg : BitVec 5
  row0 : Byte
  deriving DecidableEq, Repr

/-- Fields of an MX-slot DRAIN (R318). -/
structure DrainArgs where
  tile : Fin 8
  chain : Fin 4
  xreg : BitVec 5
  deriving DecidableEq, Repr

/-- Fields of a vector slot (R324). -/
structure VxArgs where
  vd : BitVec 6
  va : BitVec 6
  vb : BitVec 6
  vc : BitVec 6
  t : BitVec 2
  rs : BitVec 5
  imm : BitVec 25
  deriving DecidableEq, Repr

/-- Fields of a stream slot (R329). -/
structure StArgs where
  q : QId
  ir : Fin 4
  rs : BitVec 5
  stk : StackId
  off : BitVec 18
  event : EvId
  en : Bool
  deriving DecidableEq, Repr

/-- A fault of an array while a pass runs (R82, R83): the compacted pass (0 for a PASS), the vector, the
accumulator column, what the fault adds to that column's contribution when the vector goes through first,
and when it is fed again. -/
structure Miss where
  pass : Nat
  vec : Nat
  col : Nat
  first : Int
  again : Int
  deriving DecidableEq, Repr

/-- A pass that an MXE's feeder completes: the MXE, and the faults of its array meanwhile. -/
structure PassEnd where
  mxe : MxeId
  misses : List Miss
  deriving DecidableEq, Repr

/-- The bytes of a background write, and whether they come poisoned (R252); no bytes for a read. -/
structure BgData where
  bytes : List Byte
  poison : Bool
  deriving DecidableEq, Repr

/-- A PLDM message on the sideband, with the 7-bit address that it is sent to, or `none` where it comes over PCI
Express (R471, R526). -/
structure Pldm (α : Type) where
  addr : Option (BitVec 7)
  arg : α
  deriving DecidableEq, Repr

/-- The units that make background accesses to CM (R240). -/
inductive BgUnit where
  | far | stream | colonnade | glasshouse | debug
  deriving DecidableEq, Repr

/-- A link port: a gang port or a scale-out port. -/
inductive PortId where
  | gp (p : GpId)
  | xp (p : XpId)
  deriving DecidableEq, Repr

/-- A device identity, DEVID (R368). -/
abbrev DevId := Fin 4096

/-- The fields of a BWT common header that a receiver reads (R381), and `ce`: the network marked the
packet Congestion Experienced (R377). -/
structure BwtHeader where
  src : DevId
  dst : DevId
  seq : W32
  ack : W32
  ece : Bool
  notify : Bool
  ce : Bool
  ver : BitVec 4
  length : BitVec 16
  deriving DecidableEq, Repr

/-- The body of a DATA message (R382): the credit token, the window offset, the poison mask (bit i
for unit i), the units. -/
structure DataMsg where
  token : W32
  offset : BitVec 35
  mask : Word
  units : List (List Byte)
  deriving DecidableEq, Repr

/-- The three times of a HEARTBEAT or TIME message (R382): the sender's TIME_CLK at send, the
receiver's last send time as the sender had it, and the sender's TIME_CLK when that arrived. -/
structure ThreeTimes where
  sent : Word
  echo : Word
  arrived : Word
  deriving DecidableEq, Repr

/-- The body of a PEER message (R382). -/
structure PeerMsg where
  dev : DevId
  gang : BitVec 16
  rank : Byte
  gsize : Byte
  port : Byte
  deriving DecidableEq, Repr

/-- Messages of the global turnstiles (R413). -/
inductive GturnMsg where
  | request (id : BitVec 16) (amount : Word) (reqid : W32)
  | reply (reqid : W32) (result : Word)
  deriving DecidableEq, Repr

/-- What one management interval shows of another device (R414): its role (R411), and whether its
heartbeat arrived. -/
structure MgrBeat where
  dev : DevId
  role : Fin 4
  ok : Bool
  deriving DecidableEq, Repr

/-- A job that the manager roles place (R403, R404, R406, R411): the queue pairs of the step's micro-batches in their
order, the devices, the columns of each pair's first matrix, the heads, the parameter counts of experts and layers,
the pipeline stages. -/
structure JobPlan where
  micro : List QpId
  devices : Nat
  cols : List Nat
  heads : Nat
  experts : List Nat
  layers : List Nat
  stages : Nat
  deriving DecidableEq, Repr
/-- The costs of experts and layers measured in one step (R404). -/
structure StepLoads where
  experts : List Nat
  layers : List Nat
  deriving DecidableEq, Repr
/-- A gradient ACCUM of a micro-batch, and whether it is its last (R405). -/
structure Gradient where
  micro : Nat
  last : Bool
  deriving DecidableEq, Repr

/-- A management interval: the heartbeats, a job to place, the costs measured in a step (R404, R411, R414). -/
structure MgrInterval where
  beats : List MgrBeat
  plan : Option JobPlan
  loads : Option StepLoads
  deriving DecidableEq, Repr
/-- A command pushed to a Glasshouse queue: its words, and what gradient it accumulates, if any (R205, R405). -/
structure GhWords where
  ws : List Word
  grad : Option Gradient
  deriving DecidableEq, Repr

/-- The registers that WIN_CONFIG_WRITE writes (R395). -/
inductive WinReg where
  | ctl | perm | cmpl
  deriving DecidableEq, Repr

/-- What another member contributes to a collective (R396-R399): its place in the group, its GANG and its
RANK there, its VERSION stamp (R409), how many elements it sends, their bytes with a poison bit for every
64, and its column parameters. -/
structure Contribution where
  rank : Nat
  gang : Nat
  inGang : Nat
  version : Nat
  count : Nat
  data : List Byte
  poison : List Bool
  params : List Byte
  deriving DecidableEq, Repr

/-- What an online core test finds (R492, R493). -/
inductive TestResult where
  | pass
  | columns (mxe : MxeId) (cols : List (Fin 128))
  | sram (code : Fin 4)
  | fail
  deriving DecidableEq, Repr

/-- The context registers that SC_TCTX_REG_WRITE writes (R336). -/
inductive TctxReg where
  | ctl | code | pc | poison
  | reg (i : Fin 32)
  deriving DecidableEq, Repr

/-- The stream-queue registers that STR_Q_REG_WRITE writes (R266, R279). -/
inductive StrReg where
  | src | dst
  | ir (i : Fin 4)
  | prog (i : Fin 32)
  deriving DecidableEq, Repr

/-- What a boot finds, and what Virhan chooses in it (R464-R466): the core sites that fail their tests,
the spare sites that Virhan takes first, the Glasshouses that fail self-test, the stack whose interface
fails training, the TSVs newly found failing by stack and channel, the tile heap of each stack in 64 MiB units, the place of handle 0's tile, CHIP_NODE
of the configuration record, TEST_EN. -/
structure BootEnv where
  sites : List (Fin 36)
  picks : List (Fin 36)
  ghs : List StackId
  stack : Option StackId
  tsvs : List (StackId × Fin 32)
  heapBase : BitVec 11
  heapLim : BitVec 11
  zero : BitVec 40
  node : Word
  testEn : Bool
  deriving DecidableEq, Repr

/-- A unit that fails a step of the wake from I4 (R437). -/
inductive WakeUnit where
  | image
  | core (n : CoreId)
  | stack (k : StackId)
  | port (p : PortId)
  deriving DecidableEq, Repr

/-- The queue-pair registers that HIF_Q_CONFIG_WRITE writes (R453, R454). -/
inductive QcfgReg where
  | sqBase | cqBase | cfg
  deriving DecidableEq, Repr

/-- The commands: one constructor per row of spec/opcode_table.json. -/
inductive Instr where
  /-- A write to a register that has no behaviour of its own stores or ignores each field according to its access code. (R10) -/
  | csrWrite (r : Requester) (a : Nat) (v : Word)
  /-- A host CSR access of another size or alignment completes as Unsupported Request and changes no state. (R13) -/
  | csrUnsupportedAccess (a size : Nat) (write : Bool)
  /-- A 32-bit write to either half of a 64-bit atomic register: the low half is held, and the high half applies both halves. (R14) -/
  | atomicHalfWrite (r : Requester) (a : Nat) (hi : Bool) (v : W32)
  /-- A 32-bit read of the low half of a 64-bit atomic register latches the high half for the requester's next high-half read. (R14) -/
  | atomicHalfRead (r : Requester) (a : Nat) (hi : Bool)
  /-- A COMMIT write to SS_CTRL pushes CUR_AMAX into the history and recomputes SCALE and ZP over 3 FABRIC_CLK cycles. (R42) -/
  | ssCommit (n : SlotId)
  /-- At the end of a commit, the device applies the SS_PARAM and SS_CENTER writes held during it, in arrival order. (R44) -/
  | ssCommitComplete (n : SlotId)
  /-- A CLEAR write to SS_CTRL sets COUNT, HEAD, CUR_AMAX and REPORTED to 0. (R39) -/
  | ssClear (n : SlotId)
  /-- A write covering CENTER stores it and clears the slot history. (R39) -/
  | ssCenterWrite (n : SlotId) (v : Word)
  /-- A write to SS_PARAM is applied, or held when it meets a commit. (R44) -/
  | ssParamWrite (n : SlotId) (v : Word)
  /-- A feeder, drain AMAX or Fife statistic arrives at its slot and updates CUR_AMAX and REPORTED. (R41) -/
  | statReport (n : SlotId) (xs : List W32)
  /-- On a SAT drain of a tile task, the runtime increments SHIFT and re-runs the tile, at most three times. (R56) -/
  | tileSatRetry (n : CoreId) (m : MxeId) (tile : Fin 8)
  /-- A write to MXE_CFG is checked, then either stalls the core or is held until the MXEs drain. (R65) -/
  | mxeCfgWrite (r : Requester) (n : CoreId) (v : Word)
  /-- A held MXE_CFG write takes effect once no MXE has work in flight, invalidating affected weights and freeing OPEN tiles. (R66) -/
  | mxeCfgApply (n : CoreId)
  /-- The core issues one bundle: all slots together, or none after decode checks, interlocks and stalls. (R297) -/
  | bundleIssue (n : CoreId)
  /-- An all-zero slot issues and does nothing. (R298) -/
  | nop (n : CoreId) (c : CtxId)
  /-- The scalar unit performs the FN operation on two registers. (R305) -/
  | alu (n : CoreId) (c : CtxId) (a : ScArgs)
  /-- The scalar unit performs the FN operation on a register and IMM. (R305) -/
  | alui (n : CoreId) (c : CtxId) (a : ScArgs)
  /-- Loads IMM into a scalar register, or into its upper half. (R305) -/
  | li (n : CoreId) (c : CtxId) (a : ScArgs)
  /-- A narrow load from this core's CM into a scalar register. (R306) -/
  | ld (n : CoreId) (c : CtxId) (a : ScArgs)
  /-- A narrow store of a scalar register into this core's CM. (R306) -/
  | st (n : CoreId) (c : CtxId) (a : ScArgs)
  /-- A far 8-byte load by device address into an interlocked register. (R307) -/
  | ldf (n : CoreId) (c : CtxId) (a : ScArgs)
  /-- A far 8-byte store by device address. (R307) -/
  | stf (n : CoreId) (c : CtxId) (a : ScArgs)
  /-- A 64-bit CSR read by a core scalar unit. (R308) -/
  | csrr (n : CoreId) (c : CtxId) (a : ScArgs)
  /-- A 64-bit CSR write by a core scalar unit. (R308) -/
  | csrw (n : CoreId) (c : CtxId) (a : ScArgs)
  /-- A far load, store, CSR access, TURN or barrier arrival outside the core completes, and its interlocked register is written. (R307) -/
  | farOpComplete (n : CoreId)
  /-- A conditional branch; a taken branch issues its target 2 cycles later. (R309) -/
  | br (n : CoreId) (c : CtxId) (a : ScArgs)
  /-- A jump to a register target, with the link written to RD. (R309) -/
  | jr (n : CoreId) (c : CtxId) (a : ScArgs)
  /-- Issues the bundle's other slots count times in consecutive cycles. (R310) -/
  | repeat (n : CoreId) (c : CtxId) (a : ScArgs)
  /-- A turnstile fetch-and-add bounded by LIMIT, which returns the old VALUE or EXHAUSTED. (R255) -/
  | turn (n : CoreId) (c : CtxId) (a : ScArgs)
  /-- An unbounded ADD of s[RS2] to a turnstile, followed by notify. (R255) -/
  | tadd (n : CoreId) (c : CtxId) (a : ScArgs)
  /-- An atomic operation deferred by same-turnstile contention is served in a later FABRIC_CLK cycle in rotation order. (R256) -/
  | turnstileDeferredOp (t : TurnId)
  /-- A CSR write to TS_CNT, followed by notify. (R254) -/
  | tsCntWrite (r : Requester) (t : TurnId) (v : Word)
  /-- A CSR write to TS_NOTIFY, which may signal at once if the turnstile is already exhausted. (R254) -/
  | tsNotifyWrite (r : Requester) (t : TurnId) (v : Word)
  /-- A chip barrier ARRIVE, ARRIVE_WAIT or WAIT from a core. (R312) -/
  | bar (n : CoreId) (c : CtxId) (a : ScArgs)
  /-- A write of BAR_STATE.COUNT, which releases the barrier when COUNT is at most ARRIVED. (R257) -/
  | barCountWrite (b : BarId) (v : Word)
  /-- BAR_CTL.ABORT releases every waiter with ABORTED status and advances GEN. (R257) -/
  | barAbort (b : BarId)
  /-- BAR_CTL.RESET sets ARRIVED to 0, and the waiters keep waiting. (R257) -/
  | barReset (b : BarId)
  /-- The context waits on one event or an event mask, optionally clearing it or switching context. (R315) -/
  | evwait (n : CoreId) (c : CtxId) (a : ScArgs)
  /-- A pending event or barrier wait meets its condition; the context resumes or becomes READY. (R315) -/
  | waitSatisfied (n : CoreId) (c : CtxId)
  /-- Sets or clears core events from a mask or IMM. (R314) -/
  | evset (n : CoreId) (c : CtxId) (a : ScArgs)
  /-- Reads an event's status word into a scalar register. (R305) -/
  | evstat (n : CoreId) (c : CtxId) (a : ScArgs)
  /-- Offers the core to a READY context of equal or higher priority. (R332) -/
  | yield (n : CoreId) (c : CtxId)
  /-- Sets the context IDLE at once. (R334) -/
  | halt (n : CoreId) (c : CtxId)
  /-- Once a halted context's operations have completed, the core signals DONE_EV. (R334) -/
  | contextDone (n : CoreId) (c : CtxId)
  /-- Sends a global turnstile fetch-and-add to the root manager. (R313) -/
  | gturn (n : CoreId) (c : CtxId) (a : ScArgs)
  /-- The global turnstile result arrives, is written to CM and signals the event. (R313) -/
  | gturnResult (n : CoreId)
  /-- Reads the 64-bit TIME_CLK counter into a register. (R305) -/
  | time (n : CoreId) (c : CtxId) (a : ScArgs)
  /-- Stalls the core until its earlier far writes have completed. (R307) -/
  | fencef (n : CoreId) (c : CtxId)
  /-- Copies a tile from CM to the AB, or validates and expands it into a WS set. (R319) -/
  | fill (n : CoreId) (c : CtxId) (m : MxeId) (a : FillArgs)
  /-- A FILL finishes, setting the WS set's type, or marking it invalid on a validation failure. (R319) -/
  | fillComplete (n : CoreId)
  /-- Queues a load of a WS set into the standby registers for its start cycle S. (R320) -/
  | wload (n : CoreId) (c : CtxId) (m : MxeId) (a : WloadArgs)
  /-- At cycle S the load front begins writing 4 rows per cycle. (R75) -/
  | weightLoadStart (n : CoreId) (m : MxeId)
  /-- The column sums and row count complete, and SVALID sets. (R75) -/
  | weightLoadDone (n : CoreId) (m : MxeId)
  /-- Queues a pass of M vectors against the active weights into an accumulator tile. (R321) -/
  | pass (n : CoreId) (c : CtxId) (m : MxeId) (a : PassArgs)
  /-- The feeder reads vector 0 of a pass, opening and latching the tile when it is FREE. (R321) -/
  | passFeedStart (n : CoreId) (m : MxeId) (misses : List Miss)
  /-- The runtime discards a mismatched tile, requests a column scan and re-runs the tile. (R83) -/
  | abftTileRerun (n : CoreId) (m : MxeId) (tile : Fin 8)
  /-- Virhan fences an MXE, tests its columns with CC0 patterns, bypasses failures and unfences. (R85) -/
  | columnScan (n : CoreId) (m : MxeId) (fails : List (Fin 128))
  /-- A write to MXE_BYPASS, accepted only while the MXE is fenced, which invalidates its weights. (R86) -/
  | mxeBypassWrite (r : Requester) (n : CoreId) (m : MxeId) (v : Word)
  /-- An idle feeder cycle is filled with a suppressed dummy pass. (R91) -/
  | dummyPass (n : CoreId) (m : MxeId)
  /-- An idle run reaches DUMMY_GAP_MAX, and the level then falls one step every 16 cycles. (R91) -/
  | activityRampDown (n : CoreId) (m : MxeId)
  /-- Queues a sparse pass over a source list, which forms compacted passes from the match masks. (R322) -/
  | spass (n : CoreId) (c : CtxId) (m : MxeId) (a : SpassArgs)
  /-- The last compacted pass's last result becomes readable, and the event signals. (R178) -/
  | spassComplete (n : CoreId) (m : PassEnd)
  /-- Closes an OPEN tile without a pass, with the named chain and destination. (R323) -/
  | drain (n : CoreId) (c : CtxId) (m : MxeId) (a : DrainArgs)
  /-- Returns an OPEN tile to FREE, losing its contents. (R323) -/
  | discard (n : CoreId) (c : CtxId) (m : MxeId) (tile : Fin 8)
  /-- At D0 the drain unit begins reading the closed tile through its chain. (R104) -/
  | drainStart (n : CoreId) (m : MxeId)
  /-- The drain has read and cleared the tile; the tile becomes FREE and the set returns to the array. (R106) -/
  | drainSwap (n : CoreId) (m : MxeId)
  /-- The last row is written and the closing operation's completion event signals. (R114) -/
  | drainComplete (n : CoreId) (m : MxeId)
  /-- A Fife matrix-vector operation over strips from CM or a stream queue. (R327) -/
  | fmv (n : CoreId) (c : CtxId) (off : BitVec 18)
  /-- Empties Fife's hold bank. (R327) -/
  | fdiscard (n : CoreId) (c : CtxId)
  /-- A stream-fed or queued Fife operation drains its last strip and signals its event. (R95) -/
  | fmvComplete (n : CoreId)
  /-- Loads 512 bytes of CM into a vector register. (R324) -/
  | vld (n : CoreId) (c : CtxId) (a : VxArgs)
  /-- Stores a vector register to CM. (R324) -/
  | vst (n : CoreId) (c : CtxId) (a : VxArgs)
  /-- Lanewise addition. (R324) -/
  | vadd (n : CoreId) (c : CtxId) (a : VxArgs)
  /-- Lanewise subtraction. (R324) -/
  | vsub (n : CoreId) (c : CtxId) (a : VxArgs)
  /-- Lanewise multiplication. (R324) -/
  | vmul (n : CoreId) (c : CtxId) (a : VxArgs)
  /-- Lanewise fused multiply-add. (R324) -/
  | vfma (n : CoreId) (c : CtxId) (a : VxArgs)
  /-- Lanewise maximum. (R324) -/
  | vmax (n : CoreId) (c : CtxId) (a : VxArgs)
  /-- Lanewise minimum. (R324) -/
  | vmin (n : CoreId) (c : CtxId) (a : VxArgs)
  /-- Lanewise ABS, NEG or MOVE. (R324) -/
  | vunary (n : CoreId) (c : CtxId) (a : VxArgs)
  /-- Lanewise comparison to all-ones or all-zeros masks. (R324) -/
  | vcmp (n : CoreId) (c : CtxId) (a : VxArgs)
  /-- Lanewise select by mask. (R324) -/
  | vsel (n : CoreId) (c : CtxId) (a : VxArgs)
  /-- Lanewise type conversion. (R324) -/
  | vcvt (n : CoreId) (c : CtxId) (a : VxArgs)
  /-- Lanewise transcendental function. (R324) -/
  | vfunc (n : CoreId) (c : CtxId) (a : VxArgs)
  /-- Lanewise exact-quotient division. (R324) -/
  | vdiv (n : CoreId) (c : CtxId) (a : VxArgs)
  /-- Reduces a vector into lane 0. (R324) -/
  | vred (n : CoreId) (c : CtxId) (a : VxArgs)
  /-- Broadcasts a scalar register to every lane. (R324) -/
  | vbcast (n : CoreId) (c : CtxId) (a : VxArgs)
  /-- Starts background weight requantisation from a descriptor. (R326) -/
  | vreq (n : CoreId) (c : CtxId) (a : VxArgs)
  /-- Starts a background split-reduction sum from a descriptor. (R326) -/
  | vpsum (n : CoreId) (c : CtxId) (a : VxArgs)
  /-- A VREQ or VPSUM finishes and signals its event. (R326) -/
  | vectorBackgroundDone (n : CoreId)
  /-- An ST-slot operation that starts a stream queue after validating its program. (R329) -/
  | qstart (n : CoreId) (c : CtxId) (a : StArgs)
  /-- An ST-slot operation that stops a running stream queue. (R329) -/
  | qstop (n : CoreId) (c : CtxId) (a : StArgs)
  /-- Writes a scalar register into a queue's index register. (R329) -/
  | qsetir (n : CoreId) (c : CtxId) (a : StArgs)
  /-- Starts a Colonnade transfer from a CM descriptor. (R329) -/
  | colon (n : CoreId) (c : CtxId) (a : StArgs)
  /-- Pushes a 64-byte CM command to the core group's Glasshouse queue. (R329) -/
  | ghpush (n : CoreId) (c : CtxId) (a : StArgs)
  /-- The Glasshouse accepts a waiting push, and the event signals. (R329) -/
  | ghpushAccepted (n : CoreId)
  /-- A host or control-core write to the instruction buffer, discarded inside an active code range. (R299) -/
  | ibufWrite (r : Requester) (n : CoreId) (p : Fin 2048) (k : Fin 8) (v : Word)
  /-- Moves an IDLE context to READY. (R336) -/
  | scTctxStart (n : CoreId) (c : CtxId)
  /-- Moves a READY, RUNNING or WAITING context to IDLE at the next bundle boundary. (R336) -/
  | scTctxStop (n : CoreId) (c : CtxId)
  /-- Resets a context of any state to IDLE, with PC set to BASE and poison cleared. (R336) -/
  | scTctxReset (n : CoreId) (c : CtxId)
  /-- A W1C write to SC_EVENT clears events and their status words. (R336) -/
  | scEventClear (n : CoreId) (mask : Word)
  /-- A W1S write to SC_EVENT_SET sets events and merges status OK. (R336) -/
  | scEventSet (n : CoreId) (mask : Word)
  /-- A wait or continuous stall reaches the watchdog limit and raises TASK_HANG once. (R335) -/
  | taskWatchdog (n : CoreId) (c : CtxId)
  /-- A handle resolves at its home Glasshouse through the cache or a sector read, or fails with TILE_DIR. (R153) -/
  | handleResolve (r : Requester) (h : BitVec 24) (write : Bool)
  /-- After a tile write to new space completes, the home Glasshouse switches the entry in one cycle. (R157) -/
  | tileSwitch (h : BitVec 24)
  /-- The placement service sets MIGRATING and copies a tile to its new location. (R159) -/
  | migrationStart (h : BitVec 24) (dst : StackId)
  /-- When the copy completes, the entry switches LOC and clears MIGRATING. (R159) -/
  | migrationSwitch (h : BitVec 24)
  /-- Writes every cached ACCESS value back to the stack. (R163) -/
  | ghDirFlush (s : StackId)
  /-- Starts flushing and invalidating the directory cache, stalling new resolutions. (R163) -/
  | ghDirInval (s : StackId)
  /-- The invalidation finishes, and stalled resolutions proceed. (R164) -/
  | ghDirInvalDone (s : StackId)
  /-- A write to GH_DIR_BASE, discarded with CONFIG_CONFLICT while EN is 1. (R163) -/
  | ghDirBaseWrite (r : Requester) (s : StackId) (v : Word)
  /-- A write to GH_HEAP_BASE or GH_HEAP_LIM, discarded while directory EN is 1. (R218) -/
  | ghHeapWrite (r : Requester) (s : StackId) (lim : Bool) (v : Word)
  /-- A command push arrives at a Glasshouse queue: accepted, made to wait, or discarded. (R205) -/
  | ghCmdqPush (r : Requester) (s : StackId) (q : QId) (ws : GhWords)
  /-- Discards every unstarted command of a queue, each completing ABORTED. (R206) -/
  | ghCmdqReset (s : StackId) (q : QId)
  /-- Glasshouse command that does nothing and completes. (R208) -/
  | ghNop (s : StackId) (q : QId)
  /-- Gathers indexed rows into a consecutive destination. (R211) -/
  | ghGather (s : StackId) (q : QId)
  /-- Writes consecutive rows to indexed destinations. (R211) -/
  | scatter (s : StackId) (q : QId)
  /-- Reads bitmap-marked rows of a tile matrix and packs them into DENSE tiles. (R212) -/
  | rowGather (s : StackId) (q : QId)
  /-- Dequantises and pools embedding rows per bag in FP32. (R214) -/
  | embBag (s : StackId) (q : QId)
  /-- Accumulates a source into a destination in place with ADD, MAX or MIN. (R215) -/
  | accum (s : StackId) (q : QId)
  /-- Accumulates source rows into indexed destination rows. (R216) -/
  | scatterAdd (s : StackId) (q : QId)
  /-- Re-encodes tiles under the compactor rule and writes them. (R217) -/
  | compact (s : StackId) (q : QId)
  /-- Merges sorted or unsorted runs, combining equal keys in fixed order. (R181) -/
  | merge (s : StackId) (q : QId)
  /-- Holds its queue until earlier commands of the masked queues have completed. (R222) -/
  | ghFence (s : StackId) (q : QId)
  /-- A FENCE's condition comes to hold, and it completes 6 cycles later. (R222) -/
  | ghFenceRelease (s : StackId) (q : QId)
  /-- Copies LEN units from source to destination. (R208) -/
  | ghCopy (s : StackId) (q : QId)
  /-- Writes one tile through a handle, as given or compacted. (R217) -/
  | handleWrite (s : StackId) (q : QId)
  /-- The refresh interval of a bank expires, and the bank is refreshed. (R226) -/
  | stackRefresh (s : StackId) (pc : Fin 64)
  /-- The scrub period expires, and the scrubber reads every sector from queue 15. (R227) -/
  | scrubPass (s : StackId)
  /-- The Glasshouse blocks the bank of a queued row and copies the row to a spare. (R228) -/
  | rowRepair (s : StackId) (pc : Fin 64) (bank : Fin 32) (row : BitVec 16)
  /-- The copy ends, the row is remapped and the bank unblocked. (R228) -/
  | rowRepairDone (s : StackId)
  /-- CC0's 10 µs heartbeat to a Glasshouse is sent, and three misses declare it failed. (R229) -/
  | ghHeartbeat (s : StackId) (answered : Bool)
  /-- A push to a failed stack's queue is executed by Virhan on cores and control cores. (R231) -/
  | rawStackEmulate (s : StackId) (q : QId)
  /-- A background CM access takes a free sub-bank cycle. (R240) -/
  | bgAccess (n : CoreId) (unit : BgUnit) (off : Nat) (len : Nat) (data : BgData) (write : Bool)
  /-- A background access reaches WAIT_MAX, takes its sub-bank and stalls the core one cycle. (R240) -/
  | bgForce (n : CoreId)
  /-- Clears VALID in a range of shadow units. (R248) -/
  | cmcShadowInv (r : Requester) (n : CoreId) (first count : BitVec 16)
  /-- Empties CMC_CONF_LOG. (R248) -/
  | cmcLogClr (n : CoreId)
  /-- A core with no CM footprint in flight samples its validation mode. (R247) -/
  | modeSample (n : CoreId)
  /-- A fabric read or write reaches an Orangery slice. (R250) -/
  | orangeryAccess (r : Requester) (off : Nat) (len : Nat) (data : List Byte) (write poison : Bool)
  /-- A write to WIN_LOCAL, accepted only while the window is CLOSED and its range is legal. (R260) -/
  | winLocalWrite (r : Requester) (w : WinId) (v : Word)
  /-- The START bit of STR_Q_CTL starts a queue after validation. (R266) -/
  | strQStart (r : Requester) (n : CoreId) (q : QId)
  /-- The STOP bit of STR_Q_CTL stops a running queue. (R266) -/
  | strQStop (r : Requester) (n : CoreId) (q : QId)
  /-- A write of QDEPTH or EVENT, refused while the queue runs or when the depth sum exceeds 256. (R268) -/
  | strQCtlWrite (r : Requester) (n : CoreId) (q : QId) (v : Word)
  /-- A stream SET of an index register. (R271) -/
  | streamSet (n : CoreId) (q : QId)
  /-- A stream ADD to an index register. (R271) -/
  | streamAdd (n : CoreId) (q : QId)
  /-- A stream LOOP over its body COUNT times. (R272) -/
  | streamLoop (n : CoreId) (q : QId)
  /-- Issues one stream transfer, or a whole tile by handle. (R273) -/
  | emit (n : CoreId) (q : QId)
  /-- Issues one transfer per set bitmap bit and advances the destination register. (R274) -/
  | streamGather (n : CoreId) (q : QId)
  /-- Holds the queue until an event or barrier generation condition holds. (R276) -/
  | mark (n : CoreId) (q : QId)
  /-- A MARK's condition holds and the queue resumes, clearing the event with CLR. (R276) -/
  | markSatisfied (n : CoreId) (q : QId)
  /-- A stream SIGNAL, which fires once earlier transfers complete. (R275) -/
  | signal (n : CoreId) (q : QId)
  /-- The earlier transfers of a SIGNAL have completed, and its event is set. (R275) -/
  | signalComplete (n : CoreId) (q : QId)
  /-- Ends the program, and the queue enters DRAINING. (R275) -/
  | streamEnd (n : CoreId) (q : QId)
  /-- A DRAINING or stopping queue's transfers have completed; it enters its final state and signals its event. (R275) -/
  | queueDrained (n : CoreId) (q : QId)
  /-- A stream transfer's last unit is visible at its destination. (R275) -/
  | transferComplete (n : CoreId) (q : QId) (i : Nat)
  /-- A refused transfer faults its queue and signals FAULT. (R278) -/
  | transferFault (n : CoreId) (q : QId) (i : Nat) (code : Byte)
  /-- A waiting Colonnade transfer obtains its ring links and begins sending chunks. (R280) -/
  | colonnadeStart (n : CoreId)
  /-- The last chunk leaves the source, and SEVENT signals. (R282) -/
  | colonnadeSent (n : CoreId)
  /-- A named core has written its last chunk and signals DEVENT. (R282) -/
  | colonnadeDelivered (n : CoreId) (dst : CoreId)
  /-- In each STACK_CLK cycle a stack port grants one transfer by slot owner or ranking, and gives hints to losers. (R287) -/
  | portArbitrate (s : StackId) (presents : List (Fin 12))
  /-- A granted port transfer completes and frees the port. (R290) -/
  | portTransferDone (s : StackId)
  /-- A transfer incomplete for WDOG_LIMIT cycles raises WATCHDOG and resets the port. (R290) -/
  | portWatchdog (s : StackId)
  /-- A 1,024-cycle port reset ends, and grants resume at slot 0. (R290) -/
  | portResetEnd (s : StackId)
  /-- GH_BS_CTL.PRESET resets the port without WATCHDOG. (R290) -/
  | bsPreset (s : StackId)
  /-- GH_BS_CTL.COMMIT marks the pending table for activation. (R293) -/
  | bsCommit (r : Requester) (s : StackId)
  /-- At the next frame start the pending table becomes active. (R293) -/
  | bsTableActivate (s : StackId)
  /-- Sets or clears BS_FREEZE, which stops or resumes new grants. (R291) -/
  | bsFreezeWrite (s : StackId) (freeze : Bool)
  /-- A GH_BS_RANK write applies from the next cycle, or is discarded when it names a code twice. (R293) -/
  | bsRankWrite (r : Requester) (s : StackId) (v : Word)
  /-- A write of an SQ tail doorbell, validated and replacing the previous value. (R455) -/
  | sqDoorbell (q : QpId) (v : W32)
  /-- A write of a CQ head doorbell, releasing entries. (R455) -/
  | cqDoorbell (q : QpId) (v : W32)
  /-- A write of a DMA channel's ring tail. (R455) -/
  | dmaDoorbell (c : Fin 8) (v : W32)
  /-- The device fetches SQ slots by weighted round-robin up to the tail. (R453) -/
  | sqFetch (q : QpId) (ok : Bool)
  /-- A WCS command that does nothing and completes. (R344) -/
  | wcsNop (q : QpId)
  /-- Tiles, distributes and computes C = A · B with its epilogue. (R344) -/
  | gemm (q : QpId) (ts : Fin 1024)
  /-- A GEMM that takes the sparse path where summaries allow skipping. (R344) -/
  | spgemm (q : QpId) (ts : Fin 1024)
  /-- Computes masked online-softmax attention per query head. (R344) -/
  | attention (q : QpId) (ts : Fin 1024)
  /-- Computes routed and shared experts for tokens with Piccolo prediction and audits. (R345) -/
  | ffnPredicted (q : QpId) (ts : Fin 1024)
  /-- When AUDITED has grown by WINDOW, Virhan adjusts TAU or K_TOP from the counter deltas. (R196) -/
  | piccoloAdapt (layer : Nat)
  /-- Issues EMB_BAG on every stack holding table rows. (R344) -/
  | embeddingBag (q : QpId) (ts : Fin 1024)
  /-- Runs an epilogue stage list on the VXE. (R344) -/
  | elementwise (q : QpId) (ts : Fin 1024)
  /-- Reduces along an axis in the VXE tree order. (R344) -/
  | reduce (q : QpId) (ts : Fin 1024)
  /-- Requantises master weights through VREQ and publishes codes with parameters. (R344) -/
  | quantize (q : QpId) (ts : Fin 1024)
  /-- Copies tiles between descriptors, compacting only on a format change. (R344) -/
  | wcsCopy (q : QpId) (ts : Fin 1024)
  /-- Moves tiles to DENSE-length space and sets PINNED. (R358) -/
  | pin (q : QpId)
  /-- Clears PINNED on a range of entries. (R358) -/
  | unpin (q : QpId)
  /-- Loads user bundles and starts them in granted contexts. (R360) -/
  | launchKernel (q : QpId) (base : Fin 2048)
  /-- A kernel's TIMEOUT elapses, and Virhan stops its contexts and completes it ABORTED. (R360) -/
  | kernelTimeout (k : Nat)
  /-- Completes once every earlier command of its queue has completed. (R349) -/
  | wcsFence (q : QpId)
  /-- Adds ADD to a command event after earlier commands complete. (R349) -/
  | eventSignal (q : QpId)
  /-- Blocks its queue until a command event reaches TARGET. (R349) -/
  | eventWait (q : QpId)
  /-- A command event reaches TARGET, and the EVENT_WAIT completes. (R349) -/
  | eventWaitSatisfied (q : QpId)
  /-- An EVENT_WAIT times out, completes with TASK_HANG and halts its queue. (R349) -/
  | eventWaitTimeout (q : QpId)
  /-- Writes VALUE to the queue's progress register at its completion point. (R349) -/
  | progress (q : QpId)
  /-- Collective reduction of buffers across the group in fixed order. (R398) -/
  | allReduce (q : QpId) (peers : List Contribution)
  /-- Reduces and leaves chunk r on rank r. (R398) -/
  | reduceScatter (q : QpId) (peers : List Contribution)
  /-- Gathers every rank's contribution to every rank. (R398) -/
  | allGather (q : QpId) (peers : List Contribution)
  /-- Exchanges ragged blocks by send-count table. (R399) -/
  | allToAll (q : QpId) (peers : List Contribution)
  /-- Sends each rank's data to its table destination, or records a re-shard when SRC equals DST. (R398) -/
  | permute (q : QpId) (peers : List Contribution)
  /-- At the step boundary a recorded re-shard moves shards around their cycles through staging. (R407) -/
  | reshardExecute (q : QpId) (peers : List Contribution)
  /-- A BARRIER collective completes when every member has arrived. (R412) -/
  | collectiveBarrier (q : QpId)
  /-- Writes VALUE and LIMIT of a global turnstile at the root. (R413) -/
  | gturnSet (q : QpId)
  /-- Defines a collective group's members in rank order. (R397) -/
  | defineGroup (q : QpId)
  /-- A STEP_END command and its predecessors have completed; Virhan commits slots, applies re-shards and posts. (R350) -/
  | stepBoundary (q : QpId)
  /-- A core's tile-task runtime claims units from the command's turnstile as its engines free. (R354) -/
  | tileUnitClaim (n : CoreId) (job : Nat)
  /-- A core with room picks the next ready task by priority, class ceiling and age. (R366) -/
  | taskDispatch (n : CoreId)
  /-- The placement interval expires, and Virhan migrates hot and cold tiles. (R364) -/
  | placementInterval (places : List (BitVec 22))
  /-- Virhan re-runs the producer of a poisoned recomputable tile, or requests a checkpoint reload. (R359) -/
  | recompute (h : BitVec 24)
  /-- A tile task that met a parity-poisoned unit re-runs its work unit, at most two times. (R478) -/
  | tileRerun (n : CoreId) (repaired : Bool)
  /-- A completion entry is written to its CQ in order, raising MSI-X as configured. (R456) -/
  | cqEntryPost (q : QpId)
  /-- COAL_US elapses after the first unsignalled entry, and the vector is raised. (R459) -/
  | coalTimer (q : QpId)
  /-- A write to HIF_Q_POST posts a user entry to the CQ. (R457) -/
  | hifQPost (r : Requester) (q : QpId) (v : Word)
  /-- Setting EN takes a DISABLED pair to ACTIVE. (R454) -/
  | hifQEnable (q : QpId)
  /-- Clearing EN stops fetching, and the pair enters DRAINING. (R454) -/
  | hifQDisable (q : QpId)
  /-- A DRAINING pair's commands have posted, and it enters DISABLED. (R454) -/
  | hifQDrainDone (q : QpId)
  /-- Completes every unstarted command ABORTED and sets the head to the tail. (R453) -/
  | hifQAbort (q : QpId)
  /-- Returns a HALTED queue to ACTIVE. (R453) -/
  | hifQRestart (q : QpId)
  /-- Enables or disables a DMA channel under the enabling rules. (R460) -/
  | dmaEnable (c : Fin 8) (v : Word)
  /-- A channel executes one descriptor and posts its entry. (R460) -/
  | dmaDescriptor (c : Fin 8) (lost : List Nat)
  /-- A host access through the BAR2 aperture is served, discarded or refused by its target. (R448) -/
  | bar2Access (x : Nat) (len : Nat) (data : List Byte) (write ep : Bool)
  /-- Moves the BAR2 aperture base, discarding a remote base. (R447) -/
  | hifBar2MapWrite (r : Requester) (v : Word)
  /-- A read of HIF_PROG_STAT latches POS for the next HIF_PROG_POS read. (R462) -/
  | progStatRead (i : Fin 16)
  /-- A PowerState write to D3hot stops fetching and holds completions. (R445) -/
  | d3hotEntry
  /-- A return to D0 posts held entries and resumes fetching. (R445) -/
  | d0Return
  /-- PERST_N deasserts with PWR_GOOD, and the device runs boot stages 1–7 to READY. (R464) -/
  | boot (e : BootEnv)
  /-- A boot stage exceeds its limit, and the boot fails into recovery. (R466) -/
  | bootStageTimeout (stage : Fin 8) (e : BootEnv)
  /-- PERST_N asserts: cores stop, stacks self-refresh, ports go down. (R467) -/
  | perstAssert
  /-- A Function Level Reset performs rung 2 of the recovery ladder. (R467) -/
  | flr
  /-- A keyed write to CHIP_RESET performs rung 3, as PERST_N does. (R505) -/
  | chipResetGo (v : Word)
  /-- HIF_FW_CTL.START verifies an image and writes the inactive flash slot. (R469) -/
  | fwUpdateStart (r : Requester)
  /-- HIF_FW_CTL.ABORT stops an update and leaves the inactive slot invalid. (R469) -/
  | fwUpdateAbort (r : Requester)
  /-- Makes the trial image the default slot. (R469) -/
  | fwCommit
  /-- Raises the fused security counter to the image's SVN. (R469) -/
  | fwCommitSvn
  /-- An MCTP or PLDM message on the sideband is answered by the AUX controller. (R471) -/
  | pldmRequest (t : Pldm Byte)
  /-- The PLDM effecter writes BLW_CAP. (R471) -/
  | pldmCapEffecter (w : Pldm (BitVec 16))
  /-- A PLDM firmware update verifies and writes an image as R469 does. (R472) -/
  | pldmFwUpdate (image : Pldm (List Word))
  /-- HIF_DBG_CTL bit 0 verifies the token and opens its scopes, or counts a failure. (R474) -/
  | debugUnlock (jtag : Bool)
  /-- Loads EXTEST, giving outputs to the boundary-scan register and taking links down. (R530) -/
  | extest (v : Word)
  /-- Loads the IEEE 1149.6 AC test on SerDes pairs. (R530) -/
  | extestPulse
  /-- Selects the 32-bit IDCODE register. (R529) -/
  | idcode
  /-- Samples or preloads the boundary-scan register. (R529) -/
  | samplePreload (v : Word)
  /-- Selects the bypass register. (R529) -/
  | bypass
  /-- Accesses internal instruments when scope 0 is unlocked. (R529) -/
  | ieee1687Access (v : Word)
  /-- Halts and steps control cores when scope 2 is unlocked. (R529) -/
  | ccHaltStep (cc : Fin 4) (step : Bool)
  /-- Accesses SRAM and stacks when scope 3 is unlocked. (R529) -/
  | jtagMemoryAccess (a : Nat) (v : Word) (write : Bool)
  /-- Reads the 128-bit unlock challenge. (R529) -/
  | challengeRead
  /-- Writes a 1,280-bit debug token through JTAG. (R529) -/
  | tokenWrite (ws : List Word)
  /-- A reset of the test access port returns outputs from the boundary-scan register. (R531) -/
  | tapReset
  /-- GP_CTL.RETRAIN takes a gang port down and starts training. (R375) -/
  | gpRetrain (p : GpId)
  /-- XP_CTL.RETRAIN takes a scale-out port down and restarts the link. (R380) -/
  | xpRetrain (p : XpId)
  /-- Training of a port ends with the widest passing lane count, or DOWN. (R372) -/
  | linkTrainingDone (p : PortId) (lanes : Nat)
  /-- Every 10 ms Virhan retrains a DOWN port. (R372) -/
  | portRetrainTimer (p : PortId)
  /-- A PEER message arrives in IDENTIFY, and the port becomes ACTIVE or MISMATCH. (R369) -/
  | peer (p : PortId) (m : PeerMsg)
  /-- Every 1 µs an ACTIVE gang port sends a HEARTBEAT. (R373) -/
  | heartbeatSend (p : PortId)
  /-- A HEARTBEAT message arrives, resetting the loss timer and feeding time synchronisation. (R373) -/
  | heartbeat (p : PortId) (t : ThreeTimes)
  /-- 3 µs pass without a heartbeat; the port goes DOWN and LINK_DOWN is raised. (R373) -/
  | heartbeatTimeout (p : PortId)
  /-- A flit failing its CRC is replayed, and after 4 replays DETECT_LINK is raised and the port retrained. (R371) -/
  | flitReplay (p : GpId) (seq : BitVec 12) (good : Bool)
  /-- A DATA message arrives and is checked, landed or refused. (R390) -/
  | data (p : PortId) (h : BwtHeader) (d : DataMsg)
  /-- The ACCUM commands of an accumulate-window DATA complete; it becomes visible and is acknowledged. (R393) -/
  | accumWindowVisible (w : WinId)
  /-- A credit request is granted, queued or refused. (R389) -/
  | credReq (p : PortId) (h : BwtHeader) (w : BitVec 10) (count : BitVec 16) (reqid : W32)
  /-- A credit grant arrives at the sender and fills its credit cache. (R391) -/
  | credGrant (p : PortId) (h : BwtHeader) (w : BitVec 10) (count : BitVec 16) (reqid token : W32)
  /-- A REFUSE arrives, and the matching transfer fails with its code. (R389) -/
  | refuse (p : PortId) (h : BwtHeader) (id : W32) (code : Byte) (isReq : Bool)
  /-- An acknowledgement arrives and completes the acknowledged transfers. (R383) -/
  | ack (p : PortId) (h : BwtHeader)
  /-- With no other message due, an ACK is sent within 200 ns. (R383) -/
  | ackTimer (dev : DevId)
  /-- A sender returns unused credits to a window. (R388) -/
  | credReturn (p : PortId) (h : BwtHeader) (token : W32) (count : BitVec 16)
  /-- A collective step acknowledgement or abort arrives. (R401) -/
  | cstep (p : PortId) (h : BwtHeader) (group : Byte) (serial : W32) (step : BitVec 16) (abort : Bool) (code : Byte)
  /-- A scale-out TIME message arrives and updates the offset estimate. (R415) -/
  | timeMessage (p : PortId) (h : BwtHeader) (t : ThreeTimes)
  /-- A global turnstile request or result message arrives. (R413) -/
  | gturnMessage (p : PortId) (h : BwtHeader) (m : GturnMsg)
  /-- A tree-barrier arrival or release message arrives. (R412) -/
  | barrierMessage (p : PortId) (h : BwtHeader) (group : Byte) (gen : W32) (release : Bool)
  /-- The device answers ARP and IPv6 neighbour solicitations for its address. (R376) -/
  | arp (p : XpId) (ip : BitVec 128)
  /-- An unacknowledged scale-out message is resent at 8 and 20 µs, and at 30 µs the peer is unreachable. (R378) -/
  | resendTimer (dev : DevId)
  /-- After each 10 µs without ECE the per-peer rate rises. (R377) -/
  | ecnRateStep (dev : DevId)
  /-- An unused credit expires 100 µs after its grant and returns. (R388) -/
  | creditExpiry (w : WinId) (i : Nat)
  /-- 60 µs after a grant the sender stops using a credit and returns it. (R391) -/
  | senderCreditRetire (dev : DevId) (token : W32)
  /-- A transfer waiting longer than CRED_WAIT fails with NO_CREDIT. (R391) -/
  | creditWaitTimeout (dev : DevId) (i : Nat)
  /-- WIN_CTL.OPEN opens a CLOSED window and advances EPOCH. (R387) -/
  | windowOpen (r : Requester) (w : WinId) (v : Word)
  /-- WIN_CTL.CLOSE puts an OPEN window in CLOSING. (R387) -/
  | windowClose (r : Requester) (w : WinId)
  /-- WIN_CTL.FORCE revokes credits and closes the window. (R387) -/
  | windowForce (r : Requester) (w : WinId)
  /-- A step acknowledgement misses ACKTO; COLL_TIMEOUT is raised and the collective aborted. (R401) -/
  | collectiveStepTimeout (q : QpId) (peer : DevId) (step : BitVec 16)
  /-- WAIT elapses before every member joins, and the collective aborts. (R401) -/
  | collectiveWaitTimeout (q : QpId)
  /-- A write of the device's place, refused while any port is up. (R368) -/
  | chipNodeWrite (r : Requester) (v : Word)
  /-- Group managers exchange heartbeats with the root every 100 µs. (R414) -/
  | managerHeartbeat (beats : MgrInterval)
  /-- Once per 16 ticks the counter adds 0 or 2 to correct its offset. (R415) -/
  | timeSlew
  /-- REFCLK stops or the root PLL loses lock; clocks stop and ALERT_N asserts. (R420) -/
  | refLoss
  /-- At a switch boundary a core changes divider, stalling the whole core. (R423) -/
  | pstateSwitch (n : CoreId)
  /-- The monitor reaches the target voltage, and the dividers switch to the faster state. (R425) -/
  | vcoreRaise (mv : Nat)
  /-- 20 µs pass without the voltage; the raise is abandoned and VR_FAIL set. (R425) -/
  | vcoreRaiseTimeout
  /-- Every 1 µs Bellows reads sensors and sets the class ceiling and PB. (R427) -/
  | bellowsTick (watts : Nat) (temps est : List Nat)
  /-- A write of the power cap, discarded outside 600–1,800 W. (R428) -/
  | blwCapWrite (r : Requester) (v : Word)
  /-- A write of a core's fastest permitted P-state. (R422) -/
  | clkCorePsWrite (r : Requester) (n : CoreId) (v : Word)
  /-- FAST_THROTTLE_N asserts, and every core goes to P3 or slower within 1 µs. (R431) -/
  | fastThrottleAssert
  /-- FAST_THROTTLE_N deasserts, and the FT_HOLD count starts. (R432) -/
  | fastThrottleDeassert
  /-- The pin's hold ends, and cores return one P-state per tick. (R432) -/
  | ftHoldExpiry
  /-- A sensor trips; the device stops and asserts THERM_TRIP_N. (R435) -/
  | thermalTrip (sensor : Fin 64) (temp : BitVec 16)
  /-- A dwell expires, and the device enters the next permitted idle state. (R436) -/
  | idleEntry (st : Fin 5)
  /-- A wake event returns the device to I0. (R440) -/
  | idleWake
  /-- A write of HIF_IDLE.WAKE wakes the device. (R440) -/
  | hifIdleWake
  /-- A write of the wake tolerance, waking the device when it excludes the present state. (R442) -/
  | hifWakeTolWrite (v : Word)
  /-- The host advances ERR_TAIL, or the write is refused when out of range. (R487) -/
  | errTailWrite (v : Word)
  /-- Virhan copies fault records to the flash event log. (R486) -/
  | flashLogCopy
  /-- Virhan drains a core and runs memory BIST, logic BIST and the array scan. (R493) -/
  | onlineTest (n : CoreId) (res : TestResult)
  /-- The sweep period expires, and each core is queued for testing. (R493) -/
  | testSweep
  /-- TST_CORE_CTL.REQUEST queues a test of a core. (R495) -/
  | tstCoreRequest (r : Requester) (v : Word)
  /-- A write fencing MXEs of a core, discarded from the host. (R495) -/
  | tstFenceWrite (r : Requester) (n : CoreId) (v : Word)
  /-- A Glasshouse takes one unit out of service for 200 µs to test it. (R494) -/
  | ghUnitTest (s : StackId) (ok : Bool)
  /-- Virhan moves a logical core to a spare site and raises SPARE_SUBST. (R496) -/
  | spareSubstitution (n : CoreId) (site : Fin 36)
  /-- A write of CHIP_MODE, refused when it clears a core under test. (R490) -/
  | chipModeWrite (r : Requester) (v : Word)
  /-- A write of TST_TRACE_CTL.EN, checked against GPIO output enables and scope 1. (R500) -/
  | traceEnable (r : Requester) (en : Bool)
  /-- A write of GPIO output enables, refused while the trace port is enabled. (R501) -/
  | chipGpioWrite (r : Requester) (v : Word)
  /-- A timer channel expires and adds 1 to its command event. (R501) -/
  | chipTimerExpiry (k : Fin 8)
  /-- HIF_ADVICE.ACK removes the outstanding rung-1 conditions. (R503) -/
  | hifAdviceAck
  /-- PWR_GOOD asserts after the rails rise in order. (R518) -/
  | powerUp
  /-- PWR_GOOD drops or a main rail leaves tolerance, and the device stops within 2 µs. (R520) -/
  | powerLoss
  /-- An AUX rail leaves tolerance, and the device and its sideband stop. (R522) -/
  | auxRailLoss
  /-- A Glasshouse command finishes its last write and performs its completion action (core event, completion record or turnstile add), freeing its queue entry. (R210) -/
  | ghCommandComplete (s : StackId) (q : QId)
  /-- A write of GP_CTL.EN or XP_CTL takes a port between DISABLED and TRAINING, or is refused with CONFIG_CONFLICT when it changes guarded fields while ACTIVE. (R375) -/
  | portCtlWrite (r : Requester) (p : PortId) (v : Word)
  /-- A write of CHIP_TIMER starts or stops a host timer channel, or is discarded with CONFIG_CONFLICT for channels 0–3. (R501) -/
  | chipTimerWrite (r : Requester) (k : Fin 8) (v : Word)
  /-- A write of SC_TCTX_PC, CODE, POISON or REG stores the value, or is discarded with CONFIG_CONFLICT while the context is READY, RUNNING or WAITING. (R336) -/
  | scTctxRegWrite (r : Requester) (n : CoreId) (c : CtxId) (reg : TctxReg) (v : Word)
  /-- A write of STR_PROG, STR_Q_SRC, STR_Q_DST or STR_Q_IR is stored, or is discarded with CONFIG_CONFLICT while the queue is RUNNING, MARK_WAIT or DRAINING. (R266) -/
  | strQRegWrite (r : Requester) (n : CoreId) (q : QId) (reg : StrReg) (v : Word)
  /-- A write of a queue pair's BASE or CFG registers takes effect only while the pair is DISABLED, and is otherwise discarded with CONFIG_CONFLICT. (R454) -/
  | hifQConfigWrite (q : QpId) (reg : QcfgReg) (v : Word)
  /-- A write of XBASE, CREDITS, WIN_PERM or WIN_CMPL of a window is stored, or discarded with CONFIG_CONFLICT or DESC_RANGE when the window is not CLOSED, belongs to Virhan, or CREDITS is out of range. (R387) -/
  | winConfigWrite (r : Requester) (w : WinId) (reg : WinReg) (v : Word)
  /-- A scale-out frame that fails its FCS or UDP checksum is discarded and counted, with DETECT_LINK raised at most once per 1,000 µs per port. (R479) -/
  | fcsFailure (p : XpId)
  /-- A supply rail comes into tolerance: the AUX rails start the sideband 50 ms later, and a main rail rising out of order holds the die and stacks in reset. (R518) -/
  | railRise (rail : Nat)
  deriving DecidableEq, Repr

end Sys2Proof
end

