-- ==== Sys2Proof/Decode.lean ====
section
/-! DEFINITION. The words that spell commands. The commands of this block arrive as register accesses,
events and queue slots; spec/opcode_table.json gives no row any bits, so no word spells a command. The
encodings that the spec does give (bundle slots, WCS slots, register addresses) are read where they act:
Machine/Bundle.lean, Machine/Tensor.lean and Machine/RegMap.lean. -/

namespace Sys2Proof

/-- The command that a word of the opcode table's bits spells: none, since no row has bits. -/
def decodeTableWord (_nbits _w : Nat) : Option Instr := none

end Sys2Proof
end

