-- ==== Sys2Proof/Machine/Fp.lean ====
section
/-! DEFINITION. Numbers and rounding (spec/02, R27-R38, R53): the element formats, the one rounding
mode (nearest, ties away from zero, R32), exact sums, products and quotients rounded once (R33),
maximum and minimum (R35). A value is held exactly, as sign, magnitude and power of two. -/

namespace Sys2Proof.Machine

/-- A value of any format: NaN, an infinity, or (−1)^neg · mag · 2^exp (a zero keeps its sign). -/
inductive Fp where
  | nan
  | inf (neg : Bool)
  | num (neg : Bool) (mag : Nat) (exp : Int)
  deriving DecidableEq, Repr

/-- 2^e for e ≥ 0, else 1. -/
def pow2 (e : Int) : Nat := 2 ^ e.toNat

/-- n / d rounded to the nearest integer, ties up: RNA of a positive quotient (R32, R33). -/
def rnaDiv (n d : Nat) : Nat := if d = 0 then 0 else (2 * n + d) / (2 * d)

/-- n · 2^e rounded to an integer with RNA. -/
def rnaShift (n : Nat) (e : Int) : Nat := if 0 ≤ e then n * pow2 e else rnaDiv n (pow2 (-e))

/-- floor(log2(n / d)) for positive n and d. -/
def log2Quot (n d : Nat) : Int :=
  let l : Int := (Nat.log2 n : Int) - Nat.log2 d
  if n * pow2 (-l) < d * pow2 l then l - 1 else l

/-- The magnitude bits of n / d · 2^e in a binary format of p significand bits whose smallest
subnormal is 2^emin, rounded once with RNA. Overflow is not handled here. -/
def packQuot (p : Nat) (emin : Int) (n d : Nat) (e : Int) : Nat :=
  if n = 0 ∨ d = 0 then 0
  else
    let q := max (log2Quot n d + e - (p - 1 : Nat)) emin
    let k := e - q
    let m := rnaDiv (n * pow2 k) (d * pow2 (-k))
    (q - emin).toNat * 2 ^ (p - 1) + m

/-- A floating-point format: significand bits, exponent of the smallest subnormal, width. -/
structure FpFmt where
  p : Nat
  emin : Int
  width : Nat
  deriving DecidableEq, Repr

/-- FP32: IEEE 754 binary32 (R27). -/
def fmt32 : FpFmt := ⟨24, -149, 32⟩
/-- BF16: the upper half of a binary32 value (R29). -/
def fmt16 : FpFmt := ⟨8, -133, 16⟩
/-- FP8E4M3 (R27, R29). -/
def fmtE4 : FpFmt := ⟨4, -9, 8⟩
/-- FP8E5M2 (R27, R29). -/
def fmtE5 : FpFmt := ⟨3, -16, 8⟩

/-- The magnitude field's finite value (R29, R30: subnormals have their full value). -/
def unpackMag (f : FpFmt) (neg : Bool) (m : Nat) : Fp :=
  let k := 2 ^ (f.p - 1)
  if m / k = 0 then .num neg m f.emin
  else .num neg (k + m % k) (f.emin + (m / k : Nat) - 1)

/-- The value of a bit pattern of a format whose all-ones exponent is IEEE infinity or NaN. -/
def unpackIeee (f : FpFmt) (w : Nat) : Fp :=
  let half := 2 ^ (f.width - 1)
  let neg := decide (half ≤ w % (2 * half))
  let m := w % half
  let top := 2 ^ (f.width - f.p) - 1
  if m / 2 ^ (f.p - 1) = top then
    if m % 2 ^ (f.p - 1) = 0 then .inf neg else .nan
  else unpackMag f neg m

/-- The value of an FP32 word. -/
def of32 (w : Nat) : Fp := unpackIeee fmt32 w
/-- The value of a BF16 word. -/
def of16 (w : Nat) : Fp := unpackIeee fmt16 w
/-- The value of an FP8E5M2 code: 0x7C and 0xFC are infinities, the rest of that row NaN (R29). -/
def ofE5 (w : Nat) : Fp := unpackIeee fmtE5 w
/-- The value of an FP8E4M3 code: 0x7F and 0xFF are NaN, there is no infinity (R29). -/
def ofE4 (w : Nat) : Fp :=
  if w % 128 = 127 then .nan else unpackMag fmtE4 (decide (128 ≤ w % 256)) (w % 128)
/-- The value of an integer. -/
def ofInt (i : Int) : Fp := .num (decide (i < 0)) i.natAbs 0

/-- Two's complement reading of the low w bits. -/
def sx (w : Nat) (n : Nat) : Int :=
  let m := n % 2 ^ w
  if 2 * m < 2 ^ w then m else (m : Int) - 2 ^ w
/-- Two's complement pattern of an integer in w bits. -/
def ux (w : Nat) (i : Int) : Nat := (i % (2 ^ w : Nat)).toNat
/-- clamp(x, lo, hi) of R18. -/
def clampInt (lo hi x : Int) : Int := max lo (min hi x)

/-- The sign bit of a pattern. -/
def sgn (neg : Bool) (bit : Nat) : Nat := if neg then 2 ^ bit else 0

/-- ±n/d·2^e to FP32 with one rounding; overflow gives ±Inf (R34). -/
def quot32 (neg : Bool) (n d : Nat) (e : Int) : Nat :=
  sgn neg 31 + min (packQuot 24 (-149) n d e) 0x7F800000
/-- ±n/d·2^e to BF16 with one rounding; overflow gives ±Inf (R34). -/
def quot16 (neg : Bool) (n d : Nat) (e : Int) : Nat :=
  sgn neg 15 + min (packQuot 8 (-133) n d e) 0x7F80
/-- ±n/d·2^e to FP8E4M3, saturating to ±448 (R34). -/
def quotE4 (neg : Bool) (n d : Nat) (e : Int) : Nat :=
  sgn neg 7 + min (packQuot 4 (-9) n d e) 0x7E
/-- ±n/d·2^e to FP8E5M2, saturating to ±57,344 (R34). -/
def quotE5 (neg : Bool) (n d : Nat) (e : Int) : Nat :=
  sgn neg 7 + min (packQuot 3 (-16) n d e) 0x7B

/-- To FP32; NaN is the canonical quiet NaN (R35). -/
def to32 : Fp → Nat
  | .nan => 0x7FC00000
  | .inf neg => sgn neg 31 + 0x7F800000
  | .num neg m e => quot32 neg m 1 e
/-- To BF16; NaN is the canonical quiet NaN (R35). -/
def to16 : Fp → Nat
  | .nan => 0x7FC0
  | .inf neg => sgn neg 15 + 0x7F80
  | .num neg m e => quot16 neg m 1 e
/-- To FP8E4M3 at a quantiser: NaN gives 0x00, ±Inf the limits (R34, R35). -/
def toE4 : Fp → Nat
  | .nan => 0
  | .inf neg => sgn neg 7 + 0x7E
  | .num neg m e => quotE4 neg m 1 e
/-- To FP8E5M2 at a quantiser: NaN gives 0x00, ±Inf the limits (R34, R35). -/
def toE5 : Fp → Nat
  | .nan => 0
  | .inf neg => sgn neg 7 + 0x7B
  | .num neg m e => quotE5 neg m 1 e
/-- To an integer type of limits lo and hi: RNA, then saturation; NaN gives 0 (R34). -/
def toIntSat (lo hi : Int) : Fp → Int
  | .nan => 0
  | .inf true => lo
  | .inf false => hi
  | .num neg m e =>
    let r : Int := rnaShift m e
    clampInt lo hi (if neg then -r else r)

/-- Lowest INT32 value. -/
def i32Min : Int := -2147483648
/-- Highest INT32 value. -/
def i32Max : Int := 2147483647
/-- Saturation to INT32 (R55). -/
def satI32 (x : Int) : Int := clampInt i32Min i32Max x

/-- True for NaN and the infinities. -/
def Fp.special : Fp → Bool
  | .num .. => false
  | _ => true
/-- True for NaN. -/
def Fp.isNan : Fp → Bool
  | .nan => true
  | _ => false
/-- True for a zero of either sign. -/
def Fp.isZero : Fp → Bool
  | .num _ m _ => m == 0
  | _ => false
/-- The sign; NaN counts as positive. -/
def Fp.neg? : Fp → Bool
  | .nan => false
  | .inf n => n
  | .num n _ _ => n
/-- Negation (of NaN: NaN). -/
def fpNeg : Fp → Fp
  | .nan => .nan
  | .inf n => .inf !n
  | .num n m e => .num (!n) m e
/-- Magnitude. -/
def fpAbs : Fp → Fp
  | .nan => .nan
  | .inf _ => .inf false
  | .num _ m e => .num false m e

/-- Signed mantissa of a finite value at exponent lo ≤ exp. -/
def mantAt (neg : Bool) (m : Nat) (e lo : Int) : Int :=
  let v : Int := m * pow2 (e - lo)
  if neg then -v else v

/-- Exact sum, before rounding, under the IEEE 754 rules (an exact zero sum of unlike signs is +0). -/
def fpAdd : Fp → Fp → Fp
  | .nan, _ => .nan
  | _, .nan => .nan
  | .inf a, .inf b => if a = b then .inf a else .nan
  | .inf a, _ => .inf a
  | _, .inf b => .inf b
  | .num a m e, .num b n f =>
    let lo := min e f
    let s := mantAt a m e lo + mantAt b n f lo
    if s = 0 then .num (a && b) 0 lo else .num (decide (s < 0)) s.natAbs lo
/-- Exact difference. -/
def fpSub (x y : Fp) : Fp := fpAdd x (fpNeg y)
/-- Exact product under the IEEE 754 rules. -/
def fpMul : Fp → Fp → Fp
  | .nan, _ => .nan
  | _, .nan => .nan
  | .inf a, .inf b => .inf (a != b)
  | .inf a, .num b n _ => if n = 0 then .nan else .inf (a != b)
  | .num a m _, .inf b => if m = 0 then .nan else .inf (a != b)
  | .num a m e, .num b n f => .num (a != b) (m * n) (e + f)

/-- A quotient kept exact: a special result, or ±n/d·2^e with d > 0 (R33). -/
inductive Quot where
  | special (v : Fp)
  | ratio (neg : Bool) (n d : Nat) (e : Int)
  deriving DecidableEq, Repr
/-- The IEEE 754 quotient x / y, formed exactly (R33, R37). -/
def fpDiv : Fp → Fp → Quot
  | .nan, _ => .special .nan
  | _, .nan => .special .nan
  | .inf _, .inf _ => .special .nan
  | .inf a, .num b _ _ => .special (.inf (a != b))
  | .num a _ _, .inf b => .special (.num (a != b) 0 0)
  | .num a m e, .num b n f =>
    if n = 0 then (if m = 0 then .special .nan else .special (.inf (a != b)))
    else .ratio (a != b) m n (e - f)
/-- A quotient rounded once to FP32. -/
def quotTo32 : Quot → Nat
  | .special v => to32 v
  | .ratio neg n d e => quot32 neg n d e
/-- A quotient rounded once to BF16. -/
def quotTo16 : Quot → Nat
  | .special v => to16 v
  | .ratio neg n d e => quot16 neg n d e
/-- A quotient rounded to an integer, then clamped (R37, R42). -/
def quotToInt (lo hi : Int) : Quot → Int
  | .special v => toIntSat lo hi v
  | .ratio neg n d e =>
    let r : Int := rnaDiv (n * pow2 e) (d * pow2 (-e))
    clampInt lo hi (if neg then -r else r)

/-- FP32 addition of patterns. -/
def add32 (a b : Nat) : Nat := to32 (fpAdd (of32 a) (of32 b))
/-- FP32 subtraction of patterns. -/
def sub32 (a b : Nat) : Nat := to32 (fpSub (of32 a) (of32 b))
/-- FP32 product of patterns. -/
def mul32 (a b : Nat) : Nat := to32 (fpMul (of32 a) (of32 b))
/-- FP32 quotient of patterns, rounded once. -/
def div32 (a b : Nat) : Nat := quotTo32 (fpDiv (of32 a) (of32 b))

/-- Order of values other than NaN, −0 below +0 (R35). -/
def fpLt : Fp → Fp → Bool
  | .nan, _ => false
  | _, .nan => false
  | .inf a, .inf b => a && !b
  | .inf a, .num .. => a
  | .num .., .inf b => !b
  | .num a m e, .num b n f =>
    let lo := min e f
    let x := mantAt a m e lo
    let y := mantAt b n f lo
    if x = y then (decide (m = 0) && a && !b) else decide (x < y)
/-- Maximum of R35: NaN if either operand is NaN. -/
def fpMax (x y : Fp) : Fp :=
  if x.isNan || y.isNan then .nan else if fpLt x y then y else x
/-- Minimum of R35: NaN if either operand is NaN. -/
def fpMin (x y : Fp) : Fp :=
  if x.isNan || y.isNan then .nan else if fpLt y x then y else x
/-- FP32 maximum of patterns (R35). -/
def max32 (a b : Nat) : Nat := to32 (fpMax (of32 a) (of32 b))
/-- FP32 minimum of patterns (R35). -/
def min32 (a b : Nat) : Nat := to32 (fpMin (of32 a) (of32 b))
/-- IEEE comparison x = y: false with NaN, zeros equal. -/
def fpEq (x y : Fp) : Bool :=
  !x.isNan && !y.isNan && ((x.isZero && y.isZero) || (!fpLt x y && !fpLt y x))
/-- IEEE comparison x < y: false with NaN, zeros equal. -/
def fpLtIeee (x y : Fp) : Bool := fpLt x y && !(x.isZero && y.isZero)

/-- The largest finite FP32 value, which a statistic counts for an infinity (R35). -/
def fp32Big : Nat := 0x7F7FFFFF

/-- Element-type codes of R27. -/
def etInt4 : Nat := 0
def etInt8 : Nat := 1
def etE4 : Nat := 2
def etE5 : Nat := 3
def etBf16 : Nat := 4
def etFp32 : Nat := 5
def etInt32 : Nat := 6

/-- Bits of an element of a type (R27); 0 for a reserved code. -/
def etBits (t : Nat) : Nat :=
  match t with
  | 0 => 4
  | 1 => 8
  | 2 => 8
  | 3 => 8
  | 4 => 16
  | 5 => 32
  | 6 => 32
  | _ => 0

/-- The value of an element's bit pattern. -/
def elemFp (t w : Nat) : Fp :=
  match t with
  | 0 => ofInt (sx 4 w)
  | 1 => ofInt (sx 8 w)
  | 2 => ofE4 w
  | 3 => ofE5 w
  | 4 => of16 w
  | 5 => of32 w
  | _ => ofInt (sx 32 w)

/-- A value converted to an element type (R34). -/
def fpElem (t : Nat) (v : Fp) : Nat :=
  match t with
  | 0 => ux 4 (toIntSat (-8) 7 v)
  | 1 => ux 8 (toIntSat (-128) 127 v)
  | 2 => toE4 v
  | 3 => toE5 v
  | 4 => to16 v
  | 5 => to32 v
  | _ => ux 32 (toIntSat i32Min i32Max v)

/-- True where a conversion to an integer type meets NaN or an infinity, which sets NAN_SEEN (R35). -/
def convNan (t : Nat) (v : Fp) : Bool := (t == 0 || t == 1 || t == 6) && v.special

/-! ### One column of one floating-point pass (R53) -/

/-- Unbiased exponent of a factor; a subnormal counts with its format's minimum normal exponent. -/
def factorExp (f : FpFmt) (w : Nat) : Int :=
  let m := w % 2 ^ (f.width - 1)
  max ((m / 2 ^ (f.p - 1) : Nat) : Int) 1 + f.emin + (f.p - 1 : Nat) - 1

/-- A product of a column: the exponent sum and the exact signed value m · 2^e. -/
structure Prod where
  esum : Int
  neg : Bool
  mag : Nat
  exp : Int
  deriving DecidableEq, Repr

/-- The exact sum of a column's window (R53, steps 1 to 3): each product rounded with RNA to a
multiple of 2^(E−38), summed exactly, converted to FP32. `none` when every product is zero. -/
def windowSum (ps : List Prod) : Option Nat :=
  match (ps.filter fun p => p.mag != 0) with
  | [] => none
  | q :: qs =>
    let e := qs.foldl (fun a p => max a p.esum) q.esum
    let s := (q :: qs).foldl (fun (a : Int) p =>
      let r : Int := rnaShift p.mag (p.exp - (e - 38))
      if p.neg then a - r else a + r) 0
    some (quot32 (decide (s < 0)) s.natAbs 1 (e - 38))

end Sys2Proof.Machine
end

