-- ==== Sys2Proof/Config.lean ====
section
/-! DEFINITION. What one implementation fixes, and the free values: constants without a body, for
what the spec leaves open. No proof can see their values, so a statement holds for every one. -/

namespace Sys2Proof

/-- The device's fused serial number (CHIP_SERIAL, R541); assumption 1, DESIGN CHOICE. -/
opaque Config.serial : Nat
/-- The free value of a draw: what the spec calls undefined, or leaves open, is the next draw of
State.draws (assumption 2, DESIGN CHOICE). Every use takes it modulo the width of the value it stands for. -/
opaque Config.freeNat : Nat → Nat
/-- The approximated functions of R118 and R324: function code, then the FP32 operand's bits, to
the FP32 result's bits (assumption 3, DESIGN CHOICE). The spec bounds the error; the value is left free. -/
opaque Config.approx : Nat → Nat → Nat
/-- Verdict of a signature or certificate check over the bytes named (R468, R474; assumption 4, DESIGN CHOICE). -/
opaque Config.authentic : List (BitVec 64) → Bool
/-- A field of a Virhan image, whose layout the spec does not give (R468; assumption 4, DESIGN CHOICE): of the image's
words, field 0 its security version, 1 its key index, 2 its version as in CHIP_FW_VER[63:16]. -/
opaque Config.imageField : List (BitVec 64) → Nat → Nat
/-- Brumeholt's JEDEC manufacturer identity code, 11 bits (R529; assumption 15, DESIGN CHOICE). -/
opaque Config.jedec : Nat
/-- Set of a directory cache that an entry goes to, of 4,096 (R154; assumption 11, DESIGN CHOICE). -/
opaque Config.cacheSet : Nat → Nat
/-- The words of the Bandstand table that Virhan commits after stack training, where they give every requester its
number of slots (R293; assumption 180, DESIGN CHOICE). -/
opaque Config.bandTable : Nat → Nat
/-- Mesh distance between two physical sites; how the sites are numbered on the mesh is not in the spec
(R21, R279; assumption 17, DESIGN CHOICE). -/
opaque Config.siteDist : Nat → Nat → Nat
/-- The window of another device that exports an offset (R386, R391): device, offset; how a sender
learns it is left open (assumption 12, DESIGN CHOICE). -/
opaque Config.remoteWindow : Nat → Nat → Nat
/-- The device that holds the ROOT role when the system starts (R411, assumption 13, DESIGN CHOICE). -/
opaque Config.rootDevice : Nat

end Sys2Proof
end

