-- ==== Sys2Proof/Machine/RegMap.lean ====
section
/-! DEFINITION. The CSR map of the part: every register of spec/17 (R536-R541), its block base and
offset (R538, R539, R540), its fields with their access codes (R10) and reset values, and the
decoding of a device address to the register at it. The fields follow the register tables of the
rule named beside each register. -/

namespace Sys2Proof.Machine

/-- The access codes of R10. -/
inductive Acc where
  | ro | rw | wo | w1c | w1s | rc
  deriving DecidableEq, Repr

/-- A bit range [hi:lo] of a register (R4). -/
structure Fld where
  hi : Nat
  lo : Nat
  deriving DecidableEq, Repr

/-- One row of a register table: the bits, the access code, the reset value. -/
structure FldSpec where
  fld : Fld
  acc : Acc
  reset : Nat
  deriving DecidableEq, Repr

/-- Every register of the register index (spec/17), by its array indices: a core n, an MXE m, a
stack s, a port p, then the register's own indices. `none` is any CSR address that no register
occupies, which reads 0 and discards writes (R538). -/
inductive Reg where
  | none
  | ssParam (i : Nat)
  | ssCenter (i : Nat)
  | ssCur (i : Nat)
  | ssCtrl (i : Nat)
  | mxeWparam (n m i : Nat)
  | mxeColsum (n m i : Nat)
  | mxeRowcnt (n m : Nat)
  | mxeCfg (n m : Nat)
  | mxeBypass (n m : Nat)
  | mxeWidth (n m : Nat)
  | mxeStatus (n m : Nat)
  | mxeAbftCnt (n m : Nat)
  | mxeStallCnt (n m : Nat)
  | mxeAccState (n m : Nat)
  | scAccInterlock (n : Nat)
  | ghDirBase (s : Nat)
  | ghDirCtl (s : Nat)
  | ghDirStat (s : Nat)
  | ghDirErr (s : Nat)
  | mxeSpfCnt (n m : Nat)
  | mxeSpfStat (n m : Nat)
  | picCtl (n : Nat)
  | picStat (n : Nat)
  | ghCmdqCtl (s i : Nat)
  | ghCmdqStat (s i : Nat)
  | ghHeapBase (s : Nat)
  | ghHeapLim (s : Nat)
  | ghStatus (s : Nat)
  | ghScrubCtl (s : Nat)
  | ghScrubStat (s : Nat)
  | ghRepairStat (s : Nat)
  | cmcStatus (n : Nat)
  | cmcConflictCnt (n : Nat)
  | cmcBgCtl (n : Nat)
  | cmcBgCnt (n : Nat)
  | cmcShadowInv (n : Nat)
  | cmcShadowErr (n : Nat)
  | cmcCtl (n : Nat)
  | cmcConfLog (n i : Nat)
  | tsCnt (i : Nat)
  | tsNotify (i : Nat)
  | barState (i : Nat)
  | barCtl (i : Nat)
  | winLocal (i : Nat)
  | strQCtl (n i : Nat)
  | strQSrc (n i : Nat)
  | strQDst (n i : Nat)
  | strQStat (n i : Nat)
  | strQCnt (n i : Nat)
  | strQIr (n i j : Nat)
  | strProg (n i j : Nat)
  | strCfg (n : Nat)
  | strColStat (n : Nat)
  | strColCnt (n : Nat)
  | bsSlot (s i : Nat)
  | bsAct (s i : Nat)
  | bsRank (s : Nat)
  | bsCtl (s : Nat)
  | bsStat (s : Nat)
  | bsGrants (s i : Nat)
  | bsWait (s i : Nat)
  | vxeStat (n : Nat)
  | scEvent (n : Nat)
  | scEventSet (n : Nat)
  | scStallCnt (n : Nat)
  | scTaskWdog (n : Nat)
  | tctxCtl (n i : Nat)
  | tctxCode (n i : Nat)
  | tctxPc (n i : Nat)
  | tctxStat (n i : Nat)
  | tctxPoison (n i : Nat)
  | tctxReg (n i j : Nat)
  | scEvstat (n i : Nat)
  | placeCtl
  | placeStat
  | dispCtl
  | chipNode
  | gpCtl (p : Nat)
  | gpStatus (p : Nat)
  | gpCnt (p : Nat)
  | xpCtl (p : Nat)
  | xpStatus (p : Nat)
  | xpCnt (p : Nat)
  | winCtl (i : Nat)
  | winStat (i : Nat)
  | winCmpl (i : Nat)
  | winGctl
  | winLog
  | csrtCtl
  | csrtStat
  | chipTsync
  | chipTime
  | clkStatus
  | clkCorePs (i : Nat)
  | blwCap
  | blwCtl
  | blwGap
  | blwStat
  | blwCnt
  | blwCore (i : Nat)
  | blwTemp (i : Nat)
  | hifWakeTol
  | hifIdle
  | hifBar2Map
  | hifSqBase (i : Nat)
  | hifCqBase (i : Nat)
  | hifQCfg (i : Nat)
  | hifQCtl (i : Nat)
  | hifQStat (i : Nat)
  | hifProgStat (i : Nat)
  | hifBoot
  | chipMode
  | chipTimer (i : Nat)
  | chipGpio
  | hifAdvice
  | chipReset
  | chipId
  | chipFwVer
  | chipSerial
  | ssHist (i j : Nat)
  | mxeDrnChain (n m i j : Nat)
  | fifeDrnChain (n i j : Nat)
  | ibuf (n i : Nat)
  | coreMap (i : Nat)
  | siteStat
  | hifFwSrc
  | hifFwCtl
  | hifFwStat
  | dbgChal (i : Nat)
  | dbgCtl
  | dbgStat
  | dbgToken (i : Nat)
  | hifProgPos (i : Nat)
  | hifSqProg (i : Nat)
  | hifQPost (i : Nat)
  | dmaBase (i : Nat)
  | dmaCfg (i : Nat)
  | dmaStat (i : Nat)
  | msixTable (i : Nat)
  | msixPba (i : Nat)
  | xpAddr (p : Nat)
  | xpIp (p i : Nat)
  | csrtPeertab
  | winPerm (i : Nat)
  | winCnt
  | tstCoreCtl
  | tstSweep
  | tstStat
  | tstFence (i : Nat)
  | tstSramCnt (i : Nat)
  | tstSramOrg
  | tstTraceCtl
  | errCtl
  | errHead
  | errTail
  | errStat
  | errMgmt
  | errRing (i j : Nat)
  | ghCmdqPush (s i j : Nat)
  | ghPhy (s i : Nat)
  deriving DecidableEq, Repr

namespace F

-- ssParam, R39
def ssParamScale : Fld := ⟨63, 32⟩
def ssParamZp : Fld := ⟨31, 24⟩
def ssParamShift : Fld := ⟨23, 21⟩
def ssParamEtype : Fld := ⟨19, 16⟩
def ssParamHlen : Fld := ⟨15, 11⟩
def ssParamConst : Fld := ⟨10, 10⟩
def ssParamNanSeen : Fld := ⟨9, 9⟩
-- ssCenter, R39
def ssCenterCenter : Fld := ⟨63, 32⟩
def ssCenterHead : Fld := ⟨31, 28⟩
def ssCenterCount : Fld := ⟨27, 23⟩
def ssCenterSteps : Fld := ⟨15, 0⟩
-- ssCur, R39
def ssCurCurAmax : Fld := ⟨63, 32⟩
def ssCurReported : Fld := ⟨31, 31⟩
-- ssCtrl, R39
def ssCtrlClear : Fld := ⟨1, 1⟩
def ssCtrlCommit : Fld := ⟨0, 0⟩
-- mxeWparam, R48
def mxeWparamScale : Fld := ⟨63, 32⟩
def mxeWparamZp : Fld := ⟨31, 24⟩
-- mxeColsum, R48
def mxeColsumColsum : Fld := ⟨31, 0⟩
-- mxeRowcnt, R48
def mxeRowcntRows : Fld := ⟨7, 0⟩
-- mxeCfg, R65
def mxeCfgAbftEn : Fld := ⟨11, 8⟩
def mxeCfgTranspose : Fld := ⟨7, 4⟩
def mxeCfgGang : Fld := ⟨1, 0⟩
-- mxeBypass, R86
def mxeBypassEn3 : Fld := ⟨31, 31⟩
def mxeBypassCol3 : Fld := ⟨30, 24⟩
def mxeBypassEn2 : Fld := ⟨23, 23⟩
def mxeBypassCol2 : Fld := ⟨22, 16⟩
def mxeBypassEn1 : Fld := ⟨15, 15⟩
def mxeBypassCol1 : Fld := ⟨14, 8⟩
def mxeBypassEn0 : Fld := ⟨7, 7⟩
def mxeBypassCol0 : Fld := ⟨6, 0⟩
-- mxeWidth, R87
def mxeWidthBypassed : Fld := ⟨27, 25⟩
def mxeWidthWidthBf16 : Fld := ⟨24, 17⟩
def mxeWidthWidthW8 : Fld := ⟨16, 9⟩
def mxeWidthWidthW4 : Fld := ⟨8, 0⟩
-- mxeStatus, R96
def mxeStatusLevel : Fld := ⟨10, 8⟩
def mxeStatusFenced : Fld := ⟨3, 3⟩
def mxeStatusSvalid : Fld := ⟨2, 2⟩
def mxeStatusWvalid : Fld := ⟨1, 1⟩
def mxeStatusBusy : Fld := ⟨0, 0⟩
-- mxeAbftCnt, R96
def mxeAbftCntChecked : Fld := ⟨63, 32⟩
def mxeAbftCntReplays : Fld := ⟨31, 16⟩
def mxeAbftCntMismatches : Fld := ⟨15, 0⟩
-- mxeStallCnt, R96
def mxeStallCntRamp : Fld := ⟨63, 42⟩
def mxeStallCntDrain : Fld := ⟨41, 21⟩
def mxeStallCntFeed : Fld := ⟨20, 0⟩
-- mxeAccState, R103
def mxeAccStateOwn1 : Fld := ⟨33, 33⟩
def mxeAccStateOwn0 : Fld := ⟨32, 32⟩
def mxeAccStateSat : Fld := ⟨31, 24⟩
def mxeAccStateState : Fld := ⟨23, 0⟩
-- scAccInterlock, R108
def scAccInterlockCycles : Fld := ⟨63, 32⟩
def scAccInterlockEvents : Fld := ⟨31, 0⟩
-- ghDirBase, R163
def ghDirBaseBase : Fld := ⟨36, 26⟩
-- ghDirCtl, R163
def ghDirCtlFlush : Fld := ⟨2, 2⟩
def ghDirCtlInval : Fld := ⟨1, 1⟩
def ghDirCtlEn : Fld := ⟨0, 0⟩
-- ghDirStat, R163
def ghDirStatHits : Fld := ⟨63, 32⟩
def ghDirStatMisses : Fld := ⟨31, 0⟩
-- ghDirErr, R163
def ghDirErrHandle : Fld := ⟨39, 16⟩
def ghDirErrCause : Fld := ⟨7, 0⟩
-- mxeSpfCnt, R179
def mxeSpfCntPasses : Fld := ⟨63, 40⟩
def mxeSpfCntMatched : Fld := ⟨39, 16⟩
def mxeSpfCntSkipped : Fld := ⟨15, 0⟩
-- mxeSpfStat, R179
def mxeSpfStatQfull : Fld := ⟨63, 32⟩
def mxeSpfStatGather : Fld := ⟨31, 0⟩
-- picCtl, R189
def picCtlLtBase : Fld := ⟨44, 32⟩
def picCtlPhase : Fld := ⟨31, 16⟩
def picCtlAuditExp : Fld := ⟨11, 8⟩
def picCtlEn : Fld := ⟨0, 0⟩
-- picStat, R189
def picStatPredictions : Fld := ⟨63, 40⟩
def picStatAudits : Fld := ⟨39, 16⟩
def picStatDeferred : Fld := ⟨15, 0⟩
-- ghCmdqCtl, R206
def ghCmdqCtlWeight : Fld := ⟨11, 8⟩
def ghCmdqCtlReset : Fld := ⟨1, 1⟩
def ghCmdqCtlEn : Fld := ⟨0, 0⟩
-- ghCmdqStat, R206
def ghCmdqStatCompleted : Fld := ⟨63, 32⟩
def ghCmdqStatOverflow : Fld := ⟨23, 23⟩
def ghCmdqStatDepth : Fld := ⟨8, 0⟩
-- ghHeapBase, R218
def ghHeapBaseOffset : Fld := ⟨36, 26⟩
-- ghHeapLim, R218
def ghHeapLimOffset : Fld := ⟨36, 26⟩
-- ghStatus, R228
def ghStatusRaw : Fld := ⟨3, 3⟩
def ghStatusScrubActive : Fld := ⟨2, 2⟩
def ghStatusRefresh2x : Fld := ⟨1, 1⟩
def ghStatusReady : Fld := ⟨0, 0⟩
-- ghScrubCtl, R228
def ghScrubCtlPeriod : Fld := ⟨47, 32⟩
def ghScrubCtlEn : Fld := ⟨0, 0⟩
-- ghScrubStat, R228
def ghScrubStatCorrected : Fld := ⟨63, 32⟩
def ghScrubStatBad : Fld := ⟨31, 0⟩
-- ghRepairStat, R228
def ghRepairStatRowsUsed : Fld := ⟨63, 48⟩
def ghRepairStatBanksUsed : Fld := ⟨47, 40⟩
def ghRepairStatTsvsUsed : Fld := ⟨39, 32⟩
def ghRepairStatQueued : Fld := ⟨31, 16⟩
def ghRepairStatUnrepaired : Fld := ⟨15, 0⟩
-- cmcStatus, R248
def cmcStatusLogged : Fld := ⟨7, 4⟩
def cmcStatusVmode : Fld := ⟨1, 1⟩
def cmcStatusPending : Fld := ⟨0, 0⟩
-- cmcConflictCnt, R248
def cmcConflictCntCycles : Fld := ⟨63, 32⟩
def cmcConflictCntEvents : Fld := ⟨31, 0⟩
-- cmcBgCtl, R248
def cmcBgCtlWaitMax : Fld := ⟨15, 0⟩
-- cmcBgCnt, R248
def cmcBgCntForced : Fld := ⟨63, 32⟩
def cmcBgCntWaited : Fld := ⟨31, 0⟩
-- cmcShadowInv, R248
def cmcShadowInvCount : Fld := ⟨63, 48⟩
def cmcShadowInvFirst : Fld := ⟨15, 0⟩
-- cmcShadowErr, R248
def cmcShadowErrUnit : Fld := ⟨31, 16⟩
def cmcShadowErrKind : Fld := ⟨1, 0⟩
-- cmcCtl, R248
def cmcCtlLogClr : Fld := ⟨0, 0⟩
-- cmcConfLog, R248
def cmcConfLogDeferred : Fld := ⟨63, 60⟩
def cmcConfLogServed : Fld := ⟨59, 56⟩
def cmcConfLogSubbank : Fld := ⟨55, 52⟩
def cmcConfLogOffset : Fld := ⟨22, 0⟩
-- tsCnt, R254
def tsCntLimit : Fld := ⟨63, 32⟩
def tsCntValue : Fld := ⟨31, 0⟩
-- tsNotify, R254
def tsNotifyArm : Fld := ⟨45, 45⟩
def tsNotifyCore : Fld := ⟨44, 40⟩
def tsNotifyEvent : Fld := ⟨37, 32⟩
def tsNotifyExhausted : Fld := ⟨31, 0⟩
-- barState, R257
def barStateGen : Fld := ⟨63, 32⟩
def barStateArrived : Fld := ⟨31, 16⟩
def barStateCount : Fld := ⟨15, 0⟩
-- barCtl, R257
def barCtlAbort : Fld := ⟨1, 1⟩
def barCtlReset : Fld := ⟨0, 0⟩
-- winLocal, R260
def winLocalPages : Fld := ⟨63, 48⟩
def winLocalBase : Fld := ⟨45, 12⟩
-- strQCtl, R279
def strQCtlQdepth : Fld := ⟨30, 24⟩
def strQCtlEvent : Fld := ⟨21, 16⟩
def strQCtlStop : Fld := ⟨1, 1⟩
def strQCtlStart : Fld := ⟨0, 0⟩
-- strQSrc, R279
def strQSrcBase : Fld := ⟨47, 6⟩
-- strQDst, R279
def strQDstBase : Fld := ⟨47, 6⟩
-- strQStat, R279
def strQStatCode : Fld := ⟨63, 56⟩
def strQStatState : Fld := ⟨55, 53⟩
def strQStatPc : Fld := ⟨52, 48⟩
def strQStatInflight : Fld := ⟨46, 40⟩
-- strQCnt, R279
def strQCntPoisoned : Fld := ⟨63, 32⟩
def strQCntTransfers : Fld := ⟨31, 0⟩
-- strQIr, R279
def strQIrValue : Fld := ⟨63, 0⟩
-- strProg, R279
def strProgValue : Fld := ⟨63, 0⟩
-- strCfg, R279
def strCfgDepthSum : Fld := ⟨8, 0⟩
-- strColStat, R279
def strColStatDist : Fld := ⟨15, 8⟩
def strColStatHop : Fld := ⟨7, 0⟩
-- strColCnt, R279
def strColCntSent : Fld := ⟨63, 32⟩
def strColCntWait : Fld := ⟨31, 0⟩
-- bsSlot, R294
def bsSlotSlots : Fld := ⟨63, 0⟩
-- bsAct, R294
def bsActSlots : Fld := ⟨63, 0⟩
-- bsRank, R294
def bsRankOrder : Fld := ⟨47, 0⟩
-- bsCtl, R294
def bsCtlWdogLimit : Fld := ⟨63, 32⟩
def bsCtlPreset : Fld := ⟨2, 2⟩
def bsCtlCommit : Fld := ⟨1, 1⟩
def bsCtlBsFreeze : Fld := ⟨0, 0⟩
-- bsStat, R294
def bsStatSlot : Fld := ⟨63, 58⟩
def bsStatCommitPend : Fld := ⟨57, 57⟩
def bsStatInflight : Fld := ⟨56, 56⟩
def bsStatResetting : Fld := ⟨55, 55⟩
def bsStatLastWd : Fld := ⟨51, 48⟩
def bsStatWdCount : Fld := ⟨47, 32⟩
-- bsGrants, R294
def bsGrantsOwned : Fld := ⟨63, 32⟩
def bsGrantsFree : Fld := ⟨31, 0⟩
-- bsWait, R294
def bsWaitMaxwait : Fld := ⟨63, 32⟩
def bsWaitWaitcyc : Fld := ⟨31, 0⟩
-- vxeStat, R325
def vxeStatPoison : Fld := ⟨3, 3⟩
def vxeStatSat : Fld := ⟨2, 2⟩
def vxeStatNanSeen : Fld := ⟨1, 1⟩
def vxeStatBusy : Fld := ⟨0, 0⟩
-- scEvent, R336
def scEventEv : Fld := ⟨63, 0⟩
-- scEventSet, R336
def scEventSetEv : Fld := ⟨63, 0⟩
-- scStallCnt, R336
def scStallCntReg : Fld := ⟨63, 43⟩
def scStallCntQueue : Fld := ⟨42, 22⟩
def scStallCntCfg : Fld := ⟨21, 0⟩
-- scTaskWdog, R336
def scTaskWdogLimit : Fld := ⟨31, 0⟩
-- tctxCtl, R336
def tctxCtlDoneEn : Fld := ⟨14, 14⟩
def tctxCtlDoneEv : Fld := ⟨13, 8⟩
def tctxCtlPrio : Fld := ⟨4, 4⟩
def tctxCtlReset : Fld := ⟨2, 2⟩
def tctxCtlStop : Fld := ⟨1, 1⟩
def tctxCtlStart : Fld := ⟨0, 0⟩
-- tctxCode, R336
def tctxCodeLen : Fld := ⟨43, 32⟩
def tctxCodeBase : Fld := ⟨10, 0⟩
-- tctxPc, R336
def tctxPcPc : Fld := ⟨10, 0⟩
-- tctxStat, R336
def tctxStatCode : Fld := ⟨47, 40⟩
def tctxStatFslot : Fld := ⟨34, 32⟩
def tctxStatFpc : Fld := ⟨26, 16⟩
def tctxStatState : Fld := ⟨2, 0⟩
-- tctxPoison, R336
def tctxPoisonPoison : Fld := ⟨31, 1⟩
-- tctxReg, R336
def tctxRegValue : Fld := ⟨63, 0⟩
-- scEvstat, R336
def scEvstatStatus : Fld := ⟨63, 0⟩
-- placeCtl, R365
def placeCtlOrgBudget : Fld := ⟨63, 55⟩
def placeCtlHotMin : Fld := ⟨54, 32⟩
def placeCtlInterval : Fld := ⟨31, 16⟩
def placeCtlMigMax : Fld := ⟨15, 8⟩
def placeCtlRebal : Fld := ⟨1, 1⟩
def placeCtlEn : Fld := ⟨0, 0⟩
-- placeStat, R365
def placeStatMigrated : Fld := ⟨63, 32⟩
def placeStatAbandoned : Fld := ⟨31, 16⟩
def placeStatIntervals : Fld := ⟨15, 0⟩
-- dispCtl, R367
def dispCtlEn : Fld := ⟨16, 16⟩
def dispCtlAgeMax : Fld := ⟨15, 0⟩
-- chipNode, R368
def chipNodeRank : Fld := ⟨41, 39⟩
def chipNodeGsize : Fld := ⟨38, 35⟩
def chipNodeGang : Fld := ⟨34, 24⟩
def chipNodeRole : Fld := ⟨17, 16⟩
def chipNodeIdValid : Fld := ⟨12, 12⟩
def chipNodeDevid : Fld := ⟨11, 0⟩
-- gpCtl, R375
def gpCtlRetrain : Fld := ⟨1, 1⟩
def gpCtlEn : Fld := ⟨0, 0⟩
-- gpStatus, R375
def gpStatusPeer : Fld := ⟨47, 36⟩
def gpStatusPport : Fld := ⟨35, 32⟩
def gpStatusLanes : Fld := ⟨27, 24⟩
def gpStatusState : Fld := ⟨2, 0⟩
-- gpCnt, R375
def gpCntReplays : Fld := ⟨63, 32⟩
def gpCntHbMiss : Fld := ⟨31, 16⟩
def gpCntDowns : Fld := ⟨15, 0⟩
-- xpCtl, R380
def xpCtlUdpPort : Fld := ⟨63, 48⟩
def xpCtlDscp : Fld := ⟨13, 8⟩
def xpCtlMaxlen : Fld := ⟨5, 5⟩
def xpCtlIpv6 : Fld := ⟨4, 4⟩
def xpCtlSpeed : Fld := ⟨3, 2⟩
def xpCtlRetrain : Fld := ⟨1, 1⟩
def xpCtlEn : Fld := ⟨0, 0⟩
-- xpStatus, R380
def xpStatusLanes : Fld := ⟨11, 8⟩
def xpStatusState : Fld := ⟨1, 0⟩
-- xpCnt, R380
def xpCntResent : Fld := ⟨63, 32⟩
def xpCntEcnCe : Fld := ⟨31, 0⟩
-- winCtl, R395
def winCtlXbase : Fld := ⟨43, 21⟩
def winCtlCredits : Fld := ⟨20, 8⟩
def winCtlForce : Fld := ⟨3, 3⟩
def winCtlClose : Fld := ⟨2, 2⟩
def winCtlOpen : Fld := ⟨1, 1⟩
-- winStat, R395
def winStatEpoch : Fld := ⟨55, 50⟩
def winStatQueued : Fld := ⟨49, 43⟩
def winStatOutst : Fld := ⟨42, 30⟩
def winStatState : Fld := ⟨1, 0⟩
-- winCmpl, R395
def winCmplAop : Fld := ⟨25, 24⟩
def winCmplAetype : Fld := ⟨23, 20⟩
def winCmplAccum : Fld := ⟨19, 19⟩
def winCmplAction : Fld := ⟨17, 16⟩
def winCmplTarget : Fld := ⟨11, 0⟩
-- winGctl, R395
def winGctlCredWait : Fld := ⟨15, 0⟩
-- winLog, R395
def winLogSrc : Fld := ⟨43, 32⟩
def winLogWin : Fld := ⟨25, 16⟩
def winLogCode : Fld := ⟨7, 0⟩
-- csrtCtl, R402
def csrtCtlStage : Fld := ⟨63, 48⟩
def csrtCtlOneshot : Fld := ⟨47, 32⟩
def csrtCtlCollTimeout : Fld := ⟨6, 0⟩
-- csrtStat, R402
def csrtStatDone : Fld := ⟨63, 32⟩
def csrtStatTimeouts : Fld := ⟨31, 16⟩
def csrtStatStale : Fld := ⟨15, 0⟩
-- chipTsync, R415
def chipTsyncOffset : Fld := ⟨63, 32⟩
def chipTsyncSource : Fld := ⟨15, 4⟩
def chipTsyncState : Fld := ⟨1, 0⟩
-- chipTime, R416
def chipTimeTime : Fld := ⟨63, 0⟩
-- clkStatus, R442
def clkStatusVcoreSet : Fld := ⟨43, 32⟩
def clkStatusVcoreMeas : Fld := ⟨31, 20⟩
def clkStatusRefLoss : Fld := ⟨2, 2⟩
def clkStatusSdLock : Fld := ⟨1, 1⟩
def clkStatusRootLock : Fld := ⟨0, 0⟩
-- clkCorePs, R442
def clkCorePsSwitches : Fld := ⟨63, 32⟩
def clkCorePsEff : Fld := ⟨10, 8⟩
def clkCorePsBlw : Fld := ⟨6, 4⟩
def clkCorePsHost : Fld := ⟨2, 0⟩
-- blwCap, R442
def blwCapCap : Fld := ⟨10, 0⟩
-- blwCtl, R442
def blwCtlRaiseHold : Fld := ⟨39, 32⟩
def blwCtlFtFloor : Fld := ⟨31, 16⟩
def blwCtlFtHold : Fld := ⟨15, 0⟩
-- blwGap, R442
def blwGapDummyGapMax : Fld := ⟨15, 0⟩
-- blwStat, R442
def blwStatPkgW : Fld := ⟨63, 48⟩
def blwStatTjMax : Fld := ⟨47, 40⟩
def blwStatTjSensor : Fld := ⟨39, 34⟩
def blwStatCeil : Fld := ⟨33, 32⟩
def blwStatPb : Fld := ⟨31, 29⟩
def blwStatFt : Fld := ⟨28, 28⟩
def blwStatHot : Fld := ⟨27, 27⟩
def blwStatVrFail : Fld := ⟨26, 26⟩
-- blwCnt, R442
def blwCntOver : Fld := ⟨63, 32⟩
def blwCntFt : Fld := ⟨31, 16⟩
def blwCntHot : Fld := ⟨15, 0⟩
-- blwCore, R442
def blwCoreEst : Fld := ⟨15, 0⟩
-- blwTemp, R442
def blwTempTemp : Fld := ⟨15, 0⟩
-- hifWakeTol, R442
def hifWakeTolAllowI4 : Fld := ⟨32, 32⟩
def hifWakeTolTol : Fld := ⟨31, 0⟩
-- hifIdle, R442
def hifIdleWakes : Fld := ⟨63, 32⟩
def hifIdleDeepest : Fld := ⟨10, 8⟩
def hifIdleWake : Fld := ⟨3, 3⟩
def hifIdleState : Fld := ⟨2, 0⟩
-- hifBar2Map, R447
def hifBar2MapBase : Fld := ⟨47, 36⟩
-- hifSqBase, R453
def hifSqBaseAddr : Fld := ⟨63, 12⟩
-- hifCqBase, R453
def hifCqBaseAddr : Fld := ⟨63, 12⟩
-- hifQCfg, R453
def hifQCfgSqSize : Fld := ⟨63, 47⟩
def hifQCfgCqSize : Fld := ⟨46, 30⟩
def hifQCfgWeight : Fld := ⟨29, 26⟩
def hifQCfgVec : Fld := ⟨25, 18⟩
def hifQCfgCoalN : Fld := ⟨17, 10⟩
def hifQCfgCoalUs : Fld := ⟨9, 0⟩
-- hifQCtl, R453
def hifQCtlAbort : Fld := ⟨3, 3⟩
def hifQCtlRestart : Fld := ⟨2, 2⟩
def hifQCtlEn : Fld := ⟨0, 0⟩
-- hifQStat, R453
def hifQStatSqHead : Fld := ⟨63, 48⟩
def hifQStatCqTail : Fld := ⟨47, 32⟩
def hifQStatCode : Fld := ⟨31, 24⟩
def hifQStatDberr : Fld := ⟨17, 17⟩
def hifQStatPhase : Fld := ⟨16, 16⟩
def hifQStatInflight : Fld := ⟨15, 11⟩
def hifQStatState : Fld := ⟨2, 0⟩
-- hifProgStat, R461
def hifProgStatCode : Fld := ⟨39, 32⟩
def hifProgStatState : Fld := ⟨17, 16⟩
def hifProgStatPct : Fld := ⟨13, 0⟩
-- hifBoot, R463
def hifBootCode : Fld := ⟨39, 32⟩
def hifBootRollback : Fld := ⟨17, 17⟩
def hifBootCold : Fld := ⟨16, 16⟩
def hifBootSlot : Fld := ⟨11, 10⟩
def hifBootState : Fld := ⟨9, 8⟩
def hifBootStage : Fld := ⟨3, 0⟩
-- chipMode, R490
def chipModeVcores : Fld := ⟨63, 32⟩
def chipModeValidate : Fld := ⟨0, 0⟩
-- chipTimer, R501
def chipTimerPeriod : Fld := ⟨63, 32⟩
def chipTimerCevent : Fld := ⟨27, 16⟩
def chipTimerOneshot : Fld := ⟨1, 1⟩
def chipTimerEn : Fld := ⟨0, 0⟩
-- chipGpio, R501
def chipGpioOe : Fld := ⟨47, 32⟩
def chipGpioOut : Fld := ⟨31, 16⟩
def chipGpioIn : Fld := ⟨15, 0⟩
-- hifAdvice, R503
def hifAdviceCode : Fld := ⟨39, 32⟩
def hifAdviceRepairPending : Fld := ⟨8, 8⟩
def hifAdviceAck : Fld := ⟨3, 3⟩
def hifAdviceAdvice : Fld := ⟨2, 0⟩
-- chipReset, R505
def chipResetKey : Fld := ⟨31, 16⟩
def chipResetGo : Fld := ⟨0, 0⟩
-- chipId, R541
def chipIdRev : Fld := ⟨31, 28⟩
def chipIdPart : Fld := ⟨27, 12⟩
def chipIdStacks : Fld := ⟨11, 8⟩
def chipIdCores : Fld := ⟨7, 0⟩
-- chipFwVer, R541
def chipFwVerMajor : Fld := ⟨63, 48⟩
def chipFwVerMinor : Fld := ⟨47, 32⟩
def chipFwVerPatch : Fld := ⟨31, 16⟩
def chipFwVerSvn : Fld := ⟨13, 8⟩
def chipFwVerValid : Fld := ⟨0, 0⟩
-- chipSerial, R541
def chipSerialSerial : Fld := ⟨63, 0⟩
-- ssHist, R39
def ssHistOdd : Fld := ⟨63, 32⟩
def ssHistEven : Fld := ⟨31, 0⟩
-- mxeDrnChain, R109
def mxeDrnChainStage : Fld := ⟨63, 0⟩
-- fifeDrnChain, R128
def fifeDrnChainStage : Fld := ⟨63, 0⟩
-- ibuf, R299
def ibufSlot : Fld := ⟨63, 0⟩
-- coreMap, R498
def coreMapSubst : Fld := ⟨47, 32⟩
def coreMapState : Fld := ⟨9, 8⟩
def coreMapSite : Fld := ⟨5, 0⟩
-- siteStat, R498
def siteStatSpares : Fld := ⟨63, 56⟩
def siteStatFailed : Fld := ⟨35, 0⟩
-- hifFwSrc, R469
def hifFwSrcAddr : Fld := ⟨47, 6⟩
-- hifFwCtl, R469
def hifFwCtlLen : Fld := ⟨63, 32⟩
def hifFwCtlCommitSvn : Fld := ⟨3, 3⟩
def hifFwCtlCommit : Fld := ⟨2, 2⟩
def hifFwCtlAbort : Fld := ⟨1, 1⟩
def hifFwCtlStart : Fld := ⟨0, 0⟩
-- hifFwStat, R469
def hifFwStatCode : Fld := ⟨47, 40⟩
def hifFwStatPending : Fld := ⟨9, 9⟩
def hifFwStatTrial : Fld := ⟨8, 8⟩
def hifFwStatState : Fld := ⟨2, 0⟩
-- dbgChal, R474
def dbgChalChal : Fld := ⟨63, 0⟩
-- dbgCtl, R474
def dbgCtlUnlock : Fld := ⟨0, 0⟩
-- dbgStat, R474
def dbgStatKey : Fld := ⟨39, 32⟩
def dbgStatFails : Fld := ⟨7, 6⟩
def dbgStatScope : Fld := ⟨3, 0⟩
-- dbgToken, R474
def dbgTokenToken : Fld := ⟨63, 0⟩
-- hifProgPos, R461
def hifProgPosPos : Fld := ⟨63, 0⟩
-- hifSqProg, R453
def hifSqProgValue : Fld := ⟨63, 0⟩
-- hifQPost, R457
def hifQPostDetail : Fld := ⟨63, 0⟩
-- dmaBase, R460
def dmaBaseAddr : Fld := ⟨63, 12⟩
-- dmaCfg, R460
def dmaCfgSize : Fld := ⟨63, 47⟩
def dmaCfgQp : Fld := ⟨46, 41⟩
def dmaCfgEn : Fld := ⟨0, 0⟩
-- dmaStat, R460
def dmaStatHead : Fld := ⟨63, 48⟩
def dmaStatCode : Fld := ⟨47, 40⟩
def dmaStatState : Fld := ⟨2, 0⟩
-- msixTable, R458
def msixTableValue : Fld := ⟨63, 0⟩
-- msixPba, R458
def msixPbaPending : Fld := ⟨63, 0⟩
-- xpAddr, R380
def xpAddrMac : Fld := ⟨47, 0⟩
-- xpIp, R380
def xpIpIp : Fld := ⟨63, 0⟩
-- csrtPeertab, R402
def csrtPeertabAddr : Fld := ⟨47, 6⟩
def csrtPeertabValid : Fld := ⟨0, 0⟩
-- winPerm, R395
def winPermGroups : Fld := ⟨63, 0⟩
-- winCnt, R395
def winCntRefused : Fld := ⟨63, 32⟩
def winCntAccepted : Fld := ⟨31, 0⟩
-- tstCoreCtl, R495
def tstCoreCtlCore : Fld := ⟨36, 32⟩
def tstCoreCtlRequest : Fld := ⟨0, 0⟩
-- tstSweep, R495
def tstSweepPeriod : Fld := ⟨31, 16⟩
-- tstStat, R495
def tstStatTested : Fld := ⟨63, 48⟩
def tstStatFailed : Fld := ⟨47, 32⟩
def tstStatLastCore : Fld := ⟨12, 8⟩
def tstStatState : Fld := ⟨2, 0⟩
-- tstFence, R495
def tstFenceMxe : Fld := ⟨3, 0⟩
-- tstSramCnt, R495
def tstSramCntDetections : Fld := ⟨31, 0⟩
-- tstSramOrg, R495
def tstSramOrgDetections : Fld := ⟨31, 0⟩
-- tstTraceCtl, R495
def tstTraceCtlEn : Fld := ⟨0, 0⟩
-- errCtl, R487
def errCtlInfoEn : Fld := ⟨0, 0⟩
-- errHead, R487
def errHeadSeq : Fld := ⟨63, 32⟩
def errHeadHead : Fld := ⟨9, 0⟩
-- errTail, R487
def errTailTail : Fld := ⟨9, 0⟩
-- errStat, R487
def errStatDropped : Fld := ⟨63, 32⟩
def errStatLastDrop : Fld := ⟨31, 24⟩
-- errMgmt, R487
def errMgmtSkipped : Fld := ⟨63, 32⟩
def errMgmtCursor : Fld := ⟨9, 0⟩
-- errRing, R487
def errRingRecord : Fld := ⟨63, 0⟩
-- ghCmdqPush, R205
def ghCmdqPushWord : Fld := ⟨63, 0⟩
-- ghPhy, R540
def ghPhyPhy : Fld := ⟨63, 0⟩

end F

/-- The fields of a register, as its table of the spec gives them; bits of no field are reserved
(R12). -/
def regFields : Reg → List FldSpec
  | .none => []
  | .ssParam _ =>
    [⟨F.ssParamScale, .rw, 0x3f800000⟩, ⟨F.ssParamZp, .rw, 0⟩, ⟨F.ssParamShift, .rw, 0⟩, ⟨F.ssParamEtype, .rw, 1⟩, ⟨F.ssParamHlen, .rw, 0x10⟩, ⟨F.ssParamConst, .ro, 0⟩, ⟨F.ssParamNanSeen, .w1c, 0⟩]
  | .ssCenter _ =>
    [⟨F.ssCenterCenter, .rw, 0⟩, ⟨F.ssCenterHead, .ro, 0⟩, ⟨F.ssCenterCount, .ro, 0⟩, ⟨F.ssCenterSteps, .ro, 0⟩]
  | .ssCur _ =>
    [⟨F.ssCurCurAmax, .ro, 0⟩, ⟨F.ssCurReported, .ro, 0⟩]
  | .ssCtrl _ =>
    [⟨F.ssCtrlClear, .wo, 0⟩, ⟨F.ssCtrlCommit, .wo, 0⟩]
  | .mxeWparam _ _ _ =>
    [⟨F.mxeWparamScale, .ro, 0⟩, ⟨F.mxeWparamZp, .ro, 0⟩]
  | .mxeColsum _ _ _ =>
    [⟨F.mxeColsumColsum, .ro, 0⟩]
  | .mxeRowcnt _ _ =>
    [⟨F.mxeRowcntRows, .ro, 0⟩]
  | .mxeCfg _ _ =>
    [⟨F.mxeCfgAbftEn, .rw, 0xf⟩, ⟨F.mxeCfgTranspose, .rw, 0⟩, ⟨F.mxeCfgGang, .rw, 0⟩]
  | .mxeBypass _ _ =>
    [⟨F.mxeBypassEn3, .rw, 0⟩, ⟨F.mxeBypassCol3, .rw, 0⟩, ⟨F.mxeBypassEn2, .rw, 0⟩, ⟨F.mxeBypassCol2, .rw, 0⟩, ⟨F.mxeBypassEn1, .rw, 0⟩, ⟨F.mxeBypassCol1, .rw, 0⟩, ⟨F.mxeBypassEn0, .rw, 0⟩, ⟨F.mxeBypassCol0, .rw, 0⟩]
  | .mxeWidth _ _ =>
    [⟨F.mxeWidthBypassed, .ro, 0⟩, ⟨F.mxeWidthWidthBf16, .ro, 0x40⟩, ⟨F.mxeWidthWidthW8, .ro, 0x80⟩, ⟨F.mxeWidthWidthW4, .ro, 0x100⟩]
  | .mxeStatus _ _ =>
    [⟨F.mxeStatusLevel, .ro, 0⟩, ⟨F.mxeStatusFenced, .ro, 0⟩, ⟨F.mxeStatusSvalid, .ro, 0⟩, ⟨F.mxeStatusWvalid, .ro, 0⟩, ⟨F.mxeStatusBusy, .ro, 0⟩]
  | .mxeAbftCnt _ _ =>
    [⟨F.mxeAbftCntChecked, .rc, 0⟩, ⟨F.mxeAbftCntReplays, .rc, 0⟩, ⟨F.mxeAbftCntMismatches, .rc, 0⟩]
  | .mxeStallCnt _ _ =>
    [⟨F.mxeStallCntRamp, .rc, 0⟩, ⟨F.mxeStallCntDrain, .rc, 0⟩, ⟨F.mxeStallCntFeed, .rc, 0⟩]
  | .mxeAccState _ _ =>
    [⟨F.mxeAccStateOwn1, .ro, 0⟩, ⟨F.mxeAccStateOwn0, .ro, 0⟩, ⟨F.mxeAccStateSat, .ro, 0⟩, ⟨F.mxeAccStateState, .ro, 0⟩]
  | .scAccInterlock _ =>
    [⟨F.scAccInterlockCycles, .rc, 0⟩, ⟨F.scAccInterlockEvents, .rc, 0⟩]
  | .ghDirBase _ =>
    [⟨F.ghDirBaseBase, .rw, 0x7ff⟩]
  | .ghDirCtl _ =>
    [⟨F.ghDirCtlFlush, .wo, 0⟩, ⟨F.ghDirCtlInval, .wo, 0⟩, ⟨F.ghDirCtlEn, .rw, 0⟩]
  | .ghDirStat _ =>
    [⟨F.ghDirStatHits, .rc, 0⟩, ⟨F.ghDirStatMisses, .rc, 0⟩]
  | .ghDirErr _ =>
    [⟨F.ghDirErrHandle, .ro, 0⟩, ⟨F.ghDirErrCause, .rc, 0⟩]
  | .mxeSpfCnt _ _ =>
    [⟨F.mxeSpfCntPasses, .rc, 0⟩, ⟨F.mxeSpfCntMatched, .rc, 0⟩, ⟨F.mxeSpfCntSkipped, .rc, 0⟩]
  | .mxeSpfStat _ _ =>
    [⟨F.mxeSpfStatQfull, .rc, 0⟩, ⟨F.mxeSpfStatGather, .rc, 0⟩]
  | .picCtl _ =>
    [⟨F.picCtlLtBase, .rw, 0⟩, ⟨F.picCtlPhase, .rw, 0⟩, ⟨F.picCtlAuditExp, .rw, 6⟩, ⟨F.picCtlEn, .rw, 0⟩]
  | .picStat _ =>
    [⟨F.picStatPredictions, .rc, 0⟩, ⟨F.picStatAudits, .rc, 0⟩, ⟨F.picStatDeferred, .rc, 0⟩]
  | .ghCmdqCtl _ _ =>
    [⟨F.ghCmdqCtlWeight, .rw, 4⟩, ⟨F.ghCmdqCtlReset, .wo, 0⟩, ⟨F.ghCmdqCtlEn, .rw, 1⟩]
  | .ghCmdqStat _ _ =>
    [⟨F.ghCmdqStatCompleted, .rc, 0⟩, ⟨F.ghCmdqStatOverflow, .w1c, 0⟩, ⟨F.ghCmdqStatDepth, .ro, 0⟩]
  | .ghHeapBase _ =>
    [⟨F.ghHeapBaseOffset, .rw, 0⟩]
  | .ghHeapLim _ =>
    [⟨F.ghHeapLimOffset, .rw, 0⟩]
  | .ghStatus _ =>
    [⟨F.ghStatusRaw, .ro, 0⟩, ⟨F.ghStatusScrubActive, .ro, 0⟩, ⟨F.ghStatusRefresh2x, .ro, 0⟩, ⟨F.ghStatusReady, .ro, 0⟩]
  | .ghScrubCtl _ =>
    [⟨F.ghScrubCtlPeriod, .rw, 0x18⟩, ⟨F.ghScrubCtlEn, .rw, 1⟩]
  | .ghScrubStat _ =>
    [⟨F.ghScrubStatCorrected, .rc, 0⟩, ⟨F.ghScrubStatBad, .rc, 0⟩]
  | .ghRepairStat _ =>
    [⟨F.ghRepairStatRowsUsed, .ro, 0⟩, ⟨F.ghRepairStatBanksUsed, .ro, 0⟩, ⟨F.ghRepairStatTsvsUsed, .ro, 0⟩, ⟨F.ghRepairStatQueued, .ro, 0⟩, ⟨F.ghRepairStatUnrepaired, .ro, 0⟩]
  | .cmcStatus _ =>
    [⟨F.cmcStatusLogged, .ro, 0⟩, ⟨F.cmcStatusVmode, .ro, 1⟩, ⟨F.cmcStatusPending, .ro, 0⟩]
  | .cmcConflictCnt _ =>
    [⟨F.cmcConflictCntCycles, .rc, 0⟩, ⟨F.cmcConflictCntEvents, .rc, 0⟩]
  | .cmcBgCtl _ =>
    [⟨F.cmcBgCtlWaitMax, .rw, 0x100⟩]
  | .cmcBgCnt _ =>
    [⟨F.cmcBgCntForced, .rc, 0⟩, ⟨F.cmcBgCntWaited, .rc, 0⟩]
  | .cmcShadowInv _ =>
    [⟨F.cmcShadowInvCount, .wo, 0⟩, ⟨F.cmcShadowInvFirst, .wo, 0⟩]
  | .cmcShadowErr _ =>
    [⟨F.cmcShadowErrUnit, .ro, 0⟩, ⟨F.cmcShadowErrKind, .rc, 0⟩]
  | .cmcCtl _ =>
    [⟨F.cmcCtlLogClr, .wo, 0⟩]
  | .cmcConfLog _ _ =>
    [⟨F.cmcConfLogDeferred, .ro, 0⟩, ⟨F.cmcConfLogServed, .ro, 0⟩, ⟨F.cmcConfLogSubbank, .ro, 0⟩, ⟨F.cmcConfLogOffset, .ro, 0⟩]
  | .tsCnt _ =>
    [⟨F.tsCntLimit, .rw, 0⟩, ⟨F.tsCntValue, .rw, 0⟩]
  | .tsNotify _ =>
    [⟨F.tsNotifyArm, .rw, 0⟩, ⟨F.tsNotifyCore, .rw, 0⟩, ⟨F.tsNotifyEvent, .rw, 0⟩, ⟨F.tsNotifyExhausted, .rc, 0⟩]
  | .barState _ =>
    [⟨F.barStateGen, .ro, 0⟩, ⟨F.barStateArrived, .ro, 0⟩, ⟨F.barStateCount, .rw, 0⟩]
  | .barCtl _ =>
    [⟨F.barCtlAbort, .wo, 0⟩, ⟨F.barCtlReset, .wo, 0⟩]
  | .winLocal _ =>
    [⟨F.winLocalPages, .rw, 0⟩, ⟨F.winLocalBase, .rw, 0⟩]
  | .strQCtl _ _ =>
    [⟨F.strQCtlQdepth, .rw, 8⟩, ⟨F.strQCtlEvent, .rw, 0⟩, ⟨F.strQCtlStop, .wo, 0⟩, ⟨F.strQCtlStart, .wo, 0⟩]
  | .strQSrc _ _ =>
    [⟨F.strQSrcBase, .rw, 0⟩]
  | .strQDst _ _ =>
    [⟨F.strQDstBase, .rw, 0⟩]
  | .strQStat _ _ =>
    [⟨F.strQStatCode, .ro, 0⟩, ⟨F.strQStatState, .ro, 0⟩, ⟨F.strQStatPc, .ro, 0⟩, ⟨F.strQStatInflight, .ro, 0⟩]
  | .strQCnt _ _ =>
    [⟨F.strQCntPoisoned, .rc, 0⟩, ⟨F.strQCntTransfers, .rc, 0⟩]
  | .strQIr _ _ _ =>
    [⟨F.strQIrValue, .rw, 0⟩]
  | .strProg _ _ _ =>
    [⟨F.strProgValue, .rw, 0⟩]
  | .strCfg _ =>
    [⟨F.strCfgDepthSum, .ro, 0x80⟩]
  | .strColStat _ =>
    [⟨F.strColStatDist, .ro, 1⟩, ⟨F.strColStatHop, .ro, 4⟩]
  | .strColCnt _ =>
    [⟨F.strColCntSent, .rc, 0⟩, ⟨F.strColCntWait, .rc, 0⟩]
  | .bsSlot _ _ =>
    [⟨F.bsSlotSlots, .rw, 0xffffba9876543210⟩]
  | .bsAct _ _ =>
    [⟨F.bsActSlots, .ro, 0xffffba9876543210⟩]
  | .bsRank _ =>
    [⟨F.bsRankOrder, .rw, 0x76543210a98b⟩]
  | .bsCtl _ =>
    [⟨F.bsCtlWdogLimit, .rw, 0x10000⟩, ⟨F.bsCtlPreset, .wo, 0⟩, ⟨F.bsCtlCommit, .wo, 0⟩, ⟨F.bsCtlBsFreeze, .rw, 0⟩]
  | .bsStat _ =>
    [⟨F.bsStatSlot, .ro, 0⟩, ⟨F.bsStatCommitPend, .ro, 0⟩, ⟨F.bsStatInflight, .ro, 0⟩, ⟨F.bsStatResetting, .ro, 0⟩, ⟨F.bsStatLastWd, .ro, 0⟩, ⟨F.bsStatWdCount, .rc, 0⟩]
  | .bsGrants _ _ =>
    [⟨F.bsGrantsOwned, .rc, 0⟩, ⟨F.bsGrantsFree, .rc, 0⟩]
  | .bsWait _ _ =>
    [⟨F.bsWaitMaxwait, .rc, 0⟩, ⟨F.bsWaitWaitcyc, .rc, 0⟩]
  | .vxeStat _ =>
    [⟨F.vxeStatPoison, .w1c, 0⟩, ⟨F.vxeStatSat, .w1c, 0⟩, ⟨F.vxeStatNanSeen, .w1c, 0⟩, ⟨F.vxeStatBusy, .ro, 0⟩]
  | .scEvent _ =>
    [⟨F.scEventEv, .w1c, 0⟩]
  | .scEventSet _ =>
    [⟨F.scEventSetEv, .w1s, 0⟩]
  | .scStallCnt _ =>
    [⟨F.scStallCntReg, .rc, 0⟩, ⟨F.scStallCntQueue, .rc, 0⟩, ⟨F.scStallCntCfg, .rc, 0⟩]
  | .scTaskWdog _ =>
    [⟨F.scTaskWdogLimit, .rw, 0x3e8⟩]
  | .tctxCtl _ _ =>
    [⟨F.tctxCtlDoneEn, .rw, 0⟩, ⟨F.tctxCtlDoneEv, .rw, 0⟩, ⟨F.tctxCtlPrio, .rw, 0⟩, ⟨F.tctxCtlReset, .wo, 0⟩, ⟨F.tctxCtlStop, .wo, 0⟩, ⟨F.tctxCtlStart, .wo, 0⟩]
  | .tctxCode _ _ =>
    [⟨F.tctxCodeLen, .rw, 0⟩, ⟨F.tctxCodeBase, .rw, 0⟩]
  | .tctxPc _ _ =>
    [⟨F.tctxPcPc, .rw, 0⟩]
  | .tctxStat _ _ =>
    [⟨F.tctxStatCode, .ro, 0⟩, ⟨F.tctxStatFslot, .ro, 0⟩, ⟨F.tctxStatFpc, .ro, 0⟩, ⟨F.tctxStatState, .ro, 0⟩]
  | .tctxPoison _ _ =>
    [⟨F.tctxPoisonPoison, .rw, 0⟩]
  | .tctxReg _ _ _ =>
    [⟨F.tctxRegValue, .rw, 0⟩]
  | .scEvstat _ _ =>
    [⟨F.scEvstatStatus, .ro, 0⟩]
  | .placeCtl =>
    [⟨F.placeCtlOrgBudget, .rw, 0x80⟩, ⟨F.placeCtlHotMin, .rw, 0x40⟩, ⟨F.placeCtlInterval, .rw, 0xa⟩, ⟨F.placeCtlMigMax, .rw, 0x40⟩, ⟨F.placeCtlRebal, .rw, 1⟩, ⟨F.placeCtlEn, .rw, 1⟩]
  | .placeStat =>
    [⟨F.placeStatMigrated, .rc, 0⟩, ⟨F.placeStatAbandoned, .rc, 0⟩, ⟨F.placeStatIntervals, .rc, 0⟩]
  | .dispCtl =>
    [⟨F.dispCtlEn, .rw, 1⟩, ⟨F.dispCtlAgeMax, .rw, 0x40⟩]
  | .chipNode =>
    [⟨F.chipNodeRank, .rw, 0⟩, ⟨F.chipNodeGsize, .rw, 1⟩, ⟨F.chipNodeGang, .rw, 0⟩, ⟨F.chipNodeRole, .rw, 0⟩, ⟨F.chipNodeIdValid, .rw, 0⟩, ⟨F.chipNodeDevid, .rw, 0⟩]
  | .gpCtl _ =>
    [⟨F.gpCtlRetrain, .wo, 0⟩, ⟨F.gpCtlEn, .rw, 1⟩]
  | .gpStatus _ =>
    [⟨F.gpStatusPeer, .ro, 0⟩, ⟨F.gpStatusPport, .ro, 0⟩, ⟨F.gpStatusLanes, .ro, 0⟩, ⟨F.gpStatusState, .ro, 0⟩]
  | .gpCnt _ =>
    [⟨F.gpCntReplays, .rc, 0⟩, ⟨F.gpCntHbMiss, .rc, 0⟩, ⟨F.gpCntDowns, .rc, 0⟩]
  | .xpCtl _ =>
    [⟨F.xpCtlUdpPort, .rw, 0xc1a5⟩, ⟨F.xpCtlDscp, .rw, 0⟩, ⟨F.xpCtlMaxlen, .rw, 1⟩, ⟨F.xpCtlIpv6, .rw, 0⟩, ⟨F.xpCtlSpeed, .rw, 0⟩, ⟨F.xpCtlRetrain, .wo, 0⟩, ⟨F.xpCtlEn, .rw, 1⟩]
  | .xpStatus _ =>
    [⟨F.xpStatusLanes, .ro, 0⟩, ⟨F.xpStatusState, .ro, 0⟩]
  | .xpCnt _ =>
    [⟨F.xpCntResent, .rc, 0⟩, ⟨F.xpCntEcnCe, .rc, 0⟩]
  | .winCtl _ =>
    [⟨F.winCtlXbase, .rw, 0⟩, ⟨F.winCtlCredits, .rw, 0x10⟩, ⟨F.winCtlForce, .wo, 0⟩, ⟨F.winCtlClose, .wo, 0⟩, ⟨F.winCtlOpen, .wo, 0⟩]
  | .winStat _ =>
    [⟨F.winStatEpoch, .ro, 0⟩, ⟨F.winStatQueued, .ro, 0⟩, ⟨F.winStatOutst, .ro, 0⟩, ⟨F.winStatState, .ro, 0⟩]
  | .winCmpl _ =>
    [⟨F.winCmplAop, .rw, 0⟩, ⟨F.winCmplAetype, .rw, 5⟩, ⟨F.winCmplAccum, .rw, 0⟩, ⟨F.winCmplAction, .rw, 0⟩, ⟨F.winCmplTarget, .rw, 0⟩]
  | .winGctl =>
    [⟨F.winGctlCredWait, .rw, 0x64⟩]
  | .winLog =>
    [⟨F.winLogSrc, .ro, 0⟩, ⟨F.winLogWin, .ro, 0⟩, ⟨F.winLogCode, .rc, 0⟩]
  | .csrtCtl =>
    [⟨F.csrtCtlStage, .rw, 0x40⟩, ⟨F.csrtCtlOneshot, .rw, 0x20⟩, ⟨F.csrtCtlCollTimeout, .rw, 4⟩]
  | .csrtStat =>
    [⟨F.csrtStatDone, .rc, 0⟩, ⟨F.csrtStatTimeouts, .rc, 0⟩, ⟨F.csrtStatStale, .rc, 0⟩]
  | .chipTsync =>
    [⟨F.chipTsyncOffset, .ro, 0⟩, ⟨F.chipTsyncSource, .ro, 0⟩, ⟨F.chipTsyncState, .ro, 0⟩]
  | .chipTime =>
    [⟨F.chipTimeTime, .ro, 0⟩]
  | .clkStatus =>
    [⟨F.clkStatusVcoreSet, .ro, 0x352⟩, ⟨F.clkStatusVcoreMeas, .ro, 0⟩, ⟨F.clkStatusRefLoss, .ro, 0⟩, ⟨F.clkStatusSdLock, .ro, 0⟩, ⟨F.clkStatusRootLock, .ro, 0⟩]
  | .clkCorePs _ =>
    [⟨F.clkCorePsSwitches, .rc, 0⟩, ⟨F.clkCorePsEff, .ro, 0⟩, ⟨F.clkCorePsBlw, .ro, 0⟩, ⟨F.clkCorePsHost, .rw, 0⟩]
  | .blwCap =>
    [⟨F.blwCapCap, .rw, 0x640⟩]
  | .blwCtl =>
    [⟨F.blwCtlRaiseHold, .rw, 0x10⟩, ⟨F.blwCtlFtFloor, .rw, 0xc8⟩, ⟨F.blwCtlFtHold, .rw, 0x10⟩]
  | .blwGap =>
    [⟨F.blwGapDummyGapMax, .rw, 0x100⟩]
  | .blwStat =>
    [⟨F.blwStatPkgW, .ro, 0⟩, ⟨F.blwStatTjMax, .ro, 0⟩, ⟨F.blwStatTjSensor, .ro, 0⟩, ⟨F.blwStatCeil, .ro, 3⟩, ⟨F.blwStatPb, .ro, 0⟩, ⟨F.blwStatFt, .ro, 0⟩, ⟨F.blwStatHot, .ro, 0⟩, ⟨F.blwStatVrFail, .w1c, 0⟩]
  | .blwCnt =>
    [⟨F.blwCntOver, .rc, 0⟩, ⟨F.blwCntFt, .rc, 0⟩, ⟨F.blwCntHot, .rc, 0⟩]
  | .blwCore _ =>
    [⟨F.blwCoreEst, .ro, 0⟩]
  | .blwTemp _ =>
    [⟨F.blwTempTemp, .ro, 0⟩]
  | .hifWakeTol =>
    [⟨F.hifWakeTolAllowI4, .rw, 0⟩, ⟨F.hifWakeTolTol, .rw, 0⟩]
  | .hifIdle =>
    [⟨F.hifIdleWakes, .rc, 0⟩, ⟨F.hifIdleDeepest, .ro, 0⟩, ⟨F.hifIdleWake, .wo, 0⟩, ⟨F.hifIdleState, .ro, 0⟩]
  | .hifBar2Map =>
    [⟨F.hifBar2MapBase, .rw, 0⟩]
  | .hifSqBase _ =>
    [⟨F.hifSqBaseAddr, .rw, 0⟩]
  | .hifCqBase _ =>
    [⟨F.hifCqBaseAddr, .rw, 0⟩]
  | .hifQCfg _ =>
    [⟨F.hifQCfgSqSize, .rw, 0⟩, ⟨F.hifQCfgCqSize, .rw, 0⟩, ⟨F.hifQCfgWeight, .rw, 1⟩, ⟨F.hifQCfgVec, .rw, 0⟩, ⟨F.hifQCfgCoalN, .rw, 0⟩, ⟨F.hifQCfgCoalUs, .rw, 0⟩]
  | .hifQCtl _ =>
    [⟨F.hifQCtlAbort, .wo, 0⟩, ⟨F.hifQCtlRestart, .wo, 0⟩, ⟨F.hifQCtlEn, .rw, 0⟩]
  | .hifQStat _ =>
    [⟨F.hifQStatSqHead, .ro, 0⟩, ⟨F.hifQStatCqTail, .ro, 0⟩, ⟨F.hifQStatCode, .ro, 0⟩, ⟨F.hifQStatDberr, .w1c, 0⟩, ⟨F.hifQStatPhase, .ro, 1⟩, ⟨F.hifQStatInflight, .ro, 0⟩, ⟨F.hifQStatState, .ro, 0⟩]
  | .hifProgStat _ =>
    [⟨F.hifProgStatCode, .ro, 0⟩, ⟨F.hifProgStatState, .ro, 0⟩, ⟨F.hifProgStatPct, .ro, 0⟩]
  | .hifBoot =>
    [⟨F.hifBootCode, .ro, 0⟩, ⟨F.hifBootRollback, .ro, 0⟩, ⟨F.hifBootCold, .ro, 1⟩, ⟨F.hifBootSlot, .ro, 0⟩, ⟨F.hifBootState, .ro, 0⟩, ⟨F.hifBootStage, .ro, 0⟩]
  | .chipMode =>
    [⟨F.chipModeVcores, .rw, 0⟩, ⟨F.chipModeValidate, .rw, 1⟩]
  | .chipTimer _ =>
    [⟨F.chipTimerPeriod, .rw, 0⟩, ⟨F.chipTimerCevent, .rw, 0⟩, ⟨F.chipTimerOneshot, .rw, 0⟩, ⟨F.chipTimerEn, .rw, 0⟩]
  | .chipGpio =>
    [⟨F.chipGpioOe, .rw, 0⟩, ⟨F.chipGpioOut, .rw, 0⟩, ⟨F.chipGpioIn, .ro, 0⟩]
  | .hifAdvice =>
    [⟨F.hifAdviceCode, .ro, 0⟩, ⟨F.hifAdviceRepairPending, .ro, 0⟩, ⟨F.hifAdviceAck, .wo, 0⟩, ⟨F.hifAdviceAdvice, .ro, 0⟩]
  | .chipReset =>
    [⟨F.chipResetKey, .wo, 0⟩, ⟨F.chipResetGo, .wo, 0⟩]
  | .chipId =>
    [⟨F.chipIdRev, .ro, 1⟩, ⟨F.chipIdPart, .ro, 0x9400⟩, ⟨F.chipIdStacks, .ro, 8⟩, ⟨F.chipIdCores, .ro, 0x20⟩]
  | .chipFwVer =>
    [⟨F.chipFwVerMajor, .ro, 0⟩, ⟨F.chipFwVerMinor, .ro, 0⟩, ⟨F.chipFwVerPatch, .ro, 0⟩, ⟨F.chipFwVerSvn, .ro, 0⟩, ⟨F.chipFwVerValid, .ro, 0⟩]
  | .chipSerial =>
    [⟨F.chipSerialSerial, .ro, Config.serial⟩]
  | .ssHist _ _ =>
    [⟨F.ssHistOdd, .rw, 0⟩, ⟨F.ssHistEven, .rw, 0⟩]
  | .mxeDrnChain _ _ _ _ =>
    [⟨F.mxeDrnChainStage, .rw, 0⟩]
  | .fifeDrnChain _ _ _ =>
    [⟨F.fifeDrnChainStage, .rw, 0⟩]
  | .ibuf _ _ =>
    [⟨F.ibufSlot, .rw, 0⟩]
  | .coreMap i =>
    [⟨F.coreMapSubst, .ro, 0⟩, ⟨F.coreMapState, .ro, 0⟩, ⟨F.coreMapSite, .ro, i⟩]
  | .siteStat =>
    [⟨F.siteStatSpares, .ro, 4⟩, ⟨F.siteStatFailed, .ro, 0⟩]
  | .hifFwSrc =>
    [⟨F.hifFwSrcAddr, .rw, 0⟩]
  | .hifFwCtl =>
    [⟨F.hifFwCtlLen, .rw, 0⟩, ⟨F.hifFwCtlCommitSvn, .wo, 0⟩, ⟨F.hifFwCtlCommit, .wo, 0⟩, ⟨F.hifFwCtlAbort, .wo, 0⟩, ⟨F.hifFwCtlStart, .wo, 0⟩]
  | .hifFwStat =>
    [⟨F.hifFwStatCode, .ro, 0⟩, ⟨F.hifFwStatPending, .ro, 0⟩, ⟨F.hifFwStatTrial, .ro, 0⟩, ⟨F.hifFwStatState, .ro, 0⟩]
  | .dbgChal _ =>
    [⟨F.dbgChalChal, .ro, 0⟩]
  | .dbgCtl =>
    [⟨F.dbgCtlUnlock, .wo, 0⟩]
  | .dbgStat =>
    [⟨F.dbgStatKey, .ro, 0⟩, ⟨F.dbgStatFails, .ro, 0⟩, ⟨F.dbgStatScope, .ro, 0⟩]
  | .dbgToken _ =>
    [⟨F.dbgTokenToken, .rw, 0⟩]
  | .hifProgPos _ =>
    [⟨F.hifProgPosPos, .ro, 0⟩]
  | .hifSqProg _ =>
    [⟨F.hifSqProgValue, .ro, 0⟩]
  | .hifQPost _ =>
    [⟨F.hifQPostDetail, .wo, 0⟩]
  | .dmaBase _ =>
    [⟨F.dmaBaseAddr, .rw, 0⟩]
  | .dmaCfg _ =>
    [⟨F.dmaCfgSize, .rw, 0⟩, ⟨F.dmaCfgQp, .rw, 0⟩, ⟨F.dmaCfgEn, .rw, 0⟩]
  | .dmaStat _ =>
    [⟨F.dmaStatHead, .ro, 0⟩, ⟨F.dmaStatCode, .ro, 0⟩, ⟨F.dmaStatState, .ro, 0⟩]
  | .msixTable i =>
    [⟨F.msixTableValue, .rw, if i % 2 = 0 then 0 else 0x100000000⟩]
  | .msixPba _ =>
    [⟨F.msixPbaPending, .ro, 0⟩]
  | .xpAddr _ =>
    [⟨F.xpAddrMac, .rw, 0⟩]
  | .xpIp _ _ =>
    [⟨F.xpIpIp, .rw, 0⟩]
  | .csrtPeertab =>
    [⟨F.csrtPeertabAddr, .rw, 0⟩, ⟨F.csrtPeertabValid, .rw, 0⟩]
  | .winPerm _ =>
    [⟨F.winPermGroups, .rw, 0⟩]
  | .winCnt =>
    [⟨F.winCntRefused, .rc, 0⟩, ⟨F.winCntAccepted, .rc, 0⟩]
  | .tstCoreCtl =>
    [⟨F.tstCoreCtlCore, .rw, 0⟩, ⟨F.tstCoreCtlRequest, .wo, 0⟩]
  | .tstSweep =>
    [⟨F.tstSweepPeriod, .rw, 0x18⟩]
  | .tstStat =>
    [⟨F.tstStatTested, .rc, 0⟩, ⟨F.tstStatFailed, .rc, 0⟩, ⟨F.tstStatLastCore, .ro, 0⟩, ⟨F.tstStatState, .ro, 0⟩]
  | .tstFence _ =>
    [⟨F.tstFenceMxe, .rw, 0⟩]
  | .tstSramCnt _ =>
    [⟨F.tstSramCntDetections, .rc, 0⟩]
  | .tstSramOrg =>
    [⟨F.tstSramOrgDetections, .rc, 0⟩]
  | .tstTraceCtl =>
    [⟨F.tstTraceCtlEn, .rw, 0⟩]
  | .errCtl =>
    [⟨F.errCtlInfoEn, .rw, 1⟩]
  | .errHead =>
    [⟨F.errHeadSeq, .ro, 0⟩, ⟨F.errHeadHead, .ro, 0⟩]
  | .errTail =>
    [⟨F.errTailTail, .rw, 0⟩]
  | .errStat =>
    [⟨F.errStatDropped, .rc, 0⟩, ⟨F.errStatLastDrop, .ro, 0⟩]
  | .errMgmt =>
    [⟨F.errMgmtSkipped, .rc, 0⟩, ⟨F.errMgmtCursor, .ro, 0⟩]
  | .errRing _ _ =>
    [⟨F.errRingRecord, .ro, 0⟩]
  | .ghCmdqPush _ _ _ =>
    [⟨F.ghCmdqPushWord, .wo, 0⟩]
  | .ghPhy _ _ =>
    [⟨F.ghPhyPhy, .ro, 0⟩]

/-- The device address of a register: block base plus offset (R538, R539, the register index). -/
def regAddr : Reg → Nat
  | .none => 0
  | .ssParam i => 0x020201000000 + 0x100000 + i * 0x80
  | .ssCenter i => 0x020201000000 + 0x100008 + i * 0x80
  | .ssCur i => 0x020201000000 + 0x100050 + i * 0x80
  | .ssCtrl i => 0x020201000000 + 0x100078 + i * 0x80
  | .mxeWparam n m i => 0x020210010000 + n * 0x100000 + m * 0x4000 + 0x1000 + i * 0x8
  | .mxeColsum n m i => 0x020210010000 + n * 0x100000 + m * 0x4000 + 0x1800 + i * 0x8
  | .mxeRowcnt n m => 0x020210010000 + n * 0x100000 + m * 0x4000 + 0x2000
  | .mxeCfg n m => 0x020210010000 + n * 0x100000 + m * 0x4000
  | .mxeBypass n m => 0x020210010000 + n * 0x100000 + m * 0x4000 + 0x18
  | .mxeWidth n m => 0x020210010000 + n * 0x100000 + m * 0x4000 + 0x10
  | .mxeStatus n m => 0x020210010000 + n * 0x100000 + m * 0x4000 + 0x8
  | .mxeAbftCnt n m => 0x020210010000 + n * 0x100000 + m * 0x4000 + 0x20
  | .mxeStallCnt n m => 0x020210010000 + n * 0x100000 + m * 0x4000 + 0x28
  | .mxeAccState n m => 0x020210010000 + n * 0x100000 + m * 0x4000 + 0x30
  | .scAccInterlock n => 0x020210000000 + n * 0x100000 + 0x200
  | .ghDirBase s => 0x020220000000 + s * 0x1000000 + 0x400
  | .ghDirCtl s => 0x020220000000 + s * 0x1000000 + 0x408
  | .ghDirStat s => 0x020220000000 + s * 0x1000000 + 0x410
  | .ghDirErr s => 0x020220000000 + s * 0x1000000 + 0x418
  | .mxeSpfCnt n m => 0x020210010000 + n * 0x100000 + m * 0x4000 + 0x38
  | .mxeSpfStat n m => 0x020210010000 + n * 0x100000 + m * 0x4000 + 0x40
  | .picCtl n => 0x020210050000 + n * 0x100000
  | .picStat n => 0x020210050000 + n * 0x100000 + 0x8
  | .ghCmdqCtl s i => 0x020220000000 + s * 0x1000000 + 0x100 + i * 0x10
  | .ghCmdqStat s i => 0x020220000000 + s * 0x1000000 + 0x108 + i * 0x10
  | .ghHeapBase s => 0x020220000000 + s * 0x1000000 + 0x420
  | .ghHeapLim s => 0x020220000000 + s * 0x1000000 + 0x428
  | .ghStatus s => 0x020220000000 + s * 0x1000000
  | .ghScrubCtl s => 0x020220000000 + s * 0x1000000 + 0x200
  | .ghScrubStat s => 0x020220000000 + s * 0x1000000 + 0x208
  | .ghRepairStat s => 0x020220000000 + s * 0x1000000 + 0x300
  | .cmcStatus n => 0x020210040000 + n * 0x100000
  | .cmcConflictCnt n => 0x020210040000 + n * 0x100000 + 0x8
  | .cmcBgCtl n => 0x020210040000 + n * 0x100000 + 0x10
  | .cmcBgCnt n => 0x020210040000 + n * 0x100000 + 0x18
  | .cmcShadowInv n => 0x020210040000 + n * 0x100000 + 0x20
  | .cmcShadowErr n => 0x020210040000 + n * 0x100000 + 0x28
  | .cmcCtl n => 0x020210040000 + n * 0x100000 + 0x30
  | .cmcConfLog n i => 0x020210040000 + n * 0x100000 + 0x40 + i * 0x8
  | .tsCnt i => 0x020201000000 + i * 0x10
  | .tsNotify i => 0x020201000000 + 0x8 + i * 0x10
  | .barState i => 0x020201000000 + 0x20000 + i * 0x10
  | .barCtl i => 0x020201000000 + 0x20008 + i * 0x10
  | .winLocal i => 0x020233000000 + 0x8000 + i * 0x8
  | .strQCtl n i => 0x020210030000 + n * 0x100000 + i * 0x40
  | .strQSrc n i => 0x020210030000 + n * 0x100000 + 0x8 + i * 0x40
  | .strQDst n i => 0x020210030000 + n * 0x100000 + 0x10 + i * 0x40
  | .strQStat n i => 0x020210030000 + n * 0x100000 + 0x18 + i * 0x40
  | .strQCnt n i => 0x020210030000 + n * 0x100000 + 0x20 + i * 0x40
  | .strQIr n i j => 0x020210030000 + n * 0x100000 + 0x800 + i * 0x20 + j * 0x8
  | .strProg n i j => 0x020210030000 + n * 0x100000 + 0x1000 + i * 0x100 + j * 0x8
  | .strCfg n => 0x020210030000 + n * 0x100000 + 0xc00
  | .strColStat n => 0x020210030000 + n * 0x100000 + 0xc08
  | .strColCnt n => 0x020210030000 + n * 0x100000 + 0xc10
  | .bsSlot s i => 0x020220000000 + s * 0x1000000 + 0x900000 + i * 0x8
  | .bsAct s i => 0x020220000000 + s * 0x1000000 + 0x900020 + i * 0x8
  | .bsRank s => 0x020220000000 + s * 0x1000000 + 0x900040
  | .bsCtl s => 0x020220000000 + s * 0x1000000 + 0x900048
  | .bsStat s => 0x020220000000 + s * 0x1000000 + 0x900050
  | .bsGrants s i => 0x020220000000 + s * 0x1000000 + 0x900080 + i * 0x8
  | .bsWait s i => 0x020220000000 + s * 0x1000000 + 0x900100 + i * 0x8
  | .vxeStat n => 0x020210020000 + n * 0x100000
  | .scEvent n => 0x020210000000 + n * 0x100000 + 0x100
  | .scEventSet n => 0x020210000000 + n * 0x100000 + 0x108
  | .scStallCnt n => 0x020210000000 + n * 0x100000 + 0x208
  | .scTaskWdog n => 0x020210000000 + n * 0x100000 + 0x300
  | .tctxCtl n i => 0x020210000000 + n * 0x100000 + 0x400 + i * 0x40
  | .tctxCode n i => 0x020210000000 + n * 0x100000 + 0x408 + i * 0x40
  | .tctxPc n i => 0x020210000000 + n * 0x100000 + 0x410 + i * 0x40
  | .tctxStat n i => 0x020210000000 + n * 0x100000 + 0x418 + i * 0x40
  | .tctxPoison n i => 0x020210000000 + n * 0x100000 + 0x420 + i * 0x40
  | .tctxReg n i j => 0x020210000000 + n * 0x100000 + 0x600 + i * 0x100 + j * 0x8
  | .scEvstat n i => 0x020210000000 + n * 0x100000 + 0xa00 + i * 0x8
  | .placeCtl => 0x020200000000 + 0x400
  | .placeStat => 0x020200000000 + 0x408
  | .dispCtl => 0x020200000000 + 0x410
  | .chipNode => 0x020200000000 + 0x500
  | .gpCtl p => 0x020230000000 + p * 0x100000
  | .gpStatus p => 0x020230000000 + p * 0x100000 + 0x8
  | .gpCnt p => 0x020230000000 + p * 0x100000 + 0x10
  | .xpCtl p => 0x020231000000 + p * 0x100000
  | .xpStatus p => 0x020231000000 + p * 0x100000 + 0x8
  | .xpCnt p => 0x020231000000 + p * 0x100000 + 0x28
  | .winCtl i => 0x020233000000 + i * 0x20
  | .winStat i => 0x020233000000 + 0x10 + i * 0x20
  | .winCmpl i => 0x020233000000 + 0x18 + i * 0x20
  | .winGctl => 0x020233000000 + 0xa000
  | .winLog => 0x020233000000 + 0xa008
  | .csrtCtl => 0x020232000000
  | .csrtStat => 0x020232000000 + 0x8
  | .chipTsync => 0x020200000000 + 0x510
  | .chipTime => 0x020200000000 + 0x518
  | .clkStatus => 0x020200300000
  | .clkCorePs i => 0x020200300000 + 0x100 + i * 0x8
  | .blwCap => 0x020200200000
  | .blwCtl => 0x020200200000 + 0x8
  | .blwGap => 0x020200200000 + 0x10
  | .blwStat => 0x020200200000 + 0x18
  | .blwCnt => 0x020200200000 + 0x20
  | .blwCore i => 0x020200200000 + 0x200 + i * 0x8
  | .blwTemp i => 0x020200200000 + 0x400 + i * 0x8
  | .hifWakeTol => 0x020200100000 + 0x300
  | .hifIdle => 0x020200100000 + 0x308
  | .hifBar2Map => 0x020200100000 + 0x10
  | .hifSqBase i => 0x020200100000 + 0x1000 + i * 0x40
  | .hifCqBase i => 0x020200100000 + 0x1010 + i * 0x40
  | .hifQCfg i => 0x020200100000 + 0x1008 + i * 0x40
  | .hifQCtl i => 0x020200100000 + 0x1020 + i * 0x40
  | .hifQStat i => 0x020200100000 + 0x1028 + i * 0x40
  | .hifProgStat i => 0x020200100000 + 0x400 + i * 0x10
  | .hifBoot => 0x020200100000
  | .chipMode => 0x020200000000 + 0x20
  | .chipTimer i => 0x020200000000 + 0x600 + i * 0x8
  | .chipGpio => 0x020200000000 + 0x700
  | .hifAdvice => 0x020200100000 + 0x18
  | .chipReset => 0x020200000000 + 0x30
  | .chipId => 0x020200000000
  | .chipFwVer => 0x020200000000 + 0x8
  | .chipSerial => 0x020200000000 + 0x10
  | .ssHist i j => 0x020201000000 + 0x100010 + i * 0x80 + j * 0x8
  | .mxeDrnChain n m i j => 0x020210010000 + n * 0x100000 + m * 0x4000 + 0x400 + i * 0x40 + j * 0x8
  | .fifeDrnChain n i j => 0x020210028000 + n * 0x100000 + 0x400 + i * 0x40 + j * 0x8
  | .ibuf n i => 0x020210080000 + n * 0x100000 + i * 0x8
  | .coreMap i => 0x020200000000 + 0x300 + i * 0x8
  | .siteStat => 0x020200000000 + 0x480
  | .hifFwSrc => 0x020200100000 + 0x100
  | .hifFwCtl => 0x020200100000 + 0x108
  | .hifFwStat => 0x020200100000 + 0x110
  | .dbgChal i => 0x020200100000 + 0x200 + i * 0x8
  | .dbgCtl => 0x020200100000 + 0x210
  | .dbgStat => 0x020200100000 + 0x218
  | .dbgToken i => 0x020200100000 + 0x240 + i * 0x8
  | .hifProgPos i => 0x020200100000 + 0x408 + i * 0x10
  | .hifSqProg i => 0x020200100000 + 0x1030 + i * 0x40
  | .hifQPost i => 0x020200100000 + 0x1038 + i * 0x40
  | .dmaBase i => 0x020200100000 + 0x2000 + i * 0x40
  | .dmaCfg i => 0x020200100000 + 0x2008 + i * 0x40
  | .dmaStat i => 0x020200100000 + 0x2010 + i * 0x40
  | .msixTable i => 0x020200100000 + 0x10000 + i * 0x8
  | .msixPba i => 0x020200100000 + 0x11000 + i * 0x8
  | .xpAddr p => 0x020231000000 + p * 0x100000 + 0x10
  | .xpIp p i => 0x020231000000 + p * 0x100000 + 0x18 + i * 0x8
  | .csrtPeertab => 0x020232000000 + 0x10
  | .winPerm i => 0x020233000000 + 0x8 + i * 0x20
  | .winCnt => 0x020233000000 + 0xa010
  | .tstCoreCtl => 0x020240000000
  | .tstSweep => 0x020240000000 + 0x8
  | .tstStat => 0x020240000000 + 0x10
  | .tstFence i => 0x020240000000 + 0x200 + i * 0x8
  | .tstSramCnt i => 0x020240000000 + 0x400 + i * 0x8
  | .tstSramOrg => 0x020240000000 + 0x500
  | .tstTraceCtl => 0x020240000000 + 0x600
  | .errCtl => 0x020250000000
  | .errHead => 0x020250000000 + 0x8
  | .errTail => 0x020250000000 + 0x10
  | .errStat => 0x020250000000 + 0x18
  | .errMgmt => 0x020250000000 + 0x20
  | .errRing i j => 0x020250000000 + 0x10000 + i * 0x40 + j * 0x8
  | .ghCmdqPush s i j => 0x020220000000 + s * 0x1000000 + 0x1000 + i * 0x40 + j * 0x8
  | .ghPhy s i => 0x020220000000 + s * 0x1000000 + 0x800000 + i * 0x8

/-- Index of an offset in an array of `cnt` registers `stride` bytes apart from `base`. -/
def arrIdx (off base cnt stride : Nat) : Option Nat :=
  if base ≤ off ∧ off < base + cnt * stride ∧ (off - base) % stride = 0
  then some ((off - base) / stride) else Option.none

/-- Indices of an offset in a two-dimensional array of registers. -/
def arrIdx2 (off base cnt stride cnt2 stride2 : Nat) : Option (Nat × Nat) :=
  if base ≤ off ∧ off < base + cnt * stride ∧ (off - base) % stride < cnt2 * stride2
      ∧ (off - base) % stride % stride2 = 0
  then some ((off - base) / stride, (off - base) % stride / stride2) else Option.none

/-- Index of an offset in an array, as a function of the rest: `d` where it is in none. -/
def inArr (off base cnt stride : Nat) (f : Nat → Reg) (d : Reg) : Reg :=
  ((arrIdx off base cnt stride).map f).getD d

/-- `inArr` for a two-dimensional array. -/
def inArr2 (off base cnt stride cnt2 stride2 : Nat) (f : Nat → Nat → Reg) (d : Reg) : Reg :=
  ((arrIdx2 off base cnt stride cnt2 stride2).map fun p => f p.1 p.2).getD d

/-- The register at an offset of a CHIP block or sub-block. -/
def regAtChip (off : Nat) : Reg :=
  if off = 0x400 then .placeCtl else
  if off = 0x408 then .placeStat else
  if off = 0x410 then .dispCtl else
  if off = 0x500 then .chipNode else
  if off = 0x510 then .chipTsync else
  if off = 0x518 then .chipTime else
  if off = 0x20 then .chipMode else
  inArr off 0x600 8 0x8 .chipTimer <|
  if off = 0x700 then .chipGpio else
  if off = 0x30 then .chipReset else
  if off = 0x0 then .chipId else
  if off = 0x8 then .chipFwVer else
  if off = 0x10 then .chipSerial else
  inArr off 0x300 32 0x8 .coreMap <|
  if off = 0x480 then .siteStat else
  .none

/-- The register at an offset of a HIF block or sub-block. -/
def regAtHif (off : Nat) : Reg :=
  if off = 0x300 then .hifWakeTol else
  if off = 0x308 then .hifIdle else
  if off = 0x10 then .hifBar2Map else
  inArr off 0x1000 64 0x40 .hifSqBase <|
  inArr off 0x1010 64 0x40 .hifCqBase <|
  inArr off 0x1008 64 0x40 .hifQCfg <|
  inArr off 0x1020 64 0x40 .hifQCtl <|
  inArr off 0x1028 64 0x40 .hifQStat <|
  inArr off 0x400 16 0x10 .hifProgStat <|
  if off = 0x0 then .hifBoot else
  if off = 0x18 then .hifAdvice else
  if off = 0x100 then .hifFwSrc else
  if off = 0x108 then .hifFwCtl else
  if off = 0x110 then .hifFwStat else
  inArr off 0x200 2 0x8 .dbgChal <|
  if off = 0x210 then .dbgCtl else
  if off = 0x218 then .dbgStat else
  inArr off 0x240 20 0x8 .dbgToken <|
  inArr off 0x408 16 0x10 .hifProgPos <|
  inArr off 0x1030 64 0x40 .hifSqProg <|
  inArr off 0x1038 64 0x40 .hifQPost <|
  inArr off 0x2000 8 0x40 .dmaBase <|
  inArr off 0x2008 8 0x40 .dmaCfg <|
  inArr off 0x2010 8 0x40 .dmaStat <|
  inArr off 0x10000 512 0x8 .msixTable <|
  inArr off 0x11000 4 0x8 .msixPba <|
  .none

/-- The register at an offset of a BLW block or sub-block. -/
def regAtBlw (off : Nat) : Reg :=
  if off = 0x0 then .blwCap else
  if off = 0x8 then .blwCtl else
  if off = 0x10 then .blwGap else
  if off = 0x18 then .blwStat else
  if off = 0x20 then .blwCnt else
  inArr off 0x200 32 0x8 .blwCore <|
  inArr off 0x400 64 0x8 .blwTemp <|
  .none

/-- The register at an offset of a CLK block or sub-block. -/
def regAtClk (off : Nat) : Reg :=
  if off = 0x0 then .clkStatus else
  inArr off 0x100 32 0x8 .clkCorePs <|
  .none

/-- The register at an offset of an ORG block or sub-block. -/
def regAtOrg (off : Nat) : Reg :=
  inArr off 0x100000 4096 0x80 .ssParam <|
  inArr off 0x100008 4096 0x80 .ssCenter <|
  inArr off 0x100050 4096 0x80 .ssCur <|
  inArr off 0x100078 4096 0x80 .ssCtrl <|
  inArr off 0x0 4096 0x10 .tsCnt <|
  inArr off 0x8 4096 0x10 .tsNotify <|
  inArr off 0x20000 256 0x10 .barState <|
  inArr off 0x20008 256 0x10 .barCtl <|
  inArr2 off 0x100010 4096 0x80 8 0x8 .ssHist <|
  .none

/-- The register at an offset of a SC block or sub-block. -/
def regAtSc (n : Nat) (off : Nat) : Reg :=
  if off = 0x200 then .scAccInterlock n else
  if off = 0x100 then .scEvent n else
  if off = 0x108 then .scEventSet n else
  if off = 0x208 then .scStallCnt n else
  if off = 0x300 then .scTaskWdog n else
  inArr off 0x400 4 0x40 (.tctxCtl n) <|
  inArr off 0x408 4 0x40 (.tctxCode n) <|
  inArr off 0x410 4 0x40 (.tctxPc n) <|
  inArr off 0x418 4 0x40 (.tctxStat n) <|
  inArr off 0x420 4 0x40 (.tctxPoison n) <|
  inArr2 off 0x600 4 0x100 32 0x8 (.tctxReg n) <|
  inArr off 0xa00 64 0x8 (.scEvstat n) <|
  .none

/-- The register at an offset of an MXE block or sub-block. -/
def regAtMxe (n m : Nat) (off : Nat) : Reg :=
  inArr off 0x1000 256 0x8 (.mxeWparam n m) <|
  inArr off 0x1800 256 0x8 (.mxeColsum n m) <|
  if off = 0x2000 then .mxeRowcnt n m else
  if off = 0x0 then .mxeCfg n m else
  if off = 0x18 then .mxeBypass n m else
  if off = 0x10 then .mxeWidth n m else
  if off = 0x8 then .mxeStatus n m else
  if off = 0x20 then .mxeAbftCnt n m else
  if off = 0x28 then .mxeStallCnt n m else
  if off = 0x30 then .mxeAccState n m else
  if off = 0x38 then .mxeSpfCnt n m else
  if off = 0x40 then .mxeSpfStat n m else
  inArr2 off 0x400 4 0x40 8 0x8 (.mxeDrnChain n m) <|
  .none

/-- The register at an offset of a VXE block or sub-block. -/
def regAtVxe (n : Nat) (off : Nat) : Reg :=
  if off = 0x0 then .vxeStat n else
  .none

/-- The register at an offset of a FIFE block or sub-block. -/
def regAtFife (n : Nat) (off : Nat) : Reg :=
  inArr2 off 0x400 4 0x40 8 0x8 (.fifeDrnChain n) <|
  .none

/-- The register at an offset of a STR block or sub-block. -/
def regAtStr (n : Nat) (off : Nat) : Reg :=
  inArr off 0x0 16 0x40 (.strQCtl n) <|
  inArr off 0x8 16 0x40 (.strQSrc n) <|
  inArr off 0x10 16 0x40 (.strQDst n) <|
  inArr off 0x18 16 0x40 (.strQStat n) <|
  inArr off 0x20 16 0x40 (.strQCnt n) <|
  inArr2 off 0x800 16 0x20 4 0x8 (.strQIr n) <|
  inArr2 off 0x1000 16 0x100 32 0x8 (.strProg n) <|
  if off = 0xc00 then .strCfg n else
  if off = 0xc08 then .strColStat n else
  if off = 0xc10 then .strColCnt n else
  .none

/-- The register at an offset of a CMC block or sub-block. -/
def regAtCmc (n : Nat) (off : Nat) : Reg :=
  if off = 0x0 then .cmcStatus n else
  if off = 0x8 then .cmcConflictCnt n else
  if off = 0x10 then .cmcBgCtl n else
  if off = 0x18 then .cmcBgCnt n else
  if off = 0x20 then .cmcShadowInv n else
  if off = 0x28 then .cmcShadowErr n else
  if off = 0x30 then .cmcCtl n else
  inArr off 0x40 8 0x8 (.cmcConfLog n) <|
  .none

/-- The register at an offset of a PIC block or sub-block. -/
def regAtPic (n : Nat) (off : Nat) : Reg :=
  if off = 0x0 then .picCtl n else
  if off = 0x8 then .picStat n else
  .none

/-- The register at an offset of a IBUF block or sub-block. -/
def regAtIbuf (n : Nat) (off : Nat) : Reg :=
  inArr off 0x0 16384 0x8 (.ibuf n) <|
  .none

/-- The register at an offset of a GH block or sub-block. -/
def regAtGh (s : Nat) (off : Nat) : Reg :=
  if off = 0x400 then .ghDirBase s else
  if off = 0x408 then .ghDirCtl s else
  if off = 0x410 then .ghDirStat s else
  if off = 0x418 then .ghDirErr s else
  inArr off 0x100 16 0x10 (.ghCmdqCtl s) <|
  inArr off 0x108 16 0x10 (.ghCmdqStat s) <|
  if off = 0x420 then .ghHeapBase s else
  if off = 0x428 then .ghHeapLim s else
  if off = 0x0 then .ghStatus s else
  if off = 0x200 then .ghScrubCtl s else
  if off = 0x208 then .ghScrubStat s else
  if off = 0x300 then .ghRepairStat s else
  inArr off 0x900000 4 0x8 (.bsSlot s) <|
  inArr off 0x900020 4 0x8 (.bsAct s) <|
  if off = 0x900040 then .bsRank s else
  if off = 0x900048 then .bsCtl s else
  if off = 0x900050 then .bsStat s else
  inArr off 0x900080 12 0x8 (.bsGrants s) <|
  inArr off 0x900100 12 0x8 (.bsWait s) <|
  inArr2 off 0x1000 16 0x40 8 0x8 (.ghCmdqPush s) <|
  inArr off 0x800000 131072 0x8 (.ghPhy s) <|
  .none

/-- The register at an offset of a GP block or sub-block. -/
def regAtGp (p : Nat) (off : Nat) : Reg :=
  if off = 0x0 then .gpCtl p else
  if off = 0x8 then .gpStatus p else
  if off = 0x10 then .gpCnt p else
  .none

/-- The register at an offset of a XP block or sub-block. -/
def regAtXp (p : Nat) (off : Nat) : Reg :=
  if off = 0x0 then .xpCtl p else
  if off = 0x8 then .xpStatus p else
  if off = 0x28 then .xpCnt p else
  if off = 0x10 then .xpAddr p else
  inArr off 0x18 2 0x8 (.xpIp p) <|
  .none

/-- The register at an offset of a CSRT block or sub-block. -/
def regAtCsrt (off : Nat) : Reg :=
  if off = 0x0 then .csrtCtl else
  if off = 0x8 then .csrtStat else
  if off = 0x10 then .csrtPeertab else
  .none

/-- The register at an offset of a WIN block or sub-block. -/
def regAtWin (off : Nat) : Reg :=
  inArr off 0x8000 1024 0x8 .winLocal <|
  inArr off 0x0 1024 0x20 .winCtl <|
  inArr off 0x10 1024 0x20 .winStat <|
  inArr off 0x18 1024 0x20 .winCmpl <|
  if off = 0xa000 then .winGctl else
  if off = 0xa008 then .winLog else
  inArr off 0x8 1024 0x20 .winPerm <|
  if off = 0xa010 then .winCnt else
  .none

/-- The register at an offset of a TST block or sub-block. -/
def regAtTst (off : Nat) : Reg :=
  if off = 0x0 then .tstCoreCtl else
  if off = 0x8 then .tstSweep else
  if off = 0x10 then .tstStat else
  inArr off 0x200 32 0x8 .tstFence <|
  inArr off 0x400 32 0x8 .tstSramCnt <|
  if off = 0x500 then .tstSramOrg else
  if off = 0x600 then .tstTraceCtl else
  .none

/-- The register at an offset of an ERR block or sub-block. -/
def regAtErr (off : Nat) : Reg :=
  if off = 0x0 then .errCtl else
  if off = 0x8 then .errHead else
  if off = 0x10 then .errTail else
  if off = 0x18 then .errStat else
  if off = 0x20 then .errMgmt else
  inArr2 off 0x10000 1024 0x40 8 0x8 .errRing <|
  .none

/-- The register at an offset of a CORE block (R539). -/
def regAtCore (n off : Nat) : Reg :=
  if off < 0x10000 then regAtSc n off
  else if off < 0x20000 then regAtMxe n ((off - 0x10000) / 0x4000) ((off - 0x10000) % 0x4000)
  else if off < 0x28000 then regAtVxe n (off - 0x20000)
  else if off < 0x30000 then regAtFife n (off - 0x28000)
  else if off < 0x40000 then regAtStr n (off - 0x30000)
  else if off < 0x50000 then regAtCmc n (off - 0x40000)
  else if off < 0x80000 then regAtPic n (off - 0x50000)
  else regAtIbuf n (off - 0x80000)

/-- The register at a device address of CSR space (R538). An address that is not 8-byte aligned, or
that no register occupies, names none. -/
def regAt (a : Nat) : Reg :=
  if a < 0x020200000000 then .none
  else if a < 0x020200100000 then regAtChip (a - 0x020200000000)
  else if a < 0x020200200000 then regAtHif (a - 0x020200100000)
  else if a < 0x020200300000 then regAtBlw (a - 0x020200200000)
  else if a < 0x020200400000 then regAtClk (a - 0x020200300000)
  else if a < 0x020201000000 then .none
  else if a < 0x020202000000 then regAtOrg (a - 0x020201000000)
  else if a < 0x020210000000 then .none
  else if a < 0x020212000000 then
    regAtCore ((a - 0x020210000000) / 0x100000) ((a - 0x020210000000) % 0x100000)
  else if a < 0x020220000000 then .none
  else if a < 0x020228000000 then
    regAtGh ((a - 0x020220000000) / 0x1000000) ((a - 0x020220000000) % 0x1000000)
  else if a < 0x020230000000 then .none
  else if a < 0x020230E00000 then
    regAtGp ((a - 0x020230000000) / 0x100000) ((a - 0x020230000000) % 0x100000)
  else if a < 0x020231000000 then .none
  else if a < 0x020231400000 then
    regAtXp ((a - 0x020231000000) / 0x100000) ((a - 0x020231000000) % 0x100000)
  else if a < 0x020232000000 then .none
  else if a < 0x020232100000 then regAtCsrt (a - 0x020232000000)
  else if a < 0x020233000000 then .none
  else if a < 0x020233100000 then regAtWin (a - 0x020233000000)
  else if a < 0x020240000000 then .none
  else if a < 0x020240100000 then regAtTst (a - 0x020240000000)
  else if a < 0x020250000000 then .none
  else if a < 0x020250100000 then regAtErr (a - 0x020250000000)
  else .none

/-- The value of a register after device reset: the reset values of its fields, 0 elsewhere (R12). -/
def regReset (r : Reg) : Nat :=
  (regFields r).foldl (fun w f => w + f.reset * 2 ^ f.fld.lo) 0

/-- True when the register is marked 64-bit atomic (R14): TS_CNT (R254), HIF_SQ_PROG (R453),
ERR_HEAD (R487), CHIP_TIME (R416), CHIP_SERIAL (R541). -/
def regAtomic : Reg → Bool
  | .tsCnt _ | .hifSqProg _ | .errHead | .chipTime | .chipSerial => true
  | _ => false

end Sys2Proof.Machine
end

