-- ==== Sys2Proof/Machine/State.lean ====
section
/-! DEFINITION. The state of the device (plain data) and its state after reset. Registers live in one
sparse table keyed by device address; memory in sparse byte tables; the rest is the engine, queue,
link and firmware state that the spec describes without giving it a register. -/

namespace Sys2Proof.Machine

/-- The reasons a step stops with a fault. The device reports its own faults in error records
(R483-R489), which are state; a machine step itself faults on none of the spec's events. -/
inductive Fault where
  /-- Raised by no meaning: the device has no event after which it has no next state. Safe. -/
  | stopped
  deriving DecidableEq, Repr

/-- The reasons a step is refused. -/
inductive Refusal where
  /-- Raised by an arm of exec whose command has no meaning yet, with its mnemonic. Safe. -/
  | notModelled (mnemonic : String)
  deriving DecidableEq, Repr

/-! ### Matrix engines, accumulators, drains (spec/02-04) -/

/-- Bytes on their way to memory: address, bytes, and the poison of the units they cover. -/
structure WrOp where
  a : Nat
  bs : List Byte
  poison : Bool
  deriving DecidableEq, Repr

/-- The values that an operation latches from a scale slot (R43): SS_PARAM and CENTER. -/
structure SlotLatch where
  slot : Nat := 0
  scale : Nat := 0x3F800000
  zp : Int := 0
  shift : Nat := 0
  etype : Nat := 1
  center : Nat := 0
  deriving DecidableEq, Repr

/-- A set of weights in an array (R49, R51): element type, rows n, logical columns, the codes row by
row, the per-column MXE_WPARAM words and column sums, and whether any of it is poisoned. -/
structure WeightSet where
  etype : Nat := 1
  rows : Nat := 0
  cols : Nat := 0
  codes : List (List Nat) := []
  params : List Word := []
  colsum : List Int := []
  poison : Bool := false
  nanSeen : Bool := false
  deriving DecidableEq, Repr

/-- What a WS set carries beside its bytes (R319): the element type, the validity mark, the columns
filled in each half (R318 PART) and the zero code of a compressed tile in it (R139). -/
structure WsMeta where
  etype : Nat := 1
  valid : Bool := true
  colsLo : Nat := 0
  colsHi : Nat := 0
  zLo : Option Nat := none
  zHi : Option Nat := none
  deriving DecidableEq, Repr

/-- A weight load: the WLOAD's fields, its issue cycle, and S once the load has started (R75). -/
structure LoadOp where
  ctx : Nat
  pc : Nat
  set : Nat
  n : Nat
  param : Nat
  issue : Nat
  start : Option Nat
  deriving DecidableEq, Repr

/-- What a closing operation latches (R43, R110, R317): chain, destination, event, origin, and the slots
that its AMAX stages name. -/
structure CloseInfo where
  ctx : Nat
  chain : List Word
  dst : Nat
  evEn : Bool
  event : Nat
  issue : Nat
  pc : Nat
  amax : List SlotLatch
  deriving DecidableEq, Repr

/-- Lines of AB, or a WS set, that a feeder or a weight load reads (R234): from cycle `first` on, `count` reads
`step` cycles apart, each of `row` bytes and `pitch` bytes on. -/
structure LineRead where
  set : Option Nat
  off : Nat
  row : Nat
  pitch : Nat
  first : Nat
  step : Nat
  count : Nat
  deriving DecidableEq, Repr

/-- An operation held by a feeder (R177): a PASS or an SPASS with its operands read at issue. -/
structure FeedOp where
  sparse : Bool
  ctx : Nat
  pc : Nat
  aboff : Nat
  m : Nat
  tile : Nat
  row0 : Nat
  close : Bool
  kh : Bool
  arow : Nat
  switch : Bool
  entries : List Nat
  count : Nat
  latch : SlotLatch
  info : CloseInfo
  issue : Nat
  started : Bool
  deriving DecidableEq, Repr

/-- An accumulator tile (R97-R103): state code of R99, mode, latched parameters and records. -/
structure AccTile where
  st : Nat := 0
  etype : Nat := 1
  transpose : Bool := false
  cols : Nat := 0
  fullCols : Nat := 128
  mt : Nat := 0
  latch : SlotLatch := {}
  wparam : List Word := []
  rowsum : Tab Int := []
  colacc : List Int := []
  sat : Bool := false
  poison : List Nat := []
  abft : Bool := false
  nanSeen : Bool := false
  ready : Nat := 0
  closing : Bool := false
  retries : Nat := 0
  deriving DecidableEq, Repr

/-- A value in a chain (R111): an exact INT32, or FP32 bits. -/
inductive Val where
  | int (v : Int)
  | fp (w : Nat)
  deriving DecidableEq, Repr
/-- A row on its way through a chain: the next stage, its values, whether an operand has poisoned it, where
its ROWSTAT record lies with the record's bytes from before it, its statistics by slot, and the slots
that it showed a NaN or an infinity. -/
structure RowRun where
  row : Nat
  next : Nat
  vs : List Val
  poison : Bool
  recAt : Option (Nat × List Byte)
  amax : List (Nat × Nat)
  nans : List Nat
  deriving DecidableEq, Repr
/-- A moment of a drain: in a cycle a row comes through the stages up to one; past the last stage it
leaves the chain. A row number past the last row stands for the end of the writes (R114). -/
structure DrainEv where
  cyc : Nat
  row : Nat
  stage : Nat
  deriving DecidableEq, Repr
/-- The flags of a status word that members of a gang have already given to their common operation (R126,
R127). -/
structure DrainFlags where
  sat : Bool := false
  poison : Bool := false
  abft : Bool := false
  nanSeen : Bool := false
  deriving DecidableEq, Repr
/-- A BIAS vector as a drain read it at D0 (R115): its base, values, and whether a unit is poisoned. -/
structure BiasVec where
  base : Nat
  ws : List Nat
  poison : Bool
  deriving DecidableEq, Repr
/-- A closed tile in an MXE's drain unit or its queue (R104): its closing operation, its times; from D0 on
the tile's and the partner's records and entries, its place in the gang, what its rows have yet to do, and
the results so far. `muted`: a drain that broke a rule of the shadow writes nothing (R246). -/
structure DrainOp where
  tile : Nat
  partner : Option Nat
  info : CloseInfo
  ready : Nat
  slot : Nat
  started : Bool := false
  swapped : Bool := false
  d0 : Nat := 0
  swapAt : Nat := 0
  lastWrite : Nat := 0
  sat : Bool := false
  poison : Bool := false
  abft : Bool := false
  nanSeen : Bool := false
  muted : Bool := false
  others : DrainFlags := {}
  self : AccTile := {}
  other : AccTile := {}
  ents : List (List Nat) := []
  pents : List (List Nat) := []
  bias : List BiasVec := []
  base : Nat := 0
  first : Bool := true
  todo : List DrainEv := []
  live : List RowRun := []
  rows : List (List Nat × Bool) := []
  amax : List (Nat × Nat) := []
  nanSlots : List Nat := []
  deriving DecidableEq, Repr

/-- The clamped values of a SAT drain, kept for the tile-task runtime (R56), and the tile's slot. -/
structure SatHold where
  slot : Nat
  writes : List WrOp
  deriving DecidableEq, Repr

/-- Results of a vector that are not readable yet (R70, R71, R73): tile, row, the cycle in which column 0
of the gang is, whether later columns follow one per cycle, the cell columns before this array, and the
row as it reads until then. -/
structure AccStale where
  tile : Nat
  row : Nat
  due : Nat
  spread : Bool
  before : Nat
  old : List Nat
  deriving DecidableEq, Repr
/-- One matrix engine (R61-R96) beside its registers. -/
structure Mxe where
  wsMeta : Tab WsMeta := []
  active : WeightSet := {}
  standby : WeightSet := {}
  load : Option LoadOp := none
  cur : Option LoadOp := none
  lastLoad : Option (Nat × Nat) := none
  issEtype : Nat := 1
  issValid : Bool := false
  issStandby : Option Nat := none
  lastSwitch : Option Nat := none
  feeder : List FeedOp := []
  feedFree : Nat := 0
  tiles : Tab AccTile := []
  drains : List DrainOp := []
  lastSwap : Nat := 0
  passNo : Nat := 0
  satHold : Tab SatHold := []
  retries : Tab Nat := []
  /-- The cycle in which the last result of the passes fed so far is readable (R66, R96). -/
  busyTill : Nat := 0
  /-- The cycle of the last change of the activity level (R91). -/
  levelAt : Nat := 0
  stale : List AccStale := []
  /-- Wide reads of parameter blocks that loads in progress have yet to make (R233): cycle, CM offset, first
  column. -/
  spans : List (Nat × Nat × Nat) := []
  /-- What the feeder and the weight loads read of AB and WS (R234), as far as fills may meet it. -/
  reads : List LineRead := []
  /-- A column scan has been asked for (R83). -/
  scan : Bool := false
  deriving DecidableEq, Repr
/-! ### Cores (spec/08, spec/09, spec/10) -/

/-- What a waiting context waits for (R312, R315): events; the answer to its arrival at a barrier; the
release of a generation; nothing, once an arrival at a barrier with COUNT 0 has returned (R258). -/
inductive WaitKind where
  | events (mask : Nat) (all clr single : Bool)
  | joining (b : Nat)
  | barrier (b gen : Nat) (aborted : Bool)
  | joined (gen : Nat)
  deriving DecidableEq, Repr

/-- A context's wait: its condition, destination register, whether it may switch, since when (root
time), and whether the watchdog has fired for it (R335). -/
structure Wait where
  kind : WaitKind
  rd : Nat
  sw : Bool
  since : Nat
  hung : Bool
  deriving DecidableEq, Repr

/-- A whole-core stall in progress (R339): its cause, since which core cycle and root time, and
whether the watchdog has fired for it (R335). -/
structure Stall where
  cause : Nat
  ctx : Nat
  sinceCyc : Nat
  since : Nat
  hung : Bool
  deriving DecidableEq, Repr

/-- The variable-latency operations of the scalar unit (R307, R308, R311). -/
inductive FarKind where
  | ldf (a : Nat) | stf (a : Nat) (v : Word) (poison : Bool)
  | csrr (a : Nat) | csrw (a : Nat) (v : Word)
  | turn (t n : Nat) | tadd (t n : Nat)
  | arrive (b : Nat)
  | arriveWait (b : Nat)
  deriving DecidableEq, Repr

/-- A far operation in flight: its context, destination register, kind, and root time of issue. -/
structure FarOp where
  ctx : Nat
  rd : Nat
  kind : FarKind
  issue : Nat
  deriving DecidableEq, Repr

/-- A result of fixed latency on its way to a scalar register, a CSRW to the core's own sub-blocks
on its way to the register (R308, R337), or an ST or VST on its way to CM (`narrow`: an ST, which
the LD of the next cycle already sees), due in a core cycle. -/
inductive SlowOp where
  | cmw (due off : Nat) (bs : List Byte) (poison : List Bool) (narrow : Bool)
  | reg (due ctx rd : Nat) (v : Word) (poison : Bool)
  | csrr (due ctx rd a : Nat)
  | csrw (due a : Nat) (v : Word)
  deriving DecidableEq, Repr

/-- The poison bit that a vector write leaves in one unit of its register. -/
structure PoisonBit where
  unit : Nat
  bit : Bool
  deriving DecidableEq, Repr

/-- A vector register write on its way (R303): due cycle, register, the lane words from lane
`first` on with the mask of the bits they write, and the poison bits of the units it writes. -/
structure VecWrite where
  due : Nat
  v : Nat
  first : Nat
  mask : W32
  lanes : List W32
  poison : List PoisonBit
  deriving DecidableEq, Repr

/-- A VREQ or VPSUM in the background (R326): what it will write when it completes. -/
structure VecBg where
  ctx : Nat
  issue : Nat
  done : Nat
  evEn : Bool
  event : Nat
  writes : List WrOp
  const : List Nat
  sat : Bool
  nanSeen : Bool
  poison : Bool
  code : Nat
  pc : Nat
  deriving DecidableEq, Repr

/-- A 64-byte unit in flight with its poison bit. -/
structure UnitP where
  bs : List Byte
  poison : Bool
  deriving DecidableEq, Repr

/-- A FILL in flight (R319): its wide reads still to come, by cycle and CM offset (R542), and the units it has
read. -/
structure FillOp where
  ctx : Nat
  pc : Nat
  issue : Nat
  slot : Nat
  m : Nat
  args : FillArgs
  due : Nat
  reads : List (Nat × Nat)
  got : Tab UnitP
  deriving DecidableEq, Repr

/-- A result in Fife's hold bank or on its way to CM (R95, R128). -/
structure FifeOp where
  ctx : Nat
  pc : Nat
  desc : List Byte
  latch : SlotLatch
  chain : List Word
  params : List (List Word)
  issue : Nat
  amax : List SlotLatch
  /-- An FDISCARD came after it. -/
  drop : Bool := false
  /-- The cycle before its first lane cycle, where every FMV ahead of it is fed from CM (R328). -/
  start : Option Nat := none
  /-- Its wide reads of CM still to come: cycle, CM offset; and the units it has read. -/
  reads : List (Nat × Nat) := []
  got : Tab UnitP := []
  /-- The vector registers and their poison bits as its lanes find them. -/
  regs : Option (Tab W32 × Tab Bool) := none
  deriving DecidableEq, Repr

/-- Fife's hold bank (R128): V, strip count, each strip's records and its results. -/
structure FifeHold where
  v : Nat
  strips : Nat
  tiles : List AccTile
  vals : List (List (List Nat))
  deriving DecidableEq, Repr

/-- A stream-slot operation held by the stream engine (R330), with its register operand read. -/
structure StOp where
  ctx : Nat
  pc : Nat
  code : Nat
  q : Nat
  ir : Nat
  val : Word
  stk : Nat
  off : Nat
  event : Nat
  en : Bool
  deriving DecidableEq, Repr

/-- A transfer of a stream queue (R269, R273): its number, source and destination (an engine buffer
by its debug-view address; `fife` for Fife's operand port), its units of 64 bytes, and whether its
tile's entry has POISON (R162). -/
structure Transfer where
  id : Nat
  src : Nat
  dst : Nat
  fife : Bool
  units : Nat
  lost : Bool
  deriving DecidableEq, Repr

/-- A SIGNAL that waits for the transfers before it (R275): its event, and the number of the first
transfer after it. -/
structure StrSignal where
  event : Nat
  bound : Nat
  deriving DecidableEq, Repr

/-- The running part of a stream queue (R265-R279): active LOOPs (PC of the LOOP, iterations left),
transfers in flight, the transfers that the present EMIT or GATHER has yet to issue, the set bits of
a GATHER, waiting SIGNALs, whether execution fell off instruction 31, whether STOP ended it, whether it delivered a
poisoned unit since START, the fault of a failed transfer, and its next core cycle. -/
structure StrQ where
  loops : List (Nat × Nat) := []
  inflight : List Transfer := []
  nextId : Nat := 0
  todo : List Transfer := []
  gathered : Nat := 0
  signals : List StrSignal := []
  fell : Bool := false
  stopping : Bool := false
  poisoned : Bool := false
  fault : Nat := 0
  free : Nat := 0
  /-- The fault of the next EMIT of a GATHER, once the transfers before it have issued (R274). -/
  cut : Nat := 0
  deriving DecidableEq, Repr

/-- The rotation of a stream engine (R267): a core cycle, the queue that it started at in that cycle, and the queues
that executed in it. -/
structure StrTurn where
  cyc : Nat := 0
  first : Nat := 0
  served : List Nat := []
  deriving DecidableEq, Repr

/-- A Colonnade transfer (R280-R284): its descriptor, root time of arrival and of its first chunk,
whether its last chunk has left, its data, the cores that have yet to write it, and the context that started it. -/
structure ColTransfer where
  desc : List Byte
  arr : Nat
  start : Option Nat
  sent : Bool
  data : List UnitP
  left : List Nat
  ctx : Nat
  deriving DecidableEq, Repr

/-- The DATA message that a background write belongs to (R262): window, sender, SEQ. -/
structure WinMsg where
  w : Nat
  dev : Nat
  seq : Nat
  deriving DecidableEq, Repr

/-- A background access waiting for CM (R240): requester code of R246, offset, bytes with a poison bit for each
unit they touch, length of a read, the cycle of its arrival, and the message it belongs to. -/
structure BgAcc where
  req : Nat
  off : Nat
  data : List Byte
  poison : List Bool
  write : Bool
  len : Nat
  since : Nat
  msg : Option WinMsg := none
  deriving DecidableEq, Repr

/-- A CM access of a core cycle (R241, R542): requester code, offset, bytes, direction; `slip` for one of a VXE
operation in the background, which gives way to the fixed-latency ones (R326). -/
structure Sched where
  cyc : Nat
  req : Nat
  off : Nat
  len : Nat
  write : Bool
  slip : Bool := false
  deriving DecidableEq, Repr

/-- A footprint of an operation on a unit (R245): the operation, the direction, the last cycle in which it
touches the unit, and its bundle. -/
structure ShadowUse where
  id : Nat
  write : Bool
  last : Nat
  pc : Nat
  deriving DecidableEq, Repr

/-- A shadow entry of validation mode (R245): VALID, and the footprints on the unit in order of issue. -/
structure ShadowEnt where
  valid : Bool
  uses : List ShadowUse := []
  deriving DecidableEq, Repr

/-- A global turnstile request of a core (R313): its number, the CM offset and event of the result,
its context and bundle, and the result once it has arrived. -/
structure GturnReq where
  reqid : Nat
  off : Nat
  event : Nat
  ctx : Nat
  pc : Nat
  res : Option Word
  deriving DecidableEq, Repr

/-- The signals that reached an event in a core cycle (R314): the status word they make alone, and
whether the event was set before. -/
structure SigNow where
  cyc : Nat
  status : Nat
  wasSet : Bool
  deriving DecidableEq, Repr

/-- One logical core beside its registers. -/
structure Core where
  cycBase : Nat := 0
  tBase : Nat := 0
  running : Option Nat := none
  lastRun : Option Nat := none
  stops : List Nat := []
  pcOut : List Nat := []
  notBefore : Nat := 0
  rep : Nat := 0
  mxes : Tab Mxe := []
  vregs : Tab W32 := []
  vpoison : Tab Bool := []
  vpend : List VecWrite := []
  vbg : List VecBg := []
  slow : List SlowOp := []
  far : List FarOp := []
  gturns : List GturnReq := []
  waits : Tab Wait := []
  sigs : Tab SigNow := []
  stall : Option Stall := none
  halted : List (Nat × Nat) := []
  fills : List FillOp := []
  fife : List FifeOp := []
  fifeFree : Nat := 0
  fifeHold : Option FifeHold := none
  fifeQ : Tab (List Byte) := []
  fifeQP : Tab (List Bool) := []
  stq : List StOp := []
  strq : Tab StrQ := []
  strTurn : StrTurn := {}
  colon : List ColTransfer := []
  cfgHeld : Option Word := none
  sched : List Sched := []
  bg : List BgAcc := []
  /-- Background accesses of the present cycle (R237). -/
  bgUsed : List Sched := []
  confLast : Option Nat := none
  confSince : Nat := 0
  bgSeen : Nat := 0
  valid : Bool := false
  shadow : Tab ShadowEnt := []
  deriving DecidableEq, Repr

/-! ### Control block (spec/02, spec/08) -/

/-- A commit in progress (R42-R44): the values latched from before it, and the writes held. -/
structure CommitRec where
  slot : Nat
  ends : Nat
  oldParam : Word
  oldCenter : Word
  held : List (Bool × Word)
  deriving DecidableEq, Repr

/-- The register writes that reached a slot outside a commit in the FABRIC_CLK cycle `fab`, oldest first
(center or param, value), and SS_PARAM, SS_CENTER and SS_CUR from before the first (R44). -/
structure SlotNow where
  slot : Nat
  fab : Nat
  param : Word
  center : Word
  cur : Word
  writes : List (Bool × Word)
  deriving DecidableEq, Repr

/-- A statistic on its way to its slot (R41): it counts from the cycle of its core in which its operation
ends. -/
structure SlotReport where
  core : Nat
  cyc : Nat
  slot : Nat
  amax : Option Nat
  nan : Bool
  deriving DecidableEq, Repr

/-- What an atomic operation of the Orangery control block does (R255, R258). -/
inductive TsKind where
  | turn (t n : Nat) | add (t n : Nat) | arrive (b : Nat)
  deriving DecidableEq, Repr

/-- An atomic operation that has reached the control block (R256): its requester number in the
rotation, the FABRIC_CLK cycle of its arrival, its result once it has been served, and the cycle of that. -/
structure TsOp where
  req : Nat
  arr : Nat
  kind : TsKind
  res : Option Word
  svc : Nat := 0
  deriving DecidableEq, Repr
/-! ### Stack ports, Glasshouses, tile directory (spec/05, spec/07, spec/09) -/

/-- A stack port beside its registers (R286-R294): root time of its slot 0, the granted transfer's
requester and time of grant, the end of a reset, the time of a COMMIT, the ranking that an earlier
write of this cycle replaced with that cycle, and each requester's waiting cycles and last hint. -/
structure Port where
  frame : Nat := 0
  inflight : Option (Nat × Nat) := none
  resetEnd : Option Nat := none
  commitAt : Option Nat := none
  rankOld : Option (Nat × Nat) := none
  waits : Tab Nat := []
  hints : Tab Nat := []
  deriving DecidableEq, Repr

/-- How a Glasshouse command ended (R210): STATUS, CODE, DONE, and the time from which its completion
action may run. -/
structure GhDone where
  status : Nat
  code : Nat
  count : Nat
  ready : Nat
  sat : Bool := false
  nan : Bool := false
  deriving DecidableEq, Repr

/-- A tile write through a handle whose content lies in new space and whose entry has yet to switch
(R157): the handle, the new location, and what the entry takes from the tile. -/
structure TileSwitch where
  h : Nat
  da : Nat
  len : Nat
  fmt : Nat
  etype : Nat
  nnz : Nat
  slot : Nat
  constch : Bool
  deriving DecidableEq, Repr

/-- The payload of an ACCUM command that a receiving port pushes (R394): operation, element type,
destination, elements' bytes by unit, and the sending device. -/
structure AccBuf where
  func : Nat
  et : Nat
  dst : Nat
  units : List UnitP
  dev : Nat
  deriving DecidableEq, Repr

/-- A command of a Glasshouse queue (R204-R210): its eight words, sequence number, root times of
arrival and start, its switches and the handles it accumulated into, and its end. -/
structure GhCmd where
  ws : List Word
  seq : Nat
  arr : Nat
  start : Option Nat := none
  switches : List TileSwitch := []
  accum : List Nat := []
  done : Option GhDone := none
  buf : Option AccBuf := none
  deriving DecidableEq, Repr

/-- A push that waits for room in its queue (R205): the core and event of a GHPUSH, and its words. -/
structure GhPush where
  q : Nat
  core : Option Nat
  ws : List Word
  deriving DecidableEq, Repr

/-- A cached directory entry (R154, R155): the words 0-2 and its ACCESS count. -/
structure DirEnt where
  w0 : Nat
  w1 : Nat
  w2 : Nat
  access : Nat
  deriving DecidableEq, Repr

/-- Space of a tile heap in use (R218): its length in units, the handle it was allocated for, and
whether its last switch has freed it. -/
structure HeapUse where
  len : Nat
  h : Nat
  freed : Bool
  deriving DecidableEq, Repr

/-- A row queued for repair (R224, R228). -/
structure RowAt where
  pc : Nat
  bank : Nat
  row : Nat
  deriving DecidableEq, Repr

/-- A Glasshouse beside its registers. -/
structure Gh where
  queues : Tab (List GhCmd) := []
  waiting : List GhPush := []
  pushed : Tab (List Word) := []
  seq : Nat := 0
  turn : Nat := 15
  credit : Nat := 0
  lastStart : Nat := 0
  cache : Tab DirEnt := []
  inval : Option Nat := none
  heap : Tab HeapUse := []
  formatted : Bool := false
  migs : Tab Nat := []
  repairQ : List RowAt := []
  repair : Option (RowAt × Nat) := none
  spares : Tab Nat := []
  remapped : List RowAt := []
  /-- Rows left mapped for lack of a spare (R228, R499); channels whose spare bank is in use. -/
  unspared : List RowAt := []
  spareBanks : List Nat := []
  refreshed : Tab Nat := []
  lastScrub : Nat := 0
  misses : Nat := 0
  /-- Spare TSVs in use, by channel (R199, R228); arrivals over the stack interface, from now on, whose check code
  fails (R225; assumption 174). -/
  tsvs : Tab Nat := []
  wire : Nat := 0
  deriving DecidableEq, Repr

/-! ### Clocks and power (spec/13) -/

/-- A raise of VDD_CORE in progress (R425): the PB it leads to, its target in mV, the root time of its
frame. -/
structure Raise where
  pb : Nat
  mv : Nat
  sent : Nat
  deriving DecidableEq, Repr
/-- Bellows and the idle states beside their registers: root time from which the present dwell
counts, `calm` and `ticks_since_hot_step` of R427, ticks so far, consecutive ticks with a sensor at
105 °C or more, the pin FAST_THROTTLE_N, the ticks left of its hold, P-states by which the pin's
demand still holds after its hold (R432: one P-state per tick), the voltage raise in progress, ticks
until the next raise may be tried, the last tick of each THROTTLE cause, voltage frames sent, the
thermal trip, and whether the hottest sensor read 105 °C or more at the last tick. -/
structure Power where
  idleSince : Nat := 0
  calm : Nat := 0
  hotTicks : Nat := 0
  ticks : Nat := 0
  hotRuns : List Nat := []
  pin : Bool := false
  hold : Nat := 0
  step : Nat := 0
  raise : Option Raise := none
  block : Nat := 0
  throttled : Tab Nat := []
  frames : List Nat := []
  trip : Bool := false
  hot : Bool := false
  deriving DecidableEq, Repr

/-! ### Host interface and commands (spec/11, spec/14) -/

/-- How a command ended (R342): status, code, DETAIL. -/
structure WcsEnd where
  status : Nat
  code : Nat
  detail : Nat
  deriving DecidableEq, Repr
/-- A WCS command in flight (R341, R347): its number, its eight words, whether and when it started, the
first information code and poison so far, whether the results of the running work unit are poisoned
(R478), the scale slots it bound, its end. -/
structure WcsCmd where
  id : Nat
  ws : List Word
  started : Bool := false
  since : Nat := 0
  info : Nat := 0
  poison : Bool := false
  taint : Bool := false
  slots : List Nat := []
  fin : Option WcsEnd := none
  deriving DecidableEq, Repr
/-- A completion entry on its way to its CQ (R456). -/
structure CqEntry where
  tag : Nat
  status : Nat
  code : Nat
  source : Nat
  detail : Nat
  intr : Bool
  counted : Bool
  deriving DecidableEq, Repr
/-- A queue pair beside its registers: the doorbell values, commands in flight, entries to post,
entries posted since the last raise of its vector with the root time of the first, scale slots bound
and re-shards recorded in the present step, and the root time of a halt by TASK_HANG. -/
structure Qp where
  tail : Nat := 0
  cqHead : Nat := 0
  cmds : List WcsCmd := []
  out : List CqEntry := []
  since : Nat := 0
  firstAt : Option Nat := none
  slots : List Nat := []
  reshards : List (List Word) := []
  hungAt : Option Nat := none
  deriving DecidableEq, Repr
/-- An entry of an EPI list as the command started with it (R356): its stage word, the DA of its
operand, and the operand's descriptor where it has one. -/
structure EpiEnt where
  w : Nat
  da : Nat
  desc : List Byte
  deriving DecidableEq, Repr
/-- The results of a unit (R352) that its command has yet to write: the unit, its values by row, those
of the GATE_MUL partner, its poisoned rows, and what it latched from the slots of its input and of its AMAX
stages (R43). -/
structure Partial where
  unit : Nat
  rows : List (List Nat)
  gate : List (List Nat)
  poison : List Nat
  latch : SlotLatch := {}
  amax : List SlotLatch := []
  deriving DecidableEq, Repr
/-- A tensor command being distributed (R354): its queue and command, its units and turnstile; what it
read when it started (its words, descriptors, EPI and pointer lists, Piccolo layer entry, the arrays'
width); the last turnstile value each core received and the cores that saw EXHAUSTED, the retry list, the units drained,
results that wait, and handle and VERSION of every input tile at its start (R359). -/
structure Job where
  q : Nat
  cmd : Nat
  units : Nat
  ts : Nat
  ws : List Word := []
  descs : List (List Byte) := []
  epi : List EpiEnt := []
  plist : List (List Byte) := []
  layer : List Byte := []
  width : Nat := 0
  last : Tab Nat := []
  spent : List Nat := []
  retry : List Nat := []
  drained : Nat := 0
  parts : List Partial := []
  ins : List (Nat × Nat) := []
  deriving DecidableEq, Repr
/-- A ready task of a core (R366, R367): job and unit, high priority, class, root time of arrival. -/
structure Task where
  job : Nat
  unit : Nat
  prio : Bool
  cls : Nat
  since : Nat
  deriving DecidableEq, Repr
/-- A running LAUNCH_KERNEL (R360, R361): its queue and command, grant, cores, contexts, code length,
base of its code on each core, root time of its start, TIMEOUT in µs. -/
structure Kernel where
  q : Nat
  cmd : Nat
  grant : List Byte
  cores : List Nat
  ctxs : List Nat
  len : Nat
  base : Nat
  start : Nat
  timeout : Nat
  deriving DecidableEq, Repr
/-- What Virhan keeps of a layer's last adaptation (R196): AUDITED, TRUE_ACT, FALSE_NEG, EVALS, PRED. -/
structure Adapted where
  audited : Nat := 0
  trueAct : Nat := 0
  falseNeg : Nat := 0
  evals : Nat := 0
  pred : Nat := 0
  deriving DecidableEq, Repr
/-- A tile that a PIN moves (R358): the queue and command, the handle, its new space, and where its tile was, at which
VERSION, as its copy was queued. -/
structure PinCopy where
  q : Nat
  cmd : Nat
  h : Nat
  da : Nat
  src : Nat
  ver : Nat
  deriving DecidableEq, Repr

/-- The host interface and Virhan's command service beside their registers. -/
structure Hif where
  /-- Tiles that a PIN is moving (R358). -/
  pins : List PinCopy := []
  qps : Tab Qp := []
  dmaTail : Tab Nat := []
  /-- Weighted round-robin of R453: the SQ whose turn it is, and what it may still fetch. -/
  turn : Nat := 63
  left : Nat := 0
  nextCmd : Nat := 0
  nextJob : Nat := 0
  jobs : Tab Job := []
  tasks : Tab (List Task) := []
  kernels : List Kernel := []
  /-- The last commands that wrote recomputable tensors, oldest first (R359). -/
  recomp : List Job := []
  /-- Where QUANTIZE put the column parameters of the tensor that starts at a handle (R344). -/
  wparams : Tab Nat := []
  /-- Placement (R364, R365): ACCESS of the tiles at the last interval, tiles whose migration has been
  abandoned since, tiles that the service placed in the Orangery. -/
  access : Tab Nat := []
  abandoned : List Nat := []
  org : List Nat := []
  adapted : Tab Adapted := []
  /-- Parity detections on a core in the present placement interval (R478). -/
  sram : Tab Nat := []
  /-- D3hot (R445); latched POS of the progress channels (R462). -/
  d3 : Bool := false
  posLatch : Tab Nat := []
  deriving DecidableEq, Repr

/-! ### Package, firmware, debug, recovery (spec/14, spec/15, spec/16) -/

/-- A Virhan image (R468): its words, security version and version
(MAJOR, MINOR and PATCH as in CHIP_FW_VER[63:16]), and whether it passed every check. -/
structure Image where
  ws : List Word
  svn : Nat
  version : Nat
  good : Bool
  deriving DecidableEq, Repr
/-- An online test of a core (R492): when it ends, once it has begun, and the windows that it closed, with their fields. -/
structure CoreTest where
  core : Nat
  stop : Option Nat
  wins : List (Nat × Nat)
  deriving DecidableEq, Repr

/-- The package, the flash, the debug unit and the recovery conditions beside their registers. -/
structure Chip where
  /-- The compute die is held in reset; the stacks hold their contents in self-refresh; the next boot
  is warm when they do. -/
  held : Bool := false
  refresh : Bool := false
  /-- The rung of recovery whose boot has yet to reach READY. -/
  rung : Nat := 0
  /-- Rails of R518 in tolerance (0, 1 AUX; 2-9 main), PWR_GOOD, the state of R519. -/
  rails : List Nat := [0, 1, 2, 3, 4, 5, 6, 7, 8, 9]
  pwrGood : Bool := true
  seqFault : Bool := false
  /-- Image slots A and B, the slot that boots by default, the slot running. -/
  slotA : Option Image := some ⟨[], 0, 0x100000000, true⟩
  slotB : Option Image := none
  active : Nat := 0
  running : Nat := 0
  pending : Bool := false
  trial : Bool := false
  update : Option Image := none
  /-- Fuses: the security counter. -/
  svn : Nat := 0
  /-- Flash event log, oldest first, and SEQ of the next record to look at (R486). -/
  log : List (List Byte) := []
  logSeq : Nat := 0
  /-- The sideband's 7-bit address in the configuration record of the flash (R471, R526). -/
  sbAddr : Nat := 0x62
  /-- Debug (R474): token words, open scopes and attempts are registers; the token of JTAG. -/
  jtagToken : List Word := []
  /-- Test access port (R529): instruction, boundary-scan word, data register, halted control cores. -/
  jtagIr : Nat := 1
  jtagDr : Word := 0
  extest : Bool := false
  ccHalted : List Nat := []
  /-- Cores whose substitution waits for the Colonnade transfers in flight; none starts meanwhile (R283). -/
  ringHold : List Nat := []
  instruments : Word := 0
  pciDown : Bool := false
  /-- The online test of a core in progress (R492). -/
  testing : Option CoreTest := none
  /-- The unit that fails its step of the next wake from I4, with what the cold boot then finds (R437). -/
  wakeFail : Option (WakeUnit × BootEnv) := none
  /-- When REFCLK was lost (R420): from then on the stacks are not refreshed. -/
  refLost : Option Nat := none
  /-- Recovery (R503, R504): outstanding rung-1 codes, higher rungs with their codes. -/
  rung1 : List Nat := []
  rungs : List (Nat × Nat) := []
  /-- Rung 3 ended in HIF_BOOT.STATE 2 so many times in a row. -/
  failed3 : Nat := 0
  /-- Online test (R492): cores queued, the core under test. -/
  tests : List Nat := []
  /-- Root time of the last expiry of a timer channel (R501). -/
  timers : Tab Nat := []
  deriving DecidableEq, Repr
/-! ### Links, windows, transport, manager roles (spec/12) -/

/-- A BWT message body (R382); `arp` answers an address resolution (R376). -/
inductive Msg where
  | data (token offset : Nat) (units : List UnitP)
  | credReq (w count reqid : Nat)
  | credGrant (w count reqid token : Nat)
  | refuse (id code : Nat) (isReq : Bool)
  | ack
  | credReturn (token count : Nat)
  | cstep (group serial step : Nat) (abort : Bool) (code : Nat)
  | heartbeat (sent echo arrived : Nat)
  | time (sent echo arrived : Nat)
  | gturnRequest (id amount reqid : Nat)
  | gturnReply (id reqid result : Nat)
  | barrier (group gen : Nat) (release : Bool)
  | peer (dev gang rank gsize port : Nat)
  | arp (ip : BitVec 128) (mac : Nat)
  deriving DecidableEq, Repr

/-- What a scale-out port's datagram carries around its message (R376): destination and source port, DSCP, ECT(0)
and the UDP checksum always, and whether it is IPv6. -/
structure Udp where
  dstPort : Nat
  srcPort : Nat
  dscp : Nat
  v6 : Bool
  deriving DecidableEq, Repr

/-- A message on its way out (R381): its port (0-13 gang, 16-19 scale-out), the device that relays
it, its destination and header, and its body. -/
structure OutMsg where
  port : Nat
  relay : Option Nat
  dst : Nat
  seq : Nat
  ack : Nat
  ece : Bool
  notify : Bool
  msg : Msg
  /-- The sender of a message that this device relays (R374). -/
  src : Option Nat
  /-- The UDP header of a scale-out port's datagram (R376). -/
  udp : Option Udp
  deriving DecidableEq, Repr

/-- A transfer of a stream queue, by core, queue and number. -/
structure XferId where
  n : Nat
  q : Nat
  id : Nat
  deriving DecidableEq, Repr

/-- A sent message that its peer has not acknowledged (R374, R378): root time of its first send,
resends so far, and the stream transfer that it belongs to. -/
structure TxMsg where
  seq : Nat
  msg : Msg
  notify : Bool
  first : Nat
  tries : Nat
  ref : Option XferId
  deriving DecidableEq, Repr

/-- A message that waits for those before it (R374), with whether it came over a scale-out port. -/
structure RxMsg where
  seq : Nat
  notify : Bool
  xp : Bool
  msg : Msg
  deriving DecidableEq, Repr

/-- A NOTIFY action that waits for DATA of lower SEQ (R384). -/
structure NotifyAct where
  seq : Nat
  win : Nat
  deriving DecidableEq, Repr

/-- What the transport keeps for another device. -/
structure Peer where
  inGang : Bool := false
  rank : Nat := 0
  txSeq : Nat := 0
  unacked : List TxMsg := []
  rxNext : Nat := 0
  held : List RxMsg := []
  unvis : List Nat := []
  notifs : List NotifyAct := []
  ackSince : Option Nat := none
  eceDue : Bool := false
  rate : Rat := 1
  lastCut : Option Nat := none
  lastEce : Nat := 0
  rot : Nat := 0
  misses : Nat := 0
  role : Nat := 0
  alive : Bool := true
  deriving DecidableEq, Repr

/-- A link port beside its registers: root times of the last heartbeat in and out, of training and
of its last change to DOWN, the peer's last send time with the local time of its arrival, the last
DETECT_LINK, and the replays of the present flit. -/
structure LinkPort where
  hbIn : Nat := 0
  hbOut : Nat := 0
  downAt : Nat := 0
  peerSent : Nat := 0
  peerAt : Nat := 0
  detAt : Option Nat := none
  replays : Nat := 0
  deriving DecidableEq, Repr

/-- An outstanding credit of a receive window (R388). -/
structure Credit where
  index : Nat
  dev : Nat
  granted : Nat
  used : Bool
  deriving DecidableEq, Repr

/-- A credit request that waits at a window (R389). -/
structure CredWait where
  dev : Nat
  count : Nat
  reqid : Nat
  deriving DecidableEq, Repr

/-- A command of a Glasshouse queue, by stack, queue and sequence number. -/
structure GhRef where
  k : Nat
  q : Nat
  seq : Nat
  deriving DecidableEq, Repr

/-- An accepted DATA that is not yet visible: of an accumulate window, until its commands have completed (R394);
of a window in CM, until its background writes have been performed (R262). -/
structure Landing where
  dev : Nat
  seq : Nat
  index : Nat
  units : Nat
  notify : Bool
  cmds : List GhRef
  core : Option Nat := none
  deriving DecidableEq, Repr

/-- A receive window beside its registers. -/
structure Win where
  credits : List Credit := []
  reqs : List CredWait := []
  next : Nat := 0
  landings : List Landing := []
  deriving DecidableEq, Repr

/-- A credit in the sender's cache (R391), with the root time of its grant's arrival. -/
structure TxCred where
  dev : Nat
  win : Nat
  token : Nat
  arr : Nat
  deriving DecidableEq, Repr

/-- A credit request that awaits its answer (R391). -/
structure CredAsk where
  dev : Nat
  win : Nat
  reqid : Nat
  deriving DecidableEq, Repr

/-- A remote stream transfer (R273, R383): its destination, the payloads (window offset, units) that
wait for a credit, the DATA not yet acknowledged, and since when it waits for a credit. -/
structure RemPart where
  offset : Nat
  units : List UnitP
  notify : Bool
  deriving DecidableEq, Repr
structure RemTx where
  ref : XferId
  dev : Nat
  parts : List RemPart
  left : Nat
  poisoned : Nat
  since : Nat
  deriving DecidableEq, Repr

/-- A global turnstile at the root (R413). -/
structure GlobalTurn where
  value : Nat := 0
  limit : Nat := 0
  deriving DecidableEq, Repr

/-- An arrival or release of a tree barrier (R412). -/
structure BarMsg where
  group : Nat
  gen : Nat
  dev : Nat
  release : Bool
  deriving DecidableEq, Repr

/-- An abort of a collective (R401): its group, the device it came from, its code. -/
structure CollAbort where
  group : Option Nat
  dev : Nat
  code : Nat
  deriving DecidableEq, Repr

/-- A command for a Glasshouse queue that Virhan holds back: requester, stack, queue, words. -/
structure HeldPush where
  r : Requester
  k : Nat
  q : Nat
  ws : List Word
  deriving DecidableEq, Repr
/-- A micro-batch of the present step (R405, R406, R410): its queue pair, whether a gather met SHARD_STALE, its gradient
ACCUMs that wait, whether its last one has come, whether all have been issued. -/
structure Micro where
  q : Nat
  stale : Bool := false
  held : List HeldPush := []
  closed : Bool := false
  issued : Bool := false
  deriving DecidableEq, Repr
/-- A device's part of a pair of consecutive matrices (R403, R404): first column, columns, extents of the tile
columns. -/
structure MatrixPart where
  first : Nat
  cols : Nat
  tiles : List Nat
  deriving DecidableEq, Repr
/-- A division of work over devices (R404): the parts of each pair by rank, the heads by rank (first, number), the
experts by device, the first layers of the second and later stages. -/
structure Division where
  pairs : List (List MatrixPart) := []
  heads : List (Nat × Nat) := []
  experts : List (List Nat) := []
  stages : List Nat := []
  deriving DecidableEq, Repr
/-- The placement of the job (R404, R411): its plan, the steps measured with the summed costs of experts and layers, the
division in force, and the one that waits for a step boundary. -/
structure Placement where
  plan : JobPlan := ⟨[], 0, [], 0, [], [], 0⟩
  steps : Nat := 0
  expLoad : List Nat := []
  layLoad : List Nat := []
  now : Division := {}
  next : Option Division := none
  deriving DecidableEq, Repr

/-- The transport, the receive windows and the manager roles (spec/12). -/
structure Net where
  /-- Messages sent to the ports, oldest first; messages to the device itself that wait. -/
  out : List OutMsg := []
  self : List RxMsg := []
  peers : Tab Peer := []
  ports : Tab LinkPort := []
  wins : Tab Win := []
  creds : List TxCred := []
  asks : List CredAsk := []
  reqid : Nat := 0
  remTx : List RemTx := []
  /-- The root's identity (R411), the global turnstiles it holds, and, after this device has become
  root, the first of the free values that stand for what the last checkpoint holds of them (R414). -/
  root : Option Nat := none
  gturns : Tab GlobalTurn := []
  gturnBase : Option Nat := none
  /-- Collective groups (member DEVIDs in rank order), barrier messages and aborts. -/
  groups : Tab (List Nat) := []
  barriers : List BarMsg := []
  barGen : Tab Nat := []
  aborts : List CollAbort := []
  serial : Nat := 0
  /-- Time synchronisation (R415): offset estimates, ticks yet to slew, TIME_CLK of the last slew. -/
  samples : List Int := []
  slew : Int := 0
  lastSlew : Nat := 0
  lastTime : Nat := 0
  lastBeat : Nat := 0
  /-- The job: its division over devices, its micro-batches in their order. -/
  place : Placement := {}
  micro : List Micro := []
  deriving DecidableEq, Repr

/-! ### The state -/

/-- What a read, or an access that fails, answers: a value, least significant byte first, and its kind. -/
structure Reply where
  v : Nat
  /-- 0 a completion; 1 Unsupported Request or a refusal; 2 Completer Abort; 3 a poisoned completion. -/
  kind : Nat
  deriving DecidableEq, Repr

/-- SRAM that fails its parity (R477): units of 64 bytes of CM, engine buffers and the Orangery by address / 64,
bundles of instruction buffers by core and number, registers of the Orangery control block by address, commands
in a Glasshouse's queues by stack and sequence number; and the contexts whose code was reloaded once. -/
structure Parity where
  units : List Nat := []
  bundles : List (Nat × Nat) := []
  ctl : List Nat := []
  queues : List (Nat × Nat) := []
  reloads : List (Nat × Nat) := []
  deriving DecidableEq, Repr

/-- The state of the device. -/
structure State where
  /-- Root time: 125 ps ticks since power-on; no clock edge of the part falls between two ticks. -/
  now : Nat := 0
  /-- The 64-bit TIME_CLK counter less the TIME_CLK ticks elapsed since power-on (R415, R416). -/
  time : Word := 0
  /-- Every CSR that differs from its reset value, by device address. -/
  regs : Tab Word := []
  /-- Device memory by device address (CM, engine buffers, Orangery, stacks by local view). -/
  mem : List Host.Cell := []
  /-- Poison bits of the SRAM units, by device address / 64 (R252, R277). -/
  sramPoison : Tab Bool := []
  /-- SRAM that fails its parity (R477); no command makes any fail. -/
  parity : Parity := {}
  /-- Check codes of stack sectors as stored XOR the true code, by device address / 64 (R200). -/
  chk : Tab W32 := []
  /-- Host memory by bus address. -/
  host : List Host.Cell := []
  /-- How many free values have been drawn (the model's own field). -/
  draws : Nat := 0
  /-- The answer of the last command that made an access. -/
  reply : Option Reply := none
  /-- MSI-X messages sent to the host, oldest first (R458). -/
  msixSent : List Nat := []
  /-- Held low halves and latched high halves (R14), by requester and register address. -/
  heldLow : List (Nat × Nat × W32) := []
  latchHigh : List (Nat × Nat × W32) := []
  /-- Commits in progress (R42): slot, root time at which the commit ends, and held writes. -/
  commits : List CommitRec := []
  /-- Slot writes of the present FABRIC_CLK cycle, which a commit of the same cycle comes before (R44). -/
  slotNow : List SlotNow := []
  /-- Statistics of operations that have yet to end (R41). -/
  reports : List SlotReport := []
  cores : Tab Core := []
  /-- Atomic operations at the Orangery control block, and the FABRIC_CLK cycle in which its rotation
  started at requester 0 (R256). -/
  tsq : List TsOp := []
  rotBase : Nat := 0
  /-- The next free FABRIC_CLK cycle of the turnstiles of each value of t mod 16 (R256). -/
  tsFree : Tab Nat := []
  ports : Tab Port := []
  ghs : Tab Gh := []
  /-- The 4,096 command events (R349). -/
  cevents : Tab Word := []
  net : Net := {}
  power : Power := {}
  hif : Hif := {}
  chip : Chip := {}
  /-- The commands that are waiting, first in, first out. -/
  pending : List Instr := []
  deriving DecidableEq, Repr

/-- The device after reset: every register at its reset value, memory with nothing listed. -/
def State.reset : State := {}

end Sys2Proof.Machine
end

