-- ==== Sys2Proof/Machine/Tab.lean ====
section
/-! DEFINITION. Reading and writing a sparse table. -/

namespace Sys2Proof.Machine

/-- The entry of a table at an index, if it lists one. -/
def tabFind {α : Type} : Tab α → Nat → Option α
  | [], _ => none
  | (k, v) :: t, a => if k = a then some v else tabFind t a

/-- The entry at an index, or the value `d` that an unlisted index holds. -/
def tabGet {α : Type} (d : α) (t : Tab α) (a : Nat) : α := (tabFind t a).getD d

/-- The table with the entry at `a` set to `v`, its indices still rising. -/
def tabSet {α : Type} : Tab α → Nat → α → Tab α
  | [], a, v => [(a, v)]
  | (k, x) :: t, a, v =>
    if a < k then (a, v) :: (k, x) :: t
    else if k = a then (a, v) :: t
    else (k, x) :: tabSet t a v

/-- The table without any entry at `a`. -/
def tabDel {α : Type} (t : Tab α) (a : Nat) : Tab α := t.filter fun p => p.1 ≠ a

/-- The entry at `a` changed by `f`. -/
def tabMod {α : Type} (d : α) (t : Tab α) (a : Nat) (f : α → α) : Tab α :=
  tabSet t a (f (tabGet d t a))

/-- Every index of the table lies above `b`, and the indices rise strictly. -/
def tabRising {α : Type} : Option Nat → Tab α → Bool
  | _, [] => true
  | b, (k, _) :: t => (b.all fun x => decide (x < k)) && tabRising (some k) t

end Sys2Proof.Machine
end

