-- ==== Sys2Proof/Machine/Ops.lean ====
section
/-! DEFINITION. The named operations over State: register fields, memory bytes and 64-byte units,
clocks, free values, core events (R314), error records (R483-R487), and the form every meaning
shares. -/

namespace Sys2Proof.Machine

/-! ### Bytes and words -/

/-- Little-endian value of a list of bytes (R7). -/
def leNat : List Byte → Nat
  | [] => 0
  | b :: bs => b.toNat + 256 * leNat bs
/-- The n low bytes of a value, little-endian (R7). -/
def natLe : Nat → Nat → List Byte
  | 0, _ => []
  | n + 1, v => BitVec.ofNat 8 (v % 256) :: natLe n (v / 256)
/-- Bits [hi:lo] of a value. -/
def bitsOf (v hi lo : Nat) : Nat := v / 2 ^ lo % 2 ^ (hi - lo + 1)
/-- A value with bits [hi:lo] replaced. -/
def withBits (v hi lo x : Nat) : Nat :=
  let w := 2 ^ (hi - lo + 1)
  v / 2 ^ (hi + 1) * 2 ^ (hi + 1) + x % w * 2 ^ lo + v % 2 ^ lo
/-- ceil(a / b). -/
def ceilDiv (a b : Nat) : Nat := (a + b - 1) / b
/-- 0 or 1. -/
def b2n (b : Bool) : Nat := if b then 1 else 0
/-- Bit i of a value. -/
def bitAt (v i : Nat) : Bool := v / 2 ^ i % 2 == 1
/-- Bytes a to a + n − 1 of a byte list, 0 where it has none. -/
def sub (bs : List Byte) (a n : Nat) : List Byte :=
  (bs.drop a).take n ++ List.replicate (n - (bs.length - a)) 0
/-- The little-endian field of n bytes at offset a of a byte list. -/
def fieldAt (bs : List Byte) (a n : Nat) : Nat := leNat ((bs.drop a).take n)
/-- A list cut into pieces of n, at most k of them. -/
def chunks {α : Type} (n : Nat) : Nat → List α → List (List α)
  | 0, _ => []
  | _, [] => []
  | k + 1, l => l.take n :: chunks n k (l.drop n)

/-! ### Registers -/

/-- The value of a field of a register word. -/
def Fld.of (f : Fld) (w : Nat) : Nat := bitsOf w f.hi f.lo
/-- A register word with a field replaced. -/
def Fld.put (f : Fld) (w x : Nat) : Nat := withBits w f.hi f.lo x
/-- The value of all ones of a field. -/
def Fld.top (f : Fld) : Nat := 2 ^ (f.hi - f.lo + 1) - 1

/-- The stored word of a register: what was last stored, or its reset value. -/
def State.word (s : State) (r : Reg) : Nat :=
  match tabFind s.regs (regAddr r) with
  | some w => w.toNat
  | none => regReset r
/-- A field of a register. -/
def State.fld (s : State) (r : Reg) (f : Fld) : Nat := f.of (s.word r)
/-- A one-bit field of a register. -/
def State.bit (s : State) (r : Reg) (f : Fld) : Bool := s.fld r f != 0
/-- Store a register word. -/
def State.setWord (s : State) (r : Reg) (v : Nat) : State :=
  { s with regs := tabSet s.regs (regAddr r) (BitVec.ofNat 64 v) }
/-- Store a field of a register. -/
def State.setFld (s : State) (r : Reg) (f : Fld) (v : Nat) : State :=
  s.setWord r (f.put (s.word r) v)
/-- Add to a counter field, which saturates at all ones (R96, R248, R336, R487). -/
def State.bump (s : State) (r : Reg) (f : Fld) (k : Nat) : State :=
  s.setFld r f (min (s.fld r f + k) f.top)

/-- A write by the access codes of the register's fields (R10, R12): RW fields store, W1C and W1S
bits clear and set, RO, RC, WO and reserved bits ignore it. -/
def writeWord (fs : List FldSpec) (old v : Nat) : Nat :=
  fs.foldl (fun w f =>
    match f.acc with
    | .rw => f.fld.put w (f.fld.of v)
    | .w1c => f.fld.put w (f.fld.of w &&& (f.fld.top - f.fld.of v))
    | .w1s => f.fld.put w (f.fld.of w ||| f.fld.of v)
    | _ => w) old
/-- What a read of a stored word returns (R10, R12): WO and reserved bits read 0. -/
def readWord (fs : List FldSpec) (w : Nat) : Nat :=
  fs.foldl (fun r f => if f.acc = .wo then r else f.fld.put r (f.fld.of w)) 0
/-- The stored word after a read (R10): RC fields are cleared. -/
def afterRead (fs : List FldSpec) (w : Nat) : Nat :=
  fs.foldl (fun r f => if f.acc = .rc then f.fld.put r 0 else r) w
/-- Half `hi` of a word taken from another: what an access of 32 bits acts on (R13). -/
def withHalf (hi : Bool) (w x : Nat) : Nat :=
  if hi then withBits w 63 32 (x / 2 ^ 32) else withBits w 31 0 x
/-- A field that a write can act on. -/
def Acc.writable : Acc → Bool
  | .ro | .rc => false
  | _ => true
/-- A half of a register holds a field that a write can act on. -/
def halfWritable (fs : List FldSpec) (hi : Bool) : Bool :=
  fs.any fun f => f.acc.writable && (if hi then decide (32 ≤ f.fld.hi) else decide (f.fld.lo < 32))
/-- A register write that has no behaviour beyond its fields' access codes. -/
def State.plainWrite (s : State) (r : Reg) (v : Nat) : State :=
  s.setWord r (writeWord (regFields r) (s.word r) v)

/-! ### Cores and engines -/

/-- The record of a logical core. -/
def State.core (s : State) (n : Nat) : Core := tabGet {} s.cores n
/-- Replace the record of a core. -/
def State.setCore (s : State) (n : Nat) (c : Core) : State := { s with cores := tabSet s.cores n c }
/-- Change the record of a core. -/
def State.modCore (s : State) (n : Nat) (f : Core → Core) : State := s.setCore n (f (s.core n))
/-- The record of an MXE of a core. -/
def State.mxe (s : State) (n m : Nat) : Mxe := tabGet {} (s.core n).mxes m
/-- Replace the record of an MXE. -/
def State.setMxe (s : State) (n m : Nat) (x : Mxe) : State :=
  s.modCore n fun c => { c with mxes := tabSet c.mxes m x }
/-- Change the record of an MXE. -/
def State.modMxe (s : State) (n m : Nat) (f : Mxe → Mxe) : State := s.setMxe n m (f (s.mxe n m))
/-- An accumulator tile of an MXE. -/
def Mxe.tile (x : Mxe) (t : Nat) : AccTile := tabGet {} x.tiles t
/-- Replace an accumulator tile. -/
def Mxe.setTile (x : Mxe) (t : Nat) (v : AccTile) : Mxe := { x with tiles := tabSet x.tiles t v }

/-! ### Clocks (R8, R9, R418-R423) -/

/-- Root ticks per FABRIC_CLK and GH_CLK cycle (1 ns). -/
def fabTicks : Nat := 8
/-- FABRIC_CLK cycles since power-on. -/
def State.fab (s : State) : Nat := s.now / fabTicks
/-- Root ticks per TIME_CLK tick (100 MHz). -/
def timeTicks : Nat := 80
/-- The 64-bit TIME_CLK counter (R416). -/
def State.timeNow (s : State) : Nat := (s.time.toNat + s.now / timeTicks) % 2 ^ 64
/-- Microseconds in root ticks. -/
def usTicks : Nat := 8000
/-- Root ticks per CORE_CLK cycle in each P-state (R421): the CORE_CLK dividers of the 8 GHz root. -/
def psDiv (p : Nat) : Nat :=
  match p with
  | 0 => 4
  | 1 => 5
  | 2 => 6
  | 3 => 8
  | _ => 16
/-- The divider of a core, from its effective P-state. -/
def State.div (s : State) (n : Nat) : Nat := psDiv (s.fld (.clkCorePs n) F.clkCorePsEff)
/-- CORE_CLK cycles of a core that no whole-core freeze held. -/
def State.cyc (s : State) (n : Nat) : Nat :=
  (s.core n).cycBase + (s.now - (s.core n).tBase) / s.div n
/-- Time moves on to a root tick; never back. -/
def State.advance (s : State) (t : Nat) : State := { s with now := max s.now t }
/-- Root time of a core cycle. -/
def State.cycTime (s : State) (n cyc : Nat) : Nat :=
  (s.core n).tBase + (cyc - (s.core n).cycBase) * s.div n
/-- A whole-core stall of k cycles: time passes, the core's cycle count does not (R339). -/
def State.freeze (s : State) (n k : Nat) : State :=
  let d := k * s.div n
  { s with now := s.now + d }.modCore n fun c => { c with tBase := c.tBase + d }

/-! ### Free values -/

/-- A fresh free value below 2^w: what the spec leaves undefined (assumption 2, DESIGN CHOICE). -/
def State.free (s : State) (w : Nat) : Nat × State :=
  (Config.freeNat s.draws % 2 ^ w, { s with draws := s.draws + 1 })
/-- A poisoned unit whose bytes the spec leaves open. -/
def State.lostUnit (s : State) : UnitP × State :=
  let (v, s) := s.free 512
  (⟨natLe 64 v, true⟩, s)
/-- k poisoned units whose bytes are open. -/
def State.lostUnits (s : State) : Nat → List UnitP × State
  | 0 => ([], s)
  | k + 1 =>
    let (u, s) := s.lostUnit
    let (us, s) := s.lostUnits k
    (u :: us, s)

/-! ### Memory -/

/-- A byte of memory at a canonical device address; an unlisted byte reads 0 (assumption 5, DESIGN CHOICE). -/
def memByte (m : List Host.Cell) (a : Nat) : Byte := tabGet 0 m a
/-- Store a byte in canonical form: a zero byte is not listed. -/
def memSet (m : List Host.Cell) (a : Nat) (b : Byte) : List Host.Cell :=
  if b = 0 then tabDel m a else tabSet m a b
/-- The canonical form: addresses strictly rising, no zero byte listed. -/
def memWf (m : List Host.Cell) : Bool := tabRising none m && m.all fun c => c.2 != 0
/-- A list in canonical form: itself when it has that form, else its bytes stored one by one. -/
def memNorm (m : List Host.Cell) : List Host.Cell :=
  if memWf m then m else m.foldr (fun c acc => memSet acc c.1 c.2) []
/-- n bytes from an address up. -/
def memRead (m : List Host.Cell) (a : Nat) : Nat → List Byte
  | 0 => []
  | n + 1 => memByte m a :: memRead m (a + 1) n
/-- Store bytes from an address up. -/
def memWrite (m : List Host.Cell) (a : Nat) : List Byte → List Host.Cell
  | [] => m
  | b :: bs => memWrite (memSet m a b) (a + 1) bs

/-- Start of the Orangery (R249, R536). -/
def orgBase : Nat := 0x020000000000
/-- Start of the address slot of a logical core: CM, then the debug view of its engines (R235). -/
def coreBase (n : Nat) : Nat := 0x020100000000 + n * 0x1000000
/-- Bytes of CM (R237). -/
def cmSize : Nat := 0x600000
/-- AB of an MXE in the debug view (R235). -/
def abBase (n m : Nat) : Nat := coreBase n + 0x800000 + m * 0x200000
/-- A WS set of an MXE in the debug view (R235). -/
def wsBase (n m set : Nat) : Nat := abBase n m + 0x40000 + set * 0x4000
/-- Accumulator tile t of an MXE in the debug view (R97, R235). -/
def accBase (n m t : Nat) : Nat := abBase n m + 0x80000 + t * 0x10000
/-- Start of the local view of a stack (R202). -/
def stackBase (s : Nat) : Nat := 0x010000000000 + s * 0x2000000000
/-- Stack of an interleaved-view address (R202). -/
def ivStack (da : Nat) : Nat :=
  (bitsOf da 10 8 ^^^ bitsOf da 19 17) ^^^ bitsOf da 28 26
/-- Stack-local offset of an interleaved-view address (R202). -/
def ivOffset (da : Nat) : Nat := bitsOf da 39 11 * 256 + da % 256
/-- The address under which a byte is kept: the local view for the interleaved view (R202), the
address itself elsewhere. -/
def canon (da : Nat) : Nat :=
  if da < 0x010000000000 then stackBase (ivStack da) + ivOffset da else da

/-- Start of the directory region of a stack, as a stack-local offset (R146, R163). -/
def dirSize : Nat := 0x4000000
/-- What kind of place a device address lies in (R536). -/
inductive Place where
  | stack (s o : Nat)
  | orangery (o : Nat)
  | cm (n o : Nat)
  | engine (n m o : Nat)
  | hole
  | csr
  | remote (dev off : Nat)
  | unmapped
  deriving DecidableEq, Repr

/-- The place of a device address (R235, R236, R536). -/
def placeOf (da : Nat) : Place :=
  if da < 0x010000000000 then .stack (ivStack da) (ivOffset da)
  else if da < 0x020000000000 then
    .stack ((da - 0x010000000000) / 0x2000000000) ((da - 0x010000000000) % 0x2000000000)
  else if da < 0x020010000000 then .orangery (da - orgBase)
  else if da < 0x020100000000 then .unmapped
  else if da < 0x020120000000 then
    let o := (da - 0x020100000000) % 0x1000000
    let n := (da - 0x020100000000) / 0x1000000
    if o < cmSize then .cm n o
    else if o < 0x800000 then .hole
    else
      let e := (o - 0x800000) % 0x200000
      if e < 0x50000 ∨ (0x80000 ≤ e ∧ e < 0x100000) then .engine n ((o - 0x800000) / 0x200000) e
      else .hole
  else if da < 0x020200000000 then .unmapped
  else if da < 0x020280000000 then .csr
  else if da < 0x800000000000 then .unmapped
  else if da < 0x1000000000000 then .remote (bitsOf da 46 35) (da % 2 ^ 35)
  else .unmapped

/-- Bytes of device memory at a device address. -/
def State.rd (s : State) (da n : Nat) : List Byte := memRead s.mem (canon da) n
/-- Little-endian value of n bytes of device memory. -/
def State.rdN (s : State) (da n : Nat) : Nat := leNat (s.rd da n)
/-- n bytes from a device address up, 64-byte unit by unit, so that a range of the interleaved view
follows its granules. -/
def State.rdRange (s : State) (da n : Nat) : List Byte :=
  ((List.range (ceilDiv (da % 64 + n) 64)).flatMap fun i => s.rd (da / 64 * 64 + 64 * i) 64).drop (da % 64) |>.take n
/-- Store bytes at a device address (within one 64-byte unit, or in one place). -/
def State.wr (s : State) (da : Nat) (bs : List Byte) : State :=
  { s with mem := memWrite s.mem (canon da) bs }
/-- Store a little-endian value of n bytes. -/
def State.wrN (s : State) (da n v : Nat) : State := s.wr da (natLe n v)

/-- The check code of a poisoned sector, XOR the true code (R200). -/
def poisonSig : W32 := 0xFFFFFFFF
/-- True for an address of a stack. -/
def isStack (da : Nat) : Bool := decide (da < 0x020000000000)
/-- Poison of the 64-byte unit of an address: its SRAM poison bit (R252), or a parity failure (R477), or the poison
signature of its stack sector (R200, R201). -/
def State.poisoned (s : State) (da : Nat) : Bool :=
  let u := canon da / 64
  if isStack da then tabGet 0 s.chk u == poisonSig else tabGet false s.sramPoison u || s.parity.units.contains u
/-- Set or clear the poison of the unit of an address; a stack sector then holds its true code or
the signature (R201). -/
def State.setPoison (s : State) (da : Nat) (p : Bool) : State :=
  let u := canon da / 64
  if isStack da then
    { s with chk := if p then tabSet s.chk u poisonSig else tabDel s.chk u }
  else
    { s with
      sramPoison := if p then tabSet s.sramPoison u true else tabDel s.sramPoison u
      parity := { s.parity with units := s.parity.units.filter (· != u) } }
/-- A unit written whole, with its poison bit (R201, R252). -/
def State.wrUnit (s : State) (da : Nat) (bs : List Byte) (p : Bool) : State :=
  (s.wr da bs).setPoison da p
/-- Whole units written from an address up. -/
def State.wrUnits (s : State) (da : Nat) : List (List Byte × Bool) → State
  | [] => s
  | (bs, p) :: us => (s.wrUnit da bs p).wrUnits (da + 64) us
/-- Units of a byte string, each with a poison bit. -/
def unitsOf (bs : List Byte) (p : Bool) : List (List Byte × Bool) :=
  (chunks 64 (ceilDiv bs.length 64) bs).map fun c => (sub c 0 64, p)
/-- True when any 64-byte unit of a range is poisoned. -/
def State.anyPoison (s : State) (da : Nat) (len : Nat) : Bool :=
  (List.range (if len = 0 then 0 else (da + len - 1) / 64 - da / 64 + 1)).any fun i =>
    s.poisoned ((da / 64 + i) * 64)
/-- Bytes written within units: poison sticks to a unit only partly written over (R201, R252). -/
def State.wrPart (s : State) (da : Nat) (bs : List Byte) (p : Bool) : State :=
  let s' := s.wr da bs
  if p then s'.setPoison da true
  else if bs.length = 64 ∧ da % 64 = 0 then s'.setPoison da false
  else s'

/-- Bytes of a CM write, 64-byte unit by unit, with a poison bit for each unit they touch. -/
def wrPieces (da : Nat) : List Byte → List Bool → State → State
  | bs, p :: ps, s =>
    let k := 64 - da % 64
    let s := s.wrPart da (bs.take k) p
    match ps with
    | [] => s
    | _ => wrPieces (da + k) (bs.drop k) ps s
  | _, [], s => s

/-- Whole units written with their poison bits, in order. -/
def State.wrOps (s : State) (ws : List WrOp) : State :=
  ws.foldl (fun s w => s.wrUnits w.a (unitsOf w.bs w.poison)) s

/-! ### Error records (R483-R489) -/

/-- SOURCE of R484. -/
def srcOf (kind inst unit : Nat) : Nat := kind * 4096 + inst * 16 + unit

/-- An error event: source, code, raised by Virhan, address, context, peer, detail bytes. -/
structure Err where
  src : Nat
  code : Nat
  fw : Bool := false
  addr : Nat := 0
  context : Nat := 0
  peer : Nat := 0
  detail : List (Nat × Nat × Nat) := []
  deriving DecidableEq, Repr

/-- Fault and information codes of R488 and R489. -/
def ecDescRange : Nat := 0x01
def ecDescFormat : Nat := 0x02
def ecCmConflict : Nat := 0x03
def ecSlotOrder : Nat := 0x04
def ecAccSatFinal : Nat := 0x05
def ecAbftMismatch : Nat := 0x06
def ecDetectSram : Nat := 0x07
def ecDetectStack : Nat := 0x08
def ecDetectLink : Nat := 0x09
def ecPoisonConsumed : Nat := 0x0A
def ecWindowClosed : Nat := 0x0B
def ecNoCredit : Nat := 0x0C
def ecShardStale : Nat := 0x0D
def ecCollTimeout : Nat := 0x0E
def ecLinkDown : Nat := 0x0F
def ecWatchdog : Nat := 0x10
def ecConfigConflict : Nat := 0x11
def ecTileDir : Nat := 0x12
def ecThermalTrip : Nat := 0x13
def ecFwAuth : Nat := 0x14
def ecTaskHang : Nat := 0x15
def ecConstChannel : Nat := 0x40
def ecAuditAdjust : Nat := 0x41
def ecSatRepeat : Nat := 0x42
def ecSpareSubst : Nat := 0x43
def ecColumnBypass : Nat := 0x44
def ecThrottle : Nat := 0x45
def ecRawStack : Nat := 0x46
def ecLinkDegraded : Nat := 0x47
def ecRecomputed : Nat := 0x48

/-- True for an information code (R489). -/
def isInfo (code : Nat) : Bool := decide (0x40 ≤ code)

/-- The detail bytes 32-63: each entry is (offset, bytes, value). -/
def detailBytes (d : List (Nat × Nat × Nat)) : List Byte :=
  d.foldl (fun bs e =>
    let o := e.1 - 32
    bs.take o ++ natLe e.2.1 e.2.2 ++ bs.drop (o + e.2.1)) (List.replicate 32 0)

/-- The 64 bytes of a record (R483). -/
def recordBytes (time seq : Nat) (e : Err) : List Byte :=
  natLe 8 time ++ natLe 2 e.src ++ natLe 1 e.code ++
  natLe 1 (b2n (isInfo e.code) + 2 * b2n e.fw) ++ natLe 4 seq ++ natLe 8 e.addr ++
  natLe 4 e.context ++ natLe 4 e.peer ++ detailBytes e.detail

/-- Raise an MSI-X vector (R458): sent when its table entry is unmasked and the function masters the bus
(R445), pending otherwise. -/
def State.msix (s : State) (v : Nat) : State :=
  if bitAt (s.word (.msixTable (2 * v + 1))) 32 || s.hif.d3
  then s.setWord (.msixPba (v / 64)) (s.word (.msixPba (v / 64)) ||| 2 ^ (v % 64))
  else { s with msixSent := s.msixSent ++ [v] }

/-- Write the eight words of a record into ring entry i. -/
def State.ringWrite (s : State) (i : Nat) (bs : List Byte) : State :=
  (List.range 8).foldl (fun s w => s.setWord (.errRing i w) (fieldAt bs (8 * w) 8)) s

/-- Raise an event (R485): the record goes whole into the ring, HEAD and SEQ advance, and vector 192
or 193 is raised; with the ring full it is dropped and counted, and SEQ still advances; with INFO_EN
0 an information event leaves nothing. -/
def State.raise (s : State) (e : Err) : State :=
  if isInfo e.code && !s.bit .errCtl F.errCtlInfoEn then s
  else
    let head := s.fld .errHead F.errHeadHead
    let seq := s.fld .errHead F.errHeadSeq
    let s := s.setFld .errHead F.errHeadSeq (seq + 1)
    if (head + 1) % 1024 = s.fld .errTail F.errTailTail then
      (s.bump .errStat F.errStatDropped 1).setFld .errStat F.errStatLastDrop e.code
    else
      let s := s.ringWrite head (recordBytes s.timeNow seq e)
      let s := s.setFld .errHead F.errHeadHead ((head + 1) % 1024)
      s.msix (if isInfo e.code then 193 else 192)

/-- CONFIG_CONFLICT for a refused register write: ADDR holds the register, DETAIL the value (R488). -/
def State.conflict (s : State) (src a : Nat) (v : Nat) : State :=
  s.raise { src := src, code := ecConfigConflict, addr := a, detail := [(32, 8, v)] }
/-- A fault of a register write with another code. -/
def State.refuseWrite (s : State) (src a : Nat) (v code : Nat) : State :=
  s.raise { src := src, code := code, addr := a, detail := [(32, 8, v)] }

/-! ### Core events (R314) -/

/-- STATUS of a signal, by the first rule that applies (R314). -/
def statusOf (faulted aborted poison info : Bool) : Nat :=
  if faulted then 3 else if aborted then 4 else if poison then 2 else if info then 1 else 0

/-- A signal of R314: its status word's parts. -/
structure Sig where
  detail : Nat := 0
  code : Nat := 0
  poison : Bool := false
  abft : Bool := false
  sat : Bool := false
  nanSeen : Bool := false
  aborted : Bool := false
  /-- A STATUS that a rule gives outright (R210, R215). -/
  given : Option Nat := none
  deriving DecidableEq, Repr

/-- The result of a decode check: 0 for none, else the fault code, and in the bits above it the
lowest bit of the failing field, which the error record names (R16, R488). -/
def atBit (code low : Nat) : Nat := code + 256 * low
/-- The first check that fails. -/
def firstFault (l : List Nat) : Nat := (l.find? (· != 0)).getD 0
/-- A check's result when its condition holds. -/
def failIf (c : Bool) (code low : Nat) : Nat := if c then atBit code low else 0

/-- True for a fault code. -/
def isFault (code : Nat) : Bool := decide (0 < code ∧ code < 0x40)
/-- STATUS of a signal. -/
def Sig.status (g : Sig) : Nat :=
  g.given.getD <| statusOf (isFault g.code) g.aborted g.poison (g.sat || g.abft || g.nanSeen || isInfo g.code)

/-- A status word with a signal merged in (R314). -/
def mergeStatus (w : Nat) (g : Sig) : Nat :=
  let first := bitsOf w 31 24 == 0 && g.code != 0
  let detail := if first then g.detail else bitsOf w 63 32
  let code := if first then g.code else bitsOf w 31 24
  detail % 2 ^ 32 * 2 ^ 32 + code * 2 ^ 24 +
  b2n (bitAt w 19 || g.poison) * 2 ^ 19 + b2n (bitAt w 18 || g.abft) * 2 ^ 18 +
  b2n (bitAt w 17 || g.sat) * 2 ^ 17 + b2n (bitAt w 16 || g.nanSeen) * 2 ^ 16 +
  max (bitsOf w 2 0) g.status

/-- The signals of the present core cycle on an event, with one more (R314). -/
def noteSignal (cyc w : Nat) (wasSet : Bool) (g : Sig) : Option SigNow → SigNow
  | some o => if o.cyc = cyc then { o with status := mergeStatus o.status g } else ⟨cyc, mergeStatus w g, wasSet⟩
  | none => ⟨cyc, mergeStatus w g, wasSet⟩
/-- A signal reaches event e of core n: the event is set and its status word merges (R314). -/
def State.signal (s : State) (n e : Nat) (g : Sig) : State :=
  let cyc := s.cyc n
  let was := bitAt (s.word (.scEvent n)) e
  let s := s.modCore n fun c => { c with sigs := tabSet c.sigs e (noteSignal cyc 0 was g (tabFind c.sigs e)) }
  let s := s.setWord (.scEvent n) (s.word (.scEvent n) ||| 2 ^ e)
  s.setWord (.scEvstat n e) (mergeStatus (s.word (.scEvstat n e)) g)
/-- A signal when the operation carries an event. -/
def State.signalIf (s : State) (en : Bool) (n e : Nat) (g : Sig) : State :=
  if en then s.signal n e g else s
/-- Clear the events of a mask with their status words (R314). -/
def State.clearEvents (s : State) (n mask : Nat) : State :=
  let s := (List.range 64).foldl (fun s e =>
    if bitAt mask e then s.setWord (.scEvstat n e) 0 else s) s
  s.setWord (.scEvent n) (s.word (.scEvent n) &&& (2 ^ 64 - 1 - mask % 2 ^ 64))

/-- A core clears events in its present cycle (R314, R315): an event that a signal reaches in the same
cycle stays set and holds that signal alone; the CLR of an EVWAIT (`wait`) consumes the signal that
satisfied it. -/
def State.clearNow (s : State) (n mask : Nat) (wait : Bool) : State :=
  let cyc := s.cyc n
  let keeps := (List.range 64).filter fun e => bitAt mask e && bitAt (s.word (.scEvent n)) e &&
    (tabFind (s.core n).sigs e).any fun o => decide (o.cyc = cyc) && (o.wasSet || !wait)
  let s := s.clearEvents n (mask % 2 ^ 64 - keeps.foldl (fun a e => a + 2 ^ e) 0)
  keeps.foldl (fun s e => s.setWord (.scEvstat n e)
    (((tabFind (s.core n).sigs e).map SigNow.status).getD 0)) s

/-! ### The form of a meaning -/

/-- The compute die runs no command: it is held in reset (R467, R519, R520), the device has tripped
(R435), or REFCLK is lost (R420). -/
def State.dead (s : State) : Bool := s.chip.held || s.power.trip || s.bit .clkStatus F.clkStatusRefLoss
/-- A register that tells of work (R438): TCTX_STAT of a context that is not IDLE, STR_Q_STAT of a queue that is
not IDLE, STOPPED or FAULTED. -/
def workReg (r : Nat × Word) : Bool :=
  let o := (r.1 - regAddr (.tctxStat 0 0)) % 0x100000
  let q := (r.1 - regAddr (.strQStat 0 0)) % 0x100000
  decide (regAddr (.tctxStat 0 0) ≤ r.1 ∧ r.1 < regAddr (.tctxStat 0 0) + 0x2000000) &&
    ((decide (o < 0x100) && o % 0x40 == 0 && F.tctxStatState.of r.2.toNat != 0) ||
      (decide (q < 0x400) && q % 0x40 == 0 && !([0, 4, 5].contains (F.strQStatState.of r.2.toNat))))
/-- Work that keeps the device from being idle is in progress (R438): a context or a stream queue, a command of a
submission queue, a Glasshouse command outside queue 15. -/
def State.working (s : State) : Bool :=
  s.regs.any workReg ||
  (s.cores.any fun c => c.2.running.isSome || !c.2.waits.isEmpty || !c.2.far.isEmpty) ||
  (s.hif.qps.any fun q => !q.2.cmds.isEmpty || !q.2.out.isEmpty) ||
  (s.ghs.any fun g => g.2.queues.any fun q => q.1 != 15 && !q.2.isEmpty)
/-- What every command leaves in order: the queue is the step's to change, time does not go back,
memory is in canonical form, and a dwell (R439) starts anew as long as work was or is in progress. -/
def State.settle (s t : State) : State :=
  { t with pending := s.pending, now := max s.now t.now, mem := memNorm t.mem,
           host := memNorm t.host,
           power := if s.working || t.working then { t.power with idleSince := max s.now t.now } else t.power }
/-- A command that acts whatever holds the compute die: the package, the AUX domain, the test port. -/
def runAlways (f : State → State) (s : State) : Host.Outcome State Fault Refusal :=
  .next (s.settle (f s))
/-- A command that has an effect in every state in which the compute die runs. -/
def run (f : State → State) (s : State) : Host.Outcome State Fault Refusal :=
  runAlways (fun s => if s.dead then s else f s) s
/-- The state unless a condition holds. -/
def State.doIf (s : State) (c : Bool) (f : State → State) : State := if c then f s else s

end Sys2Proof.Machine
end

