-- ==== Sys2Proof/Machine/Advice.lean ====
section
/-! DEFINITION. The advice of the recovery ladder (spec/15, R502-R504) and the progress channels
(spec/14, R461, R462). -/

namespace Sys2Proof.Machine

/-- ADVICE rises to the highest rung that an outstanding condition calls for (R503); it never falls
here. -/
def adviseUp (rung code : Nat) (s : State) : State :=
  if s.fld .hifAdvice F.hifAdviceAdvice < rung then
    (s.setFld .hifAdvice F.hifAdviceAdvice rung).setFld .hifAdvice F.hifAdviceCode code
  else s
/-- A condition of R503 arises. -/
def State.advise (s : State) (rung code : Nat) : State :=
  let s := if rung = 1
    then { s with chip := { s.chip with rung1 := s.chip.rung1 ++ [code] } }
    else { s with chip := { s.chip with rungs := s.chip.rungs ++ [(rung, code)] } }
  adviseUp rung code s
/-- A rung has been completed (R504): conditions it answers are gone, and ADVICE is computed again
from those that still hold; a rung-1 condition holds until ACK. -/
def rungDone (rung : Nat) (s : State) : State :=
  let one := s.chip.rung1
  let more := s.chip.rungs.filter fun c => decide (rung < c.1)
  let more := if s.bit .hifAdvice F.hifAdviceRepairPending then (3, 0) :: more else more
  let s := { s with chip := { s.chip with rungs := more } }
  let s := (s.setFld .hifAdvice F.hifAdviceAdvice 0).setFld .hifAdvice F.hifAdviceCode 0
  let s := match one with
    | c :: _ => adviseUp 1 c s
    | [] => s
  more.foldl (fun s c => adviseUp c.1 c.2 s) s
/-- HIF_ADVICE_ACK (R504): every outstanding rung-1 condition is gone; an ADVICE of 1 falls to 0. -/
def adviceAck (s : State) : State :=
  let s := { s with chip := { s.chip with rung1 := [] } }
  if s.fld .hifAdvice F.hifAdviceAdvice = 1 then
    (s.setFld .hifAdvice F.hifAdviceAdvice 0).setFld .hifAdvice F.hifAdviceCode 0
  else s

/-- The codes with which a command that ends in status 3 or 2 calls for rung 1 (R503). -/
def rung1Codes : List Nat :=
  [ecCollTimeout, ecNoCredit, ecWindowClosed, ecShardStale, ecLinkDown, ecWatchdog, ecDetectSram, ecDetectStack]

/-! ### Progress channels (R461, R462) -/

/-- STATE of a progress channel changes: vector 195. -/
def progState (i st : Nat) (s : State) : State :=
  if s.fld (.hifProgStat i) F.hifProgStatState = st then s
  else (s.setFld (.hifProgStat i) F.hifProgStatState st).msix 195
/-- A new run of a channel (R462). -/
def progStart (i : Nat) (s : State) : State :=
  let s := (s.setFld (.hifProgStat i) F.hifProgStatPct 0).setFld (.hifProgStat i) F.hifProgStatCode 0
  progState i 1 (s.setWord (.hifProgPos i) 0)
/-- PCT and POS move on together; PCT reads 10,000 only at the end. -/
def progAt (i pct pos : Nat) (s : State) : State :=
  let s := s.setFld (.hifProgStat i) F.hifProgStatPct (max (s.fld (.hifProgStat i) F.hifProgStatPct) (min pct 9999))
  s.setWord (.hifProgPos i) (max (s.word (.hifProgPos i)) pos)
/-- The run is done. -/
def progDone (i pos : Nat) (s : State) : State :=
  progState i 2 ((progAt i 0 pos s).setFld (.hifProgStat i) F.hifProgStatPct 10000)
/-- The run has failed with a code. -/
def progFail (i code : Nat) (s : State) : State :=
  progState i 3 (s.setFld (.hifProgStat i) F.hifProgStatCode code)
/-! ### The commands -/

/-- HIF_ADVICE_ACK (R504). -/
def execHifAdviceAck (s : State) : Host.Outcome State Fault Refusal := run adviceAck s

end Sys2Proof.Machine
end

