-- ==== Sys2Proof/Machine/Bandstand.lean ====
section
/-! DEFINITION. Bandstand arbitration of the stack ports (spec/09, R286-R294): slots, ranking, hints,
the watchdog and the port reset. -/

namespace Sys2Proof.Machine

/-- Root ticks per STACK_CLK cycle (0.5 ns). -/
def stackTicks : Nat := 4
/-- The record of a stack's port. -/
def State.port (s : State) (k : Nat) : Port := tabGet {} s.ports k
/-- Change the record of a port. -/
def State.modPort (s : State) (k : Nat) (f : Port → Port) : State :=
  { s with ports := tabSet s.ports k (f (s.port k)) }
/-- STACK_CLK cycles of a port since its slot 0 (R288). -/
def State.portCyc (s : State) (k : Nat) : Nat := (s.now - (s.port k).frame) / stackTicks
/-- Current slot of a port. -/
def State.portSlot (s : State) (k : Nat) : Nat := s.portCyc k % 64
/-- Owner code of a slot in the active table. -/
def State.slotOwner (s : State) (k i : Nat) : Nat :=
  s.word (.bsAct k (i % 64 / 16)) / 16 ^ (i % 16) % 16
/-- The ranking that decides in a cycle (R293): the old one in the cycle of a write. -/
def State.ranking (s : State) (k : Nat) : Nat :=
  match (s.port k).rankOld with
  | some (cyc, old) => if cyc = s.portCyc k then old else s.word (.bsRank k)
  | none => s.word (.bsRank k)
/-- Requester at a position of a ranking. -/
def rankAt (w p : Nat) : Nat := w / 16 ^ p % 16
/-- The grant of a cycle (R288): the slot's owner, else the first of the ranking that presents. -/
def portGrant (s : State) (k : Nat) (ps : List Nat) : Option Nat :=
  let o := s.slotOwner k (s.portSlot k)
  if ps.contains o then some o
  else ((List.range 12).map (rankAt (s.ranking k))).find? fun r => ps.contains r
/-- The hint of a loser (R289): its next owned slot comes in cycle c + 1 + h; 63 for none. -/
def portHint (s : State) (k r : Nat) : Nat :=
  if s.bit (.bsCtl k) F.bsCtlBsFreeze then 63
  else ((List.range 63).find? fun h => s.slotOwner k (s.portSlot k + 1 + h) == r).getD 63
/-- PORT_ARBITRATE (R288-R291): one STACK_CLK cycle of decisions. -/
def portArbitrate (k : Nat) (ps : List Nat) (s : State) : State :=
  let p := s.port k
  let g := if p.inflight.isSome || p.resetEnd.isSome || s.bit (.bsCtl k) F.bsCtlBsFreeze then none
    else portGrant s k ps
  let own := s.slotOwner k (s.portSlot k)
  let losers := ps.filter fun r => some r != g
  let s := losers.foldl (fun s r =>
    let h := portHint s k r
    (s.bump (.bsWait k r) F.bsWaitWaitcyc 1).modPort k fun p =>
      { p with hints := tabSet p.hints r h, waits := tabMod 0 p.waits r (· + 1) }) s
  let s := match g with
    | none => s
    | some r =>
      let w := tabGet 0 (s.port k).waits r
      let s := if r = own then s.bump (.bsGrants k r) F.bsGrantsOwned 1
        else s.bump (.bsGrants k r) F.bsGrantsFree 1
      let s := s.setFld (.bsWait k r) F.bsWaitMaxwait
        (min (max w (s.fld (.bsWait k r) F.bsWaitMaxwait)) F.bsWaitMaxwait.top)
      let s := s.setFld (.bsStat k) F.bsStatInflight 1
      s.modPort k fun p => { p with inflight := some (r, s.now), waits := tabDel p.waits r }
  s.advance ((s.port k).frame + stackTicks * (s.portCyc k + 1))
/-- PORT_TRANSFER_DONE (R290). -/
def portDone (k : Nat) (s : State) : State :=
  (s.modPort k fun p => { p with inflight := none }).setFld (.bsStat k) F.bsStatInflight 0
/-- A port reset (R290): no grant for 1,024 FABRIC_CLK cycles; tables, ranking, freeze and counters
stay. -/
def portReset (k : Nat) (s : State) : State :=
  let s := portDone k s
  (s.modPort k fun p => { p with resetEnd := some (s.now + 1024 * fabTicks) }).setFld
    (.bsStat k) F.bsStatResetting 1
/-- PORT_WATCHDOG (R290). -/
def portWatchdog (k : Nat) (s : State) : State :=
  let lim := s.fld (.bsCtl k) F.bsCtlWdogLimit
  match (s.port k).inflight with
  | none => s
  | some (r, t) =>
    if lim = 0 then s
    else
      let s := s.advance (t + lim * fabTicks)
      let s := s.setFld (.bsStat k) F.bsStatLastWd r
      let s := s.bump (.bsStat k) F.bsStatWdCount 1
      let s := s.raise { src := srcOf 3 k 0, code := ecWatchdog, detail := [(32, 1, k), (33, 1, r)] }
      portReset k s
/-- PORT_RESET_END (R290): the frame counter restarts at slot 0. -/
def portResetEnd (k : Nat) (s : State) : State :=
  match (s.port k).resetEnd with
  | none => s
  | some t =>
    let s := s.advance t
    (s.modPort k fun p => { p with resetEnd := none, frame := s.now }).setFld
      (.bsStat k) F.bsStatResetting 0
/-- COMMIT (R293). -/
def bsCommit (k : Nat) (s : State) : State :=
  if s.bit (.bsStat k) F.bsStatCommitPend then s
  else (s.modPort k fun p => { p with commitAt := some s.now }).setFld (.bsStat k) F.bsStatCommitPend 1
/-- BS_TABLE_ACTIVATE (R293): at the start of the next frame the pending table becomes active. -/
def bsActivate (k : Nat) (s : State) : State :=
  match (s.port k).commitAt with
  | none => s
  | some t =>
    let f := (s.port k).frame
    let s := s.advance (if t < f then f else f + 256 * ((t - f) / 256 + 1))
    let s := (List.range 4).foldl (fun s i => s.setWord (.bsAct k i) (s.word (.bsSlot k i))) s
    (s.modPort k fun p => { p with commitAt := none }).setFld (.bsStat k) F.bsStatCommitPend 0
/-- BS_FREEZE (R291). -/
def bsFreeze (k : Nat) (b : Bool) (s : State) : State := s.setFld (.bsCtl k) F.bsCtlBsFreeze (b2n b)
/-- A write of GH_BS_CTL (R294). -/
def bsCtlWrite (k v : Nat) (s : State) : State :=
  let s := s.plainWrite (.bsCtl k) v
  (s.doIf (bitAt v 2) (portReset k)).doIf (bitAt v 1) (bsCommit k)
/-- A write of GH_BS_RANK (R293): one that names a code twice, or a code of 12-15, is discarded. -/
def bsRankWrite (k v : Nat) (s : State) : State :=
  let cs := (List.range 12).map (rankAt v)
  if cs.any (fun c => decide (11 < c)) || cs.eraseDups.length != 12 then
    s.refuseWrite (srcOf 3 k 0) (regAddr (.bsRank k)) v ecDescFormat
  else
    let old := s.ranking k
    (s.modPort k fun p => { p with rankOld := some (s.portCyc k, old) }).plainWrite (.bsRank k) v
/-- GH_BS_STAT as read: the current slot beside the stored fields. -/
def bsStatWord (s : State) (k : Nat) : Nat :=
  F.bsStatSlot.put (s.word (.bsStat k)) (if (s.port k).resetEnd.isSome then 0 else s.portSlot k)

/-! ### The commands -/

/-- PORT_ARBITRATE (R288). -/
def execPortArbitrate (k : StackId) (presents : List (Fin 12)) (s : State) :
    Host.Outcome State Fault Refusal := run (portArbitrate k (presents.map Fin.val)) s
/-- PORT_TRANSFER_DONE (R290). -/
def execPortTransferDone (k : StackId) (s : State) : Host.Outcome State Fault Refusal :=
  run (portDone k) s
/-- PORT_WATCHDOG (R290). -/
def execPortWatchdog (k : StackId) (s : State) : Host.Outcome State Fault Refusal :=
  run (portWatchdog k) s
/-- PORT_RESET_END (R290). -/
def execPortResetEnd (k : StackId) (s : State) : Host.Outcome State Fault Refusal :=
  run (portResetEnd k) s
/-- BS_PRESET (R290). -/
def execBsPreset (k : StackId) (s : State) : Host.Outcome State Fault Refusal := run (portReset k) s
/-- BS_COMMIT (R293). -/
def execBsCommit (_r : Requester) (k : StackId) (s : State) : Host.Outcome State Fault Refusal :=
  run (bsCommit k) s
/-- BS_TABLE_ACTIVATE (R293). -/
def execBsTableActivate (k : StackId) (s : State) : Host.Outcome State Fault Refusal :=
  run (bsActivate k) s
/-- BS_FREEZE_WRITE (R291). -/
def execBsFreezeWrite (k : StackId) (freeze : Bool) (s : State) : Host.Outcome State Fault Refusal :=
  run (bsFreeze k freeze) s
/-- BS_RANK_WRITE (R293). -/
def execBsRankWrite (_r : Requester) (k : StackId) (v : Word) (s : State) :
    Host.Outcome State Fault Refusal := run (bsRankWrite k v.toNat) s

end Sys2Proof.Machine
end

