-- ==== Sys2Proof/Machine/Approx.lean ====
section
/-! DEFINITION. The approximated functions (spec/04, R118; spec/10, R324). The spec bounds their error and gives no bits: a
result is the free value of Config.approx wherever that keeps within the bound, and else the exact value rounded
(assumption 3, DESIGN CHOICE). Exact values are computed to 400 binary places, far beyond any bound. -/

namespace Sys2Proof.Machine

/-- A finite value to 400 binary places. -/
def fxOf : Fp → Int
  | .num neg m e => (if neg then -1 else 1) * (m * 2 ^ (400 + e).toNat : Nat)
  | _ => 0
/-- ln 2 and 1 / √(2π) to 400 binary places. -/
def fxLn2 : Int := 1789879222497203190815761498240779176894896805856420935579692301363062920687047601279850318367644315849030039181347319086
def fxGauss : Int := 1030168654930312834579443762448291520423692007902432556621662294693524574739340080541057368303018433395121189280430287636
/-- Terms of the exponential series. -/
def expTerms (r : Int) : Nat → Nat → Int → Int
  | 0, _, _ => 0
  | n + 1, k, t => t + expTerms r n (k + 1) (t * r / ((k + 1) * 2 ^ 400))
/-- e^r for |r| < 1. -/
def fxExpNear (r : Int) : Int := expTerms r 120 0 (2 ^ 400)
/-- e^(-t) for t ≥ 0. -/
def fxExpNeg (t : Int) : Int :=
  if 300 * 2 ^ 400 ≤ t then 0
  else fxExpNear (-(t % fxLn2)) / 2 ^ (t / fxLn2).toNat
/-- e^x; from 100 on more than any format holds. -/
def fxExp (x : Int) : Int :=
  if x < 0 then fxExpNeg (-x)
  else if 100 * 2 ^ 400 ≤ x then 2 ^ 540
  else fxExpNear (x % fxLn2) * 2 ^ (x / fxLn2).toNat
/-- 1 / (1 + e^(-x)). -/
def fxSigmoid (x : Int) : Int :=
  let t := fxExpNeg x.natAbs
  (if x < 0 then t else 2 ^ 400) * 2 ^ 400 / (2 ^ 400 + t)
/-- tanh x. -/
def fxTanh (x : Int) : Int :=
  let t := fxExpNeg (2 * x.natAbs)
  x.sign * ((2 ^ 400 - t) * 2 ^ 400 / (2 ^ 400 + t))
/-- Terms of the series of the normal distribution function about 0; `h` is −x²/2. -/
def gaussTerms (h : Int) : Nat → Nat → Int → Int
  | 0, _, _ => 0
  | n + 1, k, t => t / (2 * k + 1) + gaussTerms h n (k + 1) (t * h / ((k + 1) * 2 ^ 400))
/-- Φ(x), the normal distribution function. -/
def fxPhi (x : Int) : Int :=
  if x ≤ -15 * 2 ^ 400 then 0
  else if 15 * 2 ^ 400 ≤ x then 2 ^ 400
  else 2 ^ 399 + fxGauss * gaussTerms (-(x * x / 2 ^ 401)) 600 0 x / 2 ^ 400
/-- The exact value of a function of R118. -/
def fxFunc (f : Nat) (x : Int) : Int :=
  match f with
  | 1 => x * fxPhi x / 2 ^ 400
  | 2 => x * fxSigmoid x / 2 ^ 400
  | 3 => fxTanh x
  | 4 => fxSigmoid x
  | _ => fxExp x
/-- The greatest error of a function of R118, in units in the last place. -/
def actUlps (f : Nat) : Nat := if f = 1 then 4 else if f = 2 then 3 else 2
/-- 1 / √x for x > 0. -/
def fxRsqrt (x : Int) : Int := Nat.sqrt (2 ^ 1200 / x.natAbs)
/-- A unit in the last place of a format at a value. -/
def fxUlp (f : FpFmt) (v : Int) : Nat :=
  2 ^ (400 + max ((Nat.log2 v.natAbs : Int) - 400 - (f.p - 1 : Nat)) f.emin).toNat
/-- A result lies within so many units in the last place of an exact value; an infinity stands for 2^128. -/
def nearTo (f : FpFmt) (k : Nat) (v : Int) : Fp → Bool
  | .nan => false
  | .inf neg => decide (((if neg then -(2 ^ 528) else 2 ^ 528) - v).natAbs ≤ k * fxUlp f v + 2 ^ 100)
  | x => decide ((fxOf x - v).natAbs ≤ k * fxUlp f v + 2 ^ 100)
/-- The FP32 result of a function whose exact value is v: the free one where it keeps within the bound. -/
def bound32 (k : Nat) (v : Int) (free : Nat) : Nat :=
  if nearTo fmt32 k v (of32 free) then free else to32 (.num (decide (v < 0)) v.natAbs (-400))
/-- The BF16 result. -/
def bound16 (k : Nat) (v : Int) (free : Nat) : Nat :=
  if nearTo fmt16 k v (of16 free) then free else to16 (.num (decide (v < 0)) v.natAbs (-400))
/-- True for a finite value. -/
def Fp.finite : Fp → Bool
  | .num .. => true
  | _ => false
/-- FUNC of R118 on FP32 bits: ReLU and exp's overflow exactly, the rest within the stated error; of an infinity the
spec states no result but exp's. -/
def actFn (f x : Nat) : Nat :=
  let free := Config.approx f x % 2 ^ 32
  if f = 0 then to32 (fpMax (of32 x) (.num false 0 0))
  else if of32 x = .nan then 0x7FC00000
  else if f = 5 ∧ fpLt (of32 0x42B17217) (of32 x) then 0x7F800000
  else if (of32 x).finite && decide (f ≤ 5) then bound32 (actUlps f) (fxFunc f (fxOf (of32 x))) free
  else free
/-- The same on BF16 bits. -/
def actFn16 (f x : Nat) : Nat :=
  let free := Config.approx (f + 16) x % 2 ^ 16
  if f = 0 then to16 (fpMax (of16 x) (.num false 0 0))
  else if of16 x = .nan then 0x7FC0
  else if f = 5 ∧ fpLt (of32 0x42B17217) (of16 x) then 0x7F80
  else if (of16 x).finite && decide (f ≤ 5) then bound16 (actUlps f) (fxFunc f (fxOf (of16 x))) free
  else free
/-- RSQRT (R324) on FP32 bits, within 2 units; of a value that is not above 0 the spec states no result. -/
def rsqrt32 (x : Nat) : Nat :=
  let free := Config.approx 7 x % 2 ^ 32
  if 0 < fxOf (of32 x) then bound32 2 (fxRsqrt (fxOf (of32 x))) free else free
/-- RSQRT on BF16 bits. -/
def rsqrt16 (x : Nat) : Nat :=
  let free := Config.approx 23 x % 2 ^ 16
  if 0 < fxOf (of16 x) then bound16 2 (fxRsqrt (fxOf (of16 x))) free else free

end Sys2Proof.Machine
end

