-- ==== Sys2Proof/Machine/Parity.lean ====
section
/-! DEFINITION. Parity of the SRAMs (spec/15, R477, R478). Which units fail their parity comes with the state, as the
check codes of the stacks do (assumption 174): no command makes one fail. -/

namespace Sys2Proof.Machine

/-- A core runs a kernel's program (R360). -/
def State.kernelOn (s : State) (n : Nat) : Bool := s.hif.kernels.any fun k => k.cores.contains n
/-- A test of a core is asked for, unless one is (R477, R478). -/
def askTest (n : Nat) (s : State) : State :=
  s.doIf (!s.chip.tests.contains n && s.fld (.coreMap n) F.coreMapState == 0) fun s =>
    { s with chip := { s.chip with tests := s.chip.tests ++ [n] } }
/-- Parity detections on a core: three in one placement interval start a test of it (R478). -/
def countDetections (n k : Nat) (s : State) : State :=
  let s := s.bump (.tstSramCnt n) F.tstSramCntDetections k
  let d := tabGet 0 s.hif.sram n + k
  let s := { s with hif := { s.hif with sram := tabSet s.hif.sram n d } }
  s.doIf (decide (3 ≤ d)) (askTest n)
/-- A DETECT_SRAM record: the structure code and the re-runs done (R477, R488). -/
def sramErr (src code : Nat) : Err := { src := src, code := ecDetectSram, detail := [(32, 1, code)] }
/-- A unit that fails its parity (R477, codes 1, 2 and 5). -/
def State.badUnit (s : State) (da : Nat) : Bool := s.parity.units.contains (canon da / 64)
/-- A read finds units of a range that fail: they are counted, and in a core that runs a kernel's program each
raises DETECT_SRAM at once (R478). -/
def State.parityRange (s : State) (da len : Nat) : State :=
  (s.parity.units.filter fun u => decide (da / 64 ≤ u ∧ u * 64 < da + len)).foldl (fun s u =>
    match placeOf (u * 64) with
    | .cm n _ => countDetections n 1 (s.doIf (s.kernelOn n) (·.raise (sramErr (srcOf 1 n 8) 1)))
    | .engine n _ _ => countDetections n 1 (s.doIf (s.kernelOn n) (·.raise (sramErr (srcOf 1 n 1) 2)))
    | .orangery _ => s.bump .tstSramOrg F.tstSramOrgDetections 1
    | _ => s) s
/-- An entry of the Orangery control block that has failed its parity is invalid until it is written (R477, code 6). -/
def State.badCtl (s : State) (r : Reg) : Bool := s.parity.ctl.contains (regAddr r)
/-- It is written. -/
def State.ctlWritten (s : State) (r : Reg) : State :=
  { s with parity := { s.parity with ctl := s.parity.ctl.filter (· != regAddr r) } }
/-- An operation on an invalid entry fails with DETECT_SRAM, and calls for rung 1 (R477, R503). -/
def ctlFail (s : State) : State :=
  (s.raise (sramErr (srcOf 6 0 1) 6)).advise 1 ecDetectSram
/-- A bundle that fails its parity as it is fetched (R477, code 4): it is counted, and Virhan reloads the code; the
second time in one context a test of the core starts. -/
def bundleDetect (n c p : Nat) (s : State) : State :=
  let again := s.parity.reloads.contains (n, c)
  let s := { s with parity := { s.parity with
    bundles := s.parity.bundles.filter (· != (n, p))
    reloads := if again then s.parity.reloads else s.parity.reloads ++ [(n, c)] } }
  (countDetections n 1 s).doIf again (askTest n)

end Sys2Proof.Machine
end

