-- ==== Sys2Proof/Machine/Slots.lean ====
section
/-! DEFINITION. Scale slots (spec/02, R37-R46): the quantiser, the statistic units, commits and the
writes held during one, and what a tile task does with a SAT tile (R56). -/

namespace Sys2Proof.Machine

/-! ### The quantiser (R37) -/

/-- The divisor s × 2^h of a latched slot; the shift is ignored for FP8 types (R37). -/
def slotDivisor (l : SlotLatch) : Fp :=
  fpMul (of32 l.scale) (.num false (if l.etype = etInt8 then 2 ^ l.shift else 1) 0)
/-- True for a NaN quotient. -/
def quotNan : Quot → Bool
  | .special .nan => true
  | _ => false
/-- A quotient to an FP8 code, saturating (R34). -/
def quotFp8 (t : Nat) : Quot → Nat
  | .special v => fpElem t v
  | .ratio neg n d e => if t = etE4 then quotE4 neg n d e else quotE5 neg n d e
/-- The code of an activation element and whether it sets NAN_SEEN (R35, R37, R38). -/
def quantize (l : SlotLatch) (x : Fp) : Nat × Bool :=
  let q := fpDiv x (slotDivisor l)
  if x.isZero then (if l.etype = etInt8 then ux 8 l.zp else 0, false)
  else if l.etype = etInt8 then
    (ux 8 (if quotNan q then l.zp
           else clampInt (-128) 127 (quotToInt (-1099511627776) 1099511627776 q + l.zp)),
     x.special || quotNan q)
  else (match q with
    | .special (.num ..) => 0
    | q => quotFp8 l.etype q, x.special || quotNan q)

/-! ### Statistics (R41) -/

/-- |x − c| of one element: `none` when it is NaN and therefore ignored; an infinite x counts as the
largest finite value (R35). The second part is NAN_SEEN. -/
def statElem (c : Nat) (x : Fp) : Option Nat × Bool :=
  match x with
  | .nan => (none, true)
  | .inf _ => (some fp32Big, true)
  | .num .. =>
    match fpSub x (of32 c) with
    | .nan => (none, false)
    | d => (some (to32 (fpAbs d)), false)
/-- The maximum statistic over elements, `none` where there is none to measure (R41). -/
def statMax (c : Nat) (xs : List Fp) : Option Nat :=
  xs.foldl (fun a x => match a, (statElem c x).1 with
    | none, b => b
    | some a, some b => some (max a b)
    | some a, none => some a) none
/-- The center a statistic uses: CENTER for an INT8 slot, 0 for an FP8 slot (R41). -/
def statCenter (l : SlotLatch) : Nat := if l.etype = etInt8 then l.center else 0

/-- Latched values of a slot word pair. -/
def latchOf (n param center : Nat) : SlotLatch :=
  { slot := n, scale := F.ssParamScale.of param, zp := sx 8 (F.ssParamZp.of param),
    shift := F.ssParamShift.of param, etype := F.ssParamEtype.of param,
    center := F.ssCenterCenter.of center }
/-- The commit in progress on a slot, if any. -/
def State.commitOf (s : State) (n : Nat) : Option CommitRec := s.commits.find? fun c => c.slot == n
/-- What an operation issued now latches (R43): from before a commit in progress. -/
def State.latchSlot (s : State) (n : Nat) : SlotLatch :=
  match s.commitOf n with
  | some c => latchOf n c.oldParam.toNat c.oldCenter.toNat
  | none => latchOf n (s.word (.ssParam n)) (s.word (.ssCenter n))
/-- The fault of an operation that binds a slot (R40), 0 for none. `want` is the code type that the
operation declares. -/
def State.slotFault (s : State) (n : Nat) (want : Nat → Bool) : Nat :=
  let t := (s.latchSlot n).etype
  if s.badCtl (.ssParam n) then ecDetectSram
  else if ¬ (t = etInt8 ∨ t = etE4 ∨ t = etE5) ∨ want t = false then ecDescFormat
  else if 16 < s.fld (.ssParam n) F.ssParamHlen then ecDescRange
  else 0
/-- NAN_SEEN of a slot is set (R36). -/
def State.slotNan (s : State) (n : Nat) (seen : Bool) : State :=
  s.doIf seen fun s => s.setFld (.ssParam n) F.ssParamNanSeen 1
/-- A report of a statistic to a slot (R41): CUR_AMAX keeps the maximum and REPORTED is set. -/
def State.report (s : State) (n : Nat) : Option Nat → State
  | none => s
  | some a =>
    (s.setFld (.ssCur n) F.ssCurCurAmax (max (s.fld (.ssCur n) F.ssCurCurAmax) a)).setFld
      (.ssCur n) F.ssCurReported 1

/-- True for a statistic whose operation has ended by now. -/
def SlotReport.due (s : State) (r : SlotReport) : Bool := decide (r.cyc ≤ s.cyc r.core)
/-- The statistics of operations that have ended reach their slots (R41). -/
def landReports (s : State) : State :=
  if s.reports.any (SlotReport.due s) then
    (s.reports.filter (SlotReport.due s)).foldl (fun t r => (t.report r.slot r.amax).slotNan r.slot r.nan)
      { s with reports := s.reports.filter fun r => !r.due s }
  else s
/-- An operation of core n reports its statistic in the cycle in which it ends (R41). -/
def State.reportAt (s : State) (n cyc slot : Nat) (a : Option Nat) (nan : Bool) : State :=
  if a.isNone && !nan then s else { s with reports := s.reports ++ [⟨n, cyc, slot, a, nan⟩] }

/-! ### Commits (R42-R46) -/

/-- History entry i of a slot. -/
def State.hist (s : State) (n i : Nat) : Nat :=
  s.fld (.ssHist n (i / 2)) (if i % 2 = 0 then F.ssHistEven else F.ssHistOdd)
/-- Set history entry i of a slot. -/
def State.setHist (s : State) (n i v : Nat) : State :=
  s.setFld (.ssHist n (i / 2)) (if i % 2 = 0 then F.ssHistEven else F.ssHistOdd) v
/-- qmax of a slot's code type (R42), as an FP32 pattern. -/
def slotQmax (t : Nat) : Nat :=
  to32 (ofInt (if t = etInt8 then 127 else if t = etE4 then 448 else 57344))
/-- 2^-24 as an FP32 pattern (R46). -/
def fp32Floor : Nat := 0x33800000

/-- The push of a reported maximum into the history (R42, R45). -/
def commitPush (n : Nat) (s : State) : State :=
  let s1 := if s.bit (.ssCur n) F.ssCurReported then
      let h := s.fld (.ssCenter n) F.ssCenterHead
      let s := s.setHist n h (s.fld (.ssCur n) F.ssCurCurAmax)
      let s := s.setFld (.ssCenter n) F.ssCenterHead ((h + 1) % 16)
      let s := s.setFld (.ssCenter n) F.ssCenterCount (min (s.fld (.ssCenter n) F.ssCenterCount + 1) 16)
      s.setFld (.ssCenter n) F.ssCenterSteps (s.fld (.ssCenter n) F.ssCenterSteps + 1)
    else s
  s1.setWord (.ssCur n) 0
/-- The i-th most recent history entry. -/
def State.histBack (s : State) (n i : Nat) : Nat :=
  s.hist n ((s.fld (.ssCenter n) F.ssCenterHead + 16 - 1 - i) % 16)
/-- The maximum of the k most recent history entries, in the order of R35: the host may have written
any FP32 value into them (R39). -/
def State.histMax (s : State) (n k : Nat) : Nat :=
  (List.range (k - 1)).foldl (fun a i => max32 a (s.histBack n (i + 1))) (s.histBack n 0)
/-- The scale and zero point that a commit sets (R42). -/
def commitScale (n : Nat) (s : State) : State :=
  let t := s.fld (.ssParam n) F.ssParamEtype
  let hlen := s.fld (.ssParam n) F.ssParamHlen
  let count := s.fld (.ssCenter n) F.ssCenterCount
  if hlen = 0 ∨ count = 0 then s
  else
    let a := s.histMax n (min count hlen)
    let c := if t = etInt8 then s.fld (.ssCenter n) F.ssCenterCenter else 0
    if (of32 a).isZero then
      let v := to32 (fpMax (fpAbs (of32 c)) (of32 fp32Floor))
      let s := s.setFld (.ssParam n) F.ssParamScale (div32 v (slotQmax t))
      let s := s.setFld (.ssParam n) F.ssParamZp 0
      let s := s.setFld (.ssParam n) F.ssParamConst 1
      s.raise { src := srcOf 6 0 1, code := ecConstChannel, detail := [(32, 2, n), (34, 1, 0)] }
    else
      let sc := div32 a (slotQmax t)
      let z := if t = etInt8 then quotToInt (-128) 127 (fpDiv (fpNeg (of32 c)) (of32 sc)) else 0
      let s := s.setFld (.ssParam n) F.ssParamScale sc
      let s := s.setFld (.ssParam n) F.ssParamZp (ux 8 z)
      s.setFld (.ssParam n) F.ssParamConst 0
/-- CLEAR (R39): COUNT, HEAD, CUR_AMAX and REPORTED become 0. -/
def clearSlot (n : Nat) (s : State) : State :=
  let s := s.setFld (.ssCenter n) F.ssCenterCount 0
  let s := s.setFld (.ssCenter n) F.ssCenterHead 0
  s.setWord (.ssCur n) 0
/-- A write of SS_PARAM as it takes effect. -/
def applyParam (n : Nat) (v : Word) (s : State) : State := (s.ctlWritten (.ssParam n)).plainWrite (.ssParam n) v.toNat
/-- A write that covers CENTER: it stores the field and clears the history (R39). -/
def applyCenter (n : Nat) (v : Word) (s : State) : State :=
  clearSlot n (s.plainWrite (.ssCenter n) v.toNat)
/-- The end of a commit (R44): the held writes apply in arrival order. -/
def commitComplete (n : Nat) (s : State) : State :=
  match s.commitOf n with
  | none => s
  | some c =>
    let s := { s.advance c.ends with commits := s.commits.filter fun d => d.slot != n }
    c.held.foldl (fun s w => if w.1 then applyCenter n w.2 s else applyParam n w.2 s) s
/-- The writes that reached a slot in the present FABRIC_CLK cycle. -/
def State.slotNowOf (s : State) (n : Nat) : Option SlotNow :=
  s.slotNow.find? fun w => w.slot == n && w.fab == s.fab
/-- A slot as it was before the writes of the present cycle; NAN_SEEN and the reports that came since
stay (R44). -/
def slotUndo (n : Nat) (w : SlotNow) (s : State) : State :=
  let nan := s.fld (.ssParam n) F.ssParamNanSeen
  let a := s.fld (.ssCur n) F.ssCurCurAmax
  let rep := s.fld (.ssCur n) F.ssCurReported
  let c := s.word (.ssCur n)
  let s := s.setWord (.ssParam n) (F.ssParamNanSeen.put w.param.toNat (max nan (F.ssParamNanSeen.of w.param.toNat)))
  let s := s.setWord (.ssCenter n) w.center.toNat
  s.setWord (.ssCur n) (if w.writes.any Prod.fst then
    F.ssCurReported.put (F.ssCurCurAmax.put c (max32 a (F.ssCurCurAmax.of w.cur.toNat)))
      (max rep (F.ssCurReported.of w.cur.toNat)) else c)
/-- A commit (R42): its effect, and the record that holds writes and old values for 3 cycles. A write that
reached the slot earlier in the same cycle comes after the commit (R44). -/
def commitSlot (n : Nat) (s : State) : State :=
  let s := commitComplete n (landReports s)
  let w := s.slotNowOf n
  let s := match w with
    | some w => { slotUndo n w s with slotNow := s.slotNow.filter fun x => x.slot != n }
    | none => s
  let rec0 : CommitRec :=
    ⟨n, s.now + 3 * fabTicks, BitVec.ofNat 64 (s.word (.ssParam n)),
      BitVec.ofNat 64 (s.word (.ssCenter n)), (w.map SlotNow.writes).getD []⟩
  let s := commitScale n (commitPush n s)
  { s with commits := s.commits ++ [rec0] }
/-- A write is noted for a commit of the same FABRIC_CLK cycle (R44). -/
def noteSlotWrite (n : Nat) (center : Bool) (v : Word) (s : State) : State :=
  let w : SlotNow := (s.slotNowOf n).getD
    ⟨n, s.fab, BitVec.ofNat 64 (s.word (.ssParam n)), BitVec.ofNat 64 (s.word (.ssCenter n)),
      BitVec.ofNat 64 (s.word (.ssCur n)), []⟩
  { s with slotNow := (s.slotNow.filter fun x => x.slot != n) ++ [{ w with writes := w.writes ++ [(center, v)] }] }
/-- A write to SS_PARAM (`center` false) or SS_CENTER: held while a commit runs (R44). -/
def slotWrite (n : Nat) (center : Bool) (v : Word) (s : State) : State :=
  match s.commitOf n with
  | some _ =>
    { s with commits := s.commits.map fun c =>
        if c.slot == n then { c with held := c.held ++ [(center, v)] } else c }
  | none =>
    let s := noteSlotWrite n center v (landReports s)
    if center then applyCenter n v s else applyParam n v s
/-- SS_PARAM (`center` false) or SS_CENTER with the writes that a commit holds, or as stored: what a write
of one half leaves in the RW fields of the other (R13). -/
def slotWord (s : State) (n : Nat) (center : Bool) : Nat :=
  let r : Reg := if center then .ssCenter n else .ssParam n
  ((s.commitOf n).map CommitRec.held).getD [] |>.foldl (fun w h =>
    if h.1 == center then writeWord (regFields r) w h.2.toNat else w) (s.word r)
/-- A write to SS_CTRL: COMMIT first, CLEAR second (R42); on an invalid slot it fails (R477). -/
def slotCtrl (n : Nat) (v : Nat) (s : State) : State :=
  if s.badCtl (.ssParam n) then ctlFail s
  else
  let s := s.doIf (bitAt v 0) (commitSlot n)
  s.doIf (bitAt v 1) fun s => clearSlot n (landReports s)

/-! ### The commands -/

/-- SS_COMMIT: a COMMIT write to SS_CTRL (R42). -/
def execSsCommit (n : SlotId) (s : State) : Host.Outcome State Fault Refusal :=
  run (slotCtrl n 1) s
/-- SS_COMMIT_COMPLETE: the commit's end, with the writes held during it (R44). -/
def execSsCommitComplete (n : SlotId) (s : State) : Host.Outcome State Fault Refusal :=
  run (commitComplete n) s
/-- SS_CLEAR: a CLEAR write to SS_CTRL (R39). -/
def execSsClear (n : SlotId) (s : State) : Host.Outcome State Fault Refusal :=
  run (slotCtrl n 2) s
/-- SS_CENTER_WRITE: a write that covers CENTER (R39, R44). -/
def execSsCenterWrite (n : SlotId) (v : Word) (s : State) : Host.Outcome State Fault Refusal :=
  run (slotWrite n true v) s
/-- SS_PARAM_WRITE (R44). -/
def execSsParamWrite (n : SlotId) (v : Word) (s : State) : Host.Outcome State Fault Refusal :=
  run (slotWrite n false v) s
/-- STAT_REPORT: a unit reports max |x − c| over the elements it passed (R41, R35). -/
def execStatReport (n : SlotId) (xs : List W32) (s : State) : Host.Outcome State Fault Refusal :=
  run (fun s =>
    let s := landReports s
    let l := s.latchSlot n
    let vs := xs.map fun x => of32 x.toNat
    (s.report n (statMax (statCenter l) vs)).slotNan n (vs.any Fp.special)) s

/-- What the tile-task runtime does with a SAT tile (R56): with fewer than three repeats done and
SHIFT below 7 it increments SHIFT, raises SAT_REPEAT and lets the tile run again; otherwise the
clamped values are written and ACC_SAT_FINAL is raised. -/
def tileSatRetry (n m t : Nat) (s : State) : State :=
  let x := s.mxe n m
  match tabFind x.satHold t with
  | none => s
  | some h =>
    let slot := h.slot
    let done := tabGet 0 x.retries t
    let shift := s.fld (.ssParam slot) F.ssParamShift
    let s := s.modMxe n m fun x => { x with satHold := tabDel x.satHold t }
    if done < 3 ∧ shift < 7 then
      let s := s.setFld (.ssParam slot) F.ssParamShift (shift + 1)
      let s := s.modMxe n m fun x => { x with retries := tabSet x.retries t (done + 1) }
      s.raise { src := srcOf 1 n (m + 1), code := ecSatRepeat, fw := true,
                detail := [(32, 2, slot), (34, 1, shift + 1)] }
    else
      let s := s.modMxe n m fun x => { x with retries := tabDel x.retries t }
      let s := s.wrOps h.writes
      s.raise { src := srcOf 1 n (m + 1), code := ecAccSatFinal, fw := true,
                detail := [(32, 1, t), (33, 2, slot), (35, 1, shift)] }
/-- TILE_SAT_RETRY (R56). -/
def execTileSatRetry (n : CoreId) (m : MxeId) (tile : Fin 8) (s : State) :
    Host.Outcome State Fault Refusal := run (tileSatRetry n m tile) s

end Sys2Proof.Machine
end

