-- ==== Sys2Proof/Machine/Tiles.lean ====
section
/-! DEFINITION. Stored tiles (spec/05, R130-R142): the 64-byte header, the six formats, validation,
the values a reader sees, and the encoder of a compactor. A tile is handled as its list of bytes. -/

namespace Sys2Proof.Machine

/-- The fields of a tile header (R131). -/
structure TileHdr where
  rowNz : Nat
  colNz : Nat
  nnz : Nat
  cols : Nat
  rows : Nat
  zcode : Nat
  layout : Nat
  etype : Nat
  format : Nat
  icount : Nat
  len : Nat
  valOff : Nat
  idxOff : Nat
  cval : Nat
  reserved : Bool
  deriving DecidableEq, Repr

/-- A header from the first 64 bytes of a tile (R131). -/
def hdrOf (bs : List Byte) : TileHdr :=
  let i := fieldAt bs 32 8
  let o := fieldAt bs 40 8
  { rowNz := fieldAt bs 0 16, colNz := fieldAt bs 16 16, nnz := bitsOf i 63 48,
    cols := bitsOf i 47 40, rows := bitsOf i 39 32, zcode := bitsOf i 31 24,
    layout := bitsOf i 23 16, etype := bitsOf i 7 4, format := bitsOf i 3 0,
    icount := bitsOf o 63 48, len := bitsOf o 47 32, valOff := bitsOf o 31 16,
    idxOff := bitsOf o 15 0, cval := fieldAt bs 48 4,
    reserved := bitsOf i 15 8 != 0 || fieldAt bs 52 4 != 0 || fieldAt bs 56 8 != 0 }

/-- The 64 bytes of a header (R131). -/
def hdrBytes (h : TileHdr) : List Byte :=
  natLe 16 h.rowNz ++ natLe 16 h.colNz ++
  natLe 8 (h.nnz * 2 ^ 48 + h.cols * 2 ^ 40 + h.rows * 2 ^ 32 + h.zcode * 2 ^ 24 +
    h.layout * 2 ^ 16 + h.etype * 16 + h.format) ++
  natLe 8 (h.icount * 2 ^ 48 + h.len * 2 ^ 32 + h.valOff * 2 ^ 16 + h.idxOff) ++
  natLe 8 h.cval ++ natLe 8 0

/-- Format codes of R135. -/
def fmtDense : Nat := 0
def fmtRsb : Nat := 1
def fmtBbm : Nat := 2
def fmtEbm : Nat := 3
def fmtScl : Nat := 4
def fmtConst : Nat := 5

/-- LEN in 64-byte units of a format (R135), for b bits per element. -/
def tileLen (fmt b icount nnz : Nat) : Nat :=
  match fmt with
  | 0 => 1 + 32 * b
  | 1 => 1 + icount * b / 4
  | 2 => 3 + ceilDiv (icount * b) 32
  | 3 => 33 + ceilDiv (nnz * b) 512
  | 4 => 1 + ceilDiv nnz 32 + ceilDiv (nnz * b) 512
  | _ => 1
/-- IDX_OFF of a format (R135). -/
def tileIdxOff (fmt : Nat) : Nat := if 2 ≤ fmt ∧ fmt ≤ 4 then 1 else 0
/-- VAL_OFF of a format (R135). -/
def tileValOff (fmt nnz : Nat) : Nat :=
  match fmt with
  | 2 => 3
  | 3 => 33
  | 4 => 1 + ceilDiv nnz 32
  | 5 => 0
  | _ => 1
/-- Units of a DENSE tile of an element type (R135). -/
def denseLen (et : Nat) : Nat := tileLen 0 (etBits et) 0 0
/-- Units of the DENSE tile a drain stores: always the full 128 × 128 elements (R135). -/
def denseUnits (et _rows _cols : Nat) : Nat := denseLen et
/-- Bytes of a row of a DENSE or RSB tile (R135). -/
def denseRowBytes (et _cols : Nat) : Nat := 16 * etBits et

/-- An element that represents real zero (R132). -/
def elemEmpty (et z w : Nat) : Bool :=
  if et = etInt4 then decide (w % 16 = z % 16)
  else if et = etInt8 then decide (w % 256 = z % 256)
  else if et = etInt32 then decide (sx 32 w = sx 8 z)
  else decide (w % 2 ^ (etBits et - 1) = 0)
/-- What an empty element expands to (R133). -/
def emptyElem (et z : Nat) : Nat :=
  if et = etInt4 then z % 16 else if et = etInt8 then z % 256
  else if et = etInt32 then ux 32 (sx 8 z) else 0

/-- Elements of b bits packed into bytes, INT4 two to a byte (R28, R135). -/
def packVals (b : Nat) : List Nat → List Byte
  | [] => []
  | x :: xs =>
    if b = 4 then
      match xs with
      | [] => natLe 1 (x % 16)
      | y :: ys => natLe 1 (x % 16 + y % 16 * 16) ++ packVals b ys
    else natLe (b / 8) x ++ packVals b xs
/-- Element k of a packed section. -/
def unpackVal (b : Nat) (bs : List Byte) (k : Nat) : Nat :=
  if b = 4 then fieldAt bs (k / 2) 1 / 16 ^ (k % 2) % 16 else fieldAt bs (k * (b / 8)) (b / 8)
/-- Zero bytes up to a multiple of 64 (R135). -/
def pad64 (bs : List Byte) : List Byte :=
  bs ++ List.replicate ((64 - bs.length % 64) % 64) 0

/-! ### Reading -/

/-- Number of 1 bits among bits 0 to k − 1. -/
def popBelow (v : Nat) : Nat → Nat
  | 0 => 0
  | k + 1 => popBelow v k + b2n (bitAt v k)
/-- The SCL entries of an index section. -/
def sclEntries (bs : List Byte) (n : Nat) : List Nat :=
  (List.range n).map fun i => fieldAt bs (64 + 2 * i) 2
/-- Value of the CONST tile's element in its type (R136). -/
def constElem (h : TileHdr) : Nat := fpElem h.etype (of32 h.cval)
/-- A reader looks at element (r, c): a summary bit of 0 makes a row or column empty (R134), and nothing lies
outside the extent. -/
def elemLive (h : TileHdr) (r c : Nat) : Bool :=
  decide (r < h.rows ∧ c < h.cols) && bitAt h.rowNz r && bitAt h.colNz c
/-- The place of element (r, c) in the value section of a tile (R135); `none` where the tile stores no value
for it. -/
def tilePos (bs : List Byte) (h : TileHdr) (r c : Nat) : Option Nat :=
  match h.format with
  | 0 => some (r * 128 + c)
  | 1 => some (popBelow h.rowNz r * 128 + c)
  | 2 =>
    let idx := fieldAt bs 64 128
    let i := r * 8 + c / 16
    if bitAt idx i then some (popBelow idx i * 16 + c % 16) else none
  | 3 =>
    let idx := fieldAt bs 64 2048
    let i := r * 128 + c
    if bitAt idx i then some (popBelow idx i) else none
  | 4 => (sclEntries bs h.nnz).idxOf? (r * 128 + c)
  | _ => none
/-- Element (r, c) of a tile as a reader sees it (R132-R135). -/
def tileElem (bs : List Byte) (h : TileHdr) (r c : Nat) : Nat :=
  if !elemLive h r c then emptyElem h.etype h.zcode
  else if 5 ≤ h.format then constElem h
  else match tilePos bs h r c with
    | some k => unpackVal (etBits h.etype) (bs.drop (h.valOff * 64)) k
    | none => emptyElem h.etype h.zcode
/-- The 64-byte units of a tile that a reader of `rows` rows from r0 on and `cols` columns from c0 on takes: header,
index, and the values that it looks at. -/
def tileNeeds (bs : List Byte) (h : TileHdr) (r0 rows c0 cols : Nat) : List Nat :=
  let b := etBits h.etype
  let vs := (List.range rows).flatMap fun r => (List.range cols).filterMap fun c =>
    if elemLive h (r0 + r) (c0 + c) then (tilePos bs h (r0 + r) (c0 + c)).map fun k => h.valOff + k * b / 512 else none
  List.range (max 1 h.valOff) ++ (vs.dedup.mergeSort).filter fun u => decide (u < h.len)
/-- The first units of the wide accesses that cover some units, in address order (R542). -/
def wideCover : List Nat → Nat → List Nat
  | [], _ => []
  | u :: us, k => if u < k then wideCover us k else u :: wideCover us (u + 8)
/-- Row r of a tile, columns 0 to n − 1. -/
def tileRow (bs : List Byte) (h : TileHdr) (r n : Nat) : List Nat :=
  (List.range n).map (tileElem bs h r)

/-! ### Validation (R138) -/

/-- The checks that the header alone allows. -/
def hdrBad (h : TileHdr) : Bool :=
  decide (6 ≤ h.format) || decide (7 ≤ h.etype) || decide (h.layout ≠ 1) || h.reserved ||
  decide (h.rows = 0 ∨ 128 < h.rows ∨ h.cols = 0 ∨ 128 < h.cols) ||
  decide (h.rows * h.cols < h.nnz) ||
  decide (h.len ≠ tileLen h.format (etBits h.etype) h.icount h.nnz) ||
  decide (h.idxOff ≠ tileIdxOff h.format) || decide (h.valOff ≠ tileValOff h.format h.nnz) ||
  decide ((h.format = 3 ∨ h.format = 4) ∧ h.icount ≠ h.nnz) ||
  decide ((h.format = 0 ∨ h.format = 5) ∧ h.icount ≠ 0) ||
  decide (h.format = 1 ∧ h.icount ≠ popBelow h.rowNz 128)
/-- The tile that handle 0 reads as (R148): a CONST tile of 128 × 128 zeros of a type. -/
def zeroTile (et : Nat) : List Byte :=
  hdrBytes
  { rowNz := 0, colNz := 0, nnz := 0, cols := 128, rows := 128, zcode := 0, layout := 1, etype := et,
    format := fmtConst, icount := 0, len := 1, valOff := 0, idxOff := 0, cval := 0, reserved := false }
/-- Fault of a header with so many bytes before the end of its region, 0 for none. -/
def headFault (h : TileHdr) (avail : Nat) : Nat :=
  if avail < 64 then ecDescRange else if hdrBad h then ecDescFormat else 0
/-- Entries strictly rising. -/
def strictUp : List Nat → Bool
  | a :: b :: r => decide (a < b) && strictUp (b :: r)
  | _ => true
/-- An element index lies in the extent. -/
def inExtent (h : TileHdr) (i : Nat) : Bool := decide (i / 128 < h.rows ∧ i % 128 < h.cols)
/-- The checks that walk the index. -/
def idxBad (bs : List Byte) (h : TileHdr) : Bool :=
  match h.format with
  | 2 =>
    let idx := fieldAt bs 64 128
    decide (popBelow idx 1024 ≠ h.icount) ||
    (List.range 1024).any fun i =>
      bitAt idx i && decide (h.rows ≤ i / 8 ∨ h.cols ≤ 16 * (i % 8))
  | 3 =>
    let idx := fieldAt bs 64 2048
    decide (popBelow idx 16384 ≠ h.icount) ||
    (List.range 16384).any fun i => bitAt idx i && !inExtent h i
  | 4 =>
    let es := sclEntries bs h.nnz
    !strictUp es || es.any fun e => decide (16384 ≤ e) || !inExtent h e
  | _ => false
/-- The fault of a reader on a tile whose buffer holds `avail` bytes from its start (R138), 0 for
none. -/
def tileFault (bs : List Byte) (avail : Nat) : Nat :=
  let h := hdrOf bs
  if headFault h avail ≠ 0 then headFault h avail
  else if avail < h.len * 64 then ecDescRange
  else if idxBad bs h then ecDescFormat
  else 0

/-! ### The compactor (R136, R140, R142) -/

/-- Two elements count as equal (R136). -/
def elemEq (et a b : Nat) : Bool :=
  if 2 ≤ et ∧ et ≤ 5 then
    !(elemFp et a).isNan && (decide (a = b) || ((elemFp et a).isZero && (elemFp et b).isZero))
  else decide (a = b)
/-- A tile's value as CVAL, when every element in the extent is equal and exact in FP32 (R136). -/
def constOf (et : Nat) (vals : List (List Nat)) : Option Nat :=
  match vals.flatten with
  | [] => none
  | x :: xs =>
    let c := if (elemFp et x).isZero && decide (2 ≤ et ∧ et ≤ 5) then 0 else to32 (elemFp et x)
    if elemEq et x x && xs.all (elemEq et x) &&
        (decide (et ≠ etInt32) || decide (toIntSat (-2 ^ 40) (2 ^ 40) (of32 c) = sx 32 x))
    then some c else none
/-- Indices of a list where a predicate holds. -/
def idxWhere {α : Type} (p : α → Bool) (l : List α) : List Nat :=
  (l.zipIdx.filter fun q => p q.1).map Prod.snd
/-- A bit mask of indices. -/
def maskOf (l : List Nat) : Nat := l.foldl (fun m i => m ||| 2 ^ i) 0
/-- A row padded to 128 elements with the empty element. -/
def padRow (et z : Nat) (r : List Nat) : List Nat :=
  r ++ List.replicate (128 - r.length) (emptyElem et z)
/-- The extent's rows, then empty rows to 128. -/
def padTile (et z : Nat) (vals : List (List Nat)) : List (List Nat) :=
  (vals.map (padRow et z)) ++
    List.replicate (128 - vals.length) (List.replicate 128 (emptyElem et z))

/-- A compactor's header with exact summaries (R134). -/
def mkHdr (fmt et z rows cols : Nat) (grid : List (List Nat)) : TileHdr :=
  let ne := fun w => !elemEmpty et z w
  let rs := idxWhere (fun r : List Nat => r.any ne) grid
  let cs := (List.range 128).filter fun c => grid.any fun r => ne (r.getD c (emptyElem et z))
  let nnz := grid.foldl (fun a r => a + (r.filter ne).length) 0
  let blocks := grid.foldl (fun a r => a + ((chunks 16 8 r).filter fun b => b.any ne).length) 0
  let ic := if fmt = 1 then rs.length else if fmt = 2 then blocks
    else if fmt = 3 ∨ fmt = 4 then nnz else 0
  { rowNz := maskOf rs, colNz := maskOf cs, nnz := nnz, cols := cols, rows := rows, zcode := z,
    layout := 1, etype := et, format := fmt, icount := ic,
    len := tileLen fmt (etBits et) ic nnz, valOff := tileValOff fmt nnz,
    idxOff := tileIdxOff fmt, cval := 0, reserved := false }
/-- The body sections of a format. An element that compaction finds empty comes back as +0 or ZCODE, also from
a row or block that is kept (R133). -/
def tileBody (fmt et z : Nat) (grid : List (List Nat)) : List Byte :=
  let b := etBits et
  let ne := fun w => !elemEmpty et z w
  let norm := List.map fun w => if ne w then w else emptyElem et z
  match fmt with
  | 0 => packVals b grid.flatten
  | 1 => packVals b (norm (grid.filter fun r => r.any ne).flatten)
  | 2 =>
    let bl := (grid.map (chunks 16 8)).flatten
    natLe 128 (maskOf (idxWhere (fun x : List Nat => x.any ne) bl)) ++
      pad64 (packVals b (norm (bl.filter fun x => x.any ne).flatten))
  | 3 =>
    let es := grid.flatten
    natLe 2048 (maskOf (idxWhere ne es)) ++ pad64 (packVals b (es.filter ne))
  | 4 =>
    let es := grid.flatten
    pad64 ((idxWhere ne es).flatMap (natLe 2)) ++ pad64 (packVals b (es.filter ne))
  | _ => []
/-- The tile that a compactor asked for format `fmt` stores (R140, R142). -/
def encodeTileZ (fmt et z rows cols : Nat) (vals : List (List Nat)) : List Byte :=
  let grid := padTile et z vals
  match constOf et vals with
  | some c =>
    let all := elemEmpty et z ((vals.headD []).headD 0)
    hdrBytes
    { mkHdr fmtDense et z rows cols grid with
      format := fmtConst, icount := 0, len := 1, valOff := 0, idxOff := 0, cval := c,
      nnz := if all then 0 else rows * cols,
      rowNz := if all then 0 else 2 ^ rows - 1, colNz := if all then 0 else 2 ^ cols - 1 }
  | none =>
    let h := mkHdr fmt et z rows cols grid
    if fmt ≠ fmtConst ∧ fmt ≠ fmtDense ∧ h.len < denseLen et
    then hdrBytes h ++ tileBody fmt et z grid
    else hdrBytes (mkHdr fmtDense et z rows cols grid) ++ tileBody fmtDense et z grid
/-- A DENSE tile with a full header and exact summaries. -/
def denseTile (et z rows cols : Nat) (vals : List (List Nat)) : List Byte :=
  let grid := padTile et z vals
  hdrBytes (mkHdr fmtDense et z rows cols grid) ++ tileBody fmtDense et z grid
/-- `encodeTileZ` with zero code 0, which a drain uses; a drain asked for DENSE stores the tile DENSE
without its compactor (R117). -/
def encodeTile (fmt et rows cols : Nat) (vals : List (List Nat)) : List Byte :=
  if fmt = fmtDense then denseTile et 0 rows cols vals else encodeTileZ fmt et 0 rows cols vals

/-- The bytes of one row of a DENSE tile. -/
def denseRow (et : Nat) (r : List Nat) : List Byte := packVals (etBits et) (padRow et 0 r)

end Sys2Proof.Machine
end

