-- ==== Sys2Proof/Machine/Drain.lean ====
section
/-! DEFINITION. Drain chains (spec/04, R109-R129): the stage words, the checks at the closing
operation, the latencies, and the values a chain makes of a tile's rows. -/

namespace Sys2Proof.Machine

/-! ### Stage words (R113) -/

/-- A stage of a drain chain. -/
inductive Stage where
  | scale (useSlot useW : Bool) (imm : Nat)
  | zpCorr
  | bias (base : Nat)
  | act (func : Nat)
  | gate (partner : Nat) (pzp pscale : Bool) (pfunc : Nat)
  | resid (rowScaled fp32 : Bool) (rowrec pitch base : Nat)
  | clamp (lo hi : Nat)
  | rowstat (mode : Nat) (init : Bool) (colBase rec : Nat)
  | amax (slot : Nat)
  | cast (etype format : Nat)
  deriving DecidableEq, Repr

/-- A stage word decoded; `none` where it holds a reserved opcode, code or non-zero reserved field. -/
def decodeStage (w : Nat) : Option Stage :=
  let z := fun (hi lo : Nat) => bitsOf w hi lo == 0
  match bitsOf w 63 60 with
  | 1 => if z 57 32 then some (.scale (bitAt w 59) (bitAt w 58) (bitsOf w 31 0)) else none
  | 2 => if z 59 0 then some .zpCorr else none
  | 3 => if z 59 17 then some (.bias (bitsOf w 16 0)) else none
  | 4 => if z 59 4 ∧ bitsOf w 3 0 ≤ 5 then some (.act (bitsOf w 3 0)) else none
  | 5 =>
    if z 59 11 ∧ z 5 4 ∧ (bitsOf w 3 0 ≤ 5 ∨ bitsOf w 3 0 = 15)
    then some (.gate (bitsOf w 10 8) (bitAt w 7) (bitAt w 6) (bitsOf w 3 0)) else none
  | 6 =>
    if z 28 17 then some (.resid (bitAt w 59) (bitAt w 58) (bitsOf w 57 39) (bitsOf w 38 29)
      (bitsOf w 16 0)) else none
  | 7 => if z 59 32 then some (.clamp (bitsOf w 31 16) (bitsOf w 15 0)) else none
  | 8 =>
    if z 30 19 ∧ bitsOf w 59 56 ≤ 5
    then some (.rowstat (bitsOf w 59 56) (bitAt w 55) (bitsOf w 54 31) (bitsOf w 18 0)) else none
  | 9 => if z 59 12 then some (.amax (bitsOf w 11 0)) else none
  | 10 =>
    if z 51 0 ∧ (bitsOf w 59 56 = etBf16 ∨ bitsOf w 59 56 = etFp32) ∧ bitsOf w 55 52 ≤ 4
    then some (.cast (bitsOf w 59 56) (bitsOf w 55 52)) else none
  | _ => none

/-- A chain: the stage words up to the first END word or through word 7 (R109). -/
def decodeChain : List Word → Option (List Stage)
  | [] => some []
  | w :: ws =>
    if w.toNat / 2 ^ 60 = 0 then (if w.toNat = 0 then some [] else none)
    else (decodeStage w.toNat).bind fun st => (decodeChain ws).map fun r => st :: r

/-- Kinds of stages, for the checks. -/
def Stage.isCast : Stage → Bool | .cast .. => true | _ => false
def Stage.isScale : Stage → Bool | .scale .. => true | _ => false
def Stage.isZp : Stage → Bool | .zpCorr => true | _ => false
def Stage.isGate : Stage → Bool | .gate .. => true | _ => false
def Stage.isRowstat : Stage → Bool | .rowstat .. => true | _ => false
/-- The stages of a chain, none where it does not decode. -/
def stagesOf (ws : List Word) : List Stage := (decodeChain ws).getD []
/-- True when a chain holds ZP_CORR. -/
def hasZp (ws : List Word) : Bool := (stagesOf ws).any Stage.isZp
/-- The GATE_MUL partner of a chain. -/
def gatePartner (ws : List Word) : Option Nat :=
  (stagesOf ws).findSome? fun | .gate p .. => some p | _ => none

/-- True for an integer tile (W4, W8). -/
def isIntMode (et : Nat) : Bool := et == etInt4 || et == etInt8
/-- The mode of an array by its weights' element type, FP8 types being one mode (R62): 0 W4, 1 W8,
2 FP8, 3 BF16. -/
def modeOf (et : Nat) : Nat :=
  if et = etInt4 then 0 else if et = etInt8 then 1 else if et = etBf16 then 3 else 2

/-- What a check needs to know of a tile: whether it is open, its mode, transposition, extent. -/
structure TileView where
  isOpen : Bool
  mode : Nat
  transpose : Bool
  mt : Nat
  cols : Nat
  deriving DecidableEq, Repr

/-- A CM range runs past CM at 0x5F_FFFF. -/
def pastCm (off len : Nat) : Bool := decide (len ≠ 0 ∧ cmSize < off + len)
/-- The wide accesses over a range run past CM at 0x5F_FFFF (R238). -/
def wideBad (off len : Nat) : Bool := decide (len ≠ 0 ∧ cmSize < off + ceilDiv len 512 * 512)

/-- The format checks of R112 on one stage at position i of a chain. -/
def stageFormatBad (t : TileView) (self : Nat) (partner : Nat → TileView) (i last : Nat)
    (st : Stage) : Bool :=
  match st with
  | .zpCorr => decide (i ≠ 0 ∨ 2 ≤ t.mode)
  | .cast .. => decide (i ≠ last)
  | .gate p pzp _ _ =>
    let q := partner p
    decide (p = self) || !q.isOpen || decide (q.mode ≠ t.mode ∨ q.mt ≠ t.mt) ||
      (pzp && decide (2 ≤ q.mode))
  | .clamp lo hi => (of16 lo).isNan || (of16 hi).isNan || fpLt (of16 hi) (of16 lo)
  | _ => false
/-- The range checks of R112 on one stage. -/
def stageRangeBad (t : TileView) (st : Stage) : Bool :=
  match st with
  | .bias base => wideBad (base * 64) (t.cols * 4)
  | .resid rs f32 rec pitch base =>
    (t.mt != 0 && wideBad (base * 64 + (t.mt - 1) * pitch * 64) (t.cols * (if f32 then 4 else 2))) ||
      (rs && pastCm (rec * 16) (t.mt * 16))
  | .rowstat _ _ _ rec => pastCm (rec * 16) (t.mt * 16)
  | _ => false
/-- The fault of a closing operation's chain (R112), 0 for none; an AMAX slot is bound (R40). -/
def chainFault (s : State) (ws : List Word) (t : TileView) (self : Nat)
    (partner : Nat → TileView) : Nat :=
  match decodeChain ws with
  | none => ecDescFormat
  | some sts =>
    let k := sts.length - 1
    if (sts.zipIdx.any fun p => stageFormatBad t self partner p.2 k p.1) ||
        decide (1 < (sts.filter Stage.isRowstat).length) ||
        decide (1 < (sts.filter Stage.isGate).length) ||
        decide (1 < (sts.filter Stage.isCast).length) then ecDescFormat
    else if sts.any (stageRangeBad t) then ecDescRange
    else sts.foldl (fun c st => match st with
      | .amax n => if c = 0 then s.slotFault n (fun _ => true) else c
      | _ => c) 0

/-! ### Latencies (R105, R114) -/

/-- Element type that a drain stores (R111, R117): its CAST's, else INT32 from an integer tile whose
chain holds no SCALE, else FP32. -/
def outType (sts : List Stage) (int : Bool) : Nat :=
  match sts.getLast? with
  | some (.cast et _) => et
  | _ => if int && !sts.any Stage.isScale then etInt32 else etFp32
/-- Format that a drain's CAST names; DENSE without one. -/
def outFormat (sts : List Stage) : Nat :=
  match sts.getLast? with
  | some (.cast _ f) => f
  | _ => 0
/-- Read cycles of a drain (R105). -/
def drainCycles (mt fullCols et : Nat) : Nat :=
  ceilDiv (mt * fullCols) (if et = etBf16 then 256 else 128)
/-- Latency of a stage (R114); a compressed CAST counts in `lastWriteAt`. -/
def stageLatency (fullCols et : Nat) : Stage → Nat
  | .scale .. => 2
  | .zpCorr => 2
  | .bias _ => 2
  | .act _ => 6
  | .gate _ pz ps pf => 2 + 2 * b2n pz + 2 * b2n ps + (if pf = 15 then 0 else 6)
  | .resid .. => 4
  | .clamp .. => 1
  | .rowstat mode _ _ _ =>
    (if mode = 3 then 12 else 4) + (if (if et = etBf16 then 256 else 128) < fullCols then 1 else 0)
  | .amax _ => 1
  | .cast _ f => if f = 0 then 2 else 0
/-- Extents (row0, rows, col0, cols) of the stored tiles of a drain (R317). -/
def storedTiles (mode : Nat) (transpose : Bool) (mt cols : Nat) : List (Nat × Nat × Nat × Nat) :=
  if mode = 0 ∧ transpose = false ∧ 128 < cols then [(0, mt, 0, 128), (0, mt, 128, cols - 128)]
  else if mode = 3 ∧ 128 < mt then [(0, 128, 0, cols), (128, mt - 128, 0, cols)]
  else [(0, mt, 0, cols)]
/-- Cycle of the last write of a drain (R114): for a compressed CAST, the latest the rule allows
(assumption 10, DEDUCED). -/
def lastWriteAt (d0 : Nat) (sts : List Stage) (mode : Nat) (transpose : Bool)
    (mt cols fullCols : Nat) (int : Bool) : Nat :=
  let et := outType sts int
  let lat := sts.foldl (fun a st => a + stageLatency fullCols et st) 0
  let base := d0 + drainCycles mt fullCols et - 1 + lat + 2
  if outFormat sts = 0 then base
  else
    let ld := (storedTiles mode transpose mt cols).foldl
      (fun a e => a + denseUnits et e.2.1 e.2.2.2) 0
    base + 8 + ceilDiv ld 8

/-! ### Values in a chain -/

/-- The exact value. -/
def Val.fpv : Val → Fp
  | .int v => ofInt v
  | .fp w => of32 w
/-- The FP32 value a stage operates on (R111). -/
def Val.to32 : Val → Nat
  | .int v => Sys2Proof.Machine.to32 (ofInt v)
  | .fp w => w

/-- An entry of an accumulator tile: its 32 bits. -/
def State.accWord (s : State) (n m t fullCols i j : Nat) : Nat :=
  s.rdN (accBase n m t + (i * fullCols + j) * 4) 4
/-- Store an entry of an accumulator tile. -/
def State.setAcc (s : State) (n m t fullCols i j v : Nat) : State :=
  s.wrN (accBase n m t + (i * fullCols + j) * 4) 4 v
/-- An entry as a chain value. -/
def accVal (et w : Nat) : Val := if isIntMode et then .int (sx 32 w) else .fp w

/-- Element of a list, 0 beyond it. -/
def ix (l : List Nat) (i : Nat) : Nat := l.getD i 0
/-- Integer of a list, 0 beyond it. -/
def ixi (l : List Int) (i : Nat) : Int := l.getD i 0
/-- s_w[j] of a tile (R100). -/
def AccTile.sw (t : AccTile) (j : Nat) : Nat := F.mxeWparamScale.of (t.wparam.getD j 0).toNat
/-- z_w[j] of a tile (R100); transpose tiles have none (R74). -/
def AccTile.zw (t : AccTile) (j : Nat) : Int :=
  if t.transpose then 0 else sx 8 (F.mxeWparamZp.of (t.wparam.getD j 0).toNat)
/-- The value ZP_CORR forms at 64-bit width (R52, R102, R115). -/
def zpCorrected (t : AccTile) (i j : Nat) (v : Int) : Int :=
  v - t.zw j * tabGet 0 t.rowsum i - t.latch.zp * ixi t.colacc j
/-- The SCALE factor f_j (R115). -/
def scaleFactor (t : AccTile) (useSlot useW : Bool) (imm j : Nat) : Nat :=
  let sa := slotDivisor t.latch
  let sw := of32 (t.sw j)
  let useW := useW && !t.transpose
  let base := if useSlot && useW then to32 (fpMul sa sw)
    else if useSlot then to32 sa else if useW then t.sw j else 0x3F800000
  if useSlot || useW then mul32 base imm else imm


/-- Balanced binary tree sum of FP32 values in index order, RNA at each add (R122). -/
def treeLevel : List Nat → List Nat
  | a :: b :: r => add32 a b :: treeLevel r
  | l => l
/-- The tree's levels, `fuel` of them at most. -/
def treeSumN : Nat → List Nat → Nat
  | _, [] => 0
  | _, [x] => x
  | 0, x :: _ => x
  | k + 1, l => treeSumN k (treeLevel l)
/-- The row sum of R122. -/
def treeSum (l : List Nat) : Nat := treeSumN 9 l

/-- A ROWSTAT record (R121). -/
structure RowRec where
  m : Nat
  l : Nat
  aux : Nat
  valid : Bool
  poison : Bool
  deriving DecidableEq, Repr
/-- The empty record (R121). -/
def emptyRec : RowRec := ⟨0xFF800000, 0, 0, false, false⟩
/-- A record from its 16 bytes. -/
def recOf (bs : List Byte) : RowRec :=
  let fl := fieldAt bs 12 4
  ⟨fieldAt bs 0 4, fieldAt bs 4 4, fieldAt bs 8 4, bitAt fl 0, bitAt fl 1⟩
/-- The 16 bytes of a record. -/
def recBytes (r : RowRec) : List Byte :=
  natLe 4 r.m ++ natLe 4 r.l ++ natLe 4 r.aux ++ natLe 4 (b2n r.valid + 2 * b2n r.poison)

/-- True when value x beats value y in ARGMAX or ARGMIN (R125). -/
def beats (min : Bool) (x y : Fp) : Bool :=
  if y.isNan then false else if x.isNan then true else if min then fpLt x y else fpLt y x
/-- The row's winner: its value and column; the lowest column wins a tie (R125). -/
def rowWinner (min : Bool) : Nat → List Nat → Option (Nat × Nat)
  | _, [] => none
  | j, x :: r =>
    match rowWinner min (j + 1) r with
    | none => some (x, j)
    | some (y, k) => if beats min (of32 y) (of32 x) then some (y, k) else some (x, j)

/-- One ROWSTAT update of a clean row: the new record and the values passed on (R122-R125). -/
def rowstatRow (mode colBase : Nat) (r : RowRec) (xs : List Nat) : RowRec × List Nat :=
  let e := if r.valid then r else emptyRec
  let mx := xs.foldl max32 0xFF800000
  let out := fun (q : RowRec) => ({ q with valid := true }, xs)
  match mode with
  | 0 => out { e with m := max32 e.m mx }
  | 1 => out { e with l := add32 e.l (treeSum xs) }
  | 2 => out { e with m := max32 e.m mx, l := add32 e.l (treeSum xs) }
  | 3 =>
    let m' := max32 e.m mx
    if m' = 0xFF800000 then
      if r.valid then ({ e with m := m', aux := 0x3F800000, valid := true }, xs.map fun _ => 0)
      else ({ e with m := m', l := 0, aux := 0, valid := true }, xs.map fun _ => 0)
    else
      let ps := xs.map fun x => actFn 5 (sub32 x m')
      if r.valid then
        let a := actFn 5 (sub32 e.m m')
        ({ e with m := m', l := add32 (mul32 a e.l) (treeSum ps), aux := a, valid := true }, ps)
      else ({ e with m := m', l := treeSum ps, aux := 0, valid := true }, ps)
  | _ =>
    match rowWinner (mode == 5) 0 xs with
    | none => out e
    | some (v, j) =>
      if !r.valid || beats (mode == 5) (of32 v) (of32 e.m)
      then out { e with m := v, aux := (colBase + j) % 2 ^ 32 } else out e

/-! ### One drain -/

/-- What a chain reads beside a row's own values: the tile and its partner, the partner's entries, the CM of
the core, the AMAX slots as latched, and the BIAS vectors. -/
structure DrainSrc where
  tile : AccTile
  partner : AccTile
  pentry : Nat → Nat → Nat
  cm : Nat
  lat : Nat → SlotLatch
  bias : Nat → BiasVec

/-- The latches of the AMAX slots that a chain names (R43). -/
def State.amaxLatches (s : State) (sts : List Stage) : List SlotLatch :=
  sts.filterMap fun | .amax k => some (s.latchSlot k) | _ => none
/-- A slot's latch among those of a closing operation. -/
def latchIn (ls : List SlotLatch) (k : Nat) : SlotLatch := (ls.find? fun l => l.slot == k).getD { slot := k }
/-- A BIAS vector of n columns read from CM (R115). -/
def State.biasVec (s : State) (cm n base : Nat) : BiasVec :=
  ⟨base, (List.range n).map fun j => s.rdN (cm + base * 64 + 4 * j) 4, s.anyPoison (cm + base * 64) (4 * n)⟩
/-- The bases of a chain's BIAS stages. -/
def biasBases (sts : List Stage) : List Nat := sts.filterMap fun | .bias b => some b | _ => none
/-- A BIAS vector among those read. -/
def biasIn (bs : List BiasVec) (b : Nat) : BiasVec := (bs.find? fun v => v.base == b).getD ⟨b, [], false⟩

/-- True when ZP_CORR, on the tile or on its partner, leaves the INT32 range somewhere: the tile is SAT
before any store (R55, R102). -/
def chainSat (d : DrainSrc) (sts : List Stage) (entry : Nat → Nat → Nat) : Bool :=
  let past := fun (t : AccTile) (e : Nat → Nat → Nat) => isIntMode t.etype && (List.range t.mt).any fun i =>
    (List.range d.tile.cols).any fun j => let c := zpCorrected t i j (sx 32 (e i j)); decide (satI32 c ≠ c)
  (sts.any Stage.isZp && past d.tile entry) ||
    (sts.any fun | .gate _ true _ _ => true | _ => false) && past d.partner d.pentry

/-- A row enters a chain (R127): poisoned by the vectors that made it, by a BIAS vector, by the partner's
row. -/
def rowStart (d : DrainSrc) (sts : List Stage) (cols : Nat) (entry : Nat → Nat → Nat) (i : Nat) : RowRun :=
  { row := i, next := 0, vs := (List.range cols).map fun j => accVal d.tile.etype (entry i j),
    poison := d.tile.poison.contains i || sts.any fun
      | .bias b => (d.bias b).poison
      | .gate .. => d.partner.poison.contains i
      | _ => false,
    recAt := none, amax := [], nans := [] }
/-- An operand poisons a row (R127): a record that the row has already updated returns to what it was,
with POISON. -/
def poisonRow (s : State) (r : RowRun) : State × RowRun :=
  (match r.recAt with
    | some (a, old) => s.wr a (recBytes { recOf old with poison := true })
    | none => s, { r with poison := true, recAt := none })

/-- One stage on a row (R115-R125). A poisoned row passes ROWSTAT with its values unchanged (assumption 158,
DESIGN CHOICE). -/
def stageRow (d : DrainSrc) (st : Stage) (s : State) (r : RowRun) : State × RowRun :=
  let i := r.row
  let each := fun (f : Nat → Val → Val) => { r with vs := r.vs.zipIdx.map fun q => f q.2 q.1 }
  match st with
  | .zpCorr => (s, each fun j v => match v with
      | .int v => .int (satI32 (zpCorrected d.tile i j v))
      | v => v)
  | .scale us uw imm =>
    (s, each fun j v => .fp (to32 (fpMul v.fpv (of32 (scaleFactor d.tile us uw imm j)))))
  | .bias base =>
    let b := d.bias base
    (s, each fun j v => .fp (add32 v.to32 (ix b.ws j)))
  | .act f => (s, each fun _ v => .fp (actFn f v.to32))
  | .gate _ pzp pscale pf =>
    (s, each fun j v =>
      let g := match accVal d.partner.etype (d.pentry i j) with
        | .int v => Val.int (satI32 (if pzp then zpCorrected d.partner i j v else v))
        | g => g
      let g := if pscale then to32 (fpMul g.fpv (of32 (scaleFactor d.partner true true 0x3F800000 j)))
        else g.to32
      .fp (mul32 v.to32 (if pf = 15 then g else actFn pf g)))
  | .resid rs f32 rec pitch base =>
    let at_ := d.cm + base * 64 + i * pitch * 64
    let sz := if f32 then 4 else 2
    let q := recOf (s.rd (d.cm + rec * 16 + i * 16) 16)
    let skip := rs && (of32 q.aux).isZero
    let add := fun (j : Nat) (v : Val) =>
      let w := s.rdN (at_ + sz * j) sz
      let x := if f32 then w else w * 65536
      let x := if skip then 0 else if rs then mul32 q.aux x else x
      Val.fp (add32 v.to32 x)
    let r1 := each add
    if (rs && q.poison) || (!skip && s.anyPoison at_ (sz * r.vs.length)) then poisonRow s r1 else (s, r1)
  | .clamp lo hi =>
    (s, each fun _ v => .fp (to32 (if v.fpv.isNan then .nan
      else fpMin (fpMax (of32 v.to32) (of16 lo)) (of16 hi))))
  | .rowstat mode init colBase rec =>
    let a := d.cm + rec * 16 + i * 16
    let bs := s.rd a 16
    let old := recOf bs
    if r.poison then (s.wr a (recBytes { old with poison := true }), r)
    else
      let (q, ws) := rowstatRow mode colBase (if init then emptyRec else old) (r.vs.map Val.to32)
      (s.wr a (recBytes q), { r with vs := ws.map Val.fp, recAt := some (a, bs) })
  | .amax slot =>
    let xs := r.vs.map fun v => of32 v.to32
    (s, { r with
      vs := r.vs.map fun v => .fp v.to32
      amax := (statMax (statCenter (d.lat slot)) xs).toList.map (fun a => (slot, a)) ++ r.amax
      nans := if xs.any Fp.special then slot :: r.nans else r.nans })
  | .cast et _ => (s, each fun _ v => .fp (if et = etBf16 then to16 (of32 v.to32) * 65536 else v.to32))
/-- A row comes through the stages from its next one up to stage k. -/
def stagesTo (d : DrainSrc) (sts : List Stage) (k : Nat) (s : State) (r : RowRun) : State × RowRun :=
  let q := ((sts.take (k + 1)).drop r.next).foldl (fun p st => stageRow d st p.1 p.2) (s, r)
  (q.1, { q.2 with next := max r.next (k + 1) })

/-- The pattern a drain stores of a value, of the output type (R111, R117). -/
def outPattern (et : Nat) : Val → Nat
  | .int v => if et = etInt32 then ux 32 v else fpElem et (ofInt v)
  | .fp w => if et = etBf16 then w / 65536 else if et = etFp32 then w else fpElem et (of32 w)

/-- A row that left a chain: its stored patterns, and whether it is poisoned. -/
def RowRun.out (et : Nat) (r : RowRun) : List Nat × Bool := (r.vs.map (outPattern et), r.poison)
/-- What a row gives the statistics: nothing when it is poisoned (R127). -/
def RowRun.stats (r : RowRun) : List (Nat × Nat) × List Nat := if r.poison then ([], []) else (r.amax, r.nans)
/-- Results of rows that went through a chain: the state, the statistics, the rows. -/
structure DrainRun where
  s : State
  amax : List (Nat × Nat)
  nanSlots : List Nat
  rows : List (List Nat × Bool)
/-- All rows of a tile through a chain at once, in order. -/
def drainRows (d : DrainSrc) (sts : List Stage) (et cols : Nat) (entry : Nat → Nat → Nat) (s : State) : DrainRun :=
  (List.range d.tile.mt).foldl (fun r i =>
    let (s, q) := stagesTo d sts sts.length r.s (rowStart d sts cols entry i)
    let st := q.stats
    ⟨s, st.1 ++ r.amax, st.2 ++ r.nanSlots, r.rows ++ [q.out et]⟩) ⟨s, [], [], []⟩

/-- A stored tile of a drain as writes from `dst` (R127, R140, R168, R317): a tile with a poisoned row is
stored DENSE, its header formed from the values and clean, that row's units poisoned, and the rows outside
the extent empty. -/
def drainTile (et fmt z dst : Nat) (part : List (List Nat × Bool)) (nr nc : Nat) : List WrOp :=
  let vals := part.map Prod.fst
  if part.any Prod.snd then
    let bs := denseTile et z nr nc vals
    let k := denseRowBytes et nc
    [⟨dst, bs.take 64, false⟩] ++
      (part.zipIdx.map fun r => ⟨dst + 64 + r.2 * k, sub bs (64 + r.2 * k) k, r.1.2⟩) ++
      [⟨dst + 64 + nr * k, bs.drop (64 + nr * k), false⟩]
  else [⟨dst, if z = 0 then encodeTile fmt et nr nc vals else encodeTileZ fmt et z nr nc vals, false⟩]
/-- The stored tiles of a drain as writes from `dst`. -/
def drainWrites (et fmt : Nat) (rows : List (List Nat × Bool)) :
    Nat → List (Nat × Nat × Nat × Nat) → List WrOp
  | _, [] => []
  | dst, (r0, nr, c0, nc) :: rest =>
    let ws := drainTile et fmt 0 dst (((rows.drop r0).take nr).map fun r => ((r.1.drop c0).take nc, r.2)) nr nc
    ws ++ drainWrites et fmt rows (ws.foldl (fun a w => max a (w.a + ceilDiv w.bs.length 64 * 64)) dst) rest
/-- Where a row of a DENSE drain goes (R105, R317): its part of each stored tile, from `dst` on. -/
def rowWrites (et i : Nat) (row : List Nat × Bool) : Nat → List (Nat × Nat × Nat × Nat) → List WrOp
  | _, [] => []
  | dst, (r0, nr, c0, nc) :: rest =>
    (if r0 ≤ i ∧ i < r0 + nr
      then [⟨dst + 64 + (i - r0) * denseRowBytes et nc, denseRow et ((row.1.drop c0).take nc), row.2⟩] else []) ++
      rowWrites et i row (dst + 64 * denseUnits et nr nc) rest

/-! ### A drain in time (R105, R114, R120, R542) -/

/-- The stages of a drain: in a gang, a member's ROWSTAT counts its columns from its place in the gang, and
only the lead's INIT empties the records (R122). -/
def DrainOp.stages (d : DrainOp) : List Stage :=
  (stagesOf d.info.chain).map fun
    | .rowstat a b c e => .rowstat a (b && d.first) (c + d.base) e
    | st => st
/-- Element type that a drain stores. -/
def DrainOp.etype (d : DrainOp) : Nat := outType (stagesOf d.info.chain) (isIntMode d.self.etype)
/-- Stored tiles of a drain. -/
def DrainOp.tiles (d : DrainOp) : List (Nat × Nat × Nat × Nat) :=
  if d.self.mt = 0 then [] else storedTiles (modeOf d.self.etype) d.self.transpose d.self.mt d.self.cols
/-- What a drain's chain reads. -/
def DrainOp.src (n : Nat) (d : DrainOp) : DrainSrc :=
  ⟨d.self, d.other, fun i j => ix (d.pents.getD i []) j, coreBase n, latchIn d.info.amax, biasIn d.bias⟩
/-- Entry (i, j) of a drain's tile. -/
def DrainOp.entry (d : DrainOp) (i j : Nat) : Nat := ix (d.ents.getD i []) j
/-- Cycle in which row i of a drain enters the stage whose stages before it take `lat` cycles. -/
def enterAt (d0 fullCols et i lat : Nat) : Nat := d0 + i * fullCols / (if et = etBf16 then 256 else 128) + lat
/-- The moments of a row in a chain: an operand is read as the row enters its stage, a record is updated as
the row leaves ROWSTAT (assumption 56, DESIGN CHOICE), and the row is written two cycles after the last
stage (R114, R542). -/
def rowEvents (fullCols et d0 i : Nat) : Nat → Nat → List Stage → List DrainEv
  | k, lat, [] => [⟨enterAt d0 fullCols et i (lat + 2), i, k⟩]
  | k, lat, st :: rest =>
    let l := stageLatency fullCols et st
    (match st with
      | .resid .. => [⟨enterAt d0 fullCols et i lat, i, k⟩]
      | .rowstat .. => [⟨enterAt d0 fullCols et i (lat + l), i, k⟩]
      | _ => []) ++ rowEvents fullCols et d0 i (k + 1) (lat + l) rest

/-- The moments of a drain. -/
def drainEvents (sts : List Stage) (mt fullCols et d0 last : Nat) : List DrainEv :=
  ((List.range mt).flatMap fun i => rowEvents fullCols et d0 i 0 0 sts) ++ [⟨last, mt, sts.length⟩]
/-- What a DENSE drain writes beside its rows, once it has them all: each stored tile's header, formed from
the values (R168), and the rows outside the extent, which hold zero (R132). -/
def denseEnds (et : Nat) (rows : List (List Nat × Bool)) :
    Nat → List (Nat × Nat × Nat × Nat) → List WrOp
  | _, [] => []
  | dst, (r0, nr, c0, nc) :: rest =>
    let bs := encodeTile fmtDense et nr nc (((rows.drop r0).take nr).map fun r => (r.1.drop c0).take nc)
    let k := 64 + nr * denseRowBytes et nc
    [⟨dst, bs.take 64, false⟩, ⟨dst + k, bs.drop k, false⟩] ++
      denseEnds et rows (dst + 64 * denseUnits et nr nc) rest
/-- A moment of drain k of an MXE: a row comes through its stages, or leaves the chain and is written where
its chain stores DENSE; at the end the headers, or the compressed tiles, are written (R114, R117). -/
def drainMoment (n m k : Nat) (e : DrainEv) (s : State) : State :=
  match (s.mxe n m).drains[k]? with
  | none => s
  | some d =>
    let sts := d.stages
    let et := d.etype
    let dst := coreBase n + d.info.dst * 64
    let put := fun (s : State) (d : DrainOp) => s.modMxe n m fun x => { x with drains := x.drains.set k d }
    if d.self.mt ≤ e.row then
      s.doIf (!d.muted) fun s => s.wrOps
        (if outFormat sts = 0 then denseEnds et d.rows dst d.tiles else drainWrites et (outFormat sts) d.rows dst d.tiles)
    else
      let r := (d.live.find? fun r => r.row == e.row).getD (rowStart (d.src n) sts d.self.cols d.entry e.row)
      let (s1, r) := stagesTo (d.src n) sts e.stage s r
      let s := if d.muted then s else s1
      let live := d.live.filter fun r => r.row != e.row
      if e.stage < sts.length then put s { d with live := r :: live }
      else
        let st := r.stats
        let s := s.doIf (!d.muted && outFormat sts == 0) fun s =>
          s.wrOps (rowWrites et e.row (r.out et) dst d.tiles)
        put s { d with live := live, rows := d.rows ++ [r.out et], amax := st.1 ++ d.amax,
                       nanSlots := st.2 ++ d.nanSlots, poison := d.poison || r.poison }

end Sys2Proof.Machine
end

