-- ==== Sys2Proof/Machine/Operands.lean ====
section
/-! DEFINITION. Operand forms of the bundle slots (spec/10): scalar and vector registers with their
poison bits, register interlocks, CM operands, task contexts, context faults (R300) and whole-core
stalls (R339), the bundle's slot words decoded to their fields. -/

namespace Sys2Proof.Machine

/-! ### Scalar registers (R302) -/

/-- s_i of a context; s0 reads 0. -/
def State.sreg (s : State) (n c i : Nat) : Nat := if i = 0 then 0 else s.word (.tctxReg n c i)
/-- Poison bit of s_i. -/
def State.spoison (s : State) (n c i : Nat) : Bool :=
  i != 0 && bitAt (s.word (.tctxPoison n c)) i
/-- Write s_i with its poison bit; writes to s0 are discarded. -/
def State.setSreg (s : State) (n c i v : Nat) (p : Bool) : State :=
  if i = 0 then s
  else
    let w := s.word (.tctxPoison n c)
    (s.setWord (.tctxReg n c i) v).setWord (.tctxPoison n c) (withBits w i i (b2n p))
/-- IMM sign-extended to 64 bits (R305). -/
def immSx (imm : BitVec 32) : Nat := ux 64 (sx 32 imm.toNat)
/-- Sum modulo 2^64. -/
def add64 (a b : Nat) : Nat := (a + b) % 2 ^ 64
/-- s[RS1] + IMM as an address (R305). -/
def State.scAddr (s : State) (n c : Nat) (a : ScArgs) : Nat :=
  add64 (s.sreg n c a.rs1.toNat) (immSx a.imm)

/-- The register an operation in flight will write. -/
def SlowOp.writes (o : SlowOp) (c i cyc : Nat) : Bool :=
  match o with
  | .reg due c' rd _ _ => decide (c' = c ∧ rd = i ∧ cyc < due)
  | .csrr due c' rd _ => decide (c' = c ∧ rd = i ∧ cyc < due)
  | .csrw .. => false
  | .cmw .. => false
/-- True while an earlier operation has not yet written s_i (R302). -/
def State.regBusy (s : State) (n c i : Nat) : Bool :=
  i != 0 && ((s.core n).slow.any (fun o => o.writes c i (s.cyc n)) ||
    (s.core n).far.any fun f => decide (f.ctx = c ∧ f.rd = i))
/-- A result of fixed latency: written k cycles after issue (R337). -/
def State.later (s : State) (n c rd v : Nat) (p : Bool) (k : Nat) : State :=
  if rd = 0 then s
  else if k ≤ 1 then s.setSreg n c rd v p
  else s.modCore n fun x =>
    { x with slow := x.slow ++ [.reg (s.cyc n + k) c rd (BitVec.ofNat 64 v) p] }

/-! ### Vector registers (R303) -/

/-- Lane l of vector register v. -/
def State.vlane (s : State) (n v l : Nat) : Nat := (tabGet 0 (s.core n).vregs (v * 128 + l)).toNat
/-- The 128 lane words of vector register v. -/
def State.vreg (s : State) (n v : Nat) : List Nat := (List.range 128).map (s.vlane n v)
/-- The eight poison bits of vector register v, one per 64-byte unit. -/
def State.vpois (s : State) (n v : Nat) : List Bool :=
  (List.range 8).map fun u => tabGet false (s.core n).vpoison (v * 8 + u)
/-- A vector write reaches its register. -/
def setVreg (w : VecWrite) (c : Core) : Core :=
  { c with
    vregs := w.lanes.zipIdx.foldl (fun t q =>
      let a := w.v * 128 + w.first + q.2
      tabSet t a ((tabGet 0 t a &&& ~~~w.mask) ||| (q.1 &&& w.mask))) c.vregs
    vpoison := w.poison.foldl (fun t q => tabSet t (w.v * 8 + q.unit) q.bit) c.vpoison }
/-- Vector results whose latency has passed reach their registers, in order of issue (R303). -/
def State.landVec (s : State) (n : Nat) : State :=
  let t := s.cyc n
  s.doIf ((s.core n).vpend.any fun w => decide (w.due ≤ t)) fun s => s.modCore n fun c =>
    let c' := (c.vpend.filter fun w => decide (w.due ≤ t)).foldl
      (fun c w => setVreg w c) c
    { c' with vpend := c.vpend.filter fun w => decide (t < w.due) }

/-! ### Contexts (R331) -/

/-- State codes of R331. -/
def ctxIdle : Nat := 0
def ctxReady : Nat := 1
def ctxRunning : Nat := 2
def ctxWaiting : Nat := 3
def ctxFaulted : Nat := 4
/-- State of a context. -/
def State.ctx (s : State) (n c : Nat) : Nat := s.fld (.tctxStat n c) F.tctxStatState
/-- Set the state of a context. -/
def State.setCtx (s : State) (n c st : Nat) : State := s.setFld (.tctxStat n c) F.tctxStatState st
/-- True for a context that is READY, RUNNING or WAITING. -/
def State.ctxLive (s : State) (n c : Nat) : Bool :=
  let st := s.ctx n c
  st == ctxReady || st == ctxRunning || st == ctxWaiting
/-- PC of a context. -/
def State.pc (s : State) (n c : Nat) : Nat := s.fld (.tctxPc n c) F.tctxPcPc
/-- True when a bundle number lies in the code range of a context. -/
def State.inCode (s : State) (n c p : Nat) : Bool :=
  let b := s.fld (.tctxCode n c) F.tctxCodeBase
  decide (b ≤ p ∧ p < b + s.fld (.tctxCode n c) F.tctxCodeLen)
/-- CONTEXT word of an error record (R483). -/
def ctxWord (pc c : Nat) : Nat := pc + c * 2048 + 2 ^ 15
/-- Error record of a core's unit with its context (R300, R301). -/
def State.coreErr (s : State) (n c unit code : Nat) (addr : Nat) (d : List (Nat × Nat × Nat)) :
    State :=
  s.raise { src := srcOf 1 n unit, code := code, addr := addr, context := ctxWord (s.pc n c) c,
            detail := d }
/-- A context stops at a bundle (R246, R300): it is FAULTED and its STAT says where. No bundle issues
until no context is FAULTED. -/
def State.markFault (s : State) (n c slot code : Nat) : State :=
  let pc := s.pc n c
  let s := s.setCtx n c ctxFaulted
  let s := s.setFld (.tctxStat n c) F.tctxStatCode code
  let s := s.setFld (.tctxStat n c) F.tctxStatFslot slot
  let s := s.setFld (.tctxStat n c) F.tctxStatFpc pc
  s.modCore n fun x =>
    { x with running := if x.running = some c then none else x.running, stall := none, rep := 0 }
/-- A bundle of context c fails decode in a slot (R300): the context is FAULTED, and an error record is
written. -/
def State.faultCtx (s : State) (n c slot code : Nat) (d : List (Nat × Nat × Nat)) : State :=
  (s.markFault n c slot code).coreErr n c slot code 0 d

/-! ### Stalls (R339) -/

/-- Causes of a whole-core stall at issue, by the counter that counts it (R339). -/
def stReg : Nat := 1
def stQueue : Nat := 2
def stCfg : Nat := 3
def stAcc : Nat := 4
def stFeeder (m : Nat) : Nat := 5 + m
def stCfgWrite : Nat := 9
/-- The stall ends: its cycles go to the counter of its cause (R339). -/
def State.stallOff (s : State) (n : Nat) : State :=
  match (s.core n).stall with
  | none => s
  | some st =>
    let k := s.cyc n - st.sinceCyc
    let s := s.modCore n fun x => { x with stall := none }
    if st.cause = stReg then s.bump (.scStallCnt n) F.scStallCntReg k
    else if st.cause = stQueue then s.bump (.scStallCnt n) F.scStallCntQueue k
    else if st.cause = stCfg ∨ st.cause = stCfgWrite then s.bump (.scStallCnt n) F.scStallCntCfg k
    else if st.cause = stAcc then s.bump (.scAccInterlock n) F.scAccInterlockCycles k
    else s.bump (.mxeSpfStat n (st.cause - 5)) F.mxeSpfStatQfull k
/-- Issue is held for a cause: the stall is recorded from its first cycle on; a stall for another
cause ends. -/
def State.stallOn (s : State) (n c cause : Nat) : State :=
  if (s.core n).stall.any (fun st => st.cause == cause) then s
  else
    let s := s.stallOff n
    s.modCore n fun x => { x with stall := some ⟨cause, c, s.cyc n, s.now, false⟩ }

/-! ### CM operands (R238, R306) -/

/-- Bytes of CM of a core at an offset. -/
def State.cm (s : State) (n off len : Nat) : List Byte := s.rd (coreBase n + off) len
/-- Little-endian value of bytes of CM. -/
def State.cmN (s : State) (n off len : Nat) : Nat := leNat (s.cm n off len)
/-- Poison of any unit of a CM range. -/
def State.cmPoison (s : State) (n off len : Nat) : Bool := s.anyPoison (coreBase n + off) len

/-! ### Slot words (R305, R318, R324, R327, R329) -/

/-- Fields of an SC slot word (R305). -/
def scOf (w : Nat) : ScArgs :=
  { rd := BitVec.ofNat 5 (bitsOf w 55 51), rs1 := BitVec.ofNat 5 (bitsOf w 50 46),
    rs2 := BitVec.ofNat 5 (bitsOf w 45 41), fn := BitVec.ofNat 9 (bitsOf w 40 32),
    imm := BitVec.ofNat 32 (bitsOf w 31 0) }
/-- The SC slot word of an opcode and its fields (R305). -/
def scWord (opc : Nat) (a : ScArgs) : Nat :=
  opc * 2 ^ 56 + a.rd.toNat * 2 ^ 51 + a.rs1.toNat * 2 ^ 46 + a.rs2.toNat * 2 ^ 41 +
  a.fn.toNat * 2 ^ 32 + a.imm.toNat
/-- An operation of an MX slot (R318). -/
inductive MxOp where
  | nop
  | fill (a : FillArgs)
  | wload (a : WloadArgs)
  | pass (a : PassArgs)
  | spass (a : SpassArgs)
  | drain (a : DrainArgs)
  | discard (tile : Fin 8)
  deriving DecidableEq, Repr
/-- An MX slot word decoded; `none` where it holds a reserved opcode or a non-zero reserved bit. -/
def mxOf (w : Nat) : Option MxOp :=
  let z := fun (hi lo : Nat) => bitsOf w hi lo == 0
  match bitsOf w 63 56 with
  | 0 => if z 55 0 then some .nop else none
  | 1 => if z 5 0 then some (.fill
      { dk := bitAt w 55, set := Fin.ofNat 4 (bitsOf w 54 53), aboff := BitVec.ofNat 12 (bitsOf w 52 41),
        src := BitVec.ofNat 17 (bitsOf w 40 24), len := BitVec.ofNat 16 (bitsOf w 23 8),
        part := BitVec.ofNat 2 (bitsOf w 7 6) }) else none
  | 2 => if z 28 0 then some (.wload
      { set := Fin.ofNat 4 (bitsOf w 55 54), n := BitVec.ofNat 8 (bitsOf w 53 46),
        param := BitVec.ofNat 17 (bitsOf w 45 29) }) else none
  | 3 => if z 6 0 then some (.pass
      { aboff := BitVec.ofNat 12 (bitsOf w 55 44), m := BitVec.ofNat 9 (bitsOf w 43 35),
        tile := Fin.ofNat 8 (bitsOf w 34 32), row0 := BitVec.ofNat 8 (bitsOf w 31 24),
        close := bitAt w 23, chain := Fin.ofNat 4 (bitsOf w 22 21),
        xreg := BitVec.ofNat 5 (bitsOf w 20 16), kh := bitAt w 15,
        arow := BitVec.ofNat 7 (bitsOf w 14 8), switch := bitAt w 7 }) else none
  | 4 => if z 1 0 then some (.spass
      { list := BitVec.ofNat 17 (bitsOf w 55 39), count := BitVec.ofNat 9 (bitsOf w 38 30),
        m := BitVec.ofNat 9 (bitsOf w 29 21), tile := Fin.ofNat 8 (bitsOf w 20 18),
        close := bitAt w 17, chain := Fin.ofNat 4 (bitsOf w 16 15),
        xreg := BitVec.ofNat 5 (bitsOf w 14 10), row0 := BitVec.ofNat 8 (bitsOf w 9 2) }) else none
  | 5 =>
    if z 55 35 ∧ z 31 23 ∧ z 15 0 then some (.drain
      { tile := Fin.ofNat 8 (bitsOf w 34 32), chain := Fin.ofNat 4 (bitsOf w 22 21),
        xreg := BitVec.ofNat 5 (bitsOf w 20 16) }) else none
  | 6 => if z 55 35 ∧ z 31 0 then some (.discard (Fin.ofNat 8 (bitsOf w 34 32))) else none
  | _ => none
/-- The MX slot word of an operation (R318). -/
def mxWord : MxOp → Nat
  | .nop => 0
  | .fill a => 1 * 2 ^ 56 + b2n a.dk * 2 ^ 55 + a.set.val * 2 ^ 53 + a.aboff.toNat * 2 ^ 41 +
      a.src.toNat * 2 ^ 24 + a.len.toNat * 2 ^ 8 + a.part.toNat * 2 ^ 6
  | .wload a => 2 * 2 ^ 56 + a.set.val * 2 ^ 54 + a.n.toNat * 2 ^ 46 + a.param.toNat * 2 ^ 29
  | .pass a => 3 * 2 ^ 56 + a.aboff.toNat * 2 ^ 44 + a.m.toNat * 2 ^ 35 + a.tile.val * 2 ^ 32 +
      a.row0.toNat * 2 ^ 24 + b2n a.close * 2 ^ 23 + a.chain.val * 2 ^ 21 + a.xreg.toNat * 2 ^ 16 +
      b2n a.kh * 2 ^ 15 + a.arow.toNat * 2 ^ 8 + b2n a.switch * 2 ^ 7
  | .spass a => 4 * 2 ^ 56 + a.list.toNat * 2 ^ 39 + a.count.toNat * 2 ^ 30 + a.m.toNat * 2 ^ 21 +
      a.tile.val * 2 ^ 18 + b2n a.close * 2 ^ 17 + a.chain.val * 2 ^ 15 + a.xreg.toNat * 2 ^ 10 +
      a.row0.toNat * 2 ^ 2
  | .drain a => 5 * 2 ^ 56 + a.tile.val * 2 ^ 32 + a.chain.val * 2 ^ 21 + a.xreg.toNat * 2 ^ 16
  | .discard t => 6 * 2 ^ 56 + t.val * 2 ^ 32
/-- Fields of a VX slot word (R324). -/
def vxOf (w : Nat) : VxArgs :=
  { vd := BitVec.ofNat 6 (bitsOf w 55 50), va := BitVec.ofNat 6 (bitsOf w 49 44),
    vb := BitVec.ofNat 6 (bitsOf w 43 38), vc := BitVec.ofNat 6 (bitsOf w 37 32),
    t := BitVec.ofNat 2 (bitsOf w 31 30), rs := BitVec.ofNat 5 (bitsOf w 29 25),
    imm := BitVec.ofNat 25 (bitsOf w 24 0) }
/-- The VX slot word of an opcode and its fields (R324). -/
def vxWord (opc : Nat) (a : VxArgs) : Nat :=
  opc * 2 ^ 56 + a.vd.toNat * 2 ^ 50 + a.va.toNat * 2 ^ 44 + a.vb.toNat * 2 ^ 38 +
  a.vc.toNat * 2 ^ 32 + a.t.toNat * 2 ^ 30 + a.rs.toNat * 2 ^ 25 + a.imm.toNat
/-- Fields of an ST slot word (R329). -/
def stOf (w : Nat) : StArgs :=
  { q := Fin.ofNat 16 (bitsOf w 55 52), ir := Fin.ofNat 4 (bitsOf w 51 50),
    rs := BitVec.ofNat 5 (bitsOf w 49 45), stk := Fin.ofNat 8 (bitsOf w 44 42),
    off := BitVec.ofNat 18 (bitsOf w 41 24), event := Fin.ofNat 64 (bitsOf w 23 18),
    en := bitAt w 17 }
/-- The ST slot word of an opcode and its fields (R329). -/
def stWord (opc : Nat) (a : StArgs) : Nat :=
  opc * 2 ^ 56 + a.q.val * 2 ^ 52 + a.ir.val * 2 ^ 50 + a.rs.toNat * 2 ^ 45 + a.stk.val * 2 ^ 42 +
  a.off.toNat * 2 ^ 24 + a.event.val * 2 ^ 18 + b2n a.en * 2 ^ 17

/-- The fields of XREG (R317); `none` with a non-zero reserved bit. -/
structure Xreg where
  evEn : Bool
  event : Nat
  dst : Nat
  slot : Nat
  deriving DecidableEq, Repr
/-- XREG decoded (R317). -/
def xregOf (v : Nat) : Option Xreg :=
  if bitsOf v 63 39 = 0 ∧ bitsOf v 31 29 = 0
  then some ⟨bitAt v 38, bitsOf v 37 32, bitsOf v 28 12, bitsOf v 11 0⟩ else none

end Sys2Proof.Machine
end

