-- ==== Sys2Proof/Machine/Shadow.lean ====
section
/-! DEFINITION. The slot-state shadow of validation mode (spec/08, R245, R246, R248): its units, the
footprints of operations on them, and the rules that an access may break. -/

namespace Sys2Proof.Machine

/-- Units of the shadow. -/
def shadowUnits : Nat := 14352
/-- Lines of a CM range. -/
def cmUnits (off len : Nat) : List Nat :=
  if len = 0 then [] else (List.range ((off + len - 1) / 512 - off / 512 + 1)).map (· + off / 512)
/-- Lines of an AB range of an MXE. -/
def abUnits (m off len : Nat) : List Nat := (cmUnits off len).map (· + 12288 + m * 512)
/-- The unit of a WS set. -/
def wsUnit (m set : Nat) : Nat := 14336 + m * 4 + set
/-- A unit an operation will touch: the unit, whether it writes it, and the first and last cycle in
which it does. -/
structure Foot where
  unit : Nat
  write : Bool
  first : Nat
  last : Nat
  deriving DecidableEq, Repr
/-- The operation that issued in a slot in a cycle, by a number of its own. -/
def opId (cyc slot : Nat) : Nat := cyc * 8 + slot
/-- The drain that an operation closes a tile for, by a number of its own. -/
def drainId (cyc slot : Nat) : Nat := 2 ^ 61 + opId cyc slot
/-- A background access, by a number of its own. -/
def bgId (since off : Nat) : Nat := 2 ^ 62 + since * 2 ^ 23 + off
/-- A last cycle for an operation whose end is not known at issue (R338). -/
def laterCyc : Nat := 2 ^ 62
/-- The shadow entry of a unit. -/
def Core.shadowOf (c : Core) (u : Nat) : ShadowEnt := tabGet ⟨c.valid, []⟩ c.shadow u
/-- True while the core runs in validation mode. -/
def State.vmode (s : State) (n : Nat) : Bool := s.bit (.cmcStatus n) F.cmcStatusVmode
/-- A unit is VALID in a cycle: each write completed by then has set it (R245). -/
def ShadowEnt.validAt (e : ShadowEnt) (t : Nat) : Bool := e.valid || e.uses.any fun u => u.write && decide (u.last < t)
/-- The rule that an access breaks (R245): its KIND, 0 for none, and the earlier operation's PC. -/
def shadowKind (e : ShadowEnt) (f : Foot) : Nat × Nat :=
  if f.write then
    match e.uses.find? fun u => !u.write && decide (f.first ≤ u.last) with
    | some u => (3, u.pc)
    | none => (0, 0)
  else if !e.validAt f.first then (1, ((e.uses.find? ShadowUse.write).map ShadowUse.pc).getD 0)
  else match e.uses.find? fun u => u.write && decide (f.first ≤ u.last) with
    | some u => (2, u.pc)
    | none => (0, 0)
/-- The entry of a unit before an operation's own footprints: those of the operations issued before it. -/
def ShadowEnt.before (e : ShadowEnt) (id : Nat) : ShadowEnt := { e with uses := e.uses.takeWhile fun u => u.id != id }
/-- The entry with one more footprint, as of cycle t: what has ended leaves VALID behind. -/
def shadowNote (e : ShadowEnt) (t id pc : Nat) (f : Foot) : ShadowEnt :=
  ⟨e.validAt t, (e.uses.filter fun u => decide (t ≤ u.last)) ++ [⟨id, f.write, f.last, pc⟩]⟩
/-- The first footprint that breaks a rule: unit, KIND, earlier PC. -/
def shadowCheck (c : Core) (fs : List Foot) : Option (Nat × Nat × Nat) :=
  fs.findSome? fun f =>
    match shadowKind (c.shadowOf f.unit) f with
    | (0, _) => none
    | (k, pc) => some (f.unit, k, pc)
/-- The same for an operation whose footprints are declared already. -/
def shadowCheckOwn (c : Core) (id : Nat) (fs : List Foot) : Option (Nat × Nat × Nat) :=
  fs.findSome? fun f =>
    match shadowKind ((c.shadowOf f.unit).before id) f with
    | (0, _) => none
    | (k, pc) => some (f.unit, k, pc)
/-- The footprints of one direction that an operation has declared and not yet ended, as of a cycle. -/
def Core.ownFeet (c : Core) (id : Nat) (write : Bool) (t : Nat) : List Foot :=
  (c.shadow.filter fun e => e.2.uses.any fun u => u.id == id && u.write == write && decide (t ≤ u.last)).map fun e =>
    ⟨e.1, write, t, t⟩
/-- The footprints of an operation are pending from now on. -/
def State.shadowAdd (s : State) (n id pc : Nat) (fs : List Foot) : State :=
  let t := s.cyc n
  s.modCore n fun c => fs.foldl (fun c f =>
    { c with shadow := tabSet c.shadow f.unit (shadowNote (c.shadowOf f.unit) t id pc f) }) c
/-- An operation's footprints of one direction end with cycle t. -/
def ShadowEnt.close (e : ShadowEnt) (id : Nat) (write : Bool) (t : Nat) : ShadowEnt :=
  { e with uses := e.uses.map fun u => if u.id = id ∧ u.write = write ∧ t < u.last then { u with last := t } else u }
/-- An operation has performed its last access of one direction in cycle t. -/
def State.shadowDone (s : State) (n id : Nat) (write : Bool) (t : Nat) : State :=
  if s.vmode n then s.modCore n fun c =>
    { c with shadow := c.shadow.map fun e => (e.1, e.2.close id write t) }
  else s
/-- A suppressed or failed operation leaves its units as they were. -/
def State.shadowDrop (s : State) (n id : Nat) : State :=
  if s.vmode n then s.modCore n fun c =>
    { c with shadow := c.shadow.map fun e => (e.1, { e.2 with uses := e.2.uses.filter fun u => u.id != id }) }
  else s
/-- SLOT_ORDER (R246): the record, and CMC_SHADOW_ERR. -/
def State.slotOrder (s : State) (n unit kind pc1 req ctx : Nat) : State :=
  let s := s.setFld (.cmcShadowErr n) F.cmcShadowErrUnit unit
  let s := s.setFld (.cmcShadowErr n) F.cmcShadowErrKind kind
  s.raise
    { src := srcOf 1 n 8, code := ecSlotOrder, context := ctx,
      detail := [(32, 2, unit), (34, 1, kind), (36, 2, pc1), (38, 1, req)] }
/-- CMC_SHADOW_INV (R248): VALID is cleared in COUNT units from FIRST on, and a write that is pending sets it
again when it completes; no effect in service mode. -/
def shadowInv (n first count : Nat) (s : State) : State :=
  if s.vmode n = false then s
  else if shadowUnits < first + count then
    s.refuseWrite (srcOf 1 n 8) (regAddr (.cmcShadowInv n)) (count * 2 ^ 48 + first) ecDescRange
  else
    let t := s.cyc n
    s.modCore n fun c => (List.range count).foldl (fun c i =>
      let e := c.shadowOf (first + i)
      let f : ShadowEnt := ⟨false, e.uses.filter fun u => decide (t ≤ u.last)⟩
      { c with shadow := tabSet c.shadow (first + i) f }) c

end Sys2Proof.Machine
end

