-- ==== Sys2Proof/Machine/Land.lean ====
section
/-! DEFINITION. What lands in core memory as time passes (R105, R114, R324, R337, R542): stores on their way,
the rows of drains, the reads of fills and of Fife, and background accesses (R240), in order of cycle. -/

namespace Sys2Proof.Machine

/-- The cycle in which a CM write on its way lands: `none` for the other operations. -/
def SlowOp.cmDue : SlowOp → Option Nat
  | .cmw due .. => some due
  | _ => none
/-- 64 words of a parameter block at a CM offset. -/
def State.paramSpan (s : State) (n off : Nat) : List Word :=
  (List.range 64).map fun j => BitVec.ofNat 64 (s.rdN (coreBase n + off + 8 * j) 8)
/-- A list with the elements from place k on replaced by another's, as far as both reach. -/
def overlay {α : Type} (k : Nat) (new l : List α) : List α :=
  l.take k ++ new.take (l.length - k) ++ l.drop (k + new.length)
/-- A weight set with the parameters of the columns from j on as a wide read gives them; the column sums
follow the zero points (R49, R233). -/
def WeightSet.withParams (w : WeightSet) (j : Nat) (ps : List Word) : WeightSet :=
  let new := overlay j ps w.params
  let zp := fun (l : List Word) (i : Nat) => sx 8 (F.mxeWparamZp.of (l.getD i 0).toNat)
  { w with params := new, colsum := w.colsum.zipIdx.map fun c =>
      if w.etype ≤ etInt8 then c.1 + w.rows * zp w.params c.2 - w.rows * zp new c.2 else c.1 }
/-- A wide read of the parameters of the latest weight load (R233): the set is in standby until a pass has
switched to it. -/
def paramRead (n m off j : Nat) (s : State) : State :=
  let ps := s.paramSpan n off
  s.modMxe n m fun x =>
    if x.standby = {} then { x with active := x.active.withParams j ps }
    else { x with standby := x.standby.withParams j ps }
/-! ### Sub-banks (R237-R240) -/

/-- The (bank, sub-bank) pairs that an access touches, as bank × 12 + sub-bank (R237-R239). -/
def banksOf (off len : Nat) : List Nat :=
  (List.range (ceilDiv (off % 16 + len) 16)).map fun i =>
    let o := off / 16 * 16 + 16 * i
    o / 16 % 32 * 12 + o / 512 % 12
/-- The sub-banks of an access. -/
def Sched.banks (a : Sched) : List Nat := banksOf a.off a.len
/-- In a cycle one of some accesses needs a sub-bank of a range. -/
def bankTaken (as : List Sched) (cyc off len : Nat) : Bool :=
  let bs := banksOf off len
  as.any fun a => a.cyc == cyc && a.banks.any fun b => bs.contains b
/-- The first cycle from `c` on, of at most `k`, in which no access of a list needs a sub-bank of a range. -/
def freeCycle (as : List Sched) (off len : Nat) : Nat → Nat → Option Nat
  | 0, _ => none
  | k + 1, c => if bankTaken as c off len then freeCycle as off len k (c + 1) else some c
/-- The accesses that a background access has to give way to: the scheduled ones, and those background
accesses that have taken a cycle. -/
def Core.accesses (c : Core) : List Sched := c.sched ++ c.bgUsed
/-- A cycle of a range of CM taken by a background access. -/
def bgUse (req off len cyc : Nat) (write : Bool) : Sched := ⟨cyc, req, off, len, write, false⟩
/-- Bytes of a background access. -/
def BgAcc.size (b : BgAcc) : Nat := if b.write then b.data.length else b.len
/-- How waiting background accesses fare: those performed, by cycle; those that wait on; the cycles taken; the
cycles in which at least one waited, and the cycle up to which these are counted (R248). -/
structure BgPlan where
  done : List (Nat × BgAcc) := []
  left : List BgAcc := []
  used : List Sched
  waited : Nat := 0
  upTo : Nat
/-- One waiting access before cycle t: it takes the first cycle that leaves its sub-banks free. -/
def BgPlan.next (t seen : Nat) (p : BgPlan) (b : BgAcc) : BgPlan :=
  let a := max b.since seen
  let c := freeCycle p.used b.off b.size (min (t - a) (p.used.length + 1)) a
  let e := c.getD t
  let p := { p with waited := p.waited + (e - max a p.upTo), upTo := max p.upTo e }
  match c with
  | some c => { p with done := p.done ++ [(c, b)], used := p.used ++ [bgUse b.req b.off b.size c b.write] }
  | none => { p with left := p.left ++ [b] }
/-- The waiting background accesses of a core before cycle t, in order of arrival (R240). -/
def Core.bgPlan (c : Core) (t : Nat) : BgPlan :=
  c.bg.foldl (BgPlan.next t c.bgSeen) { used := c.accesses, upTo := 0 }
/-- A background access is performed: a write lands in CM, a read answers; its footprint ends (R245). -/
def bgPerform (n : Nat) (b : BgAcc) (s : State) : State :=
  if b.write then wrPieces (coreBase n + b.off) b.data b.poison s
  else { s with reply := some ⟨s.cmN n b.off b.len, 3 * b2n (s.cmPoison n b.off b.len)⟩ }

/-! ### Moments -/

/-- The units that a wide read takes. -/
def wideUnits (s : State) (n off : Nat) (got : Tab UnitP) : Tab UnitP :=
  (List.range 8).foldl (fun g i =>
    let a := coreBase n + (off / 64 + i) * 64
    tabSet g (off / 64 + i) ⟨s.rd a 64, s.poisoned a⟩) got
/-- Bytes that an operation has read, at a CM offset; those of units that it has not read are 0. -/
def gotBytes (got : Tab UnitP) (off len : Nat) : List Byte :=
  let us := (List.range (ceilDiv (off % 64 + len) 64)).flatMap fun i =>
    (tabGet ⟨List.replicate 64 0, false⟩ got (off / 64 + i)).bs
  (us.drop (off % 64)).take len
/-- Poison of the units of a range that an operation has read. -/
def gotPoison (got : Tab UnitP) (off len : Nat) : Bool :=
  (List.range (ceilDiv (off % 64 + len) 64)).any fun i => (tabGet ⟨[], false⟩ got (off / 64 + i)).poison
/-- Fife finds the vector registers as they stand in a cycle (R94, R303). -/
def fifeRegs (n k cyc : Nat) (s : State) : State :=
  s.modCore n fun c =>
    let v := (c.vpend.filter fun w => decide (w.due ≤ cyc)).foldl (fun c w => setVreg w c) c
    { c with fife := c.fife.modify k fun o => { o with regs := some (v.vregs, v.vpoison) } }
/-- What happens to CM in a cycle: a moment comes of drain k of MXE m, a weight load reads parameters, FILL k or
FMV k reads 512 bytes, FMV k finds its registers, a store lands, a background access is performed. -/
inductive CmMoment where
  | drain (m k : Nat) (e : DrainEv)
  | param (m off j : Nat)
  | fill (k off : Nat)
  | fife (k off : Nat)
  | regs (k cyc : Nat)
  | store (off : Nat) (bs : List Byte) (poison : List Bool)
  | bg (b : BgAcc) (cyc : Nat)
  deriving DecidableEq, Repr
/-- A moment acts. -/
def CmMoment.act (n : Nat) (s : State) : CmMoment → State
  | .drain m k e => drainMoment n m k e s
  | .param m off j => paramRead n m off j s
  | .fill k off => s.modCore n fun c => { c with fills := c.fills.modify k fun f => { f with got := wideUnits s n off f.got } }
  | .fife k off => s.modCore n fun c => { c with fife := c.fife.modify k fun f => { f with got := wideUnits s n off f.got } }
  | .regs k cyc => fifeRegs n k cyc s
  | .store off bs ps => wrPieces (coreBase n + off) bs ps s
  | .bg b cyc => (bgPerform n b s).shadowDone n (bgId b.since b.off) b.write cyc
/-- Insertion in order of cycle, after the moments of the same cycle. -/
def momentInsert (a : Nat × CmMoment) : List (Nat × CmMoment) → List (Nat × CmMoment)
  | [] => [a]
  | b :: l => if a.1 < b.1 then a :: b :: l else b :: momentInsert a l
/-- The wide reads of a list that come up to cycle t. -/
def readsBy (t : Nat) (mk : Nat → CmMoment) (rs : List (Nat × Nat)) : List (Nat × CmMoment) :=
  (rs.filter fun r => decide (r.1 ≤ t)).map fun r => (r.1, mk r.2)
/-- The moments of a core up to cycle t: those of one cycle in the order in which CM serves their units
(R241), drains by MXE, parameters, fills, Fife, then stores in order of issue. -/
def Core.moments (c : Core) (t : Nat) : List (Nat × CmMoment) :=
  (c.mxes.flatMap fun x => x.2.drains.zipIdx.flatMap fun d =>
    (d.1.todo.filter fun e => decide (e.cyc ≤ t)).map fun e => (e.cyc, .drain x.1 d.2 e)) ++
  (c.mxes.flatMap fun x => (x.2.spans.filter fun p => decide (p.1 ≤ t)).map fun p =>
    (p.1, .param x.1 p.2.1 p.2.2)) ++
  (c.fills.zipIdx.flatMap fun f => readsBy t (.fill f.2) f.1.reads) ++
  (c.fife.zipIdx.flatMap fun f => readsBy t (.fife f.2) f.1.reads ++
    (match f.1.start, f.1.regs with
      | some a, none => if a + 1 ≤ t then [(a + 1, .regs f.2 (a + 1))] else []
      | _, _ => [])) ++
  c.slow.filterMap fun
    | .cmw due off bs ps _ => if due ≤ t then some (due, .store off bs ps) else none
    | _ => none
/-- The moments up to cycle t are behind a core. -/
def Core.past (t : Nat) (c : Core) : Core :=
  let left := List.filter fun r : Nat × Nat => decide (t < r.1)
  { c with
    slow := c.slow.filter fun o => !(o.cmDue.any fun d => decide (d ≤ t))
    fills := c.fills.map fun f => { f with reads := left f.reads }
    fife := c.fife.map fun f => { f with reads := left f.reads }
    mxes := c.mxes.map fun x => (x.1, { x.2 with
      spans := x.2.spans.filter fun p => decide (t < p.1)
      drains := x.2.drains.map fun d => { d with todo := d.todo.filter fun e => decide (t < e.cyc) } }) }
/-- The background accesses of a core have been looked at up to cycle t. -/
def Core.bgPast (t : Nat) (p : BgPlan) (c : Core) : Core := { c with bg := p.left, bgSeen := max c.bgSeen t }
/-- What is due in CM by now happens, in order of cycle; a background access that found its cycle is performed
in it (R240). -/
def State.landCm (s : State) (n : Nat) : State :=
  let t := s.cyc n
  let c := s.core n
  let p := if c.bg.isEmpty then { used := [], upTo := 0 } else c.bgPlan t
  let s := s.doIf (!c.bg.isEmpty) fun s =>
    (s.modCore n (Core.bgPast t p)).doIf (p.waited != 0) fun s => s.bump (.cmcBgCnt n) F.cmcBgCntWaited p.waited
  match c.moments t ++ p.done.map fun q => (q.1, .bg q.2 q.1) with
  | [] => s
  | ms => (ms.foldl (fun l a => momentInsert a l) []).foldl (fun s a => a.2.act n s) (s.modCore n (Core.past t))
/-- Time moves on to a cycle of a core, and what is due in CM by then happens. -/
def State.toCyc (s : State) (n cyc : Nat) : State := (s.advance (s.cycTime n cyc)).landCm n

end Sys2Proof.Machine
end

