-- ==== Sys2Proof/Machine/CoreMem.lean ====
section
/-! DEFINITION. Core memory (spec/08, R237-R248): scheduled accesses and bank conflicts, background
accesses, the slot-state shadow of validation mode. -/

namespace Sys2Proof.Machine

/-! ### Scheduled accesses and conflicts (R237-R243, R542) -/

/-- Record a scheduled access: its cycle, requester code, CM offset, bytes, direction. A read meets parity failures
(R477). -/
def State.sched (s : State) (n req off len cyc : Nat) (write : Bool) : State :=
  (s.doIf (!write) (·.parityRange (coreBase n + off) len)).modCore n fun c =>
    { c with sched := c.sched ++ [⟨cyc, req, off, len, write, false⟩] }
/-- Consecutive wide accesses over a CM range, one per cycle in address order (R542); each touches all 32 banks
(R238). -/
def State.schedRange (s : State) (n req off len cyc : Nat) (write : Bool) : State :=
  (List.range (ceilDiv len 512)).foldl (fun s i => s.sched n req (off + 512 * i) 512 (cyc + i) write) s

/-- The largest number of accesses of a cycle that need one sub-bank of one bank (R241). -/
def conflictK (as : List Sched) : Nat :=
  let bs := as.map Sched.banks
  (bs.flatten).foldl (fun k b => max k (bs.countP fun l => l.contains b)) 0
/-- Accesses of one cycle in the order of R241. -/
def servedOrder (as : List Sched) : List Sched :=
  (List.range 16).flatMap fun r => as.filter fun a => a.req == r
/-- The first deferred access, the access served before it, and the bank they share. -/
def firstDeferred : List Sched → List Sched → Option (Sched × Sched × Nat)
  | _, [] => none
  | before, a :: rest =>
    match before.findSome? (fun b => (b.banks.find? fun x => a.banks.contains x).map fun x => (b, x)) with
    | some (b, x) => some (a, b, x)
    | none => firstDeferred (before ++ [a]) rest
/-- One cycle's scheduled accesses (R241-R243): a conflict stalls the whole core k − 1 cycles; in
service mode it is an error, recorded at most once in 65,536 cycles; in validation mode it is logged. -/
def conflictCycle (n cyc : Nat) (s : State) : State :=
  let as := servedOrder ((s.core n).sched.filter fun a => a.cyc == cyc)
  let k := conflictK as
  match firstDeferred [] as with
  | none => s
  | some (d, v, b) =>
    let s := s.freeze n (k - 1)
    let s := s.bump (.cmcConflictCnt n) F.cmcConflictCntEvents 1
    let s := s.bump (.cmcConflictCnt n) F.cmcConflictCntCycles (k - 1)
    if s.bit (.cmcStatus n) F.cmcStatusVmode then
      let i := s.fld (.cmcStatus n) F.cmcStatusLogged
      if i < 8 then
        (s.setWord (.cmcConfLog n i)
          (d.req * 2 ^ 60 + v.req * 2 ^ 56 + b % 12 * 2 ^ 52 + d.off)).setFld
          (.cmcStatus n) F.cmcStatusLogged (i + 1)
      else s
    else
      let c := s.core n
      let due := match c.confLast with
        | none => true
        | some t => decide (t + 65536 ≤ cyc)
      let s := s.modCore n fun c => { c with confSince := c.confSince + 1 }
      if due then
        let s := s.raise
          { src := srcOf 1 n 8, code := ecCmConflict, addr := coreBase n + d.off,
            detail := [(32, 1, d.req), (33, 1, v.req), (34, 1, b % 12), (36, 4, c.confSince + 1)] }
        s.modCore n fun c => { c with confLast := some cyc, confSince := 0 }
      else s

/-! ### Background accesses (R240) -/

/-- Requester code of a background unit (R246). -/
def bgReq : BgUnit → Nat
  | .stream => 12
  | .colonnade => 13
  | _ => 14
/-- Requester code of a window write (R246). -/
def reqWindow : Nat := 15
/-- CMC_BG_CTL.WAIT_MAX (R248): 0 acts as 1. -/
def State.waitMax (s : State) (n : Nat) : Nat := max 1 (s.fld (.cmcBgCtl n) F.cmcBgCtlWaitMax)
/-- Count cycles in which a background access waited (R248). -/
def bgWaited (n k : Nat) (s : State) : State := s.doIf (k != 0) fun s => s.bump (.cmcBgCnt n) F.cmcBgCntWaited k
/-- A background access takes its sub-bank against the schedule: the whole core stalls for one cycle (R240). -/
def bgForced (n : Nat) (s : State) : State := (s.freeze n 1).bump (.cmcBgCnt n) F.cmcBgCntForced 1
/-- The cycles taken before the present one are forgotten. -/
def bgTidy (n : Nat) (s : State) : State :=
  let t := s.cyc n
  s.doIf ((s.core n).bgUsed.any fun a => decide (a.cyc < t)) fun s => s.modCore n fun c =>
    { c with bgUsed := c.bgUsed.filter fun a => decide (t ≤ a.cyc) }
/-- A cycle of a range is taken. -/
def bgMark (n req off len cyc : Nat) (write : Bool) (s : State) : State :=
  s.modCore n fun c => { c with bgUsed := c.bgUsed ++ [bgUse req off len cyc write] }
/-- One access of up to 512 bytes by an engine that goes on when it has been performed: time moves on to the
first cycle that leaves its sub-banks free, or to the one that it forces (R240). -/
def bgTakeOne (n req : Nat) (write : Bool) (s : State) (p : Nat × Nat) : State :=
  let s := bgTidy n s
  let t := s.cyc n
  let c := s.core n
  let w := s.waitMax n
  match freeCycle c.accesses p.1 p.2 (min w (c.accesses.length + 1)) t with
  | some e => bgMark n req p.1 p.2 e write (bgWaited n (e - t - (c.bgPlan e).waited) (s.toCyc n e))
  | none => bgForced n (bgWaited n (w - (c.bgPlan (t + w)).waited) (s.toCyc n (t + w)))
/-- The accesses of an engine to a CM range, in address order. -/
def bgTake (n req off len : Nat) (write : Bool) (s : State) : State :=
  ((List.range (ceilDiv len 512)).map fun i => (off + 512 * i, min 512 (len - 512 * i))).foldl (bgTakeOne n req write) s
/-- The scheduled accesses of the cycles before the present one are settled. -/
def State.syncCore (s : State) (n : Nat) : State :=
  let t := s.cyc n
  let cs := ((s.core n).sched.filter fun a => decide (a.cyc < t)).map (·.cyc)
  let s := cs.eraseDups.foldl (fun s c => conflictCycle n c s) s
  s.doIf ((s.core n).sched.any fun a => decide (a.cyc < t)) fun s => s.modCore n fun c =>
    { c with sched := c.sched.filter fun a => decide (t ≤ a.cyc) }
/-- Issue stops on a core (R246): its running context, or else a live one, is FAULTED where it stands. The
access is no operation of that context (assumption 40, DESIGN CHOICE). -/
def State.stopIssue (s : State) (n : Nat) : State :=
  match (s.core n).running with
  | some c => s.markFault n c 0 ecSlotOrder
  | none => match (List.range 4).find? (s.ctxLive n) with
    | some c => s.markFault n c 0 ecSlotOrder
    | none => s
/-- A background access meets the shadow (R245, R246): one that breaks a rule is suppressed and stops issue;
another's footprints are pending from now on. -/
def bgShadow (n req id last : Nat) (us : List Nat) (write : Bool) (s : State) : State × Bool :=
  if s.vmode n then
    let fs := us.map fun u => (⟨u, write, s.cyc n, last⟩ : Foot)
    match shadowCheck (s.core n) fs with
    | some (u, k, pc) => ((s.slotOrder n u k pc req 0).stopIssue n, true)
    | none => (s.shadowAdd n id req fs, false)
  else (s, false)
/-- A background access of CM arrives: it is performed in this cycle when nothing needs its sub-banks, and
waits otherwise (R240); a shadow rule that it breaks suppresses it. -/
def bgArrive (n : Nat) (b : BgAcc) (s : State) : State × Bool :=
  let (s, bad) := bgShadow n b.req (bgId b.since b.off) laterCyc (cmUnits b.off b.size) b.write s
  if bad then (s, true)
  else
    let s := bgTidy n s
    let c := s.core n
    let bs := banksOf b.off b.size
    if c.bg.any (fun w => (banksOf w.off w.size).any fun x => bs.contains x) || bankTaken c.accesses (s.cyc n) b.off b.size
    then (s.modCore n fun c => { c with bg := c.bg ++ [b] }, false)
    else
      let t := s.cyc n
      ((bgPerform n b (bgMark n b.req b.off b.size t b.write s)).shadowDone n (bgId b.since b.off) b.write t, false)
/-- BG_ACCESS: a background access arrives. One that runs past CM fails at decode (R238). -/
def bgAccess (n : Nat) (unit : BgUnit) (off len : Nat) (data : List Byte) (write poison : Bool) (s : State) :
    State :=
  let s := s.syncCore n
  let l := if write then data.length else len
  if cmSize < off + l then
    s.raise { src := srcOf 1 n 8, code := ecDescRange, addr := coreBase n + off }
  else (bgArrive n ⟨bgReq unit, off, data, List.replicate (ceilDiv (off % 64 + l) 64) poison, write, len, s.cyc n, none⟩ s).1
/-- BG_FORCE: the oldest waiting access has waited WAIT_MAX cycles: it takes its sub-bank in the next cycle and
the whole core stalls for one cycle (R240). One that has found a free cycle by then is performed in it. -/
def bgForce (n : Nat) (s : State) : State :=
  match (s.core n).bg with
  | [] => s
  | b :: _ =>
    let t := b.since + s.waitMax n
    let s := s.toCyc n t
    if (s.core n).bg.head? = some b then
      let s := bgPerform n b (s.modCore n fun c => { c with bg := c.bg.drop 1 })
      bgForced n (s.shadowDone n (bgId b.since b.off) b.write t)
    else s

/-! ### Control registers (R247, R248) -/

/-- CMC_CTL.LOG_CLR (R248). -/
def logClr (n : Nat) (s : State) : State :=
  ((List.range 8).foldl (fun s i => s.setWord (.cmcConfLog n i) 0) s).setFld
    (.cmcStatus n) F.cmcStatusLogged 0
/-- True when no operation in flight has a footprint on CM, AB or WS (R247). -/
def State.quiet (s : State) (n : Nat) : Bool :=
  let c := s.core n
  c.mxes.all (fun m => m.2.feeder.isEmpty && m.2.load.isNone && m.2.cur.isNone && m.2.drains.isEmpty &&
    decide (m.2.feedFree ≤ s.cyc n)) &&
  c.fills.isEmpty && c.fife.isEmpty && c.vbg.isEmpty && c.bg.isEmpty &&
  c.slow.all (fun o => o.cmDue.isNone) && c.strq.all fun q => q.2.inflight.isEmpty
/-- The mode that a core is to run in (R490): VALIDATE, or its VCORES bit. -/
def State.wantsValid (s : State) (n : Nat) : Nat :=
  b2n (s.bit .chipMode F.chipModeValidate || bitAt (s.fld .chipMode F.chipModeVcores) n)
/-- MODE_SAMPLE (R247): the mode is sampled once nothing in flight touches CM, AB or WS; entering
validation mode sets VALID in every unit (R245). -/
def modeSample (n : Nat) (s : State) : State :=
  let s := (s.landCm n).syncCore n
  if s.quiet n then
    let v := s.wantsValid n
    let s := s.doIf (v = 1 && !s.vmode n) fun s =>
      s.modCore n fun c => { c with valid := true, shadow := [] }
    (s.setFld (.cmcStatus n) F.cmcStatusVmode v).setFld (.cmcStatus n) F.cmcStatusPending 0
  else s

end Sys2Proof.Machine
end

