-- ==== Sys2Proof/Machine/Orangery.lean ====
section
/-! DEFINITION. The Orangery and its control block (spec/08, R249-R259): its addresses, turnstiles, chip
barriers, and the order in which the control block serves atomic operations. -/

namespace Sys2Proof.Machine

/-! ### Addresses (R249) -/

/-- Slice of an Orangery offset (R249). -/
def orgSlice (o : Nat) : Nat := bitsOf o 12 7 ^^^ bitsOf o 22 17
/-- Bank within the slice (R249). -/
def orgBank (o : Nat) : Nat := bitsOf o 16 13 ^^^ bitsOf o 26 23
/-- Line within the bank (R249). -/
def orgLine (o : Nat) : Nat := bitsOf o 27 17
/-! ### Turnstiles (R254-R256) -/

/-- Notify (R255): an armed turnstile whose VALUE has reached LIMIT signals once and disarms. -/
def notify (t : Nat) (s : State) : State :=
  if s.bit (.tsNotify t) F.tsNotifyArm && decide (s.fld (.tsCnt t) F.tsCntLimit ≤ s.fld (.tsCnt t) F.tsCntValue)
  then (s.setFld (.tsNotify t) F.tsNotifyArm 0).signal (s.fld (.tsNotify t) F.tsNotifyCore)
    (s.fld (.tsNotify t) F.tsNotifyEvent) {}
  else s
/-- The EXHAUSTED result. -/
def exhausted : Word := BitVec.ofNat 64 (2 ^ 64 - 1)
/-- TURN of n on turnstile t (R255). -/
def turn (t n : Nat) (s : State) : State × Word :=
  let v := s.fld (.tsCnt t) F.tsCntValue
  let l := s.fld (.tsCnt t) F.tsCntLimit
  if n = 0 then (s, BitVec.ofNat 64 v)
  else if l ≤ v then (s.bump (.tsNotify t) F.tsNotifyExhausted 1, exhausted)
  else (notify t (s.setFld (.tsCnt t) F.tsCntValue (min (v + n) l)), BitVec.ofNat 64 v)
/-- ADD of n on turnstile t (R255). -/
def turnAdd (t n : Nat) (s : State) : State :=
  notify t (s.setFld (.tsCnt t) F.tsCntValue ((s.fld (.tsCnt t) F.tsCntValue + n) % 2 ^ 32))
/-- A CSR write of TS_CNT (R254, R255). -/
def tsCntWrite (t : Nat) (v : Nat) (s : State) : State := notify t ((s.ctlWritten (.tsCnt t)).plainWrite (.tsCnt t) v)
/-- A CSR write of TS_NOTIFY (R254, R255). -/
def tsNotifyWrite (t : Nat) (v : Nat) (s : State) : State := notify t (s.plainWrite (.tsNotify t) v)

/-! ### Chip barriers (R257-R259) -/

/-- A release: GEN advances and ARRIVED becomes 0 (R258). -/
def barRelease (b : Nat) (s : State) : State :=
  (s.setFld (.barState b) F.barStateGen (s.fld (.barState b) F.barStateGen + 1)).setFld
    (.barState b) F.barStateArrived 0
/-- An arrival (R258): the generation it joins, and the release it may cause. -/
def barArrive (b : Nat) (s : State) : State × Word :=
  let g := BitVec.ofNat 64 (s.fld (.barState b) F.barStateGen)
  let c := s.fld (.barState b) F.barStateCount
  if c = 0 then (s, g)
  else
    let a := s.fld (.barState b) F.barStateArrived + 1
    let s := s.setFld (.barState b) F.barStateArrived a
    (if c ≤ a then barRelease b s else s, g)
/-- A write of COUNT (R258): it releases the barrier when arrivals already meet it. -/
def barCountWrite (b v : Nat) (s : State) : State :=
  let s := (s.ctlWritten (.barState b)).plainWrite (.barState b) v
  let a := s.fld (.barState b) F.barStateArrived
  if a ≠ 0 ∧ s.fld (.barState b) F.barStateCount ≤ a then barRelease b s else s
/-- An arrival of a core at a barrier has joined a generation and its answer is on its way. -/
def State.hasJoined (s : State) (n b g : Nat) : Bool :=
  s.tsq.any fun o => o.req == n && o.kind == .arrive b && o.res.any fun w => w.toNat == g
/-- GEN has advanced past a generation: (GEN - g) mod 2^32 lies in 1 to 2^31 (R258, R276, R312). -/
def barPast (s : State) (b g : Nat) : Bool :=
  let d := (s.fld (.barState b) F.barStateGen + 2 ^ 32 - g % 2 ^ 32) % 2 ^ 32
  decide (0 < d ∧ d ≤ 2 ^ 31)
/-- A wait at the barrier ends ABORTED, unless its release has come already. -/
def abortWait (s : State) (b g : Nat) (joined : Bool) (w : Wait) : Wait :=
  match w.kind with
  | .barrier b' g' _ => if b' = b ∧ barPast s b g' = false then { w with kind := .barrier b' g' true } else w
  | .joining b' => if b' = b ∧ joined then { w with kind := .barrier b' g true } else w
  | _ => w
/-- BAR_CTL.ABORT (R257): every waiter is released with ABORTED status. -/
def barAbort (b : Nat) (s : State) : State :=
  let g := s.fld (.barState b) F.barStateGen
  let t := { s with cores := s.cores.map fun c =>
    (c.1, { c.2 with waits := c.2.waits.map fun w => (w.1, abortWait s b g (s.hasJoined c.1 b g) w.2) }) }
  barRelease b t
/-- BAR_CTL.RESET (R257). -/
def barReset (b : Nat) (s : State) : State := s.setFld (.barState b) F.barStateArrived 0
/-- A write of BAR_CTL. -/
def barCtlWrite (b v : Nat) (s : State) : State :=
  (s.doIf (bitAt v 1) (barAbort b)).doIf (bitAt v 0) (barReset b)

/-! ### Order of service (R256) -/

/-- Requester numbers of the rotation: cores, control cores, host, Glasshouses, window logic. -/
def Requester.rot : Requester → Nat
  | .core n => n.val
  | .cc i => 32 + i.val
  | .host => 36
  | .gh g => 37 + g.val
/-- Place of an operation in the order of service: its cycle, then the rotation of that cycle. -/
def TsOp.key (s : State) (o : TsOp) : Nat :=
  let start := (o.arr - s.rotBase) % 46
  o.arr * 46 + (o.req + 46 - start) % 46
/-- What the operation names: a turnstile, or a barrier. -/
def TsKind.target : TsKind → Nat
  | .turn t _ => t
  | .add t _ => t
  | .arrive b => 4096 + b
/-- Turnstiles of one value of t mod 16 share a service of one operation per FABRIC_CLK cycle (R256); barriers
compete for none. -/
def TsKind.cls : TsKind → Option Nat
  | .turn t _ => some (t % 16)
  | .add t _ => some (t % 16)
  | .arrive _ => none
/-- The register that an operation acts on. -/
def TsKind.reg : TsKind → Reg
  | .turn t _ => .tsCnt t
  | .add t _ => .tsCnt t
  | .arrive b => .barState b
/-- An operation acts; on an entry that fails its parity it fails, and its result is open (R477; assumption 193,
DESIGN CHOICE). -/
def tsAct (k : TsKind) (s : State) : State × Word :=
  if s.badCtl k.reg then
    let (v, s) := (ctlFail s).free 64
    (s, BitVec.ofNat 64 v)
  else match k with
    | .turn t n => turn t n s
    | .add t n => (turnAdd t n s, 0)
    | .arrive b => barArrive b s
/-- The FABRIC_CLK cycle of an operation that is next in its service. -/
def State.turnAt (s : State) (o : TsOp) : Nat :=
  match o.kind.cls with
  | some c => max o.arr (tabGet 0 s.tsFree c)
  | none => o.arr
/-- Of two operations, the one that comes first in the order of service. -/
def tsFirst (s : State) (a : Option TsOp) (o : TsOp) : Option TsOp :=
  match a with
  | none => some o
  | some b =>
    if s.turnAt o < s.turnAt b ∨ (s.turnAt o = s.turnAt b ∧ o.key s < b.key s) then some o else some b
/-- The operation that the control block serves next: each service takes the oldest of its own (R256). -/
def nextTs (s : State) : Option TsOp :=
  (s.tsq.filter fun o => o.res.isNone && s.tsq.all fun p =>
    !(p.res.isNone && p.kind.cls == o.kind.cls && o.kind.cls.isSome && decide (p.key s < o.key s))).foldl (tsFirst s) none
/-- An operation is served in its cycle (R256). The ADDs of a Glasshouse and of the window logic ask for no
answer. -/
def serveTs (o : TsOp) (s : State) : State :=
  let t := s.turnAt o
  let now := s.now
  let (s, w) := tsAct o.kind { s with now := t * fabTicks }
  let s := { s with now := max now s.now }
  let s := match o.kind.cls with
    | some c => { s with tsFree := tabSet s.tsFree c (t + 1) }
    | none => s
  { s with tsq := if o.req < 37 then s.tsq.modify (s.tsq.idxOf o) fun p => { p with res := some w, svc := t }
      else s.tsq.erase o }
/-- Serve at most k operations whose cycle comes before cycle f. -/
def serveBefore (f : Nat) : Nat → State → State
  | 0, s => s
  | k + 1, s =>
    match nextTs s with
    | none => s
    | some o => if s.turnAt o < f then serveBefore f k (serveTs o s) else s
/-- The operations of the cycles before the present one have been served; those of the present one follow its CSR
writes (R256). -/
def State.tsSettle (s : State) : State := serveBefore s.fab s.tsq.length s
/-- Serve at most k operations, until one that meets a condition has been; time moves on to its cycle. -/
def serveUntil (p : TsOp → Bool) : Nat → State → State
  | 0, s => s
  | k + 1, s =>
    match nextTs s with
    | none => s
    | some o =>
      let t := s.turnAt o
      let s := serveTs o s
      if p o then s.advance (t * fabTicks) else serveUntil p k s
/-- An atomic operation arrives at the control block. -/
def State.tsArrive (s : State) (req : Nat) (k : TsKind) : State :=
  { s with tsq := s.tsq ++ [⟨req, s.fab, k, none, 0⟩] }
/-- The oldest operation of a requester is answered: the operations before it in the order of service are served
first, and each cycle that it was deferred adds one to its latency. -/
def tsComplete (req : Nat) (kind : TsKind) (s : State) : State × Option Word :=
  match s.tsq.find? fun o => o.req == req && o.kind == kind with
  | none => (s, none)
  | some o =>
    let same := fun (p : TsOp) => p.req == o.req && p.arr == o.arr && p.kind == o.kind
    let s := s.doIf o.res.isNone fun s => serveUntil same s.tsq.length s
    match s.tsq.find? same with
    | some p => ({ s with tsq := s.tsq.erase p }.advance ((p.svc + 5) * fabTicks), p.res)
    | none => (s, none)

/-! ### The commands -/

/-- A turnstile's next operation is served in its turn. -/
def tsDeferred (t : Nat) (s : State) : State :=
  if s.tsq.any fun o => o.res.isNone && o.kind.target == t then
    serveUntil (fun o => o.kind.target == t) s.tsq.length s
  else s
/-- TURNSTILE_DEFERRED_OP (R256): a deferred operation is served in a later FABRIC_CLK cycle. -/
def execTurnstileDeferredOp (t : TurnId) (s : State) : Host.Outcome State Fault Refusal :=
  run (tsDeferred t) s
/-- TS_CNT_WRITE (R254, R255). -/
def execTsCntWrite (_r : Requester) (t : TurnId) (v : Word) (s : State) :
    Host.Outcome State Fault Refusal := run (fun s => tsCntWrite t v.toNat s.tsSettle) s
/-- TS_NOTIFY_WRITE (R254, R255). -/
def execTsNotifyWrite (_r : Requester) (t : TurnId) (v : Word) (s : State) :
    Host.Outcome State Fault Refusal := run (fun s => tsNotifyWrite t v.toNat s.tsSettle) s
/-- BAR_COUNT_WRITE (R258). -/
def execBarCountWrite (b : BarId) (v : Word) (s : State) : Host.Outcome State Fault Refusal :=
  run (fun s => barCountWrite b v.toNat s.tsSettle) s
/-- BAR_ABORT (R257). -/
def execBarAbort (b : BarId) (s : State) : Host.Outcome State Fault Refusal := run (fun s => barAbort b s.tsSettle) s
/-- BAR_RESET (R257). -/
def execBarReset (b : BarId) (s : State) : Host.Outcome State Fault Refusal := run (fun s => barReset b s.tsSettle) s
end Sys2Proof.Machine
end

