-- ==== Sys2Proof/Machine/Directory.lean ====
section
/-! DEFINITION. The stacks as the Glasshouses serve them and the Tile Directory (spec/05, R146-R164;
spec/07, R199-R203, R218, R224): sector reads with their check codes, entries and their CRC,
resolution through the cache, the tile heap, switches, migration. -/

namespace Sys2Proof.Machine

/-- The record of a Glasshouse. -/
def State.gh (s : State) (k : Nat) : Gh := tabGet {} s.ghs k
/-- Change the record of a Glasshouse. -/
def State.modGh (s : State) (k : Nat) (f : Gh → Gh) : State := { s with ghs := tabSet s.ghs k (f (s.gh k)) }

/-! ### Regions of the address map (R147, R203, R536) -/

/-- End of the populated region that holds an address; 0 where none does. -/
def regionEnd (da : Nat) : Nat :=
  match placeOf da with
  | .stack _ _ => if da < 0x010000000000 then 0x010000000000
      else 0x010000000000 + ((da - 0x010000000000) / 0x2000000000 + 1) * 0x2000000000
  | .orangery _ => 0x020010000000
  | .cm n _ => coreBase n + cmSize
  | _ => 0
/-- Directory base of a stack, as a stack-local offset. -/
def State.dirBase (s : State) (k : Nat) : Nat := s.fld (.ghDirBase k) F.ghDirBaseBase * dirSize
/-- True when a stack-local range touches the stack's directory region. -/
def State.inDirLocal (s : State) (k o len : Nat) : Bool :=
  decide (len ≠ 0 ∧ o < s.dirBase k + dirSize ∧ s.dirBase k < o + len)
/-- True when a range reaches into a directory region, in either view (R147, R203). In the interleaved view the eight
256-byte granules of a 2 KiB group lie at one offset of the eight stacks: whole groups are looked at together, the
granules at both ends one by one. -/
def State.inDir (s : State) (da len : Nat) : Bool :=
  match placeOf da with
  | .stack k o =>
    if len = 0 then false
    else if da < 0x010000000000 then
      let g0 := da / 256
      let g1 := (da + len - 1) / 256
      let edge := fun g => s.inDirLocal (ivStack (g * 256)) (ivOffset (g * 256)) 1
      (List.range 8).any fun i => edge (min g1 (g0 + i)) || edge (max g0 (g1 - i)) ||
        s.inDirLocal i (ceilDiv g0 8 * 256) (((g1 + 1) / 8 - ceilDiv g0 8) * 256)
    else s.inDirLocal k o len
  | _ => false

/-! ### Sector reads (R200, R201, R224) -/

/-- Pseudo-channel, bank and row of a stack-local offset (R202). -/
def rowOf (o : Nat) : RowAt :=
  ⟨bitsOf o 13 8 ^^^ bitsOf o 26 21, bitsOf o 20 16 ^^^ bitsOf o 31 27, bitsOf o 36 21⟩
/-- Column of a stack-local offset: the sector within its 1 KiB row (R202). -/
def colOf (o : Nat) : Nat := bitsOf o 15 14 * 4 + bitsOf o 7 6
/-- Byte address of an entry: its home stack's directory, 32 bytes each (R146). -/
def State.dirAddr (s : State) (h : Nat) : Nat := stackBase (h % 8) + s.dirBase (h % 8) + h / 8 * 32
/-- CRC-32, bit by bit over a byte (R150): reflected, polynomial 0xEDB8_8320 in that order. -/
def crcByte (c : Nat) (b : Byte) : Nat :=
  (List.range 8).foldl (fun c _ => if c % 2 = 1 then c / 2 ^^^ 0xEDB88320 else c / 2) (c ^^^ b.toNat)
/-- CRC-32 of bytes (R150). -/
def crc32 (bs : List Byte) : Nat := bs.foldl crcByte 0xFFFFFFFF ^^^ 0xFFFFFFFF
/-- The CRC-32C of bytes (R200): reflected, polynomial 0x82F6_3B78 in that order. -/
def crc32c (bs : List Byte) : Nat :=
  (bs.foldl (fun c b => (List.range 8).foldl (fun c _ => if c % 2 = 1 then c / 2 ^^^ 0x82F63B78 else c / 2)
    (c ^^^ b.toNat)) 0xFFFFFFFF) ^^^ 0xFFFFFFFF
/-- The check code that a stack sector is stored with (R200): `chk` keeps it as its difference from the true code,
0 for a sound sector, all ones for the poison signature. -/
def State.storedCode (s : State) (da : Nat) : Nat :=
  crc32c (s.rd (da / 64 * 64) 64) ^^^ (tabGet 0 s.chk (canon da / 64)).toNat
/-- Words 0-2 and ACCESS of an entry as stored, with its CRC. The free state of an entry, which boot
writes into the whole region (R164), is kept as zero bytes; its CRC is that of zero words. -/
def State.dirStored (s : State) (h : Nat) : DirEnt × Nat :=
  let bs := s.rd (s.dirAddr h) 32
  let free := (s.gh (h % 8)).formatted && leNat bs == 0
  (⟨fieldAt bs 0 8, fieldAt bs 8 8, fieldAt bs 16 8, fieldAt bs 28 4⟩,
   if free then crc32 (List.replicate 24 0) else fieldAt bs 24 4)
/-- Words 0-2 of an entry are written through, with a new CRC; ACCESS stays in the cache (R155). -/
def State.dirWrite (s : State) (h : Nat) (e : DirEnt) : State :=
  let bs := natLe 8 e.w0 ++ natLe 8 e.w1 ++ natLe 8 e.w2
  let s := s.wr (s.dirAddr h) (bs ++ natLe 4 (crc32 bs))
  s.modGh (h % 8) fun g =>
    match tabFind g.cache (h / 8) with
    | some _ => { g with cache := tabSet g.cache (h / 8) e }
    | none => g
/-- An entry as its Glasshouse holds it: from the cache, else from the stack. -/
def State.dirEnt (s : State) (h : Nat) : DirEnt :=
  match tabFind (s.gh (h % 8)).cache (h / 8) with
  | some e => e
  | none => (s.dirStored h).1
/-- Some command of the migration queue, or a push that waits for it, has yet to copy to an address (R159, R204). -/
def Gh.copying (g : Gh) (da : Nat) : Bool :=
  (tabGet [] g.queues 14).any (fun c => (c.ws.getD 2 0).toNat == da) ||
    g.waiting.any fun p => p.q == 14 && (p.ws.getD 2 0).toNat == da
/-- Fields of words 0 to 2 (R149). -/
def DirEnt.fmt (e : DirEnt) : Nat := bitsOf e.w0 63 60
def DirEnt.etype (e : DirEnt) : Nat := bitsOf e.w0 59 56
def DirEnt.valid (e : DirEnt) : Bool := bitAt e.w0 55
def DirEnt.poison (e : DirEnt) : Bool := bitAt e.w0 54
def DirEnt.pinned (e : DirEnt) : Bool := bitAt e.w0 53
def DirEnt.migrating (e : DirEnt) : Bool := bitAt e.w0 51
def DirEnt.da (e : DirEnt) : Nat := bitsOf e.w0 39 0 * 64
def DirEnt.len (e : DirEnt) : Nat := bitsOf e.w1 63 48
def DirEnt.slot (e : DirEnt) : Nat := bitsOf e.w1 47 36
def DirEnt.version (e : DirEnt) : Nat := bitsOf e.w2 63 32
/-- An entry with a bit of word 0 set to a value. -/
def DirEnt.set (e : DirEnt) (i : Nat) (b : Bool) : DirEnt := { e with w0 := withBits e.w0 i i (b2n b) }
/-- Virhan or the device sets POISON in an entry (R162, R224). -/
def State.poisonTile (s : State) (h : Nat) : State := s.dirWrite h ((s.dirEnt h).set 54 true)
/-- Handle of the tile whose space covers a stack-local offset: space in use, that the entry still names. -/
def State.tileAt (s : State) (k o : Nat) : Option Nat :=
  ((s.gh k).heap.find? fun e => !e.2.freed && decide (e.1 ≤ o ∧ o < e.1 + e.2.len * 64) &&
    canon (s.dirEnt e.2.h).da == stackBase k + e.1).map fun e => e.2.h

/-- Handle of the tile whose entry, in some directory cache, names the space of an address: the one that has just
been looked up. -/
def State.cachedTile (s : State) (da : Nat) : Option Nat :=
  (List.range 8).findSome? fun k => ((s.gh k).cache.find? fun e =>
    e.2.valid && decide (canon e.2.da ≤ canon da ∧ canon da < canon e.2.da + e.2.len * 64)).map fun e => 8 * e.1 + k
/-- DETECT_STACK (R224, R488): the sector's place, the cause, the reads made. -/
def State.detectStack (s : State) (k o cause : Nat) (queued : Bool) (tile : Option Nat) : State :=
  let r := rowOf o
  s.raise
    { src := srcOf 2 k 0, code := ecDetectStack, addr := stackBase k + o,
      detail := [(32, 4, r.pc + r.bank * 64 + r.row * 2048), (36, 1, cause), (37, 1, 3),
        (38, 1, b2n queued + 2 * b2n tile.isSome), (40, 8, o), (48, 4, tile.getD 0)] }
/-- The third failed read of a sector (R224): it is poisoned, reported, queued for repair, and the
tile that covers it is marked. -/
def sectorBad (k o : Nat) (s : State) : State :=
  let u := (stackBase k + o) / 64
  let s := { s with chk := tabSet s.chk u poisonSig }
  let s := s.bump (.ghScrubStat k) F.ghScrubStatBad 1
  let t := s.tileAt k o
  let r := rowOf o
  let raw := s.bit (.ghStatus k) F.ghStatusRaw
  let s := s.doIf (!raw && !(s.gh k).repairQ.contains r) fun s =>
    (s.modGh k fun g => { g with repairQ := g.repairQ ++ [r] }).bump (.ghRepairStat k) F.ghRepairStatQueued 1
  let s := match t with
    | some h => s.poisonTile h
    | none => s
  s.detectStack k o 0 (!raw) t
/-- Time moves to the end of the row copy that blocks a bank (R228). -/
def State.bankWait (s : State) (k o : Nat) : State :=
  match (s.gh k).repair with
  | some (r, t) => if r.pc = (rowOf o).pc ∧ r.bank = (rowOf o).bank then s.advance (t + 2000 * fabTicks) else s
  | none => s
/-- A 64-byte unit as a Glasshouse reads it from its banks: a sector whose check code fails is re-read up to twice
(R224); whether a re-read passes is open. -/
def State.sense (s : State) (da : Nat) : UnitP × State :=
  let bs := s.rd (da / 64 * 64) 64
  match placeOf da with
  | .stack k o =>
    let s := s.bankWait k o
    let c := tabGet 0 s.chk (canon da / 64)
    if c = 0 then (⟨bs, false⟩, s)
    else if c = poisonSig then (⟨bs, true⟩, s)
    else
      let (a, s) := s.free 2
      if a = 3 then (⟨bs, true⟩, sectorBad k (o / 64 * 64) s)
      else (⟨bs, false⟩, s.bump (.ghScrubStat k) F.ghScrubStatCorrected 1)
  | .orangery _ =>
    let s := s.parityRange da 64
    (⟨bs, s.poisoned da⟩, match (if s.badUnit da then s.cachedTile da else none) with
      | some h => s.poisonTile h
      | none => s)
  | _ => (⟨bs, s.poisoned da⟩, s.parityRange da 64)
/-- k units from an address up, as the Glasshouse reads them. -/
def State.senseN (s : State) (da : Nat) : Nat → List UnitP × State
  | 0 => ([], s)
  | k + 1 =>
    let (u, s) := s.sense da
    let (us, s) := s.senseN (da + 64) k
    (u :: us, s)
/-- A unit crosses the stack interface (R225): one whose code fails there is sent again, up to twice; after the third
failure it arrives poisoned and DETECT_STACK is raised with the interface cause. -/
def State.arrive (s : State) (write : Bool) (da : Nat) (u : UnitP) : UnitP × State :=
  match placeOf da with
  | .stack k o =>
    let w := (s.gh k).wire
    if w = 0 then (u, s)
    else
      let s := s.modGh k fun g => { g with wire := w - min 3 w }
      if w < 3 then (u, s)
      else (⟨u.bs, true⟩, s.detectStack k (o / 64 * 64) (if write then 2 else 1) false none)
  | _ => (u, s)
/-- A 64-byte unit as a reader outside the stacks receives it (R224, R225). -/
def State.fetch (s : State) (da : Nat) : UnitP × State :=
  let (u, s) := s.sense da
  s.arrive false da u
/-- k units from an address up. -/
def State.fetchN (s : State) (da : Nat) : Nat → List UnitP × State
  | 0 => ([], s)
  | k + 1 =>
    let (u, s) := s.fetch da
    let (us, s) := s.fetchN (da + 64) k
    (u :: us, s)
/-- A range is read for its check codes (R224): whoever takes its bytes after finds a failing sector either read anew or
poisoned. -/
def State.touch (s : State) (da n : Nat) : State :=
  if n = 0 then s else (s.fetchN (da / 64 * 64) (ceilDiv (da % 64 + n) 64)).2
/-- The bytes of units. -/
def bytesOf (us : List UnitP) : List Byte := us.flatMap UnitP.bs
/-- Units that a Glasshouse writes to its banks, or that lie outside the stacks, with their poison. -/
def State.storeUnits (s : State) (da : Nat) (us : List UnitP) : State :=
  s.wrUnits da (us.map fun u => (u.bs, u.poison))
/-- Units written from outside, with their poison; those to a stack cross its interface (R225). -/
def State.putUnits (s : State) (da : Nat) : List UnitP → State
  | [] => s
  | u :: us =>
    let (u, s) := s.arrive true da u
    (s.wrUnit da u.bs u.poison).putUnits (da + 64) us
/-- Bytes written within a unit: a write of less than a whole stack sector reads the sector first, and stores its true
code again only if it read back clean (R201). -/
def State.rmwPart (s : State) (da : Nat) (bs : List Byte) (p : Bool) : State :=
  if bs.length = 64 ∧ da % 64 = 0 then s.wrPart da bs p
  else
    let (u, s) := s.sense da
    (s.wrPart da bs p).doIf (!p && !u.poison && isStack da) fun s => s.setPoison da false
/-- Bytes of a write, 64-byte unit by unit, with a poison bit for each unit they touch; the units of a stack as
`rmwPart` does, after they have crossed its interface where the write comes from outside. -/
def rmwPieces (out : Bool) (da : Nat) : List Byte → List Bool → State → State
  | bs, p :: ps, s =>
    let k := 64 - da % 64
    let (u, s) := if out then s.arrive true da ⟨[], p⟩ else (⟨[], p⟩, s)
    let s := s.rmwPart da (bs.take k) u.poison
    match ps with
    | [] => s
    | _ => rmwPieces out (da + k) (bs.drop k) ps s
  | _, [], s => s

/-! ### The cache (R154, R155, R164) -/

/-- Set of the cache that an entry goes to (assumption 11, DESIGN CHOICE). -/
def cacheSet (i : Nat) : Nat := Config.cacheSet i % 4096
/-- ACCESS of a cached entry is written back (R155). -/
def writeBack (k i : Nat) (s : State) : State :=
  match tabFind (s.gh k).cache i with
  | some e => s.wr (s.dirAddr (i * 8 + k) + 28) (natLe 4 e.access)
  | none => s
/-- FLUSH (R163): every cached ACCESS is written back. -/
def dirFlush (k : Nat) (s : State) : State :=
  (s.gh k).cache.foldl (fun s e => writeBack k e.1 s) s
/-- INVAL (R164): it takes one GH_CLK cycle for each valid entry, and at least 1. -/
def dirInval (k : Nat) (s : State) : State :=
  s.modGh k fun g => { g with inval := some (s.now + max 1 g.cache.length * fabTicks) }
/-- The invalidation finishes: every cached entry is written back and dropped. -/
def dirInvalDone (k : Nat) (s : State) : State :=
  match (s.gh k).inval with
  | none => s
  | some t =>
    let s := dirFlush k (s.advance t)
    s.modGh k fun g => { g with cache := [], inval := none }
/-- Room for an entry in its set: the way that goes is open (assumption 11, DESIGN CHOICE); an entry that is
MIGRATING stays. -/
def dirEvict (k i : Nat) (s : State) : State :=
  let ways := (s.gh k).cache.filter fun e => cacheSet e.1 == cacheSet i
  let out := ways.filter fun e => !e.2.migrating
  if (s.gh k).cache.length < 16 then s
  else if ways.length < 16 ∨ out.isEmpty then s
  else
    let (v, s) := s.free 32
    match out[v % out.length]? with
    | some e =>
      let s := writeBack k e.1 s
      s.modGh k fun g => { g with cache := tabDel g.cache e.1 }
    | none => s
/-- An entry is looked up (R154): its value, and the cause of a failure: 0x02 when the CRC
mismatches, 0x09 when its sector is poisoned. -/
def dirLookup (h : Nat) (s : State) : DirEnt × Nat × State :=
  let k := h % 8
  let s := dirInvalDone k s
  match tabFind (s.gh k).cache (h / 8) with
  | some e => (e, 0, s.bump (.ghDirStat k) F.ghDirStatHits 1)
  | none =>
    let s := s.bump (.ghDirStat k) F.ghDirStatMisses 1
    let (u, s) := s.sense (s.dirAddr h)
    let (e, crc) := s.dirStored h
    if u.poison then (e, 0x09, s)
    else if crc ≠ crc32 ((s.rd (s.dirAddr h) 24)) then (e, 0x02, s)
    else
      let s := dirEvict k (h / 8) s
      (e, 0, s.modGh k fun g => { g with cache := tabSet g.cache (h / 8) e })

/-! ### Resolution (R148, R151-R153, R156) -/

/-- The tile heap's mark on a space that no entry names any more. -/
def heapFree (da : Nat) (s : State) : State :=
  match placeOf (canon da) with
  | .stack k o => s.modGh k fun g => { g with heap := g.heap.map fun e =>
      if e.1 = o then (e.1, { e.2 with freed := true }) else e }
  | _ => s
/-- A migration is given up: its copy is freed, and a COPY command that has not started is taken back (R159). -/
def dropMig (h : Nat) (s : State) : State :=
  match tabFind (s.gh (h % 8)).migs h with
  | none => s
  | some da =>
    (heapFree da s).modGh (h % 8) fun g => { g with
      migs := tabDel g.migs h
      queues := g.queues.map fun q => if q.1 = 14
        then (q.1, q.2.filter fun c => c.start.isSome || (c.ws.getD 2 0).toNat != da) else q
      waiting := g.waiting.filter fun p => p.q != 14 || (p.ws.getD 2 0).toNat != da }
/-- The bytes of an entry in the free state (R164). -/
def freeEntry : List Byte := List.replicate 24 0 ++ natLe 4 (crc32 (List.replicate 24 0)) ++ natLe 4 0
/-- Virhan rewrites the two entries of a poisoned directory sector to the free state (R153). The tiles that they named
are lost; a RECOMPUTE of one re-runs its producer (R359). -/
def freeSector (h : Nat) (s : State) : State :=
  let h0 := h / 16 * 16 + h % 8
  let s := dropMig (h0 + 8) (dropMig h0 s)
  let s := s.wrUnit (s.dirAddr h0) (freeEntry ++ freeEntry) false
  s.modGh (h % 8) fun g => { g with cache := tabDel (tabDel g.cache (h0 / 8)) (h0 / 8 + 1) }
/-- A failed resolution (R153): GH_DIR_ERR and the error record; entries of a poisoned sector are freed. -/
def dirFail (h cause : Nat) (s : State) : State :=
  let k := h % 8
  let s := s.setFld (.ghDirErr k) F.ghDirErrHandle h
  let s := s.setFld (.ghDirErr k) F.ghDirErrCause cause
  let s := s.raise { src := srcOf 2 k 0, code := ecTileDir, detail := [(32, 3, h), (35, 1, cause)] }
  s.doIf (cause == 0x09) (freeSector h)
/-- True when a location lies in a range that R151 allows. -/
def locOk (da : Nat) : Bool := decide (da < 0x020010000000)
/-- Checks of an entry (R153): the cause, 0 for none. -/
def entFault (e : DirEnt) : Nat :=
  if e.valid = false then 0x01
  else if 5 < e.fmt ∨ 6 < e.etype ∨ bitsOf e.w0 50 40 ≠ 0 ∨ e.w1 % 2 ^ 36 ≠ 0 ∨ e.w2 % 2 ^ 16 ≠ 0 then 0x05
  else if locOk e.da = false then 0x03
  else 0
/-- ACCESS of an entry counts a resolution (R152). -/
def dirCount (h : Nat) (e : DirEnt) (s : State) : State :=
  s.modGh (h % 8) fun g =>
    { g with cache := tabSet g.cache (h / 8) { e with access := min (e.access + 1) 0xFFFFFFFF } }
/-- A resolution of a handle, for a write only or for reading: the entry, the cause of its failure
(recorded), and ACCESS counted (R152). A location in a directory region is an access under R147 (cause 0x06). -/
def resolve (h : Nat) (write : Bool) (s : State) : DirEnt × Nat × State :=
  let k := h % 8
  let no : DirEnt := ⟨0, 0, 0, 0⟩
  if !s.bit (.ghDirCtl k) F.ghDirCtlEn then (no, 0x07, dirFail h 0x07 s)
  else if write && h == 0 then (no, 0x06, dirFail h 0x06 s)
  else
    let (e, c, s) := dirLookup h s
    let c := if c ≠ 0 then c else entFault e
    let c := if c = 0 ∧ s.inDir e.da (e.len * 64) then 0x06 else c
    let (u, s) := if c = 0 ∧ write = false then s.sense e.da else (⟨[], false⟩, s)
    let hd := hdrOf u.bs
    let c := if c = 0 ∧ write = false ∧ (hd.format ≠ e.fmt ∨ hd.etype ≠ e.etype ∨ hd.len ≠ e.len)
      then 0x04 else c
    if c ≠ 0 then (e, c, dirFail h c s) else (e, 0, dirCount h e s)
/-- A tile read through a handle: its units, all poisoned while POISON is 1 (R162). -/
def tileUnits (e : DirEnt) (s : State) : List UnitP × State :=
  let (us, s) := s.fetchN e.da e.len
  (us.map fun u => { u with poison := u.poison || e.poison }, s)
/-- Units of a tile that a Glasshouse reads, with the tile's POISON: those of a list of unit numbers. -/
def tilePick (e : DirEnt) : List Nat → State → List UnitP × State
  | [], s => ([], s)
  | i :: is, s =>
    let (u, s) := s.sense (e.da + 64 * i)
    let (us, s) := tilePick e is s
    (⟨u.bs, u.poison || e.poison⟩ :: us, s)

/-! ### The tile heap (R203, R218) -/

/-- Heap bounds of a stack, as stack-local offsets; an empty heap where it overlaps the directory
region, so that every allocation fails. -/
def State.heapRange (s : State) (k : Nat) : Nat × Nat :=
  let a := s.fld (.ghHeapBase k) F.ghHeapBaseOffset * dirSize
  let b := s.fld (.ghHeapLim k) F.ghHeapLimOffset * dirSize
  if a < b ∧ s.inDirLocal k a (b - a) = false then (a, b) else (0, 0)
/-- True while a stream transfer in flight still reads from a range (R156). -/
def State.streamReads (s : State) (da len : Nat) : Bool :=
  s.cores.any fun c => c.2.strq.any fun q => (q.2.inflight ++ q.2.todo).any fun t =>
    decide (canon t.src < da + len ∧ da < canon t.src + t.units * 64)
/-- Freed space that no operation uses any more returns to the heap. -/
def heapSweep (k : Nat) (s : State) : State :=
  s.modGh k fun g => { g with heap := g.heap.filter fun e =>
    !(e.2.freed && !s.streamReads (stackBase k + e.1) (e.2.len * 64)) }
/-- The free ranges of a heap, from a position up: (start, bytes). -/
def heapGaps : Nat → Nat → Tab HeapUse → List (Nat × Nat)
  | a, b, [] => if a < b then [(a, b - a)] else []
  | a, b, (o, u) :: r =>
    if o < a ∨ b ≤ o then heapGaps a b r
    else (if a < o then [(a, o - a)] else []) ++ heapGaps (o + u.len * 64) b r
/-- The n-th place that holds `len` bytes. -/
def gapPick (len : Nat) : Nat → List (Nat × Nat) → Nat
  | _, [] => 0
  | n, (a, l) :: r =>
    let c := if len ≤ l then (l - len) / 64 + 1 else 0
    if n < c then a + 64 * n else gapPick len (n - c) r
/-- The stack-local offset of a sector of a row (R202). -/
def rowSector (r : RowAt) (col : Nat) : Nat :=
  r.row * 2 ^ 21 + (r.bank ^^^ bitsOf r.row 10 6) * 2 ^ 16 + col / 4 * 2 ^ 14 + (r.pc ^^^ bitsOf r.row 5 0) * 2 ^ 8 +
    col % 4 * 64
/-- The heap with the sectors of the rows left mapped for lack of a spare, which no allocation takes (R228). -/
def Gh.heldHeap (g : Gh) : Tab HeapUse :=
  (g.unspared.flatMap fun r => (List.range 16).map (rowSector r)).foldl (fun t o =>
    if (tabFind t o).isSome then t else tabSet t o ⟨1, 0, false⟩) g.heap
/-- New space in a stack's heap (R218): which free range is taken is open; `none` when none holds
the tile. -/
def heapAlloc (k h units : Nat) (s : State) : Option Nat × State :=
  let s := heapSweep k s
  let (a, b) := s.heapRange k
  let gaps := heapGaps a b (s.gh k).heldHeap
  let c := gaps.foldl (fun n g => if units * 64 ≤ g.2 then n + (g.2 - units * 64) / 64 + 1 else n) 0
  if c = 0 then (none, s)
  else
    let (v, s) := s.free 64
    let o := gapPick (units * 64) (v % c) gaps
    (some (stackBase k + o), s.modGh k fun g => { g with heap := tabSet g.heap o ⟨units, h, false⟩ })


/-! ### Switches and migration (R152, R157-R160) -/

/-- A migration is abandoned: MIGRATING is cleared and the copy freed; it is not tried again in this
placement interval (R159). -/
def abandonMig (h : Nat) (s : State) : State :=
  let e := s.dirEnt h
  if e.migrating then
    let s := (dropMig h s).dirWrite h (e.set 51 false)
    { s.bump .placeStat F.placeStatAbandoned 1 with hif := { s.hif with abandoned := s.hif.abandoned ++ [h] } }
  else s
/-- The entry that a switch leaves. -/
def switchedEnt (e : DirEnt) (t : TileSwitch) : DirEnt :=
  { e with
    w0 := t.fmt * 2 ^ 60 + t.etype * 2 ^ 56 + 2 ^ 55 + b2n e.pinned * 2 ^ 53 + b2n t.constch * 2 ^ 52 +
      t.da / 64
    w1 := t.len * 2 ^ 48 + t.slot * 2 ^ 36
    w2 := (e.version + 1) % 2 ^ 32 * 2 ^ 32 + t.nnz * 2 ^ 16 }
/-- TILE_SWITCH (R157): in one GH_CLK cycle the entry takes the new content; the old space is freed. -/
def tileSwitch (t : TileSwitch) (s : State) : State :=
  let s := abandonMig t.h s
  let e := s.dirEnt t.h
  let s := s.doIf (e.da ≠ t.da) (heapFree e.da)
  s.dirWrite t.h (switchedEnt e t)
/-- Room for a tile's new content through a handle (R157, R160): new space for an unpinned entry, its own for a
pinned one. The cause of a failure, the switch to come, the state. -/
def handleRoom (h : Nat) (bs : List UnitP) (slot : Nat) (constch : Bool) (s : State) :
    Nat × Option TileSwitch × State :=
  let (e, c, s) := resolve h true s
  let hd := hdrOf (bytesOf (bs.take 1))
  if c ≠ 0 then (c, none, s)
  else if e.pinned then
    if denseLen e.etype < bs.length then (0x0A, none, dirFail h 0x0A s)
    else (0, some ⟨h, e.da, bs.length, hd.format, hd.etype, hd.nnz, slot, constch⟩, s)
  else
    match heapAlloc (h % 8) h bs.length s with
    | (none, s) => (0x08, none, dirFail h 0x08 s)
    | (some da, s) => (0, some ⟨h, da, bs.length, hd.format, hd.etype, hd.nnz, slot, constch⟩, s)
/-- The space of a switch that will not happen is freed; that of a pinned entry stays its own. -/
def switchLapse (s : State) (t : TileSwitch) : State := s.doIf ((s.dirEnt t.h).da != t.da) (heapFree t.da)
/-- An accumulate-in-place command on a handle completes: VERSION advances (R152, R158). -/
def bumpVersion (h : Nat) (s : State) : State :=
  let e := s.dirEnt h
  s.dirWrite h { e with w2 := withBits e.w2 63 32 (e.version + 1) }
/-- Some descriptor with RAW set of a command in flight, or a DA that a running LAUNCH_KERNEL gives, lies in
a tile's bytes (R365). -/
def State.namedRaw (s : State) (e : DirEnt) : Bool :=
  let a := canon e.da
  let meets := fun (d n : Nat) => decide (canon d < a + e.len * 64 ∧ a < canon d + max 1 n)
  s.hif.jobs.any (fun j => j.2.descs.any fun bs => bitAt (fieldAt bs 6 2) 14 && meets (fieldAt bs 32 8)
    (fieldAt bs 16 4 * ceilDiv (fieldAt bs 8 4) 128 * ceilDiv (fieldAt bs 12 4) 128 * denseLen (fieldAt bs 4 1 % 16) * 64)) ||
  s.hif.kernels.any fun k => s.hif.qps.any fun q => q.1 == k.q && q.2.cmds.any fun c => c.id == k.cmd &&
    [2, 4, 6].any fun i => meets (c.ws.getD i 0).toNat 1
/-- A tile that the placement service may move (R159, R160, R365). -/
def State.movable (s : State) (h : Nat) : Bool :=
  let e := s.dirEnt h
  s.bit (.ghDirCtl (h % 8)) F.ghDirCtlEn && entFault e == 0 && !e.pinned && !e.migrating && !e.poison && h != 0 &&
    !s.hif.abandoned.contains h && !s.namedRaw e
/-- MIGRATION_SWITCH (R159): once the copy has ended, LOC switches and MIGRATING is cleared in one update. -/
def migSwitch (h : Nat) (s : State) : State :=
  let k := h % 8
  match tabFind (s.gh k).migs h with
  | none => s
  | some da =>
    let e := s.dirEnt h
    if e.migrating = false ∨ (s.gh k).copying da then s
    else
      let s := heapFree e.da s
      let s := s.modGh k fun g => { g with migs := tabDel g.migs h }
      let s := s.bump .placeStat F.placeStatMigrated 1
      s.dirWrite h { (e.set 51 false) with w0 := withBits (e.set 51 false).w0 39 0 (da / 64) }

/-! ### Registers (R163, R164, R218) -/

/-- Virhan's control cores alone write the heap bounds (R203); a write of another requester is refused as one of a
conflicting configuration is (assumption 175, DEDUCED). -/
def Requester.isCc : Requester → Bool
  | .cc _ => true
  | _ => false
/-- A write of GH_DIR_BASE or of a heap bound: refused while EN is 1 (R164, R218). -/
def dirBaseWrite (k : Nat) (r : Reg) (v : Nat) (s : State) : State :=
  if s.bit (.ghDirCtl k) F.ghDirCtlEn then s.conflict (srcOf 2 k 0) (regAddr r) v
  else s.plainWrite r v
/-- A write of a heap bound (R203, R218). -/
def heapBoundWrite (r : Requester) (k : Nat) (x : Reg) (v : Nat) (s : State) : State :=
  if Requester.isCc r then dirBaseWrite k x v s else s.conflict (srcOf 2 k 0) (regAddr x) v
/-- A write of GH_DIR_CTL (R163). -/
def dirCtlWrite (k v : Nat) (s : State) : State :=
  let s := s.plainWrite (.ghDirCtl k) v
  (s.doIf (bitAt v 2) (dirFlush k)).doIf (bitAt v 1) (dirInval k)

/-! ### Accesses of the Orangery (R249-R252) -/

/-- A read or write reaches the Orangery: units are written with their poison (R251, R252), and units that are read
and fail their parity are noticed (R477). -/
def orangeryAccess (off len : Nat) (data : List Byte) (write poison : Bool) (s : State) : State :=
  let l := if write then data.length else len
  if 0x10000000 < off + l then
    s.raise { src := srcOf 6 (orgSlice off) 0, code := ecDescRange, addr := orgBase + off }
  else if write then
    wrPieces (orgBase + off) data (List.replicate (ceilDiv (off % 64 + l) 64) poison) s
  else
    let k := if l = 0 then 0 else ceilDiv (off % 64 + l) 64
    { (s.senseN (orgBase + off / 64 * 64) k).2 with
      reply := some ⟨s.rdN (orgBase + off) l, b2n (s.anyPoison (orgBase + off) l) * 3⟩ }

/-! ### The commands -/

/-- HANDLE_RESOLVE (R153): the answer is the tile's location, with the failure flag. -/
def execHandleResolve (_r : Requester) (h : BitVec 24) (write : Bool) (s : State) :
    Host.Outcome State Fault Refusal :=
  run (fun s =>
    let (e, c, s) := resolve h.toNat write s
    { s with reply := some ⟨e.da, b2n (c != 0)⟩ }) s
/-- TILE_SWITCH (R157): the oldest switch of the handle that waits. -/
def execTileSwitch (h : BitVec 24) (s : State) : Host.Outcome State Fault Refusal :=
  run (fun s =>
    let k := h.toNat % 8
    let all := (s.gh k).queues.flatMap fun q => q.2.flatMap GhCmd.switches
    match all.find? fun t => t.h == h.toNat with
    | none => s
    | some t =>
      let s := s.modGh k fun g => { g with queues := g.queues.map fun q =>
        (q.1, q.2.map fun c => { c with switches := c.switches.filter fun u => u != t }) }
      tileSwitch t s) s

/-- MIGRATION_SWITCH (R159). -/
def execMigrationSwitch (h : BitVec 24) (s : State) : Host.Outcome State Fault Refusal :=
  run (migSwitch h.toNat) s
/-- GH_DIR_FLUSH (R163). -/
def execGhDirFlush (k : StackId) (s : State) : Host.Outcome State Fault Refusal := run (dirFlush k) s
/-- GH_DIR_INVAL (R163, R164). -/
def execGhDirInval (k : StackId) (s : State) : Host.Outcome State Fault Refusal := run (dirInval k) s
/-- GH_DIR_INVAL_DONE (R164). -/
def execGhDirInvalDone (k : StackId) (s : State) : Host.Outcome State Fault Refusal :=
  run (dirInvalDone k) s
/-- GH_DIR_BASE_WRITE (R164). -/
def execGhDirBaseWrite (_r : Requester) (k : StackId) (v : Word) (s : State) :
    Host.Outcome State Fault Refusal := run (dirBaseWrite k (.ghDirBase k) v.toNat) s
/-- GH_HEAP_WRITE (R218). -/
def execGhHeapWrite (r : Requester) (k : StackId) (lim : Bool) (v : Word) (s : State) :
    Host.Outcome State Fault Refusal :=
  run (heapBoundWrite r k (if lim then .ghHeapLim k else .ghHeapBase k) v.toNat) s
/-- ORANGERY_ACCESS (R250, R251). -/
def execOrangeryAccess (_r : Requester) (off len : Nat) (data : List Byte) (write poison : Bool)
    (s : State) : Host.Outcome State Fault Refusal := run (orangeryAccess off len data write poison) s

end Sys2Proof.Machine
end

