-- ==== Sys2Proof/Machine/Mxe.lean ====
section
/-! DEFINITION. Matrix engines (spec/03, spec/04, R316-R323): configurations, widths, weight loads,
fills, the passes and their feeder, drains and their swap, the array checksum, bypass and activity. -/

namespace Sys2Proof.Machine

/-! ### Configuration and widths (R65-R69, R86-R89) -/

/-- GANG of a core's MXE_CFG. -/
def State.gang (s : State) (n : Nat) : Nat := s.fld (.mxeCfg n 0) F.mxeCfgGang
/-- Transpose bit of an MXE (R65). -/
def State.transp (s : State) (n m : Nat) : Bool := bitAt (s.fld (.mxeCfg n 0) F.mxeCfgTranspose) m
/-- Checksum enable of an MXE (R81). -/
def State.abftEn (s : State) (n m : Nat) : Bool := bitAt (s.fld (.mxeCfg n 0) F.mxeCfgAbftEn) m
/-- Lead of the gang an MXE belongs to (R69). -/
def leadOf (g m : Nat) : Nat := if g = 1 then m / 2 * 2 else if g = 2 then 0 else m
/-- Members of the gang an MXE belongs to, in member order (R69, R89). -/
def membersOf (g m : Nat) : List Nat :=
  if g = 1 then [m / 2 * 2, m / 2 * 2 + 1] else if g = 2 then [0, 1, 2, 3] else [m]
/-- Physical columns that MXE_BYPASS bypasses, each once (R86). -/
def bypassedOf (w : Nat) : List Nat :=
  ((List.range 4).filterMap fun i =>
    if bitAt w (8 * i + 7) then some (bitsOf w (8 * i + 6) (8 * i)) else none).dedup
/-- Number of distinct bypassed columns of an array (R87). -/
def State.bypassed (s : State) (n m : Nat) : Nat := (bypassedOf (s.word (.mxeBypass n m))).length
/-- Width of an array in the mode of an element type (R87). -/
def widthOf (et b : Nat) : Nat :=
  if et = etInt4 then 256 - 2 * b else if et = etBf16 then (128 - b) / 2 else 128 - b
/-- FENCED reads the TST_FENCE bit of the MXE (R495). -/
def State.fenced (s : State) (n m : Nat) : Bool := bitAt (s.fld (.tstFence n) F.tstFenceMxe) m
/-- MXE_WIDTH (R87): widths read 0 while the MXE is fenced. -/
def State.mxeWidthWord (s : State) (n m : Nat) : Nat :=
  let b := s.bypassed n m
  if s.fenced n m then b * 2 ^ 25
  else b * 2 ^ 25 + widthOf etBf16 b * 2 ^ 17 + widthOf etInt8 b * 2 ^ 9 + widthOf etInt4 b
/-- A weight load in flight. -/
def Mxe.loading (x : Mxe) : Bool := x.load.isSome || x.cur.isSome
/-- An operation holds an MXE: one waits on its feeder, a load or a drain is in flight. -/
def Mxe.held (x : Mxe) : Bool := !x.feeder.isEmpty || x.loading || !x.drains.isEmpty
/-- A pass, weight load or drain is in flight (R96): a member of a gang takes part in the passes of its
lead's feeder (R69), and a pass is in flight until its last result is readable. -/
def State.mxeBusy (s : State) (n m : Nat) : Bool :=
  let l := s.mxe n (leadOf (s.gang n) m)
  (s.mxe n m).held || !l.feeder.isEmpty || decide (s.cyc n < l.busyTill)
/-- No MXE of a core has a pass, a weight load or a drain in flight (R66). -/
def State.mxesIdle (s : State) (n : Nat) : Bool := (List.range 4).all fun m => !s.mxeBusy n m

/-- The active and standby weights of an MXE become invalid (R68). -/
def invalidateWeights (x : Mxe) : Mxe :=
  { x with active := {}, standby := {}, load := none, cur := none, lastLoad := none, issValid := false,
           issStandby := none, spans := [] }
/-- WVALID and SVALID of an MXE's status read 0. -/
def State.dropWeights (s : State) (n m : Nat) : State :=
  let s := s.modMxe n m invalidateWeights
  let s := s.setFld (.mxeStatus n m) F.mxeStatusWvalid 0
  s.setFld (.mxeStatus n m) F.mxeStatusSvalid 0
/-- Bytes of a range of memory become 0. -/
def State.zero (s : State) (a len : Nat) : State :=
  { s with mem := s.mem.filter fun c => ¬ (a ≤ c.1 ∧ c.1 < a + len) }
/-- A tile becomes FREE: every entry 0, no latched parameters (R99). -/
def State.freeTile (s : State) (n m t : Nat) : State :=
  (s.modMxe n m fun x => { x.setTile t {} with stale := x.stale.filter fun e => e.tile != t }).zero
    (accBase n m t) 0x10000
/-- Every OPEN tile of an MXE returns to FREE, its contents discarded (R99). -/
def State.dropOpen (s : State) (n m : Nat) : State :=
  (List.range 8).foldl (fun s t =>
    if ((s.mxe n m).tile t).st = 1 then s.freeTile n m t else s) s

/-- A write to MXE_CFG is refused (R67). -/
def cfgBad (v : Nat) : Bool :=
  let g := F.mxeCfgGang.of v
  decide (g = 3) || (g == 1 && F.mxeCfgTranspose.of v != 0) || (g == 2 && F.mxeCfgTranspose.of v != 0)
/-- A write of MXE_CFG takes effect (R68, R84, R99): the affected MXEs lose weights and open tiles. -/
def applyCfg (n : Nat) (v : Nat) (s : State) : State :=
  let old := s.word (.mxeCfg n 0)
  let gangCh := decide (F.mxeCfgGang.of old ≠ F.mxeCfgGang.of v)
  let s := s.plainWrite (.mxeCfg n 0) v
  (List.range 4).foldl (fun s m =>
    let s := s.modMxe n m fun x => { x with passNo := 0 }
    if gangCh || bitAt (F.mxeCfgTranspose.of old) m != bitAt (F.mxeCfgTranspose.of v) m
    then (s.dropWeights n m).dropOpen n m else s) s
/-- MXE_CFG_WRITE (R65-R67): refused whole, applied at once while the core's MXEs are idle, held
otherwise; a scalar unit's held write stalls its core (R66). A write that comes while one is held takes its
place (assumption 159, DESIGN CHOICE). -/
def mxeCfgWrite (r : Requester) (n : Nat) (v : Word) (s : State) : State :=
  if cfgBad v.toNat then
    s.refuseWrite (srcOf 1 n 1) (regAddr (.mxeCfg n 0)) v.toNat ecDescFormat
  else if s.mxesIdle n then applyCfg n v.toNat s
  else
    let s := s.modCore n fun c => { c with cfgHeld := some v }
    match r with
    | .core _ => s.stallOn n ((s.core n).running.getD 0) stCfgWrite
    | _ => s
/-- MXE_CFG_APPLY (R66): the held write takes effect in the moment the last operation has left. -/
def mxeCfgApply (n : Nat) (s : State) : State :=
  match (s.core n).cfgHeld with
  | none => s
  | some v =>
    if (List.range 4).all fun m => !(s.mxe n m).held then
      let s := s.toCyc n ((List.range 4).foldl (fun a m => max a (s.mxe n m).busyTill) 0)
      let s := applyCfg n v.toNat (s.modCore n fun c => { c with cfgHeld := none })
      match (s.core n).stall with
      | some st => if st.cause = stCfgWrite then s.stallOff n else s
      | none => s
    else s

/-- MXE_BYPASS_WRITE (R86): accepted only while FENCED; a change of the set of columns invalidates
the weights. -/
def mxeBypassWrite (n m : Nat) (v : Nat) (s : State) : State :=
  if s.fenced n m then
    let old := bypassedOf (s.word (.mxeBypass n m))
    let s := s.plainWrite (.mxeBypass n m) v
    let new := bypassedOf (s.word (.mxeBypass n m))
    if old.all (fun c => new.contains c) && new.all (fun c => old.contains c) then s
    else s.dropWeights n m
  else s.conflict (srcOf 1 n (m + 1)) (regAddr (.mxeBypass n m)) v

/-! ### Activity (R91, R92) -/

/-- Activity level of an MXE. -/
def State.level (s : State) (n m : Nat) : Nat := s.fld (.mxeStatus n m) F.mxeStatusLevel
/-- Cycles for which an MXE's ramp-up stalls the whole core (R92). -/
def State.rampCycles (s : State) (n m : Nat) : Nat := 16 * (4 - s.level n m)
/-- A pass or load issued below level 4 stalls the whole core while the level rises; a gang rises
as one unit, and its lead counts the stall (R92, R96). A load of no column and a pass of no vector rise
too (assumption 160, DESIGN CHOICE). The issue of the bundle lets the stall pass once for all its MXEs
(R78). -/
def rampUp (n m : Nat) (s : State) : State :=
  let g := s.gang n
  let k := s.rampCycles n m
  if k ≠ 0 then
    let s := s.bump (.mxeStallCnt n (leadOf g m)) F.mxeStallCntRamp k
    (membersOf g m).foldl (fun s i => (s.setFld (.mxeStatus n i) F.mxeStatusLevel 4).modMxe n i fun x =>
      { x with levelAt := s.cyc n }) s
  else s
/-- First core cycle from which an MXE's feeder has been idle: the lead's feeder serves its gang (R69). -/
def State.idleSince (s : State) (n m : Nat) : Nat := (s.mxe n (leadOf (s.gang n) m)).feedFree
/-- A pass that switches waits for the start of the load before it, on every member (R76). -/
def awaitsLoad (s : State) (n m : Nat) (f : FeedOp) : Bool :=
  f.switch && (membersOf (s.gang n) m).any fun i =>
    decide ((s.mxe n i).standby = {}) || (s.mxe n i).load.any fun l => decide (l.issue < f.issue)
/-- The feeder of an MXE's gang issues no vector: it is empty, or its pass waits for weights (R91). -/
def State.feederIdle (s : State) (n m : Nat) : Bool :=
  let l := leadOf (s.gang n) m
  match (s.mxe n l).feeder with
  | [] => true
  | f :: _ => awaitsLoad s n l f
/-- DUMMY_GAP_MAX as the MXEs take it (R91, R430): 0 under the pin's demand, from 105 °C on, and in an
idle state. -/
def State.gapMax (s : State) : Nat :=
  if s.bit .blwStat F.blwStatFt ∨ s.power.hot ∨ s.fld .hifIdle F.hifIdleState ≠ 0 then 0
  else s.fld .blwGap F.blwGapDummyGapMax
/-- ACTIVITY_RAMP_DOWN (R91): after DUMMY_GAP_MAX idle cycles the level falls by one every 16
cycles, counted from its last change; a gang changes level as one unit (R92). An operation that waits on the
feeder for its weights leaves the cycles idle. -/
def rampDown (n m : Nat) (s : State) : State :=
  let l := s.level n m
  if s.feederIdle n m ∧ l ≠ 0 then
    let due := max (s.idleSince n m + s.gapMax) (s.mxe n m).levelAt + 16
    let s := s.toCyc n due
    (membersOf (s.gang n) m).foldl (fun s i =>
      (s.setFld (.mxeStatus n i) F.mxeStatusLevel (l - 1)).modMxe n i fun x => { x with levelAt := due }) s
  else s
/-- DUMMY_PASS (R91): an idle cycle passes; no accumulator, statistic, counter or status changes. -/
def dummyPass (n : Nat) (s : State) : State := s.advance (s.now + s.div n)

/-! ### Fills (R318, R319) -/

/-- Columns the tile of a set fills (R318): its half of a W4 array, its quadrant in BF16. -/
def partCols (h : TileHdr) (part : Nat) : Nat :=
  if h.etype = etBf16 then (if bitAt part 0 then h.cols - 64 else min h.cols 64) else h.cols
/-- One row of a WS set's body from a tile (R232, R318): offset in the set, bytes. -/
def wsRow (bs : List Byte) (h : TileHdr) (part r : Nat) : Nat × List Byte :=
  if h.etype = etInt4 then
    (r * 128 + (if bitAt part 0 then 64 else 0), packVals 4 (tileRow bs h r 128))
  else if h.etype = etBf16 then
    let r0 := if bitAt part 1 then 64 else 0
    let c0 := if bitAt part 0 then 64 else 0
    (r * 128, packVals 16 ((List.range 64).map fun c => tileElem bs h (r0 + r) (c0 + c)))
  else (r * 128, packVals 8 (tileRow bs h r 128))
/-- The 64-byte units of a WS set that a fill writes (R232): one half of each row for an INT4 part, the
first 8,192 bytes in BF16 mode. -/
def wsFilled (et part : Nat) : List Nat :=
  if et = etInt4 then (List.range 128).map fun r => 2 * r + b2n (bitAt part 0)
  else List.range (if et = etBf16 then 128 else 256)
/-- PART is legal for a tile's type (R318). -/
def partBad (h : TileHdr) (part : Nat) : Bool :=
  decide (part ≠ 0) && !(h.etype == etBf16) && !(h.etype == etInt4 && part == 1)
/-- Element types of weights an array holds (R62). -/
def isWeightType (et : Nat) : Bool := decide (et ≤ 4)
/-- Fault of a FILL's source (R138, R319), 0 for none. -/
def fillFault (bs : List Byte) (avail part : Nat) : Nat :=
  let h := hdrOf bs
  let f := tileFault bs avail
  if f ≠ 0 then f
  else if !isWeightType h.etype || partBad h part then ecDescFormat else 0
/-- The bytes of a tile at a CM offset, as many as its header states within CM. -/
def State.cmTile (s : State) (n off : Nat) : List Byte :=
  let h := hdrOf (s.cm n off 64)
  s.cm n off (min (max (h.len * 64) 64) (cmSize - off))
/-- The CM offsets of a FILL's wide reads, one per cycle from the cycle after issue (R542): for a WS set only the
units that the expansion needs, a header that fails alone. An access that would run past CM at the end of a tile
begins earlier (assumption 173, DESIGN CHOICE). -/
def State.fillReads (s : State) (n : Nat) (a : FillArgs) : List Nat :=
  let off := a.src.toNat * 64
  if a.dk then
    let bs := s.cmTile n off
    let h := hdrOf bs
    let at64 := fun (i : Nat) => if bitAt a.part.toNat i then 64 else 0
    let us := if headFault h (cmSize - off) ≠ 0 then [0]
      else if h.etype = etBf16 then tileNeeds bs h (at64 1) 64 (at64 0) 64 else List.range h.len
    (wideCover (us.filter fun u => decide (off + 64 * u < cmSize)) 0).map fun u => min (off + 64 * u) (cmSize - 512)
  else (List.range (ceilDiv a.len.toNat 8)).map fun i => off + 512 * i
/-- Cycles of a FILL: 3 and one per wide access to an AB; 36 to a WS set, and one more for each wide access beyond
32 (R319). -/
def fillCycles (dk : Bool) (reads : Nat) : Nat := if dk then 36 + (reads - 32) else 3 + reads
/-- Fault of a FILL at decode: DK 1 with LEN, DK 0 with PART or SET, a range past AB or CM. -/
def fillDecode (a : FillArgs) : Nat :=
  if a.dk then firstFault [
    failIf (decide (a.len.toNat ≠ 0)) ecDescFormat 8,
    failIf (decide (a.aboff.toNat ≠ 0)) ecDescFormat 41,
    failIf (wideBad (a.src.toNat * 64) 64) ecDescRange 24]
  else firstFault [
    failIf (decide (a.part.toNat ≠ 0)) ecDescFormat 6,
    failIf (decide (a.set.val ≠ 0)) ecDescFormat 53,
    failIf (wideBad (a.src.toNat * 64) (a.len.toNat * 64)) ecDescRange 24,
    failIf (decide (0x40000 < (a.aboff.toNat + a.len.toNat) * 64)) ecDescRange 41]
/-- A FILL issues: it reads its source from the next cycle on, and is in flight until its completion cycle (R319,
R542). -/
def fillIssue (n c m : Nat) (a : FillArgs) (s : State) : State :=
  let t := s.cyc n
  let reads := (s.fillReads n a).zipIdx.map fun r => (t + 1 + r.2, r.1)
  let s := reads.foldl (fun s r => s.sched n 8 r.2 512 r.1 false) s
  s.modCore n fun x =>
    { x with fills := x.fills ++ [⟨c, s.pc n c, t, m + 1, m, a, t + fillCycles a.dk reads.length, reads, []⟩] }
/-- A line, or a set, is read in a cycle (R234): by bytes lo to hi − 1 of the AB, or as a WS set. -/
def LineRead.hits (r : LineRead) (set : Option Nat) (lo hi c : Nat) : Bool :=
  let k := max 1 r.step
  let i := (c - r.first) / k
  let a := r.off + i * r.pitch
  r.set == set && decide (r.first ≤ c ∧ (c - r.first) % k = 0 ∧ i < r.count) &&
    (set.isSome || decide (a / 512 ≤ (hi - 1) / 512 ∧ lo / 512 ≤ (a + r.row - 1) / 512))
/-- The first cycle from c on in which a write of a line or set does not meet a read (R234). -/
def Mxe.freeLine (x : Mxe) (set : Option Nat) (lo hi : Nat) : Nat → Nat → Nat
  | 0, c => c
  | k + 1, c => if x.reads.any fun r => r.hits set lo hi c then x.freeLine set lo hi k (c + 1) else c
/-- Cycles in which an MXE's buffers may be read. -/
def Mxe.readCycles (x : Mxe) : Nat := x.reads.foldl (fun a r => a + r.count) 1
/-- The cycle after the last of some writes, one line a cycle from c on, each of which waits while its line is
read (R234, R319). -/
def Mxe.fillEnd (x : Mxe) (set : Option Nat) : List (Nat × Nat) → Nat → Nat
  | [], c => c
  | (lo, hi) :: r, c => x.fillEnd set r (x.freeLine set lo hi x.readCycles c + 1)
/-- Lines that a FILL writes, as byte ranges of its buffer: the cycles before its completion are theirs, one each
(assumption 173, DESIGN CHOICE). -/
def FillOp.lines (f : FillOp) : List (Nat × Nat) :=
  if f.args.dk then (List.range 32).map fun i => (512 * i, 512 * i + 512)
  else (List.range (ceilDiv f.args.len.toNat 8)).map fun i =>
    let lo := f.args.aboff.toNat * 64 + 512 * i
    (lo, min (lo + 512) ((f.args.aboff.toNat + f.args.len.toNat) * 64))
/-- The cycle in which a FILL completes: each cycle in which a line of its turn is read delays it (R319). -/
def State.fillDue (s : State) (n : Nat) (f : FillOp) : Nat :=
  (s.mxe n f.m).fillEnd (if f.args.dk then some f.args.set.val else none) f.lines (f.due - f.lines.length)
/-- The feeder or a weight load of an MXE reads its buffers in cycles to come; what no fill in flight can meet any
more is forgotten. -/
def noteReads (n m : Nat) (rs : List LineRead) (s : State) : State :=
  let from_ := (s.core n).fills.foldl (fun a f => min a f.issue) (s.cyc n)
  s.modMxe n m fun x => { x with reads :=
    (x.reads.filter fun r => decide (from_ ≤ r.first + r.step * r.count)) ++ rs }
/-- A write of a line or set by a stream or the Colonnade waits while the line is read (R234). -/
def lineWait (n m : Nat) (set : Option Nat) (lo hi : Nat) (s : State) : State :=
  let x := s.mxe n m
  let c := x.freeLine set lo hi x.readCycles (s.cyc n)
  s.doIf (decide (s.cyc n < c)) fun s => s.toCyc n c
/-- A write of an engine buffer at a place of the debug view (R234, R235). -/
def engineWait (n m o len : Nat) (s : State) : State :=
  if o < 0x40000 then lineWait n m none o (o + len) s
  else if o < 0x50000 then
    (List.range (ceilDiv (o % 0x4000 + len) 0x4000)).foldl (fun s i => lineWait n m (some ((o - 0x40000) / 0x4000 + i)) 0 0 s) s
  else s
/-- The meta data of a WS set after a valid fill (R318, R319). -/
def fillMeta (old : WsMeta) (h : TileHdr) (part : Nat) : WsMeta :=
  let z := if h.format ≠ fmtDense ∧ decide (h.etype ≤ 1) then some h.zcode else none
  let k := partCols h part
  let old := if old.etype = h.etype ∧ old.valid then old else ⟨old.etype, old.valid, 0, 0, none, none⟩
  if h.etype = etInt4 ∧ bitAt part 0 then
    { old with etype := h.etype, valid := true, colsHi := k, zHi := z }
  else if h.etype = etInt4 then { old with etype := h.etype, valid := true, colsLo := k, zLo := z }
  else ⟨h.etype, true, k, 0, z, none⟩
/-- A FILL completes (R319): AB units are copied as they are; a WS set takes the expanded tile, or
is marked invalid with an error record and nothing written. -/
def fillDone (n : Nat) (f : FillOp) (s : State) : State :=
  let a := f.args
  if a.dk then
    let off := a.src.toNat * 64
    let h := hdrOf (gotBytes f.got off 64)
    let bs := gotBytes f.got off (min (max (h.len * 64) 64) (cmSize - off))
    let part := a.part.toNat
    let code := fillFault bs (cmSize - off) part
    let set := a.set.val
    let old := tabGet {} (s.mxe n f.m).wsMeta set
    if code ≠ 0 then
      let s := s.modMxe n f.m fun x => { x with wsMeta := tabSet x.wsMeta set { old with valid := false } }
      s.raise { src := srcOf 1 n f.slot, code := code, addr := coreBase n + off,
                context := ctxWord f.pc f.ctx }
    else
      let poison := gotPoison f.got off (h.len * 64)
      let rows := if h.etype = etBf16 then 64 else 128
      let s := (List.range rows).foldl (fun s r =>
        let (o, b) := wsRow bs h part r
        s.wr (wsBase n f.m set + o) b) s
      let s := (wsFilled h.etype part).foldl (fun s u => s.setPoison (wsBase n f.m set + u * 64) poison) s
      s.modMxe n f.m fun x => { x with wsMeta := tabSet x.wsMeta set (fillMeta old h part) }
  else
    (List.range a.len.toNat).foldl (fun s u =>
      let v := tabGet ⟨List.replicate 64 0, false⟩ f.got (a.src.toNat + u)
      s.wrUnit (abBase n f.m + (a.aboff.toNat + u) * 64) v.bs v.poison) s

/-! ### Weight loads (R49-R51, R75, R320) -/

/-- Mode element type a WLOAD of a set puts the array in (R319). -/
def State.setType (s : State) (n m set : Nat) : Nat := (tabGet {} (s.mxe n m).wsMeta set).etype
/-- Column count of a load: what the fills of the set gave it; the array's W8 width for a set that
nothing has filled (R89, R319). -/
def loadCols (w : WsMeta) (width : Nat) : Nat :=
  let k := if w.colsHi ≠ 0 then 128 + w.colsHi else w.colsLo
  if k = 0 then width else k
/-- Word j of a parameter block (R233). -/
def State.paramWord (s : State) (n param j : Nat) : Nat := s.cmN n (param * 64 + 8 * j) 8
/-- A column parameter is out of the range of its weight type (R50): 0, or the fault. -/
def zpFault (et w : Nat) : Nat :=
  let z := sx 8 (F.mxeWparamZp.of w)
  if et = etInt4 ∧ ¬ (-8 ≤ z ∧ z ≤ 7) then ecDescRange
  else if 2 ≤ et ∧ z ≠ 0 then ecDescFormat else 0
/-- A column's zero point differs from the zero code of the compressed tile it comes from (R139). -/
def zcodeBad (w : WsMeta) (j word : Nat) : Bool :=
  match if j < 128 then w.zLo else w.zHi with
  | none => false
  | some z => decide (F.mxeWparamZp.of word % 256 ≠ z % 256)
/-- Fault of a WLOAD (R50, R89, R139, R320), 0 for none. -/
def wloadFault (s : State) (n m : Nat) (a : WloadArgs) : Nat :=
  let w := tabGet {} (s.mxe n m).wsMeta a.set.val
  let width := widthOf w.etype (s.bypassed n m)
  let cols := loadCols w width
  if 128 < a.n.toNat ∨ (w.etype = etBf16 ∧ 64 < a.n.toNat) then atBit ecDescRange 46
  else if !w.valid then atBit ecDescFormat 54
  else if a.n.toNat = 0 then 0
  else if cmSize < a.param.toNat * 64 + 2048 then atBit ecDescRange 29
  else if width < cols then atBit ecDescRange 54
  else
    (List.range cols).foldl (fun c j =>
      if c ≠ 0 then c
      else
        let p := s.paramWord n a.param.toNat j
        if zpFault w.etype p ≠ 0 then zpFault w.etype p
        else if zcodeBad w j p then ecDescRange else 0) 0
/-- A WLOAD issues: it waits for its S; N = 0 loads nothing (R320). -/
def wloadIssue (n c m : Nat) (a : WloadArgs) (s : State) : State :=
  let s := rampUp n m s
  if a.n.toNat = 0 then s
  else
    let et := s.setType n m a.set.val
    s.modMxe n m fun x =>
      { x with load := some ⟨c, s.pc n c, a.set.val, a.n.toNat, a.param.toNat, s.cyc n, none⟩
               issStandby := some et }
/-- An FP8 weight as it loads: NaN codes load as +0 and infinities as ±57,344 (R35). -/
def loadCode (et w : Nat) : Nat :=
  if et = etE4 then (if w % 128 = 127 then 0 else w)
  else if et = etE5 then
    (if w % 128 = 124 then w - 1 else if 124 < w % 128 then 0 else w) else w
/-- The code of cell (r, column j) in a WS set (R232). -/
def State.wsCode (s : State) (n m set et r j : Nat) : Nat :=
  let a := wsBase n m set + r * 128
  if et = etInt4 then s.rdN (a + j / 2) 1 / 16 ^ (j % 2) % 16
  else if et = etBf16 then s.rdN (a + 2 * j) 2
  else s.rdN (a + j) 1
/-- The weight set a load forms (R49): codes, parameters, and Σ q_w − n × z_w of each column. -/
def State.readSet (s : State) (n m : Nat) (l : LoadOp) : WeightSet :=
  let w := tabGet {} (s.mxe n m).wsMeta l.set
  let et := w.etype
  let cols := loadCols w (widthOf et (s.bypassed n m))
  let raw := (List.range l.n).map fun r => (List.range cols).map fun j => s.wsCode n m l.set et r j
  let codes := raw.map fun r => r.map (loadCode et)
  let params := (List.range cols).map fun j => BitVec.ofNat 64 (s.paramWord n l.param j)
  let colsum := (List.range cols).map fun j =>
    if isIntMode et then
      codes.foldl (fun (a : Int) r => a + sx (etBits et) (r.getD j 0)) 0 -
        l.n * sx 8 (F.mxeWparamZp.of (params.getD j 0).toNat)
    else 0
  { etype := et, rows := l.n, cols := cols, codes := codes, params := params, colsum := colsum,
    poison := s.anyPoison (wsBase n m l.set) (l.n * 128) ||
      s.cmPoison n (l.param * 64) 2048,
    nanSeen := (2 ≤ et && et ≤ 3) && raw.any fun r => r.any fun c => (elemFp et c).special }
/-- WEIGHT_LOAD_DONE (R49, R75): the column sums are complete at S + ceil(n/4) + 1, and the CSRs
hold the set of this ripple (R48, R51). -/
def weightLoadDone (n m : Nat) (s : State) : State :=
  match (s.mxe n m).cur with
  | some l =>
    let s := s.toCyc n (l.start.getD 0 + ceilDiv l.n 4 + 1)
    let x := s.mxe n m
    let switched := decide (x.standby = {})
    let ws := if switched then x.active else x.standby
    let s := (List.range 256).foldl (fun s j =>
      let s := s.setWord (.mxeWparam n m j) ((ws.params.getD j 0).toNat / 2 ^ 24 * 2 ^ 24)
      s.setWord (.mxeColsum n m j) (ux 32 (ws.colsum.getD j 0))) s
    let s := s.setWord (.mxeRowcnt n m) l.n
    let s := s.doIf (!switched) fun s => s.setFld (.mxeStatus n m) F.mxeStatusSvalid 1
    s.modMxe n m fun x => { x with cur := none }
  | none => s
/-- WEIGHT_LOAD_START (R75): the load begins at S, the first cycle that is no earlier than its issue
and at least 9 after the feeder read of the pass that switches to the previous set; the load before it
has written its rows. It holds the codes that its WS set has at S, also where a program overwrites the set
before the load has read it (R77; assumption 161, DESIGN CHOICE); the parameter block is read in cycles S to
S + 3 (R233). -/
def weightLoadStart (n m : Nat) (s : State) : State :=
  match (s.mxe n m).load with
  | some l =>
    if (s.mxe n (leadOf (s.gang n) m)).feeder.any (fun f => f.switch && decide (f.issue ≤ l.issue)) then s
    else
      let s := weightLoadDone n m s
      let x := s.mxe n m
      let prev := match x.lastLoad with
        | some (s0, k) => s0 + ceilDiv k 4
        | none => 0
      let sw := match x.lastSwitch with
        | some t => t + 9
        | none => 0
      let s0 := max l.issue (max prev sw)
      let s := (s.toCyc n s0).schedRange n (4 + m) (l.param * 64) 2048 s0 false
      let s := noteReads n m [⟨some l.set, 0, 512, 512, s0, 1, ceilDiv l.n 4⟩] s
      let ws := s.readSet n m l
      let s := s.parityRange (wsBase n m l.set) (l.n * 128)
      let s := s.setFld (.mxeStatus n m) F.mxeStatusSvalid 0
      s.modMxe n m fun x =>
        { x with load := none, cur := some { l with start := some s0 }, standby := ws, lastLoad := some (s0, l.n),
                 spans := [1, 2, 3].map fun k => (s0 + k, l.param * 64 + 512 * k, 64 * k) }
  | none => s

/-! ### Checks of passes and drains -/

/-- Rows of a tile by the mode of its opening pass (R98). -/
def tileRows (mode : Nat) (transpose : Bool) : Nat :=
  if mode = 3 then 256 else if mode = 0 ∧ transpose = false then 64 else 128
/-- Full-width column count of a tile (R98). -/
def tileFullCols (mode : Nat) (transpose : Bool) : Nat :=
  if mode = 3 then 64 else if mode = 0 ∧ transpose = false then 256 else 128
/-- Column count of a tile: the array's width, or the 128 (64) k outputs of transpose mode (R73). -/
def tileCols (et : Nat) (transpose : Bool) (b : Nat) : Nat :=
  if transpose then (if et = etBf16 then 64 else 128) else widthOf et b
/-- Operations on the feeder that will have touched a tile. -/
def Mxe.queued (x : Mxe) (t : Nat) : List FeedOp :=
  x.feeder.filter fun f => decide (f.tile = t ∧ 0 < f.m)
/-- A tile as the next operation in program order sees it: queued passes count as done. -/
def State.tileView (s : State) (n m t : Nat) : TileView :=
  let x := s.mxe n m
  let r := x.tile t
  let q := x.queued t
  let et := if r.st = 0 then x.issEtype else r.etype
  let mode := modeOf et
  { isOpen := decide (r.st = 1 ∧ r.closing = false) || (decide (r.st = 0) && !q.isEmpty),
    mode := mode, transpose := if r.st = 0 then s.transp n m else r.transpose,
    mt := q.foldl (fun a f => max a (f.row0 + f.m)) r.mt,
    cols := if r.st = 0 then tileCols et (s.transp n m) (s.bypassed n m) else r.cols }
/-- Sets that the drain unit owns or will own through closing operations in flight (R106, R107). -/
def Mxe.ownedSets (x : Mxe) : List Nat :=
  ((x.drains.filter fun d => !d.swapped).flatMap fun d => d.tile / 4 :: d.partner.toList.map (· / 4)) ++
  (x.feeder.filter FeedOp.close).flatMap fun f =>
    f.tile / 4 :: (gatePartner f.info.chain).toList.map (· / 4)
/-- Drains running, queued or still to come from the feeder. -/
def Mxe.drainsHeld (x : Mxe) : Nat :=
  (x.drains.filter fun d => !d.swapped).length + (x.feeder.filter FeedOp.close).length
/-- The accumulator interlock of an operation on a tile (R107). -/
def accInterlock (s : State) (n m t : Nat) (closing : Option (List Word)) : Bool :=
  (membersOf (s.gang n) m).any fun i =>
    let x := s.mxe n i
    let owned := x.ownedSets
    owned.contains (t / 4) ||
    match closing with
    | none => false
    | some ch => ((gatePartner ch).any fun p => owned.contains (p / 4)) || decide (2 ≤ x.drainsHeld)
/-- The words of a chain slot (R109). -/
def State.chainWords (s : State) (n m c : Nat) : List Word :=
  (List.range 8).map fun w => BitVec.ofNat 64 (s.word (.mxeDrnChain n m c w))
/-- Stored tiles of a type at DST run past CM: counted with the DENSE length of each, in wide accesses from each
tile's start (R238, R317). -/
def dstPast (et dst : Nat) : Nat → Bool
  | 0 => false
  | k + 1 => wideBad (dst * 64) (denseLen et * 64) || dstPast et (dst + denseLen et) k
/-- Fault of a destination: bytes a drain may write (R317). -/
def dstFault (sts : List Stage) (v : TileView) (dst : Nat) : Nat :=
  let et := outType sts (decide (v.mode ≤ 1))
  if v.mt ≠ 0 ∧ dstPast et dst (storedTiles v.mode v.transpose v.mt v.cols).length then ecDescRange else 0
/-- Fault of the closing part of an operation (R112, R317), 0 for none. -/
def closeFault (s : State) (n m t : Nat) (v : TileView) (ch : List Word) (dst : Nat) : Nat :=
  let cf := chainFault s ch v t (fun p => s.tileView n m p)
  if cf ≠ 0 then cf else dstFault (stagesOf ch) v dst
/-- A slot names an MXE that is not its gang's lead (R316). -/
def notLead (s : State) (n m : Nat) : Bool := decide (leadOf (s.gang n) m ≠ m)
/-- The element type whose array mode an operation with or without SWITCH meets. -/
def Mxe.typeFor (x : Mxe) (switch : Bool) : Nat :=
  if switch then x.issStandby.getD x.issEtype else x.issEtype
/-- The activation code types that a mode takes (R62, R64). -/
def wantCode (mode t : Nat) : Bool :=
  if mode ≤ 1 then t == etInt8 else t == etE4 || t == etE5
/-- Column parameters of the weights a transpose pass meets hold a zero point (R74). -/
def State.anyZp (s : State) (n m : Nat) (switch : Bool) : Bool :=
  let x := s.mxe n m
  let ps := match switch, x.load with
    | true, some l =>
      (List.range (loadCols (tabGet {} x.wsMeta l.set) (widthOf (s.setType n m l.set)
        (s.bypassed n m)))).map fun j => BitVec.ofNat 64 (s.paramWord n l.param j)
    | true, none => x.standby.params
    | false, _ => x.active.params
  ps.any fun (p : Word) => decide (F.mxeWparamZp.of p.toNat ≠ 0)
/-- Fault of the slot an opening operation binds (R40, R64, R74), 0 for none; BF16 binds none. -/
def openFault (s : State) (n m slot mode : Nat) : Nat :=
  if mode = 3 then 0
  else
    let f := s.slotFault slot (wantCode mode)
    if f ≠ 0 then f else if s.transp n m && decide ((s.latchSlot slot).zp ≠ 0) then ecDescFormat else 0
/-- The tile that a closing operation of `mv` vectors from row `row0` on, in a mode, leaves to its drain. -/
def TileView.closing (v : TileView) (mode cols : Nat) (tr : Bool) (mv row0 : Nat) : TileView :=
  { v with
    isOpen := true, mode := mode, transpose := tr
    mt := if mv = 0 then v.mt else max v.mt (row0 + mv), cols := if v.isOpen then v.cols else cols }
/-- Fault of a PASS at decode (R64, R68, R98, R316, R317, R321), 0 for none. -/
def passFault (s : State) (n c m : Nat) (a : PassArgs) : Nat :=
  let x := s.mxe n m
  let gang := (membersOf (s.gang n) m).map (s.mxe n)
  let et := x.typeFor a.switch
  let mode := modeOf et
  let tr := s.transp n m
  let v := s.tileView n m a.tile.val
  let mv := a.m.toNat
  match xregOf (s.sreg n c a.xreg.toNat) with
  | none => atBit ecDescFormat 16
  | some q =>
    if notLead s n m then atBit ecDescFormat 56
    else if 256 < mv then atBit ecDescRange 35
    else if 128 < a.arow.toNat + mv then atBit ecDescRange 8
    else if a.kh && decide (mode ≠ 3) then atBit ecDescFormat 15
    else if a.switch && gang.any (fun y => y.issStandby.isNone) then atBit ecDescFormat 7
    else if !a.switch && gang.any (fun y => !y.issValid) then atBit ecDescFormat 7
    else if gang.any (fun y => modeOf (y.typeFor a.switch) != mode) then atBit ecDescFormat 7
    else if tileRows mode tr < a.row0.toNat + mv then atBit ecDescRange 24
    else if mv ≠ 0 ∧ v.isOpen ∧ (v.mode ≠ mode ∨ v.transpose ≠ tr) then atBit ecDescFormat 32
    else if (mv != 0 && tr && s.anyZp n m a.switch) then ecDescFormat
    else
      let f := if mv ≠ 0 ∧ v.isOpen = false then openFault s n m q.slot mode else 0
      if f ≠ 0 then f
      else if a.close && (decide (mv ≠ 0) || v.isOpen) then
        let v' := v.closing mode (tileCols et tr (s.bypassed n m)) tr mv a.row0.toNat
        closeFault s n m a.tile.val v' (s.chainWords n m a.chain.val) q.dst
      else 0
/-- The closing information an operation latches at issue (R110, R317). -/
def State.closeInfo (s : State) (n c m chain : Nat) (q : Xreg) : CloseInfo :=
  let ws := s.chainWords n m chain
  ⟨c, ws, q.dst, q.evEn, q.event, s.cyc n, s.pc n c, s.amaxLatches (stagesOf ws)⟩
/-- A PASS issues (R321): it goes to the feeder with what it latches (R43, R110). With M = 0 it
feeds nothing: with CLOSE on an OPEN tile it closes the tile, on another it only signals. -/
def passIssue (n c m : Nat) (a : PassArgs) (s : State) : State :=
  match xregOf (s.sreg n c a.xreg.toNat) with
  | none => s
  | some q =>
    let s := rampUp n m s
    let v := s.tileView n m a.tile.val
    if a.m.toNat = 0 ∧ (a.close = false ∨ v.isOpen = false) then
      s.doIf a.close fun s => s.signalIf q.evEn n q.event {}
    else
      let op : FeedOp :=
        { sparse := false, ctx := c, pc := s.pc n c, aboff := a.aboff.toNat, m := a.m.toNat,
          tile := a.tile.val, row0 := a.row0.toNat, close := a.close, kh := a.kh,
          arow := a.arow.toNat, switch := a.switch, entries := [], count := 0,
          latch := s.latchSlot q.slot, info := s.closeInfo n c m a.chain.val q,
          issue := s.cyc n, started := false }
      (s.modMxe n m fun x => { x with feeder := x.feeder ++ [op] }).doIf a.switch fun s =>
        (membersOf (s.gang n) m).foldl (fun s i => s.modMxe n i fun x =>
          { x with issEtype := x.typeFor true, issValid := true, issStandby := none }) s

/-- A drain operation enters an MXE's drain unit. -/
def pushDrain (t : Nat) (info : CloseInfo) (ready : Nat) (x : Mxe) : Mxe :=
  let r := x.tile t
  let d : DrainOp := { tile := t, partner := gatePartner info.chain, info := info, ready := ready, slot := r.latch.slot }
  { x.setTile t { r with closing := true } with drains := x.drains ++ [d] }
/-- A drain waits in its MXE's unit in a cycle, its tile CLOSED: its last result is readable, and it has not
begun (R99, R104). -/
def DrainOp.closed (d : DrainOp) (x : Mxe) (t : Nat) : Bool :=
  !d.started && (x.queued d.tile).isEmpty && decide (max d.ready (x.tile d.tile).ready ≤ t)
/-- State code of a tile in a cycle (R99). -/
def Mxe.tileCode (x : Mxe) (t0 t : Nat) : Nat :=
  if (x.tile t).st = 1 ∧ x.drains.any (fun d => d.tile == t && d.closed x t0) then 2 else (x.tile t).st
/-- Sets that the drain unit owns in a cycle: from CLOSED to the swap (R106). -/
def Mxe.setsOwned (x : Mxe) (t0 : Nat) : List Nat :=
  (x.drains.filter fun d => !d.swapped && (d.started || d.closed x t0)).flatMap fun d =>
    d.tile / 4 :: d.partner.toList.map (· / 4)
/-- Fault of a DRAIN at decode (R112, R317, R323). -/
def drainFault (s : State) (n c m : Nat) (a : DrainArgs) : Nat :=
  match xregOf (s.sreg n c a.xreg.toNat) with
  | none => atBit ecDescFormat 16
  | some q =>
    let v := s.tileView n m a.tile.val
    if notLead s n m then atBit ecDescFormat 56
    else if v.isOpen = false then atBit ecDescFormat 32
    else closeFault s n m a.tile.val v (s.chainWords n m a.chain.val) q.dst
/-- A DRAIN issues: it closes the tile on every member (R69, R104, R323). -/
def drainIssue (n c m : Nat) (a : DrainArgs) (s : State) : State :=
  match xregOf (s.sreg n c a.xreg.toNat) with
  | none => s
  | some q =>
    let info := s.closeInfo n c m a.chain.val q
    (membersOf (s.gang n) m).foldl (fun s i =>
      s.modMxe n i fun x => pushDrain a.tile.val info (s.cyc n) x) s
/-- A DISCARD issues: an OPEN tile is FREE in the cycle after issue (R323). -/
def discardIssue (n m t : Nat) (s : State) : State :=
  (membersOf (s.gang n) m).foldl (fun s i =>
    if ((s.mxe n i).tile t).st = 1 then s.freeTile n i t else s) s

/-! ### One pass (R52-R55, R61-R64, R73, R74) -/

/-- A pass vector at the array: its element codes, row sum, statistic, NAN_SEEN, poison, and what faults of
the array add to columns of its contribution (R83). -/
structure Vec where
  codes : List Nat
  rsum : Int
  stat : Option Nat
  nan : Bool
  poison : Bool
  errs : List (Nat × Int) := []
  deriving DecidableEq, Repr

/-- FP format of an element type at the array. -/
def fmtOf (et : Nat) : FpFmt := if et = etE4 then fmtE4 else if et = etE5 then fmtE5 else fmt16
/-- A product of two factors of given types (R53); `none` when a factor is not finite. -/
def mkProd (ta a tw w : Nat) : Option Prod :=
  match elemFp ta a, elemFp tw w with
  | .num na ma ea, .num nb mb eb =>
    some ⟨factorExp (fmtOf ta) a + factorExp (fmtOf tw) w, na != nb, ma * mb, ea + eb⟩
  | _, _ => none
/-- A column's integer sum Σ q_a·q_w. -/
def intSum (wb : Nat) : List Nat → List Nat → Int
  | a :: as, w :: ws => sx 8 a * sx wb w + intSum wb as ws
  | _, _ => 0
/-- A column's products; `none` when a factor is not finite. -/
def colProds (ta tw : Nat) : List Nat → List Nat → Option (List Prod)
  | a :: as, w :: ws => (mkProd ta a tw w).bind fun p => (colProds ta tw as ws).map (p :: ·)
  | _, _ => some []
/-- The codes of column j of a weight set, over its rows. -/
def WeightSet.column (w : WeightSet) (j : Nat) : List Nat := w.codes.map fun r => r.getD j 0
/-- The codes that meet accumulator column j: column j of the array, or row j in transpose mode. -/
def WeightSet.against (w : WeightSet) (transpose : Bool) (j : Nat) : List Nat :=
  if transpose then (w.codes.getD j []) else w.column j
/-- Quantised activation element k of a transpose pass: x[n] × s_w[n] before the quantiser (R74). -/
def foldScale (w : WeightSet) (transpose : Bool) (k : Nat) (x : Fp) : Fp :=
  if transpose then fpMul x (of32 (F.mxeWparamScale.of (w.params.getD k 0).toNat)) else x
/-- The vector a feeder makes of its input elements (R37, R41, R52, R74). Elements of an FP32 tile against
BF16 weights are rounded to BF16 (assumption 162, DESIGN CHOICE). -/
def mkVec (l : SlotLatch) (bf16 : Bool) (xs : List Fp) (poison : Bool) : Vec :=
  if bf16 then { codes := xs.map to16, rsum := 0, stat := none, nan := false, poison := poison }
  else
    let qs := xs.map (quantize l)
    { codes := qs.map Prod.fst
      rsum := if l.etype = etInt8 then qs.foldl (fun a q => a + sx 8 q.1) 0 else 0
      stat := if poison then none else statMax (statCenter l) xs
      nan := qs.any Prod.snd || xs.any Fp.special
      poison := poison }

/-! ### The array checksum (R81-R83) -/

/-- ρ of a weight set: the row sums over its loaded columns (R81). -/
def WeightSet.rho (w : WeightSet) : List Int :=
  w.codes.map fun r => r.foldl (fun (a : Int) c => a + sx (etBits w.etype) c) 0
/-- A vector's codes against sums. -/
def dotCodes : List Nat → List Int → Int
  | q :: qs, r :: rs => sx 8 q * r + dotCodes qs rs
  | _, _ => 0
/-- C_in of a vector: against ρ, or against the column sums in transpose mode (R81). -/
def WeightSet.checkIn (w : WeightSet) (transpose : Bool) (codes : List Nat) : Int :=
  dotCodes codes (if transpose then w.colsum else w.rho)
/-- What faults add to the contributions, over all columns. -/
def errSum (errs : List (Nat × Int)) : Int := errs.foldl (fun a e => a + e.2) 0
/-- C_out of a vector: the sum of the raw contributions over the columns, as the array computes them (R81). -/
def WeightSet.checkOut (w : WeightSet) (transpose : Bool) (cols : Nat) (codes : List Nat) (errs : List (Nat × Int)) :
    Int :=
  (List.range cols).foldl (fun (a : Int) j => a + intSum (etBits w.etype) codes (w.against transpose j)) 0 + errSum errs
/-- C_in − C_out at 48 bits: 0 when the check passes (R81). -/
def WeightSet.checkDiff (w : WeightSet) (transpose : Bool) (cols : Nat) (codes : List Nat) (errs : List (Nat × Int)) :
    Int :=
  sx 48 (ux 48 (w.checkIn transpose codes - w.checkOut transpose cols codes errs))
/-- How a vector goes through an array: what faults add to the contribution that counts, whether it was fed
again, and C_in − C_out of a second mismatch. -/
structure Fate where
  errs : List (Nat × Int)
  replay : Bool
  miss : Option Int
  deriving DecidableEq, Repr
/-- The faults of a vector as additions to columns of the array. -/
def faultErrs (cols : Nat) (fs : List Miss) (again : Bool) : List (Nat × Int) :=
  (fs.filter fun z => decide (z.col < cols)).map fun z => (z.col, if again then z.again else z.first)
/-- The check of a vector (R81-R83): a first mismatch feeds it again, and what the second feed gives is
added as computed. Without a check what the array gives is added. -/
def vecFate (checked : Bool) (w : WeightSet) (transpose : Bool) (cols : Nat) (codes : List Nat) (fs : List Miss) :
    Fate :=
  let e1 := faultErrs cols fs false
  if !checked || w.checkDiff transpose cols codes e1 = 0 then ⟨e1, false, none⟩
  else
    let e2 := faultErrs cols fs true
    let d := w.checkDiff transpose cols codes e2
    ⟨e2, true, if d = 0 then none else some d⟩

/-- Adds a vector's contribution to accumulator row i of a tile (R53, R55, R102). A column with a
factor that is not finite takes a free value: the array's result there is not stated. -/
def addVec (n m t : Nat) (w : WeightSet) (v : Vec) (i : Nat) (s : State) : State :=
  let r := (s.mxe n m).tile t
  let int := isIntMode w.etype
  let rowsum := tabSet r.rowsum i (tabGet 0 r.rowsum i + v.rsum)
  let r := { r with
    rowsum := if int then rowsum else r.rowsum, mt := max r.mt (i + 1),
    poison := if v.poison || w.poison then (i :: r.poison).dedup else r.poison,
    nanSeen := r.nanSeen || v.nan || w.nanSeen }
  let p := (List.range r.cols).foldl (fun (p : State × Bool) j =>
    let s := p.1
    let cw := w.against r.transpose j
    let old := s.accWord n m t r.fullCols i j
    if int then
      let sum := sx 32 old + intSum (etBits w.etype) v.codes cw + errSum (v.errs.filter fun e => e.1 == j)
      let acc := satI32 sum
      let corr := zpCorrected r i j acc
      (s.setAcc n m t r.fullCols i j (ux 32 acc),
       p.2 || decide (acc ≠ sum) || decide (satI32 corr ≠ corr))
    else
      match colProds (if w.etype = etBf16 then etBf16 else r.latch.etype) w.etype v.codes cw with
      | some ps =>
        match windowSum ps with
        | some x => (s.setAcc n m t r.fullCols i j (add32 old x), p.2)
        | none => p
      | none =>
        let (x, s) := s.free 32
        (s.setAcc n m t r.fullCols i j x, p.2)) (s, r.sat)
  p.1.modMxe n m fun x => x.setTile t { r with sat := p.2 }

/-- Opens a FREE tile with the parameters of R100. -/
def openTile (s : State) (n m t : Nat) (l : SlotLatch) : State :=
  let x := s.mxe n m
  let tr := s.transp n m
  let et := x.active.etype
  s.modMxe n m fun x => x.setTile t
    { st := 1, etype := et, transpose := tr, cols := tileCols et tr (s.bypassed n m),
      fullCols := tileFullCols (modeOf et) tr, latch := l, wparam := x.active.params,
      colacc := [] }
/-- Pairwise sum of two lists, the longer one's rest kept. -/
def addLists : List Int → List Int → List Int
  | a :: as, b :: bs => (a + b) :: addLists as bs
  | as, [] => as
  | [], bs => bs
/-- COLACC gains the column sums of the weights a pass uses (R102). -/
def addColacc (n m t : Nat) (s : State) : State :=
  s.modMxe n m fun x =>
    let r := x.tile t
    if isIntMode x.active.etype && !r.transpose
    then x.setTile t { r with colacc := addLists r.colacc x.active.colsum } else x
/-- The standby weights of an MXE become active (R76); its feeder read is cycle t0. -/
def switchSet (n m t0 : Nat) (s : State) : State :=
  let s := s.modMxe n m fun x =>
    { x with active := x.standby, standby := {}, lastSwitch := some t0 }
  (s.setFld (.mxeStatus n m) F.mxeStatusWvalid 1).setFld (.mxeStatus n m) F.mxeStatusSvalid 0

/-- S + D(n) of R76, for n ≥ 1: D(n) = floor((n − 1)/4) − floor((n − 1)/16) − 1. -/
def afterLoad (s0 k : Nat) : Nat := s0 + (k - 1) / 4 - ((k - 1) / 16 + 1)
/-- Cycle from which an MXE's latest loaded set may serve (R76). -/
def Mxe.loadedFrom (x : Mxe) : Nat :=
  match x.lastLoad with
  | some (s0, k) => afterLoad s0 k
  | none => 0
/-- Cycle of a feeder operation's read of vector 0 (R76, R321); a gang waits for the loads of all its
members (R69, R72). -/
def feedCycle (s : State) (n m : Nat) (f : FeedOp) : Nat :=
  let sw := if f.switch
    then (membersOf (s.gang n) m).foldl (fun a i => max a (s.mxe n i).loadedFrom) 0 else 0
  max f.issue (max (s.mxe n m).feedFree sw)
/-- Gang width in cell columns (R71, R89). -/
def State.gangWidth (s : State) (n m : Nat) : Nat :=
  (membersOf (s.gang n) m).foldl (fun a i => a + (128 - s.bypassed n i)) 0
/-- A pass is checked (R81, R84): integer mode, independent, ABFT_EN; with ZP_CORR in its chain every
other pass, the first one checked. -/
def State.isChecked (s : State) (n m : Nat) (chain : List Word) : Bool :=
  let x := s.mxe n m
  isIntMode x.active.etype && s.gang n == 0 && s.abftEn n m &&
    (!hasZp chain || x.passNo % 2 == 0)
/-- First result of a pass readable, in column 0 (R70, R71, R73, R80). -/
def firstResult (gang checked : Bool) : Nat := if gang then 264 else if checked then 16 else 12
/-- Cycles between the vectors of a pass (R80, R84). -/
def vecStep (checked zp : Bool) : Nat := if checked && zp then 2 else 1
/-- When a vector's results are readable in column 0, from its feeder read of vector 0: its place in the
pass, what row groups were held for it and those before (R174), and what re-feeding took (R82). -/
def vecDue (first step hold refeed i : Nat) : Nat := first + i * step + (i + 1) * hold + refeed
/-- Cycles that re-feeding adds for a vector: each replay up to it feeds the rest of the pass again
(R82, R84; assumption 163, DESIGN CHOICE). -/
def refeedAt (step : Nat) (fates : List Fate) (i : Nat) : Nat :=
  (fates.zipIdx.filter fun q => q.1.replay && decide (q.2 ≤ i)).foldl (fun a q => a + (fates.length - q.2) * step) 0

/-- Poison reaches row `row` of a tile (R127): `p` tells which of the tile's units are poisoned. -/
def tileRowPoison (p : Nat → Bool) (h : TileHdr) (row : Nat) : Bool :=
  if h.format = fmtDense ∨ h.format = fmtRsb then
    let i := if h.format = fmtDense then row else popBelow h.rowNz row
    let k := denseRowBytes h.etype 128 / 64
    p 0 || (!(h.format == fmtRsb && !bitAt h.rowNz row) && (List.range k).any fun u => p (1 + i * k + u))
  else (List.range h.len).any p
/-- Token vector `row` of the activation tile at AB offset `aboff` of the lead: elements k0 on, and
whether it is poisoned (R127, R134). -/
def State.abRow (s : State) (n m : Nat) (bs : List Byte) (h : TileHdr) (aboff row k0 cnt : Nat) :
    List Fp × Bool :=
  ((List.range cnt).map fun k => elemFp h.etype (tileElem bs h row (k0 + k)),
    tileRowPoison (fun u => s.poisoned (abBase n m + (aboff + u) * 64)) h row)
/-- The bytes of a tile in an AB, as many as its header states within the AB. -/
def State.abTile (s : State) (n m aboff : Nat) : List Byte :=
  let h := hdrOf (s.rd (abBase n m + aboff * 64) 64)
  s.rd (abBase n m + aboff * 64) (min (max (h.len * 64) 64) (0x40000 - aboff * 64))
/-- Fault of an activation tile (R31, R138): narrow types are not activations. -/
def actTileFault (bs : List Byte) (avail : Nat) : Nat :=
  let f := tileFault bs avail
  let et := (hdrOf bs).etype
  if f ≠ 0 then f else if et = etBf16 ∨ et = etFp32 then 0 else ecDescFormat

/-- The feeder drops its head operation. -/
def popFeed (x : Mxe) : Mxe := { x with feeder := x.feeder.drop 1 }
/-- Checksum mismatches of a pass (R82, R83): each first mismatch is replayed, a second one of the
same vector is added as computed, raised and counted. -/
def replays (n m : Nat) (f : FeedOp) (fates : List Fate) (s : State) : State :=
  fates.zipIdx.foldl (fun s z =>
    if z.1.replay then
      let s := (s.freeze n 16).bump (.mxeAbftCnt n m) F.mxeAbftCntReplays 1
      match z.1.miss with
      | none => s
      | some d =>
        let s := s.bump (.mxeAbftCnt n m) F.mxeAbftCntMismatches 1
        let s := s.modMxe n m fun x => x.setTile f.tile { x.tile f.tile with abft := true }
        s.raise { src := srcOf 1 n (m + 1), code := ecAbftMismatch, context := ctxWord f.pc f.ctx,
                  detail := [(32, 1, m), (33, 2, z.2), (40, 8, ux 64 d)] }
    else s) s
/-- A row's contents from before an add stay what a read sees until the result is readable (R70, R71). -/
def noteStale (n i t row due : Nat) (spread : Bool) (before : Nat) (s : State) : State :=
  let r := (s.mxe n i).tile t
  let old := (List.range r.cols).map fun j => s.accWord n i t r.fullCols row j
  s.modMxe n i fun x => { x with
    stale := (x.stale.filter fun e => decide (s.cyc n < e.due + 512)) ++ [⟨t, row, due, spread, before, old⟩] }
/-- The cycle in which a stale row's column is readable (R71): W4 keeps two logical columns in a cell
column, BF16 takes two cell columns for one. -/
def AccStale.dueAt (e : AccStale) (etype j : Nat) : Nat :=
  e.due + if e.spread then e.before + (if etype = etInt4 then j / 2 else if etype = etBf16 then 2 * j + 1 else j) else 0
/-- An entry of an accumulator tile as a read in the present cycle sees it (R70, R71, R73). -/
def State.accSeen (s : State) (n m t i j : Nat) : Nat :=
  let x := s.mxe n m
  let r := x.tile t
  match x.stale.find? fun e => e.tile == t && e.row == i && decide (s.cyc n < e.dueAt r.etype j) with
  | some e => ix e.old j
  | none => s.accWord n m t r.fullCols i j
/-- Cell columns of a gang before a member's own (R71, R89). -/
def State.colsBefore (s : State) (n : Nat) (mem : List Nat) (i : Nat) : Nat :=
  (mem.takeWhile (· != i)).foldl (fun a k => a + (128 - s.bypassed n k)) 0
/-- The vectors of a pass, with the cycles in which column 0 is readable, run through the arrays of a gang
into row ROW0 on. -/
def runVecs (n : Nat) (mem : List Nat) (t row0 : Nat) (vs : List (Vec × Nat)) (s : State) : State :=
  vs.zipIdx.foldl (fun s q =>
    mem.foldl (fun s i =>
      let s := noteStale n i t (row0 + q.2) q.1.2 (decide (1 < mem.length)) (s.colsBefore n mem i) s
      addVec n i t (s.mxe n i).active q.1.1 (row0 + q.2) s) s) s
/-- Extra cycles that a vector of a PASS holds row groups for a compressed AB tile (R78, R174): 16 elements a
cycle (assumption 164, DEDUCED). -/
def feedHold (h : TileHdr) (cnt : Nat) : Nat :=
  if 2 ≤ h.format ∧ h.format ≤ 4 ∧ 16 < cnt then ceilDiv cnt 16 - 1 else 0
/-- Cycles in which a column group of a closing pass with a compressed CAST is stalled (R78, R79): the spec
does not say how many; a free value up to 2^16 (assumption 165, DESIGN CHOICE). -/
def drainStall (f : FeedOp) (s : State) : Nat × State :=
  if f.close ∧ f.m ≠ 0 ∧ outFormat (stagesOf f.info.chain) ≠ 0 then s.free 16 else (0, s)
/-- The largest of the statistics of a pass's vectors. -/
def statOf (a : Option Nat) (vs : List Vec) : Option Nat :=
  vs.foldl (fun a v => match a, v.stat with
    | some a, some b => some (max a b)
    | a, none => a
    | none, b => b) a
/-- The vectors of a pass through their check, into the tile (R81-R83): the state, how each fared, and the
cycles that re-feeding took. -/
def runPass (n m : Nat) (mem : List Nat) (f : FeedOp) (misses : List Miss) (t0 hold stall : Nat) (checked : Bool)
    (vs : List Vec) (s : State) : State × Nat :=
  let r := (s.mxe n m).tile f.tile
  let w := (s.mxe n m).active
  let fates := vs.zipIdx.map fun q => vecFate checked w r.transpose r.cols q.1.codes (misses.filter fun z => z.vec == q.2)
  let step := vecStep checked (hasZp f.info.chain)
  let first := firstResult (decide (1 < mem.length)) checked
  let s := runVecs n mem f.tile f.row0 ((vs.zip fates).zipIdx.map fun q =>
    ({ q.1.1 with errs := q.1.2.errs }, t0 + vecDue first step hold (stall + refeedAt step fates q.2) q.2)) s
  let s := s.doIf checked fun s => replays n m f fates (s.bump (.mxeAbftCnt n m) F.mxeAbftCntChecked vs.length)
  (s, refeedAt step fates vs.length)
/-- A closing operation reaches the drain units of a gang once its results are readable (R104). -/
def closeGang (n : Nat) (mem : List Nat) (t : Nat) (info : CloseInfo) (ready : Nat) (s : State) :
    State :=
  mem.foldl (fun s i => s.modMxe n i fun x => pushDrain t info ready x) s
/-- An operation on the feeder fails after issue (R301): it writes nothing, and says so in its event
and in an error record. -/
def feedFail (n m : Nat) (f : FeedOp) (code : Nat) (s : State) : State :=
  let s := s.modMxe n m popFeed
  let s := s.raise { src := srcOf 1 n (m + 1), code := code, context := ctxWord f.pc f.ctx }
  s.signalIf (f.info.evEn && (f.close || f.sparse)) n f.info.event { code := code }
/-- Last result readable, from the feeder read of vector 0 (R70, R71, R80). -/
def State.lastResult (s : State) (n m : Nat) (checked zp : Bool) (k : Nat) : Nat :=
  if s.gang n = 0 then firstResult false checked + (k - 1) * vecStep checked zp else 262 + s.gangWidth n m + k
/-- What a pass reads of the AB (R70, R234): a row of a DENSE tile for each vector, all of another tile. -/
def passReads (h : TileHdr) (f : FeedOp) (t0 step : Nat) : LineRead :=
  let rb := denseRowBytes h.etype 128
  if h.format = fmtDense then ⟨none, (f.aboff + h.valOff) * 64 + f.arow * rb, rb, rb, t0, step, f.m⟩
  else ⟨none, f.aboff * 64, h.len * 64, 0, t0, step, f.m⟩
/-- PASS_FEED_START (R321): the feeder reads vector 0 in the latest of the three cycles, the tile
opens when FREE, the vectors run, and a closing pass hands its tile to the drain unit. The statistic goes to
the tile's latched slot when the last result is readable (R41, R100; assumption 166, DEDUCED). A closing
pass of no vector counts as a pass for the check of every other one (R84), and a vector that is fed again
counts once in CHECKED (R96; assumption 163, DESIGN CHOICE). -/
def passFeedStart (n m : Nat) (misses : List Miss) (s : State) : State :=
  let x := s.mxe n m
  match x.feeder with
  | [] => s
  | f :: _ =>
    if f.sparse ∨ awaitsLoad s n m f then s
    else
      let t0 := feedCycle s n m f
      let s := s.toCyc n t0
      let mem := membersOf (s.gang n) m
      let s := s.doIf f.switch fun s => mem.foldl (fun s i => switchSet n i t0 s) s
      let bs := s.abTile n m f.aboff
      let s := s.doIf (decide (f.m ≠ 0)) (·.parityRange (abBase n m + f.aboff * 64) bs.length)
      let h := hdrOf bs
      let bad := if f.m = 0 then 0 else actTileFault bs (0x40000 - f.aboff * 64)
      if bad ≠ 0 then feedFail n m f bad s
      else
        let w := (s.mxe n m).active
        let s := s.doIf (decide (f.m ≠ 0)) fun s => mem.foldl (fun s i =>
          if ((s.mxe n i).tile f.tile).st = 0 then openTile s n i f.tile f.latch else s) s
        let r := (s.mxe n m).tile f.tile
        let cnt := if r.transpose then w.cols else w.rows
        let vs := (List.range f.m).map fun v =>
          let (xs, p) := s.abRow n m bs h f.aboff (f.arow + v) (if f.kh then 64 else 0) cnt
          mkVec r.latch (w.etype == etBf16)
            (xs.zipIdx.map fun q => foldScale w r.transpose q.2 q.1) p
        let s := s.doIf (decide (f.m ≠ 0)) fun s =>
          mem.foldl (fun s i => addColacc n i f.tile s) s
        let checked := s.isChecked n m f.info.chain
        let zp := hasZp f.info.chain
        let hold := if f.m = 0 then 0 else feedHold h cnt
        let (stall, s) := drainStall f s
        let s := noteReads n m [passReads h f t0 (vecStep checked zp + hold)] s
        let (s, refeed) := runPass n m mem f (misses.filter fun z => z.pass == 0) t0 hold stall checked vs s
        let s := s.bump (.mxeStallCnt n m) F.mxeStallCntFeed (f.m * hold)
        let s := s.bump (.mxeStallCnt n m) F.mxeStallCntDrain stall
        let last := t0 + s.lastResult n m checked zp f.m + f.m * hold + stall + refeed
        let s := s.doIf (decide (f.m ≠ 0)) fun s => mem.foldl (fun s i => s.modMxe n i fun x =>
          let q := x.tile f.tile
          x.setTile f.tile { q with ready := max q.ready last }) s
        let s := s.reportAt n last r.latch.slot (statOf none vs) (vs.any Vec.nan)
        let s := s.modMxe n m fun x =>
          { popFeed x with
            feedFree := t0 + f.m * (vecStep checked zp + hold) + (stall - 8) + refeed, passNo := x.passNo + 1
            busyTill := if f.m = 0 then x.busyTill else max x.busyTill last }
        s.doIf f.close (closeGang n mem f.tile f.info ((s.mxe n m).tile f.tile).ready)

/-! ### Drains (R104-R107, R114, R126, R127) -/

/-- Index of the first drain that a predicate selects. -/
def firstDrain (p : DrainOp → Bool) (ds : List DrainOp) : Option (Nat × DrainOp) :=
  (ds.zipIdx.find? fun q => p q.1).map fun q => (q.2, q.1)
/-- The drain of the same closing operation, on whichever member of a gang. -/
def DrainOp.same (d e : DrainOp) : Bool := e.tile == d.tile && decide (e.info = d.info)
/-- Wide accesses of a DENSE drain: each 512 bytes of a stored tile, with the cycle in which the last of its
rows leaves the chain (R542). -/
def drainSpans (et dst fullCols d0 lat : Nat) : Nat → List (Nat × Nat × Nat × Nat) → List (Nat × Nat × Nat)
  | _, [] => []
  | o, (r0, nr, _, nc) :: rest =>
    let len := 64 + nr * denseRowBytes et nc
    ((List.range (ceilDiv len 512)).map fun i =>
      let row := min (nr - 1) ((512 * i + 447) / denseRowBytes et nc)
      (dst + o + 512 * i, 512, enterAt d0 fullCols et (r0 + row) (lat + 2))) ++
    drainSpans et dst fullCols d0 lat (o + 64 * denseUnits et nr nc) rest
/-- Insertion in order of cycle. -/
def spanInsert (a : Nat × Nat × Nat) : List (Nat × Nat × Nat) → List (Nat × Nat × Nat)
  | [] => [a]
  | b :: l => if a.2.2 < b.2.2 then a :: b :: l else b :: spanInsert a l
/-- One wide access per cycle, none later than its own cycle or than the one after it (assumption 56). -/
def spread (last : Nat) (l : List (Nat × Nat × Nat)) : List (Nat × Nat × Nat) :=
  (l.foldr (fun a p => let c := min a.2.2 p.2; ((a.1, a.2.1, c) :: p.1, c - 1)) ([], last)).1
/-- Wide accesses of a drain with a compressed CAST: one per cycle, the last in the cycle of the last write. -/
def packedSpans (cm last : Nat) (ws : List WrOp) : List (Nat × Nat × Nat) :=
  spread last ((ws.flatMap fun w => (List.range (ceilDiv w.bs.length 512)).map fun i =>
    (w.a - cm + 512 * i, 512, last)))
/-- Scheduled CM accesses of a drain's stages: the bias vector from D0, a residual row or record in
the cycle in which its row enters the stage (R542). -/
def schedStages (n m : Nat) (sts : List Stage) (mt cols fullCols et d0 lat : Nat) (s : State) : State :=
  match sts with
  | [] => s
  | st :: rest =>
    let enter := fun i => enterAt d0 fullCols et i lat
    let l := stageLatency fullCols et st
    let rows := List.range mt
    let s := match st with
      | .bias b => s.schedRange n m (b * 64) (cols * 4) d0 false
      | .resid rs f32 rec pitch b => rows.foldl (fun s i =>
          let s := s.doIf rs fun s => s.sched n m (rec * 16 + i * 16) 16 (enter i) false
          s.schedRange n m (b * 64 + i * pitch * 64) (cols * (if f32 then 4 else 2)) (enter i) false) s
      | .rowstat _ _ _ rec => rows.foldl (fun s i =>
          (s.sched n m (rec * 16 + i * 16) 16 (enter i) false).sched n m (rec * 16 + i * 16) 16
            (enter i + l) true) s
      | _ => s
    schedStages n m rest mt cols fullCols et d0 (lat + l) s
/-- The entries of a tile as the drain unit reads them. -/
def State.tileEntries (s : State) (n m t : Nat) (r : AccTile) (mt cols : Nat) : List (List Nat) :=
  (List.range mt).map fun i => (List.range cols).map fun j => s.accWord n m t r.fullCols i j
/-- Operations ahead of a drain, on a member of its gang: passes into its tile or its partner on the lead's
feeder, or a drain that has yet to swap (R104). -/
def drainWaits (s : State) (n m : Nat) (d : DrainOp) : Bool :=
  let l := s.mxe n (leadOf (s.gang n) m)
  !(l.queued d.tile).isEmpty || (d.partner.any fun p => !(l.queued p).isEmpty) ||
  (membersOf (s.gang n) m).any fun i =>
    ((s.mxe n i).drains.takeWhile fun e => !d.same e).any fun e => !e.swapped
/-- D0 of a drain (R104): of the whole gang, set by its last member. -/
def drainD0 (s : State) (n m : Nat) (d : DrainOp) : Nat :=
  (membersOf (s.gang n) m).foldl (fun a i =>
    let x := s.mxe n i
    let p := (d.partner.map fun q => (x.tile q).ready + 1).getD 0
    max a (max ((x.tile d.tile).ready + 1) (max p (x.lastSwap + 1)))) (d.info.issue + 1)
/-- A drain as it begins in cycle d0: what it read then, its times, and the moments of its rows. Members of a
gang take the same DST, BIAS and RESID_ADD operands, with no offset for their columns (assumption 167, DESIGN
CHOICE). -/
def DrainOp.begin (s : State) (n m d0 base : Nat) (first : Bool) (d : DrainOp) : DrainOp :=
  let x := s.mxe n m
  let r := x.tile d.tile
  let q := (d.partner.map x.tile).getD {}
  let sts := stagesOf d.info.chain
  let et := outType sts (isIntMode r.etype)
  let last := lastWriteAt d0 sts (modeOf r.etype) r.transpose r.mt r.cols r.fullCols (isIntMode r.etype)
  let d := { d with
    started := true, d0 := d0, swapAt := d0 + drainCycles r.mt r.fullCols et, lastWrite := last,
    abft := r.abft, nanSeen := r.nanSeen, self := r, other := q, base := base, first := first
    ents := s.tileEntries n m d.tile r r.mt r.cols
    pents := (d.partner.map fun p => s.tileEntries n m p q r.mt r.cols).getD []
    bias := (biasBases sts).map (s.biasVec (coreBase n) r.cols) }
  let sat := r.sat || q.sat || chainSat (d.src n) sts d.entry
  { d with sat := sat, todo := if sat then [] else drainEvents sts r.mt r.fullCols et d0 last }
/-- The wide accesses of a drain's writes: those of a compressed CAST as its values stand at D0. -/
def DrainOp.spans (s : State) (n : Nat) (d : DrainOp) : List (Nat × Nat × Nat) :=
  let sts := d.stages
  let et := d.etype
  if d.sat then []
  else if outFormat sts = 0 then
    let lat := sts.foldl (fun a st => a + stageLatency d.self.fullCols et st) 0
    spread d.lastWrite ((drainSpans et (d.info.dst * 64) d.self.fullCols d.d0 lat 0 d.tiles).foldl
      (fun l a => spanInsert a l) [])
  else packedSpans (coreBase n) d.lastWrite (drainWrites et (outFormat sts)
    (drainRows (d.src n) sts et d.self.cols d.entry s).rows (coreBase n + d.info.dst * 64) d.tiles)
/-- DRAIN_START (R104): at D0 the drain unit begins to read the closed tile through its chain. Members of a
gang begin at one D0, each after the one before it in member order (R122). -/
def drainStart (n m : Nat) (s : State) : State :=
  match firstDrain (fun d => !d.started) (s.mxe n m).drains with
  | none => s
  | some (k, d) =>
    let before := (membersOf (s.gang n) m).takeWhile (· ≠ m)
    let early := before.any fun i => (s.mxe n i).drains.any fun e => !e.started && d.same e
    if early ∨ (before.isEmpty && drainWaits s n m d) ∨ ((s.mxe n m).drains.take k).any (fun e => !e.swapped) then s
    else
      let d0 := if before.isEmpty then drainD0 s n m d else d.d0
      let s := s.toCyc n d0
      let base := before.foldl (fun a i => a + ((s.mxe n i).tile d.tile).cols) 0
      let d := d.begin s n m d0 base before.isEmpty
      let sts := d.stages
      let s := schedStages n m sts d.self.mt d.self.cols d.self.fullCols d.etype d0 0 s
      let s := (d.spans s n).foldl (fun s a => s.sched n m a.1 a.2.1 a.2.2 true) s
      let s := (membersOf (s.gang n) m).foldl (fun s i => s.modMxe n i fun x =>
        { x with drains := x.drains.map fun e => if !e.started && d.same e then { e with d0 := d0 } else e }) s
      s.modMxe n m fun x =>
        let x := { x with drains := x.drains.set k d }
        let x := x.setTile d.tile { x.tile d.tile with st := 3, sat := d.sat }
        match d.partner with
        | some p => x.setTile p { x.tile p with st := 3 }
        | none => x
/-- DRAIN_SWAP (R106): every entry of the tile and its partner has been read and cleared; both are
FREE and their sets return to the array. -/
def drainSwap (n m : Nat) (s : State) : State :=
  match firstDrain (fun d => !d.swapped) (s.mxe n m).drains with
  | none => s
  | some (k, d0) =>
    if !d0.started then s
    else
      let s := s.toCyc n d0.swapAt
      let s := (d0.tile :: d0.partner.toList).foldl (fun s t => s.freeTile n m t) s
      s.modMxe n m fun x =>
        { x with drains := x.drains.modify k fun d => { d with swapped := true }, lastSwap := d0.swapAt }
/-- The contexts of Virhan's tile tasks: 2 at high priority, 3 at low (R360). -/
def tileCtx (c : Nat) : Bool := decide (2 ≤ c)
/-- CM lines that a drain may write (R317). -/
def DrainOp.units (d : DrainOp) : List Nat :=
  cmUnits (d.info.dst * 64) (64 * d.tiles.foldl (fun a e => a + denseUnits d.etype e.2.1 e.2.2.2) 0)
/-- What a drain makes of its rows when the values are clamped (R55, R56): for the runtime of a tile task. -/
def DrainOp.clamped (s : State) (n : Nat) (d : DrainOp) : List WrOp :=
  let sts := d.stages
  drainWrites d.etype (outFormat sts) (drainRows (d.src n) sts d.etype d.self.cols d.entry s).rows
    (coreBase n + d.info.dst * 64) d.tiles
/-- The flags that a drain gives the status word, its gang's earlier ones with them (R126, R127). -/
def DrainOp.flags (d : DrainOp) : DrainFlags :=
  ⟨d.sat || d.others.sat, d.poison || d.others.poison, d.abft || d.others.abft,
    d.nanSeen || !d.nanSlots.isEmpty || d.others.nanSeen⟩
/-- DRAIN_COMPLETE (R114): the last row is written, reports are delivered, and the event is visible a
cycle later. A SAT drain writes nothing (R126); a tile task's clamped values wait for its runtime (R56). In a
gang the last member to complete signals for all (assumption 168, DESIGN CHOICE). -/
def drainComplete (n m : Nat) (s : State) : State :=
  match (s.mxe n m).drains with
  | [] => s
  | p :: _ =>
    if !p.swapped then s
    else
      let s := s.toCyc n (p.lastWrite + 1)
      match (s.mxe n m).drains with
      | [] => s
      | d :: ds =>
        let s := s.modMxe n m fun x => { x with drains := ds }
        let s :=
          if d.sat then
            s.doIf (tileCtx d.info.ctx) fun s => s.modMxe n m fun x =>
              { x with satHold := tabSet x.satHold d.tile ⟨d.slot, d.clamped s n⟩ }
          else if d.muted then s
          else
            let s := d.amax.foldl (fun s a => s.report a.1 (some a.2)) s
            let s := d.nanSlots.foldl (fun s k => s.slotNan k true) s
            s.modMxe n m fun x => { x with retries := tabDel x.retries d.tile }
        let g := d.flags
        let others := (membersOf (s.gang n) m).filter fun i => i != m && (s.mxe n i).drains.any d.same
        if others.isEmpty then
          let id := drainId d.info.issue (leadOf (s.gang n) m + 1)
          let s := if d.muted ∨ (d.sat ∧ s.gang n = 0) then s.shadowDrop n id
            else (s.shadowDone n id true (s.cyc n - 1)).shadowDone n id false (s.cyc n - 1)
          s.signalIf d.info.evEn n d.info.event { poison := g.poison, abft := g.abft, sat := g.sat, nanSeen := g.nanSeen }
        else others.foldl (fun s i => s.modMxe n i fun x =>
          { x with drains := x.drains.map fun e => if d.same e then { e with others := g } else e }) s

/-- ABFT_TILE_RERUN (R83): the runtime discards the tile's results, so that the tile runs again, and asks for
a column scan. -/
def abftTileRerun (n m t : Nat) (s : State) : State :=
  if ((s.mxe n m).tile t).abft then
    let s := ((s.mxe n m).drains.filter fun d => d.tile = t).foldl (fun s d =>
      s.shadowDrop n (drainId d.info.issue (leadOf (s.gang n) m + 1))) s
    (s.freeTile n m t).modMxe n m fun x => { x with drains := x.drains.filter fun d => d.tile ≠ t, scan := true }
  else s
/-- Add failing physical columns to MXE_BYPASS, each raising COLUMN_BYPASS (R85, R86); columns beyond
the fourth stay out (R90). -/
def addBypass (n m : Nat) (cols : List Nat) (s : State) : State :=
  cols.foldl (fun s c =>
    let w := s.word (.mxeBypass n m)
    let free := (List.range 4).find? fun i => !bitAt w (8 * i + 7)
    if (bypassedOf w).contains c then s
    else match free with
    | none => s
    | some i =>
      let s := s.setWord (.mxeBypass n m) (w + (128 + c) * 2 ^ (8 * i) - bitsOf w (8 * i + 6) (8 * i) * 2 ^ (8 * i))
      let s := s.dropWeights n m
      s.raise { src := srcOf 1 n (m + 1), code := ecColumnBypass, fw := true,
                detail := [(32, 1, m), (33, 2, c)] }) s

/-- A core is drained: no context of it is READY, RUNNING or WAITING, and nothing in it is in flight. -/
def State.drained (s : State) (n : Nat) : Bool :=
  (List.range 4).all (fun c => !s.ctxLive n c) && s.mxesIdle n && s.quiet n
/-- COLUMN_SCAN (R85): Virhan fences the MXE, tests its columns, bypasses the failing ones and
unfences it; with a fifth faulty column it stays fenced (R90). It does so only while the core runs tile tasks
alone, or is drained. -/
def columnScan (n m : Nat) (fails : List Nat) (s : State) : State :=
  if s.kernelOn n && !s.drained n then s
  else
    let f := s.fld (.tstFence n) F.tstFenceMxe
    let s := (s.setFld (.tstFence n) F.tstFenceMxe (f ||| 2 ^ m)).modMxe n m fun x => { x with scan := false }
    let s := s.advance (s.now + 10240 * s.div n)
    let all := (bypassedOf (s.word (.mxeBypass n m)) ++ fails).dedup
    let s := addBypass n m fails s
    if 4 < all.length then s
    else s.setFld (.tstFence n) F.tstFenceMxe (f - f / 2 ^ m % 2 * 2 ^ m)

end Sys2Proof.Machine
end

