-- ==== Sys2Proof/Machine/Background.lean ====
section
/-! DEFINITION. Background accesses by device address (spec/08, R234, R240, R245, R246): a range in a core's memory or
engine buffers meets the shadow and waits for its cycles; elsewhere nothing is asked. -/

namespace Sys2Proof.Machine

/-- The slot-state units of a range on a core, with the core (R245). -/
def spaceUnits (a len : Nat) : Option (Nat × List Nat) :=
  match placeOf a with
  | .cm m o => some (m, cmUnits o len)
  | .engine m e o =>
    some (m, if o < 0x40000 then abUnits e o len
      else if o < 0x50000 then (List.range (ceilDiv (o % 0x4000 + len) 0x4000)).map fun i => wsUnit e ((o - 0x40000) / 0x4000 + i)
      else [])
  | _ => none
/-- The cycles of a range: those of CM (R240), or those that the feeder and the weight loads leave free (R234). -/
def bgCycles (req a len : Nat) (write : Bool) (s : State) : State :=
  match placeOf a with
  | .cm m o => bgTake m req o len write (s.landCm m)
  | .engine m e o => s.doIf write (engineWait m e o len)
  | _ => s
/-- An access by device address that goes on once it has its cycles; `true` where a shadow rule suppresses it. -/
def bgReach (req a len : Nat) (write : Bool) (s : State) : State × Bool :=
  match spaceUnits a len with
  | none => (s, false)
  | some (m, us) =>
    let (s, bad) := bgShadow m req (bgId (s.cyc m) a) (s.cyc m) us write s
    if bad then (s, true) else (bgCycles req a len write s, false)
/-- A write by device address of bytes with a poison bit for each unit, once it has its cycles. -/
def bgWrite (req a : Nat) (bs : List Byte) (ps : List Bool) (s : State) : State :=
  let (s, bad) := bgReach req a bs.length true s
  s.doIf (!bad) (rmwPieces true a bs ps)

/-! ### The debug view of engine buffers (R235, R236) -/

/-- End of the populated range of an MXE's part of the view that an offset lies in. -/
def viewEnd (o : Nat) : Nat := if o < 0x40000 then 0x40000 else if o < 0x50000 then 0x50000 else 0x100000
/-- The view serves a range: the MXE is fenced, or its core runs in validation mode. -/
def viewServes (s : State) (a len : Nat) : Bool :=
  match placeOf a with
  | .engine n m o => (s.fenced n m || s.vmode n) && decide (o + len ≤ viewEnd o)
  | _ => false
/-- The entry of an accumulator set at an offset, as it reads now (R70, R71, R73). -/
def viewAcc (s : State) (n m o : Nat) : Nat :=
  let t := (o - 0x80000) / 0x10000
  let k := o % 0x10000 / 4
  let fc := ((s.mxe n m).tile t).fullCols
  if fc = 0 then s.rdN (accBase n m t + 4 * k) 4 else s.accSeen n m t (k / fc) (k % fc)
/-- Bytes of an engine buffer. -/
def viewRead (s : State) (n m o len : Nat) : List Byte :=
  if o < 0x80000 then s.rd (abBase n m + o) len
  else
    let ws := (List.range (ceilDiv (o % 4 + len) 4)).flatMap fun i => natLe 4 (viewAcc s n m (o / 4 * 4 + 4 * i))
    (ws.drop (o % 4)).take len
/-- An access that the view serves: a write waits while the line is read (R234), and changes entries only in ACC,
which keeps no poison (R252). -/
def viewAccess (a len : Nat) (data : List Byte) (write poison : Bool) (s : State) : State :=
  match placeOf a with
  | .engine n m o =>
    let s := s.landCm n
    if write then
      bgWrite 14 a data (List.replicate (ceilDiv (a % 64 + data.length) 64) (poison && decide (o < 0x80000))) s
    else
      let p := decide (o < 0x80000) && (List.range (ceilDiv (a % 64 + len) 64)).any fun i => s.poisoned (a + 64 * i)
      { s with reply := some ⟨leNat (viewRead s n m o len), b2n p * 3⟩ }
  | _ => s
/-- BG_ACCESS: an access of a core's address slot; beyond CM it is the debug view's, for the control cores alone
(R236), and fails elsewhere. -/
def slotAccess (n : Nat) (unit : BgUnit) (off len : Nat) (data : List Byte) (write poison : Bool) (s : State) : State :=
  let a := coreBase n + off
  if unit = .debug ∧ off < 0x1000000 ∧ viewServes s a (if write then data.length else len) then
    viewAccess a len data write poison s
  else bgAccess n unit off len data write poison s
/-- Requester code of a core's stream engine at an address: its own core's, or another's (R246). -/
def strReq (n a : Nat) : Nat :=
  match placeOf a with
  | .cm m _ => if m = n then 12 else 14
  | .engine m _ _ => if m = n then 12 else 14
  | _ => 12

end Sys2Proof.Machine
end

