-- ==== Sys2Proof/Machine/GhFuncs.lean ====
section
/-! DEFINITION. The near-memory functions of a Glasshouse (spec/07, R207-R218; spec/06, R181-R184):
command words, their decode checks, and what each opcode reads and writes. -/

namespace Sys2Proof.Machine

/-! ### Command words (R207, R208) -/

/-- Word i of a command. -/
def cw (ws : List Word) (i : Nat) : Nat := (ws.getD i 0).toNat
def cOpcode (ws : List Word) : Nat := bitsOf (cw ws 0) 7 0
def cEtype (ws : List Word) : Nat := bitsOf (cw ws 0) 11 8
def cFunc (ws : List Word) : Nat := bitsOf (cw ws 0) 15 12
def cSrcH (ws : List Word) : Bool := bitAt (cw ws 0) 16
def cDstH (ws : List Word) : Bool := bitAt (cw ws 0) 17
def cIdx64 (ws : List Word) : Bool := bitAt (cw ws 0) 18
def cCmpl (ws : List Word) : Nat := bitsOf (cw ws 0) 25 24
def cArg (ws : List Word) : Nat := bitsOf (cw ws 0) 63 32
def cCmplAddr (ws : List Word) : Nat := bitsOf (cw ws 7) 47 4 * 16
def cTag (ws : List Word) : Nat := bitsOf (cw ws 7) 63 48

/-- All ones over bits [hi:lo]. -/
def ones (hi lo : Nat) : Nat := (2 ^ (hi - lo + 1) - 1) * 2 ^ lo
/-- Bits of an address field, or of a handle in its place. -/
def addrBits (h : Bool) : Nat := if h then ones 23 0 else ones 47 0
/-- Bits that words 1 to 6 of an opcode may hold (R208). -/
def wordMasks (ws : List Word) : List Nat :=
  let a := ones 47 0
  match cOpcode ws with
  | 0x01 => [a, a, ones 23 0 + ones 40 32, a, 0, 0]
  | 0x02 => [a, a, ones 23 0 + ones 40 32, a, 0, 0]
  | 0x03 => [ones 23 0 + ones 41 32, a, ones 16 0, a, a, 0]
  | 0x04 => [a, a, ones 63 0, a, ones 54 0, a]
  | 0x05 => [addrBits (cSrcH ws), addrBits (cDstH ws), ones 32 0, 0, 0, 0]
  | 0x06 => [addrBits (cSrcH ws), a, ones 23 0 + ones 47 32, addrBits (cDstH ws), 0, 0]
  | 0x07 => [addrBits (cSrcH ws), addrBits (cDstH ws), ones 3 0 + ones 15 8 + ones 47 24, 0, 0, 0]
  | 0x08 => [a, ones 15 0, addrBits (cDstH ws), a, ones 31 0, 0]
  | 0x09 => [ones 15 0, 0, 0, 0, 0, 0]
  | 0x0A => [a, a, ones 31 0, 0, 0, 0]
  | 0x0B => [a, ones 23 0, ones 4 0 + ones 15 8 + ones 27 16, 0, 0, 0]
  | _ => [0, 0, 0, 0, 0, 0]
/-- Flags SRC_H, DST_H, IDX64 that an opcode permits (R207). -/
def flagMask (opc : Nat) : Nat :=
  match opc with
  | 0x01 => 4
  | 0x02 => 4
  | 0x04 => 4
  | 0x05 => 3
  | 0x06 => 7
  | 0x07 => 3
  | 0x08 => 2
  | _ => 0
/-- ETYPE that an opcode accepts (R181, R209). -/
def etypeOk (opc et : Nat) : Bool :=
  if opc = 5 ∨ opc = 6 ∨ opc = 8 then et == etFp32 || et == etBf16 || et == etInt32
  else if opc = 4 then decide (et ≤ 5) else decide (et ≤ 6)
/-- Bytes of an element. -/
def etBytes (et : Nat) : Nat := etBits et / 8
/-- An address range that a command touches: the word that names it, start, bytes, whether it is a
destination. -/
structure GhRange where
  word : Nat
  a : Nat
  len : Nat
  dst : Bool
  deriving DecidableEq, Repr
/-- Size of an index-list entry. -/
def idxBytes (ws : List Word) : Nat := if cIdx64 ws then 8 else 4
/-- Row pitch of an embedding table (R214). -/
def embPitch (ws : List Word) : Nat :=
  ceilDiv (bitsOf (cw ws 5) 54 44 * etBits (cEtype ws)) 512 * 64
/-- Element size of a command's source (R215). -/
def srcBytes (ws : List Word) : Nat :=
  if cOpcode ws = 5 ∧ bitAt (cw ws 3) 32 then 4 else etBytes (cEtype ws)
/-- The ranges of a command that its words alone give (R209): bases with no length of their own are
given one byte. -/
def ghRanges (ws : List Word) : List GhRange :=
  let w := cw ws
  let cnt := bitsOf (w 3) 23 0
  let row := bitsOf (w 3) 40 32 * 64
  match cOpcode ws with
  | 0x01 => if cnt * row = 0 then [] else
      [⟨1, w 1, 1, false⟩, ⟨2, w 2, cnt * idxBytes ws, false⟩, ⟨4, w 4, cnt * row, true⟩]
  | 0x02 => if cnt * row = 0 then [] else
      [⟨1, w 1, cnt * row, false⟩, ⟨2, w 2, cnt * idxBytes ws, false⟩, ⟨4, w 4, 1, true⟩]
  | 0x03 => let nb := bitsOf (w 3) 15 0
      if nb = 0 then [] else
      [⟨2, w 2, ceilDiv nb 8, false⟩, ⟨4, w 4, 1, true⟩] ++
      (if w 5 = 0 then [] else [⟨5, w 5, nb * 8, false⟩])
  | 0x04 => let bags := bitsOf (w 3) 63 48
      if bags = 0 then [] else
      [⟨1, w 1, max 1 (bitsOf (w 5) 31 0 * embPitch ws), false⟩, ⟨2, w 2, 1, false⟩,
       ⟨3, bitsOf (w 3) 47 0, (bags + 1) * 4, false⟩,
       ⟨6, w 6, bags * ceilDiv (bitsOf (w 5) 54 44) 16 * 64, true⟩] ++
      (if w 4 = 0 then [] else [⟨4, w 4, 1, false⟩])
  | 0x05 => let n := bitsOf (w 3) 31 0
      if n = 0 then [] else
      (if cSrcH ws then [] else [⟨1, w 1, n * srcBytes ws, false⟩]) ++
      (if cDstH ws then [] else [⟨2, w 2, n * etBytes (cEtype ws), true⟩])
  | 0x06 => let r := bitsOf (w 3) 47 32
      if cnt * r = 0 then [] else
      (if cSrcH ws then [] else [⟨1, w 1, cnt * r * srcBytes ws, false⟩]) ++
      [⟨2, w 2, cnt * idxBytes ws, false⟩] ++ (if cDstH ws then [] else [⟨4, w 4, 1, true⟩])
  | 0x07 => let n := bitsOf (w 3) 47 24
      if n = 0 then [] else
      (if cSrcH ws then [] else [⟨1, w 1, 64, false⟩]) ++
      (if cDstH ws then [] else [⟨2, w 2, 64, true⟩])
  | 0x08 => [⟨1, w 1, bitsOf (w 2) 15 0 * 16, false⟩] ++
      (if cDstH ws then [] else [⟨3, w 3, 64, true⟩]) ++
      (if bitsOf (w 5) 31 0 = 0 then [] else [⟨4, w 4, bitsOf (w 5) 31 0 * 64, true⟩])
  | 0x0A => let n := bitsOf (w 3) 31 0
      if n = 0 then [] else [⟨1, w 1, n * 64, false⟩, ⟨2, w 2, n * 64, true⟩]
  | 0x0B => [⟨1, w 1, 64, false⟩]
  | _ => []
/-- A range's fault (R209, R264). -/
def rangeFault (r : GhRange) : Nat :=
  let e := regionEnd r.a
  if r.a % 64 ≠ 0 ∨ 2 ^ 47 ≤ r.a ∨ (r.dst ∧ placeOf r.a = .csr) then atBit ecDescFormat (r.word * 64)
  else if e < r.a + r.len then atBit ecDescRange (r.word * 64)
  else 0
/-- True when a completion record has nowhere valid to go (R209). -/
def cmplBad (ws : List Word) : Nat :=
  let a := cCmplAddr ws
  if cCmpl ws ≠ 2 then 0
  else if 2 ^ 47 ≤ a ∨ placeOf a = .csr then atBit ecDescFormat (7 * 64 + 4)
  else if regionEnd a < a + 16 then atBit ecDescRange (7 * 64 + 4)
  else 0
/-- Stated ranges of the fields (R208, R209). -/
def fieldFault (ws : List Word) : Nat :=
  let w := cw ws
  let past := fun (i lo : Nat) => atBit ecDescRange (i * 64 + lo)
  match cOpcode ws with
  | 0x01 => if 256 < bitsOf (w 3) 40 32 then past 3 32 else 0
  | 0x02 => if 256 < bitsOf (w 3) 40 32 then past 3 32 else 0
  | 0x03 => if bitsOf (w 1) 41 32 = 0 then past 1 32 else if 16384 < bitsOf (w 3) 15 0 then past 3 0 else 0
  | 0x04 => if bitsOf (w 5) 54 44 = 0 ∨ 1024 < bitsOf (w 5) 54 44 then past 5 44 else 0
  | 0x06 => if 16384 < bitsOf (w 3) 47 32 then past 3 32 else 0
  | 0x07 => if 5 < bitsOf (w 3) 3 0 then atBit ecDescFormat (3 * 64) else 0
  | 0x08 => if bitsOf (w 2) 15 0 = 0 then past 2 0 else 0
  | 0x0B => if 5 < bitsOf (w 3) 3 0 then atBit ecDescFormat (3 * 64) else 0
  | _ => 0
/-- Fault of a command at decode (R209): 0 for none, else the code, the word and its lowest bit. -/
def ghDecode (s : State) (ws : List Word) : Nat :=
  let opc := cOpcode ws
  let w0 := cw ws 0
  let fm := fun (lo : Nat) => atBit ecDescFormat lo
  let maxFunc := if opc = 4 ∨ opc = 5 ∨ opc = 6 then 2 else if opc = 8 then 1 else 0
  let argMask := if cCmpl ws = 1 then ones 44 40 + ones 37 32 else if cCmpl ws = 3 then ones 43 32 else 0
  let slotBad := if opc = 4 then s.slotFault (bitsOf (cw ws 5) 43 32) (fun _ => true) else 0
  firstFault [
    if 0x0B < opc then fm 0 else 0,
    if etypeOk opc (cEtype ws) = false then fm 8 else 0,
    if maxFunc < cFunc ws then fm 12 else 0,
    if bitsOf w0 18 16 &&& (7 - flagMask opc) ≠ 0 then fm 16 else 0,
    if bitsOf w0 23 19 ≠ 0 ∨ bitsOf w0 31 26 ≠ 0 then fm 19 else 0,
    if cArg ws * 2 ^ 32 &&& (ones 63 32 - argMask) ≠ 0 then fm 32 else 0,
    firstFault ((wordMasks ws).zipIdx.map fun q =>
      if cw ws (q.2 + 1) &&& (ones 63 0 - q.1) ≠ 0 then fm ((q.2 + 1) * 64) else 0),
    if cw ws 7 % 16 ≠ 0 then fm (7 * 64) else 0,
    cmplBad ws,
    fieldFault ws,
    firstFault ((ghRanges ws).map rangeFault),
    if slotBad = 0 then 0 else atBit slotBad (5 * 64 + 32)]
/-- True when a command's words reach into a directory region (R147). -/
def ghInDir (s : State) (ws : List Word) : Bool :=
  (ghRanges ws).any (fun r => s.inDir r.a r.len) || (cCmpl ws == 2 && s.inDir (cCmplAddr ws) 16)

/-! ### Results -/

/-- TILE_DIR with cause 0x06 for a command that reaches into a directory region (R147); DETAIL carries word 7 when
its completion record does (R209). -/
def dirReach (k : Nat) (tag : Option Nat) (s : State) : State :=
  let s := s.setFld (.ghDirErr k) F.ghDirErrHandle 0
  let s := s.setFld (.ghDirErr k) F.ghDirErrCause 0x06
  s.raise { src := srcOf 2 k 0, code := ecTileDir
            detail := [(32, 3, 0), (35, 1, 0x06)] ++ tag.toList.map fun w => (40, 8, w) }

/-- What a function leaves: its state, the Glasshouse that runs it, flags, count, code of the first event, the tiles
still to write, the switches to come, the handles it accumulated into. -/
structure GhRun where
  s : State
  k : Nat := 0
  fault : Nat := 0
  code : Nat := 0
  writes : List (Nat × List UnitP) := []
  poison : Bool := false
  info : Bool := false
  sat : Bool := false
  count : Nat := 0
  first : Option Nat := none
  switches : List TileSwitch := []
  accum : List Nat := []
/-- A function ends with a fault; its switches lapse and their space is freed. -/
def GhRun.fail (r : GhRun) (code : Nat) : GhRun :=
  { r with fault := code, s := r.switches.foldl switchLapse r.s, switches := [], accum := [], writes := [] }
/-- A reach into a directory region that the function meets is recorded (R147, R153). -/
def GhRun.noteReach (r : GhRun) : GhRun := { r with s := dirReach r.k none r.s }
/-- A function ends with a reach into a directory region. -/
def GhRun.reach (r : GhRun) : GhRun := r.noteReach.fail ecTileDir
/-- The tiles of a function that nothing stopped are written. -/
def GhRun.land (r : GhRun) : GhRun :=
  { r with s := r.writes.foldl (fun s w => s.storeUnits w.1 w.2) r.s, writes := [] }
/-- DONE when an index was bad: the position of the first such index (R211, R216). -/
def GhRun.bad (r : GhRun) (i : Nat) : GhRun :=
  { r with poison := true, first := some (r.first.getD i) }

/-- Units read for a function. -/
def takeUnits (r : GhRun) (a k : Nat) : List UnitP × GhRun :=
  let (us, s) := r.s.senseN a k
  (us, { r with s := s })
/-- A field of n bytes at byte i of units, and whether any unit it lies in is poisoned. -/
def unitField (us : List UnitP) (i n : Nat) : Nat × Bool :=
  (leNat ((List.range n).map fun j => ((us.getD ((i + j) / 64) ⟨[], false⟩).bs.getD ((i + j) % 64) 0)),
   (us.getD (i / 64) ⟨[], false⟩).poison || (us.getD ((i + n - 1) / 64) ⟨[], false⟩).poison)
/-- The index list: each entry with its poison. -/
def readIdx (ws : List Word) (a cnt : Nat) (r : GhRun) : List (Nat × Bool) × GhRun :=
  let b := idxBytes ws
  let (us, r) := takeUnits r a (ceilDiv (cnt * b) 64)
  ((List.range cnt).map fun i => unitField us (i * b) b, r)

/-! ### Gather, scatter, copy (R211, R208) -/

/-- GATHER (R211). -/
def fnGather (ws : List Word) (r : GhRun) : GhRun :=
  let w := cw ws
  let cnt := bitsOf (w 3) 23 0
  let rl := bitsOf (w 3) 40 32
  if cnt * rl = 0 then r
  else
    let (ix, r) := readIdx ws (w 2) cnt r
    let r := ix.zipIdx.foldl (fun r q =>
      let a := w 1 + q.1.1 * rl * 64
      let d := w 4 + q.2 * rl * 64
      if q.1.2 || decide (regionEnd (w 1) < a + rl * 64) then
        let (us, s) := r.s.lostUnits rl
        { r with s := s.storeUnits d us }.bad q.2
      else
        let (us, r) := takeUnits r a rl
        { r with s := r.s.storeUnits d us, poison := r.poison || us.any (·.poison) }) r
    { r with count := r.first.getD cnt }
/-- SCATTER (R211). -/
def fnScatter (ws : List Word) (r : GhRun) : GhRun :=
  let w := cw ws
  let cnt := bitsOf (w 3) 23 0
  let rl := bitsOf (w 3) 40 32
  if cnt * rl = 0 then r
  else
    let (ix, r) := readIdx ws (w 2) cnt r
    let r := ix.zipIdx.foldl (fun r q =>
      let a := w 4 + q.1.1 * rl * 64
      if q.1.2 || decide (regionEnd (w 4) < a + rl * 64) then r.bad q.2
      else
        let (us, r) := takeUnits r (w 1 + q.2 * rl * 64) rl
        { r with s := r.s.storeUnits a us, poison := r.poison || us.any (·.poison) }) r
    { r with count := r.first.getD cnt }
/-- True when a row that an index names reaches into a directory region (R147). -/
def rowsInDir (ws : List Word) (r : GhRun) : Bool :=
  let w := cw ws
  let cnt := bitsOf (w 3) 23 0
  let row := if cOpcode ws = 6 then bitsOf (w 3) 47 32 * etBytes (cEtype ws) else bitsOf (w 3) 40 32 * 64
  let base := if cOpcode ws = 1 then w 1 else w 4
  if cnt * row = 0 ∨ (cOpcode ws = 6 ∧ cDstH ws) then false
  else (readIdx ws (w 2) cnt r).1.any fun q =>
    !q.2 && decide (base + q.1 * row + row ≤ regionEnd base) && r.s.inDir (base + q.1 * row) row
/-- COPY (R208). -/
def fnCopy (ws : List Word) (r : GhRun) : GhRun :=
  let n := bitsOf (cw ws 3) 31 0
  let (us, r) := takeUnits r (cw ws 1) n
  { r with s := r.s.storeUnits (cw ws 2) us, poison := us.any (·.poison), count := n }

/-! ### Row gather (R212) -/


/-- A tile read through a handle for a function: its bytes, poison, and the cause of a failure. -/
def readTile (et h : Nat) (r : GhRun) : List Byte × Bool × Nat × GhRun :=
  let (e, c, s) := resolve h false r.s
  if c ≠ 0 then ([], false, ecTileDir, { r with s := s })
  else if h = 0 then (zeroTile et, e.poison, 0, { r with s := s })
  else
    let (us, s) := tilePick e (List.range e.len) s
    let bs := bytesOf us
    (bs, us.any (·.poison), tileFault bs (min bs.length (regionEnd e.da - e.da)), { r with s := s })
/-- Some rows of a tile read through a handle for a function: header, index and the units that hold those rows
(R212); the bytes of the tile, of which only those count, and whether a unit read is poisoned. -/
def readRows (et h : Nat) (rows : List Nat) (r : GhRun) : List Byte × Bool × Nat × GhRun :=
  let (e, c, s) := resolve h false r.s
  if c ≠ 0 then ([], false, ecTileDir, { r with s := s })
  else if h = 0 then (zeroTile et, e.poison, 0, { r with s := s })
  else
    let bs := s.rdRange e.da (e.len * 64)
    let hd := hdrOf bs
    let c := tileFault bs (min bs.length (regionEnd e.da - e.da))
    let needs := if c ≠ 0 then [0] else ((rows.flatMap fun i => tileNeeds bs hd i 1 0 128).dedup).mergeSort
    let (us, s) := tilePick e needs s
    (bs, us.any (·.poison), c, { r with s := s })
/-- Tiles of a gather read one by one: each handle with the rows that are wanted of it. -/
def readTiles (et : Nat) : List (Nat × List Nat) → GhRun → List (List Byte × Bool) × Nat × GhRun
  | [], r => ([], 0, r)
  | h :: hs, r =>
    let (bs, p, c, r) := readRows et h.1 h.2 r
    if c ≠ 0 then ([], c, r)
    else
      let (ts, c, r) := readTiles et hs r
      ((bs, p) :: ts, c, r)
/-- A tile read from a device address for a function (R138): a header that runs past the end of its region, then what
the header alone shows, then LEN, the directory region, and the index. -/
def srcTile (a : Nat) (r : GhRun) : List Byte × Bool × Nat × GhRun :=
  let avail := regionEnd a - a
  if avail < 64 then ([], false, ecDescRange, r)
  else if r.s.inDir a 64 then ([], false, ecTileDir, r.noteReach)
  else
    let (hu, r) := takeUnits r a 1
    let hd := hdrOf (bytesOf hu)
    let c := headFault hd avail
    if c ≠ 0 then ([], false, c, r)
    else if avail < hd.len * 64 then ([], false, ecDescRange, r)
    else if r.s.inDir a (hd.len * 64) then ([], false, ecTileDir, r.noteReach)
    else
      let (us, r) := takeUnits r (a + 64) (hd.len - 1)
      let bs := bytesOf (hu ++ us)
      (bs, (hu ++ us).any (·.poison), tileFault bs bs.length, r)
/-- ROW_GATHER (R212). -/
def fnRowGather (ws : List Word) (r : GhRun) : GhRun :=
  let w := cw ws
  let h0 := bitsOf (w 1) 23 0
  let tc := bitsOf (w 1) 41 32
  let nb := bitsOf (w 3) 15 0
  let tr := bitAt (w 3) 16
  let (bu, r) := takeUnits r (w 2) (ceilDiv nb 512)
  let marked := (List.range nb).filter fun i => bitAt (unitField bu (i / 8) 1).1 (i % 8)
  let nm := marked.length
  if nm = 0 then r
  else
    let need := (marked.map (· / 128)).eraseDups
    let (ts, c, r) := readTiles (cEtype ws) (need.flatMap fun i => (List.range tc).map fun j =>
      ((h0 + i * tc + j) % 2 ^ 24, (marked.filter fun m => m / 128 == i).map (· % 128))) r
    if c ≠ 0 then r.fail c
    else
      let tile := fun i j => ts.getD ((need.idxOf i) * tc + j) ([], false)
      let hd := hdrOf (tile (need.headD 0) 0).1
      let et := hd.etype
      let row := fun m j => tileRow (tile (m / 128) j).1 (hdrOf (tile (m / 128) j).1) (m % 128) 128
      let groups := chunks 128 (ceilDiv nm 128) marked
      let out := fun (g : List Nat) (j : Nat) =>
        let hj := hdrOf (tile (need.headD 0) j).1
        let rows := g.map fun m => (row m j).take hj.cols
        if tr then denseTile et hd.zcode hj.cols g.length
            ((List.range hj.cols).map fun c => rows.map fun x => x.getD c 0)
        else denseTile et hd.zcode g.length hj.cols rows
      let tiles := if tr then (List.range tc).flatMap fun j => groups.map fun g => out g j
        else groups.flatMap fun g => (List.range tc).map fun j => out g j
      let bytes := tiles.flatten
      let (ps, r) := if w 5 = 0 then ([], r)
        else
          let (us, r) := takeUnits r (w 5) (ceilDiv (nb * 8) 64)
          (marked.map fun m => unitField us (m * 8) 8, r)
      let pbytes := ps.flatMap fun q => natLe 8 q.1
      let poison := bu.any (·.poison) || ts.any Prod.snd || ps.any Prod.snd
      let total := bytes ++ pbytes
      if regionEnd (w 4) < w 4 + total.length then r.fail ecDescRange
      else if r.s.inDir (w 4) total.length then r.reach
      else
        { r with s := rmwPieces false (w 4) total (List.replicate (ceilDiv total.length 64) poison) r.s,
                 poison := poison, count := nm }

/-! ### Embedding bags (R214) -/

/-- An element of a table row as FP32. -/
def embElem (et : Nat) (l : SlotLatch) (w : Nat) : Nat :=
  if et = etFp32 then w
  else if et = etBf16 then w * 65536
  else to32 (fpMul (of32 l.scale) (fpSub (elemFp et w) (ofInt l.zp)))
/-- The pooled value of one lane, in list order (R214). -/
def embPool (func n : Nat) (xs : List Nat) : Nat :=
  match xs with
  | [] => if func = 2 then 0xFF800000 else 0
  | x :: r =>
    let v := r.foldl (if func = 2 then max32 else add32) x
    if func = 1 then div32 v (to32 (ofInt n)) else v
/-- One bag (R214). -/
def embBag (ws : List Word) (l : SlotLatch) (b o0 o1 : Nat) (lost : Bool) (r : GhRun) : GhRun :=
  let w := cw ws
  let et := cEtype ws
  let dim := bitsOf (w 5) 54 44
  let out := w 6 + b * ceilDiv dim 16 * 64
  let n := o1 - o0
  let ib := idxBytes ws
  let (iu, r) := if lost ∨ n = 0 then ([], r) else takeUnits r ((w 2 + o0 * ib) / 64 * 64) (ceilDiv (o0 * ib % 64 + n * ib) 64)
  let (pu, r) := if lost ∨ n = 0 ∨ w 4 = 0 then ([], r) else takeUnits r ((w 4 + o0 * 4) / 64 * 64) (ceilDiv (o0 * 4 % 64 + n * 4) 64)
  let rows := (List.range (if lost then 0 else n)).foldl (fun (q : List (List Nat) × Bool × GhRun) j =>
    let (ix, p) := unitField iu (o0 * ib % 64 + j * ib) ib
    let a := w 1 + ix * embPitch ws
    if p ∨ bitsOf (w 5) 31 0 ≤ ix then (q.1, true, q.2.2)
    else
      let (us, r) := takeUnits q.2.2 a (embPitch ws / 64)
      let bs := bytesOf us
      let (f, fp) := if w 4 = 0 then (0, false) else unitField pu (o0 * 4 % 64 + j * 4) 4
      let xs := (List.range dim).map fun i =>
        let v := embElem et l (unpackVal (etBits et) bs i)
        if w 4 = 0 then v else mul32 v f
      (q.1 ++ [xs], q.2.1 || us.any (·.poison) || fp, r)) ([], lost, r)
  let r := rows.2.2
  if rows.2.1 then
    let (us, s) := r.s.lostUnits (ceilDiv dim 16)
    { r with s := s.storeUnits out us, poison := true, count := r.count + 1 }
  else
    let vs := (List.range dim).map fun i => embPool (cFunc ws) n (rows.1.map fun x => x.getD i 0)
    let bs := vs.flatMap (natLe 4)
    { r with s := r.s.wrUnits out (unitsOf bs false), count := r.count + 1 }
/-- The entries of the index list that the bags take, from the first one on that any bag does and up to the end of the
last: bags whose bounds arrive poisoned take none, a decreasing pair ends the command (R214). -/
def embSpan (ou : List UnitP) : Nat → Nat → Option (Nat × Nat)
  | 0, _ => none
  | n + 1, b =>
    let (o0, p0) := unitField ou (b * 4) 4
    let (o1, p1) := unitField ou (b * 4 + 4) 4
    if p0 ∨ p1 then embSpan ou n (b + 1)
    else if o1 < o0 then none
    else match embSpan ou n (b + 1) with
      | none => if o0 < o1 then some (o0, o1) else none
      | some x => some (if o0 < o1 then (min o0 x.1, max o1 x.2) else x)
/-- The fault of a list of entries of b bytes, at a base, of which a span is taken (R209): 0 for none. -/
def spanFault (s : State) (base b : Nat) : Option (Nat × Nat) → Nat
  | none => 0
  | some (lo, hi) => if regionEnd base < base + hi * b then ecDescRange
    else if s.inDir (base + lo * b) ((hi - lo) * b) then ecTileDir else 0
/-- EMB_BAG (R214): a decreasing OFFS pair ends the command; bags already written stay. The index list and the weights
are held against their regions once OFFS is known, before any bag (R209). -/
def fnEmbBag (ws : List Word) (r : GhRun) : GhRun :=
  let w := cw ws
  let bags := bitsOf (w 3) 63 48
  let l := r.s.latchSlot (bitsOf (w 5) 43 32)
  if bags = 0 then r
  else
    let (ou, r) := takeUnits r (bitsOf (w 3) 47 0) (ceilDiv ((bags + 1) * 4) 64)
    let span := embSpan ou bags 0
    let f := firstFault [spanFault r.s (w 2) (idxBytes ws) span, if w 4 = 0 then 0 else spanFault r.s (w 4) 4 span]
    if f = ecTileDir then r.reach
    else if f ≠ 0 then r.fail f
    else (List.range bags).foldl (fun r b =>
      if r.fault ≠ 0 then r
      else
        let (o0, p0) := unitField ou (b * 4) 4
        let (o1, p1) := unitField ou (b * 4 + 4) 4
        if p0 ∨ p1 then embBag ws l b 0 0 true r
        else if o1 < o0 then r.fail ecDescFormat
        else embBag ws l b o0 o1 false r) r

/-! ### Accumulation (R215, R216) -/

/-- One element: the new pattern, whether it saturated, whether NAN_SEEN applies. -/
def accElem (func et : Nat) (fp32 : Bool) (sv dv : Nat) : Nat × Bool × Bool :=
  if et = etInt32 then
    let v := of32 sv
    let c : Int := if fp32 then toIntSat i32Min i32Max v else sx 32 sv
    let csat := fp32 && (match v with
      | .nan => false
      | .inf _ => true
      | _ => toIntSat (-18446744073709551616) 18446744073709551616 v != c)
    let d := sx 32 dv
    let x := if func = 0 then d + c else if func = 1 then max d c else min d c
    (ux 32 (satI32 x), csat || satI32 x != x, fp32 && v.special)
  else
    let w := fun (f : Bool) (p : Nat) => if et = etBf16 ∧ !f then p * 65536 else p
    let a := w false dv
    let b := w fp32 sv
    let x := if func = 0 then add32 a b else if func = 1 then max32 a b else min32 a b
    (if et = etBf16 then to16 (of32 x) else x, false, false)
/-- Source elements applied to a destination from an address up, sector by sector (each atomic):
a poisoned source unit or a poisoned destination loses the sector's value. -/
def accUnits (func et : Nat) (fp32 lostDst : Bool) : Nat → Nat → List (Nat × Bool) → GhRun → GhRun
  | 0, _, _, r => r
  | _, _, [], r => r
  | k + 1, a, vs, r =>
    let eb := etBytes et
    let n := (64 - a % 64) / eb
    let (u, s) := r.s.fetch a
    let r := { r with s := s }
    let xs := vs.take n
    let r :=
      if xs.any Prod.snd || u.poison || lostDst then
        let (l, s) := r.s.lostUnit
        { r with s := s.storeUnits (a / 64 * 64) [l], poison := true }
      else
        let res := xs.zipIdx.map fun q => accElem func et fp32 q.1.1 (fieldAt u.bs (a % 64 + q.2 * eb) eb)
        let bs := u.bs.take (a % 64) ++ res.flatMap (fun x => natLe eb x.1) ++
          u.bs.drop (a % 64 + xs.length * eb)
        { r with s := r.s.storeUnits (a / 64 * 64) [⟨bs, false⟩],
                 sat := r.sat || res.any (·.2.1), info := r.info || res.any (·.2.2) }
    accUnits func et fp32 lostDst k (a + xs.length * eb) (vs.drop n) r
/-- Elements of a source range with the poison of their units. -/
def srcElems (a cnt b : Nat) (lost : Bool) (r : GhRun) : List (Nat × Bool) × GhRun :=
  let (us, r) := takeUnits r (a / 64 * 64) (ceilDiv (a % 64 + cnt * b) 64)
  ((List.range cnt).map fun i =>
    let (v, p) := unitField us (a % 64 + i * b) b
    (v, p || lost), r)
/-- The base, end and poison of an operand that a handle names (R215): a DENSE tile's elements. -/
def accOperand (h et cnt : Nat) (check : Bool) (r : GhRun) : Nat × Bool × Nat × GhRun :=
  if check = false ∧ h = 0 then (0, false, ecTileDir, { r with s := dirFail 0 0x06 r.s })
  else
    let (e, c, s) := resolve h false r.s
    let r := { r with s := s }
    if c ≠ 0 then (0, false, ecTileDir, r)
    else if e.fmt ≠ fmtDense ∨ (check ∧ e.etype ≠ et) then (0, false, ecDescFormat, r)
    else if 16384 < cnt then (0, false, ecDescRange, r)
    else (e.da + 64, e.poison, 0, r)
/-- Source and destination bases of an accumulation: (src, src lost, dst, dst lost, fault). -/
def accBases (ws : List Word) (srcCnt dstCnt wd : Nat) (r : GhRun) :
    Nat × Bool × Nat × Bool × Nat × GhRun :=
  let et := cEtype ws
  let sb := srcBytes ws
  let st := if sb = 4 ∧ et = etBf16 then etFp32 else if cOpcode ws = 5 ∧ bitAt (cw ws 3) 32 then etFp32 else et
  let (sa, sl, f1, r) := if cSrcH ws then accOperand (bitsOf (cw ws 1) 23 0) st srcCnt true r
    else (cw ws 1, false, 0, r)
  if f1 ≠ 0 then (0, false, 0, false, f1, r)
  else
    let (da, dl, f2, r) := if cDstH ws then accOperand (bitsOf (cw ws wd) 23 0) et dstCnt false r
      else (cw ws wd, false, 0, r)
    (sa, sl, da, dl, f2, r)
/-- Handles an accumulation writes through; a migration of one is abandoned (R158, R159). -/
def accDone (ws : List Word) (wd : Nat) (r : GhRun) : GhRun :=
  let h := bitsOf (cw ws wd) 23 0
  if cDstH ws then { r with s := abandonMig h r.s, accum := [h] } else r
/-- ACCUM (R215). -/
def fnAccum (ws : List Word) (r : GhRun) : GhRun :=
  let n := bitsOf (cw ws 3) 31 0
  if n = 0 then r
  else
    let (sa, sl, da, dl, f, r) := accBases ws n n 2 r
    if f ≠ 0 then r.fail f
    else
      let r := accDone ws 2 r
      let (vs, r) := srcElems sa n (srcBytes ws) sl r
      let fp32 := bitAt (cw ws 3) 32
      let r := accUnits (cFunc ws) (cEtype ws) fp32 dl (n + 1) da vs r
      { r with count := n }
/-- SCATTER_ADD (R216). -/
def fnScatterAdd (ws : List Word) (r : GhRun) : GhRun :=
  let w := cw ws
  let cnt := bitsOf (w 3) 23 0
  let rl := bitsOf (w 3) 47 32
  let eb := etBytes (cEtype ws)
  if cnt * rl = 0 then r
  else
    let (sa, sl, da, dl, f, r) := accBases ws (cnt * rl) rl 4 r
    if f ≠ 0 then r.fail f
    else
      let lim := if cDstH ws then da + 16384 * eb else regionEnd da
      let r := accDone ws 4 r
      let (ix, r) := readIdx ws (w 2) cnt r
      let r := ix.zipIdx.foldl (fun r q =>
        let a := da + q.1.1 * rl * eb
        if q.1.2 || decide (lim < a + rl * eb) then r.bad q.2
        else
          let (vs, r) := srcElems (sa + q.2 * rl * eb) rl eb sl r
          accUnits (cFunc ws) (cEtype ws) false dl (rl + 1) a vs r) r
      { r with count := r.first.getD cnt }

/-! ### Compaction and handle writes (R217) -/

/-- Where tiles go: consecutive handles, or consecutive 64-byte-aligned space. -/
def putTile (h : Bool) (dst i : Nat) (pos : Nat) (slot : Nat) (cch : Bool) (us : List UnitP) (r : GhRun) :
    Nat × GhRun :=
  if h then
    let (_, t, s) := handleRoom ((dst + i) % 2 ^ 24) us slot cch r.s
    let r := { r with s := s }
    match t with
    | some t => (pos, { r with switches := r.switches ++ [t], writes := r.writes ++ [(t.da, us)] })
    | none => (pos, r.fail ecTileDir)
  else (pos + us.length * 64, { r with writes := r.writes ++ [(pos, us)] })
/-- Source tiles of a COMPACT: by handle, or one after the other from a DA (R217). -/
def compactSrc (ws : List Word) : Nat → Nat → GhRun → List (List Byte × Bool) × Nat × GhRun
  | 0, _, r => ([], 0, r)
  | k + 1, a, r =>
    let (bs, p, c, r) := if cSrcH ws then readTile (cEtype ws) (a % 2 ^ 24) r else srcTile a r
    if c ≠ 0 then ([], c, r)
    else
      let (ts, c, r) := compactSrc ws k (if cSrcH ws then a + 1 else a + (hdrOf bs).len * 64) r
      ((bs, p) :: ts, c, r)
/-- A tile encoded anew under R140. -/
def recode (fmt z : Nat) (bs : List Byte) : List Byte :=
  let h := hdrOf bs
  let rows := (List.range h.rows).map fun i => tileRow bs h i h.cols
  encodeTileZ fmt h.etype (if h.etype ≤ 1 ∨ h.etype = 6 then z else 0) h.rows h.cols rows
/-- Tile bytes as units of one poison. -/
def tileToUnits (bs : List Byte) (p : Bool) : List UnitP := (unitsOf bs p).map fun u => ⟨u.1, u.2⟩
/-- COMPACT (R217). -/
def fnCompact (ws : List Word) (r : GhRun) : GhRun :=
  let w := cw ws
  let n := bitsOf (w 3) 47 24
  let fmt := bitsOf (w 3) 3 0
  let z := bitsOf (w 3) 15 8
  if n = 0 then r
  else
    let (ts, c, r) := compactSrc ws n (if cSrcH ws then bitsOf (w 1) 23 0 else w 1) r
    if c ≠ 0 then r.fail c
    else
      let dense := ts.foldl (fun a t => a + denseLen (hdrOf t.1).etype * 64) 0
      if !cDstH ws && decide (regionEnd (w 2) < w 2 + dense) then r.fail ecDescRange
      else if !cDstH ws && r.s.inDir (w 2) dense then r.reach
      else
        let q := ts.zipIdx.foldl (fun (q : Nat × GhRun) t =>
          if q.2.fault ≠ 0 then q
          else
            let h := (bitsOf (w 2) 23 0 + t.2) % 2 ^ 24
            let slot := if cDstH ws then (q.2.s.dirEnt h).slot else 0
            putTile (cDstH ws) (if cDstH ws then bitsOf (w 2) 23 0 else w 2) t.2 q.1 slot false
              (tileToUnits (recode fmt z t.1.1) t.1.2) { q.2 with poison := q.2.poison || t.1.2 }) (w 2, r)
        if q.2.fault ≠ 0 then q.2 else { q.2 with count := n }
/-- HANDLE_WRITE (R217). -/
def fnHandleWrite (ws : List Word) (r : GhRun) : GhRun :=
  let w := cw ws
  let a := w 1
  let h := bitsOf (w 2) 23 0
  let compact := bitAt (w 3) 4
  let slot := bitsOf (w 3) 27 16
  let cch := r.s.bit (.ssParam slot) F.ssParamConst
  let put := fun (out : List UnitP) (r : GhRun) =>
    let (_, r) := putTile true h 0 0 slot cch out { r with poison := out.any (·.poison) }
    if r.fault ≠ 0 then r else { r with count := 1 }
  if compact then
    let (bs, p, c, r) := srcTile a r
    if c ≠ 0 then r.fail c
    else put (tileToUnits (recode (bitsOf (w 3) 3 0) (bitsOf (w 3) 15 8) bs) p) r
  else
    let hd := hdrOf (r.s.rd a 64)
    if 5 < hd.format ∨ 6 < hd.etype ∨ hd.layout ≠ 1 ∨ hd.len = 0 ∨ 1025 < hd.len then r.fail ecDescFormat
    else if regionEnd a < a + hd.len * 64 then r.fail ecDescRange
    else if r.s.inDir a (hd.len * 64) then r.reach
    else
      let (us, r) := takeUnits r a hd.len
      put us r

/-! ### Merge (R181-R184) -/

/-- An entry of a run: key and value. -/
structure MergeEnt where
  key : Nat
  val : Nat
  deriving DecidableEq, Repr
/-- What reading the runs gives: entries in order of run and position, the ordinals covered, batches,
poison, fault. -/
structure MergeIn where
  ents : List MergeEnt := []
  tiles : Nat := 0
  runs : Nat := 0
  poison : Bool := false
  fault : Nat := 0
/-- Tiles of an SCL run: each one's entries under its ordinal. -/
def sclRun (et : Nat) : Nat → Nat → Nat → MergeIn → GhRun → MergeIn × GhRun
  | 0, _, _, m, r => (m, r)
  | k + 1, ord, a, m, r =>
    let (bs, p, c, r) := srcTile a r
    let hd := hdrOf bs
    if c ≠ 0 ∨ hd.format ≠ fmtScl ∨ hd.etype ≠ et then ({ m with fault := if c ≠ 0 then c else ecDescFormat }, r)
    else
      let es := (sclEntries bs hd.nnz).zipIdx.map fun q =>
        MergeEnt.mk (ord * 16384 + q.1) (unpackVal (etBits et) (bs.drop (hd.valOff * 64)) q.2)
      sclRun et k (ord + 1) (a + hd.len * 64)
        { m with ents := m.ents ++ es, tiles := max m.tiles (ord + 1), poison := m.poison || p } r
/-- One run of the list. -/
def mergeRun (et : Nat) (e : List Byte) (m : MergeIn) (r : GhRun) : MergeIn × GhRun :=
  let base := fieldAt e 0 6
  let n := fieldAt e 8 4
  let fl := fieldAt e 12 1
  if m.fault ≠ 0 then (m, r)
  else if fieldAt e 6 2 ≠ 0 ∨ 4 ≤ fl ∨ fieldAt e 13 3 ≠ 0 ∨ base % 64 ≠ 0 ∨ 2 ^ 47 ≤ base then
    ({ m with fault := ecDescFormat }, r)
  else if fl % 2 = 0 then sclRun et n 0 base { m with runs := m.runs + 1 } r
  else if n ≠ 0 ∧ regionEnd base < base + n * 16 then ({ m with fault := ecDescRange }, r)
  else if r.s.inDir base (n * 16) then ({ m with fault := ecTileDir }, r.noteReach)
  else
    let (us, r) := takeUnits r base (ceilDiv (n * 16) 64)
    let raw := (List.range n).map fun i =>
      ((unitField us (16 * i) 8).1, (unitField us (16 * i + 8) 4).1, (unitField us (16 * i + 12) 4).1)
    let bad := raw.any fun x => decide (2 ^ 48 ≤ x.1 ∨ x.2.2 ≠ 0 ∨ (et = etBf16 ∧ 65536 ≤ x.2.1))
    let desc := (raw.zip (raw.drop 1)).any fun x => decide (x.2.1 < x.1.1)
    if bad ∨ (bitAt fl 1 ∧ desc) then ({ m with fault := ecDescFormat }, r)
    else
      let es := raw.map fun x => MergeEnt.mk x.1 x.2.1
      let hi := es.foldl (fun a x => max a (x.key / 16384 + 1)) 0
      ({ m with ents := m.ents ++ es, tiles := max m.tiles hi,
                runs := m.runs + (if bitAt fl 1 then 1 else max 1 (ceilDiv n 65536)),
                poison := m.poison || us.any (·.poison) }, r)
/-- Entries of one key combined in order of run, batch and position (R183), and saturation. -/
def combine (et : Nat) (vs : List Nat) : Nat × Bool :=
  match vs with
  | [] => (0, false)
  | v :: r =>
    if et = etInt32 then
      let x := r.foldl (fun a w => a + sx 32 w) (sx 32 v)
      (ux 32 (satI32 x), satI32 x != x)
    else if et = etBf16 then (to16 (of32 (r.foldl (fun a w => add32 a (w * 65536)) (v * 65536))), false)
    else (if r.isEmpty then v else r.foldl add32 v, false)
/-- Clean units whose bytes the spec leaves open. -/
def State.openUnits (s : State) : Nat → List UnitP × State
  | 0 => ([], s)
  | k + 1 =>
    let (v, s) := s.free 512
    let (us, s) := s.openUnits k
    (⟨natLe 64 v, false⟩ :: us, s)
/-- MERGE (R181-R184). More than 32 sorted runs or batches pass through intermediate runs in SCRATCH, whose bytes the
spec does not give (assumption 176, DESIGN CHOICE). -/
def fnMerge (ws : List Word) (r : GhRun) : GhRun :=
  let w := cw ws
  let et := cEtype ws
  let runs := bitsOf (w 2) 15 0
  let (lu, r) := takeUnits r (w 1) (ceilDiv (runs * 16) 64)
  let (m, r) := (chunks 16 runs (bytesOf lu)).foldl (fun q e => mergeRun et e q.1 q.2)
    (({} : MergeIn), r)
  let scratch := bitsOf (w 5) 31 0
  if m.fault ≠ 0 then r.fail m.fault
  else if 32 < m.runs ∧ scratch < ceilDiv (m.ents.length * 16) 64 then r.fail ecDescRange
  else
    let poison := m.poison || lu.any (·.poison)
    let fmt := if cFunc ws = 0 then fmtScl else fmtEbm
    let tile := fun ord =>
      let es := m.ents.filter fun e => e.key / 16384 == ord
      let keys := (es.map fun e => e.key % 16384).eraseDups
      let cs := keys.map fun k => (k, combine et ((es.filter fun e => e.key % 16384 == k).map (·.val)))
      let grid := (List.range 128).map fun i => (List.range 128).map fun j =>
        match cs.find? fun c => c.1 == i * 128 + j with
        | some c => if elemEmpty et 0 c.2.1 then 0 else c.2.1
        | none => 0
      (encodeTileZ fmt et 0 128 128 grid, cs.any fun c => c.2.2)
    let ts := (List.range m.tiles).map tile
    let total := ts.foldl (fun a t => a + t.1.length) 0
    if !cDstH ws && decide (total ≠ 0 ∧ regionEnd (w 3) < w 3 + total) then r.fail ecDescRange
    else if !cDstH ws && r.s.inDir (w 3) total then r.reach
    else
      let (us, s) := r.s.openUnits (if 32 < m.runs then ceilDiv (m.ents.length * 16) 64 else 0)
      let r := { r with s := s.storeUnits (w 4) us }
      let q := ts.zipIdx.foldl (fun (q : Nat × GhRun) t =>
        if q.2.fault ≠ 0 then q
        else putTile (cDstH ws) (if cDstH ws then bitsOf (w 3) 23 0 else w 3) t.2 q.1 0 false
          (tileToUnits t.1.1 poison) { q.2 with sat := q.2.sat || t.1.2, poison := poison }) (w 3, r)
      if q.2.fault ≠ 0 then q.2 else { q.2 with count := m.tiles }

/-- The function of an opcode. -/
def ghFunc (ws : List Word) (r : GhRun) : GhRun :=
  GhRun.land <| match cOpcode ws with
  | 0x01 => if rowsInDir ws r then r.reach else fnGather ws r
  | 0x02 => if rowsInDir ws r then r.reach else fnScatter ws r
  | 0x03 => fnRowGather ws r
  | 0x04 => fnEmbBag ws r
  | 0x05 => fnAccum ws r
  | 0x06 => if rowsInDir ws r then r.reach else fnScatterAdd ws r
  | 0x07 => fnCompact ws r
  | 0x08 => fnMerge ws r
  | 0x0A => fnCopy ws r
  | 0x0B => fnHandleWrite ws r
  | _ => r

end Sys2Proof.Machine
end

