-- ==== Sys2Proof/Machine/Glasshouse.lean ====
section
/-! DEFINITION. Glasshouse command queues (spec/07, R204-R210, R222, R226-R231): pushes, the start of
commands by deficit round-robin, fences, completion actions, refresh, scrubbing, row repair and
raw-stack mode. -/

namespace Sys2Proof.Machine

/-- Commands of a queue, in order of arrival. -/
def Gh.q (g : Gh) (q : Nat) : List GhCmd := tabGet [] g.queues q
/-- Replace the commands of a queue. -/
def State.setGhQ (s : State) (k q : Nat) (cs : List GhCmd) : State :=
  s.modGh k fun g => { g with queues := tabSet g.queues q cs }
/-- EN of a queue; queue 15 is always enabled (R206). -/
def State.ghEn (s : State) (k q : Nat) : Bool := q == 15 || s.bit (.ghCmdqCtl k q) F.ghCmdqCtlEn
/-- The queue whose producer a requester is (R204). -/
def Requester.queue : Requester → Option Nat
  | .core n => some (n.val / 4)
  | .cc i => some (if i.val = 0 then 8 else 9)
  | .host => some 12
  | .gh _ => none

/-! ### Pushes (R205) -/

/-- A command joins its queue, with the next sequence number. -/
def ghAccept (k q : Nat) (ws : List Word) (s : State) : State :=
  let g := s.gh k
  let c : GhCmd := { ws := ((List.range 8).map fun i => ws.getD i 0), seq := g.seq, arr := s.now }
  (s.modGh k fun g => { g with seq := g.seq + 1 }).setGhQ k q (g.q q ++ [c])
/-- A push by a fabric producer: accepted, or waiting for room. -/
def ghPushFabric (k q : Nat) (core : Option Nat) (ws : List Word) (s : State) : State :=
  if 256 ≤ ((s.gh k).q q).length then s.modGh k fun g => { g with waiting := g.waiting ++ [⟨q, core, ws⟩] }
  else ghAccept k q ws s
/-- GH_CMDQ_PUSH (R205). -/
def ghPush (r : Requester) (k q : Nat) (ws : List Word) (s : State) : State :=
  if Requester.queue r ≠ some q then
    s.raise { src := srcOf 2 k 0, code := ecDescFormat, detail := [(32, 8, (ws.getD 0 0).toNat)] }
  else if r = .host ∧ 256 ≤ ((s.gh k).q q).length then
    (s.setFld (.ghCmdqStat k q) F.ghCmdqStatOverflow 1).raise
      { src := srcOf 2 k 0, code := ecDescRange, detail := [(32, 8, (ws.getD 0 0).toNat)] }
  else ghPushFabric k q none ws s
/-- MIGRATING is set and the migration queue takes the COPY command of a tile's bytes (R159, R204): that of the home
Glasshouse (assumption 177, DESIGN CHOICE). -/
def migCopy (h da : Nat) (s : State) : State :=
  let e := s.dirEnt h
  let s := (s.dirWrite h (e.set 51 true)).modGh (h % 8) fun g => { g with migs := tabSet g.migs h da }
  ghPushFabric (h % 8) 14 none
    ([0x0A, e.da, da, e.len, 0, 0, 0, 0].map fun x => BitVec.ofNat 64 x) s
/-- MIGRATION_START (R159): a tile that may move gets space in another stack's heap, and its copy starts. -/
def migStart (h dst : Nat) (s : State) : State :=
  if s.movable h then
    match heapAlloc dst h (s.dirEnt h).len s with
    | (none, s) => s
    | (some da, s) => migCopy h da s
  else s
/-- A command of the Glasshouse itself starts in queue 15 (R204). -/
def ownStart (k : Nat) (s : State) : State :=
  let g := s.gh k
  (s.modGh k fun g => { g with seq := g.seq + 1 }).setGhQ k 15
    (g.q 15 ++ [{ ws := List.replicate 8 0, seq := g.seq, arr := s.now, start := some s.now }])
/-- The oldest command of the Glasshouse itself ends. -/
def ownEnd (k : Nat) (s : State) : State :=
  (s.setGhQ k 15 ((s.gh k).q 15).tail).bump (.ghCmdqStat k 15) F.ghCmdqStatCompleted 1
/-- Pushes that wait are accepted as entries free. -/
def ghDrainWaiting (k : Nat) (s : State) : State :=
  (s.gh k).waiting.foldl (fun s p =>
    if p.core.isSome ∨ 256 ≤ ((s.gh k).q p.q).length then s
    else ghAccept k p.q p.ws (s.modGh k fun g => { g with waiting := g.waiting.erase p })) s

/-! ### Completion (R206, R210) -/

/-- Completion status of a run (R35, R210, R211, R215). -/
def GhRun.status (r : GhRun) : Nat :=
  if r.fault ≠ 0 then 3 else if r.poison then 2 else if r.info || r.sat then 1 else 0
/-- The completion action of a command of stack k (R207, R210). -/
def ghAction (k : Nat) (ws : List Word) (d : GhDone) (s : State) : State :=
  match cCmpl ws with
  | 1 => s.signal (bitsOf (cArg ws) 12 8) (bitsOf (cArg ws) 5 0)
      { code := d.code, poison := d.status == 2, sat := d.sat, nanSeen := d.nan
        given := some d.status, detail := d.count }
  | 2 =>
    if cmplBad ws ≠ 0 ∨ s.inDir (cCmplAddr ws) 16 then s
    else
      let (s, bad) := bgReach 14 (canon (cCmplAddr ws)) 16 true s
      s.doIf (!bad) fun s => s.rmwPart (cCmplAddr ws) (natLe 2 (cTag ws) ++ natLe 1 d.status ++ natLe 1 d.code ++
        natLe 4 d.count ++ natLe 8 s.timeNow) false
  | 3 => s.tsArrive (37 + k) (.add (bitsOf (cArg ws) 11 0) 1)
  | _ => s
/-- True while a FENCE of the queue holds later commands back. -/
def fenceHolds (cs : List GhCmd) : Bool :=
  cs.any fun c => c.start.isSome && c.done.isNone && cOpcode c.ws == 0x09
/-- The command that a queue could start at a time: the oldest not yet started. -/
def startable (s : State) (k q t : Nat) : Option GhCmd :=
  let cs := (s.gh k).q q
  if s.ghEn k q = false ∨ s.bit (.ghStatus k) F.ghStatusRaw ∨ fenceHolds cs ∨
    4 ≤ (cs.filter fun c => c.start.isSome).length then none
  else (cs.find? fun c => c.start.isNone).filter fun c => decide (c.arr + 8 * fabTicks ≤ t)
/-- A turn whose queue has nothing to start at the cycle after its last start has ended, and its credit with it
(R206). It is asked before what a queue holds, or may start, changes. -/
def turnEnds (k : Nat) (s : State) : State :=
  let g := s.gh k
  let t := g.lastStart + fabTicks
  if g.credit ≠ 0 ∧ t ≤ s.now ∧ (startable s k g.turn t).isNone then s.modGh k fun g => { g with credit := 0 } else s
/-- A copy of the migration queue that ended without its effect is given up with its migration (R159, R204). -/
def copyLost (k q : Nat) (ws : List Word) (d : GhDone) (s : State) : State :=
  if q = 14 ∧ 3 ≤ d.status then
    (s.gh k).migs.foldl (fun s m => if m.2 = cw ws 2 then abandonMig m.1 s else s) s
  else s
/-- The command at the head of a queue leaves it: its switches take effect, VERSION of the tiles it
accumulated into advances, its completion action runs, its entry frees. -/
def ghFinish (k q : Nat) (c : GhCmd) (d : GhDone) (s : State) : State :=
  let s := turnEnds k s
  let s := c.switches.foldl (fun s t => tileSwitch t s) s
  let s := s.doIf (decide (d.status < 3)) fun s => c.accum.foldl (fun s h => bumpVersion h s) s
  let s := copyLost k q c.ws d (ghAction k c.ws d s)
  let s := s.bump (.ghCmdqStat k q) F.ghCmdqStatCompleted 1
  ghDrainWaiting k (s.setGhQ k q (((s.gh k).q q).filter fun x => x.seq != c.seq))
/-- GH_COMMAND_COMPLETE (R206, R210): commands of a queue complete in arrival order. -/
def ghComplete (k q : Nat) (s : State) : State :=
  match (s.gh k).q q with
  | [] => s
  | c :: _ =>
    match c.done with
    | none => s
    | some d => ghFinish k q c d (s.advance d.ready)
/-- What a command that is not run completes with (R206, R230): ABORTED. -/
def ghAborted (t : Nat) : GhDone := { status := 4, code := 0, count := 0, ready := t }
/-- GH_CMDQ_RESET (R206): every command not yet started completes ABORTED. -/
def ghReset (k q : Nat) (s : State) : State :=
  let d := ghAborted s.now
  s.setGhQ k q (((s.gh k).q q).map fun c => if c.start.isNone then { c with start := some s.now, done := some d } else c)

/-! ### Start (R206, R209, R222) -/

/-- The queue that starts next, with its credit (R206): the turn goes on while credit and a startable
command last, cycle by cycle, and then passes to the next queue in order. -/
def nextTurn (s : State) (k t : Nat) : Option (Nat × Nat) :=
  let g := s.gh k
  if g.credit ≠ 0 ∧ (startable s k g.turn (g.lastStart + fabTicks)).isSome then some (g.turn, g.credit)
  else
    ((List.range 16).map fun i => (g.turn + 1 + i) % 16).findSome? fun q =>
      if (startable s k q t).isSome then some (q, max 1 (s.fld (.ghCmdqCtl k q) F.ghCmdqCtlWeight)) else none
/-- CODE of a run (R210): that of the first event it raised. A function raises DETECT_STACK for the sectors it finds
bad, and last, if at all, TILE_DIR; what it leaves otherwise is raised after it. -/
def firstEvent (s t : State) (fault : Nat) (sat : Bool) : Nat :=
  let n := (t.fld .errHead F.errHeadSeq + 2 ^ 32 - s.fld .errHead F.errHeadSeq) % 2 ^ 32
  if n = 0 then (if fault ≠ 0 then fault else if sat then ecAccSatFinal else 0)
  else if n = 1 ∧ fault = ecTileDir then ecTileDir
  else ecDetectStack
/-- Decode and run a command (R209): its run, with the error records of its faults. -/
def ghExecute (k : Nat) (ws : List Word) (s : State) : GhRun :=
  let f := ghDecode s ws
  if f ≠ 0 then
    let i := f / 256 / 64
    let w := if cmplBad ws ≠ 0 then 7 else i
    { s := s.raise { src := srcOf 2 k 0, code := f % 256,
                     detail := [(32, 8, cw ws w), (40, 1, w), (41, 1, f / 256 % 64)] }
      k := k, fault := f % 256, code := f % 256 }
  else if ghInDir s ws then
    let tag := if cCmpl ws = 2 ∧ s.inDir (cCmplAddr ws) 16 then some (cw ws 7) else none
    { s := dirReach k tag s, k := k, fault := ecTileDir, code := ecTileDir }
  else
    let r := ghFunc ws { s := s, k := k }
    let code := firstEvent s r.s r.fault r.sat
    let s := r.s
    let s := s.doIf (r.fault ≠ 0 && r.fault != ecTileDir) fun s =>
      s.raise { src := srcOf 2 k 0, code := r.fault, detail := [(32, 8, cw ws 0)] }
    let s := s.doIf r.sat fun s =>
      s.raise { src := srcOf 2 k 0, code := ecAccSatFinal, detail := [(32, 1, 0xFF)] }
    { r with s := s, code := code }
/-- PEER of an error record that names a device (R483). -/
def peerOf (dev : Nat) : Nat := dev + 0x8000
/-- An ACCUM command whose source is a port's receive buffer (R394). -/
def accumBuf (k : Nat) (b : AccBuf) (s : State) : GhRun :=
  let eb := etBytes b.et
  let vals := b.units.flatMap fun u => (chunks eb 64 u.bs).map fun c => (leNat c, u.poison)
  let r := accUnits b.func b.et false false (vals.length + 1) b.dst vals { s := s, k := k }
  { r with
    code := firstEvent s r.s r.fault r.sat
    s := r.s.doIf r.sat fun s =>
      s.raise { src := srcOf 2 k 0, code := ecAccSatFinal, peer := peerOf b.dev, detail := [(32, 1, 0xFF)] } }
/-- The end of a run, ready for its completion action 6 cycles after its last write (R220). -/
def GhRun.done (r : GhRun) : GhDone :=
  { status := r.status, code := r.code, count := r.count, ready := r.s.now + 6 * fabTicks
    sat := r.sat && r.fault == 0, nan := r.info }
/-- A command is a FENCE that passes its checks. -/
def GhCmd.isFence (s : State) (c : GhCmd) : Bool := c.buf.isNone && cOpcode c.ws == 0x09 && ghDecode s c.ws == 0
/-- What a command does: it fails when its entry in the queue fails its parity (R477); else a port's accumulation, nothing for a FENCE, else its function. -/
def GhCmd.perform (k : Nat) (c : GhCmd) (s : State) : GhRun :=
  if s.parity.queues.contains (k, c.seq) then
    let s := { s with parity := { s.parity with queues := s.parity.queues.filter (· != (k, c.seq)) } }
    { s := s.raise (sramErr (srcOf 2 k 0) 8), k := k, fault := ecDetectSram, code := ecDetectSram }
  else match c.buf with
  | some b => accumBuf k b s
  | none => if c.isFence s then { s := s, k := k } else ghExecute k c.ws s
/-- A command of queue q with the given opcode starts, when it is that queue's turn. -/
def ghStart (k q : Nat) (opc : Nat → Bool) (s : State) : State :=
  let g := s.gh k
  match (g.q q).find? fun c => c.start.isNone with
  | none => s
  | some c =>
    let t := max s.now (max (c.arr + 8 * fabTicks) (g.lastStart + fabTicks))
    if opc (cOpcode c.ws) = false then s
    else match nextTurn s k t with
    | none => s
    | some (p, credit) =>
      if p ≠ q then s
      else
        let s := s.advance t
        let s := s.modGh k fun g => { g with turn := q, credit := credit - 1, lastStart := t }
        let r := c.perform k s
        let c' := { c with start := some t, switches := r.switches, accum := r.accum,
                           done := if c.isFence s && r.fault == 0 then none else some r.done }
        r.s.setGhQ k q (((r.s.gh k).q q).map fun x => if x.seq = c.seq then c' else x)
/-- What a FENCE completes with, 6 cycles after a time (R222). -/
def fenceDone (t : Nat) : GhDone := { status := 0, code := 0, count := 0, ready := t + 6 * fabTicks }
/-- Commands of the masked queues with a lower sequence number than a FENCE's are held (R222). -/
def fenceWaits (k q : Nat) (c : GhCmd) (s : State) : Bool :=
  (List.range 16).any fun j =>
    bitAt (cw c.ws 1) j && j != q && ((s.gh k).q j).any fun x => decide (x.seq < c.seq)
/-- GH_FENCE_RELEASE (R222): the fence's condition holds once it heads its queue and every command of
the masked queues with a lower sequence number has completed. -/
def ghFenceRelease (k q : Nat) (s : State) : State :=
  match (s.gh k).q q with
  | [] => s
  | c :: rest =>
    if c.start.isNone ∨ c.done.isSome ∨ cOpcode c.ws ≠ 0x09 ∨ fenceWaits k q c s then s
    else (turnEnds k s).setGhQ k q ({ c with done := some (fenceDone s.now) } :: rest)

/-! ### Refresh, scrubbing, repair (R226-R228) -/

/-- STACK_REFRESH (R226): 32 ms, or 16 ms while REFRESH_2X or in raw-stack mode (R229). -/
def stackRefresh (k pc : Nat) (s : State) : State :=
  let ms := if s.bit (.ghStatus k) F.ghStatusRefresh2x || s.bit (.ghStatus k) F.ghStatusRaw then 16 else 32
  let s := s.advance (tabGet 0 (s.gh k).refreshed pc + ms * 1000 * usTicks)
  s.modGh k fun g => { g with refreshed := tabSet g.refreshed pc s.now }
/-- A scrub pass runs: the passes follow one another while the scrubber is enabled (R227; assumption 178, DEDUCED). -/
def State.scrubbing (s : State) (k : Nat) : Bool :=
  s.bit (.ghScrubCtl k) F.ghScrubCtlEn && s.bit (.ghStatus k) F.ghStatusReady && !s.bit (.ghStatus k) F.ghStatusRaw
/-- Rows that an index list names, from a base up: their start and bytes. -/
def listRows (ws : List Word) (base row : Nat) (s : State) : List (Nat × Nat) :=
  (List.range (bitsOf (cw ws 3) 23 0)).filterMap fun i =>
    let a := base + s.rdN (cw ws 2 + i * idxBytes ws) (idxBytes ws) * row
    if regionEnd base < a + row then none else some (a, row)
/-- Bytes of a tile that a handle names. -/
def tileRange (h : Nat) (s : State) : Nat × Nat := ((s.dirEnt h).da, (s.dirEnt h).len * 64)
/-- The ranges that a command writes (R208, R230). -/
def GhCmd.dests (k : Nat) (c : GhCmd) (s : State) : List (Nat × Nat) :=
  let ws := c.ws
  let w := cw ws
  match c.buf with
  | some b => [(b.dst, 64 * b.units.length)]
  | none =>
    if ghDecode s ws ≠ 0 ∨ ghInDir s ws then []
    else match cOpcode ws with
    | 0x02 => listRows ws (w 4) (bitsOf (w 3) 40 32 * 64) s
    | 0x03 =>
      let n := ((List.range (bitsOf (w 3) 15 0)).filter fun i => bitAt (s.rdN (w 2 + i / 8) 1) (i % 8)).length
      [(w 4, bitsOf (w 1) 41 32 * ceilDiv n 128 * denseLen (s.dirEnt (bitsOf (w 1) 23 0)).etype * 64 +
        (if w 5 = 0 then 0 else 8 * n))]
    | 0x05 => if cDstH ws then [tileRange (bitsOf (w 2) 23 0) s] else [(w 2, bitsOf (w 3) 31 0 * etBytes (cEtype ws))]
    | 0x06 => if cDstH ws then [tileRange (bitsOf (w 4) 23 0) s]
      else listRows ws (w 4) (bitsOf (w 3) 47 32 * etBytes (cEtype ws)) s
    | 0x07 => if cDstH ws then [] else (fnCompact ws { s := s, k := k }).writes.map fun x => (x.1, 64 * x.2.length)
    | 0x08 => (w 4, bitsOf (w 5) 31 0 * 64) :: if cDstH ws then []
      else (fnMerge ws { s := s, k := k }).writes.map fun x => (x.1, 64 * x.2.length)
    | _ => ((ghRanges ws).filter (·.dst)).map fun r => (r.a, r.len)
/-- Two ranges of device memory meet, in whichever view. -/
def spansMeet (x y : Nat × Nat) : Bool :=
  if 0x010000000000 ≤ x.1 ∧ 0x010000000000 ≤ y.1 then decide (x.1 < y.1 + y.2 ∧ y.1 < x.1 + x.2)
  else (List.range (ceilDiv (x.1 % 64 + x.2) 64)).any fun i =>
    (List.range (ceilDiv (y.1 % 64 + y.2) 64)).any fun j =>
      canon (x.1 / 64 * 64 + 64 * i) == canon (y.1 / 64 * 64 + 64 * j)
/-- An accumulation in flight writes the sector at a place (R227). -/
def State.accumulating (s : State) (k a : Nat) : Bool :=
  (s.gh k).queues.any fun q => q.2.any fun c =>
    c.start.isSome && (cOpcode c.ws == 5 || cOpcode c.ws == 6) && (c.dests k s).any (spansMeet (a, 64))
/-- Progress channel 3 (R461): a pass of every stack that is scrubbed, 2^31 sectors each (assumption 192, DEDUCED). -/
def scrubProgress (s : State) : State :=
  let n := ((List.range 8).filter fun k =>
    s.bit (.ghScrubCtl k) F.ghScrubCtlEn && !s.bit (.ghStatus k) F.ghStatusRaw).length
  let s := if s.fld (.hifProgStat 3) F.hifProgStatState = 1 then s else progStart 3 s
  let pos := s.word (.hifProgPos 3) + 2 ^ 31
  if n * 2 ^ 31 ≤ pos then progDone 3 pos s else progAt 3 (pos * 10000 / (n * 2 ^ 31)) pos s
/-- SCRUB_PASS (R227): queue 15 reads every sector; one with an accumulation in flight is read at the end. A sector
whose code is sound, or the signature, is left as it is, so that only the others are gone through. -/
def scrubPass (k : Nat) (s : State) : State :=
  if s.bit (.ghScrubCtl k) F.ghScrubCtlEn = false ∨ s.bit (.ghStatus k) F.ghStatusRaw then s
  else
    let hours := max 1 (s.fld (.ghScrubCtl k) F.ghScrubCtlPeriod)
    let s := s.advance ((s.gh k).lastScrub + hours * 3600 * 1000000 * usTicks)
    let us := (s.chk.filter fun e => e.2 != poisonSig &&
      decide (stackBase k ≤ e.1 * 64 ∧ e.1 * 64 < stackBase k + 0x2000000000)).map Prod.fst
    let us := us.filter (fun u => !s.accumulating k (u * 64)) ++ us.filter fun u => s.accumulating k (u * 64)
    let s := us.foldl (fun s u => (s.sense (u * 64)).2) s
    let s := s.bump (.ghCmdqStat k 15) F.ghCmdqStatCompleted 1
    scrubProgress (s.modGh k fun g => { g with lastScrub := s.now, seq := g.seq + 1 })
/-- Rows of a bank that are left mapped. -/
def Gh.bankRows (g : Gh) (pc bank : Nat) : List RowAt := g.unspared.filter fun r => r.pc == pc && r.bank == bank
/-- A row finds no spare (R228): it stays mapped and queued; the eighth of a bank schedules the bank's
repair for the next stack training (R499, R503). -/
def leaveRow (k : Nat) (r : RowAt) (s : State) : State :=
  let s := (s.modGh k fun g => { g with unspared := g.unspared ++ [r] }).bump (.ghRepairStat k) F.ghRepairStatUnrepaired 1
  s.doIf (decide (8 ≤ ((s.gh k).bankRows r.pc r.bank).length)) fun s =>
    adviseUp 3 0 (s.setFld .hifAdvice F.hifAdviceRepairPending 1)
/-- A spare bank of its channel takes the place of a bank with eight rows left mapped, if the channel has
its spare (R199, R499). -/
def bankRepair (k : Nat) (s : State) (r : RowAt) : State :=
  let g := s.gh k
  if (g.bankRows r.pc r.bank).length < 8 ∨ g.spareBanks.contains (r.pc / 2) then s
  else
    let gone (x : RowAt) : Bool := x.pc == r.pc && x.bank == r.bank
    let s := s.modGh k fun g =>
      { g with repairQ := g.repairQ.filter fun x => !gone x, unspared := g.unspared.filter fun x => !gone x,
               spareBanks := g.spareBanks ++ [r.pc / 2] }
    let s := s.bump (.ghRepairStat k) F.ghRepairStatBanksUsed 1
    let s := s.setFld (.ghRepairStat k) F.ghRepairStatQueued (s.gh k).repairQ.length
    s.setFld (.ghRepairStat k) F.ghRepairStatUnrepaired (s.gh k).unspared.length
/-- ROW_REPAIR (R228): a queued row with a spare left in its bank. -/
def rowRepair (k : Nat) (r : RowAt) (s : State) : State :=
  let g := s.gh k
  if g.repairQ.contains r = false ∨ g.repair.isSome ∨ s.bit (.ghStatus k) F.ghStatusRaw then s
  else if 8 ≤ tabGet 0 g.spares (r.pc * 32 + r.bank) then
    s.doIf (!g.unspared.contains r) (leaveRow k r)
  else (ownStart k s).modGh k fun g => { g with repair := some (r, s.now) }
/-- ROW_REPAIR_DONE (R228): the copy, a command of queue 15, has ended; in raw-stack mode no repair runs (R229). -/
def rowRepairDone (k : Nat) (s : State) : State :=
  match (s.gh k).repair with
  | none => s
  | some (r, t) =>
    let s := s.advance (t + 2000 * fabTicks)
    let s := s.modGh k fun g =>
      { g with repair := none, repairQ := g.repairQ.erase r, remapped := g.remapped ++ [r],
               spares := tabMod 0 g.spares (r.pc * 32 + r.bank) (· + 1) }
    let s := s.bump (.ghRepairStat k) F.ghRepairStatRowsUsed 1
    ownEnd k (s.setFld (.ghRepairStat k) F.ghRepairStatQueued (s.gh k).repairQ.length)

/-! ### Raw-stack mode (R229-R231) -/

/-- Handles that a command wrote or accumulated into. -/
def GhCmd.handles (c : GhCmd) : List Nat := c.accum ++ c.switches.map TileSwitch.h
/-- Bytes of a range become undefined (R230): free values, unit by unit. -/
def loseRange (a : Nat) : Nat → State → State
  | 0, s => s
  | n, s =>
    (List.range (ceilDiv (a % 64 + n) 64)).foldl (fun s i =>
      let lo := if i = 0 then a else a / 64 * 64 + 64 * i
      let hi := min (a + n) (a / 64 * 64 + 64 * i + 64)
      let (v, s) := s.free 512
      s.wr lo (natLe (hi - lo) v)) s
/-- Handles of the tiles whose bytes meet a range: those of the stacks' heaps, and those that the placement service
keeps in the Orangery. -/
def State.tilesIn (s : State) (x : Nat × Nat) : List Nat :=
  let heaps := (List.range 8).flatMap fun j => (s.gh j).heap.filterMap fun e =>
    if !e.2.freed && canon (s.dirEnt e.2.h).da == stackBase j + e.1 then some e.2.h else none
  ((heaps ++ s.hif.org).filter fun h => (s.dirEnt h).valid && spansMeet x (tileRange h s)).dedup
/-- A command is aborted at its Glasshouse's failure (R230): what it writes is undefined, and the tiles that one
already started wrote or accumulated into are marked. -/
def abortCmd (k q : Nat) (c : GhCmd) (s : State) : State :=
  let ds := c.dests k s
  let hs := if c.start.isSome then (c.handles ++ ds.flatMap s.tilesIn).dedup else []
  let s := c.switches.foldl switchLapse s
  let s := ds.foldl (fun s d => loseRange d.1 d.2 s) s
  let s := hs.foldl (fun s h => s.poisonTile h) s
  ghFinish k q { c with switches := [], accum := [] } (ghAborted s.now) s
/-- A Glasshouse is declared failed (R229, R230): the commands held complete ABORTED, no repair goes on, and the port
drives the stack, which it refreshes at the shorter interval. -/
def rawStack (k cause : Nat) (s : State) : State :=
  if s.bit (.ghStatus k) F.ghStatusRaw then s
  else
    let s := s.setFld (.ghStatus k) F.ghStatusRaw 1
    let s := s.setFld (.ghStatus k) F.ghStatusRefresh2x 1
    let s := s.modGh k fun g => { g with repair := none }
    let s := (s.gh k).queues.foldl (fun s q => q.2.foldl (fun s c => abortCmd k q.1 c s) s) s
    s.raise { src := srcOf 2 k 0, code := ecRawStack, fw := true, detail := [(32, 1, k), (33, 1, cause)] }
/-- GH_HEARTBEAT (R229): three unanswered heartbeats. -/
def ghHeartbeat (k : Nat) (answered : Bool) (s : State) : State :=
  let s := s.advance (s.now + 10 * usTicks)
  if answered then s.modGh k fun g => { g with misses := 0 }
  else
    let m := (s.gh k).misses + 1
    let s := s.modGh k fun g => { g with misses := m }
    s.doIf (decide (3 ≤ m)) (rawStack k 0)
/-- RAW_STACK_EMULATE (R231): Virhan runs the oldest command of an enabled queue, with the same result; a FENCE waits
for its queues, and a command that a reset has ended completes. -/
def rawEmulate (k q : Nat) (s : State) : State :=
  match (s.gh k).q q with
  | [] => s
  | c :: _ =>
    if s.bit (.ghStatus k) F.ghStatusRaw = false then s
    else match c.done with
    | some d => ghFinish k q c d (s.advance d.ready)
    | none =>
      if s.ghEn k q = false ∨ (c.isFence s && fenceWaits k q c s) then s
      else
        let r := c.perform k s
        ghFinish k q { c with switches := r.switches, accum := r.accum } r.done r.s

/-! ### The commands -/

/-- MIGRATION_START (R159). -/
def execMigrationStart (h : BitVec 24) (dst : StackId) (s : State) :
    Host.Outcome State Fault Refusal := run (migStart h.toNat dst) s

/-- GH_CMDQ_RESET (R206). -/
def execGhCmdqReset (k : StackId) (q : QId) (s : State) : Host.Outcome State Fault Refusal :=
  run (ghReset k q) s
/-- NOP (R208); a reserved opcode starts here too, and fails at decode (R209). -/
def execGhNop (k : StackId) (q : QId) (s : State) : Host.Outcome State Fault Refusal :=
  run (ghStart k q fun o => o == 0 || decide (0x0B < o)) s
/-- GATHER (R211). -/
def execGhGather (k : StackId) (q : QId) (s : State) : Host.Outcome State Fault Refusal :=
  run (ghStart k q (· == 1)) s
/-- SCATTER (R211). -/
def execScatter (k : StackId) (q : QId) (s : State) : Host.Outcome State Fault Refusal :=
  run (ghStart k q (· == 2)) s
/-- ROW_GATHER (R212). -/
def execRowGather (k : StackId) (q : QId) (s : State) : Host.Outcome State Fault Refusal :=
  run (ghStart k q (· == 3)) s
/-- EMB_BAG (R214). -/
def execEmbBag (k : StackId) (q : QId) (s : State) : Host.Outcome State Fault Refusal :=
  run (ghStart k q (· == 4)) s
/-- ACCUM (R215). -/
def execAccum (k : StackId) (q : QId) (s : State) : Host.Outcome State Fault Refusal :=
  run (ghStart k q (· == 5)) s
/-- SCATTER_ADD (R216). -/
def execScatterAdd (k : StackId) (q : QId) (s : State) : Host.Outcome State Fault Refusal :=
  run (ghStart k q (· == 6)) s
/-- COMPACT (R217). -/
def execCompact (k : StackId) (q : QId) (s : State) : Host.Outcome State Fault Refusal :=
  run (ghStart k q (· == 7)) s
/-- MERGE (R181-R184). -/
def execMerge (k : StackId) (q : QId) (s : State) : Host.Outcome State Fault Refusal :=
  run (ghStart k q (· == 8)) s
/-- FENCE (R222). -/
def execGhFence (k : StackId) (q : QId) (s : State) : Host.Outcome State Fault Refusal :=
  run (ghStart k q (· == 9)) s
/-- GH_FENCE_RELEASE (R222). -/
def execGhFenceRelease (k : StackId) (q : QId) (s : State) : Host.Outcome State Fault Refusal :=
  run (ghFenceRelease k q) s
/-- COPY (R208). -/
def execGhCopy (k : StackId) (q : QId) (s : State) : Host.Outcome State Fault Refusal :=
  run (ghStart k q (· == 10)) s
/-- HANDLE_WRITE (R217). -/
def execHandleWrite (k : StackId) (q : QId) (s : State) : Host.Outcome State Fault Refusal :=
  run (ghStart k q (· == 11)) s

/-- STACK_REFRESH (R226). -/
def execStackRefresh (k : StackId) (pc : Fin 64) (s : State) : Host.Outcome State Fault Refusal :=
  run (stackRefresh k pc) s
/-- SCRUB_PASS (R227). -/
def execScrubPass (k : StackId) (s : State) : Host.Outcome State Fault Refusal := run (scrubPass k) s
/-- ROW_REPAIR (R228). -/
def execRowRepair (k : StackId) (pc : Fin 64) (bank : Fin 32) (row : BitVec 16) (s : State) :
    Host.Outcome State Fault Refusal := run (rowRepair k ⟨pc, bank, row.toNat⟩) s
/-- ROW_REPAIR_DONE (R228). -/
def execRowRepairDone (k : StackId) (s : State) : Host.Outcome State Fault Refusal :=
  run (rowRepairDone k) s
/-- GH_HEARTBEAT (R229). -/
def execGhHeartbeat (k : StackId) (answered : Bool) (s : State) : Host.Outcome State Fault Refusal :=
  run (ghHeartbeat k answered) s
/-- RAW_STACK_EMULATE (R231). -/
def execRawStackEmulate (k : StackId) (q : QId) (s : State) : Host.Outcome State Fault Refusal :=
  run (rawEmulate k q) s

end Sys2Proof.Machine
end

