-- ==== Sys2Proof/Machine/Division.lean ====
section
/-! DEFINITION. How Virhan 1.x divides work over devices (spec/12, R403, R404). -/

namespace Sys2Proof.Machine

/-! ### Columns, rows and heads -/

/-- The part of N columns that device r of G holds: first column and number of columns (R404). The rows of the
partner matrix follow the same boundaries (R403). -/
def columnPart (n g r : Nat) : Nat × Nat :=
  let p := ceilDiv n g
  let a := min (r * p) n
  (a, min ((r + 1) * p) n - a)
/-- The extents of the tile columns in which a device stores its part; extent 0 is handle 0 (R404, R148). -/
def tileColumns (n g r : Nat) : List Nat :=
  let k := (columnPart n g r).2
  (List.range (ceilDiv (ceilDiv n g) 128)).map fun j => min 128 (k - 128 * j)
/-- The whole heads that device r of G takes: the first and their number; Q, K and V are split by them and O by the
matching rows (R403, R404). -/
def headPart (h g r : Nat) : Nat × Nat :=
  (r * (h / g) + min r (h % g), h / g + if r < h % g then 1 else 0)
/-- What a device holds of a pair of consecutive matrices (R403): columns of the first (of both up and gate in a gated
FFN) and rows of the second, whose FP32 partials one all-reduce combines. -/
def pairPart (n g r : Nat) : MatrixPart :=
  let p := columnPart n g r
  ⟨p.1, p.2, tileColumns n g r⟩

/-! ### Experts -/

/-- Experts by weight, heaviest first; the lower number first among equals. -/
def byWeight (ws : List Nat) : List Nat :=
  (List.range ws.length).mergeSort fun a b =>
    decide (ws.getD b 0 < ws.getD a 0 ∨ (ws.getD a 0 = ws.getD b 0 ∧ a ≤ b))
/-- The load of a device's experts. -/
def loadOf (ws : List Nat) (es : List Nat) : Nat := es.foldl (fun a e => a + ws.getD e 0) 0
/-- The least-loaded device that holds fewer than `cap` experts; the lower rank among equals. -/
def leastLoaded (ws : List Nat) (cap : Nat) (held : List (List Nat)) : Option Nat :=
  ((List.range held.length).filter fun r => decide ((held.getD r []).length < cap)).foldl (fun a r => match a with
    | none => some r
    | some b => if loadOf ws (held.getD r []) < loadOf ws (held.getD b []) then some r else some b) none
/-- Experts go, in order, to the least-loaded device with room. -/
def assignExperts (ws : List Nat) (cap : Nat) (es : List Nat) (held : List (List Nat)) : List (List Nat) :=
  es.foldl (fun held e => match leastLoaded ws cap held with
    | some r => held.set r (held.getD r [] ++ [e])
    | none => held) held
/-- E experts over D ≤ E devices (R404): floor(E / D) each, heaviest first, and then the remaining ones. -/
def expertsOver (ws : List Nat) (d : Nat) : List (List Nat) :=
  let es := byWeight ws
  let k := ws.length / d
  let held := assignExperts ws k (es.take (k * d)) (List.replicate d [])
  assignExperts ws (k + 1) (es.drop (k * d)) held
/-- Replicas of each of E < D experts (R404): floor(D / E), and one more of the most-loaded. -/
def replicaCounts (ws : List Nat) (d : Nat) : List Nat :=
  let e := ws.length
  let more := (byWeight ws).take (d % e)
  (List.range e).map fun i => d / e + if more.contains i then 1 else 0
/-- The experts that each device holds when there are fewer experts than devices: the replicas in ascending order of
expert, floor(D / E) of each, and then the extra ones (assumption 181, DESIGN CHOICE). -/
def replicasOver (ws : List Nat) (d : Nat) : List (List Nat) :=
  let e := ws.length
  ((List.range e).flatMap fun i => List.replicate (d / e) [i]) ++ ((byWeight ws).take (d % e)).map fun i => [i]
/-- The experts of each device (R404). -/
def expertPart (ws : List Nat) (d : Nat) : List (List Nat) :=
  if d = 0 ∨ ws = [] then List.replicate d []
  else if d ≤ ws.length then expertsOver ws d
  else replicasOver ws d
/-- The replica that serves token t of an expert with k replicas: in rotation (R404). -/
def replicaOf (t k : Nat) : Nat := t % max 1 k

/-! ### Layers -/

/-- The sum of the first i costs. -/
def costOf (cs : List Nat) (i : Nat) : Nat := (cs.take i).foldl (· + ·) 0
/-- The largest stage cost of the best division of contiguous layers over k stages. -/
def bestStages : Nat → List Nat → Nat
  | 0, _ => 0
  | 1, cs => costOf cs cs.length
  | k + 2, cs =>
    ((List.range (cs.length - (k + 1))).map fun i =>
      max (costOf cs (i + 1)) (bestStages (k + 1) (cs.drop (i + 1)))).foldl min (costOf cs cs.length)
/-- The first layers of the second and later stages within a largest cost m: the lexicographically smallest list. -/
def stageBounds (m : Nat) : Nat → Nat → List Nat → List Nat
  | 0, _, _ => []
  | 1, _, _ => []
  | k + 2, a, cs =>
    match (List.range (cs.length - (k + 1))).find? fun i =>
      decide (costOf cs (i + 1) ≤ m ∧ bestStages (k + 1) (cs.drop (i + 1)) ≤ m) with
    | some i => (a + i + 1) :: stageBounds m (k + 1) (a + i + 1) (cs.drop (i + 1))
    | none => []
/-- The boundaries of the pipeline stages (R404). -/
def layerPart (cs : List Nat) (k : Nat) : List Nat := stageBounds (bestStages k cs) k 0 cs

/-! ### The placement of a job (R404, R411) -/

/-- Measured costs, or parameter counts until 16 steps have been measured (R404). -/
def measuredOr (steps : Nat) (measured params : List Nat) : List Nat := if steps < 16 then params else measured
/-- The division of a placement's work. -/
def divide (x : Placement) : Division :=
  let p := x.plan
  { pairs := p.cols.map fun n => (List.range p.devices).map (pairPart n p.devices)
    heads := (List.range p.devices).map (headPart p.heads p.devices)
    experts := expertPart (measuredOr x.steps x.expLoad p.experts) p.devices
    stages := layerPart (measuredOr x.steps x.layLoad p.layers) p.stages }
/-- The costs of a step are added to those measured. -/
def addLoads (xs ys : List Nat) : List Nat :=
  (List.range (max xs.length ys.length)).map fun i => xs.getD i 0 + ys.getD i 0
/-- The manager role places a job: its first placement is in force at once. -/
def placeJob (p : JobPlan) (s : State) : State :=
  let x : Placement := { plan := p }
  { s with net := { s.net with place := { x with now := divide x, next := none }
                               micro := p.micro.map fun q => { q := q.val } } }
/-- A step has been measured: another division waits for a step boundary. -/
def measureStep (l : StepLoads) (s : State) : State :=
  let x := s.net.place
  let x := { x with steps := x.steps + 1, expLoad := addLoads x.expLoad l.experts, layLoad := addLoads x.layLoad l.layers }
  let d := divide x
  { s with net := { s.net with place := { x with next := if d = x.now then none else some d } } }
/-- A change of placement takes effect at a step boundary (R404). -/
def placeBoundary (s : State) : State :=
  match s.net.place.next with
  | none => s
  | some d => { s with net := { s.net with place := { s.net.place with now := d, next := none } } }

end Sys2Proof.Machine
end

