-- ==== Sys2Proof/Machine/Idle.lean ====
section
/-! DEFINITION. What the device loses in an idle state and in the rungs of recovery (spec/13, R436;
spec/15, R502), and waking from an idle state (R436, R437, R440, R441), which any event of R440 does
before it takes effect. What is lost reads as it does after reset (assumptions 5 and 14). -/

namespace Sys2Proof.Machine

/-- The bytes of memory whose canonical address a predicate selects are lost, with their poison. -/
def State.dropMem (s : State) (p : Nat → Bool) : State :=
  { s with
    mem := s.mem.filter fun c => !p c.1
    sramPoison := s.sramPoison.filter fun u => !p (u.1 * 64)
    parity := { s.parity with units := s.parity.units.filter fun u => !p (u * 64) }
    chk := s.chk.filter fun u => !p (u.1 * 64) }
/-- The registers whose address a predicate selects return to their reset values. -/
def State.dropRegs (s : State) (p : Nat → Bool) : State :=
  { s with regs := s.regs.filter fun r => !p r.1 }
/-- An address lies in [a, a + n). -/
def within (a n x : Nat) : Bool := decide (a ≤ x ∧ x < a + n)
/-- An address of a core's address slot (R235). -/
def isCoreMem (x : Nat) : Bool := within 0x020100000000 0x20000000 x
/-- An address of an engine buffer's debug view (R235). -/
def isEngine (x : Nat) : Bool := isCoreMem x && decide (0x800000 ≤ (x - 0x020100000000) % 0x1000000)
/-- An address of the Orangery. -/
def isOrangery (x : Nat) : Bool := within orgBase 0x10000000 x
/-- A register of a core that I2 loses (R436): scalar registers and their poison, the status and the
parameters of the MXEs. -/
def lostCoreReg (x : Nat) : Bool :=
  within 0x020210000000 0x2000000 x &&
    (let o := (x - 0x020210000000) % 0x100000
     within 0x600 0x400 o || (within 0x400 0x100 o && o % 0x40 == 0x20) ||
       (within 0x10000 0x10000 o && (o % 0x4000 == 0x8 || decide (0x1000 ≤ o % 0x4000 ∧ o % 0x4000 ≤ 0x2000))))
/-- The cores lose what a power gate does not retain: engine buffers, vector and scalar registers, MXE
weights and tiles; with `cm` their CM too. -/
def coresLost (cm : Bool) (s : State) : State :=
  let s := s.dropMem fun x => if cm then isCoreMem x else isEngine x
  let s := s.dropRegs lostCoreReg
  { s with cores := s.cores.map fun c => (c.1, { c.2 with
      mxes := [], vregs := [], vpoison := [], vpend := [], fifeHold := none, fifeQ := [], fifeQP := [],
      shadow := [] }) }
/-- Every MXE is at activity level 0 (R436). -/
def levelsZero (s : State) : State :=
  { s with regs := s.regs.map fun r =>
      if within 0x020210000000 0x2000000 r.1 &&
          (let o := (r.1 - 0x020210000000) % 0x100000
           within 0x10000 0x10000 o && o % 0x4000 == 0x8)
      then (r.1, BitVec.ofNat 64 (F.mxeStatusLevel.put r.2.toNat 0)) else r }
/-- The directory caches are flushed and lost (R163, R436). -/
def cachesLost (s : State) : State :=
  let s := (List.range 8).foldl (fun s k => dirFlush k s) s
  { s with ghs := s.ghs.map fun g => (g.1, { g.2 with cache := [], inval := none }) }
/-- Zero-fill of every stack, then directory and heap as at boot (R164, R464): the entry of handle 0
and its tile are written again where they were. -/
def restack (s : State) : State :=
  let e := s.rd (s.dirAddr 0) 32
  let da := canon (bitsOf (fieldAt e 0 8) 39 0 * 64)
  let t := s.rd da 64
  let s := s.dropMem isStack
  let s := (List.range 8).foldl (fun s k => s.modGh k fun g =>
    { g with cache := [], inval := none, heap := [], migs := [], formatted := true }) s
  if isStack da then (s.wr da t).wr (s.dirAddr 0) e else s.wr (s.dirAddr 0) e

/-- A register of the repair record (GH_REPAIR_STAT among them), of HIF_ADVICE, or (kept by Virhan while the stacks
keep their contents) of the directory and heap bounds. -/
def keptReg (st : Bool) (x : Nat) : Bool :=
  within (regAddr (.coreMap 0)) 0x100 x || x == regAddr .siteStat || x == regAddr .hifAdvice ||
    ((List.range 32).any fun n => (List.range 4).any fun m => x == regAddr (.mxeBypass n m)) ||
    ((List.range 8).any fun k => x == regAddr (.ghRepairStat k)) ||
    (st && (List.range 8).any fun k => x == regAddr (.ghDirBase k) || x == regAddr (.ghHeapBase k) ||
      x == regAddr (.ghHeapLim k))
/-- A register whose value I4 keeps (R437): the HIF, CHIP, BLW and CLK blocks, the records in flash, and what Virhan
restores at the wake with the stack and link training: the ports' blocks, the error ring, GH_STATUS, the directories' bounds and
enables, the Bandstand tables (assumption 190, DEDUCED). -/
def standbyReg (x : Nat) : Bool :=
  within 0x020200000000 0x400000 x || keptReg true x || within 0x020230000000 0x2000000 x || within 0x020250000000 0x100000 x ||
    ((List.range 8).any fun k => x == regAddr (.ghStatus k) || x == regAddr (.ghDirCtl k) ||
      within (0x020220000000 + k * 0x1000000 + 0x900000) 0x10000 x)
/-- STAGE and STATE change: vector 194, and progress channel 0. -/
def setStage (stage st : Nat) (s : State) : State :=
  ((s.setFld .hifBoot F.hifBootStage stage).setFld .hifBoot F.hifBootState st).msix 194

/-- Root ticks of a wake from an idle state (R436, R437). -/
def wakeTicks (st : Nat) : Nat :=
  match st with
  | 0 => 0
  | 1 => 200 * fabTicks
  | 2 => 20 * usTicks
  | 3 => 2000 * usTicks
  | _ => 52000 * usTicks
/-- The device returns to I0 (R440): the wake is counted, vector 197 tells of the change (R458), and
a new dwell begins. A wake from I4 trains and clears the stacks as a cold boot does, and reports its steps as
stages 4 to 7 (R437). -/
def wake (s : State) : State :=
  let st := s.fld .hifIdle F.hifIdleState
  let s := { s with power := { s.power with idleSince := s.now } }
  if st = 0 then s
  else
    let s := s.doIf (st = 4) fun s =>
      setStage 8 1 ([4, 5, 6, 7].foldl (fun s i => setStage i 0 s) ((restack s).setFld .hifBoot F.hifBootCold 1))
    let s := (s.setFld .hifIdle F.hifIdleState 0).bump .hifIdle F.hifIdleWakes 1
    let s := (s.advance (s.now + wakeTicks st)).msix 197
    { s with power := { s.power with idleSince := s.now } }

end Sys2Proof.Machine
end

