-- ==== Sys2Proof/Machine/StreamQ.lean ====
section
/-! DEFINITION. How the transfers of a stream queue end (spec/09, R275, R277, R278): the queue's
bookkeeping, which the stream engine and the transport share. -/

namespace Sys2Proof.Machine

/-- The record of a stream queue. -/
def State.strq (s : State) (n q : Nat) : StrQ := tabGet {} (s.core n).strq q
/-- Change the record of a stream queue. -/
def State.modStrq (s : State) (n q : Nat) (f : StrQ → StrQ) : State :=
  s.modCore n fun c => { c with strq := tabSet c.strq q (f (tabGet {} c.strq q)) }

/-! State codes of a stream queue (R265). -/
def strIdle : Nat := 0
def strRunning : Nat := 1
def strMark : Nat := 2
def strDraining : Nat := 3
def strStopped : Nat := 4
def strFaulted : Nat := 5
/-- STR_Q_STAT.STATE. -/
def State.strState (s : State) (n q : Nat) : Nat := s.fld (.strQStat n q) F.strQStatState
/-- Set STR_Q_STAT.STATE. -/
def State.setStr (s : State) (n q st : Nat) : State := s.setFld (.strQStat n q) F.strQStatState st
/-- True while a queue executes or drains. -/
def State.strLive (s : State) (n q : Nat) : Bool :=
  s.strState n q == strRunning || s.strState n q == strMark || s.strState n q == strDraining
/-- STR_Q_STAT.INFLIGHT follows the transfers. -/
def strCount (n q : Nat) (s : State) : State :=
  s.setFld (.strQStat n q) F.strQStatInflight (s.strq n q).inflight.length
/-- The completion event of a queue (R266, R275, R278). -/
def strSignal (n q : Nat) (g : Sig) (s : State) : State :=
  s.signal n (s.fld (.strQCtl n q) F.strQCtlEvent) g
/-- The queue enters FAULTED once its other transfers have completed (R278): it tells the code, by its
event also. -/
def strFaultEnd (n q : Nat) (s : State) : State :=
  let c := (s.strq n q).fault
  if c ≠ 0 ∧ (s.strq n q).inflight = [] ∧ s.strLive n q then
    let s := (s.setStr n q strFaulted).setFld (.strQStat n q) F.strQStatCode c
    strSignal n q { code := c } s
  else s
/-- A stopped queue enters STOPPED once its transfers have completed (R266). -/
def strStopEnd (n q : Nat) (s : State) : State :=
  let x := s.strq n q
  if x.stopping ∧ x.fault = 0 ∧ x.inflight = [] ∧ s.strLive n q then
    strSignal n q { aborted := true, poison := x.poisoned } (s.setStr n q strStopped)
  else s
/-- A transfer has completed (R275), with the number of poisoned units that it delivered (R277). -/
def xferDone (r : XferId) (poisoned : Nat) (s : State) : State :=
  if (s.strq r.n r.q).inflight.any (fun t => t.id == r.id) then
    let s := s.modStrq r.n r.q fun x =>
      { x with inflight := x.inflight.filter (fun t => t.id != r.id), poisoned := x.poisoned || poisoned != 0 }
    let s := (s.bump (.strQCnt r.n r.q) F.strQCntTransfers 1).bump (.strQCnt r.n r.q) F.strQCntPoisoned poisoned
    strFaultEnd r.n r.q (strCount r.n r.q s)
  else s
/-- The queue stops executing with a fault (R278); the error record names the core's stream engine. -/
def strFail (n q code addr peer : Nat) (d : List (Nat × Nat × Nat)) (s : State) : State :=
  let s := s.raise { src := srcOf 1 n 7, code := code, addr := addr, peer := peer, detail := d }
  let s := s.modStrq n q fun x => { x with fault := if x.fault = 0 then code else x.fault, todo := [] }
  strFaultEnd n q s
/-- A transfer that ends without completing: a SIGNAL behind it never signals (R275, R278). -/
def xferLost (n q id : Nat) (s : State) : State :=
  strCount n q (s.modStrq n q fun x => { x with
    inflight := x.inflight.filter (fun t => t.id != id),
    signals := x.signals.filter (fun g => decide (g.bound ≤ id)) })
/-- A transfer is refused (R278). -/
def xferFail (r : XferId) (code peer : Nat) (s : State) : State :=
  match (s.strq r.n r.q).inflight.find? (fun t => t.id == r.id) with
  | none => s
  | some t =>
    strFail r.n r.q code t.dst peer [] (xferLost r.n r.q r.id s)

end Sys2Proof.Machine
end

