-- ==== Sys2Proof/Machine/Transport.lean ====
section
/-! DEFINITION. The window transport (spec/12): ports and routes, message headers, acknowledgement
and resending, unreachable peers (R370-R384). -/

namespace Sys2Proof.Machine

/-! ### Identity and peers (R368, R369) -/

/-- This device's DEVID. -/
def State.devid (s : State) : Nat := s.fld .chipNode F.chipNodeDevid
/-- Change the transport's state. -/
def State.modNet (s : State) (f : Net → Net) : State := { s with net := f s.net }
/-- What the transport keeps for a device. -/
def State.peer (s : State) (d : Nat) : Peer := tabGet {} s.net.peers d
/-- Change what the transport keeps for a device. -/
def State.modPeer (s : State) (d : Nat) (f : Peer → Peer) : State :=
  s.modNet fun n => { n with peers := tabMod {} n.peers d f }
/-- A link port beside its registers. -/
def State.lport (s : State) (p : Nat) : LinkPort := tabGet {} s.net.ports p
/-- Change a link port. -/
def State.modLport (s : State) (p : Nat) (f : LinkPort → LinkPort) : State :=
  s.modNet fun n => { n with ports := tabMod {} n.ports p f }
/-- PEER of an error record that names a device (R483). -/
def peerField (dev : Nat) : Nat := dev + 0x8000

/-! ### Ports (R372, R375, R380) -/

/-- The number of a port in records and messages: 0-13 gang, 16-19 scale-out (R488). -/
def PortId.num : PortId → Nat
  | .gp p => p.val
  | .xp p => 16 + p.val
/-- The number of a port. -/
def portNum (p : PortId) : Nat := PortId.num p
/-! States of a gang port (R375); a scale-out port has no IDENTIFY or MISMATCH (R380). -/
def lpDisabled : Nat := 0
def lpTraining : Nat := 1
def lpIdentify : Nat := 2
def lpActive : Nat := 3
def lpMismatch : Nat := 4
def lpDown : Nat := 5
/-- State of a port, in the codes of GP_STATUS. -/
def State.lpState (s : State) (p : Nat) : Nat :=
  if p < 16 then s.fld (.gpStatus p) F.gpStatusState
  else match s.fld (.xpStatus (p - 16)) F.xpStatusState with
    | 2 => lpActive
    | 3 => lpDown
    | k => k
/-- Put a port into a state. -/
def State.setLp (s : State) (p st : Nat) : State :=
  if p < 16 then s.setFld (.gpStatus p) F.gpStatusState st
  else s.setFld (.xpStatus (p - 16)) F.xpStatusState (if st = lpActive then 2 else if st = lpDown then 3 else st)
/-- All the ports. -/
def allPorts : List Nat := List.range 14 ++ [16, 17, 18, 19]
/-- The ACTIVE gang ports to a device. -/
def State.gpTo (s : State) (d : Nat) : List Nat :=
  (List.range 14).filter fun p => s.lpState p == lpActive && s.fld (.gpStatus p) F.gpStatusPeer == d
/-- The ACTIVE scale-out ports, in ascending order. -/
def State.xpUp (s : State) : List Nat := [16, 17, 18, 19].filter fun p => s.lpState p == lpActive
/-- SOURCE of a port's records (R484). -/
def portSrc (p : Nat) : Nat := if p < 16 then srcOf 4 p 0 else srcOf 5 (p - 16) 0

/-! ### Sequence numbers (R381) -/

/-- SEQ numbers wrap modulo 2^32. -/
def seqMod : Nat := 2 ^ 32
/-- a precedes b. -/
def seqBefore (a b : Nat) : Bool :=
  let d := (b + seqMod - a % seqMod) % seqMod
  decide (0 < d ∧ d < 2 ^ 31)
/-- The ACK field (R381, R383): every message with a lower SEQ has been applied. -/
def Peer.ack (p : Peer) : Nat := p.unvis.foldl (fun a q => if seqBefore q a then q else a) p.rxNext
/-- True for a message that a SEQ numbers. -/
def Msg.sequenced : Msg → Bool
  | .ack => false
  | .heartbeat .. => false
  | .peer .. => false
  | .arp .. => false
  | _ => true

/-! ### Routes (R374, R376, R379) -/

/-- The peer table has an entry for the device (R379). -/
def State.peerValid (s : State) (d : Nat) : Bool :=
  s.bit .csrtPeertab F.csrtPeertabValid &&
    bitAt (s.rdN (s.fld .csrtPeertab F.csrtPeertabAddr * 64 + d * 32 + 22) 1) 0
/-- Gang members with an ACTIVE port, lowest rank first: those that can relay. -/
def State.relays (s : State) (d : Nat) : List Nat :=
  let ms := (s.net.peers.filter fun p => p.2.inGang && p.1 != d && (s.gpTo p.1) != []).map Prod.fst
  (List.range 8).flatMap fun r => ms.filter fun m => (s.peer m).rank == r
/-- The first relay that has an ACTIVE port to the device, which only it can tell: a free value for
each candidate. -/
def pickRelay : List Nat → State → Option Nat × State
  | [], s => (none, s)
  | m :: ms, s =>
    let (v, s) := s.free 1
    if v = 1 then (some m, s) else pickRelay ms s
/-- Where a message leaves. -/
structure Route where
  port : Nat
  relay : Option Nat
  deriving DecidableEq, Repr
/-- Port and relay of a message to another device. -/
def route (d : Nat) (s : State) : Option Route × State :=
  if s.bit .chipNode F.chipNodeIdValid = false then (none, s)
  else if (s.peer d).inGang then
    match s.gpTo d with
    | [] =>
      match pickRelay (s.relays d) s with
      | (none, s) => (none, s)
      | (some m, s) => ((s.gpTo m).head?.map fun p => ⟨p, some m⟩, s)
    | ps => (ps[(s.peer d).rot % ps.length]?.map fun p => ⟨p, none⟩,
             s.modPeer d fun p => { p with rot := p.rot + 1 })
  else
    let xs := s.xpUp
    (xs[d % xs.length]?.map fun p => ⟨p, none⟩, s)

/-! ### Sending (R374, R378, R381) -/

/-- The UDP header of a datagram to a device (R376). -/
def udpTo (p d : Nat) (s : State) : Option Udp :=
  if p < 16 then none
  else some ⟨s.fld (.xpCtl (p - 16)) F.xpCtlUdpPort, 0xC000 + (s.devid ^^^ d), s.fld (.xpCtl (p - 16)) F.xpCtlDscp,
    s.bit (.xpCtl (p - 16)) F.xpCtlIpv6⟩
/-- Put a message on the wire; the header acknowledges and echoes what is due (R377, R383). -/
def emit (d seq : Nat) (notify : Bool) (m : Msg) (s : State) : State :=
  match route d s with
  | (none, s) => s
  | (some r, s) =>
    let p := s.peer d
    let s := s.modNet fun n => { n with out := n.out ++ [⟨r.port, r.relay, d, seq, p.ack, p.eceDue, notify, m, none, udpTo r.port d s⟩] }
    s.modPeer d fun p => { p with ackSince := none, eceDue := false }
/-- A peer is unreachable (R374, R378): LINK_DOWN, and every transfer to it fails. -/
def failPeer (d cause : Nat) (s : State) : State :=
  let s := s.raise { src := srcOf 0 0 0, code := ecLinkDown, peer := peerField d,
                     detail := [(32, 1, 0xFF), (33, 1, cause)] }
  let refs := ((s.peer d).unacked.filterMap TxMsg.ref ++
    (s.net.remTx.filter fun t => t.dev == d).map RemTx.ref).dedup
  let s := s.modPeer d fun p => { p with unacked := [] }
  let s := s.modNet fun n => { n with
    remTx := n.remTx.filter (fun t => t.dev != d), asks := n.asks.filter (fun a => a.dev != d),
    aborts := n.aborts ++ [⟨none, d, ecLinkDown⟩] }
  refs.foldl (fun s r => xferFail r ecLinkDown (peerField d) s) s
/-- Send a message to a device; one to the device itself goes to its own window logic (R385). A
device outside the gang without a valid peer-table entry fails the transfer (R379). -/
def State.send (s : State) (d : Nat) (m : Msg) (notify : Bool) (ref : Option XferId) : State :=
  let p := s.peer d
  let note := fun (s : State) => if m.sequenced then
    s.modPeer d fun q => { q with txSeq := (q.txSeq + 1) % seqMod,
                                  unacked := q.unacked ++ [⟨q.txSeq, m, notify, s.now, 0, ref⟩] } else s
  let seq := if m.sequenced then p.txSeq else 0
  if d = s.devid then
    (note s).modNet fun n => { n with self := n.self ++ [⟨seq, notify, false, m⟩] }
  else if p.inGang = false ∧ s.peerValid d = false then
    match ref with
    | some r =>
      let s := s.modNet fun n => { n with remTx := n.remTx.filter fun t => t.ref != r }
      xferFail r ecLinkDown (peerField d) s
    | none => s
  else emit d seq notify m (note s)

/-! ### Acknowledgement (R383) -/

/-- One DATA of a remote transfer is acknowledged; the last one completes the transfer. -/
def dataAcked (r : XferId) (s : State) : State :=
  match s.net.remTx.find? fun t => t.ref == r with
  | none => s
  | some t =>
    if t.left ≤ 1 ∧ t.parts = [] then
      xferDone r t.poisoned (s.modNet fun n => { n with remTx := n.remTx.filter fun t => t.ref != r })
    else s.modNet fun n => { n with
      remTx := n.remTx.map fun u => if u.ref = r then { u with left := u.left - 1 } else u }
/-- The ACK field of a message from a device. -/
def ackArrive (d ack : Nat) (s : State) : State :=
  let done := (s.peer d).unacked.filter fun t => seqBefore t.seq ack
  let s := s.modPeer d fun p => { p with unacked := p.unacked.filter fun t => !(seqBefore t.seq ack) }
  done.foldl (fun s t => match t.ref with
    | some r => dataAcked r s
    | none => s) s
/-- ECE from a peer: R, a share of the line rate, becomes max(R / 2, 1/64), at most once per 10 µs (R377). -/
def eceArrive (d : Nat) (s : State) : State :=
  s.modPeer d fun p =>
    let p := { p with lastEce := s.now }
    if p.lastCut.any (fun t => decide (s.now < t + 10 * usTicks)) then p
    else { p with rate := max (p.rate / 2) (1 / 64), lastCut := some s.now }

/-! ### Ports going down (R373, R374) -/

/-- Resend what a peer has not acknowledged on the ports that remain, or give the peer up. -/
def reroute (d : Nat) (s : State) : State :=
  match route d s with
  | (none, s) => failPeer d 1 s
  | (some _, s) => (s.peer d).unacked.foldl (fun s t => emit d t.seq t.notify t.msg s) s
/-- A port enters DOWN (R372, R373). -/
def portDown (p : Nat) (s : State) : State :=
  let was := s.lpState p
  let peer := s.fld (.gpStatus p) F.gpStatusPeer
  let s := (s.setLp p lpDown).modLport p fun l => { l with downAt := s.now }
  if p < 16 then
    let s := (s.bump (.gpCnt p) F.gpCntDowns 1).setFld (.gpStatus p) F.gpStatusLanes 0
    if was = lpActive then reroute peer s else s
  else s.setFld (.xpStatus (p - 16)) F.xpStatusLanes 0
/-- The port starts TRAINING (R372, R375). -/
def portTrain (p : Nat) (s : State) : State := s.setLp p lpTraining

end Sys2Proof.Machine
end

