-- ==== Sys2Proof/Machine/Windows.lean ====
section
/-! DEFINITION. Receive windows (spec/08, R260-R263; spec/12, R385-R395): their registers, credits,
arriving DATA, accumulate windows and completion actions. -/

namespace Sys2Proof.Machine

/-- A receive window beside its registers. -/
def State.win (s : State) (w : Nat) : Win := tabGet {} s.net.wins w
/-- Change a receive window. -/
def State.modWin (s : State) (w : Nat) (f : Win → Win) : State :=
  s.modNet fun n => { n with wins := tabMod {} n.wins w f }
/-- SOURCE of the windows' records (R484). -/
def winSrc : Nat := srcOf 10 0 0
/-- State codes of WIN_STAT. -/
def winClosed : Nat := 0
def winOpen : Nat := 1
def winClosing : Nat := 2
/-- WIN_STAT.STATE. -/
def State.winState (s : State) (w : Nat) : Nat := s.fld (.winStat w) F.winStatState
/-- Bytes that a window exports (R386). -/
def State.winLen (s : State) (w : Nat) : Nat := s.fld (.winLocal w) F.winLocalPages * 4096
/-- First offset that a window exports (R386). -/
def State.winX (s : State) (w : Nat) : Nat := s.fld (.winCtl w) F.winCtlXbase * 4096
/-- Device address of a window's first byte (R260). -/
def State.winBase (s : State) (w : Nat) : Nat := s.fld (.winLocal w) F.winLocalBase * 4096
/-- WIN_STAT follows the window's credits and requests; the return of the last credit of a CLOSING
window closes it (R387). -/
def winSync (w : Nat) (s : State) : State :=
  let x := s.win w
  let s := s.setFld (.winStat w) F.winStatOutst x.credits.length
  let s := s.setFld (.winStat w) F.winStatQueued x.reqs.length
  if s.winState w = winClosing ∧ x.credits = [] then s.setFld (.winStat w) F.winStatState winClosed else s
/-- The window that an offset selects (R386): the OPEN or CLOSING window that exports it. -/
def winSelect (off : Nat) (s : State) : Option Nat :=
  (List.range 1024).find? fun w =>
    s.winState w != winClosed && decide (s.winX w ≤ off ∧ off < s.winX w + s.winLen w)

/-! ### Credits (R388, R389) -/

/-- A TOKEN: window, EPOCH at the grant, INDEX (R388). -/
def tokenOf (w epoch index : Nat) : Nat := w + epoch * 1024 + index % 65536 * 65536
/-- The first run of k INDEX values in grant order that no holder still has. -/
def freeRun (cs : List Credit) (k : Nat) : Nat → Nat → Nat
  | 0, i => i % 65536
  | fuel + 1, i =>
    if cs.any (fun c => decide ((c.index + 65536 - i % 65536) % 65536 < k)) then freeRun cs k fuel (i + 1)
    else i % 65536
/-- Free credits of a window's pool; a CREDITS of 0 acts as 1 (R395). -/
def State.freeCredits (s : State) (w : Nat) : Nat :=
  max 1 (s.fld (.winCtl w) F.winCtlCredits) - (s.win w).credits.length
/-- Grant up to `count` consecutive credits. -/
def grant (w dev count reqid : Nat) (s : State) : State :=
  let k := min count (s.freeCredits w)
  let x := s.win w
  let i := freeRun x.credits k 65536 x.next
  let s := s.modWin w fun x => { x with
    credits := x.credits ++ (List.range k).map fun j => ⟨(i + j) % 65536, dev, s.now, false⟩
    next := (i + k) % 65536 }
  (winSync w s).send dev (.credGrant w k reqid (tokenOf w (s.fld (.winStat w) F.winStatEpoch) i)) false none
/-- Waiting requests are granted in arrival order as credits return. -/
def winServe (w : Nat) : Nat → State → State
  | 0, s => s
  | k + 1, s =>
    match (s.win w).reqs with
    | [] => s
    | r :: rs =>
      if s.winState w = winOpen ∧ s.freeCredits w ≠ 0 then
        winServe w k (grant w r.dev r.count r.reqid (s.modWin w fun x => { x with reqs := rs }))
      else s
/-- A credit returns (R388). -/
def creditReturn (w index : Nat) (s : State) : State :=
  winSync w (winServe w 64 (s.modWin w fun x => { x with credits := x.credits.filter fun c => c.index != index }))
/-- A refusal: WIN_LOG for a DATA, the counter, the error record and the REFUSE message. -/
def refuse (dev id code : Nat) (isReq : Bool) (w tok : Nat) (s : State) : State :=
  let s := s.doIf (!isReq) fun s =>
    ((s.setFld .winLog F.winLogSrc dev).setFld .winLog F.winLogWin w).setFld .winLog F.winLogCode code
  let s := s.bump .winCnt F.winCntRefused 1
  let s := s.raise { src := winSrc, code := code, peer := peerField dev, detail := [(32, 2, w), (36, 4, tok)] }
  s.send dev (.refuse id code isReq) false none
/-- Every waiting request is refused with WINDOW_CLOSED (R387). -/
def refuseQueued (w : Nat) (s : State) : State :=
  let rs := (s.win w).reqs
  let s := s.modWin w fun x => { x with reqs := [] }
  rs.foldl (fun s r => refuse r.dev r.reqid ecWindowClosed true w r.reqid s) s
/-- CRED_REQ at the receiver (R389). -/
def credRequest (dev w count reqid : Nat) (s : State) : State :=
  if count = 0 ∨ 256 < count then s.bump .winCnt F.winCntRefused 1
  else if s.winState w ≠ winOpen ∨ bitAt (s.word (.winPerm w)) (dev / 64) = false then
    refuse dev reqid ecWindowClosed true w reqid s
  else if s.freeCredits w ≠ 0 then grant w dev count reqid s
  else if (s.win w).reqs.length < 64 then
    winSync w (s.modWin w fun x => { x with reqs := x.reqs ++ [⟨dev, count, reqid⟩] })
  else refuse dev reqid ecNoCredit true w reqid s
/-- CRED_RETURN at the receiver (R388): unused credits of the sender come back. -/
def credReturned (dev token count : Nat) (s : State) : State :=
  let w := bitsOf token 9 0
  if bitsOf token 15 10 ≠ s.fld (.winStat w) F.winStatEpoch then s
  else (List.range count).foldl (fun s j =>
    let i := (bitsOf token 31 16 + j) % 65536
    if (s.win w).credits.any (fun c => c.index == i && c.dev == dev && !c.used) then creditReturn w i s else s) s
/-- An unused credit expires 100 µs after its grant (R388). -/
def creditExpire (w i : Nat) (s : State) : State :=
  match (s.win w).credits.find? fun c => c.index == i && !c.used with
  | none => s
  | some c => creditReturn w i (s.advance (c.granted + 100 * usTicks))

/-! ### Completion actions (R384, R393) -/

/-- A command event gains k (R349). -/
def cevAdd (e k : Nat) (s : State) : State :=
  { s with cevents := tabMod 0 s.cevents e (· + BitVec.ofNat 64 k) }
/-- The action of a DATA with NOTIFY. -/
def notifyAct (w : Nat) (s : State) : State :=
  let t := s.fld (.winCmpl w) F.winCmplTarget
  match s.fld (.winCmpl w) F.winCmplAction with
  | 2 => s.tsArrive 45 (.add t 1)
  | 3 => cevAdd t 1 s
  | _ => s
/-- NOTIFY actions whose earlier DATA are all visible or refused are performed, in SEQ order. -/
def flushNotifs (dev : Nat) (s : State) : State :=
  let p := s.peer dev
  let ready := fun (a : NotifyAct) => !(p.unvis.any fun q => seqBefore q a.seq)
  let s := s.modPeer dev fun p => { p with notifs := p.notifs.filter fun a => !(ready a) }
  (p.notifs.filter ready).foldl (fun s a => notifyAct a.win s) s
/-- An accepted DATA is visible (R383, R388, R393): its credit returns, its actions are performed, and
it may be acknowledged. -/
def dataVisible (w dev seq index units : Nat) (notify : Bool) (s : State) : State :=
  let s := s.modPeer dev fun p => { p with
    unvis := p.unvis.filter (· != seq), ackSince := some (p.ackSince.getD s.now) }
  let s := s.doIf (s.fld (.winCmpl w) F.winCmplAction == 1)
    fun s => s.tsArrive 45 (.add (s.fld (.winCmpl w) F.winCmplTarget) units)
  let s := s.doIf notify fun s => s.modPeer dev fun p => { p with notifs := p.notifs ++ [⟨seq, w⟩] }
  flushNotifs dev (creditReturn w index s)

/-! ### Landing (R262, R394) -/

/-- Units land at a local device address (R262). -/
def landUnits (da : Nat) (us : List UnitP) (s : State) : State :=
  if da % 64 = 0 then
    s.putUnits da us
  else
    us.zipIdx.foldl (fun s u => rmwPieces true (da + 64 * u.2) u.1.bs [u.1.poison, u.1.poison] s) s
/-- The units of a window write arrive at core memory one after another, each as a background access of requester
code 15 (R240, R246, R262); a shadow rule that one breaks ends the write. -/
def landInCm (n o : Nat) (m : WinMsg) (us : List UnitP) (s : State) : State :=
  (us.zipIdx.foldl (fun (r : State × Bool) u =>
    if r.2 then r
    else bgArrive n ⟨reqWindow, o + 64 * u.2, u.1.bs, List.replicate (ceilDiv (o % 64 + 64) 64) u.1.poison, true, 64,
      r.1.cyc n, some m⟩ r.1) (s, false)).1
/-- A write of a message still waits for its sub-banks. -/
def Core.awaits (c : Core) (m : WinMsg) : Bool := c.bg.any fun b => b.msg == some m
/-- A run of an accumulate window's landing range within one stack (R394). -/
structure AccRun where
  k : Nat
  buf : AccBuf
  deriving DecidableEq, Repr
/-- The runs of a landing range: 256-byte granules in the interleaved view, the whole in a local
view. -/
def accRuns (func et dev da : Nat) (us : List UnitP) : List AccRun :=
  if da < 0x010000000000 then
    us.zipIdx.map fun u => ⟨ivStack (da + 64 * u.2), ⟨func, et, canon (da + 64 * u.2), [u.1], dev⟩⟩
  else [⟨(da - 0x010000000000) / 0x2000000000, ⟨func, et, da, us, dev⟩⟩]
/-- A run joins the next one when that continues it within one granule. -/
def joinRun (a : AccRun) : List AccRun → List AccRun
  | b :: r =>
    if a.k = b.k ∧ a.buf.dst + 64 * a.buf.units.length = b.buf.dst ∧ b.buf.dst % 256 ≠ 0
    then ⟨a.k, { a.buf with units := a.buf.units ++ b.buf.units }⟩ :: r
    else a :: b :: r
  | [] => [a]
/-- The units of one granule make one run. -/
def joinRuns (rs : List AccRun) : List AccRun := rs.foldr joinRun []
/-- Word 0 of a pushed ACCUM command: its opcode, type and function (R207). -/
def accWord (b : AccBuf) : Word := BitVec.ofNat 64 (0x05 + b.et * 256 + b.func * 4096)
/-- The ACCUM command of a run joins its queue (R394): queue 10 from a gang port, 11 from a scale-out
port. -/
def pushRun (q : Nat) (r : AccRun) (s : State) : GhRef × State :=
  let g := s.gh r.k
  let c : GhCmd := { ws := accWord r.buf :: List.replicate 7 0, seq := g.seq, arr := s.now, buf := some r.buf }
  (⟨r.k, q, g.seq⟩, (s.modGh r.k fun g => { g with seq := g.seq + 1 }).setGhQ r.k q (g.q q ++ [c]))
/-- The ACCUM commands of a DATA join their queues. -/
def pushRuns (q : Nat) : List AccRun → State → List GhRef × State
  | [], s => ([], s)
  | r :: rs, s =>
    let (x, s) := pushRun q r s
    let (xs, s) := pushRuns q rs s
    (x :: xs, s)
/-- A DATA message arrives (R390, R392): checked in order, then landed or refused; one that would reach a directory
region fails with TILE_DIR (R147). -/
def dataArrive (xp : Bool) (dev seq : Nat) (notify : Bool) (tok off : Nat) (us : List UnitP) (s : State) :
    State :=
  let s := s.modPeer dev fun p => { p with ackSince := some (p.ackSince.getD s.now) }
  match winSelect off s with
  | none => refuse dev seq ecWindowClosed false 0x3FF tok s
  | some w =>
    let idx := bitsOf tok 31 16
    let held := (s.win w).credits.any fun c => c.index == idx && c.dev == dev && !c.used
    if bitsOf tok 9 0 ≠ w ∨ bitsOf tok 15 10 ≠ s.fld (.winStat w) F.winStatEpoch ∨ held = false then
      refuse dev seq ecNoCredit false w tok s
    else
      let f := off - s.winX w
      if s.winLen w < f + us.length * 64 then creditReturn w idx (refuse dev seq ecDescRange false w tok s)
      else if s.inDir (s.winBase w + f) (us.length * 64) then
        creditReturn w idx (refuse dev seq ecTileDir false w tok s)
      else
        let s := s.bump .winCnt F.winCntAccepted 1
        let da := s.winBase w + f
        if s.bit (.winCmpl w) F.winCmplAccum then
          let rs := joinRuns (accRuns (s.fld (.winCmpl w) F.winCmplAop) (s.fld (.winCmpl w) F.winCmplAetype) dev da us)
          let (refs, s) := pushRuns (if xp then 11 else 10) rs s
          let s := s.modWin w fun x => { x with
            credits := x.credits.map fun c => if c.index = idx then { c with used := true } else c
            landings := x.landings ++ [⟨dev, seq, idx, us.length, notify, refs, none⟩] }
          s.modPeer dev fun p => { p with unvis := p.unvis ++ [seq] }
        else match placeOf da with
        | .cm n o =>
          let s := landInCm n o ⟨w, dev, seq⟩ us ((s.landCm n).syncCore n)
          if (s.core n).awaits ⟨w, dev, seq⟩ then
            let s := s.modWin w fun x => { x with
              credits := x.credits.map fun c => if c.index = idx then { c with used := true } else c
              landings := x.landings ++ [⟨dev, seq, idx, us.length, notify, [], some n⟩] }
            s.modPeer dev fun p => { p with unvis := p.unvis ++ [seq] }
          else dataVisible w dev seq idx us.length notify s
        | _ => dataVisible w dev seq idx us.length notify (landUnits da us s)
/-- A command is still in its queue. -/
def ghHeld (s : State) (r : GhRef) : Bool := ((s.gh r.k).q r.q).any fun c => c.seq == r.seq
/-- ACCUM_WINDOW_VISIBLE (R394): the oldest DATA whose ACCUM commands have all completed is visible. -/
def accumVisible (w : Nat) (s : State) : State :=
  match (s.win w).landings.find? fun l => l.core.isNone && !(l.cmds.any (ghHeld s)) with
  | none => s
  | some l =>
    dataVisible w l.dev l.seq l.index l.units l.notify
      (s.modWin w fun x => { x with landings := x.landings.erase l })
/-- An accepted DATA whose writes into a core's memory have all been performed. -/
def landedOn (s : State) (n w : Nat) (l : Landing) : Bool := l.core == some n && !(s.core n).awaits ⟨w, l.dev, l.seq⟩


/-! ### Window registers (R260, R261, R387, R395) -/

/-- The host may not write the registers of windows 0-63 (R387). -/
def virhanWin (r : Requester) (w : Nat) : Bool := r == .host && decide (w < 64)
/-- True when 4 KiB-aligned space touches a directory region or a tile heap (R261). -/
def State.heldSpace (s : State) (da len : Nat) : Bool :=
  (List.range 8).any fun k =>
    let (h0, h1) := s.heapRange k
    let hit := fun (o n : Nat) => s.inDirLocal k o n || decide (n ≠ 0 ∧ o < h1 ∧ h0 < o + n)
    if da < 0x010000000000 then hit (da / 2048 * 256) (len / 2048 * 256)
    else decide ((da - 0x010000000000) / 0x2000000000 = k) && hit ((da - 0x010000000000) % 0x2000000000) len
/-- A legal local range of a window (R261). -/
def winRangeOk (s : State) (da len : Nat) : Bool :=
  len == 0 || (regionEnd da != 0 && decide (da + len ≤ regionEnd da) &&
    !(decide (da < 0x020000000000) && s.heldSpace da len))
/-- A write of WIN_LOCAL (R260, R261). -/
def winLocalWrite (r : Requester) (w v : Nat) (s : State) : State :=
  let a := regAddr (.winLocal w)
  if virhanWin r w ∨ s.winState w ≠ winClosed then s.conflict winSrc a v
  else if winRangeOk s (F.winLocalBase.of v * 4096) (F.winLocalPages.of v * 4096) then s.plainWrite (.winLocal w) v
  else s.refuseWrite winSrc a v ecDescRange
/-- The exported ranges of two windows overlap. -/
def exportOverlap (s : State) (w u : Nat) : Bool :=
  u != w && s.winState u != winClosed &&
    decide (s.winX w < s.winX u + s.winLen u ∧ s.winX u < s.winX w + s.winLen w)
/-- The fault of an OPEN (R387, R394), or 0. -/
def winOpenFault (w : Nat) (s : State) : Nat :=
  let len := s.winLen w
  let da := s.winBase w
  if len = 0 ∨ 2 ^ 35 < s.winX w + len ∨ (List.range 1024).any (exportOverlap s w) then ecDescRange
  else if s.bit (.winCmpl w) F.winCmplAccum then
    let et := s.fld (.winCmpl w) F.winCmplAetype
    if 0x020000000000 ≤ da then ecDescRange
    else if (et != 4 && et != 5 && et != 6) || s.fld (.winCmpl w) F.winCmplAop == 3 then ecDescFormat
    else 0
  else 0
/-- WIN_CTL.OPEN (R387). -/
def winOpenOp (w v : Nat) (s : State) : State :=
  let a := regAddr (.winCtl w)
  match s.winState w with
  | 0 =>
    let f := winOpenFault w s
    if f ≠ 0 then s.refuseWrite winSrc a v f
    else
      let s := s.setFld (.winStat w) F.winStatEpoch (s.fld (.winStat w) F.winStatEpoch + 1)
      (s.modWin w fun x => { x with next := 0 }).setFld (.winStat w) F.winStatState winOpen
  | 2 => s.conflict winSrc a v
  | _ => s
/-- WIN_CTL.CLOSE (R387). -/
def winCloseOp (w : Nat) (s : State) : State :=
  if s.winState w = winOpen then
    winSync w (refuseQueued w (s.setFld (.winStat w) F.winStatState winClosing))
  else s
/-- WIN_CTL.FORCE (R387): every outstanding credit is revoked. -/
def winForceOp (w : Nat) (s : State) : State :=
  if s.winState w = winClosed then s
  else
    let s := refuseQueued w (s.setFld (.winStat w) F.winStatState winClosed)
    winSync w (s.modWin w fun x => { x with credits := [] })
/-- The guarded fields of a window register may be written: true with no fault (R387, R395). -/
def winCfgFault (w : Nat) (reg : Reg) (v : Nat) (s : State) : Nat :=
  let changes : Bool := match reg with
    | .winCtl _ => F.winCtlXbase.of v != s.fld reg F.winCtlXbase || F.winCtlCredits.of v != s.fld reg F.winCtlCredits
    | .winCmpl _ => true
    | _ => false
  if changes ∧ s.winState w ≠ winClosed then ecConfigConflict
  else match reg with
    | .winCtl _ => if 4096 < F.winCtlCredits.of v then ecDescRange else 0
    | _ => 0
/-- A write of WIN_CTL, WIN_PERM or WIN_CMPL: its fields, and then the operations of WIN_CTL. -/
def winRegWrite (r : Requester) (w : Nat) (reg : Reg) (v : Nat) (s : State) : State :=
  if virhanWin r w then s.conflict winSrc (regAddr reg) v
  else
    let f := winCfgFault w reg v s
    if f ≠ 0 then s.refuseWrite winSrc (regAddr reg) v f else s.plainWrite reg v
/-- A write of WIN_CTL (R387, R395): a guarded field that may not change leaves the operation bits in
force, as the fields and the operations are separate effects of the write. -/
def winCtlWrite (r : Requester) (w v : Nat) (s : State) : State :=
  if virhanWin r w then s.conflict winSrc (regAddr (.winCtl w)) v
  else
    let s := winRegWrite r w (.winCtl w) v s
    let s := s.doIf (F.winCtlOpen.of v == 1) (winOpenOp w v)
    let s := s.doIf (F.winCtlClose.of v == 1) (winCloseOp w)
    s.doIf (F.winCtlForce.of v == 1) (winForceOp w)

end Sys2Proof.Machine
end

