-- ==== Sys2Proof/Machine/Links.lean ====
section
/-! DEFINITION. Messages in and out (spec/12): arrival and order, the sender's credits, global
turnstiles, manager roles, time synchronisation, link ports, and the commands of links and windows. -/

namespace Sys2Proof.Machine

/-! ### The sender's credits (R391) -/

/-- The window that exports an offset of a device: its own by R386, another's as configured. -/
def remoteWin (d off : Nat) (s : State) : Nat :=
  if d = s.devid then (winSelect off s).getD 0x3FF else Config.remoteWindow d off % 1024
/-- A cached credit may still be used: its grant arrived less than 60 µs ago. -/
def TxCred.live (c : TxCred) (now : Nat) : Bool := decide (now < c.arr + 60 * usTicks)
/-- Send the payloads of a remote transfer that have credits; ask for credits for the rest. -/
def txStep (r : XferId) : Nat → State → State
  | 0, s => s
  | k + 1, s =>
    match s.net.remTx.find? fun t => t.ref == r with
    | none => s
    | some t =>
      match t.parts with
      | [] => s
      | p :: ps =>
        let w := remoteWin t.dev p.offset s
        match s.net.creds.find? fun c => c.dev == t.dev && c.win == w && c.live s.now with
        | some c =>
          let s := s.modNet fun n => { n with creds := n.creds.erase c }
          let s := s.modNet fun n => { n with remTx := n.remTx.map fun u =>
            if u.ref = r then { u with parts := ps, left := u.left + 1, since := s.now } else u }
          txStep r k (s.send t.dev (.data c.token p.offset p.units) p.notify (some r))
        | none =>
          if s.net.asks.any fun a => a.dev == t.dev && a.win == w then s
          else
            let i := s.net.reqid
            let s := s.modNet fun n => { n with reqid := (i + 1) % seqMod, asks := n.asks ++ [⟨t.dev, w, i⟩] }
            s.send t.dev (.credReq w 16 i) false none
/-- Every waiting transfer to a device goes on as its credits allow. -/
def txPump (d : Nat) (s : State) : State :=
  (s.net.remTx.filter fun t => t.dev == d).foldl (fun s t => txStep t.ref 64 s) s
/-- A remote transfer starts (R273): its payload cut to the largest DATA of its route (R380). -/
def txStart (r : XferId) (d off : Nat) (us : List UnitP) (notify : Bool) (s : State) : State :=
  let xp := d != s.devid && !(s.peer d).inGang
  let big := s.xpUp.all fun p => s.bit (.xpCtl (p - 16)) F.xpCtlMaxlen
  let k := if xp ∧ big = false then 16 else 64
  let cs := chunks k (us.length + 1) us
  let parts := cs.zipIdx.map fun c =>
    (⟨off + 64 * k * c.2, c.1, notify && c.2 + 1 == cs.length⟩ : RemPart)
  let s := s.modNet fun n => { n with
    remTx := n.remTx ++ [⟨r, d, parts, 0, (us.filter UnitP.poison).length, s.now⟩] }
  txStep r 64 s
/-- Return the unused credits of an evicted window (R391). -/
def evictWin (d w : Nat) (s : State) : State :=
  let cs := s.net.creds.filter fun c => c.dev == d && c.win == w
  let s := s.modNet fun n => { n with creds := n.creds.filter fun c => !(c.dev == d && c.win == w) }
  cs.foldl (fun s c => s.send d (.credReturn c.token 1) false none) s
/-- CRED_GRANT at the sender: the credits enter the 256-window cache; which window an insertion evicts
is open. -/
def grantArrive (d w count reqid token : Nat) (s : State) : State :=
  let wins := (s.net.creds.map fun c => (c.dev, c.win)).dedup
  let s := if (d, w) ∈ wins ∨ wins.length < 256 then s
    else
      let (v, s) := s.free 8
      match wins[v]? with
      | some e => evictWin e.1 e.2 s
      | none => s
  let s := s.modNet fun n => { n with
    asks := n.asks.filter fun a => !(a.dev == d && a.reqid == reqid)
    creds := n.creds ++ (List.range count).map fun j =>
      ⟨d, w, token % 65536 + (token / 65536 + j) % 65536 * 65536, s.now⟩ }
  txPump d s
/-- A remote transfer fails (R278). -/
def txFail (r : XferId) (code peer : Nat) (s : State) : State :=
  xferFail r code peer (s.modNet fun n => { n with remTx := n.remTx.filter fun t => t.ref != r })
/-- REFUSE at the sender (R383, R389): the transfer of the refused DATA, or those that wait for the
refused request, fail with its code. -/
def refuseArrive (d id code : Nat) (isReq : Bool) (s : State) : State :=
  if isReq then
    match s.net.asks.find? fun a => a.dev == d && a.reqid == id with
    | none => s
    | some a =>
      let s := s.modNet fun n => { n with asks := n.asks.erase a }
      let ts := s.net.remTx.filter fun t => t.dev == d && t.parts.head?.any fun p => remoteWin d p.offset s == a.win
      ts.foldl (fun s t => txFail t.ref code (peerField d) s) s
  else
    match (s.peer d).unacked.find? fun t => t.seq == id with
    | none => s
    | some t =>
      let s := s.modPeer d fun p => { p with unacked := p.unacked.erase t }
      match t.ref with
      | some r => txFail r code (peerField d) s
      | none => s
/-- SENDER_CREDIT_RETIRE: 60 µs after the grant an unused credit goes back. -/
def credRetire (d token : Nat) (s : State) : State :=
  match s.net.creds.find? fun c => c.dev == d && c.token == token with
  | none => s
  | some c =>
    let s := (s.advance (c.arr + 60 * usTicks)).modNet fun n => { n with creds := n.creds.erase c }
    s.send d (.credReturn token 1) false none
/-- CREDIT_WAIT_TIMEOUT: a transfer that has waited longer than CRED_WAIT (0 acts as 1) fails. -/
def credWaitOut (d i : Nat) (s : State) : State :=
  match (s.net.remTx.filter fun t => t.dev == d && t.parts != [])[i]? with
  | none => s
  | some t =>
    txFail t.ref ecNoCredit (peerField d)
      (s.advance (t.since + max 1 (s.fld .winGctl F.winGctlCredWait) * usTicks))

/-! ### Global turnstiles (R313, R413) -/

/-- The root's turnstile; what the last checkpoint held is a free value. -/
def State.gturn (s : State) (i : Nat) : GlobalTurn :=
  match tabFind s.net.gturns i with
  | some g => g
  | none => match s.net.gturnBase with
    | some b => ⟨Config.freeNat (b + 2 * i) % 2 ^ 32, Config.freeNat (b + 2 * i + 1) % 2 ^ 32⟩
    | none => {}
/-- Set a global turnstile. -/
def State.setGturn (s : State) (i : Nat) (g : GlobalTurn) : State :=
  s.modNet fun n => { n with gturns := tabSet n.gturns i g }
/-- TURN of n on a global turnstile (R255). -/
def gturnApply (i n : Nat) (s : State) : State × Word :=
  let g := s.gturn i
  if n = 0 then (s, BitVec.ofNat 64 g.value)
  else if g.limit ≤ g.value then (s, exhausted)
  else (s.setGturn i { g with value := min (g.value + n) g.limit }, BitVec.ofNat 64 g.value)
/-- The root's DEVID, as this device knows it. -/
def State.rootDev (s : State) : Nat :=
  if s.fld .chipNode F.chipNodeRole = 2 then s.devid else s.net.root.getD (Config.rootDevice % 4096)
/-- The result of a global turnstile request reaches the core that waits for it. -/
def gturnBack (reqid res : Nat) (s : State) : State :=
  { s with cores := s.cores.map fun c => (c.1, { c.2 with gturns := c.2.gturns.map fun g =>
      if g.reqid = reqid ∧ g.res = none then { g with res := some (BitVec.ofNat 64 res) } else g }) }
/-- GTURN_RESULT (R313): the result is written to CM, and the event signals. -/
def gturnResult (n : Nat) (s : State) : State :=
  match (s.core n).gturns.find? fun g => g.res.isSome with
  | none => s
  | some g =>
    let s := s.modCore n fun c => { c with gturns := c.gturns.erase g }
    let s := bgWrite 14 (coreBase n + g.off) (natLe 8 (g.res.getD 0).toNat) [false] s
    s.signal n g.event {}

/-! ### Time synchronisation (R415) -/

/-- The median of a list of estimates. -/
def median (xs : List Int) : Int :=
  let ys := xs.mergeSort (fun a b => decide (a ≤ b))
  (ys.getD ((ys.length - 1) / 2) 0 + ys.getD (ys.length / 2) 0) / 2
/-- One exchange with the time source gives an offset estimate; a device that joins steps forward
once when it is behind by more than 1,000 ticks. -/
def timeSample (src scope : Nat) (t : ThreeTimes) (s : State) : State :=
  if t.echo = 0 then s
  else
    let t4 : Int := s.timeNow
    let est := (((t.arrived.toNat : Int) - t.echo.toNat) - (t4 - t.sent.toNat)) / 2
    let xs := (est :: s.net.samples).take 8
    let m := median xs
    let joined := s.fld .chipTsync F.chipTsyncState == 0
    let s := s.setFld .chipTsync F.chipTsyncOffset (m % 2 ^ 32).toNat
    let s := s.setFld .chipTsync F.chipTsyncSource src
    let s := s.setFld .chipTsync F.chipTsyncState scope
    if joined ∧ 1000 < m then
      { s with time := s.time + BitVec.ofNat 64 m.toNat }.modNet fun n => { n with samples := [], slew := 0 }
    else s.modNet fun n => { n with samples := xs, slew := m }
/-- TIME_SLEW: at most once per 16 ticks a tick adds 0 or 2 in place of 1. -/
def timeSlew (s : State) : State :=
  let k := s.net.slew
  if k = 0 then s
  else
    let s := s.advance (max s.now (s.net.lastSlew + 15 * timeTicks) + timeTicks)
    let s := { s with time := if 0 < k then s.time + 1 else s.time - 1 }
    s.modNet fun n => { n with slew := if 0 < k then k - 1 else k + 1, lastSlew := s.now }
/-- A TIME message (R415): the source answers it; the rank 0 of another gang takes an estimate. -/
def timeArrive (d : Nat) (t : ThreeTimes) (s : State) : State :=
  let at_ := s.timeNow
  let s := if s.fld .chipNode F.chipNodeRole = 2 then
      s.send d (.time s.timeNow t.sent.toNat at_) false none
    else if s.fld .chipNode F.chipNodeRank = 0 then timeSample d 2 t s else s
  s.modLport 16 fun l => { l with peerSent := t.sent.toNat, peerAt := at_ }
/-- When no port to the time source is left, the state falls to the widest scope still synchronised. -/
def tsyncDrop (s : State) : State :=
  let src := s.fld .chipTsync F.chipTsyncSource
  let st := s.fld .chipTsync F.chipTsyncState
  if st = 1 ∧ s.gpTo src = [] then s.setFld .chipTsync F.chipTsyncState 0
  else if st = 2 ∧ s.xpUp = [] then
    s.setFld .chipTsync F.chipTsyncState (if s.fld .chipNode F.chipNodeGsize = 1 then 0 else 1)
  else s

/-! ### Arrival (R374, R378, R381) -/

/-- A message acts, in the order of its SEQ. -/
def deliver (xp : Bool) (d seq : Nat) (notify : Bool) (m : Msg) (s : State) : State :=
  match m with
  | .data tok off us => dataArrive xp d seq notify tok off us s
  | .credReq w c i => credRequest d w c i s
  | .credGrant w c i t => grantArrive d w c i t s
  | .refuse i c q => refuseArrive d i c q s
  | .credReturn t c => credReturned d t c s
  | .cstep g _ _ abort c => s.doIf abort fun s => s.modNet fun n => { n with aborts := n.aborts ++ [⟨some g, d, c⟩] }
  | .time a b c => timeArrive d ⟨BitVec.ofNat 64 a, BitVec.ofNat 64 b, BitVec.ofNat 64 c⟩ s
  | .gturnRequest i n r =>
    if s.fld .chipNode F.chipNodeRole = 2 then
      let (s, v) := gturnApply i n s
      s.send d (.gturnReply i r v.toNat) false none
    else s
  | .gturnReply _ r v => gturnBack r v s
  | .barrier g n rel => s.modNet fun t => { t with barriers := t.barriers ++ [⟨g, n, d, rel⟩] }
  | _ => s
/-- The next message in sequence acts; messages that arrived early follow it. -/
def deliverNext (xp : Bool) (d : Nat) (x : RxMsg) (s : State) : State :=
  let s := s.modPeer d fun p => { p with rxNext := (p.rxNext + 1) % seqMod, ackSince := some (p.ackSince.getD s.now) }
  deliver xp d x.seq x.notify x.msg s
/-- Held messages whose turn has come. -/
def deliverHeld (d : Nat) : Nat → State → State
  | 0, s => s
  | k + 1, s =>
    match (s.peer d).held.find? fun x => x.seq == (s.peer d).rxNext with
    | none => s
    | some x =>
      let s := s.modPeer d fun p => { p with held := p.held.erase x }
      deliverHeld d k (deliverNext x.xp d x s)
/-- Messages to the device itself reach its own window logic in order (R385). -/
def selfLoop : Nat → State → State
  | 0, s => s
  | k + 1, s =>
    match s.net.self with
    | [] => s
    | x :: xs => selfLoop k (deliverNext false s.devid x (s.modNet fun n => { n with self := xs }))
/-- Local traffic settles: its messages act, and what has become visible is acknowledged. -/
def pump (s : State) : State :=
  let s := selfLoop 4096 s
  let d := s.devid
  selfLoop 4096 (ackArrive d (s.peer d).ack s)
/-- DATA in a core's memory become visible once their writes have been performed (R262, R393). -/
def flushLanded (n : Nat) (s : State) : State :=
  (s.net.wins.flatMap fun x => (x.2.landings.filter (landedOn s n x.1)).map fun l => (x.1, l)).foldl (fun s x =>
    pump (dataVisible x.1 x.2.dev x.2.seq x.2.index x.2.units x.2.notify
      (s.modWin x.1 fun y => { y with landings := y.landings.erase x.2 }))) s
/-- The writes on their way into the memories of cores have come as far as the present time brings them. -/
def State.winSettle (s : State) : State :=
  ((s.net.wins.flatMap fun x => x.2.landings.filterMap Landing.core).dedup).foldl (fun s n => flushLanded n (s.landCm n)) s
/-- A message of a gang member for another one is passed on over an ACTIVE port to it (R374). -/
def relay (h : BwtHeader) (m : Msg) (s : State) : State :=
  match s.gpTo h.dst.val with
  | [] => s
  | g :: _ => s.modNet fun n => { n with
      out := n.out ++ [⟨g, none, h.dst.val, h.seq.toNat, h.ack.toNat, h.ece, h.notify, m, some h.src.val, none⟩] }
/-- LENGTH of a message, header included (R381, R382). -/
def Msg.bytes : Msg → Nat
  | .data _ _ us => 40 + 64 * us.length
  | .credReq .. => 24
  | .credGrant .. => 28
  | .refuse .. => 24
  | .ack => 16
  | .credReturn .. => 24
  | .cstep .. => 32
  | .gturnRequest .. => 32
  | .gturnReply .. => 32
  | .heartbeat .. => 40
  | .time .. => 40
  | _ => 24
/-- A message arrives at a port (R374, R377, R378, R381): it carries traffic only while ACTIVE and
identified; one of another version or a wrong LENGTH is discarded and counted; a scale-out port takes messages in
sequence alone, a gang port restores their order; a message to another device is relayed within the gang. -/
def receive (p : Nat) (h : BwtHeader) (m : Msg) (s : State) : State :=
  let d := h.src.val
  let q := h.seq.toNat
  if s.lpState p ≠ lpActive ∨ s.bit .chipNode F.chipNodeIdValid = false ∨ d = s.devid then s
  else if h.ver ≠ 1 ∨ h.length.toNat ≠ m.bytes then s.bump .winCnt F.winCntRefused 1
  else if h.dst.val ≠ s.devid then (if p < 16 then relay h m (wake s) else s)
  else
    let s := match m with
      | .time .. => s
      | _ => wake s
    let s := ackArrive d h.ack.toNat s
    let s := s.doIf h.ece (eceArrive d)
    let s := s.doIf (h.ce && decide (16 ≤ p)) fun s =>
      (s.bump (.xpCnt (p - 16)) F.xpCntEcnCe 1).modPeer d fun r => { r with eceDue := true }
    if m.sequenced = false then s
    else
      let x : RxMsg := ⟨q, h.notify, decide (16 ≤ p), m⟩
      let next := (s.peer d).rxNext
      if q = next then deliverHeld d 1024 (deliverNext x.xp d x s)
      else if seqBefore q next then s.modPeer d fun r => { r with ackSince := some (r.ackSince.getD s.now) }
      else if 16 ≤ p then s.bump .winCnt F.winCntRefused 1
      else s.modPeer d fun r => { r with held := if r.held.any (fun y => y.seq == q) then r.held else r.held ++ [x] }
/-- Progress of link training (R461): ports that are ACTIVE, DOWN or DISABLED, of 18. -/
def linkProg (s : State) : State :=
  if s.fld (.hifProgStat 2) F.hifProgStatState = 1 then
    let k := (allPorts.filter fun p => s.lpState p == lpActive || s.lpState p == lpDown || s.lpState p == lpDisabled).length
    if k = 18 then progDone 2 18 s else progAt 2 (k * 10000 / 18) k s
  else s
/-- A meaning of this chapter: local traffic settles after it. -/
def runNet (f : State → State) (s : State) : Host.Outcome State Fault Refusal := run (fun s => linkProg (pump (f s))) s

/-! ### Port commands (R372-R375, R380, R479) -/

/-- A port leaves ACTIVE or any other state for DOWN, and the time source may be lost with it. -/
def linkDown (p : Nat) (s : State) : State := tsyncDrop (portDown p s)
/-- EN of a port. -/
def State.portEn (s : State) (p : Nat) : Bool :=
  if p < 16 then s.bit (.gpCtl p) F.gpCtlEn else s.bit (.xpCtl (p - 16)) F.xpCtlEn
/-- RETRAIN (R375, R380): the port goes DOWN and trains. -/
def retrain (p : Nat) (s : State) : State :=
  if s.portEn p && !s.chip.pciDown then portTrain p (linkDown p s) else s
/-- EN 0 holds the port DISABLED; EN 1 takes it from there to TRAINING. -/
def portEnable (p : Nat) (s : State) : State :=
  if s.portEn p then
    if s.lpState p = lpDisabled then portTrain p s else s
  else
    let was := s.lpState p
    let s := s.setLp p lpDisabled
    if was = lpActive ∧ p < 16 then tsyncDrop (reroute (s.fld (.gpStatus p) F.gpStatusPeer) s) else tsyncDrop s
/-- A write of GP_CTL or XP_CTL (R375, R380). -/
def portCtlWrite (p v : Nat) (s : State) : State :=
  if p < 16 then
    let s := portEnable p (s.plainWrite (.gpCtl p) v)
    s.doIf (F.gpCtlRetrain.of v == 1) (retrain p)
  else
    let r := Reg.xpCtl (p - 16)
    let same := fun (f : Fld) => f.of v == s.fld r f
    if s.lpState p = lpActive ∧ !(same F.xpCtlUdpPort && same F.xpCtlMaxlen && same F.xpCtlIpv6 && same F.xpCtlSpeed)
    then s.conflict (portSrc p) (regAddr r) v
    else
      let s := portEnable p (s.plainWrite r v)
      s.doIf (F.xpCtlRetrain.of v == 1) (retrain p)
/-- The widest of 8, 4 or 2 lanes within those that pass, or 0. -/
def widest (lanes : Nat) : Nat := if 8 ≤ lanes then 8 else if 4 ≤ lanes then 4 else if 2 ≤ lanes then 2 else 0
/-- LINK_TRAINING_DONE (R372). -/
def trainDone (p lanes : Nat) (s : State) : State :=
  let l := widest lanes
  if s.lpState p ≠ lpTraining then s
  else if l = 0 then
    (linkDown p s).doIf (decide (p < 16)) fun s =>
      s.raise { src := portSrc p, code := ecLinkDown, detail := [(32, 1, p), (33, 1, 3)] }
  else if p < 16 then
    let s := (s.setFld (.gpStatus p) F.gpStatusLanes l).setLp p lpIdentify
    let s := s.doIf (l != 8) fun s => s.raise { src := portSrc p, code := ecLinkDegraded, detail := [(32, 1, p), (33, 1, l)] }
    let g := fun f => s.fld .chipNode f
    s.modNet fun n => { n with out := n.out ++ [⟨p, none, 0, 0, 0, false, false,
      .peer (g F.chipNodeDevid) (g F.chipNodeGang) (g F.chipNodeRank) (g F.chipNodeGsize) p, none, none⟩] }
  else (s.setFld (.xpStatus (p - 16)) F.xpStatusLanes l).setLp p lpActive
/-- PORT_RETRAIN_TIMER (R372): 10 ms after it went DOWN, a port is retrained. -/
def retrainTimer (p : Nat) (s : State) : State :=
  if s.lpState p = lpDown ∧ s.portEn p ∧ s.chip.pciDown = false then portTrain p (s.advance ((s.lport p).downAt + 10000 * usTicks)) else s
/-- PEER (R372): the port becomes ACTIVE, or MISMATCH with CONFIG_CONFLICT. -/
def peerArrive (p : Nat) (m : PeerMsg) (s : State) : State :=
  if 16 ≤ p ∨ s.lpState p ≠ lpIdentify then s
  else
    let d := m.dev.val
    let s := (s.setFld (.gpStatus p) F.gpStatusPeer d).setFld (.gpStatus p) F.gpStatusPport m.port.toNat
    if m.gang.toNat ≠ s.fld .chipNode F.chipNodeGang ∨ m.gsize.toNat ≠ s.fld .chipNode F.chipNodeGsize ∨
      m.rank.toNat = s.fld .chipNode F.chipNodeRank then
      (s.setLp p lpMismatch).raise { src := portSrc p, code := ecConfigConflict, peer := peerField d,
                                     addr := regAddr (.gpStatus p) }
    else
      let s := (s.setLp p lpActive).modLport p fun l => { l with hbIn := s.now, hbOut := s.now }
      s.modPeer d fun r => { r with inGang := true, rank := m.rank.toNat }
/-- HEARTBEAT_SEND (R373): every 1 µs on an ACTIVE gang port. On a scale-out port, the TIME message
of every 100 µs from a gang's rank 0 to the time source (R415). -/
def heartbeatSend (p : Nat) (s : State) : State :=
  let l := s.lport p
  if s.lpState p ≠ lpActive ∨ s.bit .chipNode F.chipNodeIdValid = false then s
  else if p < 16 then
    let s := s.advance (l.hbOut + usTicks)
    let s := s.doIf (decide (l.hbIn ≤ l.hbOut)) fun s => s.bump (.gpCnt p) F.gpCntHbMiss 1
    let d := s.fld (.gpStatus p) F.gpStatusPeer
    let s := s.modNet fun n => { n with out := n.out ++ [⟨p, none, d, 0, (s.peer d).ack, (s.peer d).eceDue, false,
      .heartbeat s.timeNow l.peerSent l.peerAt, none, none⟩] }
    s.modLport p fun l => { l with hbOut := s.now }
  else if s.fld .chipNode F.chipNodeRank = 0 ∧ s.rootDev ≠ s.devid then
    let s := s.advance (s.net.lastTime + 100 * usTicks)
    let x := s.lport 16
    (s.send s.rootDev (.time s.timeNow x.peerSent x.peerAt) false none).modNet fun n => { n with lastTime := s.now }
  else s
/-- HEARTBEAT (R373, R415). -/
def heartbeat (p : Nat) (t : ThreeTimes) (s : State) : State :=
  if 16 ≤ p ∨ s.lpState p ≠ lpActive then s
  else
    let d := s.fld (.gpStatus p) F.gpStatusPeer
    let s := s.modLport p fun l => { l with hbIn := s.now, peerSent := t.sent.toNat, peerAt := s.timeNow }
    if (s.peer d).rank = 0 ∧ s.fld .chipNode F.chipNodeRank ≠ 0 then timeSample d 1 t s else s
/-- HEARTBEAT_TIMEOUT (R373): 3 µs without a heartbeat. -/
def heartbeatTimeout (p : Nat) (s : State) : State :=
  if 16 ≤ p ∨ s.lpState p ≠ lpActive then s
  else
    let s := s.advance ((s.lport p).hbIn + 3 * usTicks)
    let s := s.raise { src := portSrc p, code := ecLinkDown, peer := peerField (s.fld (.gpStatus p) F.gpStatusPeer),
                       detail := [(32, 1, p), (33, 1, 0)] }
    linkDown p s
/-- FLIT_REPLAY (R371, R479): a flit is replayed; when its fourth replay fails too, DETECT_LINK is
raised and the port retrained. -/
def flitReplay (p seq : Nat) (good : Bool) (s : State) : State :=
  if s.lpState p ≠ lpActive then s
  else
    let s := s.bump (.gpCnt p) F.gpCntReplays 1
    let k := (s.lport p).replays + 1
    if good ∨ k < 4 then s.modLport p fun l => { l with replays := if good then 0 else k }
    else
      let s := s.raise { src := portSrc p, code := ecDetectLink, peer := peerField (s.fld (.gpStatus p) F.gpStatusPeer),
                         detail := [(32, 1, p), (33, 2, seq), (35, 1, 4)] }
      retrain p (s.modLport p fun l => { l with replays := 0 })
/-- FCS_FAILURE (R479): the frame is discarded and counted; DETECT_LINK at most once per 1,000 µs. -/
def fcsFailure (p : Nat) (s : State) : State :=
  let s := s.bump .winCnt F.winCntRefused 1
  if (s.lport p).detAt.any (fun t => decide (s.now < t + 1000 * usTicks)) then s
  else
    (s.raise { src := portSrc p, code := ecDetectLink, detail := [(32, 1, p)] }).modLport p fun l =>
      { l with detAt := some s.now }
/-- ARP (R376): an address resolution for the port's own address is answered. -/
def arpAnswer (p : Nat) (ip : BitVec 128) (s : State) : State :=
  let own := s.word (.xpIp p 0) + s.word (.xpIp p 1) * 2 ^ 64
  if s.lpState (16 + p) = lpActive ∧ ip.toNat = own then
    s.modNet fun n => { n with out := n.out ++ [⟨16 + p, none, 0, 0, 0, false, false, .arp ip (s.fld (.xpAddr p) F.xpAddrMac), none, none⟩] }
  else s

/-! ### Timers of the transport (R377, R378, R383) -/

/-- ACK_TIMER (R383): an acknowledgement leaves within 200 FABRIC_CLK cycles. -/
def ackTimer (d : Nat) (s : State) : State :=
  match (s.peer d).ackSince with
  | none => s
  | some t => (s.advance (t + 200 * fabTicks)).send d .ack false none
/-- When the next resend of a message falls due (R378). -/
def TxMsg.due (t : TxMsg) : Nat :=
  t.first + (match t.tries with
    | 0 => 8
    | 1 => 20
    | _ => 30) * usTicks
/-- RESEND_TIMER (R378): the unacknowledged scale-out message whose time comes first. -/
def resendTimer (d : Nat) (s : State) : State :=
  let p := s.peer d
  if p.inGang ∨ d = s.devid then s
  else
    match p.unacked.foldl (fun a t => match a with
      | none => some t
      | some (b : TxMsg) => if t.due < b.due then some t else some b) none with
    | none => s
    | some t =>
      let s := s.advance t.due
      if 2 ≤ t.tries then failPeer d 2 s
      else
        let s := s.modPeer d fun p => { p with unacked := p.unacked.map fun u =>
          if u.seq = t.seq then { u with tries := u.tries + 1 } else u }
        let xs := s.xpUp
        let s := match xs[d % xs.length]? with
          | some x => s.bump (.xpCnt (x - 16)) F.xpCntResent 1
          | none => s
        emit d t.seq t.notify t.msg s
/-- ECN_RATE_STEP (R377): after 10 µs without ECE, R becomes min(R + 1/64, 1). -/
def ecnStep (d : Nat) (s : State) : State :=
  let s := s.advance ((s.peer d).lastEce + 10 * usTicks)
  s.modPeer d fun p => { p with rate := min (p.rate + 1 / 64) 1, lastEce := s.now }

/-! ### Identity and managers (R368, R411, R414) -/

/-- A write of CHIP_NODE (R368). -/
def chipNodeWrite (v : Nat) (s : State) : State :=
  if allPorts.any fun p => s.lpState p != lpDisabled && s.lpState p != lpDown then
    s.conflict (srcOf 0 0 0) (regAddr .chipNode) v
  else if F.chipNodeGsize.of v = 0 ∨ 8 < F.chipNodeGsize.of v then
    s.refuseWrite (srcOf 0 0 0) (regAddr .chipNode) v ecDescRange
  else s.plainWrite .chipNode v
/-- The lowest of a list of devices. -/
def lowest : List Nat → Option Nat
  | [] => none
  | d :: ds => some (ds.foldl min d)
/-- A role has been lost for three intervals: the lowest live device of those that may take it takes
it; a new root takes the global turnstiles from the last checkpoint. -/
def replaceManager (lost : MgrBeat) (beats : List MgrBeat) (s : State) : State :=
  let own := s.fld .chipNode F.chipNodeRole
  let want := if lost.role.val = 2 then 1 else 0
  let may := fun (d : Nat) => lost.role.val == 2 || d / 64 == lost.dev.val / 64
  let live := (beats.filter fun b => b.role.val == want && (s.peer b.dev.val).alive && may b.dev.val).map (·.dev.val)
  match lowest (live ++ if own = want ∧ may s.devid then [s.devid] else []) with
  | none => s
  | some d =>
    let s := s.doIf (lost.role.val == 2) fun s => s.modNet fun n => { n with root := some d }
    if d ≠ s.devid then s
    else
      let s := s.setFld .chipNode F.chipNodeRole lost.role.val
      if lost.role.val = 2 then
        { s with draws := s.draws + 131072 }.modNet fun n => { n with gturns := [], gturnBase := some s.draws }
      else s
/-- MANAGER_HEARTBEAT (R414): one exchange of 100 µs, with the job and the costs that the manager roles place work by
(R404, R411). -/
def managerBeat (beats : List MgrBeat) (plan : Option JobPlan) (loads : Option StepLoads) (s : State) : State :=
  let s := s.advance (s.net.lastBeat + 100 * usTicks)
  let s := s.modNet fun n => { n with lastBeat := s.now }
  let s := beats.foldl (fun s b =>
    let s := s.modPeer b.dev.val fun p =>
      let m := if b.ok then 0 else p.misses + 1
      { p with misses := m, role := b.role.val, alive := decide (m < 3) }
    s.doIf (b.ok && b.role.val == 2) fun s => s.modNet fun n => { n with root := some b.dev.val }) s
  let s := beats.foldl (fun s b =>
    if b.role.val ≠ 0 ∧ (s.peer b.dev.val).misses = 3 then replaceManager b beats s else s) s
  let s := match plan with
    | some p => placeJob p s
    | none => s
  match loads with
  | some l => measureStep l s
  | none => s

/-! ### The commands -/

/-- ACCUM_WINDOW_VISIBLE (R394). -/
def execAccumWindowVisible (w : WinId) (s : State) : Host.Outcome State Fault Refusal := runNet (fun s => accumVisible w.val s.winSettle) s
/-- WIN_LOCAL_WRITE (R261). -/
def execWinLocalWrite (r : Requester) (w : WinId) (v : Word) (s : State) : Host.Outcome State Fault Refusal :=
  runNet (winLocalWrite r w.val v.toNat) s
/-- CREDIT_EXPIRY (R388). -/
def execCreditExpiry (w : WinId) (i : Nat) (s : State) : Host.Outcome State Fault Refusal :=
  runNet (creditExpire w.val i) s
/-- WINDOW_OPEN (R387): a WIN_CTL write that sets OPEN. -/
def execWindowOpen (r : Requester) (w : WinId) (v : Word) (s : State) : Host.Outcome State Fault Refusal :=
  runNet (winCtlWrite r w.val (F.winCtlOpen.put v.toNat 1)) s
/-- WINDOW_CLOSE (R387). -/
def execWindowClose (r : Requester) (w : WinId) (s : State) : Host.Outcome State Fault Refusal :=
  runNet (fun s => if virhanWin r w.val then s.conflict winSrc (regAddr (.winCtl w.val)) (2 ^ 2) else winCloseOp w.val s) s
/-- WINDOW_FORCE (R387). -/
def execWindowForce (r : Requester) (w : WinId) (s : State) : Host.Outcome State Fault Refusal :=
  runNet (fun s => if virhanWin r w.val then s.conflict winSrc (regAddr (.winCtl w.val)) (2 ^ 3) else winForceOp w.val s) s
/-- WIN_CONFIG_WRITE (R387, R395): the fields of WIN_CTL, WIN_PERM or WIN_CMPL. -/
def execWinConfigWrite (r : Requester) (w : WinId) (reg : WinReg) (v : Word) (s : State) :
    Host.Outcome State Fault Refusal :=
  runNet (winRegWrite r w.val (match reg with
    | .ctl => .winCtl w.val
    | .perm => .winPerm w.val
    | .cmpl => .winCmpl w.val) v.toNat) s


/-- GP_RETRAIN (R375). -/
def execGpRetrain (p : GpId) (s : State) : Host.Outcome State Fault Refusal := runNet (retrain p.val) s
/-- XP_RETRAIN (R380). -/
def execXpRetrain (p : XpId) (s : State) : Host.Outcome State Fault Refusal := runNet (retrain (16 + p.val)) s
/-- LINK_TRAINING_DONE (R372). -/
def execLinkTrainingDone (p : PortId) (lanes : Nat) (s : State) : Host.Outcome State Fault Refusal :=
  runNet (trainDone (portNum p) lanes) s
/-- PORT_RETRAIN_TIMER (R372). -/
def execPortRetrainTimer (p : PortId) (s : State) : Host.Outcome State Fault Refusal :=
  runNet (retrainTimer (portNum p)) s
/-- PEER (R372). -/
def execPeer (p : PortId) (m : PeerMsg) (s : State) : Host.Outcome State Fault Refusal :=
  runNet (peerArrive (portNum p) m) s
/-- HEARTBEAT_SEND (R373). -/
def execHeartbeatSend (p : PortId) (s : State) : Host.Outcome State Fault Refusal :=
  runNet (heartbeatSend (portNum p)) s
/-- HEARTBEAT (R373, R415). -/
def execHeartbeat (p : PortId) (t : ThreeTimes) (s : State) : Host.Outcome State Fault Refusal :=
  runNet (heartbeat (portNum p) t) s
/-- HEARTBEAT_TIMEOUT (R373). -/
def execHeartbeatTimeout (p : PortId) (s : State) : Host.Outcome State Fault Refusal :=
  runNet (heartbeatTimeout (portNum p)) s
/-- FLIT_REPLAY (R479). -/
def execFlitReplay (p : GpId) (seq : BitVec 12) (good : Bool) (s : State) : Host.Outcome State Fault Refusal :=
  runNet (flitReplay p.val seq.toNat good) s
/-- FCS_FAILURE (R479). -/
def execFcsFailure (p : XpId) (s : State) : Host.Outcome State Fault Refusal := runNet (fcsFailure (16 + p.val)) s
/-- PORT_CTL_WRITE (R375, R380). -/
def execPortCtlWrite (_r : Requester) (p : PortId) (v : Word) (s : State) : Host.Outcome State Fault Refusal :=
  runNet (portCtlWrite (portNum p) v.toNat) s
/-- Units of a DATA message with their poison (R382). -/
def dataUnits (d : DataMsg) : List UnitP := d.units.zipIdx.map fun u => ⟨sub u.1 0 64, bitAt d.mask.toNat u.2⟩
/-- DATA (R390): a LENGTH that disagrees with the type discards the message (R381). -/
def execData (p : PortId) (h : BwtHeader) (d : DataMsg) (s : State) : Host.Outcome State Fault Refusal :=
  runNet (fun s =>
    if d.units = [] ∨ 64 < d.units.length ∨ d.units.any (fun u => u.length != 64) then s.bump .winCnt F.winCntRefused 1
    else receive (portNum p) h (.data d.token.toNat d.offset.toNat (dataUnits d)) s) s
/-- CRED_REQ (R389). -/
def execCredReq (p : PortId) (h : BwtHeader) (w : BitVec 10) (count : BitVec 16) (reqid : W32) (s : State) :
    Host.Outcome State Fault Refusal :=
  runNet (receive (portNum p) h (.credReq w.toNat count.toNat reqid.toNat)) s
/-- CRED_GRANT (R391). -/
def execCredGrant (p : PortId) (h : BwtHeader) (w : BitVec 10) (count : BitVec 16) (reqid token : W32) (s : State) :
    Host.Outcome State Fault Refusal :=
  runNet (receive (portNum p) h (.credGrant w.toNat count.toNat reqid.toNat token.toNat)) s
/-- REFUSE (R383, R389). -/
def execRefuse (p : PortId) (h : BwtHeader) (id : W32) (code : Byte) (isReq : Bool) (s : State) :
    Host.Outcome State Fault Refusal :=
  runNet (receive (portNum p) h (.refuse id.toNat code.toNat isReq)) s
/-- ACK (R383). -/
def execAck (p : PortId) (h : BwtHeader) (s : State) : Host.Outcome State Fault Refusal :=
  runNet (receive (portNum p) h .ack) s
/-- ACK_TIMER (R383). -/
def execAckTimer (dev : DevId) (s : State) : Host.Outcome State Fault Refusal := runNet (ackTimer dev.val) s
/-- CRED_RETURN (R388). -/
def execCredReturn (p : PortId) (h : BwtHeader) (token : W32) (count : BitVec 16) (s : State) :
    Host.Outcome State Fault Refusal :=
  runNet (receive (portNum p) h (.credReturn token.toNat count.toNat)) s
/-- TIME_MESSAGE (R415). -/
def execTimeMessage (p : PortId) (h : BwtHeader) (t : ThreeTimes) (s : State) : Host.Outcome State Fault Refusal :=
  runNet (receive (portNum p) h (.time t.sent.toNat t.echo.toNat t.arrived.toNat)) s
/-- The body of a GTURN message. -/
def gturnBody : GturnMsg → Msg
  | .request i n r => .gturnRequest i.toNat (n.toNat % 2 ^ 32) r.toNat
  | .reply r v => .gturnReply 0 r.toNat v.toNat
/-- GTURN_MESSAGE (R413). -/
def execGturnMessage (p : PortId) (h : BwtHeader) (m : GturnMsg) (s : State) : Host.Outcome State Fault Refusal :=
  runNet (receive (portNum p) h (gturnBody m)) s
/-- GTURN_RESULT (R313). -/
def execGturnResult (n : CoreId) (s : State) : Host.Outcome State Fault Refusal := run (gturnResult n.val) s
/-- ARP (R376). -/
def execArp (p : XpId) (ip : BitVec 128) (s : State) : Host.Outcome State Fault Refusal := runNet (arpAnswer p.val ip) s
/-- RESEND_TIMER (R378). -/
def execResendTimer (dev : DevId) (s : State) : Host.Outcome State Fault Refusal := runNet (resendTimer dev.val) s
/-- ECN_RATE_STEP (R377). -/
def execEcnRateStep (dev : DevId) (s : State) : Host.Outcome State Fault Refusal := runNet (ecnStep dev.val) s
/-- SENDER_CREDIT_RETIRE (R391). -/
def execSenderCreditRetire (dev : DevId) (token : W32) (s : State) : Host.Outcome State Fault Refusal :=
  runNet (credRetire dev.val token.toNat) s
/-- CREDIT_WAIT_TIMEOUT (R391). -/
def execCreditWaitTimeout (dev : DevId) (i : Nat) (s : State) : Host.Outcome State Fault Refusal :=
  runNet (credWaitOut dev.val i) s
/-- CHIP_NODE_WRITE (R368). -/
def execChipNodeWrite (_r : Requester) (v : Word) (s : State) : Host.Outcome State Fault Refusal :=
  runNet (chipNodeWrite v.toNat) s
/-- MANAGER_HEARTBEAT (R414). -/
def execManagerHeartbeat (beats : MgrInterval) (s : State) : Host.Outcome State Fault Refusal :=
  runNet (managerBeat beats.beats beats.plan beats.loads) s
/-- TIME_SLEW (R415). -/
def execTimeSlew (s : State) : Host.Outcome State Fault Refusal := runNet timeSlew s

end Sys2Proof.Machine
end

