-- ==== Sys2Proof/Machine/Power.lean ====
section
/-! DEFINITION. Clocks, P-states, the power governor Bellows, FAST_THROTTLE_N, thermal limits and idle
states (spec/13). -/

namespace Sys2Proof.Machine

/-- SOURCE of Bellows and the clocks (R484). -/
def blwSrc : Nat := srcOf 11 0 0
/-- VDD_CORE in mV that a P-state requires (R421). -/
def psMv (p : Nat) : Nat :=
  match p with
  | 0 => 850
  | 1 => 780
  | 2 => 740
  | 3 => 680
  | _ => 650

/-! ### P-states (R421-R425) -/

/-- The Bellows target. -/
def State.pb (s : State) : Nat := s.fld .blwStat F.blwStatPb
/-- The pin's demand applies: FAST_THROTTLE_N is asserted or its hold runs (R422, R432). -/
def State.ft (s : State) : Bool := s.power.pin || decide (s.power.hold ≠ 0)
/-- The demand that the pin makes: P3; after its hold one P-state less per tick (R432). -/
def State.pinDemand (s : State) : Nat := if s.ft then 3 else s.power.step
/-- The slowest of the four demands on a core (R422). -/
def State.demand (s : State) (n : Nat) : Nat :=
  max (max (s.fld (.clkCorePs n) F.clkCorePsHost) s.pb) (max s.pinDemand (if s.power.hot then 4 else 0))
/-- Cores that are not out of service. -/
def State.liveCores (s : State) : List Nat :=
  (List.range 32).filter fun n => s.fld (.coreMap n) F.coreMapState ≠ 2
/-- The voltage that the fastest of the given P-states requires (R424). -/
def fastestMv (ps : List Nat) : Nat := psMv (ps.foldl min 4)
/-- A voltage frame (R424): 16 bits, the target in mV, 640 ns. -/
def sendFrame (mv : Nat) (s : State) : State :=
  { s.setFld .clkStatus F.clkStatusVcoreSet mv with
    power := { s.power with frames := s.power.frames ++ [0xA000 + mv] } }
/-- A raise in progress is abandoned: PB returns to what it was, and the cores keep their state. -/
def dropRaise (s : State) : State :=
  match s.power.raise with
  | none => s
  | some r =>
    let s := { s with power := { s.power with raise := none } }
    s.setFld .blwStat F.blwStatPb (max s.pb r.pb)
/-- The demands call for more voltage than was last commanded: the frame goes first (R425), unless the
last raise failed less than 1,000 ticks ago. `pb` is the PB that an abandoned raise returns to. -/
def askVoltage (pb : Nat) (s : State) : State :=
  let mv := fastestMv (s.liveCores.map s.demand)
  if s.fld .clkStatus F.clkStatusVcoreMeas + 10 < mv ∧ s.power.raise = none ∧ s.power.block = 0 ∧
      s.bit .clkStatus F.clkStatusRootLock then
    let s := sendFrame mv s
    { s with power := { s.power with raise := some ⟨pb, mv, s.now⟩ } }
  else s
/-- The next switch boundary: every 240 root cycles (R423). -/
def nextBoundary (t : Nat) : Nat := (t / 240 + 1) * 240
/-- A core changes divider at a switch boundary (R423): the whole core stalls up to it, its cycle
count and with it every fixed latency stays; a lower voltage follows a change to a slower state. -/
def pstateSwitch (n : Nat) (s : State) : State :=
  let old := s.fld (.clkCorePs n) F.clkCorePsEff
  let new := s.demand n
  let slow := decide (old < new)
  let volt := decide (psMv new ≤ s.fld .clkStatus F.clkStatusVcoreMeas + 10)
  if new = old ∨ (!slow && !volt) then s
  else
    let cyc := s.cyc n
    let t := nextBoundary s.now
    let s := s.modCore n fun c => { c with cycBase := cyc, tBase := t }
    let s := (s.setFld (.clkCorePs n) F.clkCorePsEff new).bump (.clkCorePs n) F.clkCorePsSwitches 1
    let s := s.advance t
    let mv := fastestMv (s.liveCores.map fun i => s.fld (.clkCorePs i) F.clkCorePsEff)
    if slow ∧ mv < s.fld .clkStatus F.clkStatusVcoreSet ∧ s.power.raise.isNone then
      (sendFrame mv s).setFld .clkStatus F.clkStatusVcoreMeas mv
    else s
/-- THROTTLE (R429): at most once per 1,000 ticks for each cause; vector 196 tells of it (R458). -/
def throttle (cause : Nat) (s : State) : State :=
  if (tabFind s.power.throttled cause).any fun t => decide (s.power.ticks < t + 1000) then s
  else
    let s := { s with power := { s.power with throttled := tabSet s.power.throttled cause s.power.ticks } }
    (s.raise { src := blwSrc, code := ecThrottle, detail := [(32, 1, cause)] }).msix 196
/-- A demand other than HOST makes some core slower than its HOST field. -/
def State.slowed (s : State) : Bool :=
  s.liveCores.any fun n => decide (s.fld (.clkCorePs n) F.clkCorePsHost < s.demand n)
/-- VCORE_RAISE (R425): the on-die monitor reads a voltage; once it reaches the target less 10 mV the
raise is complete and the cores may switch. -/
def vcoreRaise (mv : Nat) (s : State) : State :=
  let s := s.setFld .clkStatus F.clkStatusVcoreMeas mv
  match s.power.raise with
  | some r => if r.mv ≤ mv + 10 then { s with power := { s.power with raise := none } } else s
  | none => s
/-- VCORE_RAISE_TIMEOUT (R425): 20 µs after the frame the raise is abandoned, VR_FAIL is set, THROTTLE
is raised with cause 4, and no raise is tried for 1,000 ticks. -/
def vcoreTimeout (s : State) : State :=
  match s.power.raise with
  | none => s
  | some r =>
    let s := dropRaise (s.advance (r.sent + 640 * fabTicks + 20 * usTicks))
    let s := { s with power := { s.power with block := 1000 } }
    throttle 4 (s.setFld .blwStat F.blwStatVrFail 1)

/-! ### The tick (R426-R428, R434) -/

/-- A temperature of 16 bits in 1/16 °C (R442). -/
def tempOf (t : Nat) : Int := sx 16 t
/-- The hottest sensor: its reading and number; the lowest number among equals. -/
def hottest (ts : List Nat) : Int × Nat :=
  ts.zipIdx.foldl (fun a p => if a.1 < tempOf p.1 then (tempOf p.1, p.2) else a)
    (tempOf (ts.headD 0), 0)
/-- The class ceiling (R427), in the code of BLW_STAT.CEIL; a share CAP / n is the exact quotient (assumption
188, DEDUCED). -/
def ceiling (ft : Bool) (t h cap : Int) : Nat :=
  if ft then 0
  else if 105 * 16 ≤ t then 0
  else if cap ≤ 10 * h then (if 100 * 16 ≤ t then 1 else 3)
  else if cap ≤ 20 * h then (if 100 * 16 ≤ t then 1 else 2)
  else if cap ≤ 50 * h then 1
  else 0
/-- predict(s) of R427 is at most CAP − CAP / 20: p + Σ e_n × (r(s)/r(pb) − 1) over the cores at pb, with
r(s) = f(s) × V(s)², and e_n in 10 mW. -/
def predictFits (s : State) (p cap : Int) (pb new : Nat) : Bool :=
  let e := (s.liveCores.filter fun n => s.fld (.clkCorePs n) F.clkCorePsEff == pb).foldl
    (fun a n => a + s.fld (.blwCore n) F.blwCoreEst) 0
  let num : Int := psMv new ^ 2 * psDiv pb
  let den : Int := psMv pb ^ 2 * psDiv new
  decide (20 * (p * 100 * den + e * (num - den)) ≤ 19 * cap * 100 * den)
/-- The refresh interval of a stack follows the sensor at its port controller: the shorter one above 85 °C, and in
raw-stack mode (R226, R229, R426; assumption 179, DEDUCED). -/
def refreshRate (temps : List Nat) (s : State) : State :=
  (List.range 8).foldl (fun s k =>
    match temps[52 + k]? with
    | some t => s.setFld (.ghStatus k) F.ghStatusRefresh2x
        (b2n (s.bit (.ghStatus k) F.ghStatusRaw || decide (85 * 16 < tempOf t)))
    | none => s) s
/-- BLW_TEMP and BLW_CORE take the tick's readings (R426). -/
def storeReadings (temps est : List Nat) (s : State) : State :=
  let s := (temps.take 64).zipIdx.foldl (fun s q => s.setFld (.blwTemp q.2) F.blwTempTemp q.1) s
  let s := refreshRate temps s
  (est.take 32).zipIdx.foldl (fun s q => s.setFld (.blwCore q.2) F.blwCoreEst q.1) s
/-- The new target of a tick, with `calm`, `ticks_since_hot_step` and the cause of a step to a slower
state: 1 power, 2 thermal. -/
structure Target where
  pb : Nat
  calm : Nat
  hotTicks : Nat
  cause : Nat
/-- The second half of tick() (R427). -/
def target (s : State) (p t : Int) : Target :=
  let cap : Int := s.fld .blwCap F.blwCapCap
  let h := cap - p
  let pb := s.pb
  let hot := s.power.hotTicks + 1
  let hold := max 1 (s.fld .blwCtl F.blwCtlRaiseHold)
  if 105 * 16 ≤ t then ⟨4, 0, hot, 2⟩
  else if cap < p then ⟨min (pb + 1) 4, 0, hot, 1⟩
  else if 100 * 16 ≤ t then
    if 100 ≤ hot then ⟨min (pb + 1) 4, 0, 0, 2⟩ else ⟨pb, 0, hot, 2⟩
  else if cap ≤ 10 * h ∧ t < 97 * 16 ∧ s.ft = false then
    let calm := s.power.calm + 1
    if hold ≤ calm ∧ 0 < pb ∧ s.power.block = 0 ∧ predictFits s p cap pb (pb - 1) then
      ⟨pb - 1, 0, hot, 0⟩
    else ⟨pb, calm, hot, 0⟩
  else ⟨pb, 0, hot, 0⟩
/-- The pin's hold counts down by a tick; after it the demand falls by one P-state per tick (R432). -/
def holdTick (s : State) : State :=
  let p := s.power
  let p := if p.pin then p
    else if p.hold = 0 then { p with step := p.step - 1 }
    else if p.hold = 1 then { p with hold := 0, step := 2 }
    else { p with hold := p.hold - 1 }
  { s with power := { p with block := p.block - 1, ticks := p.ticks + 1 } }
/-- BLW_STAT.PB and the copies in CLK_CORE_PS. -/
def setPb (pb : Nat) (s : State) : State :=
  let s := s.setFld .blwStat F.blwStatPb pb
  (List.range 32).foldl (fun s n => s.setFld (.clkCorePs n) F.clkCorePsBlw pb) s
/-- The device trips (R435): THERMAL_TRIP is raised, every port goes DOWN, and nothing but the AUX
domain runs until a new power-up. -/
def thermalTrip (sensor temp : Nat) (s : State) : State :=
  if s.power.trip then s
  else
    let s := (s.raise { src := blwSrc, code := ecThermalTrip, detail := [(32, 1, sensor), (34, 2, temp)] }).msix 196
    let s := (s.advise 4 ecThermalTrip)
    let s := ((List.range 14) ++ [16, 17, 18, 19]).foldl (fun s p => portDown p s) s
    { s with power := { s.power with trip := true } }
/-- For each sensor, how many ticks on end it has read 105 °C or more (R435). -/
def hotRunsOf (temps runs : List Nat) : List Nat :=
  (temps.take 64).zipIdx.map fun q => if 105 * 16 ≤ tempOf q.1 then runs.getD q.2 0 + 1 else 0
/-- The sensor whose reading trips the device (R435): one at 110 °C or more, else one at 105 °C or more for 1,000
ticks on end (assumption 189, DEDUCED). -/
def tripping (temps runs : List Nat) : Option Nat :=
  let at110 := (List.range 64).find? fun i => decide (110 * 16 ≤ tempOf (temps.getD i 0))
  at110 <|> (List.range 64).find? fun i => decide (1000 ≤ runs.getD i 0)
/-- BELLOWS_TICK (R427): every 1,000 FABRIC_CLK cycles, with the readings of the tick. -/
def bellowsTick (watts : Nat) (temps est : List Nat) (s : State) : State :=
  let s := s.advance ((s.now / usTicks + 1) * usTicks)
  let s := holdTick (storeReadings temps est s)
  let (t, sensor) := hottest temps
  let cap := s.fld .blwCap F.blwCapCap
  let old := s.pb
  let g := target s watts t
  let isHot := decide (100 * 16 ≤ t)
  let s := setPb g.pb s
  let s := { s with power := { s.power with
    calm := g.calm, hotTicks := g.hotTicks, hot := decide (105 * 16 ≤ t),
    hotRuns := hotRunsOf temps s.power.hotRuns } }
  let s := s.setFld .blwStat F.blwStatPkgW watts
  let s := s.setFld .blwStat F.blwStatTjMax (ux 8 (t / 16))
  let s := s.setFld .blwStat F.blwStatTjSensor sensor
  let s := s.setFld .blwStat F.blwStatCeil (ceiling s.ft t (cap - watts) cap)
  let s := s.setFld .blwStat F.blwStatFt (b2n s.ft)
  let s := s.setFld .blwStat F.blwStatHot (b2n isHot)
  let s := s.doIf (decide (cap < watts)) fun s => s.bump .blwCnt F.blwCntOver 1
  let s := s.doIf isHot fun s => s.bump .blwCnt F.blwCntHot 1
  let s := s.doIf (decide (g.pb < old) || !s.power.pin) (askVoltage old)
  let s := s.doIf (decide (g.cause ≠ 0) && s.slowed) (throttle g.cause)
  match tripping temps s.power.hotRuns with
  | some i => thermalTrip i (temps.getD i 0) s
  | none => s
/-- BLW_CAP_WRITE (R428): a write outside 600-1,800 W is discarded; a lower cap abandons a raise. -/
def blwCapWrite (v : Nat) (s : State) : State :=
  let c := F.blwCapCap.of v
  if c < 600 ∨ 1800 < c then s.refuseWrite blwSrc (regAddr .blwCap) v ecDescRange
  else
    let s := s.doIf (decide (c < s.fld .blwCap F.blwCapCap)) dropRaise
    s.plainWrite .blwCap v
/-- CLK_CORE_PS_WRITE (R422, R442): HOST 5-7 is discarded. -/
def clkCorePsWrite (n v : Nat) (s : State) : State :=
  if 4 < F.clkCorePsHost.of v then s.refuseWrite blwSrc (regAddr (.clkCorePs n)) v ecDescRange
  else askVoltage s.pb (s.plainWrite (.clkCorePs n) v)

/-! ### FAST_THROTTLE_N (R430-R433) -/

/-- FAST_THROTTLE_N asserts (R431): the demand P3, the ceiling E0, gap filling off; a raise in progress
is abandoned (R433). An assertion while the compute die is in reset is recorded. -/
def ftAssert (s : State) : State :=
  let s := { s with power := { s.power with pin := true, step := 0 } }
  if s.dead then s
  else
    let s := s.advance (s.now + 3 * fabTicks)
    let s := dropRaise s
    let s := (s.setFld .blwStat F.blwStatFt 1).setFld .blwStat F.blwStatCeil 0
    let s := s.bump .blwCnt F.blwCntFt 1
    s.doIf s.slowed (throttle 3)
/-- The hold is over (R432). -/
def ftRelease (s : State) : State :=
  let s := { s with power := { s.power with hold := 0, step := 2 } }
  askVoltage s.pb (s.setFld .blwStat F.blwStatFt 0)
/-- FAST_THROTTLE_N deasserts (R432): its demand holds for FT_HOLD further ticks. -/
def ftDeassert (s : State) : State :=
  if s.power.pin then
    let h := s.fld .blwCtl F.blwCtlFtHold
    let s := { s with power := { s.power with pin := false, hold := h } }
    s.doIf (decide (h = 0) && !s.dead) ftRelease
  else s
/-- FT_HOLD_EXPIRY (R432): the ticks that are left pass, and the hold ends. -/
def ftHoldExpiry (s : State) : State :=
  if s.power.pin = false ∧ s.power.hold ≠ 0 then
    ftRelease (s.advance ((s.now / usTicks + s.power.hold) * usTicks))
  else s
/-- THERMAL_TRIP (R435): a sensor at 110 °C or more, seen by the comparator. -/
def tripAt (sensor temp : Nat) (s : State) : State :=
  if 110 * 16 ≤ tempOf temp then thermalTrip sensor temp s else s
/-- REF_LOSS (R420): after 1 µs the clocks stop, the compute die is held in reset, ALERT_N asserts. -/
def refLoss (s : State) : State :=
  let s := (s.advance (s.now + usTicks)).advise 3 0
  let s := { s with chip := { s.chip with refLost := some s.now } }
  (s.setFld .clkStatus F.clkStatusRefLoss 1).setFld .clkStatus F.clkStatusRootLock 0

/-! ### Idle states (R436-R441) -/

/-- Every context is IDLE and every stream queue IDLE, STOPPED or FAULTED. -/
def State.coreQuiet (s : State) (n : Nat) : Bool :=
  ((List.range 4).all fun c => s.ctx n c == ctxIdle) &&
    ((List.range 16).all fun q =>
      let st := s.fld (.strQStat n q) F.strQStatState
      st == strIdle || st == strStopped || st == strFaulted)
/-- The device is idle (R438). -/
def State.isIdle (s : State) : Bool :=
  !s.working && ((List.range 32).all s.coreQuiet) &&
    (s.hif.qps.all fun q => q.2.tail == s.fld (.hifQStat q.1) F.hifQStatSqHead || s.fld (.hifQStat q.1) F.hifQStatState != 1)
/-- Every window 64-1,023 is CLOSED. -/
def State.winsClosed (s : State) : Bool :=
  (List.range 960).all fun i => s.fld (.winStat (64 + i)) F.winStatState == 0
/-- Entry time and wake time of an idle state in ns (R436), entry and wake together (R439), dwell. -/
def idleEntryNs : Nat → Nat
  | 0 => 0 | 1 => 50 | 2 => 5000 | 3 => 200000 | _ => 10000000
def idleBoundNs : Nat → Nat
  | 0 => 0 | 1 => 250 | 2 => 25000 | 3 => 2200000 | _ => 90000000
def idleDwellNs : Nat → Nat
  | 0 => 0 | 1 => 2000 | 2 => 200000 | 3 => 20000000 | _ => 800000000
/-- TOL and R438 permit an idle state, an idle device presumed. -/
def State.permits (s : State) (st : Nat) : Bool :=
  decide (idleBoundNs st ≤ s.fld .hifWakeTol F.hifWakeTolTol) &&
    (decide (st < 2) || (s.winsClosed && s.fld .chipNode F.chipNodeRole == 0)) &&
    (decide (st < 4) || s.bit .hifWakeTol F.hifWakeTolAllowI4)
/-- The deepest state that TOL and R438 permit now: DEEPEST. -/
def State.deepest (s : State) : Nat :=
  if s.isIdle then (List.range 5).foldl (fun d st => if s.permits st then st else d) 0 else 0
/-- What is lost as a state is entered (R436). -/
def idleLoss (st : Nat) (s : State) : State :=
  let s := levelsZero s
  let s := s.doIf (decide (2 ≤ st)) fun s => coresLost (decide (3 ≤ st)) (s.doIf (decide (3 ≤ st)) cachesLost)
  s.doIf (decide (4 ≤ st)) fun s =>
    let s := ((List.range 14) ++ [16, 17, 18, 19]).foldl (fun s p => linkDown p s) s
    let s := (s.dropMem isOrangery).dropRegs fun x => !standbyReg x
    { s with cores := [], commits := [], tsq := [], tsFree := [], heldLow := [], latchHigh := [] }
/-- IDLE_ENTRY (R439): the dwell of the next deeper permitted state has passed. -/
def idleEntry (st : Nat) (s : State) : State :=
  if st = s.fld .hifIdle F.hifIdleState + 1 ∧ st ≤ s.deepest then
    let s := s.advance (s.power.idleSince + idleDwellNs st * fabTicks)
    let s := s.advance (s.now + idleEntryNs st * fabTicks)
    (idleLoss st (s.setFld .hifIdle F.hifIdleState st)).msix 197
  else s
/-- HIF_WAKE_TOL_WRITE (R440): a TOL that excludes the present state wakes the device. -/
def wakeTolWrite (v : Nat) (s : State) : State :=
  let s := s.plainWrite .hifWakeTol v
  s.doIf (!s.permits (s.fld .hifIdle F.hifIdleState)) wake

/-! ### The commands -/

/-- REF_LOSS (R420). -/
def execRefLoss (s : State) : Host.Outcome State Fault Refusal := run refLoss s
/-- PSTATE_SWITCH (R423). -/
def execPstateSwitch (n : CoreId) (s : State) : Host.Outcome State Fault Refusal := run (pstateSwitch n) s
/-- VCORE_RAISE (R425). -/
def execVcoreRaise (mv : Nat) (s : State) : Host.Outcome State Fault Refusal := run (vcoreRaise mv) s
/-- VCORE_RAISE_TIMEOUT (R425). -/
def execVcoreRaiseTimeout (s : State) : Host.Outcome State Fault Refusal := run vcoreTimeout s
/-- BELLOWS_TICK (R427). -/
def execBellowsTick (watts : Nat) (temps est : List Nat) (s : State) : Host.Outcome State Fault Refusal :=
  run (bellowsTick watts temps est) s
/-- BLW_CAP_WRITE (R428): it answers in every idle state. -/
def execBlwCapWrite (_r : Requester) (v : Word) (s : State) : Host.Outcome State Fault Refusal :=
  run (blwCapWrite v.toNat) s
/-- FAST_THROTTLE_ASSERT (R431). -/
def execFastThrottleAssert (s : State) : Host.Outcome State Fault Refusal := runAlways ftAssert s
/-- FAST_THROTTLE_DEASSERT (R432). -/
def execFastThrottleDeassert (s : State) : Host.Outcome State Fault Refusal := runAlways ftDeassert s
/-- FT_HOLD_EXPIRY (R432). -/
def execFtHoldExpiry (s : State) : Host.Outcome State Fault Refusal := run ftHoldExpiry s
/-- THERMAL_TRIP (R435). -/
def execThermalTrip (sensor : Fin 64) (temp : BitVec 16) (s : State) : Host.Outcome State Fault Refusal :=
  run (tripAt sensor temp.toNat) s
/-- IDLE_ENTRY (R439). -/
def execIdleEntry (st : Fin 5) (s : State) : Host.Outcome State Fault Refusal := run (idleEntry st) s

/-- HIF_IDLE_WAKE (R440). -/
def execHifIdleWake (s : State) : Host.Outcome State Fault Refusal := run wake s
/-- HIF_WAKE_TOL_WRITE (R440). -/
def execHifWakeTolWrite (v : Word) (s : State) : Host.Outcome State Fault Refusal :=
  run (wakeTolWrite v.toNat) s

end Sys2Proof.Machine
end

