-- ==== Sys2Proof/Machine/Hif.lean ====
section
/-! DEFINITION. The host interface (spec/14, R444-R462): doorbells, queue pairs, completion entries,
MSI-X coalescing, DMA channels, the BAR2 aperture, progress channels, D3hot. -/

namespace Sys2Proof.Machine

/-- SOURCE of a queue pair and of a DMA channel (R484). -/
def qSrc (q : Nat) : Nat := srcOf 8 q 0
def dmaSrc (c : Nat) : Nat := srcOf 8 c 1
/-- SOURCE of Virhan. -/
def virSrc : Nat := srcOf 12 0 0

/-- A decode failure (R16, R488): the failing word, its index, the lowest bit of the field. -/
def wordErr (src code word idx low : Nat) : Err :=
  { src := src, code := code, detail := [(32, 8, word), (40, 1, idx), (41, 1, low)] }

/-! ### When the function answers (R445, R463, R465) -/

/-- The device is ready (R463). -/
def State.ready (s : State) : Bool :=
  s.fld .hifBoot F.hifBootStage == 8 && s.fld .hifBoot F.hifBootState == 1
/-- The device runs the ROM's recovery service (R466). -/
def State.recovery (s : State) : Bool := s.fld .hifBoot F.hifBootState == 3
/-- Accesses to the HIF and CHIP blocks are served: from stage 2 on, with the link up, outside D3hot. -/
def State.hifServed (s : State) : Bool :=
  decide (2 ≤ s.fld .hifBoot F.hifBootStage) && !s.hif.d3 && !s.chip.pciDown
/-- An access fails: Unsupported Request (1) or Completer Abort (2). -/
def noAnswer (kind : Nat) (s : State) : State := { s with reply := some ⟨0, kind⟩ }
/-- A command of the host to the HIF block. -/
def runHif (f : State → State) (s : State) : Host.Outcome State Fault Refusal :=
  run (fun s => if s.hifServed then f s else noAnswer 1 s) s

/-- A write by a requester to the HIF or CHIP block: the host's needs the function to answer. -/
def runReg (r : Requester) (f : State → State) (s : State) : Host.Outcome State Fault Refusal :=
  run (fun s => if r == .host && !s.hifServed then noAnswer 1 s else f s) s

/-! ### Reading the progress channels (R462) -/

/-- PROG_STAT_READ (R462): the read latches POS for the next read of HIF_PROG_POS. -/
def progStatRead (i : Nat) (s : State) : State :=
  { s with
    hif := { s.hif with posLatch := tabSet s.hif.posLatch i (s.word (.hifProgPos i)) }
    reply := some ⟨s.word (.hifProgStat i), 0⟩ }
/-- A read of HIF_PROG_POS: the latched value, once. -/
def progPos (s : State) (i : Nat) : Nat := (tabFind s.hif.posLatch i).getD (s.word (.hifProgPos i))
def progPosRead (i : Nat) (s : State) : State :=
  { s with hif := { s.hif with posLatch := tabDel s.hif.posLatch i } }

/-! ### Queue pairs (R452-R454) -/

/-- The record of a queue pair. -/
def State.qp (s : State) (q : Nat) : Qp := tabGet {} s.hif.qps q
/-- Replace the record of a queue pair. -/
def State.setQp (s : State) (q : Nat) (x : Qp) : State :=
  { s with hif := { s.hif with qps := tabSet s.hif.qps q x } }
/-- Change the record of a queue pair. -/
def State.modQp (s : State) (q : Nat) (f : Qp → Qp) : State := s.setQp q (f (s.qp q))
/-- STATE of a pair: 0 DISABLED, 1 ACTIVE, 2 HALTED, 3 DRAINING. -/
def State.qState (s : State) (q : Nat) : Nat := s.fld (.hifQStat q) F.hifQStatState
def State.setQState (s : State) (q st : Nat) : State := s.setFld (.hifQStat q) F.hifQStatState st
/-- Commands fetched and not yet posted. -/
def Qp.inflight (x : Qp) : Nat := x.cmds.length + (x.out.filter CqEntry.counted).length
/-- Entries that the device holds for posting, of all pairs (R445). -/
def State.heldEntries (s : State) : Nat := s.hif.qps.foldl (fun a q => a + q.2.out.length) 0
/-- In D3hot with 1,024 entries held, no further command completes or starts (R445). -/
def State.d3Full (s : State) : Bool := s.hif.d3 && decide (1024 ≤ s.heldEntries)

/-- A submission queue halted by TASK_HANG that RESTART has not cleared within 1 s calls for rung 2
(R503). -/
def hangSweep (s : State) : State :=
  s.hif.qps.foldl (fun s q =>
    match q.2.hungAt with
    | some t => if t + 1000000 * usTicks ≤ s.now
        then (s.modQp q.1 fun x => { x with hungAt := none }).advise 2 ecTaskHang else s
    | none => s) s
/-- A queue halts (R349, R454). -/
def haltQueue (q code : Nat) (s : State) : State :=
  if s.qState q = 1 then
    let s := (s.setQState q 2).setFld (.hifQStat q) F.hifQStatCode code
    s.modQp q fun x => { x with hungAt := if code = ecTaskHang then some s.now else none }
  else s

/-! ### Words of a command (R341) -/

/-- Word i of a command. -/
def WcsCmd.w (c : WcsCmd) (i : Nat) : Nat := (c.ws.getD i 0).toNat
def WcsCmd.op (c : WcsCmd) : Nat := bitsOf (c.w 0) 63 56
def WcsCmd.stepEnd (c : WcsCmd) : Bool := bitAt (c.w 0) 55
def WcsCmd.trace (c : WcsCmd) : Bool := bitAt (c.w 0) 54
def WcsCmd.intr (c : WcsCmd) : Bool := bitAt (c.w 0) 53
def WcsCmd.quiet (c : WcsCmd) : Bool := bitAt (c.w 0) 52
def WcsCmd.tag (c : WcsCmd) : Nat := bitsOf (c.w 0) 47 32
def WcsCmd.cevEn (c : WcsCmd) : Bool := bitAt (c.w 0) 31
def WcsCmd.cevent (c : WcsCmd) : Nat := bitsOf (c.w 0) 27 16
/-- The command has completed. -/
def WcsCmd.done (c : WcsCmd) : Bool := c.fin.isSome

/-! ### Command events (R349) and completion (R342, R347) -/

/-- A command event gains a value, modulo 2^64. -/
def addEvent (e v : Nat) (s : State) : State :=
  { s with cevents := tabSet s.cevents e (tabGet 0 s.cevents e + BitVec.ofNat 64 v) }
/-- Value of a command event. -/
def State.cevent (s : State) (e : Nat) : Nat := (tabGet 0 s.cevents e).toNat
/-- The entry that a completed command leaves; none for a QUIET command below status 2. -/
def entryOf (q : Nat) (c : WcsCmd) (e : WcsEnd) : List CqEntry :=
  if c.quiet && decide (e.status < 2) then []
  else [⟨c.tag, e.status, e.code, q, e.detail, c.intr, true⟩]
/-- Completed commands at the head of a queue, up to one that closes a step, with room for k entries. -/
def takeDone (q : Nat) : Nat → List WcsCmd → List CqEntry × List WcsCmd
  | _, [] => ([], [])
  | 0, cs => ([], cs)
  | k + 1, c :: cs =>
    match c.fin with
    | none => ([], c :: cs)
    | some e =>
      if c.stepEnd then ([], c :: cs)
      else
        let (es, cs) := takeDone q k cs
        (entryOf q c e ++ es, cs)
/-- Entries of completed commands take their places, in submission order (R347). -/
def sweep (q : Nat) (s : State) : State :=
  let x := s.qp q
  let room := if s.hif.d3 then 1024 - s.heldEntries else x.cmds.length
  let (es, cs) := takeDone q room x.cmds
  s.setQp q { x with cmds := cs, out := x.out ++ es }
/-- Change a command of a queue. -/
def State.modCmd (s : State) (q id : Nat) (f : WcsCmd → WcsCmd) : State :=
  s.modQp q fun x => { x with cmds := x.cmds.map fun c => if c.id = id then f c else c }
/-- A command of a queue. -/
def State.cmd? (s : State) (q id : Nat) : Option WcsCmd := (s.qp q).cmds.find? fun c => c.id == id
/-- A command completes (R342): its event, the advice of R503, its place in the queue. -/
def endCmd (q id : Nat) (e : WcsEnd) (s : State) : State :=
  match s.cmd? q id with
  | none => s
  | some c =>
    if c.done then s
    else
      let s := s.modCmd q id fun c => { c with fin := some e, started := true }
      let s := s.modQp q fun x => { x with slots := x.slots ++ c.slots.filter fun n => !x.slots.contains n }
      let s := s.doIf c.cevEn (addEvent c.cevent 1)
      let s := s.doIf ((e.status == 2 || e.status == 3) && rung1Codes.contains e.code) (·.advise 1 e.code)
      sweep q s
/-- The mark of a command in which NAN_SEEN arose (R36): it has no code. -/
def nanMark : Nat := 2 ^ 72
/-- The first information event of a command: its code, with the DETAIL of its record above it. -/
def noteInfo (q id code detail : Nat) (s : State) : State :=
  s.modCmd q id fun c => if c.info = 0 ∨ c.info = nanMark then { c with info := code + 256 * (detail % 2 ^ 64) } else c
/-- NAN_SEEN in a command. -/
def noteNan (q id : Nat) (s : State) : State :=
  s.modCmd q id fun c => if c.info = 0 then { c with info := nanMark } else c
/-- A command has done its work: status 2 when it wrote poison, 1 after an information event (R342,
R482). -/
def finishCmd (q id : Nat) (s : State) : State :=
  match s.cmd? q id with
  | none => s
  | some c => endCmd q id ⟨if c.poison then 2 else if c.info ≠ 0 then 1 else 0, c.info % 256, c.info / 256 % 2 ^ 64⟩ s
/-- The DETAIL of an error record that a completion entry carries: its first eight bytes. -/
def Err.word (e : Err) : Nat := fieldAt (detailBytes e.detail) 0 8
/-- A command fails: the record is raised, and the command completes with status 3. -/
def failCmd (q id : Nat) (e : Err) (s : State) : State := endCmd q id ⟨3, e.code, e.word⟩ (s.raise e)

/-! ### Doorbells (R451, R455) -/

/-- A discarded doorbell (R455). -/
def badDoorbell (q v : Nat) (s : State) : State :=
  (s.setFld (.hifQStat q) F.hifQStatDberr 1).raise (wordErr (qSrc q) ecDescRange v 0 0)
/-- A write to BAR4 wakes the device (R440); in D3hot it is discarded (R445). -/
def runDoorbell (f : State → State) (s : State) : Host.Outcome State Fault Refusal :=
  run (fun s => if s.hifServed then f (wake s) else s) s
/-- SQ_DOORBELL (R455). -/
def sqDoorbell (q v : Nat) (s : State) : State :=
  let s := hangSweep s
  if s.qState q = 0 ∨ s.fld (.hifQCfg q) F.hifQCfgSqSize ≤ v then badDoorbell q v s
  else s.modQp q fun x => { x with tail := v }
/-- CQ_DOORBELL (R455): the new head lies among the entries posted and not yet released. -/
def cqDoorbell (q v : Nat) (s : State) : State :=
  let n := s.fld (.hifQCfg q) F.hifQCfgCqSize
  let head := (s.qp q).cqHead
  let tail := s.fld (.hifQStat q) F.hifQStatCqTail
  if s.qState q = 0 ∨ n ≤ v ∨ (tail + n - head) % n < (v + n - head) % n then badDoorbell q v s
  else s.modQp q fun x => { x with cqHead := v }
/-- DMA_DOORBELL (R455 for a channel). -/
def dmaDoorbell (c v : Nat) (s : State) : State :=
  if s.fld (.dmaStat c) F.dmaStatState = 0 ∨ s.fld (.dmaCfg c) F.dmaCfgSize ≤ v then
    s.raise (wordErr (dmaSrc c) ecDescRange v 0 0)
  else { s with hif := { s.hif with dmaTail := tabSet s.hif.dmaTail c v } }

/-! ### Fetching (R347, R452, R453) -/

/-- A queue has a slot to fetch and room for its command. -/
def State.canFetch (s : State) (q : Nat) : Bool :=
  s.qState q == 1 && (s.qp q).tail != s.fld (.hifQStat q) F.hifQStatSqHead &&
    decide ((s.qp q).inflight < 16) && !s.hif.d3
/-- The queue whose turn it is (R453): the present one while its weight lasts, else the next. -/
def State.fetchTurn (s : State) : Option Nat :=
  if s.hif.left ≠ 0 && s.canFetch s.hif.turn then some s.hif.turn
  else ((List.range 64).map fun i => (s.hif.turn + 1 + i) % 64).find? s.canFetch
/-- WEIGHT of a queue; 0 acts as 1. -/
def State.weight (s : State) (q : Nat) : Nat := max 1 (s.fld (.hifQCfg q) F.hifQCfgWeight)
/-- The words of the slot at an index of a submission queue. -/
def State.slotWords (s : State) (q i : Nat) : List Word :=
  let a := s.fld (.hifSqBase q) F.hifSqBaseAddr * 4096 + i * 64
  (List.range 8).map fun w => BitVec.ofNat 64 (leNat (memRead s.host (a + 8 * w) 8))
/-- A new command enters a queue. -/
def addCmd (q : Nat) (ws : List Word) (fin : Option WcsEnd) (s : State) : State :=
  let id := s.hif.nextCmd
  let s := { s with hif := { s.hif with nextCmd := id + 1 } }
  s.modQp q fun x => { x with cmds := x.cmds ++ [{ id := id, ws := ws, fin := fin }] }
/-- The opcodes of R344, with COLLECTIVE's OPs (R396), that name a command. -/
def knownOp (c : WcsCmd) : Bool :=
  let o := c.op
  if o = 0x10 then decide (bitsOf (c.w 3) 35 32 ≤ 6) || bitsOf (c.w 3) 35 32 == 15
  else decide (o ≤ 0x08) || (decide (0x11 ≤ o) && decide (o ≤ 0x13)) || (decide (0x18 ≤ o) && decide (o ≤ 0x1B))
/-- A command with a reserved opcode or OP fails at decode (R344, R396). -/
def rejectUnknown (q : Nat) (s : State) : State :=
  match (s.qp q).cmds.getLast? with
  | some c => if knownOp c then s else
      failCmd q c.id (if c.op = 0x10 then wordErr (qSrc q) ecDescFormat (c.w 3) 3 32
        else wordErr (qSrc q) ecDescFormat (c.w 0) 0 56) s
  | none => s
/-- SQ_FETCH (R453, R454): the next slot of the queue whose turn it is. A slot whose fetch fails
completes with status 2, its TAG unknown, and halts its queue. -/
def sqFetch (q : Nat) (ok : Bool) (s : State) : State :=
  if s.fetchTurn = some q ∧ s.ready then
    let head := s.fld (.hifQStat q) F.hifQStatSqHead
    let left := if s.hif.turn = q ∧ s.hif.left ≠ 0 then s.hif.left - 1 else s.weight q - 1
    let s := { s with hif := { s.hif with turn := q, left := left } }
    let ws := s.slotWords q head
    let s := s.setFld (.hifQStat q) F.hifQStatSqHead ((head + 1) % s.fld (.hifQCfg q) F.hifQCfgSqSize)
    if ok then rejectUnknown q (addCmd q ws none s)
    else
      let (v, s) := s.free 16
      let s := addCmd q (BitVec.ofNat 64 (v * 2 ^ 32) :: List.replicate 7 0) (some ⟨2, 0, 0⟩) s
      sweep q (haltQueue q 0 s)
  else s

/-! ### Enabling, disabling, ABORT, RESTART (R453, R454) -/

/-- The pair has no command and no entry left: DRAINING becomes DISABLED. -/
def drainDone (q : Nat) (s : State) : State :=
  if s.qState q = 3 ∧ (s.qp q).cmds = [] ∧ (s.qp q).out = [] then s.setQState q 0 else s
/-- ABORT: fetched commands that have not started, and every slot up to the tail, complete ABORTED. -/
def qAbort (q : Nat) (s : State) : State :=
  if s.qState q = 0 then s
  else
    let ids := ((s.qp q).cmds.filter fun c => !c.started && !c.done).map WcsCmd.id
    let head := s.fld (.hifQStat q) F.hifQStatSqHead
    let n := s.fld (.hifQCfg q) F.hifQCfgSqSize
    let k := ((s.qp q).tail + n - head) % n
    let first := s.hif.nextCmd
    let s := (List.range k).foldl (fun s i => addCmd q (s.slotWords q ((head + i) % n)) none s) s
    let s := s.setFld (.hifQStat q) F.hifQStatSqHead (s.qp q).tail
    (ids ++ (List.range k).map (first + ·)).foldl (fun s id => endCmd q id ⟨4, 0, 0⟩ s) s
/-- RESTART: HALTED to ACTIVE. -/
def qRestart (q : Nat) (s : State) : State :=
  let s := hangSweep s
  if s.qState q = 2 then
    ((s.setQState q 1).setFld (.hifQStat q) F.hifQStatCode 0).modQp q fun x => { x with hungAt := none }
  else s
/-- Setting EN (R454). -/
def qEnable (q v : Nat) (s : State) : State :=
  let bad (f : Fld) := s.fld (.hifQCfg q) f < 2 || 65536 < s.fld (.hifQCfg q) f
  if s.ready = false ∨ s.qState q ≠ 0 then s.conflict (qSrc q) (regAddr (.hifQCtl q)) v
  else if bad F.hifQCfgSqSize || bad F.hifQCfgCqSize || decide (191 < s.fld (.hifQCfg q) F.hifQCfgVec) then
    s.refuseWrite (qSrc q) (regAddr (.hifQCtl q)) v ecDescRange
  else
    let s := (s.setFld (.hifQCtl q) F.hifQCtlEn 1).setQp q {}
    let s := (s.setFld (.hifQStat q) F.hifQStatSqHead 0).setFld (.hifQStat q) F.hifQStatCqTail 0
    let s := (s.setFld (.hifQStat q) F.hifQStatCode 0).setFld (.hifQStat q) F.hifQStatPhase 1
    s.setQState q 1
/-- Clearing EN (R454): the pair drains. -/
def qDisable (q : Nat) (s : State) : State :=
  let s := s.setFld (.hifQCtl q) F.hifQCtlEn 0
  if s.qState q = 1 ∨ s.qState q = 2 then s.setQState q 3 else s
/-- A write of HIF_Q_CTL: EN first, then ABORT and RESTART. -/
def qCtlWrite (q v : Nat) (s : State) : State :=
  let en := s.bit (.hifQCtl q) F.hifQCtlEn
  if bitAt v 0 && !en && (!s.ready || s.qState q != 0) then s.conflict (qSrc q) (regAddr (.hifQCtl q)) v
  else
    let s := if bitAt v 0 && !en then qEnable q v s else if !bitAt v 0 && en then qDisable q s else s
    (s.doIf (bitAt v 3) (qAbort q)).doIf (bitAt v 2) (qRestart q)
/-- A write of a pair's BASE or CFG registers (R454). -/
def qConfigWrite (q : Nat) (r : Reg) (v : Nat) (s : State) : State :=
  if s.qState q = 0 then s.plainWrite r v else s.conflict (qSrc q) (regAddr r) v

/-! ### Posting (R456-R459) -/

/-- One more entry would reach the host's head (R456). -/
def State.cqFull (s : State) (q : Nat) : Bool :=
  let n := s.fld (.hifQCfg q) F.hifQCfgCqSize
  decide ((s.fld (.hifQStat q) F.hifQStatCqTail + 1) % n = (s.qp q).cqHead)
/-- The vector of a CQ is raised (R459). -/
def raiseCq (q : Nat) (s : State) : State :=
  (s.modQp q fun x => { x with since := 0, firstAt := none }).msix (s.fld (.hifQCfg q) F.hifQCfgVec)
/-- The 16 bytes of a completion entry (R456). -/
def cqBytes (e : CqEntry) (sqhd phase : Nat) : List Byte :=
  natLe 2 e.tag ++ natLe 1 e.status ++ natLe 1 e.code ++ natLe 2 sqhd ++ natLe 1 e.source ++ natLe 1 phase ++
    natLe 8 e.detail
/-- CQ_ENTRY_POST (R456, R459): the oldest entry that waits. -/
def cqPost (q : Nat) (s : State) : State :=
  match (s.qp q).out with
  | [] => s
  | e :: rest =>
    if s.cqFull q || s.hif.d3 || s.qState q == 0 then s
    else
      let st := Reg.hifQStat q
      let tail := s.fld st F.hifQStatCqTail
      let phase := s.fld st F.hifQStatPhase
      let a := s.fld (.hifCqBase q) F.hifCqBaseAddr * 4096 + tail * 16
      let s := { s with host := memWrite s.host a (cqBytes e (s.fld st F.hifQStatSqHead) phase) }
      let wrap := decide (s.fld (.hifQCfg q) F.hifQCfgCqSize ≤ tail + 1)
      let s := s.setFld st F.hifQStatCqTail (if wrap then 0 else tail + 1)
      let s := s.doIf wrap fun s => s.setFld st F.hifQStatPhase (1 - phase)
      let now := s.now
      let s := s.modQp q fun x => { x with out := rest, since := x.since + 1, firstAt := some (x.firstAt.getD now) }
      let n := s.fld (.hifQCfg q) F.hifQCfgCoalN
      s.doIf (e.intr || (decide (n ≠ 0) && decide (n ≤ (s.qp q).since))) (raiseCq q)
/-- COAL_TIMER (R459): COAL_US after the first entry that no raise has told of. -/
def coalTimer (q : Nat) (s : State) : State :=
  let us := s.fld (.hifQCfg q) F.hifQCfgCoalUs
  match (s.qp q).firstAt with
  | none => s
  | some t => if us = 0 then s else raiseCq q (s.advance (t + us * usTicks))
/-- HIF_Q_POST (R457): a user entry; a core's write waits while the CQ is full. -/
def qPost (r : Requester) (q v : Nat) (s : State) : State :=
  let fromCore := match r with
    | .core _ => true
    | _ => false
  if s.qState q ≠ 1 then s.conflict (qSrc q) (regAddr (.hifQPost q)) v
  else if fromCore && (s.cqFull q || s.d3Full) then s
  else s.modQp q fun x => { x with out := x.out ++ [⟨0xFFFF, 0, 0, q + 128, v, false, false⟩] }

/-! ### DMA channels (R460) -/

/-- A write of HIF_DMA_CFG: setting and clearing EN, else the rule of R454. -/
def dmaCfgWrite (c v : Nat) (s : State) : State :=
  let r := Reg.dmaCfg c
  let sz := F.dmaCfgSize.of v
  let off := s.fld (.dmaStat c) F.dmaStatState = 0
  if off ∧ bitAt v 0 = false then s.plainWrite r v
  else if off then
    if s.ready = false ∨ s.qState (F.dmaCfgQp.of v) ≠ 1 then s.conflict (dmaSrc c) (regAddr r) v
    else if sz < 2 ∨ 65536 < sz then s.refuseWrite (dmaSrc c) (regAddr r) v ecDescRange
    else
      let s := (s.plainWrite r v).setWord (.dmaStat c) 0
      let s := { s with hif := { s.hif with dmaTail := tabDel s.hif.dmaTail c } }
      s.setFld (.dmaStat c) F.dmaStatState 1
  else if bitAt v 0 = false then
    (s.setFld r F.dmaCfgEn 0).setFld (.dmaStat c) F.dmaStatState 0
  else s.conflict (dmaSrc c) (regAddr r) v
/-- A write of HIF_DMA_BASE. -/
def dmaBaseWrite (c v : Nat) (s : State) : State :=
  if s.fld (.dmaStat c) F.dmaStatState = 0 then s.plainWrite (.dmaBase c) v
  else s.conflict (dmaSrc c) (regAddr (.dmaBase c)) v
/-- What a host access or descriptor reaches at a device address (R448, R460): 0 memory that serves
it, 1 a directory region, 2 anything else. -/
def State.reach (s : State) (da len : Nat) : Nat :=
  let gone := match placeOf da with
    | .cm n _ => s.fld (.coreMap n) F.coreMapState == 2
    | _ => false
  if s.inDir da len then 1
  else if decide (da + max len 1 ≤ regionEnd da) && !gone then 0
  else 2
/-- The code with which a descriptor fails, or 0. -/
def dmaFault (s : State) (d : List Byte) : Nat :=
  let da := fieldAt d 8 8
  let len := fieldAt d 16 4
  if 2 ^ 48 ≤ da ∨ 8 ≤ fieldAt d 22 1 ∨ fieldAt d 23 8 ≠ 0 ∨ fieldAt d 31 1 ≠ 0 then ecDescFormat
  else if 0x800000000000 ≤ da then ecDescFormat
  else if len = 0 then 0
  else if da % 64 ≠ 0 ∨ fieldAt d 0 8 % 64 ≠ 0 ∨ len % 64 ≠ 0 ∨ s.reach da len ≠ 0 then ecDescRange
  else 0
/-- Units read from host memory; the listed ones failed and come poisoned, their bytes open. -/
def hostUnits (a : Nat) (lost : List Nat) : Nat → State → List UnitP × State
  | 0, s => ([], s)
  | k + 1, s =>
    let (u, s) := if lost.contains 0 then s.lostUnit else (⟨memRead s.host a 64, false⟩, s)
    let (us, s) := hostUnits (a + 64) ((lost.filter (· != 0)).map (· - 1)) k s
    (u :: us, s)
/-- The transfer of a descriptor: true when it moved poison. -/
def dmaMove (d : List Byte) (lost : List Nat) (s : State) : Bool × State :=
  let h := fieldAt d 0 8
  let da := fieldAt d 8 8
  let k := fieldAt d 16 4 / 64
  let out := bitAt (fieldAt d 22 1) 0
  let (s, bad) := bgReach 14 da (64 * k) (!out) s
  if bad then (false, s)
  else
    let (us, s) := if out then s.fetchN da k else hostUnits h lost k s
    let s := if out then { s with host := memWrite s.host h (bytesOf us) } else s.putUnits da us
    (us.any UnitP.poison, s)
/-- DMA_DESCRIPTOR (R460): the next descriptor of the ring; `lost` names the units of host memory
whose read fails. Its entry goes to the CQ of its pair. -/
def dmaDescriptor (c : Nat) (lost : List Nat) (s : State) : State :=
  let head := s.fld (.dmaStat c) F.dmaStatHead
  let n := s.fld (.dmaCfg c) F.dmaCfgSize
  if s.fld (.dmaStat c) F.dmaStatState ≠ 1 ∨ head = tabGet 0 s.hif.dmaTail c ∨ s.hif.d3 then s
  else
    let d := memRead s.host (s.fld (.dmaBase c) F.dmaBaseAddr * 4096 + head * 32) 32
    let s := s.setFld (.dmaStat c) F.dmaStatHead ((head + 1) % n)
    let code := dmaFault s d
    let (p, s) := if code = 0 then dmaMove d lost s else (false, s)
    let s := s.doIf (code ≠ 0) fun s =>
      let s := s.raise (wordErr (dmaSrc c) code (fieldAt d 8 8) 1 0)
      (s.setFld (.dmaStat c) F.dmaStatState 2).setFld (.dmaStat c) F.dmaStatCode code
    let q := s.fld (.dmaCfg c) F.dmaCfgQp
    let e : CqEntry := ⟨fieldAt d 20 2, if code ≠ 0 then 3 else if p then 2 else 0, code, c + 64,
      if code = 0 then fieldAt d 16 4 else 0, bitAt (fieldAt d 22 1) 1, false⟩
    if s.qState q = 0 then s else s.modQp q fun x => { x with out := x.out ++ [e] }

/-! ### The BAR2 aperture (R447-R449) -/

/-- HIF_BAR2_MAP_WRITE (R447, R466): BASE[11] set is discarded; in recovery only 0x020 is admitted. -/
def bar2MapWrite (v : Nat) (s : State) : State :=
  let b := F.hifBar2MapBase.of v
  if bitAt b 11 then s.refuseWrite (qSrc 0) (regAddr .hifBar2Map) v ecDescFormat
  else if s.recovery ∧ b ≠ 0x020 then s.conflict (qSrc 0) (regAddr .hifBar2Map) v
  else s.plainWrite .hifBar2Map v
/-- The aperture is open to an address (R465, R466). -/
def State.bar2Open (s : State) (da : Nat) : Bool :=
  s.ready || (s.recovery && isOrangery da)
/-- BAR2_ACCESS (R236, R448): served, discarded or refused by what it reaches; a read that a shadow rule suppresses
is aborted (R246; assumption 73, DESIGN CHOICE). A write with EP set poisons every unit that it touches. -/
def bar2Access (x len : Nat) (data : List Byte) (write ep : Bool) (s : State) : State :=
  let da := s.fld .hifBar2Map F.hifBar2MapBase * 2 ^ 36 + x
  let l := if write then data.length else len
  if 2 ^ 36 < x + l ∨ s.bar2Open da = false then noAnswer 1 s
  else
    let s := wake s
    if viewServes s da l then viewAccess da l data write ep s
    else match s.reach da l, write with
    | 0, true => bgWrite 14 da data (List.replicate (ceilDiv (da % 64 + l) 64) ep) s
    | _, true => s
    | 0, false =>
      let (s, bad) := bgReach 14 da l false s
      if bad then noAnswer 2 s
      else
        let (us, s) := s.fetchN (da / 64 * 64) (ceilDiv (da % 64 + l) 64)
        { s with reply := some ⟨leNat (((bytesOf us).drop (da % 64)).take l), b2n (us.any UnitP.poison) * 3⟩ }
    | 1, false => noAnswer 2 s
    | _, false => noAnswer 1 s

/-! ### D3hot (R445) -/

/-- Pending vectors that are not masked are sent (R458). -/
def sendPending (s : State) : State :=
  (List.range 256).foldl (fun s v =>
    if bitAt (s.word (.msixPba (v / 64))) (v % 64) && !bitAt (s.word (.msixTable (2 * v + 1))) 32 && !s.hif.d3 then
      let s := s.setWord (.msixPba (v / 64)) (s.word (.msixPba (v / 64)) - 2 ^ (v % 64))
      { s with msixSent := s.msixSent ++ [v] }
    else s) s
/-- A write of the MSI-X table (R458): a vector that is unmasked while it is pending is sent. -/
def msixTableWrite (i v : Nat) (s : State) : State := sendPending (s.plainWrite (.msixTable i) v)
/-- Every entry that a pair holds is posted, as far as its CQ has room. -/
def postAll (q : Nat) (s : State) : State := (s.qp q).out.foldl (fun s _ => cqPost q s) s
/-- D0_RETURN (R445): held entries are posted in order and their vectors raised. -/
def d0Return (s : State) : State :=
  if s.hif.d3 then
    let s := sendPending { s with hif := { s.hif with d3 := false } }
    (List.range 64).foldl (fun s q => postAll q (sweep q s)) s
  else s

/-! ### The commands -/

/-- SQ_DOORBELL (R455). -/
def execSqDoorbell (q : QpId) (v : W32) (s : State) : Host.Outcome State Fault Refusal :=
  runDoorbell (sqDoorbell q v.toNat) s
/-- CQ_DOORBELL (R455). -/
def execCqDoorbell (q : QpId) (v : W32) (s : State) : Host.Outcome State Fault Refusal :=
  runDoorbell (cqDoorbell q v.toNat) s
/-- DMA_DOORBELL (R455). -/
def execDmaDoorbell (c : Fin 8) (v : W32) (s : State) : Host.Outcome State Fault Refusal :=
  runDoorbell (dmaDoorbell c v.toNat) s
/-- SQ_FETCH (R453). -/
def execSqFetch (q : QpId) (ok : Bool) (s : State) : Host.Outcome State Fault Refusal :=
  run (fun s => if s.fld .hifIdle F.hifIdleState = 0 then sqFetch q ok s else s) s
/-- CQ_ENTRY_POST (R456). -/
def execCqEntryPost (q : QpId) (s : State) : Host.Outcome State Fault Refusal := run (cqPost q) s
/-- COAL_TIMER (R459). -/
def execCoalTimer (q : QpId) (s : State) : Host.Outcome State Fault Refusal := run (coalTimer q) s
/-- HIF_Q_POST (R457). -/
def execHifQPost (r : Requester) (q : QpId) (v : Word) (s : State) : Host.Outcome State Fault Refusal :=
  runReg r (qPost r q v.toNat) s
/-- HIF_Q_ENABLE (R454). -/
def execHifQEnable (q : QpId) (s : State) : Host.Outcome State Fault Refusal := runHif (qCtlWrite q 1) s
/-- HIF_Q_DISABLE (R454). -/
def execHifQDisable (q : QpId) (s : State) : Host.Outcome State Fault Refusal := runHif (qCtlWrite q 0) s
/-- HIF_Q_DRAIN_DONE (R454). -/
def execHifQDrainDone (q : QpId) (s : State) : Host.Outcome State Fault Refusal := run (drainDone q) s
/-- HIF_Q_ABORT (R453): a write of ABORT that keeps EN. -/
def execHifQAbort (q : QpId) (s : State) : Host.Outcome State Fault Refusal :=
  runHif (fun s => qCtlWrite q (8 + s.fld (.hifQCtl q) F.hifQCtlEn) s) s
/-- HIF_Q_RESTART (R453): a write of RESTART that keeps EN. -/
def execHifQRestart (q : QpId) (s : State) : Host.Outcome State Fault Refusal :=
  runHif (fun s => qCtlWrite q (4 + s.fld (.hifQCtl q) F.hifQCtlEn) s) s
/-- HIF_Q_CONFIG_WRITE (R454). -/
def execHifQConfigWrite (q : QpId) (reg : QcfgReg) (v : Word) (s : State) : Host.Outcome State Fault Refusal :=
  runHif (qConfigWrite q (match reg with
    | .sqBase => .hifSqBase q
    | .cqBase => .hifCqBase q
    | .cfg => .hifQCfg q) v.toNat) s
/-- DMA_ENABLE (R460). -/
def execDmaEnable (c : Fin 8) (v : Word) (s : State) : Host.Outcome State Fault Refusal :=
  runHif (dmaCfgWrite c v.toNat) s
/-- DMA_DESCRIPTOR (R460). -/
def execDmaDescriptor (c : Fin 8) (lost : List Nat) (s : State) : Host.Outcome State Fault Refusal :=
  run (fun s => if s.fld .hifIdle F.hifIdleState = 0 then dmaDescriptor c lost s else s) s
/-- BAR2_ACCESS (R448). -/
def execBar2Access (x len : Nat) (data : List Byte) (write ep : Bool) (s : State) :
    Host.Outcome State Fault Refusal := runHif (bar2Access x len data write ep) s
/-- HIF_BAR2_MAP_WRITE (R447). -/
def execHifBar2MapWrite (r : Requester) (v : Word) (s : State) : Host.Outcome State Fault Refusal :=
  runReg r (bar2MapWrite v.toNat) s
/-- PROG_STAT_READ (R462). -/
def execProgStatRead (i : Fin 16) (s : State) : Host.Outcome State Fault Refusal := runHif (progStatRead i) s
/-- D3HOT_ENTRY (R445). -/
def execD3hotEntry (s : State) : Host.Outcome State Fault Refusal :=
  run (fun s => { s with hif := { s.hif with d3 := true } }) s
/-- D0_RETURN (R445). -/
def execD0Return (s : State) : Host.Outcome State Fault Refusal := run d0Return s

end Sys2Proof.Machine
end

