-- ==== Sys2Proof/Machine/Boot.lean ====
section
/-! DEFINITION. Reset, bring-up and power (spec/14, R463-R467; spec/15, R502; spec/16, R514-R522): what
each rung of recovery keeps and loses, the boot stages, power loss, rails. -/

namespace Sys2Proof.Machine

/-- Milliseconds in root ticks. -/
def msTicks : Nat := 1000 * usTicks

/-! ### Rungs 3 and 4 (R467, R502, R520) -/


/-- What is left of a Glasshouse: the tile heap and the migrations that MEM_INIT clears, and repairs. -/
def ghKept (st : Bool) (g : Gh) : Gh :=
  let r : Gh :=
    { repairQ := g.repairQ, spares := g.spares, remapped := g.remapped, unspared := g.unspared,
      spareBanks := g.spareBanks, tsvs := g.tsvs, wire := g.wire, seq := g.seq }
  if st then { r with heap := g.heap, formatted := g.formatted, migs := g.migs } else r
/-- The debug challenge (R474): new at every reset and after every attempt; its bits are open. -/
def newChallenge (s : State) : State :=
  let (a, s) := s.free 64
  let (b, s) := s.free 64
  (s.setWord (.dbgChal 0) a).setWord (.dbgChal 1) b
/-- The slot that does not boot by default; the slot that is not running. -/
def Chip.other (c : Chip) : Nat := 1 - c.active
def Chip.inactive (c : Chip) : Nat := 1 - c.running
/-- The image of a slot. -/
def Chip.slot (c : Chip) (i : Nat) : Option Image := if i = 0 then c.slotA else c.slotB
/-- Replace the image of a slot. -/
def Chip.setSlot (c : Chip) (i : Nat) (x : Option Image) : Chip :=
  if i = 0 then { c with slotA := x } else { c with slotB := x }
/-- A firmware update in WRITE is cut off: the inactive slot is invalid (R469). -/
def cutUpdate (c : Chip) : Chip :=
  if c.update.isSome then { c.setSlot c.inactive none with update := none } else c
/-- The compute die is reset (R467, R502): with `st` the trained stacks keep their contents in
self-refresh, else all of memory is lost. It stays held until the boot. -/
def dieReset (st : Bool) (rung : Nat) (s : State) : State :=
  let keep := st && (s.chip.refresh || decide (6 ≤ s.fld .hifBoot F.hifBootStage)) &&
    s.fld .hifIdle F.hifIdleState != 4 && !(s.chip.refLost.any fun t => decide (t + 32 * msTicks < s.now))
  let s := s.dropMem fun x => !(keep && isStack x)
  let s := s.dropRegs fun x => !keptReg keep x
  let s := { s with
    time := 0 - BitVec.ofNat 64 (s.now / timeTicks)
    heldLow := [], latchHigh := [], commits := [], cores := [], tsq := [], rotBase := 0, tsFree := [], ports := []
    ghs := s.ghs.map fun g => (g.1, ghKept keep g.2)
    parity := {}, cevents := [], net := {}
    power := { pin := s.power.pin, trip := s.power.trip, frames := s.power.frames, idleSince := s.now }
    hif := {}
    chip := { cutUpdate s.chip with
      held := true, refresh := keep, rung := max rung s.chip.rung, rung1 := [], tests := [], timers := []
      testing := none, logSeq := 0, pciDown := s.chip.extest, ccHalted := [], refLost := none } }
  newChallenge s
/-- PERST_ASSERT (R467): within 1 µs; a shorter pulse than 200 ns is no assertion (R525). -/
def perstAssert (s : State) : State :=
  if s.chip.pwrGood && !s.chip.held then dieReset true 3 (s.advance (s.now + usTicks)) else s
/-- CHIP_RESET_GO (R505): rung 3 with the key 0xB007. -/
def chipResetWrite (v : Nat) (s : State) : State :=
  if bitAt v 0 = false then s
  else if F.chipResetKey.of v = 0xB007 then perstAssert s
  else s.conflict (srcOf 0 0 0) (regAddr .chipReset) v

/-! ### Boot (R463-R466) -/


/-- A stage runs for so many ms; LOAD reports the 16 MiB that it loads (R461, R464). -/
def stageTime (stage ms : Nat) (s : State) : State :=
  let s := setStage stage 0 s
  progAt 0 (stage * 1250 - 1) (stage * 2 ^ 56 + if stage = 2 ∧ ms ≠ 0 then 2 ^ 24 else ms) (s.advance (s.now + ms * msTicks))
/-- The boot fails: STATE 2 with a code, advice 3 (4 after the second failed rung 3), then recovery
(R466, R503). -/
def bootFail (code : Nat) (s : State) : State :=
  let s := s.setFld .hifBoot F.hifBootCode code
  let s := progFail 0 code (setStage (s.fld .hifBoot F.hifBootStage) 2 s)
  let n := if s.chip.rung = 3 then s.chip.failed3 + 1 else s.chip.failed3
  let s := { s with chip := { s.chip with failed3 := n } }
  let s := s.advise (if 2 ≤ n then 4 else 3) code
  let s := s.setWord .chipFwVer 0
  setStage (s.fld .hifBoot F.hifBootStage) 3 s
/-- An image that the ROM accepts (R468). -/
def imageOk (s : State) (i : Nat) : Bool :=
  (s.chip.slot i).any fun x => x.good && decide (s.chip.svn ≤ x.svn)
/-- FW_AUTH of an image (R468, R488): slot and key index. -/
def authFail (slot key : Nat) (s : State) : State :=
  s.raise { src := srcOf 8 0 2, code := ecFwAuth, detail := [(32, 1, 0), (33, 1, slot), (34, 1, key)] }
/-- The ROM loads and checks a slot: 84 ms and 6 ms. -/
def loadSlot (i : Nat) (s : State) : Bool × State :=
  let s := stageTime 3 6 (stageTime 2 84 s)
  if imageOk s i then (true, s)
  else (false, authFail i (((s.chip.slot i).map fun x => Config.imageField x.ws 1 % 4).getD 0) s)
/-- The image runs from a slot. -/
def runSlot (i : Nat) (s : State) : State :=
  { s.setFld .hifBoot F.hifBootSlot i with chip := { s.chip with running := i } }
/-- Stages 2 and 3 (R464, R466, R470): the slot that is to boot, else the other one. -/
def loadImage (first : Nat) (s : State) : Bool × State :=
  let (ok, s) := loadSlot first s
  if ok then (true, runSlot first s)
  else
    let (ok, s) := loadSlot (1 - first) s
    let s := s.doIf s.chip.trial fun s =>
      { s.setFld .hifBoot F.hifBootRollback 1 with chip := { s.chip with trial := false } }
    (ok, runSlot (1 - first) s)
/-- Sites that no logical core uses and that have passed every test. -/
def State.spareSites (s : State) : List Nat :=
  (List.range 36).filter fun i => !bitAt (s.fld .siteStat F.siteStatFailed) i &&
    (List.range 32).all fun n => s.fld (.coreMap n) F.coreMapState == 2 || s.fld (.coreMap n) F.coreMapSite != i
/-- SPARES reads the usable spare sites. -/
def countSpares (s : State) : State := s.setFld .siteStat F.siteStatSpares s.spareSites.length
/-- A site has failed a test (R498). -/
def failSite (i : Nat) (s : State) : State :=
  countSpares (s.setFld .siteStat F.siteStatFailed (s.fld .siteStat F.siteStatFailed ||| 2 ^ i))
/-- Mesh distance between the sites of two logical cores: 1 along the serpentine path as first mapped,
sites n and (n ± 1) mod 32 (R362); else what the mesh gives. -/
def State.coreDist (s : State) (a b : Nat) : Nat :=
  let x := s.fld (.coreMap a) F.coreMapSite
  let y := s.fld (.coreMap b) F.coreMapSite
  if x = y then 0
  else if x < 32 ∧ y < 32 ∧ ((x + 1) % 32 = y ∨ (y + 1) % 32 = x) then 1
  else max 1 (Config.siteDist x y % 64)
/-- STR_COL_STAT of every core (R279, R496): the distance to the next core of the chain, and its hop. -/
def colStat (s : State) : State :=
  (List.range 32).foldl (fun s n =>
    let d := s.coreDist n ((n + 1) % 32)
    if s.fld (.strColStat n) F.strColStatDist = d then s
    else (s.setFld (.strColStat n) F.strColStatDist d).setFld (.strColStat n) F.strColStatHop (4 * d)) s
/-- The arrays of another site: none of their MXEs is fenced, and none of their columns is known to fail
(assumption 172, DESIGN CHOICE). -/
def freshArrays (n : Nat) (s : State) : State :=
  (List.range 4).foldl (fun s m => s.doIf (s.word (.mxeBypass n m) != 0) fun s => s.setWord (.mxeBypass n m) 0)
    (s.doIf (s.word (.tstFence n) != 0) fun s => s.setWord (.tstFence n) 0)
/-- A logical core moves to a spare site (R496), or leaves service when none is left (R497). -/
def substitute (n : Nat) (site : Option Nat) (s : State) : State :=
  match site with
  | none => countSpares (s.setFld (.coreMap n) F.coreMapState 2)
  | some i =>
    let old := s.fld (.coreMap n) F.coreMapSite
    let s := freshArrays n ((s.setFld (.coreMap n) F.coreMapSite i).bump (.coreMap n) F.coreMapSubst 1)
    (colStat (countSpares s)).raise { src := virSrc, code := ecSpareSubst, fw := true, detail := [(32, 1, n), (33, 1, old), (34, 1, i)] }
/-- The spare site that is taken: the first usable of Virhan's picks, else the lowest. -/
def State.pickSite (s : State) (picks : List Nat) : Option Nat :=
  match picks.find? s.spareSites.contains with
  | some i => some i
  | none => s.spareSites.head?
/-- Stage 4 (R464, R466): Virhan starts; failing sites are replaced. -/
def coreInit (e : BootEnv) (s : State) : State :=
  let s := stageTime 4 45 s
  let x := (s.chip.slot s.chip.running).getD ⟨[], 0, 0, false⟩
  let s := s.setWord .chipFwVer (x.version % 2 ^ 48 * 2 ^ 16 + x.svn % 64 * 256 + 1)
  let s := s.doIf (s.bit .hifBoot F.hifBootCold) fun s =>
    (List.range 32).foldl (fun s n => s.setFld (.coreMap n) F.coreMapSubst 0) s
  let s := e.sites.foldl (fun s i => failSite i.val s) s
  let s := (List.range 32).foldl (fun s n =>
    if s.fld (.coreMap n) F.coreMapState = 2 then s
    else
      let s := s.setFld (.coreMap n) F.coreMapState 0
      if bitAt (s.fld .siteStat F.siteStatFailed) (s.fld (.coreMap n) F.coreMapSite)
      then substitute n (s.pickSite (e.picks.map Fin.val)) s else s) s
  s.liveCores.foldl (fun s n => if s.demand n = 0 then s else s.setFld (.clkCorePs n) F.clkCorePsEff (s.demand n)) s
/-- A TSV that training finds failing takes a spare of its channel, which has four (R199, R228). -/
def tsvRepair (k ch : Nat) (s : State) : State :=
  let s := s.modGh k fun g => { g with tsvs := tabMod 0 g.tsvs ch (· + 1) }
  s.doIf (decide (tabGet 0 (s.gh k).tsvs ch ≤ 4)) (·.bump (.ghRepairStat k) F.ghRepairStatTsvsUsed 1)
/-- The slots that each requester of a stack port owns after stack training, and the free ones (R293). -/
def bandShare : List (Nat × Nat) := ((List.range 8).map fun g => (g, 5)) ++ [(8, 8), (9, 2), (10, 10), (11, 2), (15, 2)]
/-- The owners of the 64 slots in four words. -/
def bandOwners (f : Nat → Nat) : List Nat := (List.range 64).map fun i => f (i / 16) % 2 ^ 64 / 16 ^ (i % 16) % 16
/-- Four words give every requester its number of slots. -/
def bandFits (f : Nat → Nat) : Bool := bandShare.all fun r => (bandOwners f).count r.1 == r.2
/-- Word i of the table that Virhan commits: which slots a requester owns is open (assumption 180, DESIGN CHOICE). -/
def bandWord (i : Nat) : Nat :=
  if bandFits Config.bandTable then Config.bandTable i % 2 ^ 64
  else (((bandShare.flatMap fun r => List.replicate r.2 r.1).drop (16 * i)).take 16).foldr (fun o w => o + 16 * w) 0
/-- Virhan writes and commits a port's table after stack training (R293). -/
def bandCommit (k : Nat) (s : State) : State :=
  bsCommit k ((List.range 4).foldl (fun s i => s.setWord (.bsSlot k i) (bandWord i)) s)
/-- Stage 5 (R464, R466, R499): the stacks train, pending repairs take effect; true when it succeeds. -/
def stackTrain (e : BootEnv) (s : State) : Bool × State :=
  let s := progStart 1 (stageTime 5 (if s.bit .hifBoot F.hifBootCold then 250 else 40) s)
  let s := (List.range 8).foldl (fun s k => (s.gh k).unspared.foldl (bankRepair k) s) s
  let s := s.setFld .hifAdvice F.hifAdviceRepairPending 0
  let s := e.tsvs.foldl (fun s t => tsvRepair t.1 t.2 s) s
  let short := (List.range 8).find? fun k => (s.gh k).tsvs.any fun c => decide (4 < c.2)
  match e.stack.map Fin.val <|> short with
  | some k =>
    let s := s.raise { src := srcOf 3 k 0, code := ecDetectStack }
    (false, progFail 1 ecDetectStack s)
  | none =>
    let s := (List.range 8).foldl (fun s k => bandCommit k s) s
    let s := e.ghs.foldl (fun s k => rawStack k 1 s) s
    (true, progDone 1 512 s)

/-- The entry of handle 0 (R148, R149): CONST, FP32, VALID, PINNED. -/
def zeroEntry (unit : Nat) : List Byte :=
  let bs := natLe 8 (5 * 2 ^ 60 + 5 * 2 ^ 56 + 2 ^ 55 + 2 ^ 53 + unit) ++ natLe 8 (2 ^ 48) ++ natLe 8 0
  bs ++ natLe 4 (crc32 bs) ++ natLe 4 0
/-- Stage 6 (R164, R464): cold, every stack is zero-filled and the directory, the heaps and handle 0
are written; warm, MIGRATING is cleared and space that no entry names is free. Then EN is set. -/
def memInit (e : BootEnv) (s : State) : State :=
  let cold := s.bit .hifBoot F.hifBootCold
  let s := stageTime 6 (if cold then 12 else 3) s
  let s := if cold then
      let s := s.dropMem isStack
      let s := (List.range 8).foldl (fun s k =>
        let s := (s.setFld (.ghHeapBase k) F.ghHeapBaseOffset e.heapBase.toNat).setFld (.ghHeapLim k) F.ghHeapLimOffset e.heapLim.toNat
        s.modGh k fun g => { g with heap := [], migs := [], formatted := true }) s
      (s.wr (e.zero.toNat * 64) (zeroTile etFp32)).wr (s.dirAddr 0) (zeroEntry e.zero.toNat)
    else
      let s := (List.range 8).foldl (fun s k => (s.gh k).migs.foldl (fun s m => abandonMig m.1 s) s) s
      (List.range 8).foldl (fun s k => s.modGh k fun g =>
        { g with heap := g.heap.filter fun u => (s.dirEnt u.2.h).valid && canon (s.dirEnt u.2.h).da == stackBase k + u.1 }) s
  (List.range 8).foldl (fun s k => (s.setFld (.ghDirCtl k) F.ghDirCtlEn 1).setFld (.ghStatus k) F.ghStatusReady 1) s
/-- Stage 7 (R464, R368): CHIP_NODE comes from the configuration record, and the ports train. -/
def linkTrain (e : BootEnv) (s : State) : State :=
  let s := s.plainWrite .chipNode e.node.toNat
  let s := progStart 2 (stageTime 7 60 s)
  linkProg (allPorts.foldl (fun s p => if s.portEn p then portEnable p s else s) s)
/-- READY (R463, R464, R504): service mode, and the advice of the rung that ends here. -/
def bootReady (s : State) : State :=
  let s := s.setFld .chipMode F.chipModeValidate 0
  let s := progDone 0 (8 * 2 ^ 56) (setStage 8 1 s)
  let s := s.doIf (decide (s.chip.rung ≠ 0)) fun s => rungDone s.chip.rung s
  { s with chip := { s.chip with rung := 0, failed3 := 0 } }
/-- How a boot ended: READY, no image (recovery), or a failure with a code. -/
inductive BootEnd where
  | ready
  | noImage
  | failed (code : Nat)
  deriving DecidableEq, Repr
/-- A stage that exceeds its limit (R466): the boot ends there with TASK_HANG. -/
def stuck (stop : Option Nat) (stage : Nat) : Bool := stop == some stage
/-- Stages 4 to 7 of a boot. -/
def bootRest (stop : Option Nat) (e : BootEnv) (s : State) : BootEnd × State :=
  let s := coreInit e s
  if stuck stop 4 then (.failed ecTaskHang, s)
  else
    let (ok, s) := stackTrain e s
    if !ok then (.failed ecDetectStack, s)
    else if stuck stop 5 then (.failed ecTaskHang, s)
    else
      let s := memInit e s
      if stuck stop 6 then (.failed ecTaskHang, s)
      else
        let s := linkTrain e s
        if stuck stop 7 then (.failed ecTaskHang, s) else (.ready, s)
/-- Stages 2 to 7: `first` is the image slot tried first. -/
def bootLoad (stop : Option Nat) (first : Nat) (e : BootEnv) (s : State) : BootEnd × State :=
  if stuck stop 2 || stuck stop 3 then (.failed ecTaskHang, stageTime (stop.getD 0) 0 s)
  else
    let (ok, s) := loadImage first s
    if !ok then (.noImage, s) else bootRest stop e s
/-- Stages 1 to 7: `first` is the image slot tried first. -/
def bootOnce (stop : Option Nat) (first : Nat) (e : BootEnv) (s : State) : BootEnd × State :=
  let s := progStart 0 s
  let s := stageTime 1 12 s
  if stuck stop 1 then (.failed ecTaskHang, s)
  else
    let s := ((s.setFld .clkStatus F.clkStatusRootLock 1).setFld .clkStatus F.clkStatusSdLock 1).setFld .clkStatus F.clkStatusVcoreMeas 850
    bootLoad stop first e (s.setFld .blwStat F.blwStatFt (b2n s.ft))
/-- The device leaves reset (R464): cold unless the stacks were in self-refresh. A pending image boots
once, as a trial (R470); a trial not committed goes back to the slot before. -/
def leaveReset (s : State) : State :=
  let c := s.chip
  let back := c.trial
  let pend := c.pending && !back
  let s := { s with
    time := 0 - BitVec.ofNat 64 (s.now / timeTicks)
    chip := { c with held := false, refresh := false, trial := pend, pending := false,
                     active := if pend then c.running else c.active } }
  (s.setFld .hifBoot F.hifBootCold (b2n !c.refresh)).setFld .hifBoot F.hifBootRollback (b2n back)
/-- The end of a boot: a trial that fails any stage goes back to the slot before it (R470); any other
failure is recovery (R466). -/
def bootEnd (e : BootEnv) (r : BootEnd × State) : State :=
  match r.1 with
  | .ready => bootReady r.2
  | .noImage =>
    let s := ((r.2.setFld .hifBoot F.hifBootCode ecFwAuth).setWord .chipFwVer 0)
    setStage (s.fld .hifBoot F.hifBootStage) 3 (progFail 0 ecFwAuth s)
  | .failed code =>
    let s := r.2
    if s.chip.trial then
      let s := { s.setFld .hifBoot F.hifBootRollback 1 with chip := { s.chip with trial := false } }
      match bootOnce none s.chip.active e s with
      | (.ready, s) => bootReady s
      | (.failed code, s) => bootFail code s
      | (.noImage, s) => bootFail ecFwAuth s
    else bootFail code s
/-- A boot can start (R464, R514, R519): PERST_N deasserts with PWR_GOOD asserted. -/
def State.bootable (s : State) (e : BootEnv) : Bool :=
  (s.chip.held || (s.fld .hifBoot F.hifBootStage == 0 && s.fld .hifBoot F.hifBootState == 0)) &&
    s.chip.pwrGood && !s.chip.seqFault && !s.power.trip && !e.testEn
/-- BOOT (R464), and BOOT_STAGE_TIMEOUT (R466) with the stage that exceeds its limit. -/
def boot (stop : Option Nat) (e : BootEnv) (s : State) : State :=
  if s.bootable e then
    let s := leaveReset s
    bootEnd e (bootOnce stop (if s.chip.trial then s.chip.other else s.chip.active) e s)
  else s

/-! ### Waking (R437, R440) -/

/-- The fault record of a unit that fails a step of the wake from I4 (R437): the retained image, a core, a stack or
a port (assumption 191, DESIGN CHOICE). -/
def wakeFault (u : WakeUnit) (s : State) : State :=
  match u with
  | .image => authFail s.chip.running 0 s
  | .core n => s.raise { src := srcOf 1 n 0, code := ecTaskHang }
  | .stack k => s.raise { src := srcOf 3 k 0, code := ecDetectStack }
  | .port p => s.raise { src := portSrc (portNum p), code := ecLinkDown }
/-- A wake from I4 that fails a step is a cold boot from stage 2 (R437). -/
def wakeFailed (u : WakeUnit) (e : BootEnv) (s : State) : State :=
  let s := wakeFault u { s with chip := { s.chip with wakeFail := none } }
  let s := { s with power := { s.power with idleSince := s.now } }
  let s := (s.setFld .hifIdle F.hifIdleState 0).bump .hifIdle F.hifIdleWakes 1
  let s := (s.setFld .hifBoot F.hifBootCold 1).setFld .chipMode F.chipModeValidate 1
  bootEnd e (bootLoad none s.chip.active e (s.msix 197))
/-- A wake event (R440), or in I4 a wake that fails a step. Which unit fails it comes with the state (assumption 174). -/
def wakeEvent (s : State) : State :=
  match s.chip.wakeFail with
  | some (u, e) => if s.fld .hifIdle F.hifIdleState = 4 then wakeFailed u e s else wake s
  | none => wake s

/-! ### Function Level Reset: rung 2 (R467, R502) -/

/-- Virhan sends CSTEP abort to the members of every collective in flight (R401, R502). -/
def abortCollectives (s : State) : State :=
  let groups := s.hif.qps.flatMap fun q => (q.2.cmds.filter fun c => c.started && !c.done && c.op == 0x10).map
    fun c => bitsOf (c.w 3) 55 48
  groups.foldl (fun s g => (tabGet [] s.net.groups g).foldl (fun s d =>
    if d = s.devid then s else s.send d (.cstep g s.net.serial 0 true ecCollTimeout) false none) s) s
/-- Glasshouse queues at rung 2: started commands complete with their writes, the others ABORTED. -/
def ghFlr (s : State) : State :=
  (List.range 8).foldl (fun s k => (List.range 15).foldl (fun s q =>
    let s := ghReset k q s
    ((s.gh k).q q).foldl (fun s c => ghFinish k q c (c.done.getD (ghAborted s.now)) s) s) s) s
/-- Ranges of the Orangery that a running kernel was granted become undefined. -/
def loseGrant (g : List Byte) (s : State) : State :=
  let da := orgBase + fieldAt g 8 4 * 4096
  (List.range (fieldAt g 12 4 * 64)).foldl (fun s i =>
    let (v, s) := s.free 512
    s.wrUnit (da + 64 * i) (natLe 64 v) false) s
/-- A register that rung 2 returns to its reset value: the cores' blocks but for MXE_BYPASS, turnstiles,
barriers, scale slots, fences, HIF_BAR2_MAP, and the status and enables of queue pairs and channels. -/
def flrReg (x : Nat) : Bool :=
  (within 0x020210000000 0x2000000 x && !keptReg false x) ||
    within (regAddr (.tsCnt 0)) 0x10000 x || within (regAddr (.barState 0)) 0x1000 x ||
    within (regAddr (.ssParam 0)) 0x80000 x || within (regAddr (.tstFence 0)) 0x100 x ||
    x == regAddr .hifBar2Map ||
    ((List.range 64).any fun q => x == regAddr (.hifQStat q) || x == regAddr (.hifQCtl q)) ||
    ((List.range 8).any fun c => x == regAddr (.dmaStat c))
/-- The online test in progress is abandoned; Virhan repeats it (R507). -/
def dropTest (s : State) : State :=
  match s.chip.testing with
  | none => s
  | some t =>
    let s := (s.setFld .chipMode F.chipModeVcores (withBits (s.fld .chipMode F.chipModeVcores) t.core t.core 0)).setFld
      .tstStat F.tstStatState 0
    { s with chip := { s.chip with testing := none, tests := t.core :: s.chip.tests } }
/-- FLR (R467, R502): rung 2. -/
def flr (s : State) : State :=
  if s.ready = false then s
  else
    let s := ghFlr (abortCollectives s)
    let s := s.hif.kernels.foldl (fun s k => loseGrant k.grant s) s
    let s := (List.range 960).foldl (fun s i => winForceOp (64 + i) s) s
    let s := s.dropMem isCoreMem
    let s := s.dropRegs flrReg
    let s := (List.range 8).foldl (fun s c => s.setFld (.dmaCfg c) F.dmaCfgEn 0) s
    let s := (List.range 32).foldl (fun s n =>
      if s.fld (.coreMap n) F.coreMapState = 1 then s.setFld (.coreMap n) F.coreMapState 0 else s) s
    let s := dropTest s
    let s := { s with
      cores := [], commits := [], tsq := [], tsFree := [], cevents := [], heldLow := [], latchHigh := []
      parity := { s.parity with bundles := [], ctl := [], reloads := [] }
      hif := { nextCmd := s.hif.nextCmd, nextJob := s.hif.nextJob, recomp := s.hif.recomp,
               wparams := s.hif.wparams, access := s.hif.access, adapted := s.hif.adapted } }
    linkProg (pump (rungDone 2 s))

/-! ### Power (R518-R522) -/

/-- PWR_GOOD drops, or a main rail leaves its tolerance (R520): everything but the flash is lost. -/
def powerLoss (s : State) : State :=
  let s := dieReset false 4 (s.advance (s.now + 2 * usTicks))
  { s with chip := { s.chip with pwrGood := false, seqFault := false, rails := s.chip.rails.filter (· < 2) } }
/-- An AUX rail leaves its tolerance (R522): as a power loss, and the AUX domain stops. -/
def auxLoss (s : State) : State :=
  let s := powerLoss s
  { s with chip := { s.chip with rails := [], jtagIr := 1, jtagDr := 0, jtagToken := [], instruments := 0 } }
/-- POWER_UP (R518, R519): PWR_GOOD asserts; with a main rail out of tolerance the die is held. -/
def powerUp (s : State) : State :=
  if s.chip.pwrGood then s
  else
    let ok := (List.range 10).all s.chip.rails.contains
    { s with
      chip := { s.chip with pwrGood := true, seqFault := s.chip.seqFault || !ok }
      power := { s.power with trip := false } }
/-- RAIL_RISE (R518, R519): 0 and 1 are the AUX rails, 2 to 9 the main rails in their order. -/
def railRise (rail : Nat) (s : State) : State :=
  if 9 < rail ∨ s.chip.rails.contains rail then s
  else
    let c := s.chip
    let early := if rail < 2 then false else if rail = 2 then !(c.rails.contains 0 && c.rails.contains 1)
      else !c.rails.contains (rail - 1)
    let s := { s with chip := { c with rails := c.rails ++ [rail], seqFault := c.seqFault || early } }
    s.doIf (decide (rail < 2) && s.chip.rails.contains 0 && s.chip.rails.contains 1) fun s =>
      s.advance (s.now + 50 * msTicks)
/-- The AUX rails are in tolerance: sideband, flash and test port answer. -/
def State.auxOn (s : State) : Bool := s.chip.rails.contains 0 && s.chip.rails.contains 1

/-! ### The commands -/

/-- BOOT (R464). -/
def execBoot (e : BootEnv) (s : State) : Host.Outcome State Fault Refusal := runAlways (boot none e) s
/-- BOOT_STAGE_TIMEOUT (R466). -/
def execBootStageTimeout (stage : Fin 8) (e : BootEnv) (s : State) : Host.Outcome State Fault Refusal :=
  runAlways (boot (some stage) e) s
/-- IDLE_WAKE (R440). -/
def execIdleWake (s : State) : Host.Outcome State Fault Refusal := run wakeEvent s
/-- PERST_ASSERT (R467). -/
def execPerstAssert (s : State) : Host.Outcome State Fault Refusal := runAlways perstAssert s
/-- FLR (R467). -/
def execFlr (s : State) : Host.Outcome State Fault Refusal := run flr s
/-- CHIP_RESET_GO (R505). -/
def execChipResetGo (v : Word) (s : State) : Host.Outcome State Fault Refusal := runHif (chipResetWrite v.toNat) s
/-- POWER_UP (R518). -/
def execPowerUp (s : State) : Host.Outcome State Fault Refusal := runAlways powerUp s
/-- POWER_LOSS (R520). -/
def execPowerLoss (s : State) : Host.Outcome State Fault Refusal := runAlways powerLoss s
/-- AUX_RAIL_LOSS (R522). -/
def execAuxRailLoss (s : State) : Host.Outcome State Fault Refusal := runAlways auxLoss s
/-- RAIL_RISE (R518). -/
def execRailRise (rail : Nat) (s : State) : Host.Outcome State Fault Refusal := runAlways (railRise rail) s

end Sys2Proof.Machine
end

