-- ==== Sys2Proof/Machine/Micro.lean ====
section
/-! DEFINITION. Micro-batches of a step (spec/12, R405, R406, R410): the order of their gradient ACCUMs, what holds
one back, and which of them run. -/

namespace Sys2Proof.Machine

/-- The commands of a queue up to the end of its present step. -/
def State.stepCmds (s : State) (q : Nat) : List WcsCmd :=
  let cs := (s.qp q).cmds
  cs.take (cs.findIdx WcsCmd.stepEnd + 1)
/-- A command is an ALL_GATHER. -/
def WcsCmd.gathers (c : WcsCmd) : Bool := c.op == 0x10 && bitsOf (c.w 3) 35 32 == 2
/-- Every gather of a micro-batch has completed without SHARD_STALE (R410). -/
def microClear (s : State) (m : Micro) : Bool :=
  !m.stale && (s.stepCmds m.q).all fun c => !c.gathers || c.done
/-- Change micro-batch i. -/
def State.modMicro (s : State) (i : Nat) (f : Micro → Micro) : State :=
  { s with net := { s.net with micro := s.net.micro.zipIdx.map fun x => if x.2 = i then f x.1 else x.1 } }
/-- The gradient ACCUMs that may issue do, in micro-batch order (R405, R406): those of one wait until all of every
earlier one have been issued and its own gathers allow it (R410). -/
def microFlush : Nat → State → State
  | 0, s => s
  | k + 1, s =>
    match s.net.micro.findIdx? fun m => !m.issued with
    | none => s
    | some i =>
      match s.net.micro[i]? with
      | none => s
      | some m =>
        if microClear s m then
          let s := m.held.foldl (fun s a => ghPush a.r a.k a.q a.ws s) s
          let s := s.modMicro i fun m => { m with held := [], issued := m.closed }
          if m.closed then microFlush k s else s
        else s
/-- Every micro-batch whose turn has come. -/
def microGo (s : State) : State := microFlush (s.net.micro.length + 1) s
/-- A push: a gradient ACCUM of a micro-batch waits for its turn. -/
def microPush (r : Requester) (k q : Nat) (ws : List Word) (g : Option Gradient) (s : State) : State :=
  match r, g with
  | .cc _, some g =>
    if g.micro < s.net.micro.length then
      microGo (s.modMicro g.micro fun m => { m with held := m.held ++ [⟨r, k, q, ws⟩], closed := g.last })
    else ghPush r k q ws s
  | _, _ => ghPush r k q ws s
/-- SHARD_STALE in a gather of a queue: its micro-batch contributes nothing (R410). -/
def microStale (q : Nat) (s : State) : State :=
  { s with net := { s.net with micro := s.net.micro.map fun m =>
      if m.q = q ∧ m.issued = false then { m with stale := true, held := [], closed := false } else m } }
/-- A gather starts: a stale micro-batch of its queue is replayed at the current versions (R410). -/
def microReplay (q : Nat) (s : State) : State :=
  { s with net := { s.net with micro := s.net.micro.map fun m => if m.q = q then { m with stale := false } else m } }
/-- The gradients of the step have yet to be accumulated: the reduce-scatter of a queue of its micro-batches waits
(R405). -/
def microBusy (s : State) (q : Nat) : Bool :=
  s.net.micro.any (fun m => m.q == q) &&
    (s.net.micro.any (fun m => !m.issued) || s.ghs.any fun g => [8, 9].any fun p => ((g.2.q p).any fun c =>
      bitsOf ((c.ws.getD 0 0).toNat) 7 0 == 0x05))
/-- A collective, or a pipeline neighbour by an EVENT_WAIT, keeps a queue waiting (R406). -/
def microWaits (s : State) (q : Nat) : Bool :=
  (s.qp q).cmds.any fun c => c.started && !c.done && (c.op == 0x10 || c.op == 0x1A)
/-- A queue has a ready task on some core. -/
def microReady (s : State) (q : Nat) : Bool :=
  s.hif.tasks.any fun t => t.2.any fun t => (tabFind s.hif.jobs t.job).any fun j => j.q == q
/-- A queue's tasks may be dispatched (R406): those of a micro-batch once every earlier one waits or has no ready task,
at most three beside the ones that wait. -/
def microRuns (s : State) (q : Nat) : Bool :=
  match s.net.micro.findIdx? fun m => m.q == q with
  | none => true
  | some i =>
    let before := (s.net.micro.take i).filter fun m => !m.issued
    before.all (fun m => microWaits s m.q || !microReady s m.q) &&
      decide ((before.filter fun m => microWaits s m.q).length ≤ 3)
/-- The step of the micro-batches ends (R405): the next one starts with none accumulated. -/
def microBoundary (q : Nat) (s : State) : State :=
  if s.net.micro.any (fun m => m.q == q) ∧ s.net.micro.all (fun m => m.issued) then
    { s with net := { s.net with micro := s.net.micro.map fun m => { q := m.q } } }
  else s

/-! ### The commands -/

/-- GH_CMDQ_PUSH (R205, R405). -/
def execGhCmdqPush (r : Requester) (k : StackId) (q : QId) (ws : GhWords) (s : State) :
    Host.Outcome State Fault Refusal := run (microPush r k q ws.ws ws.grad) s

end Sys2Proof.Machine
end

