-- ==== Sys2Proof/Machine/Fife.lean ====
section
/-! DEFINITION. Fife, the matrix-vector unit (R93-R95, R128, R180, R327, R328): descriptors, checks,
strips with or without a row bitmap, the hold bank, and drains through Fife's own chains. -/

namespace Sys2Proof.Machine

/-- The fields of an FMV descriptor (R327). -/
structure FmvDesc where
  woff : Nat
  v : Nat
  wsrc : Bool
  asrc : Bool
  gather : Bool
  hold : Bool
  k : Nat
  strips : Nat
  aoff : Nat
  apitch : Nat
  slot : Nat
  dst : Nat
  chain : Nat
  event : Nat
  en : Bool
  bmap : Nat
  reserved : Bool
  deriving DecidableEq, Repr

/-- A descriptor from its 32 bytes (R327). -/
def fmvOf (d : List Byte) : FmvDesc :=
  let b4 := fieldAt d 4 1
  let w := fieldAt d 0 4
  let a := fieldAt d 8 4
  { woff := w, v := b4 % 16, wsrc := bitAt b4 4, asrc := bitAt b4 5, gather := bitAt b4 6,
    hold := bitAt b4 7, k := fieldAt d 5 2, strips := fieldAt d 7 1, aoff := a,
    apitch := fieldAt d 12 2, slot := fieldAt d 14 2 % 4096, dst := fieldAt d 16 4,
    chain := fieldAt d 20 1 % 4, event := fieldAt d 21 1 % 64, en := bitAt (fieldAt d 21 1) 7,
    bmap := fieldAt d 24 4,
    reserved := decide (2 ^ (if bitAt b4 4 then 4 else 17) ≤ w) ||
      decide (2 ^ (if bitAt b4 5 then 6 else 17) ≤ a) || decide (4096 ≤ fieldAt d 14 2) ||
      decide (2 ^ 17 ≤ fieldAt d 16 4) || decide (4 ≤ fieldAt d 20 1) ||
      bitAt (fieldAt d 21 1) 6 || fieldAt d 22 2 != 0 || decide (2 ^ 20 ≤ fieldAt d 24 4) ||
      fieldAt d 28 4 != 0 }

/-- Lanes of a weight type (R93). -/
def fifeLanes (et : Nat) : Nat := if et = etInt4 then 16 else if et = etBf16 then 2 else 8
/-- Lane cycles of a strip (R93, R180): n_m rows read of K. -/
def stripCycles (et k nm v : Nat) (gather : Bool) : Nat :=
  ceilDiv ((if gather then max nm (ceilDiv k 64) else k) * v) (fifeLanes et)

/-- Weight tiles of a strip in a byte source from an offset: each follows the previous one's LEN. -/
def tilesFrom (rd : Nat → Nat → List Byte) : Nat → Nat → List (Nat × List Byte) × Nat
  | 0, off => ([], off)
  | k + 1, off =>
    let len := max (hdrOf (rd off 64)).len 1 * 64
    let (ts, e) := tilesFrom rd k (off + len)
    ((off, rd off len) :: ts, e)
/-- The strips of a source: parameter words and tiles of each, and where the source ends (R327). -/
def stripsFrom (rd : Nat → Nat → List Byte) (tiles : Nat) :
    Nat → Nat → List (List Word × List (Nat × List Byte)) × Nat
  | 0, off => ([], off)
  | k + 1, off =>
    let ps := (List.range 128).map fun j => BitVec.ofNat 64 (leNat (rd (off + 8 * j) 8))
    let (ts, e) := tilesFrom rd tiles (off + 1024)
    let (ss, e') := stripsFrom rd tiles k e
    ((ps, ts) :: ss, e')
/-- Weight type of a CM-fed FMV: its first tile's. -/
def State.fmvType (s : State) (n : Nat) (d : FmvDesc) : Nat :=
  (hdrOf (s.cm n (d.woff * 64 + 1024) 64)).etype
/-- Bytes of CM from an offset, none beyond CM. -/
def State.cmUpTo (s : State) (n off len : Nat) : List Byte := s.cm n off (min len (cmSize - off))
/-- What an FMV reads: bytes of CM with their poison, the words of vector registers with their poison bits. -/
structure FifeIn where
  bytes : Nat → Nat → List Byte
  poison : Nat → Bool
  lane : Nat → Nat
  lanePoison : Nat → Bool
/-- The operands of an FMV: as its wide reads and its lanes found them, or, behind a stream-fed one, as they stand
when it runs. -/
def State.fifeIn (s : State) (n : Nat) (o : FifeOp) : FifeIn :=
  let r := o.regs.getD ((s.core n).vregs, (s.core n).vpoison)
  let c := o.start.isSome
  { bytes := fun off len => if c then gotBytes o.got off (min len (cmSize - off)) else s.cmUpTo n off len
    poison := fun off => if c then gotPoison o.got off 1 else s.poisoned (coreBase n + off)
    lane := fun i => (tabGet 0 r.1 i).toNat
    lanePoison := fun i => tabGet false r.2 i }
/-- Element k of activation vector v (R94, R327): BF16 in CM or in vector registers. -/
def FifeIn.act (x : FifeIn) (d : FmvDesc) (v k : Nat) : Nat :=
  if d.asrc then x.lane ((d.aoff + v * d.apitch + k / 256) * 128 + k % 256 / 2) / 65536 ^ (k % 2) % 65536
  else leNat (x.bytes ((d.aoff + v * d.apitch) * 64 + 2 * k) 2)
/-- Poison of the elements of activation vector v that an operation reads (R180). -/
def FifeIn.actPoison (x : FifeIn) (d : FmvDesc) (rows : List Nat) (v : Nat) : Bool :=
  (rows.map (· / 32)).dedup.any fun u =>
    if d.asrc then x.lanePoison ((d.aoff + v * d.apitch + u / 8) * 8 + u % 8)
    else x.poison ((d.aoff + v * d.apitch + u) * 64)
/-- A vector runs past its source (R238, R327). -/
def fifeActPast (d : FmvDesc) : Bool :=
  let last := d.aoff + (d.v - 1) * d.apitch
  if d.asrc then decide (64 < last + ceilDiv d.k 256) else wideBad (last * 64) (2 * d.k)
/-- What a chain check knows of the hold bank: V, strips, and the mode of its results where it is known. -/
structure HoldView where
  v : Nat
  strips : Nat
  mode : Option Nat
  deriving DecidableEq, Repr
/-- The hold bank as the next FMV in program order finds it (R128): the FMVs ahead of it have filled or
consumed it. -/
def State.holdView (s : State) (n : Nat) : Option HoldView :=
  let c := s.core n
  c.fife.foldl (fun b o =>
    let d := fmvOf o.desc
    let b := if d.k = 0 ∨ d.strips = 0 then b
      else if d.hold then some ⟨d.v, d.strips, if d.wsrc then none else some (modeOf (s.fmvType n d))⟩
      else if (gatePartner o.chain).isSome then none else b
    if o.drop then none else b)
    (c.fifeHold.map fun h => ⟨h.v, h.strips, some (modeOf ((h.tiles.headD {}).etype))⟩)
/-- How Fife's chain checks see its results and its hold bank (R112, R128). -/
def fifeView (b : Option HoldView) (d : FmvDesc) (mode p : Nat) : TileView :=
  { isOpen := decide (p = 0) && b.any fun h => h.v == d.v && h.strips == d.strips
    mode := (b.bind HoldView.mode).getD mode, transpose := false, mt := d.v, cols := 128 }
/-- The words of a Fife chain slot (R128). -/
def State.fifeChain (s : State) (n c : Nat) : List Word :=
  (List.range 8).map fun w => BitVec.ofNat 64 (s.word (.fifeDrnChain n c w))
/-- A stage with its per-column operands moved to the strip's first column: a strip has eight units of FP32
bias or residual and four of BF16 residual, and INIT empties the records at strip 0 (R122, R128; assumption
170, DEDUCED). -/
def stripStage (strip : Nat) : Stage → Stage
  | .bias b => .bias (b + strip * 8)
  | .resid a f32 r p b => .resid a f32 r p (b + strip * (if f32 then 8 else 4))
  | .rowstat m i c r => .rowstat m (i && strip == 0) (c + 128 * strip) r
  | st => st
/-- Fault of Fife's chain for results of a mode (R112, R128): every strip's ranges count. -/
def fifeChainFault (s : State) (b : Option HoldView) (d : FmvDesc) (chain : List Word) (mode : Nat) : Nat :=
  let v : TileView := ⟨true, mode, false, d.v, 128⟩
  let cf := chainFault s chain v 8 (fifeView b d mode)
  let ot := outType (stagesOf chain) (decide (mode ≤ 1))
  if cf ≠ 0 then cf
  else if (List.range d.strips).any fun k => (stagesOf chain).any fun st => stageRangeBad v (stripStage k st)
  then ecDescRange
  else if dstPast ot d.dst d.strips then ecDescRange else 0
/-- Fault of an FMV at decode (R94, R112, R327), 0 for none. The type of a stream-fed FMV's weights is not
known then: its slot is checked as such, and what depends on the type when its tiles have come (assumption
157, DEDUCED). -/
def fmvFault (s : State) (n off : Nat) : Nat :=
  if cmSize < off * 32 + 32 then atBit ecDescRange 38
  else
    let d := fmvOf (s.cm n (off * 32) 32)
    let et := if d.wsrc then etInt8 else s.fmvType n d
    let mode := modeOf et
    let chain := s.fifeChain n d.chain
    if d.reserved then ecDescFormat
    else if d.wsrc && !d.en then ecDescFormat
    else if d.v = 0 ∨ 8 < d.v ∨ 16384 < d.k ∨ 128 < d.strips then ecDescRange
    else if d.k = 0 ∨ d.strips = 0 then 0
    else if fifeActPast d then ecDescRange
    else if d.gather && wideBad (d.bmap / 8 * 64) (d.bmap % 8 * 8 + ceilDiv d.k 8) then ecDescRange
    else
      let f := if d.wsrc then s.slotFault d.slot fun _ => true
        else if mode = 3 then 0 else s.slotFault d.slot (wantCode mode)
      if f ≠ 0 then f else if d.hold then 0 else fifeChainFault s (s.holdView n) d chain mode
/-- The rows a Fife operation reads: all K, or the marked ones (R180). -/
def FifeIn.rows (x : FifeIn) (d : FmvDesc) : List Nat :=
  if d.gather then
    let m := leNat (x.bytes (d.bmap * 8) (ceilDiv d.k 8))
    (List.range d.k).filter (bitAt m)
  else List.range d.k
/-- The units of a strip that Fife reads (R93, R180): with a row bitmap, of a DENSE tile those of the marked
rows; as first units of wide accesses, in address order. -/
def stripCover (d : FmvDesc) (rows : List Nat) (off : Nat) (tiles : List (Nat × List Byte)) : List Nat :=
  let us := tiles.zipIdx.flatMap fun t =>
    let h := hdrOf t.1.2
    let a := (t.1.1 - off) / 64
    if d.gather ∧ h.format = fmtDense then
      let rb := denseRowBytes h.etype 128
      a :: (rows.filter fun r => r / 128 == t.2).flatMap fun r =>
        (List.range (ceilDiv rb 64)).map fun i => a + 1 + (r % 128 * rb / 64) + i
    else (List.range (max 1 h.len)).map fun i => a + i
  wideCover ((List.range 16 ++ us.dedup.mergeSort).filter fun u => decide (off + 64 * u < cmSize)) 0
/-- The wide reads of a CM-fed FMV from its first lane cycle t0 on: cycle, CM offset. The accesses of a strip are
spread evenly over its lane cycles; a vector's are made in the lane cycle that first needs them, the bitmap's
before all (assumption 41, DESIGN CHOICE). -/
def fifeReads (d : FmvDesc) (et t0 cyc : Nat) (rows : List Nat) (strips : List (List Word × List (Nat × List Byte))) :
    List (Nat × Nat) :=
  let inCm := fun (a : Nat) => min a (cmSize - 512)
  let bmap := if d.gather then (List.range (ceilDiv (d.bmap % 8 * 8 + ceilDiv d.k 8) 512)).map fun i =>
    (t0, inCm (d.bmap / 8 * 64 + 512 * i)) else []
  bmap ++ strips.zipIdx.flatMap fun st =>
    let off := (st.1.2.headD (1024, [])).1 - 1024
    let l := stripCover d rows off st.1.2
    let acts := if d.asrc then [] else (List.range d.v).flatMap fun v => (List.range (ceilDiv d.k 256)).filterMap fun c =>
      (rows.zipIdx.find? fun r => r.1 / 256 == c).map fun r =>
        (t0 + st.2 * cyc + r.2 * d.v / fifeLanes et, (d.aoff + v * d.apitch) * 64 + 512 * c)
    (l.zipIdx.map fun u => (t0 + st.2 * cyc + u.2 * cyc / l.length, inCm (off + 64 * u.1))) ++ acts
/-- The cycle in which the results of strip i enter the chain (R95). -/
def fifeEnter (start cyc i : Nat) : Nat := start + (i + 1) * cyc + 6
/-- The scheduled accesses of Fife's chain for a strip: its stages' and, DENSE, its rows' as they leave (R542). -/
def schedStrip (n : Nat) (d : FmvDesc) (chain : List Word) (int : Bool) (start cyc i : Nat) (s : State) : State :=
  let sts := (stagesOf chain).map (stripStage i)
  let ot := outType sts int
  let e := fifeEnter start cyc i
  let lat := sts.foldl (fun a st => a + stageLatency 128 ot st) 0
  let s := schedStages n 9 sts d.v 128 128 ot e 0 s
  s.doIf (outFormat sts == 0) fun s =>
    (drainSpans ot ((d.dst + i * denseLen ot) * 64) 128 e lat 0 [(0, d.v, 0, 128)]).foldl
      (fun s a => s.sched n 9 a.1 a.2.1 a.2.2 true) s
/-- The lane cycles of a CM-fed FMV: the cycle before the first, where every FMV ahead of it has its cycles fixed,
and how many a strip takes. -/
def State.fifeTimes (s : State) (n issue : Nat) (d : FmvDesc) (x : FifeIn) (ahead : List FifeOp) :
    Option (Nat × Nat) :=
  if d.wsrc || ahead.any fun p => p.start.isNone then none
  else some (max issue (s.core n).fifeFree, stripCycles (s.fmvType n d) d.k (x.rows d).length d.v d.gather)
/-- Fife takes on the FMV at a place of its queue: with every FMV ahead of it fed from CM its cycles are fixed,
from the cycle before its first lane cycle on (R80, R328). -/
def fifePlan (n k : Nat) (s : State) : State :=
  let c := s.core n
  match c.fife[k]? with
  | none => s
  | some o =>
    let d := fmvOf o.desc
    let x := s.fifeIn n o
    if o.start.isSome then s else
    match s.fifeTimes n o.issue d x (c.fife.take k) with
    | none => s
    | some (start, cyc) =>
      if d.k = 0 ∨ d.strips = 0 then s.modCore n fun x => { x with
        fife := x.fife.modify k fun o => { o with start := some start }, fifeFree := start }
      else
        let (ss, _) := stripsFrom x.bytes (ceilDiv d.k 128) d.strips (d.woff * 64)
        let et := s.fmvType n d
        let rows := x.rows d
        let rs := fifeReads d et (start + 1) cyc rows ss
        let s := rs.foldl (fun s r => s.sched n 9 r.2 512 r.1 false) s
        let s := if d.hold then s else (List.range d.strips).foldl (fun s i =>
          schedStrip n d o.chain (isIntMode et) start cyc i s) s
        s.modCore n fun x => { x with
          fife := x.fife.modify k fun o => { o with start := some start, reads := rs }, fifeFree := start + d.strips * cyc }
/-- An FMV issues (R328): descriptor, slot, chain and CM parameters are latched (R128). -/
def fmvIssue (n c off : Nat) (s : State) : State :=
  let bs := s.cm n (off * 32) 32
  let d := fmvOf bs
  let ps := if d.wsrc ∨ d.k = 0 then []
    else (stripsFrom (s.cmUpTo n) (ceilDiv d.k 128) d.strips (d.woff * 64)).1.map Prod.fst
  let s := s.sched n 9 (off * 32) 32 (s.cyc n) false
  let s := s.modCore n fun x => { x with
    fife := x.fife ++ [
      { ctx := c, pc := s.pc n c, desc := bs, latch := s.latchSlot d.slot, chain := s.fifeChain n d.chain,
        params := ps, issue := s.cyc n, amax := s.amaxLatches (stagesOf (s.fifeChain n d.chain)) }] }
  fifePlan n ((s.core n).fife.length - 1) s
/-- FDISCARD empties the hold bank, after the FMVs ahead of it (R327, R328; assumption 169, DEDUCED). -/
def fdiscard (n : Nat) (s : State) : State := s.modCore n fun x =>
  if x.fife.isEmpty then { x with fifeHold := none }
  else { x with fife := x.fife.modify (x.fife.length - 1) fun o => { o with drop := true } }

/-- A group's contribution when a factor is not finite, by the IEEE 754 rules (R35). -/
def specialSum (ta tw : Nat) (as ws : List Nat) : Nat :=
  to32 ((as.zip ws).foldl (fun a p =>
    let q := fpMul (elemFp ta p.1) (elemFp tw p.2)
    if q.special then fpAdd a q else a) (.num false 0 0))
/-- One group of up to 128 rows added to a strip entry (R53, R95). -/
def fifeGroup (ta tw old : Nat) (as ws : List Nat) : Nat :=
  match colProds ta tw as ws with
  | some ps => match windowSum ps with
    | some x => add32 old x
    | none => old
  | none => add32 old (specialSum ta tw as ws)
/-- Column j of a strip against one vector's codes: 128-row groups in order (R95). -/
def fifeColumn (int : Bool) (ta et : Nat) (groups : List (List Nat × List (List Nat))) (j : Nat) : Nat :=
  groups.foldl (fun acc g =>
    let ws := g.2.map fun r => r.getD j 0
    if int then ux 32 (satI32 (sx 32 acc + intSum (etBits et) g.1 ws))
    else fifeGroup ta et acc g.1 ws) 0

/-- The records and entries of one strip (R94, R95): `rows` are the K rows read, `qp` the poison of
the units of a stream source. Poison counts where the operation reads (R180). -/
def fifeStrip (x : FifeIn) (d : FmvDesc) (l : SlotLatch) (rows : List Nat) (qp : List Bool)
    (st : List Word × List (Nat × List Byte)) : AccTile × List (List Nat) :=
  let bytes := fun g => (st.2.getD g (0, [])).2
  let et := (hdrOf (bytes 0)).etype
  let int := isIntMode et
  let ta := if et = etBf16 then etBf16 else l.etype
  let vecs := (List.range d.v).map fun v =>
    mkVec l (et == etBf16) (rows.map fun k => of16 (x.act d v k)) (x.actPoison d rows v)
  let grp := fun (codes : List Nat) => (List.range (ceilDiv d.k 128)).map fun g =>
    let sel := (rows.zip codes).filter fun q => q.1 / 128 = g
    (sel.map Prod.snd,
     sel.map fun q => (tileRow (bytes g) (hdrOf (bytes g)) (q.1 % 128) 128).map (loadCode et))
  let vals := vecs.map fun v =>
    let gs := grp v.codes
    (List.range 128).map (fifeColumn int ta et gs)
  let ws := rows.map fun k =>
    let g := bytes (k / 128)
    tileRow g (hdrOf g) (k % 128) 128
  let colsum := (List.range 128).map fun j =>
    if int then ws.foldl (fun (a : Int) r => a + sx (etBits et) (r.getD j 0)) 0 -
      rows.length * sx 8 (F.mxeWparamZp.of (st.1.getD j 0).toNat) else 0
  let unit := fun (o : Nat) => if d.wsrc then qp.getD (o / 64) false else x.poison o
  let from_ := (st.2.headD (1024, [])).1 - 1024
  let wpoison := (List.range 16).any (fun u => unit (from_ + 64 * u)) || rows.any fun k =>
    let t := st.2.getD (k / 128) (0, [])
    tileRowPoison (fun u => unit (t.1 + 64 * u)) (hdrOf t.2) (k % 128)
  let nan := vecs.any Vec.nan ||
    ((et == etE4 || et == etE5) && ws.any fun r => r.any fun w => (elemFp et w).special)
  ({ st := 1, etype := et, cols := 128, fullCols := 128, mt := d.v, latch := l, wparam := st.1,
     rowsum := (vecs.zipIdx.map fun q => (q.2, q.1.rsum)), colacc := colsum,
     poison := if wpoison then List.range d.v else idxWhere Vec.poison vecs, nanSeen := nan },
   vals)
/-- Results of draining strips: state, next free unit at DST, poison, saturation, NAN_SEEN. -/
structure FifeRun where
  s : State
  dst : Nat
  poison : Bool
  sat : Bool
  nan : Bool

/-- One strip through Fife's chain (R128), which it enters in cycle `enter`; `h` is the hold bank's strip for
GATE_MUL. -/
def fifeDrain (n enter : Nat) (chain : List Word) (amax : List SlotLatch) (strip : Nat) (t : AccTile)
    (vals : List (List Nat)) (h : Option (AccTile × List (List Nat))) (r : FifeRun) : FifeRun :=
  let s := r.s.toCyc n enter
  let sts := (stagesOf chain).map (stripStage strip)
  let et := outType sts (isIntMode t.etype)
  let hv := (h.map Prod.snd).getD []
  let bias := (biasBases sts).map (s.biasVec (coreBase n) 128)
  let src : DrainSrc := ⟨t, (h.map Prod.fst).getD {}, fun i j => ix (hv.getD i []) j, coreBase n, latchIn amax, biasIn bias⟩
  let entry := fun i j => ix (vals.getD i []) j
  if chainSat src sts entry then { r with s := s, sat := true }
  else
    let run := drainRows src sts et 128 entry s
    let ws := drainWrites et (outFormat sts) run.rows (coreBase n + r.dst * 64) [(0, t.mt, 0, 128)]
    let s := run.amax.foldl (fun s a => s.report a.1 (some a.2)) (run.s.wrOps ws)
    let s := run.nanSlots.foldl (fun s k => s.slotNan k true) s
    let used := ws.foldl (fun a w => a + ceilDiv w.bs.length 64) 0
    { r with s := s, dst := r.dst + used, poison := r.poison || run.rows.any Prod.snd,
             nan := r.nan || !run.nanSlots.isEmpty }

/-- The oldest FMV finishes its strips, drains them or keeps them in the hold bank, reports its statistic and
signals its event (R93-R95, R180, R328). A stream-fed FMV waits for its bytes. -/
def fmvRun (n : Nat) (s : State) : State :=
  let x := s.core n
  match x.fife with
  | [] => s
  | op :: _ =>
    let d := fmvOf op.desc
    let q := tabGet [] x.fifeQ (d.woff % 16)
    let qp := tabGet [] x.fifeQP (d.woff % 16)
    let s := op.reads.foldl (fun s r => s.toCyc n r.1) s
    let src := s.fifeIn n (((s.core n).fife.head?).getD op)
    let rd := if d.wsrc then fun off len => (q.drop off).take len else src.bytes
    let (ss, stop) := stripsFrom rd (ceilDiv d.k 128) d.strips (if d.wsrc then 0 else d.woff * 64)
    let start := op.start.getD (max op.issue x.fifeFree)
    let pop := fun (s : State) => s.modCore n fun y => { y with fife := y.fife.drop 1, fifeFree := max y.fifeFree start }
    if d.k = 0 ∨ d.strips = 0 then
      (pop (s.toCyc n start)).signalIf d.en n d.event {}
    else if d.wsrc && decide (q.length < stop) then s
    else
      let ss := if d.wsrc then ss
        else ss.zipIdx.map fun p => (op.params.getD p.2 [], p.1.2)
      let bad := ss.foldl (fun c st => st.2.foldl (fun c t =>
        if c ≠ 0 then c
        else
          let f := tileFault t.2 (if d.wsrc then t.2.length else cmSize - t.1)
          let ht := (hdrOf t.2).etype
          if f ≠ 0 then f
          else if !isWeightType ht then ecDescFormat
          else if ht ≠ etBf16 ∧ wantCode (modeOf ht) op.latch.etype = false then ecDescFormat
          else 0) c) 0
      let et := (hdrOf ((ss.headD ([], [])).2.headD (0, [])).2).etype
      let bank := x.fifeHold.map fun h => (⟨h.v, h.strips, some (modeOf (h.tiles.headD {}).etype)⟩ : HoldView)
      let bad := if bad = 0 ∧ d.wsrc ∧ d.hold = false then fifeChainFault s bank d op.chain (modeOf et) else bad
      let s := pop s
      let s := s.doIf d.wsrc fun s => s.modCore n fun y =>
        { y with fifeQ := tabSet y.fifeQ (d.woff % 16) (q.drop stop),
                 fifeQP := tabMod [] y.fifeQP (d.woff % 16) (List.drop (stop / 64)) }
      if bad ≠ 0 then
        let s := (s.shadowDrop n (drainId op.issue 6)).raise
          { src := srcOf 1 n 6, code := bad, context := ctxWord op.pc op.ctx }
        s.signalIf d.en n d.event { code := bad }
      else
        let rows := src.rows d
        let cyc := stripCycles et d.k rows.length d.v d.gather
        let strips := ss.map fun st => fifeStrip src d op.latch rows qp st
        let nan := strips.any fun p => p.1.nanSeen
        let stat := (List.range d.v).foldl (fun a v =>
          if src.actPoison d rows v ∨ et = etBf16 then a
          else match a, statMax (statCenter op.latch) (rows.map fun k => of16 (src.act d v k)) with
            | some a, some b => some (max a b)
            | a, none => a
            | none, b => b) none
        let s := s.modCore n fun y => { y with fifeFree := max y.fifeFree (start + d.strips * cyc) }
        let s := fifePlan n 0 s
        let enter := fifeEnter start cyc
        let ends := enter (d.strips - 1)
        if d.hold then
          let s := (s.toCyc n ends).reportAt n ends op.latch.slot stat nan
          let s := s.modCore n fun y => { y with
            fifeHold := some ⟨d.v, d.strips, strips.map Prod.fst, strips.map Prod.snd⟩ }
          s.signalIf d.en n d.event { nanSeen := nan }
        else
          let uses := (gatePartner op.chain).isSome
          let hold := if uses then (s.core n).fifeHold else none
          let r := strips.zipIdx.foldl (fun r p =>
            let hs := hold.map fun h => (h.tiles.getD p.2 {}, h.vals.getD p.2 [])
            fifeDrain n (enter p.2) op.chain op.amax p.2 p.1.1 p.1.2 hs r) (⟨s, d.dst, false, false, nan⟩ : FifeRun)
          let last := lastWriteAt ends (stagesOf op.chain) 1 false d.v 128 128 (isIntMode et)
          let s := (r.s.toCyc n (last + 1)).reportAt n last op.latch.slot stat nan
          let s := s.doIf uses fun s => s.modCore n fun y => { y with fifeHold := none }
          s.signalIf d.en n d.event { poison := r.poison, sat := r.sat, nanSeen := r.nan }
/-- FMV_COMPLETE: an FDISCARD behind the FMV empties the hold bank after it. -/
def fmvComplete (n : Nat) (s : State) : State :=
  let t := fifePlan n 0 (fmvRun n s)
  t.doIf ((s.core n).fife.head?.any FifeOp.drop && decide ((t.core n).fife.length < (s.core n).fife.length))
    fun t => t.modCore n fun y => { y with fifeHold := none }

end Sys2Proof.Machine
end

