-- ==== Sys2Proof/Machine/Context.lean ====
section
/-! DEFINITION. Task contexts and core events (R314, R331-R336): context registers, START, STOP and
RESET, switching, waits and their satisfaction, HALT's DONE_EV, the task watchdog, the instruction
buffer. -/

namespace Sys2Proof.Machine

/-- SOURCE of a core's scalar unit. -/
def scSrc (n : Nat) : Nat := srcOf 1 n 0

/-! ### Context registers (R336) -/

/-- Drop a context's hold on its core: its wait, its stall, its place as the running context. -/
def leaveCore (n c : Nat) (s : State) : State :=
  let mine := (s.core n).running = some c
  let s := s.doIf ((s.core n).stall.any fun st => st.ctx == c) fun s => s.stallOff n
  s.modCore n fun x =>
    { x with
      running := if mine then none else x.running
      rep := if mine then 0 else x.rep
      waits := tabDel x.waits c
      stops := x.stops.filter (· != c) }
/-- START: IDLE to READY; refused in any other state, and when PC lies outside the code range. -/
def tctxStart (n c : Nat) (s : State) : State :=
  if s.ctx n c ≠ ctxIdle then s.conflict (scSrc n) (regAddr (.tctxCtl n c)) 1
  else if s.inCode n c (s.pc n c) = false ∨ (s.core n).pcOut.contains c then s.refuseWrite (scSrc n) (regAddr (.tctxCtl n c)) 1 ecDescRange
  else s.setCtx n c ctxReady
/-- STOP: READY, RUNNING or WAITING to IDLE at the next bundle boundary, which a REPEAT in progress
puts off to its last repetition; PC and registers are kept. -/
def tctxStop (n c : Nat) (s : State) : State :=
  if s.ctxLive n c then
    if (s.core n).running = some c ∧ (s.core n).rep ≠ 0 then
      s.modCore n fun x => { x with stops := c :: x.stops }
    else leaveCore n c (s.setCtx n c ctxIdle)
  else s
/-- RESET: any state to IDLE; PC becomes BASE, the poison bits clear, registers are kept. -/
def tctxReset (n c : Nat) (s : State) : State :=
  let s := leaveCore n c (s.setCtx n c ctxIdle)
  let s := s.setFld (.tctxPc n c) F.tctxPcPc (s.fld (.tctxCode n c) F.tctxCodeBase)
  let s := s.modCore n fun x => { x with pcOut := x.pcOut.filter (· != c) }
  s.setWord (.tctxPoison n c) 0
/-- A write of SC_TCTX_CTL. -/
def tctxCtlWrite (n c v : Nat) (s : State) : State :=
  let s := s.plainWrite (.tctxCtl n c) v
  let s := s.doIf (bitAt v 2) (tctxReset n c)
  let s := s.doIf (bitAt v 1) (tctxStop n c)
  s.doIf (bitAt v 0) (tctxStart n c)
/-- A write of SC_TCTX_CODE, PC, POISON or REG: discarded with CONFIG_CONFLICT while the context is
READY, RUNNING or WAITING; a code range past bundle 2,047 is refused. -/
def tctxGuarded (n c : Nat) (r : Reg) (v : Nat) (s : State) : State :=
  if s.ctxLive n c then s.conflict (scSrc n) (regAddr r) v
  else if r = .tctxCode n c ∧ 2048 < F.tctxCodeBase.of v + F.tctxCodeLen.of v then
    s.refuseWrite (scSrc n) (regAddr r) v ecDescRange
  else if r = .tctxReg n c 0 then s
  else
    let s := s.doIf (r = .tctxPc n c) fun s => s.modCore n fun x => { x with pcOut := x.pcOut.filter (· != c) }
    s.plainWrite r v
/-- A write of a context register. -/
def tctxWrite (n c : Nat) (reg : TctxReg) (v : Nat) (s : State) : State :=
  match reg with
  | .ctl => tctxCtlWrite n c v s
  | .code => tctxGuarded n c (.tctxCode n c) v s
  | .pc => tctxGuarded n c (.tctxPc n c) v s
  | .poison => tctxGuarded n c (.tctxPoison n c) v s
  | .reg i => tctxGuarded n c (.tctxReg n c i.val) v s

/-! ### Events (R314, R336) -/

/-- SC_EVENT_SET: each event of the mask is signalled with status OK. -/
def eventSet (n mask : Nat) (s : State) : State :=
  (List.range 64).foldl (fun s e => s.doIf (bitAt mask e) fun s => s.signal n e {}) s

/-! ### The instruction buffer (R299) -/

/-- A write to the instruction buffer: discarded with CONFIG_CONFLICT inside the code range of a
context that is READY, RUNNING or WAITING. -/
def ibufWrite (n p k v : Nat) (s : State) : State :=
  if (List.range 4).any fun c => s.ctxLive n c && s.inCode n c p then
    s.conflict (scSrc n) (regAddr (.ibuf n (p * 8 + k))) v
  else { s.setWord (.ibuf n (p * 8 + k)) v with
         parity := { s.parity with bundles := s.parity.bundles.filter (· != (n, p)) } }

/-! ### Waits (R312, R315, R332) -/

/-- The events of a wait's set that are set now. -/
def State.waitHits (s : State) (n mask : Nat) : Nat := s.word (.scEvent n) &&& mask
/-- Whether a wait's condition holds. -/
def waitHolds (s : State) (n : Nat) : WaitKind → Bool
  | .events mask all _ _ =>
    let h := s.waitHits n mask
    if all then h == mask else h != 0
  | .joining _ => false
  | .barrier b g ab => ab || barPast s b g
  | .joined _ => true
/-- A satisfied wait acts (R312, R315): s[RD] takes the status word of the single event, the mask of
satisfied events, or the barrier's GEN as the wait ends (assumption 186, DEDUCED); CLR clears the satisfying
events. -/
def waitDone (n c : Nat) (w : Wait) (s : State) : State :=
  match w.kind with
  | .events mask _ clr single =>
    let h := s.waitHits n mask
    let v := if single then s.word (.scEvstat n (((List.range 64).find? (bitAt mask)).getD 0)) else h
    let s := s.doIf clr fun s => s.clearNow n h true
    s.setSreg n c w.rd v false
  | .barrier b _ ab => s.setSreg n c w.rd (s.fld (.barState b) F.barStateGen + b2n ab * 2 ^ 63) false
  | .joining _ => s
  | .joined g => s.setSreg n c w.rd (g % 2 ^ 32) false
/-- WAIT_SATISFIED (R315, R332): the condition of a WAITING context holds. On its own core it runs on
in the next cycle; otherwise it becomes READY. -/
def waitSatisfied (n c : Nat) (s : State) : State :=
  match tabFind (s.core n).waits c with
  | none => s
  | some w =>
    if s.ctx n c = ctxWaiting ∧ waitHolds s n w.kind then
      let s := waitDone n c w s
      let s := s.modCore n fun x => { x with waits := tabDel x.waits c }
      if (s.core n).running = some c then
        (s.setCtx n c ctxRunning).modCore n fun x => { x with notBefore := max x.notBefore (s.cyc n + 1) }
      else s.setCtx n c ctxReady
    else s

/-! ### Choosing a context (R332) -/

/-- Distance of a context in the rotation after another. -/
def ctxDist (after c : Nat) : Nat := (c + 3 - after) % 4
/-- The READY context that runs next: highest priority first, then in rotation after the last one. -/
def pickCtx (s : State) (n : Nat) : Option Nat :=
  let last := ((s.core n).lastRun).getD 3
  let key := fun c => (1 - s.fld (.tctxCtl n c) F.tctxCtlPrio) * 4 + ctxDist last c
  ((List.range 4).filter fun c => s.ctx n c == ctxReady).foldl (fun a c =>
    match a with
    | none => some c
    | some b => if key c < key b then some c else some b) none
/-- A context takes the core: a switch costs 6 cycles unless it ran last. -/
def takeCore (n c : Nat) (s : State) : State :=
  let cost := if (s.core n).lastRun.any (· != c) then 6 else 0
  (s.setCtx n c ctxRunning).modCore n fun x =>
    { x with running := some c, lastRun := some c, notBefore := max x.notBefore (s.cyc n) + cost }
/-- The core's context for the next bundle: the running one, or the next READY one when it has left
the core or waits with SW. -/
def chooseCtx (n : Nat) (s : State) : Option Nat × State :=
  let cur := (s.core n).running
  let stays := cur.any fun c => s.ctx n c == ctxRunning ||
    (s.ctx n c == ctxWaiting && (tabFind (s.core n).waits c).any fun w => !w.sw)
  if stays then (cur, s)
  else match pickCtx s n with
    | some c => (some c, takeCore n c s)
    | none => (cur, s)

/-! ### HALT and the watchdog (R334, R335) -/

/-- True while a Colonnade transfer has an event to signal (R281, R282). -/
def ColTransfer.owes (t : ColTransfer) : Bool :=
  (bitAt (fieldAt t.desc 17 1) 7 && !t.sent) || (bitAt (fieldAt t.desc 16 1) 7 && !t.left.isEmpty)
/-- True while an operation of a context that carries an event, or a matrix operation, is in flight. -/
def ctxBusy (s : State) (n c : Nat) : Bool :=
  let x := s.core n
  x.mxes.any (fun m => m.2.feeder.any (fun f => f.ctx == c) || m.2.load.any (fun l => l.ctx == c) || m.2.cur.any (fun l => l.ctx == c) ||
    m.2.drains.any fun d => d.info.ctx == c) ||
  x.fills.any (fun f => f.ctx == c) || x.fife.any (fun f => f.ctx == c) ||
  x.vbg.any (fun v => v.ctx == c && v.evEn) || x.gturns.any (fun g => g.ctx == c) ||
  x.stq.any (fun o => o.ctx == c && (o.en || o.code == 4)) || x.colon.any fun t => t.ctx == c && t.owes
/-- The core cycle by which the fixed-latency results on their way have landed. -/
def lastLanding (x : Core) : Nat :=
  let a := x.slow.foldl (fun a o => max a (match o with
    | .cmw due .. => due
    | .reg due .. => due
    | .csrr due .. => due
    | .csrw due .. => due)) 0
  x.vpend.foldl (fun a w => max a w.due) a
/-- HALT (R334): the context is IDLE at once. -/
def halt (n c : Nat) (s : State) : State :=
  let s := leaveCore n c (s.setCtx n c ctxIdle)
  s.modCore n fun x => { x with halted := tabSet x.halted c (lastLanding x) }
/-- CONTEXT_DONE (R334): the operations of a halted context have completed; with DONE_EN set the core
signals DONE_EV. -/
def contextDone (n c : Nat) (s : State) : State :=
  match tabFind (s.core n).halted c with
  | none => s
  | some t =>
    if ctxBusy s n c then s
    else
      let s := (s.toCyc n t).modCore n fun x => { x with halted := tabDel x.halted c }
      s.doIf (s.bit (.tctxCtl n c) F.tctxCtlDoneEn) fun s =>
        s.signal n (s.fld (.tctxCtl n c) F.tctxCtlDoneEv) {}
/-- TASK_HANG (R335): the record names the core, the context, the PC, the cause and how long. -/
def taskHang (n c cause since : Nat) (s : State) : State :=
  s.coreErr n c 0 ecTaskHang 0 [(32, 1, cause), (36, 4, (s.now - since) / usTicks)]
/-- TASK_WATCHDOG (R335): the limit passes while a context stays WAITING, or while the whole core
stays stalled by one interlock; the record comes once for that wait or stall, which goes on. -/
def taskWatchdog (n c : Nat) (s : State) : State :=
  let lim := s.fld (.scTaskWdog n) F.scTaskWdogLimit * 1000 * fabTicks
  if lim = 0 then s
  else match tabFind (s.core n).waits c with
    | some w =>
      if w.hung then s
      else
        let s := s.advance (w.since + lim)
        let s := s.modCore n fun x => { x with waits := tabSet x.waits c { w with hung := true } }
        taskHang n c (match w.kind with | .events .. => 0 | _ => 1) w.since s
    | none => match (s.core n).stall with
      | some st =>
        if st.hung ∨ st.ctx ≠ c then s
        else
          let s := s.advance (st.since + lim)
          let s := s.modCore n fun x => { x with stall := some { st with hung := true } }
          taskHang n c (if st.cause = stReg then 2 else 3) st.since s
      | none => s

end Sys2Proof.Machine
end

