-- ==== Sys2Proof/Machine/Firmware.lean ====
section
/-! DEFINITION. Firmware update, the management sideband, debug unlock, the test access port (spec/14,
R468-R475; spec/16, R529-R531), the error ring's consumers and the flash event log (spec/15, R486,
R487), mode, timers, GPIO and trace port (R490, R500, R501). -/

namespace Sys2Proof.Machine

/-- SOURCE of the firmware service and of the debug unit (R484). -/
def fwSrc : Nat := srcOf 8 0 2
def dbgSrc : Nat := srcOf 8 0 3
/-- SOURCE of the device (R484). -/
def chipSrc : Nat := srcOf 0 0 0

/-! ### Firmware update (R468-R470, R472) -/

/-- The image that words spell, and whether it passes every check of R468. -/
def readImage (ws : List Word) (svn : Nat) : Image :=
  let v := Config.imageField ws 0 % 64
  ⟨ws, v, Config.imageField ws 2 % 2 ^ 48, Config.authentic ws && decide (svn ≤ v)⟩
/-- HIF_FW_STAT: STATE, with a code. -/
def fwState (st code : Nat) (s : State) : State :=
  (s.setFld .hifFwStat F.hifFwStatState st).setFld .hifFwStat F.hifFwStatCode code
/-- The image is verified before anything is erased; then the inactive slot is being written. -/
def fwBegin (ws : List Word) (s : State) : State :=
  let s := fwState 1 0 (progStart 7 s)
  let x := readImage ws s.chip.svn
  if x.good then
    { fwState 2 0 s with chip := { s.chip.setSlot s.chip.inactive none with update := some x } }
  else
    progFail 7 ecFwAuth (fwState 5 ecFwAuth (authFail s.chip.inactive (Config.imageField ws 1 % 4) s))
/-- The slot is written, its header last, and compares (R469): the image is pending. -/
def fwFinish (s : State) : State :=
  match s.chip.update with
  | none => s
  | some x =>
    let s := { s with chip := { s.chip.setSlot s.chip.inactive (some x) with update := none, pending := true } }
    progDone 7 (x.ws.length * 8) (fwState 4 0 s)
/-- The words of an image in device memory; none where it is poisoned. -/
def imageWords (s : State) (da len : Nat) : List Word :=
  if s.anyPoison da len then []
  else
    let bs := s.rdRange da len
    (chunks 8 (ceilDiv len 8) bs).map fun b => BitVec.ofNat 64 (leNat b)
/-- FW_UPDATE_START (R469). -/
def fwStart (s : State) : State :=
  let da := s.fld .hifFwSrc F.hifFwSrcAddr * 64
  let len := s.fld .hifFwCtl F.hifFwCtlLen
  if s.chip.update.isSome then s.conflict fwSrc (regAddr .hifFwCtl) 1
  else if s.reach da len ≠ 0 then s.refuseWrite fwSrc (regAddr .hifFwCtl) 1 ecDescRange
  else
    let s := s.touch da len
    fwBegin (imageWords s da len) s
/-- FW_UPDATE_ABORT (R469): the inactive slot is left invalid. -/
def fwAbort (s : State) : State :=
  if s.chip.update.isSome then
    progFail 7 0 (fwState 5 0 { s with chip := { s.chip with update := none } })
  else s
/-- FW_COMMIT (R469): the trial image boots by default. -/
def fwCommit (s : State) : State :=
  if s.chip.trial then { s with chip := { s.chip with active := s.chip.running, trial := false } } else s
/-- FW_COMMIT_SVN (R469): refused while TRIAL is 1. -/
def fwCommitSvn (s : State) : State :=
  if s.chip.trial then s.conflict fwSrc (regAddr .hifFwCtl) 8
  else
    let v := ((s.chip.slot s.chip.running).map Image.svn).getD 0
    { s with chip := { s.chip with svn := max s.chip.svn v } }
/-- A write of HIF_FW_CTL: LEN, then its bits. -/
def fwCtlWrite (v : Nat) (s : State) : State :=
  if 33554432 < F.hifFwCtlLen.of v then s.refuseWrite fwSrc (regAddr .hifFwCtl) v ecDescRange
  else
    let s := s.plainWrite .hifFwCtl v
    (((s.doIf (bitAt v 0) fwStart).doIf (bitAt v 1) fwAbort).doIf (bitAt v 2) fwCommit).doIf (bitAt v 3) fwCommitSvn
/-- HIF_FW_STAT as it reads: PENDING and TRIAL follow the flash. -/
def fwStatWord (s : State) : Nat :=
  F.hifFwStatPending.put (F.hifFwStatTrial.put (s.word .hifFwStat) (b2n s.chip.trial)) (b2n s.chip.pending)
/-- A message of the management sideband reaches the device (R471, R526): over SMBus at its 7-bit address, or over PCI
Express. -/
def State.sideband (s : State) (addr : Option Nat) : Bool :=
  s.auxOn && match addr with
    | some a => a == s.chip.sbAddr
    | none => !s.chip.held && !s.chip.pciDown
/-- PLDM_FW_UPDATE (R472): the same checks and the same slot, from the sideband. -/
def pldmUpdate (addr : Option Nat) (image : List Word) (s : State) : State :=
  if s.sideband addr = false then s
  else if s.chip.update.isSome then s.conflict fwSrc (regAddr .hifFwCtl) 1
  else fwBegin image s

/-! ### The error ring's consumers (R485-R487) -/

/-- The record at a ring index; true for a fault. -/
def State.ringByte (s : State) (i b : Nat) : Nat := bitsOf (s.word (.errRing i (b / 8))) (b % 8 * 8 + 7) (b % 8 * 8)
def State.ringFault (s : State) (i : Nat) : Bool := s.ringByte i 10 != 0 && s.ringByte i 11 % 2 == 0
def State.ringSeq (s : State) (i : Nat) : Nat := bitsOf (s.word (.errRing i 1)) 63 32
def State.ringRecord (s : State) (i : Nat) : List Byte := (List.range 8).flatMap fun w => natLe 8 (s.word (.errRing i w))
/-- FLASH_LOG_COPY (R486): fault records raised since the last copy, oldest first; the log holds
32,768. -/
def flashCopy (s : State) : State :=
  let head := s.fld .errHead F.errHeadHead
  let new := ((List.range 1024).map fun i => (head + i) % 1024).filter fun i =>
    s.ringFault i && decide (s.chip.logSeq ≤ s.ringSeq i)
  let log := s.chip.log ++ new.map s.ringRecord
  { s with chip := { s.chip with log := log.drop (log.length - 32768), logSeq := s.fld .errHead F.errHeadSeq } }
/-- ERR_TAIL_WRITE (R487): within TAIL to HEAD, counting forward; the management cursor moves out of
what may now be overwritten (R486). -/
def errTailWrite (v : Nat) (s : State) : State :=
  let t := F.errTailTail.of v
  let tail := s.fld .errTail F.errTailTail
  let head := s.fld .errHead F.errHeadHead
  let cur := s.fld .errMgmt F.errMgmtCursor
  if (head + 1024 - tail) % 1024 < (t + 1024 - tail) % 1024 then
    s.refuseWrite chipSrc (regAddr .errTail) v ecDescRange
  else
    let s := s.setFld .errTail F.errTailTail t
    let d := (cur + 1024 - tail) % 1024
    let k := (t + 1024 - tail) % 1024
    s.doIf (decide (d < k)) fun s => (s.setFld .errMgmt F.errMgmtCursor t).bump .errMgmt F.errMgmtSkipped (k - d)
/-- Fault records between the management cursor and HEAD. -/
def State.uncollected (s : State) : Nat :=
  let cur := s.fld .errMgmt F.errMgmtCursor
  ((List.range ((s.fld .errHead F.errHeadHead + 1024 - cur) % 1024)).filter fun i =>
    s.ringFault ((cur + i) % 1024)).length
/-- ALERT_N (R472) is asserted. -/
def State.alert (s : State) : Bool :=
  s.bit .clkStatus F.clkStatusRefLoss || s.power.trip || decide (2 ≤ s.fld .hifBoot F.hifBootState) ||
    decide (s.uncollected ≠ 0)

/-! ### Management sideband (R471, R472) -/

/-- A PLDM event read: the record at the management cursor. -/
def eventRead (s : State) : State :=
  let cur := s.fld .errMgmt F.errMgmtCursor
  if cur = s.fld .errHead F.errHeadHead then noAnswer 1 s
  else
    { s.setFld .errMgmt F.errMgmtCursor ((cur + 1) % 1024) with reply := some ⟨leNat (s.ringRecord cur), 0⟩ }
/-- PLDM_REQUEST (R471): sensor 0 package power, 1 hottest Tj, 2-9 stack temperatures, 10 VDD_CORE
current, 11 idle state, 12 boot stage, 13 fault records, 14 an event read (numbers: assumption 16, DESIGN CHOICE). A
source on a compute die held in reset, and a stack in I4, is unavailable. -/
def pldmRequest (addr : Option Nat) (t : Nat) (s : State) : State :=
  let ok (v : Nat) (s : State) : State := { s with reply := some ⟨v, 0⟩ }
  if s.sideband addr = false then s
  else if t = 12 then ok (if s.chip.held then 0 else s.fld .hifBoot F.hifBootStage) s
  else if s.dead then noAnswer 1 s
  else if t = 0 then ok (s.fld .blwStat F.blwStatPkgW) s
  else if t = 1 then ok (s.fld .blwStat F.blwStatTjMax) s
  else if t < 10 then
    if s.fld .hifIdle F.hifIdleState = 4 then noAnswer 1 s
    else
      let (v, s) := (wake s).free 16
      ok v s
  else if t = 10 then
    let (v, s) := s.free 16
    ok v s
  else if t = 11 then ok (s.fld .hifIdle F.hifIdleState) s
  else if t = 13 then
    ok (((List.range 1024).filter s.ringFault).length) s
  else if t = 14 then eventRead (wake s)
  else noAnswer 1 s

/-! ### Debug unlock (R473-R475) -/

/-- An open scope. -/
def State.scope (s : State) (i : Nat) : Bool := bitAt (s.fld .dbgStat F.dbgStatScope) i
/-- The token's bytes. -/
def tokenBytes (ws : List Word) : List Byte := (ws.flatMap fun w => natLe 8 w.toNat).take 160
/-- A token passes (R474): the challenge, the serial number, fields, and the signature. -/
def tokenOk (s : State) (ws : List Word) : Bool :=
  let bs := tokenBytes ws
  fieldAt bs 0 8 == s.word (.dbgChal 0) && fieldAt bs 8 8 == s.word (.dbgChal 1) &&
    fieldAt bs 16 8 == Config.serial % 2 ^ 64 && decide (fieldAt bs 24 4 < 16) && decide (fieldAt bs 28 1 < 8) &&
    fieldAt bs 29 35 == 0 && Config.authentic ws
/-- Every queue, DMA channel and collective is aborted (R475). -/
def abortAll (s : State) : State :=
  let s := abortCollectives s
  let s := (List.range 64).foldl (fun s q =>
    let s := qAbort q s
    ((s.qp q).cmds.filter fun c => !c.done).foldl (fun s c => endCmd q c.id ⟨4, 0, 0⟩ s) s) s
  let s := (List.range 8).foldl (fun s c => dmaCfgWrite c 0 s) s
  { s with hif := { s.hif with jobs := [], tasks := [], kernels := [], pins := [] } }
/-- The Orangery, every CM and every stack are zero-filled, as stage 6 of a cold boot does (R475). -/
def clearAll (s : State) : State :=
  let st := s.fld .hifBoot F.hifBootStage
  let fin := s.fld .hifBoot F.hifBootState
  let s := (setStage 6 0 s).advance (s.now + 12 * msTicks)
  let s := restack (s.dropMem fun x => isOrangery x || (isCoreMem x && !isEngine x))
  setStage st fin s
/-- DEBUG_UNLOCK (R474, R475, R476): bit 0 of HIF_DBG_CTL, or its JTAG equivalent. -/
def debugUnlock (jtag : Bool) (s : State) : State :=
  let ws := if jtag then s.chip.jtagToken else (List.range 20).map fun i => BitVec.ofNat 64 (s.word (.dbgToken i))
  let fails := s.fld .dbgStat F.dbgStatFails
  if s.ready = false ∧ s.recovery = false ∨ 3 ≤ fails then s.conflict dbgSrc (regAddr .dbgCtl) 1
  else if tokenOk s ws then
    let scope := fieldAt (tokenBytes ws) 24 4
    let key := fieldAt (tokenBytes ws) 28 1
    let s := s.doIf (decide (key < 4) && (bitAt scope 2 || bitAt scope 3)) fun s => clearAll (abortAll s)
    let s := s.setFld .dbgStat F.dbgStatScope (s.fld .dbgStat F.dbgStatScope ||| scope)
    newChallenge (s.setFld .dbgStat F.dbgStatKey key)
  else
    let s := s.setFld .dbgStat F.dbgStatFails (fails + 1)
    newChallenge (s.raise
      { src := dbgSrc, code := ecFwAuth, detail := [(32, 1, 1), (34, 1, fieldAt (tokenBytes ws) 28 1)] })

/-! ### Test access port (R529-R531) -/

/-- An instruction of the test port, while the AUX rails are on. -/
def tap (ir : Nat) (f : State → State) (s : State) : State :=
  if s.auxOn then f { s with chip := { s.chip with jtagIr := ir } } else s
/-- A locked or unknown opcode selects the bypass register. -/
def tapIf (scope ir : Nat) (f : State → State) (s : State) : State :=
  if s.scope scope then tap ir f s else tap 0xFF (fun s => { s with chip := { s.chip with jtagDr := 0 } }) s
/-- EXTEST and EXTEST_PULSE (R531): every covered output follows the register; all links go down. -/
def extest (ir v : Nat) (s : State) : State :=
  tap ir (fun s =>
    let s := if s.chip.held then s else allPorts.foldl (fun s p => linkDown p s) s
    { s with chip := { s.chip with jtagDr := BitVec.ofNat 64 v, extest := true, pciDown := true } }) s
/-- SAMPLE/PRELOAD: the pins are sampled (the order of the cells is not in the spec: a free value), and
the register is loaded. -/
def samplePreload (v : Nat) (s : State) : State :=
  tap 0x02 (fun s =>
    let (w, s) := s.free 64
    { s with chip := { s.chip with jtagDr := BitVec.ofNat 64 v }, reply := some ⟨w, 0⟩ }) s
/-- IEEE1687_ACCESS: what the instruments answer is not in the spec: a free value. -/
def instruments (v : Nat) (s : State) : State :=
  tapIf 0 0x20 (fun s =>
    let (w, s) := s.free 64
    { s with chip := { s.chip with instruments := BitVec.ofNat 64 v }, reply := some ⟨w, 0⟩ }) s
/-- CC_HALT_STEP: a halted control core stays halted; a step runs one of its instructions. -/
def ccHalt (cc : Nat) (s : State) : State :=
  tapIf 2 0x21 (fun s =>
    if s.chip.ccHalted.contains cc then s else { s with chip := { s.chip with ccHalted := s.chip.ccHalted ++ [cc] } }) s
/-- JTAG_MEMORY_ACCESS: 8 bytes of an SRAM or a stack. -/
def jtagMemory (a v : Nat) (write : Bool) (s : State) : State :=
  tapIf 3 0x22 (fun s =>
    let mapped := match placeOf a with
      | .stack _ _ | .orangery _ | .cm _ _ | .engine _ _ _ => true
      | _ => false
    if !mapped || a % 8 != 0 then noAnswer 1 s
    else if write then bgWrite 14 a (natLe 8 v) [false] s
    else
      let (u, s) := s.fetch a
      { s with reply := some ⟨leNat ((u.bs.drop (a % 64)).take 8), b2n u.poison * 3⟩ }) s

/-! ### Mode, timers, GPIO, trace (R490, R500, R501) -/

/-- CHIP_MODE_WRITE (R490): the VCORES bit of a core under test stays. -/
def chipModeWrite (r : Requester) (v : Nat) (s : State) : State :=
  let clears := (List.range 32).any fun n => s.fld (.coreMap n) F.coreMapState == 1 && !bitAt v (32 + n)
  if r == .host && clears then s.conflict chipSrc (regAddr .chipMode) v else s.plainWrite .chipMode v
/-- TRACE_ENABLE (R500). -/
def traceEnable (en : Bool) (s : State) : State :=
  if en && s.fld .chipGpio F.chipGpioOe != 0 then s.conflict chipSrc (regAddr .tstTraceCtl) 1
  else if en && !s.scope 1 then s.refuseWrite chipSrc (regAddr .tstTraceCtl) 1 ecFwAuth
  else s.setFld .tstTraceCtl F.tstTraceCtlEn (b2n en)
/-- CHIP_GPIO_WRITE (R500). -/
def gpioWrite (v : Nat) (s : State) : State :=
  if s.bit .tstTraceCtl F.tstTraceCtlEn && F.chipGpioOe.of v != 0 then s.conflict chipSrc (regAddr .chipGpio) v
  else s.plainWrite .chipGpio v
/-- CHIP_GPIO as it reads: an output's level is what it drives. -/
def gpioWord (s : State) : Nat :=
  let oe := s.fld .chipGpio F.chipGpioOe
  F.chipGpioIn.put (s.word .chipGpio)
    ((s.fld .chipGpio F.chipGpioOut &&& oe) ||| (s.fld .chipGpio F.chipGpioIn &&& (0xFFFF - oe)))
/-- CHIP_TIMER_WRITE (R501): channels 0-3 belong to the device. -/
def timerWrite (r : Requester) (k v : Nat) (s : State) : State :=
  if r == .host && decide (k < 4) then s.conflict chipSrc (regAddr (.chipTimer k)) v
  else
    let s := s.plainWrite (.chipTimer k) v
    { s with chip := { s.chip with timers := tabSet s.chip.timers k s.now } }
/-- CHIP_TIMER_EXPIRY (R501). -/
def timerExpiry (k : Nat) (s : State) : State :=
  let r := Reg.chipTimer k
  let p := s.fld r F.chipTimerPeriod
  if k < 4 ∨ p = 0 ∨ s.bit r F.chipTimerEn = false then s
  else
    let t := tabGet 0 s.chip.timers k + p * fabTicks
    let s := addEvent (s.fld r F.chipTimerCevent) 1 (s.advance t)
    let s := { s with chip := { s.chip with timers := tabSet s.chip.timers k t } }
    s.doIf (s.bit r F.chipTimerOneshot) fun s => s.setFld r F.chipTimerEn 0

/-! ### The commands -/

/-- FW_UPDATE_START (R469). -/
def execFwUpdateStart (r : Requester) (s : State) : Host.Outcome State Fault Refusal := runReg r fwStart s
/-- FW_UPDATE_ABORT (R469). -/
def execFwUpdateAbort (r : Requester) (s : State) : Host.Outcome State Fault Refusal := runReg r fwAbort s
/-- FW_COMMIT (R469). -/
def execFwCommit (s : State) : Host.Outcome State Fault Refusal := runHif fwCommit s
/-- FW_COMMIT_SVN (R469). -/
def execFwCommitSvn (s : State) : Host.Outcome State Fault Refusal := runHif fwCommitSvn s
/-- PLDM_REQUEST (R471). -/
def execPldmRequest (t : Pldm Byte) (s : State) : Host.Outcome State Fault Refusal :=
  runAlways (pldmRequest (t.addr.map BitVec.toNat) t.arg.toNat) s
/-- PLDM_CAP_EFFECTER (R471): the effecter writes BLW_CAP. -/
def execPldmCapEffecter (w : Pldm (BitVec 16)) (s : State) : Host.Outcome State Fault Refusal :=
  run (fun s => if s.sideband (w.addr.map BitVec.toNat) then
    blwCapWrite (if w.arg.toNat < 2048 then w.arg.toNat else 0) s else s) s
/-- PLDM_FW_UPDATE (R472). -/
def execPldmFwUpdate (image : Pldm (List Word)) (s : State) : Host.Outcome State Fault Refusal :=
  runAlways (pldmUpdate (image.addr.map BitVec.toNat) image.arg) s
/-- DEBUG_UNLOCK (R474). -/
def execDebugUnlock (jtag : Bool) (s : State) : Host.Outcome State Fault Refusal :=
  run (fun s => if jtag || s.hifServed then debugUnlock jtag s else noAnswer 1 s) s
/-- EXTEST (R530). -/
def execExtest (v : Word) (s : State) : Host.Outcome State Fault Refusal := runAlways (extest 0x00 v.toNat) s
/-- EXTEST_PULSE (R530). -/
def execExtestPulse (s : State) : Host.Outcome State Fault Refusal :=
  runAlways (fun s => extest 0x0A s.chip.jtagDr.toNat s) s
/-- IDCODE (R529). -/
def execIdcode (s : State) : Host.Outcome State Fault Refusal :=
  runAlways (tap 0x01 fun s =>
    { s with reply := some ⟨2 ^ 28 + 0x9400 * 2 ^ 12 + Config.jedec % 2 ^ 11 * 2 + 1, 0⟩ }) s
/-- SAMPLE_PRELOAD (R529). -/
def execSamplePreload (v : Word) (s : State) : Host.Outcome State Fault Refusal := runAlways (samplePreload v.toNat) s
/-- BYPASS (R529). -/
def execBypass (s : State) : Host.Outcome State Fault Refusal :=
  runAlways (tap 0xFF fun s => { s with chip := { s.chip with jtagDr := 0 } }) s
/-- IEEE1687_ACCESS (R529). -/
def execIeee1687Access (v : Word) (s : State) : Host.Outcome State Fault Refusal := runAlways (instruments v.toNat) s
/-- CC_HALT_STEP (R529). -/
def execCcHaltStep (cc : Fin 4) (_step : Bool) (s : State) : Host.Outcome State Fault Refusal := run (ccHalt cc) s
/-- JTAG_MEMORY_ACCESS (R529). -/
def execJtagMemoryAccess (a : Nat) (v : Word) (write : Bool) (s : State) : Host.Outcome State Fault Refusal :=
  run (jtagMemory a v.toNat write) s
/-- CHALLENGE_READ (R529). -/
def execChallengeRead (s : State) : Host.Outcome State Fault Refusal :=
  runAlways (tap 0x30 fun s =>
    { s with reply := some ⟨s.word (.dbgChal 0) + s.word (.dbgChal 1) * 2 ^ 64, 0⟩ }) s
/-- TOKEN_WRITE (R529): 1,280 bits. -/
def execTokenWrite (ws : List Word) (s : State) : Host.Outcome State Fault Refusal :=
  runAlways (tap 0x31 fun s => { s with chip := { s.chip with jtagToken := ws.take 20 } }) s
/-- TAP_RESET (R531). -/
def execTapReset (s : State) : Host.Outcome State Fault Refusal :=
  runAlways (tap 0x01 fun s => { s with chip := { s.chip with jtagDr := 0, extest := false } }) s
/-- ERR_TAIL_WRITE (R487). -/
def execErrTailWrite (v : Word) (s : State) : Host.Outcome State Fault Refusal :=
  run (fun s => errTailWrite v.toNat (wake s)) s
/-- FLASH_LOG_COPY (R486). -/
def execFlashLogCopy (s : State) : Host.Outcome State Fault Refusal := run flashCopy s
/-- CHIP_MODE_WRITE (R490). -/
def execChipModeWrite (r : Requester) (v : Word) (s : State) : Host.Outcome State Fault Refusal :=
  runReg r (chipModeWrite r v.toNat) s
/-- TRACE_ENABLE (R500). -/
def execTraceEnable (_r : Requester) (en : Bool) (s : State) : Host.Outcome State Fault Refusal :=
  run (fun s => traceEnable en (wake s)) s
/-- CHIP_GPIO_WRITE (R500). -/
def execChipGpioWrite (r : Requester) (v : Word) (s : State) : Host.Outcome State Fault Refusal :=
  runReg r (gpioWrite v.toNat) s
/-- CHIP_TIMER_EXPIRY (R501). -/
def execChipTimerExpiry (k : Fin 8) (s : State) : Host.Outcome State Fault Refusal := run (timerExpiry k) s
/-- CHIP_TIMER_WRITE (R501). -/
def execChipTimerWrite (r : Requester) (k : Fin 8) (v : Word) (s : State) : Host.Outcome State Fault Refusal :=
  runReg r (timerWrite r k v.toNat) s

end Sys2Proof.Machine
end

