-- ==== Sys2Proof/Machine/Colonnade.lean ====
section
/-! DEFINITION. The Colonnade chain (spec/09, R280-R284). -/

namespace Sys2Proof.Machine

/-- The fields of a Colonnade descriptor (R281). -/
structure ColDesc where
  mask : Nat
  src : Nat
  len : Nat
  dkind : Nat
  mxe : Nat
  set : Nat
  dst : Nat
  devent : Nat
  sevent : Nat
  deriving DecidableEq, Repr
/-- A descriptor's fields. -/
def colDesc (d : List Byte) : ColDesc :=
  let f := fieldAt d
  ⟨f 0 4, f 4 4, f 8 2, f 10 1, f 11 1 % 4, f 11 1 / 4 % 4, f 12 4, f 16 1, f 17 1⟩
/-- Fault of a descriptor at decode (R281). -/
def colFault (d : List Byte) : Nat :=
  let f := fieldAt d
  let c := colDesc d
  let dend := (c.dst + c.len) * 64
  if 2 ^ 17 ≤ c.src ∨ 16 ≤ f 11 1 ∨ 2 ^ 17 ≤ c.dst ∨ bitAt c.devent 6 ∨ bitAt c.sevent 6 ∨
    f 18 14 ≠ 0 ∨ 3 ≤ c.dkind then ecDescFormat
  else if 1024 < c.len ∨ cmSize < (c.src + c.len) * 64 ∨ (c.dkind = 0 ∧ cmSize < dend) ∨
    (c.dkind = 1 ∧ 0x40000 < dend) ∨ (c.dkind = 2 ∧ 0x4000 < dend) then ecDescRange
  else 0
/-- The address the data lands at on a core. -/
def colDst (c : ColDesc) (m : Nat) : Nat :=
  if c.dkind = 0 then coreBase m + c.dst * 64
  else if c.dkind = 1 then abBase m c.mxe + c.dst * 64
  else wsBase m c.mxe c.set + c.dst * 64
/-- Hops from a core to another, upward in logical order (R280). -/
def hopsTo (a m : Nat) : Nat := (m + 32 - a) % 32
/-- FABRIC_CLK cycles of the first h hops from a core. -/
def hopTime (s : State) (a h : Nat) : Nat :=
  (List.range h).foldl (fun t i => t + s.fld (.strColStat ((a + i) % 32)) F.strColStatHop) 0
/-- Hops to the last core that a mask names. -/
def lastHop (a mask : Nat) : Nat :=
  (List.range 32).foldl (fun h m => if bitAt mask m then max h (hopsTo a m) else h) 0
/-- The ring links of a transfer from core a (link i leads from core i). -/
def colLinks (a mask : Nat) : List Nat := (List.range (lastHop a mask)).map fun i => (a + i) % 32
/-- The links that a transfer still reserves: one is free once the last chunk has crossed it (R283). -/
def colBusy (s : State) (a : Nat) (t : ColTransfer) : List Nat :=
  let c := colDesc t.desc
  match t.start with
  | none => colLinks a c.mask
  | some t0 => ((List.range (lastHop a c.mask)).filter fun i =>
      decide (s.now < t0 + (hopTime s a (i + 1) + ceilDiv c.len 4 - 1) * fabTicks)).map fun i => (a + i) % 32
/-- COLON (R281): the descriptor is read and checked; MASK or LEN 0 signals SEVENT at once. -/
def colonRequest (n c pc off : Nat) (s : State) : State :=
  let past := decide (cmSize < off * 32 + 32)
  let (s, shut) := if past then (s, false) else bgReach 12 (coreBase n + off * 32) 32 false s
  let d := s.cm n (off * 32) 32
  let cd := colDesc d
  let bad := if past then ecDescRange else if shut then ecSlotOrder else colFault d
  if bad ≠ 0 then
    let s := s.doIf (!shut) fun s => s.raise
      { src := srcOf 1 n 7, code := bad, addr := coreBase n + off * 32, context := ctxWord pc c }
    s.signalIf (bitAt cd.sevent 7) n (cd.sevent % 64) { code := bad }
  else if cd.mask = 0 ∨ cd.len = 0 then s.signalIf (bitAt cd.sevent 7) n (cd.sevent % 64) {}
  else s.modCore n fun x => { x with colon := x.colon ++
    [⟨d, s.now, none, false, [], (List.range 32).filter (bitAt cd.mask), c⟩] }
/-- Every Colonnade transfer of the chip, with its source core. -/
def allCol (s : State) : List (Nat × ColTransfer) :=
  s.cores.flatMap fun c => c.2.colon.map fun t => (c.1, t)
/-- True when two transfers need a common ring link. -/
def colClash (s : State) (a : Nat) (t : ColTransfer) (b : Nat) (u : ColTransfer) : Bool :=
  (colBusy s a t).any fun l => (colBusy s b u).contains l
/-- A transfer is under way somewhere on the chip. -/
def ringBusy (s : State) : Bool := (allCol s).any fun t => t.2.start.isSome
/-- The transfer is replaced in its core's list. -/
def setCol (n : Nat) (t u : ColTransfer) (s : State) : State :=
  s.modCore n fun x => { x with colon := x.colon.map fun v => if v = t then u else v }
/-- Units of CM read with their poison. -/
def State.unitsAt (s : State) (da k : Nat) : List UnitP :=
  (List.range k).map fun i => ⟨s.rd (da + 64 * i) 64, s.poisoned (da + 64 * i)⟩
/-- COLONNADE_START (R283): the oldest waiting transfer of core n starts when no transfer under way,
and no waiting transfer that arrived before it, needs one of its links, and no substitution waits for the ring. -/
def colonnadeStart (n : Nat) (s : State) : State :=
  match (s.core n).colon.find? fun t => t.start.isNone with
  | none => s
  | some t =>
    let clash := (allCol s).any fun q =>
      (q.2.start.isSome || decide (q.2.arr < t.arr)) && !(q.1 == n && q.2 == t) && colClash s n t q.1 q.2
    if clash ∨ s.chip.ringHold ≠ [] then s
    else
      let c := colDesc t.desc
      let (s, bad) := bgReach 13 (coreBase n + c.src * 64) (c.len * 64) false s
      if bad then
        (s.modCore n fun x => { x with colon := x.colon.erase t }).signalIf (bitAt c.sevent 7) n (c.sevent % 64)
          { code := ecSlotOrder }
      else
        let s := s.bump (.strColCnt n) F.strColCntWait ((s.now - t.arr) / fabTicks)
        let s := s.bump (.strColCnt n) F.strColCntSent c.len
        setCol n t { t with start := some s.now, data := s.unitsAt (coreBase n + c.src * 64) c.len } s
/-- A transfer that has been sent and written everywhere releases its links. -/
def colReap (n : Nat) (s : State) : State :=
  s.modCore n fun x => { x with colon := x.colon.filter fun t => !(t.sent && t.left.isEmpty) }
/-- COLONNADE_SENT (R282): SEVENT, one cycle after the last chunk has left. -/
def colonnadeSent (n : Nat) (s : State) : State :=
  match (s.core n).colon.find? fun t => t.start.isSome && !t.sent with
  | none => s
  | some t =>
    let c := colDesc t.desc
    let s := s.advance (t.start.getD 0 + ceilDiv c.len 4 * fabTicks)
    let s := setCol n t { t with sent := true } s
    colReap n (s.signalIf (bitAt c.sevent 7) n (c.sevent % 64) { poison := t.data.any (·.poison) })
/-- COLONNADE_DELIVERED (R282): core m has written its last chunk; DEVENT follows 2 cycles later. In
validation mode the shadow checks the write with requester code 13 (R284). -/
def colonnadeDelivered (n m : Nat) (s : State) : State :=
  match (s.core n).colon.find? fun t => t.start.isSome && t.left.contains m with
  | none => s
  | some t =>
    let c := colDesc t.desc
    let at_ := t.start.getD 0 + (hopTime s n (hopsTo n m) + ceilDiv c.len 4 - 1) * fabTicks
    let s := s.advance at_
    let s := setCol n t { t with left := t.left.filter (· != m) } s
    let t0 := s.now
    let (s, bad) := bgReach 13 (colDst c m) (c.len * 64) true s
    let s := s.doIf (!bad) fun s => s.wrUnits (colDst c m) (t.data.map fun (u : UnitP) => (u.bs, u.poison))
    let code := if bad then ecSlotOrder else 0
    let s := s.advance (at_ + (s.now - t0) + 2 * fabTicks)
    let s := s.signalIf (bitAt c.devent 7) m (c.devent % 64)
      { code := code, poison := t.data.any (·.poison) }
    colReap n s

end Sys2Proof.Machine
end

