-- ==== Sys2Proof/Machine/Stream.lean ====
section
/-! DEFINITION. The stream engines (spec/09, R265-R279; spec/10, R329, R330): queue control, program
validation, stream instructions, transfers, and the operations of the stream slot. -/

namespace Sys2Proof.Machine

/-- SOURCE of a stream engine's records (R484). -/
def strSrc (n : Nat) : Nat := srcOf 1 n 7

/-! ### Instructions (R271) -/

/-- Instruction i of a queue's program. -/
def State.strWord (s : State) (n q i : Nat) : Nat := s.word (.strProg n q i)
/-- Opcode of a stream instruction. -/
def siOp (w : Nat) : Nat := bitsOf w 63 60
/-- Index register fields: SI, and IR or DI. -/
def siSi (w : Nat) : Nat := bitsOf w 59 58
def siIr (w : Nat) : Nat := bitsOf w 57 56
/-- LEN of an EMIT or GATHER. -/
def siLen (w : Nat) : Nat := bitsOf w 55 49
def siSh (w : Nat) : Bool := bitAt w 48
def siDkind (w : Nat) : Nat := bitsOf w 47 46
def siDmxe (w : Nat) : Nat := bitsOf w 45 44
/-- The bits that an instruction may hold (R271). -/
def siMask (w : Nat) : Nat :=
  ones 63 60 + (match siOp w with
    | 0x1 => ones 57 56 + ones 47 0
    | 0x2 => ones 57 55 + ones 53 52 + ones 47 0
    | 0x3 => ones 55 32 + ones 4 0
    | 0x4 => ones 59 44
    | 0x5 => ones 59 49 + ones 47 31 + ones 19 0
    | 0x6 => ones 59 56 + ones 39 32 + ones 5 0
    | 0x7 => ones 5 0
    | _ => 0)
/-- The lowest set bit of a value below 2^64. -/
def lowBit (v : Nat) : Nat := ((List.range 64).find? (bitAt v)).getD 0
/-- The validation of one instruction at index i under the LOOP bodies that enclose it, given by
their last indices, innermost first (R270): a fault with its bit, and the bodies of the next. -/
def siCheck (i w : Nat) (ends : List Nat) : Nat × List Nat :=
  let ends := ends.filter fun e => decide (i ≤ e)
  if 8 ≤ siOp w then (atBit ecDescFormat 60, ends)
  else
    let bad := w &&& (2 ^ 64 - 1 - siMask w)
    if bad ≠ 0 then (atBit ecDescFormat (lowBit bad), ends)
    else if siOp w = 3 then
      let e := i + bitsOf w 4 0
      if 31 < e then (atBit ecDescRange 0, ends)
      else if ends.any fun x => decide (x < e) then (atBit ecDescFormat 0, ends)
      else if 6 ≤ ends.length then (atBit ecDescRange 60, ends)
      else (0, if e = i then ends else e :: ends)
    else if siOp w = 4 ∨ siOp w = 5 then
      if 64 < siLen w then (atBit ecDescRange 49, ends)
      else if siOp w = 5 ∧ 4096 < bitsOf w 43 31 then (atBit ecDescRange 31, ends)
      else (0, ends)
    else (0, ends)
/-- A fault of a program with the index of its instruction. -/
structure ProgFault where
  code : Nat
  index : Nat
  deriving DecidableEq, Repr
/-- Validation from PC 0 to the first END (R270). -/
def progCheck (prog : Nat → Nat) : Nat → Nat → List Nat → ProgFault
  | 0, _, _ => ⟨0, 0⟩
  | k + 1, i, ends =>
    let w := prog i
    let (f, ends) := siCheck i w ends
    if f ≠ 0 then ⟨f, i⟩
    else if siOp w = 0 then ⟨0, 0⟩
    else progCheck prog k (i + 1) ends

/-! ### Position in a program (R271, R272) -/

/-- Where a queue's program stands: PC, active LOOPs (PC of the LOOP, iterations left), the index
registers, and whether execution fell off instruction 31. -/
structure StrPos where
  pc : Nat
  loops : List (Nat × Nat)
  irs : List Nat
  fell : Bool
/-- The back-edges at an instruction's end: LOOPs whose body has been executed repeat or end. -/
def backEdges (prog : Nat → Nat) : Nat → StrPos → StrPos
  | 0, p => p
  | k + 1, p =>
    match p.loops with
    | [] => p
    | (l, left) :: r =>
      if p.pc = l + 1 + bitsOf (prog l) 4 0 then
        if 1 < left then { p with pc := l + 1, loops := (l, left - 1) :: r }
        else backEdges prog k { p with loops := r }
      else p
/-- The position after an instruction: the next one, or a back-edge; past instruction 31 the program
ends. -/
def posNext (prog : Nat → Nat) (p : StrPos) : StrPos :=
  let p := backEdges prog 8 { p with pc := p.pc + 1 }
  if 32 ≤ p.pc then { p with pc := 31, fell := true } else p
/-- An index register. -/
def StrPos.ir (p : StrPos) (i : Nat) : Nat := p.irs.getD i 0
/-- Set an index register, modulo 2^64. -/
def StrPos.setIr (p : StrPos) (i v : Nat) : StrPos := { p with irs := p.irs.set i (v % 2 ^ 64) }
/-- SET, ADD and LOOP act, and the position moves on (R271, R272). -/
def posExec (prog : Nat → Nat) (p : StrPos) : StrPos :=
  let w := prog p.pc
  match siOp w with
  | 0x1 => posNext prog (p.setIr (siIr w) (bitsOf w 47 0))
  | 0x2 =>
    let d := if bitAt w 55 then p.ir (bitsOf w 53 52) else ux 64 (sx 48 (bitsOf w 47 0))
    posNext prog (p.setIr (siIr w) (p.ir (siIr w) + d))
  | 0x3 =>
    let n := bitsOf w 55 32
    let len := bitsOf w 4 0
    if n = 0 ∨ len = 0 then
      let p := backEdges prog 8 { p with pc := p.pc + 1 + len }
      if 32 ≤ p.pc then { p with pc := 31, fell := true } else p
    else { p with pc := p.pc + 1, loops := (p.pc, n) :: p.loops }
  | _ => posNext prog p
/-- Whether no remote transfer comes before the next SIGNAL or END; `none` when that lies too far
ahead to say. -/
def lastBefore (prog : Nat → Nat) (base : Nat) : Nat → StrPos → Option Bool
  | 0, _ => none
  | k + 1, p =>
    let w := prog p.pc
    if p.fell then some true
    else match siOp w with
      | 0x0 => some true
      | 0x7 => some true
      | 0x4 =>
        if siDkind w = 0 ∧ 2 ^ 47 ≤ base + p.ir (siIr w) ∧ (siLen w ≠ 0 ∨ siSh w) then some false
        else lastBefore prog base k (posNext prog p)
      | 0x5 =>
        if siDkind w = 0 ∧ 2 ^ 47 ≤ base + p.ir (siIr w) ∧ siLen w ≠ 0 ∧ bitsOf w 43 31 ≠ 0 then some false
        else lastBefore prog base k (posNext prog p)
      | _ => lastBefore prog base k (posExec prog p)
/-- The position of a queue. -/
def State.strPos (s : State) (n q : Nat) : StrPos :=
  let x := s.strq n q
  ⟨s.fld (.strQStat n q) F.strQStatPc, x.loops, (List.range 4).map fun i => s.word (.strQIr n q i), x.fell⟩
/-- Store a queue's position. -/
def setPos (n q : Nat) (p : StrPos) (s : State) : State :=
  let s := s.setFld (.strQStat n q) F.strQStatPc p.pc
  let s := s.modStrq n q fun x => { x with loops := p.loops, fell := p.fell }
  p.irs.zipIdx.foldl (fun s v => s.setWord (.strQIr n q v.2) v.1) s

/-! ### Queue control (R266, R268, R270) -/

/-- START (R266). -/
def strStart (n q : Nat) (s : State) : State :=
  if s.strLive n q then s.conflict (strSrc n) (regAddr (.strQCtl n q)) 1
  else
    let s := s.setFld (.strQStat n q) F.strQStatPc 0
    let s := s.setFld (.strQStat n q) F.strQStatCode 0
    let free := (s.strq n q).free
    let s := strCount n q (s.modStrq n q fun x => { ({} : StrQ) with free := free, inflight := x.inflight, nextId := x.nextId })
    let f := progCheck (s.strWord n q) 32 0 []
    if f.code = 0 then s.setStr n q strRunning
    else
      let c := f.code % 256
      let s := s.raise
        { src := strSrc n, code := c,
          detail := [(32, 8, s.strWord n q f.index), (40, 1, f.index), (41, 1, f.code / 256)] }
      let s := (s.setStr n q strFaulted).setFld (.strQStat n q) F.strQStatCode c
      strSignal n q { code := c } s
/-- STOP (R266): execution stops at once; the queue ends once its transfers have. -/
def strStop (n q : Nat) (s : State) : State :=
  if s.strLive n q then s.modStrq n q fun x => { x with stopping := true, todo := [] } else s
/-- Sum of QDEPTH over a core's queues, 0 counted as 1 (R268). -/
def depthSum (s : State) (n : Nat) : Nat :=
  (List.range 16).foldl (fun a q => a + max 1 (s.fld (.strQCtl n q) F.strQCtlQdepth)) 0
/-- A write of STR_Q_CTL (R266, R268). -/
def strCtlWrite (n q v : Nat) (s : State) : State :=
  let r := Reg.strQCtl n q
  let d := F.strQCtlQdepth.of v
  let old := s.fld r F.strQCtlQdepth
  if 64 < d ∨ 256 < depthSum s n - max 1 old + max 1 d then s.refuseWrite (strSrc n) (regAddr r) v ecDescRange
  else
    let s := if d ≠ old ∧ s.strLive n q then
        (s.conflict (strSrc n) (regAddr r) v).plainWrite r (F.strQCtlQdepth.put v old)
      else s.plainWrite r v
    let s := s.setFld (.strCfg n) F.strCfgDepthSum (depthSum s n)
    let s := s.doIf (F.strQCtlStop.of v == 1) (strStop n q)
    s.doIf (F.strQCtlStart.of v == 1) (strStart n q)
/-- A write of STR_PROG, STR_Q_SRC, STR_Q_DST or STR_Q_IR (R266). -/
def strRegWrite (n q : Nat) (r : Reg) (v : Nat) (s : State) : State :=
  if s.strLive n q then s.conflict (strSrc n) (regAddr r) v else s.plainWrite r v

/-! ### Transfers (R268, R273-R278) -/

/-- A free outstanding place (R268). -/
def strRoom (s : State) (n q : Nat) : Bool :=
  decide ((s.strq n q).inflight.length < max 1 (s.fld (.strQCtl n q) F.strQCtlQdepth))
/-- True for a remote address (R385). -/
def isRemote (a : Nat) : Bool := decide (2 ^ 47 ≤ a)
/-- The units of a transfer's source, as they are read (R277). -/
def xferSource (t : Transfer) (s : State) : List UnitP × State :=
  let (us, s) := s.fetchN t.src t.units
  (us.map fun u => { u with poison := u.poison || t.lost }, s)
/-- A transfer that breaks a shadow rule ends, and its queue with it (R246, R278). -/
def xferShut (n q id : Nat) (s : State) : State :=
  let s := (xferLost n q id s).modStrq n q fun x => { x with
    todo := [], fault := if x.fault = 0 then ecSlotOrder else x.fault }
  strFaultEnd n q s
/-- Issue one transfer; a remote one asks for credits and sends (R273). -/
def issueXfer (n q : Nat) (t : Transfer) (last : Bool) (s : State) : State :=
  let s := s.modStrq n q fun x => { x with inflight := x.inflight ++ [t], nextId := t.id + 1 }
  let s := strCount n q s
  if isRemote t.dst then
    let (s, bad) := bgReach (strReq n t.src) t.src (t.units * 64) false s
    if bad then xferShut n q t.id s
    else
      let (us, s) := xferSource t s
      txStart ⟨n, q, t.id⟩ (bitsOf t.dst 46 35) (t.dst % 2 ^ 35) us last s
  else s
/-- Issue the transfers that an EMIT or GATHER still has, as far as there is room. -/
def issueAll (n q : Nat) (last : Bool) : Nat → State → State
  | 0, s => s
  | k + 1, s =>
    match (s.strq n q).todo with
    | [] => s
    | t :: ts =>
      if strRoom s n q then
        let s := s.modStrq n q fun x => { x with todo := ts }
        issueAll n q last k (issueXfer n q { t with id := (s.strq n q).nextId } (last && ts.isEmpty) s)
      else s
/-- Destination address of an EMIT, and where the room it may use ends: the region's populated end, or
the end of AB or WS (R273). -/
structure StrDst where
  a : Nat
  lim : Nat
  fife : Bool
  deriving DecidableEq, Repr
def strDest (s : State) (n q w ir : Nat) : StrDst :=
  match siDkind w with
  | 0 =>
    let a := (s.fld (.strQDst n q) F.strQDstBase * 64 + ir) % 2 ^ 64
    ⟨a, if 2 ^ 47 ≤ a ∧ a < 2 ^ 48 then 2 ^ 48 else regionEnd a, false⟩
  | 1 => ⟨abBase n (siDmxe w) + ir, abBase n (siDmxe w) + 0x40000, false⟩
  | 2 => ⟨wsBase n (siDmxe w) 0 + ir, wsBase n (siDmxe w) 0 + 0x10000, false⟩
  | _ => ⟨0, 2 ^ 62, true⟩
/-- Fault of a transfer's addresses (R147, R264, R273). -/
def xferFault (s : State) (src len : Nat) (d : StrDst) : Nat :=
  if src % 64 ≠ 0 ∨ d.a % 64 ≠ 0 ∨ (2 ^ 47 ≤ src ∧ src < 2 ^ 48) then ecDescFormat
  else if regionEnd src < src + len ∨ d.lim < d.a + len then ecDescRange
  else if s.inDir src len ∨ (isRemote d.a = false ∧ !d.fife ∧ s.inDir d.a len) then ecTileDir
  else 0
/-- The address that the failing EMIT or GATHER names, for its record. -/
def emitFail (n q code w : Nat) (s : State) : State :=
  strFail n q code 0 0 [(32, 8, w), (40, 1, s.fld (.strQStat n q) F.strQStatPc), (41, 1, 0)] s
/-- The transfers of an EMIT (R273), or its failure. -/
def emitList (n q w : Nat) (s : State) : List Transfer × State :=
  let p := s.strPos n q
  let d := strDest s n q w (p.ir (siIr w))
  if siSh w then
    if siLen w ≠ 0 ∨ 2 ≤ siDkind w then ([], emitFail n q ecDescFormat w s)
    else
      let (e, c, s) := resolve (p.ir (siSi w) % 2 ^ 24) false s
      if c ≠ 0 then
        let s := s.modStrq n q fun x => { x with fault := ecTileDir, todo := [] }
        ([], strFaultEnd n q s)
      else
        let f := if d.a % 64 ≠ 0 then ecDescFormat
          else if d.lim < d.a + e.len * 64 ∨ regionEnd e.da < e.da + e.len * 64 then ecDescRange
          else if isRemote d.a = false ∧ s.inDir d.a (e.len * 64) then ecTileDir else 0
        if f ≠ 0 then ([], emitFail n q f w s)
        else ((List.range (ceilDiv e.len 64)).map fun i =>
          ⟨0, e.da + 4096 * i, d.a + 4096 * i, false, min 64 (e.len - 64 * i), e.poison⟩, s)
  else if siLen w = 0 then ([], s)
  else
    let src := (s.fld (.strQSrc n q) F.strQSrcBase * 64 + p.ir (siSi w)) % 2 ^ 64
    let f := xferFault s src (siLen w * 64) d
    if f ≠ 0 then ([], emitFail n q f w s) else ([⟨0, src, d.a, d.fife, siLen w, false⟩], s)
/-- The transfers of a GATHER (R274), the number of set bits, and the fault of the first EMIT that fails: the
transfers before it issue. -/
def gatherList (n q w : Nat) (s : State) : List Transfer × Nat × Nat × State :=
  let p := s.strPos n q
  let nb := bitsOf w 43 31
  let off := bitsOf w 19 0 * 8
  if cmSize < off + ceilDiv nb 8 then ([], 0, 0, emitFail n q ecDescRange w s)
  else
    let (s, shut) := if nb = 0 then (s, false) else bgReach 12 (coreBase n + off) (ceilDiv nb 8) false s
    let m := s.cmN n off (ceilDiv nb 8)
    let idx := (List.range nb).filter (bitAt m)
    if shut then ([], 0, 0, emitFail n q ecSlotOrder w s)
    else if siLen w = 0 then ([], 0, 0, s)
    else
      let src := s.fld (.strQSrc n q) F.strQSrcBase * 64 + p.ir (siSi w)
      let len := siLen w * 64
      let ts := idx.zipIdx.map fun b =>
        let d := strDest s n q w (p.ir (siIr w) + b.2 * len)
        let a := (src + b.1 * len) % 2 ^ 64
        (xferFault s a len d, (⟨0, a, d.a, d.fife, siLen w, false⟩ : Transfer))
      ((ts.takeWhile fun t => t.1 == 0).map Prod.snd, idx.length, ((ts.map Prod.fst).find? (· != 0)).getD 0, s)

/-! ### Execution (R267, R270-R276) -/

/-- A queue that may execute: RUNNING, not failing and not stopping. -/
def strReady (s : State) (n q : Nat) : Bool :=
  s.strState n q == strRunning && (s.strq n q).fault == 0 && !(s.strq n q).stopping
/-- Opcode of a queue's next instruction; past instruction 31 it is END (R270). -/
def strOp (s : State) (n q : Nat) : Nat :=
  if (s.strq n q).fell then 0 else siOp (s.strWord n q (s.fld (.strQStat n q) F.strQStatPc))
/-- A queue that holds at an EMIT or GATHER for an outstanding place; it costs the core nothing (R267). -/
def strHeld (s : State) (n q : Nat) : Bool :=
  (strOp s n q == 4 || strOp s n q == 5) && (s.strq n q).todo != [] && !strRoom s n q
/-- A queue that would execute in a cycle. -/
def strWants (s : State) (n t q : Nat) : Bool :=
  strReady s n q && !strHeld s n q && decide ((s.strq n q).free ≤ t)
/-- The rotation in a later cycle: it goes on after the queue that it came to last. -/
def StrTurn.goOn (x : StrTurn) (t : Nat) : StrTurn :=
  if t ≤ x.cyc then x
  else ⟨t, (x.served.foldl (fun m p => max m ((p + 16 - x.first) % 16 + 1)) 0 + x.first) % 16, []⟩
/-- The turn of queue q (R267): four queues execute in a cycle, the ready ones in rotation by number. -/
def strTake (s : State) (n q : Nat) : Nat → StrTurn → StrTurn
  | 0, x => { x with served := x.served ++ [q] }
  | k + 1, x =>
    let ahead := ((List.range ((q + 16 - x.first) % 16)).map fun i => (x.first + i) % 16).filter fun p =>
      x.served.contains p || strWants s n x.cyc p
    if 4 ≤ x.served.length then strTake s n q k (x.goOn (x.cyc + 1))
    else if 4 ≤ ahead.length then strTake s n q k ⟨x.cyc + 1, (ahead.getD 3 0 + 1) % 16, []⟩
    else { x with served := x.served ++ [q] }
/-- The queue's next instruction executes when it is of the given opcode, in the queue's turn: one in a CORE_CLK
cycle. -/
def strStep (n q op : Nat) (f : Nat → State → State) (s : State) : State :=
  if strReady s n q ∧ strHeld s n q = false ∧ strOp s n q = op then
    let turn := strTake s n q 16 ((s.core n).strTurn.goOn (max (s.cyc n) (s.strq n q).free))
    let s := (s.modCore n fun c => { c with strTurn := turn }).toCyc n turn.cyc
    f (s.strWord n q (s.fld (.strQStat n q) F.strQStatPc)) (s.modStrq n q fun x => { x with free := turn.cyc + 1 })
  else s
/-- SET, ADD or LOOP. -/
def strMove (n q : Nat) (_w : Nat) (s : State) : State :=
  setPos n q (posExec (s.strWord n q) (s.strPos n q)) s
/-- Whether the last transfer to be issued now is the queue's last remote one before a SIGNAL or END
(R384); where the program runs on too far to tell, a free value. -/
def strLast (n q : Nat) (p : StrPos) (s : State) : Bool × State :=
  match lastBefore (s.strWord n q) (s.fld (.strQDst n q) F.strQDstBase * 64) 4096 p with
  | some b => (b, s)
  | none =>
    let (v, s) := s.free 1
    (v == 1, s)
/-- Issue what an instruction has to issue; it ends once all of it has been issued. -/
def strIssue (n q : Nat) (p : StrPos) (s : State) : State :=
  let (last, s) := strLast n q p s
  let s := issueAll n q last 4096 s
  let x := s.strq n q
  if x.fault ≠ 0 ∨ x.todo ≠ [] then s
  else if x.cut ≠ 0 then
    emitFail n q x.cut (s.strWord n q (s.fld (.strQStat n q) F.strQStatPc))
      (s.modStrq n q fun x => { x with cut := 0 })
  else setPos n q p s
/-- EMIT (R273). -/
def strEmit (n q w : Nat) (s : State) : State :=
  let next := posNext (s.strWord n q) (s.strPos n q)
  if (s.strq n q).todo ≠ [] then strIssue n q next s
  else
    let (ts, s) := emitList n q w s
    if (s.strq n q).fault ≠ 0 then s
    else strIssue n q next (s.modStrq n q fun x => { x with todo := ts })
/-- GATHER (R274): the destination register advances when the last transfer has issued. -/
def strGather (n q w : Nat) (s : State) : State :=
  let p := s.strPos n q
  let after := fun (k : Nat) =>
    posNext (s.strWord n q) (p.setIr (siIr w) (p.ir (siIr w) + k * siLen w * 64))
  if (s.strq n q).todo ≠ [] then strIssue n q (after (s.strq n q).gathered) s
  else
    let (ts, k, cut, s) := gatherList n q w s
    if (s.strq n q).fault ≠ 0 then s
    else strIssue n q (after k) (s.modStrq n q fun x => { x with todo := ts, gathered := k, cut := cut })
/-- A MARK's condition (R276). -/
def markHolds (s : State) (n q w : Nat) : Bool :=
  if bitAt w 59 then barPast s (bitsOf w 39 32) ((s.strPos n q).ir (siIr w) % 2 ^ 32)
  else bitAt (s.word (.scEvent n)) (bitsOf w 5 0)
/-- A satisfied MARK: with CLR it clears its event, and execution goes on. -/
def markPass (n q w : Nat) (s : State) : State :=
  let s := s.doIf (!bitAt w 59 && bitAt w 58) fun s => s.clearNow n (2 ^ bitsOf w 5 0) false
  setPos n q (posNext (s.strWord n q) (s.strPos n q)) (s.setStr n q strRunning)
/-- MARK (R276). -/
def strMarkOp (n q w : Nat) (s : State) : State :=
  if markHolds s n q w then markPass n q w s else s.setStr n q strMark
/-- MARK_SATISFIED (R276). -/
def markSatisfied (n q : Nat) (s : State) : State :=
  let w := s.strWord n q (s.fld (.strQStat n q) F.strQStatPc)
  if s.strState n q = strMark ∧ (s.strq n q).fault = 0 ∧ !(s.strq n q).stopping ∧ markHolds s n q w
  then markPass n q w (s.modStrq n q fun x => { x with free := s.cyc n + 1 }) else s
/-- SIGNAL (R275): execution goes on; the event waits for the earlier transfers. -/
def strSignalOp (n q w : Nat) (s : State) : State :=
  let s := s.modStrq n q fun x => { x with signals := x.signals ++ [⟨bitsOf w 5 0, x.nextId⟩] }
  setPos n q (posNext (s.strWord n q) (s.strPos n q)) s
/-- SIGNAL_COMPLETE (R275). -/
def signalComplete (n q : Nat) (s : State) : State :=
  match (s.strq n q).signals with
  | [] => s
  | g :: r =>
    if (s.strq n q).inflight.any fun t => decide (t.id < g.bound) then s
    else (s.modStrq n q fun x => { x with signals := r }).signal n g.event {}
/-- The events of the SIGNALs that still wait, once the transfers that they wait for have completed (R275). -/
def lateSignals (n q : Nat) (s : State) : State :=
  let gs := (s.strq n q).signals
  gs.foldl (fun s g => s.signal n g.event {}) (s.modStrq n q fun x => { x with signals := [] })
/-- END (R275). -/
def strEnd (n q : Nat) (_w : Nat) (s : State) : State := s.setStr n q strDraining
/-- QUEUE_DRAINED (R266, R275, R278): the queue's transfers have completed. -/
def queueDrained (n q : Nat) (s : State) : State :=
  let x := s.strq n q
  if x.inflight ≠ [] ∨ s.strLive n q = false then s
  else
  let s := lateSignals n q s
  if x.fault ≠ 0 then strFaultEnd n q s
  else if x.stopping then strStopEnd n q s
  else if s.strState n q = strDraining then strSignal n q { poison := x.poisoned } (s.setStr n q strIdle)
  else s

/-- TRANSFER_COMPLETE (R275, R277): the transfer's units reach their destination. Two transfers of a
queue to one destination unit apply in issue order; a remote transfer completes on its
acknowledgement instead. -/
def transferComplete (n q i : Nat) (s : State) : State :=
  let fl := (s.strq n q).inflight
  match fl[i]? with
  | none => s
  | some t =>
    let earlier := (fl.take i).any fun u => !t.fife && !u.fife && !isRemote u.dst &&
      decide (canon u.dst < canon t.dst + t.units * 64 ∧ canon t.dst < canon u.dst + u.units * 64)
    if isRemote t.dst ∨ earlier ∨ (t.fife ∧ (fl.take i).any Transfer.fife) then s
    else
      let id : XferId := ⟨n, q, t.id⟩
      let (s, bad) := bgReach (strReq n t.src) t.src (t.units * 64) false s
      let (s, bad) := if bad ∨ t.fife then (s, bad) else bgReach (strReq n t.dst) t.dst (t.units * 64) true s
      if bad then xferShut n q t.id s
      else
        let (us, s) := xferSource t s
        let s := if t.fife then
            s.modCore n fun c => { c with fifeQ := tabMod [] c.fifeQ q (· ++ bytesOf us),
                                          fifeQP := tabMod [] c.fifeQP q (· ++ us.map UnitP.poison) }
          else s.putUnits t.dst us
        xferDone id (us.filter UnitP.poison).length s
/-- TRANSFER_FAULT (R278): a refused transfer. Before a WATCHDOG reset an open number of its sectors
has been stored (R290). -/
def transferFault (n q i code : Nat) (s : State) : State :=
  match (s.strq n q).inflight[i]? with
  | none => s
  | some t =>
    let s := if code = ecWatchdog ∧ isRemote t.dst = false ∧ t.fife = false then
        let (v, s) := s.free 7
        let (us, s) := xferSource t s
        s.putUnits t.dst (us.take (v % (t.units + 1)))
      else s
    let s := s.modNet fun x => { x with remTx := x.remTx.filter fun r => r.ref != ⟨n, q, t.id⟩ }
    xferFail ⟨n, q, t.id⟩ code 0 s

/-! ### The stream slot (R329, R330) -/

/-- Opcodes of the stream slot. -/
def stQstart : Nat := 1
def stQstop : Nat := 2
def stQsetir : Nat := 3
def stColon : Nat := 4
def stGhpush : Nat := 5
/-- The command words of a GHPUSH. -/
def pushWords (n : Nat) (o : StOp) (s : State) : List Word :=
  (List.range 8).map fun i => BitVec.ofNat 64 (s.cmN n (o.off * 32 + 8 * i) 8)
/-- A held operation executes; a GHPUSH waits while its Glasshouse queue is full. -/
def stExec (n : Nat) (o : StOp) (s : State) : Option State :=
  if o.code = stQstart then some (strStart n o.q s)
  else if o.code = stQstop then some (strStop n o.q s)
  else if o.code = stQsetir then some (strRegWrite n o.q (.strQIr n o.q o.ir) o.val.toNat s)
  else if o.code = stColon then some (colonRequest n o.ctx o.pc o.off s)
  else if 256 ≤ ((s.gh o.stk).q (n / 4)).length then none
  else
    let (s, bad) := bgReach 12 (coreBase n + o.off * 32) 64 false s
    if bad then some (s.signalIf o.en n o.event { code := ecSlotOrder })
    else some ((ghAccept o.stk (n / 4) (pushWords n o s) s).signalIf o.en n o.event {})
/-- Held operations execute in issue order, until one waits. -/
def stRun (n : Nat) : Nat → State → State
  | 0, s => s
  | k + 1, s =>
    match (s.core n).stq with
    | [] => s
    | o :: r =>
      match stExec n o (s.modCore n fun c => { c with stq := r }) with
      | some s => stRun n k s
      | none => s
/-- An operation of the stream slot is held and executed in its turn. -/
def stIssue (n : Nat) (o : StOp) (s : State) : State :=
  stRun n 16 (s.modCore n fun c => { c with stq := c.stq ++ [o] })
/-- Fault of a stream-slot operation at decode (R329). -/
def stFault (code : Nat) (a : StArgs) : Nat :=
  if code = stGhpush ∧ a.off.toNat % 2 = 1 then atBit ecDescFormat 24
  else if code = stGhpush ∧ cmSize < a.off.toNat * 32 + 64 then atBit ecDescRange 24
  else 0

end Sys2Proof.Machine
end

