-- ==== Sys2Proof/Machine/Csr.lean ====
section
/-! DEFINITION. CSR accesses (R10-R14, R538-R540): the effect of a read and of a write on every
register, 32-bit halves of atomic registers, and the refusals that belong to a requester. -/

namespace Sys2Proof.Machine

/-! ### Which accesses reach a register -/

/-- The core block that a CSR address lies in. -/
def csrCore (a : Nat) : Option Nat :=
  if 0x020210000000 ≤ a ∧ a < 0x020212000000 then some ((a - 0x020210000000) / 0x100000) else none
/-- The core is out of service (R497). -/
def State.coreOut (s : State) (n : Nat) : Bool := s.fld (.coreMap n) F.coreMapState == 2
/-- In raw-stack mode a GH register that belongs to the Glasshouse itself reads 0 and ignores writes
(R540). -/
def rawHidden (s : State) : Reg → Bool
  | .ghDirBase k | .ghDirCtl k | .ghDirStat k | .ghDirErr k | .ghHeapBase k | .ghHeapLim k |
    .ghScrubCtl k | .ghScrubStat k | .ghRepairStat k => s.bit (.ghStatus k) F.ghStatusRaw
  | _ => false

/-! ### Reads -/

/-- MXE_ACC_STATE (R103). -/
def accStateWord (s : State) (n m : Nat) : Nat :=
  let x := s.mxe n m
  let t0 := s.cyc n
  let owned := x.setsOwned t0
  let st := (List.range 8).foldl (fun a t => a + x.tileCode t0 t * 8 ^ t) 0
  let sat := (List.range 8).foldl (fun a t => a + b2n (x.tile t).sat * 2 ^ t) 0
  b2n (owned.contains 1) * 2 ^ 33 + b2n (owned.contains 0) * 2 ^ 32 + sat * 2 ^ 24 + st
/-- Commands held by a Glasshouse queue (R206). -/
def State.ghDepth (s : State) (k q : Nat) : Nat := ((s.gh k).q q).length
/-- The word a register holds now, for the registers that follow other state. -/
def liveWord (s : State) (r : Reg) : Nat :=
  match r with
  | .mxeCfg n _ => s.word (.mxeCfg n 0)
  | .mxeStatus n m => F.mxeStatusFenced.put (F.mxeStatusBusy.put (s.word r) (b2n (s.mxeBusy n m))) (b2n (s.fenced n m))
  | .mxeWidth n m => s.mxeWidthWord n m
  | .mxeAccState n m => accStateWord s n m
  | .bsStat k => bsStatWord s k
  | .ghStatus k => F.ghStatusScrubActive.put (s.word r) (b2n (s.scrubbing k))
  | .ghCmdqStat k q => F.ghCmdqStatDepth.put (s.word r) (s.ghDepth k q)
  | .chipTime => s.timeNow
  | .cmcStatus n => F.cmcStatusPending.put (s.word r) (b2n (s.wantsValid n != s.fld r F.cmcStatusVmode))
  | .hifIdle => F.hifIdleDeepest.put (s.word r) s.deepest
  | .hifQStat q => F.hifQStatInflight.put (s.word r) (min (s.qp q).inflight 16)
  | .hifFwStat => fwStatWord s
  | .hifProgPos i => progPos s i
  | .chipGpio => gpioWord s
  | .chipSerial => Config.serial % 2 ^ 64
  | .tctxReg _ _ 0 => 0
  | .scEventSet n => s.word (.scEvent n)
  | .ssCur _ | .ssParam _ => (landReports s).word r
  | _ => s.word r
/-- What a 64-bit read of a CSR returns, and the state after it: RC fields clear (R10). -/
def csrRead (_r : Requester) (a : Nat) (s : State) : Nat × State :=
  let r := regAt a
  if r = .none ∨ rawHidden s r ∨ (csrCore a).any (fun n => s.coreOut n) then (0, s)
  else match r with
    | .ghPhy _ _ => (0, s)
    | .ibuf _ _ => (s.word r, s)
    | .hifProgStat i => (s.word r, progStatRead i s)
    | .hifProgPos i => (progPos s i, progPosRead i s)
    | _ =>
      let v := readWord (regFields r) (liveWord s r)
      (v, if (regFields r).any (fun f => f.acc == .rc) then s.setWord r (afterRead (regFields r) (s.word r)) else s)

/-! ### Writes -/

/-- A word of a Glasshouse command reaches its push register (R205): the write of word 7 pushes. -/
def pushWord (r : Requester) (k q w v : Nat) (s : State) : State :=
  let held := (tabGet [] (s.gh k).pushed q)
  let ws := (if w = 0 then [] else held) ++ [BitVec.ofNat 64 v]
  if w = 7 then
    ghPush r k q (ws ++ List.replicate (8 - ws.length) 0) (s.modGh k fun g => { g with pushed := tabDel g.pushed q })
  else s.modGh k fun g => { g with pushed := tabSet g.pushed q ws }
/-- A half of a word of a Glasshouse command (R205): the words gather in order, a low half waits for the
high half of its word, and the high half of word 7 pushes. -/
def pushHalf (r : Requester) (k q w : Nat) (hi : Bool) (v : Nat) (s : State) : State :=
  let held := tabGet [] (s.gh k).pushed q
  let before := (List.range w).map fun i => held.getD i 0
  let word : Word := BitVec.ofNat 64 (if hi then v * 2 ^ 32 + (held.getD w 0).toNat % 2 ^ 32 else v)
  if hi && w == 7 then ghPush r k q (before ++ [word]) (s.modGh k fun g => { g with pushed := tabDel g.pushed q })
  else s.modGh k fun g => { g with pushed := tabSet g.pushed q (before ++ [word]) }
/-- A write of GH_CMDQ_CTL (R206): queue 15 reads EN 1 and ignores writes. -/
def ghCtlWrite (k q v : Nat) (s : State) : State :=
  if q = 15 then s
  else
    let s := (turnEnds k s).plainWrite (.ghCmdqCtl k q) v
    s.doIf (bitAt v 1) (ghReset k q)
/-- TST_CORE_CTL (R495, R507): REQUEST queues a test of CORE. -/
def tstCoreWrite (v : Nat) (s : State) : State :=
  let n := F.tstCoreCtlCore.of v
  if bitAt v 0 && s.coreOut n then s.conflict chipSrc (regAddr .tstCoreCtl) v
  else
    let s := s.plainWrite .tstCoreCtl v
    s.doIf (bitAt v 0 && !s.chip.tests.contains n && s.fld (.coreMap n) F.coreMapState != 1) fun s =>
      { s with chip := { s.chip with tests := s.chip.tests ++ [n] } }
/-- TST_FENCE (R85, R495): a host's write is discarded. -/
def tstFenceWrite (r : Requester) (n v : Nat) (s : State) : State :=
  if r == .host then s.conflict chipSrc (regAddr (.tstFence n)) v else s.plainWrite (.tstFence n) v
/-- CSRT_CTL (R402): COLL_TIMEOUT is 1 to 64. -/
def csrtCtlWrite (v : Nat) (s : State) : State :=
  let t := F.csrtCtlCollTimeout.of v
  if t = 0 ∨ 64 < t then s.refuseWrite (srcOf 9 0 0) (regAddr .csrtCtl) v ecDescRange else s.plainWrite .csrtCtl v
/-- A write of STR_Q_CTL, or of a register with behaviour beyond its fields' access codes. -/
def csrEffect (r : Requester) (reg : Reg) (v : Nat) (s : State) : State :=
  match reg with
  | .mxeCfg n 0 => mxeCfgWrite r n (BitVec.ofNat 64 v) s
  | .mxeCfg _ _ => s
  | .mxeBypass n m => mxeBypassWrite n m v s
  | .ssParam i => slotWrite i false (BitVec.ofNat 64 v) s
  | .ssCenter i => slotWrite i true (BitVec.ofNat 64 v) s
  | .ssCtrl i => slotCtrl i v s
  | .scEvent n => s.clearNow n v false
  | .scEventSet n => eventSet n v s
  | .tctxCtl n c => tctxCtlWrite n c v s
  | .tctxCode n c | .tctxPc n c | .tctxPoison n c => tctxGuarded n c reg v s
  | .tctxReg n c _ => tctxGuarded n c reg v s
  | .ibuf n i => ibufWrite n (i / 8) (i % 8) v s
  | .strQCtl n q => strCtlWrite n q v s
  | .strQSrc n q | .strQDst n q => strRegWrite n q reg v s
  | .strQIr n q _ | .strProg n q _ => strRegWrite n q reg v s
  | .cmcShadowInv n => shadowInv n (F.cmcShadowInvFirst.of v) (F.cmcShadowInvCount.of v) s
  | .cmcCtl n => s.doIf (bitAt v 0) (logClr n)
  | .tsCnt t => tsCntWrite t v s
  | .tsNotify t => tsNotifyWrite t v s
  | .barState b => barCountWrite b v s
  | .barCtl b => barCtlWrite b v s
  | .ghDirBase k => dirBaseWrite k reg v s
  | .ghHeapBase k | .ghHeapLim k => heapBoundWrite r k reg v s
  | .ghDirCtl k => dirCtlWrite k v s
  | .ghCmdqCtl k q => ghCtlWrite k q v s
  | .ghCmdqPush k q w => pushWord r k q w v s
  | .ghPhy k _ => if r = .cc 0 then s.setWord reg v else s.conflict (srcOf 2 k 0) (regAddr reg) v
  | .bsCtl k => bsCtlWrite k v s
  | .bsRank k => bsRankWrite k v s
  | .winCtl w => pump (winCtlWrite r w v s)
  | .winPerm w | .winCmpl w => pump (winRegWrite r w reg v s)
  | .winLocal w => pump (winLocalWrite r w v s)
  | .gpCtl p => pump (portCtlWrite p v s)
  | .xpCtl p => pump (portCtlWrite (16 + p) v s)
  | .chipNode => pump (chipNodeWrite v s)
  | .blwCap => blwCapWrite v s
  | .clkCorePs n => clkCorePsWrite n v s
  | .hifWakeTol => wakeTolWrite v s
  | .hifIdle => s.doIf (bitAt v 3) wake
  | .hifBar2Map => bar2MapWrite v s
  | .hifSqBase q | .hifCqBase q | .hifQCfg q => qConfigWrite q reg v s
  | .hifQCtl q => qCtlWrite q v s
  | .hifQPost q => qPost r q v s
  | .dmaBase c => dmaBaseWrite c v s
  | .dmaCfg c => dmaCfgWrite c v s
  | .msixTable i => msixTableWrite i v s
  | .hifAdvice => s.doIf (bitAt v 3) adviceAck
  | .hifFwCtl => fwCtlWrite v s
  | .dbgCtl => s.doIf (bitAt v 0) (debugUnlock false)
  | .chipReset => chipResetWrite v s
  | .chipMode => chipModeWrite r v s
  | .chipTimer k => timerWrite r k v s
  | .chipGpio => gpioWrite v s
  | .errTail => errTailWrite v s
  | .tstCoreCtl => tstCoreWrite v s
  | .tstFence n => tstFenceWrite r n v s
  | .tstTraceCtl => traceEnable (bitAt v 0) s
  | .csrtCtl => csrtCtlWrite v s
  | _ => s.plainWrite reg v
/-- A 64-bit write of a CSR. -/
def csrWrite (r : Requester) (a v : Nat) (s : State) : State :=
  let reg := regAt a
  if reg = .none ∨ rawHidden s reg then s
  else match csrCore a with
    | some n => if s.coreOut n then s.conflict (srcOf 1 n 0) a v else csrEffect r reg v s
    | none => csrEffect r reg v s

end Sys2Proof.Machine
end

