-- ==== Sys2Proof/Machine/Scalar.lean ====
section
/-! DEFINITION. The scalar slot (R302-R315, R332-R337): decode checks, operands, results of fixed
latency, far operations, branches, waits. -/

namespace Sys2Proof.Machine

/-! ### Decode (R304-R313) -/

/-- What a form of a scalar opcode uses: RD, RS1, RS2, the mask of FN, the mask of IMM (R305). -/
structure ScUse where
  rd : Bool
  rs1 : Bool
  rs2 : Bool
  fn : Nat
  imm : Nat
  deriving DecidableEq, Repr
/-- All bits of IMM. -/
def immAll : Nat := 2 ^ 32 - 1
/-- The fields that a scalar operation uses; `none` for a reserved opcode (R305). -/
def scUse (opc : Nat) (fn : Nat) : Option ScUse :=
  match opc with
  | 0x00 => some ⟨false, false, false, 0, 0⟩
  | 0x01 => some ⟨true, true, true, 0xF, 0⟩
  | 0x02 => some ⟨true, true, false, 0xF, immAll⟩
  | 0x03 => some ⟨true, false, false, 1, immAll⟩
  | 0x04 => some ⟨true, true, false, 7, immAll⟩
  | 0x05 => some ⟨false, true, true, 3, immAll⟩
  | 0x06 => some ⟨true, true, false, 0, immAll⟩
  | 0x07 => some ⟨false, true, true, 0, immAll⟩
  | 0x08 => some ⟨true, true, false, 0, immAll⟩
  | 0x09 => some ⟨false, true, true, 0, immAll⟩
  | 0x0A => some ⟨false, true, true, 7, immAll⟩
  | 0x0B => some ⟨true, true, false, 0, 0⟩
  | 0x0C => if bitAt fn 0 then some ⟨false, true, false, 1, 0⟩ else some ⟨false, false, false, 1, 0xFFFF⟩
  | 0x0D => some ⟨true, true, true, 0, 0⟩
  | 0x0E => some ⟨false, true, true, 0, 0⟩
  | 0x0F => some ⟨true, true, true, 0xB, 0⟩
  | 0x10 => if bitAt fn 3 then some ⟨true, false, false, 0xF, 0x3F⟩ else some ⟨true, true, false, 0xF, 0⟩
  | 0x11 => if bitAt fn 3 then some ⟨false, false, false, 9, 0x3F⟩ else some ⟨false, true, false, 9, 0⟩
  | 0x12 => if bitAt fn 3 then some ⟨true, false, false, 8, 0x3F⟩ else some ⟨true, true, false, 8, 0⟩
  | 0x13 => some ⟨false, false, false, 0, 0⟩
  | 0x14 => some ⟨false, false, false, 0, 0⟩
  | 0x15 => some ⟨false, true, true, 0x3F, immAll⟩
  | 0x16 => some ⟨true, false, false, 0, 0⟩
  | 0x17 => some ⟨false, false, false, 0, 0⟩
  | _ => none
/-- The registers whose poison an operation refuses (R304). -/
def scRefuses (opc : Nat) (a : ScArgs) : List Nat :=
  let r1 := a.rs1.toNat
  let r2 := a.rs2.toNat
  match opc with
  | 0x04 | 0x05 | 0x06 | 0x07 | 0x08 | 0x0B => [r1]
  | 0x09 | 0x0D | 0x0E | 0x15 => [r1, r2]
  | 0x0A => if a.fn.toNat % 8 = 0 then [] else [r1, r2]
  | 0x0C => if bitAt a.fn.toNat 0 then [r1] else []
  | 0x0F => if a.fn.toNat % 4 = 2 then [r1, r2] else [r1]
  | 0x10 => if bitAt a.fn.toNat 3 then [] else [r1]
  | _ => []
/-- The registers that an operation reads or writes, for the interlock of R302. -/
def scRegs (opc : Nat) (a : ScArgs) : List Nat :=
  match scUse opc a.fn.toNat with
  | none => []
  | some u =>
    let plain := opc = 0x0A ∧ a.fn.toNat % 8 = 0
    (if u.rd then [a.rd.toNat] else []) ++ (if u.rs1 ∧ ¬ plain then [a.rs1.toNat] else []) ++
    (if u.rs2 ∧ ¬ plain then [a.rs2.toNat] else [])
/-- The places that LDF and STF reach (R147, R264, R307), 0 or the fault. -/
def farFault (s : State) (n a : Nat) : Nat :=
  if 2 ^ 47 ≤ a ∧ a < 2 ^ 48 then ecDescFormat
  else if a % 8 ≠ 0 then ecDescFormat
  else match placeOf a with
    | .cm m _ => if m = n ∨ s.coreOut m then ecDescRange else 0
    | .orangery _ => 0
    | .stack _ _ => if s.inDir a 8 then ecTileDir else 0
    | _ => ecDescRange
/-- Fault of a scalar operation at decode (R300, R304-R313), 0 for none. -/
def scFault (opc n c : Nat) (a : ScArgs) (s : State) : Nat :=
  let fn := a.fn.toNat
  let imm := a.imm.toNat
  let addr := s.scAddr n c a
  match scUse opc fn with
  | none => atBit ecDescFormat 56
  | some u => firstFault [
      failIf (!u.rd && a.rd != 0) ecDescFormat 51,
      failIf (!u.rs1 && a.rs1 != 0) ecDescFormat 46,
      failIf (!u.rs2 && a.rs2 != 0) ecDescFormat 41,
      failIf (imm &&& u.imm != imm) ecDescFormat 0,
      failIf (fn &&& u.fn != fn) ecDescFormat 32,
      failIf (opc == 0x0A && fn % 8 == 7) ecDescFormat 32,
      failIf (opc == 0x0F && fn % 4 == 3) ecDescFormat 32,
      ((scRefuses opc a).find? (s.spoison n c)).elim 0 (atBit ecPoisonConsumed),
      failIf ((opc == 0x04 || opc == 0x05) && addr % 2 ^ (fn % 4) != 0) ecDescFormat 0,
      failIf ((opc == 0x04 || opc == 0x05) && decide (cmSize ≤ addr)) ecDescRange 0,
      if opc = 0x06 ∨ opc = 0x07 then farFault s n addr else 0,
      failIf ((opc == 0x08 || opc == 0x09) &&
        (addr % 8 != 0 || decide (addr < 0x020200000000 ∨ 0x020280000000 ≤ addr))) ecDescRange 0,
      failIf (opc == 0x0C && bitAt fn 0 && decide (65536 ≤ s.sreg n c a.rs1.toNat)) ecDescRange 46,
      failIf (opc == 0x0D && decide (2 ^ 32 ≤ s.sreg n c a.rs2.toNat)) ecDescRange 41,
      failIf (opc == 0x15 && imm % 8 != 0) ecDescFormat 0,
      failIf (opc == 0x15 && decide (cmSize < imm + 8)) ecDescRange 0]

/-! ### Results (R305, R309, R314) -/

/-- Signed value of 64 bits. -/
def sint (x : Nat) : Int := sx 64 x
/-- The ALU operations (R305). -/
def aluOp (op x y : Nat) : Nat :=
  let k := y % 64
  (match op with
  | 0x0 => x + y
  | 0x1 => x + 2 ^ 64 - y
  | 0x2 => x &&& y
  | 0x3 => x ||| y
  | 0x4 => x ^^^ y
  | 0x5 => x * 2 ^ k
  | 0x6 => x / 2 ^ k
  | 0x7 => ux 64 (sint x / 2 ^ k)
  | 0x8 => if sint x ≤ sint y then x else y
  | 0x9 => if sint x ≤ sint y then y else x
  | 0xA => min x y
  | 0xB => max x y
  | 0xC => b2n (sint x < sint y)
  | 0xD => b2n (x < y)
  | 0xE => b2n (x = y)
  | _ => x * y) % 2 ^ 64
/-- The branch conditions (R305). -/
def brTaken (k x y : Nat) : Bool :=
  match k with
  | 0 => true
  | 1 => x == y
  | 2 => x != y
  | 3 => decide (sint x < sint y)
  | 4 => decide (sint y ≤ sint x)
  | 5 => decide (x < y)
  | _ => decide (y ≤ x)
/-- CM as a narrow load sees it: the stores of earlier bundles are in place (R337). -/
def narrowView (n : Nat) (s : State) : State :=
  (s.core n).slow.foldl (fun s o => match o with
    | .cmw _ off bs ps true => wrPieces (coreBase n + off) bs ps s
    | _ => s) s
/-- LD (R306, R337): the value, its poison, four cycles later. -/
def scLoad (n c : Nat) (a : ScArgs) (s : State) : State :=
  let sz := 2 ^ (a.fn.toNat % 4)
  let o := s.scAddr n c a
  let t := narrowView n s
  let v := t.cmN n o sz
  let v := if bitAt a.fn.toNat 2 then ux 64 (sx (8 * sz) v) else v
  (s.sched n 11 o sz (s.cyc n) false).later n c a.rd.toNat v (t.poisoned (coreBase n + o)) 4
/-- ST (R306, R337): the bytes and the poison bit of the register, on their way to CM. -/
def scStore (n c : Nat) (a : ScArgs) (s : State) : State :=
  let sz := 2 ^ (a.fn.toNat % 4)
  let o := s.scAddr n c a
  let s := s.sched n 11 o sz (s.cyc n) true
  s.modCore n fun x => { x with slow := x.slow ++
    [.cmw (s.cyc n + 2) o (natLe sz (s.sreg n c a.rs2.toNat)) [s.spoison n c a.rs2.toNat] true] }
/-- A far operation leaves the core (R307, R308, R311). -/
def farIssue (n c rd : Nat) (k : FarKind) (s : State) : State :=
  s.modCore n fun x => { x with far := x.far ++ [⟨c, rd, k, s.now⟩] }
/-- An address lies in a core's own sub-blocks (R308). -/
def ownCsr (n a : Nat) : Bool := csrCore a == some n
/-- CSRR (R308, R337). -/
def scCsrr (n c : Nat) (a : ScArgs) (s : State) : State :=
  let d := s.scAddr n c a
  if ownCsr n d then
    s.modCore n fun x => { x with slow := x.slow ++ [.csrr (s.cyc n + 4) c a.rd.toNat d] }
  else farIssue n c a.rd.toNat (.csrr d) s
/-- CSRW (R308, R337). A core's write of its own CMC_SHADOW_INV acts before the next bundle's accesses (R248). -/
def scCsrw (n c : Nat) (a : ScArgs) (s : State) : State :=
  let d := s.scAddr n c a
  let v := BitVec.ofNat 64 (s.sreg n c a.rs2.toNat)
  if ownCsr n d ∧ regAt d = .cmcShadowInv n then csrWrite (.core (Fin.ofNat 32 n)) d v.toNat s
  else if ownCsr n d then s.modCore n fun x => { x with slow := x.slow ++ [.csrw (s.cyc n + 2) d v] }
  else farIssue n c 0 (.csrw d v) s
/-- TURN, TADD and barrier arrivals reach the Orangery's control block (R255, R256, R311). -/
def scAtomic (n c rd : Nat) (k : FarKind) (ts : TsKind) (s : State) : State :=
  (farIssue n c rd k s).tsArrive n ts
/-- GTURN (R313): the request goes to the root through the manager roles. -/
def scGturn (n c : Nat) (a : ScArgs) (s : State) : State :=
  let id := s.net.reqid
  let s := s.modNet fun x => { x with reqid := (id + 1) % 2 ^ 32 }
  let s := s.modCore n fun x => { x with
    gturns := x.gturns ++ [⟨id, a.imm.toNat, a.fn.toNat % 64, c, s.pc n c, none⟩] }
  pump (s.send s.rootDev (.gturnRequest (s.sreg n c a.rs1.toNat % 65536) (s.sreg n c a.rs2.toNat) id) false none)
/-- EVSET (R314): the events of s[RS1], or event IMM[5:0], are set or cleared. -/
def scEvset (n c : Nat) (a : ScArgs) (s : State) : State :=
  let mask := if bitAt a.fn.toNat 3 then 2 ^ (a.imm.toNat % 64) else s.sreg n c a.rs1.toNat
  if bitAt a.fn.toNat 0 then s.clearNow n mask false else eventSet n mask s
/-- EVSTAT (R305). -/
def scEvstat (n c : Nat) (a : ScArgs) (s : State) : State :=
  let one := bitAt a.fn.toNat 3
  let e := if one then a.imm.toNat % 64 else s.sreg n c a.rs1.toNat % 64
  s.setSreg n c a.rd.toNat (s.word (.scEvstat n e)) (!one && s.spoison n c a.rs1.toNat)
/-- ALU and ALUI (R302, R305, R337). -/
def scAlu (n c : Nat) (a : ScArgs) (y : Nat) (p : Bool) (s : State) : State :=
  let op := a.fn.toNat % 16
  s.later n c a.rd.toNat (aluOp op (s.sreg n c a.rs1.toNat) y) (s.spoison n c a.rs1.toNat || p)
    (if op = 15 then 3 else 1)
/-- LI (R305). -/
def scLi (n c : Nat) (a : ScArgs) (s : State) : State :=
  let rd := a.rd.toNat
  if bitAt a.fn.toNat 0 then
    s.setSreg n c rd (a.imm.toNat * 2 ^ 32 + s.sreg n c rd % 2 ^ 32) (s.spoison n c rd)
  else s.setSreg n c rd (immSx a.imm) false
/-- What a scalar operation does beside moving the PC, waiting, or leaving the core. -/
def scEffect (opc n c : Nat) (a : ScArgs) (s : State) : State :=
  let x := s.sreg n c a.rs1.toNat
  let y := s.sreg n c a.rs2.toNat
  match opc with
  | 0x01 => scAlu n c a y (s.spoison n c a.rs2.toNat) s
  | 0x02 => scAlu n c a (immSx a.imm) false s
  | 0x03 => scLi n c a s
  | 0x04 => scLoad n c a s
  | 0x05 => scStore n c a s
  | 0x06 => farIssue n c a.rd.toNat (.ldf (s.scAddr n c a)) s
  | 0x07 => farIssue n c 0 (.stf (s.scAddr n c a) (BitVec.ofNat 64 y) (s.spoison n c a.rs2.toNat)) s
  | 0x08 => scCsrr n c a s
  | 0x09 => scCsrw n c a s
  | 0x0B => s.setSreg n c a.rd.toNat (s.pc n c + 1) false
  | 0x0D => scAtomic n c a.rd.toNat (.turn (x % 4096) y) (.turn (x % 4096) y) s
  | 0x0E => scAtomic n c 0 (.tadd (x % 4096) y) (.add (x % 4096) (y % 2 ^ 32)) s
  | 0x0F =>
    if a.fn.toNat % 4 = 0 then scAtomic n c a.rd.toNat (.arrive (x % 256)) (.arrive (x % 256)) s
    else if a.fn.toNat % 4 = 1 then scAtomic n c 0 (.arriveWait (x % 256)) (.arrive (x % 256)) s
    else s
  | 0x11 => scEvset n c a s
  | 0x12 => scEvstat n c a s
  | 0x15 => scGturn n c a s
  | 0x16 => s.later n c a.rd.toNat s.timeNow false 4
  | _ => s

/-! ### The next bundle (R309, R312, R315, R332) -/

/-- Where the context goes on, if the operation branches (R309): PC + IMM, or s[RS1]. -/
def scTarget (opc n c : Nat) (a : ScArgs) (s : State) : Option Nat :=
  if opc = 0x0A ∧ brTaken (a.fn.toNat % 8) (s.sreg n c a.rs1.toNat) (s.sreg n c a.rs2.toNat)
  then some (add64 (s.pc n c) (immSx a.imm))
  else if opc = 0x0B then some (s.sreg n c a.rs1.toNat) else none
/-- The PC becomes p; one outside the instruction buffer fails the next bundle (R309). -/
def setPcTo (n c p : Nat) (s : State) : State :=
  (s.setFld (.tctxPc n c) F.tctxPcPc (p % 2048)).modCore n fun x =>
    { x with pcOut := if p < 2048 then x.pcOut.filter (· != c) else c :: x.pcOut }
/-- The wait of an EVWAIT or BAR, if the operation is one (R312, R315). -/
def scWait (opc n c : Nat) (a : ScArgs) (s : State) : Option Wait :=
  let fn := a.fn.toNat
  let x := s.sreg n c a.rs1.toNat
  let mk := fun (k : WaitKind) (sw : Bool) => (⟨k, a.rd.toNat, sw, s.now, false⟩ : Wait)
  if opc = 0x10 then
    let single := bitAt fn 3
    let mask := if single then 2 ^ (a.imm.toNat % 64) else x
    some (mk (.events mask (bitAt fn 0) (bitAt fn 1) single) (bitAt fn 2))
  else if opc = 0x0F ∧ fn % 4 = 1 then some (mk (.joining (x % 256)) (bitAt fn 3))
  else if opc = 0x0F ∧ fn % 4 = 2 then
    some (mk (.barrier (x % 256) (s.sreg n c a.rs2.toNat % 2 ^ 32) false) (bitAt fn 3))
  else none
/-- A wait at issue: satisfied at once, or the context is WAITING. -/
def beginWait (n c : Nat) (w : Wait) (s : State) : State :=
  if waitHolds s n w.kind then waitDone n c w s
  else (s.setCtx n c ctxWaiting).modCore n fun x => { x with waits := tabSet x.waits c w }
/-- YIELD (R332): the core is offered to a READY context of equal or higher priority. -/
def yieldCore (n c : Nat) (s : State) : State :=
  let prio := fun d => s.fld (.tctxCtl n d) F.tctxCtlPrio
  if (s.core n).running = some c ∧
      (List.range 4).any (fun d => d != c && s.ctx n d == ctxReady && decide (prio c ≤ prio d)) then
    (s.setCtx n c ctxReady).modCore n fun x => { x with running := none }
  else s

end Sys2Proof.Machine
end

