-- ==== Sys2Proof/Machine/Sparse.lean ====
section
/-! DEFINITION. Sparse passes (spec/06, R165-R179, R322): match masks, the formation of compacted
passes, the gathering of activations, their timing, and the completion of an SPASS. -/

namespace Sys2Proof.Machine

/-- A source position of a sparse pass: the activation tile and each member's weight tile, as bytes,
and the weight formats' port cost (R171). -/
structure SrcPos where
  act : List Byte
  aoff : Nat
  wts : List (List Byte)
  woff : List Nat
  deriving DecidableEq, Repr

/-- Entry of a source list (R322): AOFF, WOFF of member g, and whether a zero field is zero. -/
def listAoff (e : Nat) : Nat := bitsOf e 11 0
def listWoff (e g : Nat) : Nat := bitsOf e (32 + 24 * g + 16) (32 + 24 * g)
def listBad (e members : Nat) : Bool :=
  bitsOf e 31 12 != 0 ||
  (List.range 4).any fun g => bitsOf e (32 + 24 * g + 23) (32 + 24 * g + 17) != 0 ||
    (decide (members ≤ g) && listWoff e g != 0)
/-- Ports that a source position's weight format costs (R171). -/
def portCost (fmt : Nat) : Nat := if fmt = fmtBbm then 2 else if fmt = fmtEbm ∨ fmt = fmtScl then 4 else 1
/-- F of R143 by port cost. -/
def fixedCost (cost : Nat) : Nat := if cost = 4 then 19 else if cost = 2 then 10 else 4
/-- Port cost of a position: the costliest member format counts. -/
def SrcPos.cost (p : SrcPos) : Nat := p.wts.foldl (fun a b => max a (portCost (hdrOf b).format)) 1
/-- The match mask of a position (R167). -/
def SrcPos.mask (p : SrcPos) : Nat :=
  (hdrOf p.act).colNz &&& p.wts.foldl (fun a b => a ||| (hdrOf b).rowNz) 0
/-- The set bits of a mask in ascending order. -/
def setBits (m : Nat) : List Nat := (List.range 128).filter (bitAt m)

/-- A compacted pass: its rows as (position, k) in physical order, and its costliest port cost. -/
structure CPass where
  rows : List (Nat × Nat)
  cost : Nat
  deriving DecidableEq, Repr

/-- One position's matched rows packed into passes (R171): `fuel` bounds the passes they may need. -/
def packPos (rowsMax j cost : Nat) : Nat → List Nat → CPass → Nat → List CPass →
    CPass × Nat × List CPass
  | 0, _, p, ports, out => (p, ports, out)
  | _, [], p, ports, out => (p, ports, out)
  | fuel + 1, ks, p, ports, out =>
    let (p, ports, out) :=
      if 32 < ports + cost then ((⟨[], 0⟩ : CPass), 0, out ++ [p]) else (p, ports, out)
    let take := ks.take (rowsMax - p.rows.length)
    let p := ⟨p.rows ++ take.map fun k => (j, k), max p.cost cost⟩
    let rest := ks.drop take.length
    if p.rows.length = rowsMax
    then packPos rowsMax j cost fuel rest ⟨[], 0⟩ 0 (out ++ [p])
    else packPos rowsMax j cost fuel rest p (ports + cost) out
/-- form_passes of R171. -/
def formPasses (rowsMax : Nat) : List (Nat × Nat × Nat) → CPass → Nat → List CPass → List CPass
  | [], p, _, out => if p.rows.isEmpty then out else out ++ [p]
  | (j, mask, cost) :: ps, p, ports, out =>
    let (p, ports, out) := packPos rowsMax j cost 130 (setBits mask) p ports out
    formPasses rowsMax ps p ports out

/-- Element type of the weights a sparse pass loads: its first weight tile's. -/
def State.spassType (s : State) (n : Nat) (es : List Nat) (dflt : Nat) : Nat :=
  match es with
  | [] => dflt
  | e :: _ => (hdrOf (s.cm n (listWoff e 0 * 64) 64)).etype
/-- The source list of an SPASS as read from its issue cycle on (R322). -/
def State.srcList (s : State) (n : Nat) (a : SpassArgs) : List Nat :=
  (List.range a.count.toNat).map fun i => s.cmN n (a.list.toNat * 64 + 16 * i) 16
/-- Fault of an SPASS at decode (R165, R317, R322), 0 for none. -/
def spassFault (s : State) (n c m : Nat) (a : SpassArgs) : Nat :=
  let x := s.mxe n m
  let mv := a.m.toNat
  let v := s.tileView n m a.tile.val
  match xregOf (s.sreg n c a.xreg.toNat) with
  | none => atBit ecDescFormat 10
  | some q =>
    if notLead s n m ∨ s.transp n m = true then atBit ecDescFormat 56
    else if q.evEn = false then atBit ecDescFormat 10
    else if 256 < a.count.toNat then atBit ecDescRange 30
    else if 128 < a.row0.toNat + mv then atBit ecDescRange 2
    else if wideBad (a.list.toNat * 64) (16 * a.count.toNat) then atBit ecDescRange 39
    else
      let et := s.spassType n (s.srcList n a) x.issEtype
      let mode := modeOf et
      if tileRows mode false < a.row0.toNat + mv then ecDescRange
      else if mv ≠ 0 ∧ v.isOpen ∧ v.mode ≠ mode then ecDescFormat
      else
        let f := if mv ≠ 0 ∧ v.isOpen = false then openFault s n m q.slot mode else 0
        if f ≠ 0 then f
        else if a.close && (decide (mv ≠ 0) || v.isOpen) then
          let v' := v.closing mode (tileCols et false (s.bypassed n m)) false mv a.row0.toNat
          closeFault s n m a.tile.val v' (s.chainWords n m a.chain.val) q.dst
        else 0
/-- An SPASS issues: it goes to the feeder with its source list and what it latches (R43, R110). -/
def spassIssue (n c m : Nat) (a : SpassArgs) (s : State) : State :=
  match xregOf (s.sreg n c a.xreg.toNat) with
  | none => s
  | some q =>
    let s := rampUp n m s
    let es := s.srcList n a
    let s := s.schedRange n 8 (a.list.toNat * 64) (a.count.toNat * 16) (s.cyc n) false
    let op : FeedOp :=
      { sparse := true, ctx := c, pc := s.pc n c, aboff := 0, m := a.m.toNat, tile := a.tile.val,
        row0 := a.row0.toNat, close := a.close, kh := false, arow := 0, switch := false,
        entries := es, count := a.count.toNat, latch := s.latchSlot q.slot,
        info := s.closeInfo n c m a.chain.val q, issue := s.cyc n, started := false }
    let et := s.spassType n es (s.mxe n m).issEtype
    (membersOf (s.gang n) m).foldl (fun s i => s.modMxe n i fun x =>
      { x with issEtype := et, issValid := true })
      (s.modMxe n m fun x => { x with feeder := x.feeder ++ [op] })

/-- The source positions of a sparse pass, read from AB and CM. -/
def State.positions (s : State) (n m : Nat) (mem : List Nat) (es : List Nat) : List SrcPos :=
  es.map fun e =>
    { act := s.abTile n m (listAoff e), aoff := listAoff e,
      wts := mem.zipIdx.map fun q => s.cmTile n (listWoff e q.2 * 64),
      woff := mem.zipIdx.map fun q => listWoff e q.2 * 64 }
/-- Fault of a position's tiles (R138, R139, R166), 0 for none; of a position with an empty mask only the
headers are read (R169). -/
def posFault (s : State) (n : Nat) (mem : List Nat) (et : Nat) (p : SrcPos) : Nat :=
  let idle := p.mask == 0
  let ha := hdrOf p.act
  let a := if idle then
      (if headFault ha (0x40000 - p.aoff * 64) ≠ 0 then headFault ha (0x40000 - p.aoff * 64)
        else if ha.etype = etBf16 ∨ ha.etype = etFp32 then 0 else ecDescFormat)
    else actTileFault p.act (0x40000 - p.aoff * 64)
  if a ≠ 0 then a
  else (mem.zip (p.wts.zip p.woff)).foldl (fun f q =>
    if f ≠ 0 then f
    else
      let h := hdrOf q.2.1
      let t := if idle then headFault h (cmSize - q.2.2) else tileFault q.2.1 (cmSize - q.2.2)
      if t ≠ 0 then t
      else if modeOf h.etype ≠ modeOf et ∨ !isWeightType h.etype then ecDescFormat
      else if widthOf et (s.bypassed n q.1) < h.cols then ecDescRange
      else if isIntMode et && decide (h.format ≠ fmtDense) &&
          ((s.mxe n q.1).active.params.take h.cols).any fun w =>
            decide (F.mxeWparamZp.of w.toNat % 256 ≠ h.zcode) then ecDescRange
      else 0) 0
/-- The weight set of a compacted pass on member g of a gang (R49, R171). -/
def compactSet (s : State) (n i g et : Nat) (ps : List SrcPos) (rows : List (Nat × Nat)) : WeightSet :=
  let get := fun j => (ps.getD j ⟨[], 0, [], []⟩)
  let cols := rows.foldl (fun a r => max a (hdrOf ((get r.1).wts.getD g [])).cols) 0
  let raw := rows.map fun r =>
    let b := (get r.1).wts.getD g []
    tileRow b (hdrOf b) r.2 cols
  let codes := raw.map fun r => r.map (loadCode et)
  let params := (s.mxe n i).active.params
  let colsum := (List.range cols).map fun j =>
    if isIntMode et then
      codes.foldl (fun (a : Int) r => a + sx (etBits et) (r.getD j 0)) 0 -
        rows.length * sx 8 (F.mxeWparamZp.of (params.getD j 0).toNat)
    else 0
  let poison := rows.any fun r =>
    let p := get r.1
    s.cmPoison n (p.woff.getD g 0) ((hdrOf (p.wts.getD g [])).len * 64)
  { etype := et, rows := rows.length, cols := cols, codes := codes, params := params,
    colsum := colsum, poison := poison,
    nanSeen := (2 ≤ et && et ≤ 3) && raw.any fun r => r.any fun c => (elemFp et c).special }
/-- Extra cycles that each vector's gather holds the row groups (R174). -/
def gatherHold (ps : List SrcPos) (rows : List (Nat × Nat)) : Nat :=
  ps.zipIdx.foldl (fun a q =>
    let h := hdrOf q.1.act
    let c := (rows.filter fun r => r.1 = q.2).length
    if 2 ≤ h.format ∧ h.format ≤ 4 ∧ 16 < c then max a (ceilDiv c 16 - 1) else a) 0

/-- The weights of a compacted pass reach an array: they are active, and the CSRs hold their parameters,
column sums and row count, those of this ripple (R49, R51, R171). -/
def loadCompact (n i : Nat) (w : WeightSet) (s : State) : State :=
  let s := s.modMxe n i fun x => { x with active := w }
  let s := (List.range 256).foldl (fun s j =>
    (s.setWord (.mxeWparam n i j) ((w.params.getD j 0).toNat / 2 ^ 24 * 2 ^ 24)).setWord
      (.mxeColsum n i j) (ux 32 (w.colsum.getD j 0))) s
  let s := s.setWord (.mxeRowcnt n i) w.rows
  s.setFld (.mxeStatus n i) F.mxeStatusWvalid 1

/-- Running results of a sparse pass: the state, the cycle the last vector left, the cycle the last
result is readable, the statistic, NAN_SEEN. -/
structure SpRun where
  s : State
  left : Nat
  last : Nat
  stat : Option Nat
  nan : Bool

/-- One compacted pass (R173-R175): load, gather, quantise, accumulate, with the check of R81-R83 on the
compacted rows (R198). -/
def compactPass (n m i0 : Nat) (mem : List Nat) (f : FeedOp) (misses : List Miss) (et : Nat) (ps : List SrcPos)
    (r : SpRun) (pidx : Nat) (p : CPass) : SpRun :=
  let s := r.s
  let k := p.rows.length
  let h := i0 + (p.rows.foldl (fun a q => max a q.1) 0) / 8
  let fc := fixedCost p.cost
  let sw := match (s.mxe n m).lastSwitch with
    | some t => t + 9
    | none => 0
  let s0 := if pidx = 0 then max (max (i0 + fc) (h + 1)) sw else max sw (h + 1)
  let t0 := if pidx = 0 then afterLoad s0 k else max (afterLoad s0 k) (r.left + 1 + fc)
  let s := mem.zipIdx.foldl (fun s q =>
    loadCompact n q.1 (compactSet s n q.1 q.2 et ps p.rows) s) s
  let s := mem.foldl (fun s i => s.modMxe n i fun x =>
    { x with lastSwitch := some t0, lastLoad := some (s0, k) }) s
  let s := mem.foldl (fun s i => addColacc n i f.tile s) s
  let l := ((s.mxe n m).tile f.tile).latch
  let vs := (List.range f.m).map fun v =>
    let row := f.row0 + v
    let es := p.rows.map fun q =>
      let pos := ps.getD q.1 ⟨[], 0, [], []⟩
      elemFp (hdrOf pos.act).etype (tileElem pos.act (hdrOf pos.act) row q.2)
    let poison := (p.rows.map Prod.fst).dedup.any fun j =>
      let pos := ps.getD j ⟨[], 0, [], []⟩
      (s.abRow n m pos.act (hdrOf pos.act) pos.aoff row 0 0).2
    mkVec l (et == etBf16) es poison
  let checked := s.isChecked n m f.info.chain
  let zp := hasZp f.info.chain
  let one := gatherHold ps p.rows
  let hold := f.m * one
  let s := noteReads n m ((p.rows.map Prod.fst).dedup.map fun j =>
    let pos := ps.getD j ⟨[], 0, [], []⟩
    ⟨none, pos.aoff * 64, (hdrOf pos.act).len * 64, 0, t0, vecStep checked zp + one, f.m⟩) s
  let (s, refeed) := runPass n m mem f (misses.filter fun z => z.pass == pidx) t0 one 0 checked vs s
  let s := s.bump (.mxeSpfStat n m) F.mxeSpfStatGather hold
  let s := s.bump (.mxeStallCnt n m) F.mxeStallCntFeed hold
  let s := s.bump (.mxeSpfCnt n m) F.mxeSpfCntPasses 1
  let s := s.bump (.mxeSpfCnt n m) F.mxeSpfCntMatched k
  let s := s.modMxe n m fun x => { x with passNo := x.passNo + 1 }
  { s := s, left := t0 + f.m * vecStep checked zp + hold + refeed - 1,
    last := max r.last (t0 + s.lastResult n m checked zp f.m + hold + refeed),
    stat := statOf r.stat vs,
    nan := r.nan || vs.any Vec.nan || mem.any fun i => (s.mxe n i).active.nanSeen }

/-- All compacted passes in order. -/
def compactPasses (n m i0 : Nat) (mem : List Nat) (f : FeedOp) (misses : List Miss) (et : Nat) (ps : List SrcPos) :
    Nat → List CPass → SpRun → SpRun
  | _, [], r => r
  | k, p :: cs, r =>
    compactPasses n m i0 mem f misses et ps (k + 1) cs (compactPass n m i0 mem f misses et ps r k p)
/-- The source positions of a sparse pass, checked (R165, R322): its fault, 0 for none. -/
def spassBad (s : State) (n m : Nat) (f : FeedOp) (et : Nat) (ps : List SrcPos) : Nat :=
  let mem := membersOf (s.gang n) m
  let bad := ps.foldl (fun c p => if c ≠ 0 then c else posFault s n mem et p) 0
  if bad = 0 ∧ f.entries.any (fun e => listBad e mem.length) then ecDescFormat else bad
/-- A sparse pass from the cycle i0 in which it reaches the head of the feeder: its tile opens, its compacted
passes run. -/
def spassRun (n m i0 : Nat) (f : FeedOp) (misses : List Miss) (et : Nat) (ps : List SrcPos) (s : State) :
    SpRun × Bool :=
  let mem := membersOf (s.gang n) m
  let masks := ps.zipIdx.map fun q => (q.2, q.1.mask, q.1.cost)
  let passes := formPasses (if et = etBf16 then 64 else 128) masks ⟨[], 0⟩ 0 []
  let s := mem.foldl (fun s i => s.modMxe n i fun x => { x with active := { x.active with etype := et } }) s
  let s := mem.foldl (fun s i => if ((s.mxe n i).tile f.tile).st = 0 then openTile s n i f.tile f.latch else s) s
  let s := s.bump (.mxeSpfCnt n m) F.mxeSpfCntSkipped (masks.filter fun q => q.2.1 = 0).length
  (compactPasses n m i0 mem f misses et ps 0 passes ⟨s, i0, i0 + (f.count - 1) / 8 + 3, none, false⟩, passes.isEmpty)
/-- The cycle in which the last vector of the sparse pass at the head of a feeder leaves it (R177), as it
goes without a fault of the array; none where no such pass runs. -/
def sparseLeft (s : State) (n m : Nat) : Option Nat :=
  match (s.mxe n m).feeder with
  | [] => none
  | f :: _ =>
    let i0 := max f.issue (s.mxe n m).feedFree
    if !f.sparse then none
    else if f.m = 0 ∨ f.count = 0 then some i0
    else
      let et := s.spassType n f.entries (s.mxe n m).issEtype
      let ps := s.positions n m (membersOf (s.gang n) m) f.entries
      if spassBad s n m f et ps ≠ 0 then some i0 else some (spassRun n m i0 f [] et ps s).1.left
/-- SPASS_COMPLETE (R171-R178): the sparse pass at the head of the feeder runs its compacted passes,
and signals its event one cycle after its last result is readable, or hands its tile to the drain
unit when it closes it. With every mask empty it opens a FREE tile and completes 4 cycles after its
last header (R176). -/
def spassComplete (n m : Nat) (misses : List Miss) (s : State) : State :=
  let x := s.mxe n m
  match x.feeder with
  | [] => s
  | f :: _ =>
    if !f.sparse then s
    else
      let i0 := max f.issue x.feedFree
      let s := s.toCyc n i0
      let mem := membersOf (s.gang n) m
      let et := s.spassType n f.entries x.issEtype
      let ps := s.positions n m mem f.entries
      let bad := spassBad s n m f et ps
      if f.m = 0 ∨ f.count = 0 then
        let s := s.modMxe n m popFeed
        if f.close && decide ((x.tile f.tile).st = 1)
        then closeGang n mem f.tile f.info (x.tile f.tile).ready s
        else (s.toCyc n (i0 + 1)).signal n f.info.event {}
      else if bad ≠ 0 then feedFail n m f bad s
      else
        let (r, empty) := spassRun n m i0 f misses et ps s
        let s := r.s.reportAt n r.last ((r.s.mxe n m).tile f.tile).latch.slot r.stat r.nan
        let s := mem.foldl (fun s i => s.modMxe n i fun x =>
          let q := x.tile f.tile
          x.setTile f.tile { q with
            ready := max q.ready r.last,
            mt := if empty then max q.mt (f.row0 + f.m) else q.mt }) s
        let s := s.modMxe n m fun x =>
          { popFeed x with feedFree := r.left + 1, busyTill := max x.busyTill r.last }
        if f.close then closeGang n mem f.tile f.info ((s.mxe n m).tile f.tile).ready s
        else (s.toCyc n (r.last + 1)).signal n f.info.event
          { nanSeen := r.nan, abft := ((s.mxe n m).tile f.tile).abft }

end Sys2Proof.Machine
end

