-- ==== Sys2Proof/Machine/Vector.lean ====
section
/-! DEFINITION. The vector engine (spec/10, R303, R324-R326): lane arithmetic in the three types of
T, the fixed-latency operations, and the two background operations VREQ (R58, R59) and VPSUM
(R129). -/

namespace Sys2Proof.Machine

/-! ### Lanes -/

/-- The lanes of register words in a type: 256 halfwords for BF16 (T = 1), else the 128 words. -/
def lanesOf (t : Nat) (ws : List Nat) : List Nat :=
  if t = 1 then ws.flatMap fun w => [w % 65536, w / 65536] else ws
/-- Register words of lanes. -/
def wordsOf (t : Nat) : List Nat → List W32
  | a :: b :: r => if t = 1 then BitVec.ofNat 32 (a % 65536 + 65536 * (b % 65536)) :: wordsOf t r
      else BitVec.ofNat 32 a :: wordsOf t (b :: r)
  | [a] => [BitVec.ofNat 32 a]
  | [] => []
/-- Element-type code of T. -/
def vType (t : Nat) : Nat := if t = 0 then etFp32 else if t = 1 then etBf16 else etInt32
/-- A lane's value. -/
def vVal (t x : Nat) : Fp := elemFp (vType t) x
/-- A value rounded to a lane. -/
def vRnd (t : Nat) (v : Fp) : Nat := fpElem (vType t) v
/-- Signed value of an INT32 lane. -/
def vInt (x : Nat) : Int := sx 32 x
/-- An INT32 lane of an exact result, saturated (R325), and whether it saturated. -/
def vSat (x : Int) : Nat × Bool := (ux 32 (satI32 x), satI32 x != x)
/-- A value that leaves the INT32 range as it is converted (R34, R325; assumption 187, DEDUCED). -/
def convSat (v : Fp) : Bool := satI32 (toIntSat (i32Min - 1) (i32Max + 1) v) != toIntSat (i32Min - 1) (i32Max + 1) v
/-- All ones in a lane. -/
def vOnes (t : Nat) : Nat := if t = 1 then 0xFFFF else 0xFFFFFFFF

/-- VADD, VSUB, VMUL of one lane: IEEE 754 with RNA, or saturating (R325). -/
def vArith (op t a b : Nat) : Nat × Bool :=
  if t = 2 then
    vSat (if op = 3 then vInt a + vInt b else if op = 4 then vInt a - vInt b else vInt a * vInt b)
  else
    (vRnd t (if op = 3 then fpAdd (vVal t a) (vVal t b) else if op = 4 then fpSub (vVal t a) (vVal t b)
      else fpMul (vVal t a) (vVal t b)), false)
/-- VMAX, VMIN of one lane (R35). -/
def vMinMax (min : Bool) (t a b : Nat) : Nat :=
  if t = 2 then ux 32 (if min then Min.min (vInt a) (vInt b) else max (vInt a) (vInt b))
  else vRnd t (if min then fpMin (vVal t a) (vVal t b) else fpMax (vVal t a) (vVal t b))
/-- The relation of VCMP: EQ, NE, LT, LE, GT, GE. -/
def vRel (k t a b : Nat) : Bool :=
  let x := vVal t a
  let y := vVal t b
  match k with
  | 0 => fpEq x y
  | 1 => !fpEq x y
  | 2 => fpLtIeee x y
  | 3 => fpLtIeee x y || fpEq x y
  | 4 => fpLtIeee y x
  | _ => fpLtIeee y x || fpEq x y
/-- VUNARY of one lane; `fr` is the free value that stands for the ABS or NEG of the lowest INT32. -/
def vUnary (k t a fr : Nat) : Nat :=
  if k = 2 then a
  else if t = 2 then
    (if vInt a = i32Min then fr else ux 32 (if k = 0 then ((vInt a).natAbs : Int) else - vInt a))
  else vRnd t (if k = 0 then fpAbs (vVal t a) else fpNeg (vVal t a))
/-- VDIV of one lane: the exact quotient rounded once (R33); an INT32 quotient that has no INT32
value is the free value `fr`. -/
def vDiv (t a b fr : Nat) : Nat :=
  if t = 2 then
    (if vInt b = 0 ∨ (vInt a = i32Min ∧ vInt b = -1) then fr
     else ux 32 (quotToInt i32Min i32Max (fpDiv (ofInt (vInt a)) (ofInt (vInt b)))))
  else if t = 1 then quotTo16 (fpDiv (of16 a) (of16 b))
  else quotTo32 (fpDiv (of32 a) (of32 b))
/-- VFUNC of one lane; RECIP is exact (R324); INT32 lanes have no stated result. -/
def vFunc (f t a fr : Nat) : Nat :=
  if t = 2 then fr
  else if f = 6 then vDiv t (vRnd t (ofInt 1)) a 0
  else if f = 0 then vRnd t (fpMax (vVal t a) (.num false 0 0))
  else if vVal t a = .nan then (if t = 1 then 0x7FC0 else 0x7FC00000)
  else if f = 7 then (if t = 1 then rsqrt16 a else rsqrt32 a)
  else if t = 1 then actFn16 f a
  else actFn f a

/-! ### The fixed-latency operations (R324) -/

/-- A poisoned operand unit poisons the result unit (R325). -/
def poisonUnits (ps : List (List Bool)) : List PoisonBit :=
  (List.range 8).map fun u => ⟨u, ps.any fun p => p.getD u false⟩
/-- Set bits of VXE_STAT. -/
def State.vxeSet (s : State) (n : Nat) (sat nan poison : Bool) : State :=
  s.setWord (.vxeStat n) (s.word (.vxeStat n) ||| (4 * b2n sat + 2 * b2n nan + 8 * b2n poison))
/-- A whole-register result on its way, with its latency. -/
def State.vput (s : State) (n v : Nat) (t lat : Nat) (lanes : List Nat) (p : List PoisonBit)
    (first : Nat := 0) (mask : W32 := 0xFFFFFFFF) : State :=
  let s := s.vxeSet n false false (p.any (·.bit))
  s.modCore n fun c => { c with vpend := c.vpend ++
    [⟨s.cyc n + lat, v, first, mask, wordsOf t lanes, p⟩] }
/-- Draw free values, one per lane. -/
def State.freeLanes (s : State) (w : Nat) : List Nat × State :=
  ((List.range 256).map fun i => Config.freeNat (s.draws + i) % 2 ^ w,
    { s with draws := s.draws + 256 })
/-- CM offset of a VLD or VST: s[RS] + IMM[16:0] × 64. -/
def State.vxAddr (s : State) (n c : Nat) (a : VxArgs) : Nat :=
  add64 (s.sreg n c a.rs.toNat) (a.imm.toNat % 2 ^ 17 * 64)
/-- CM offset of a VREQ or VPSUM descriptor: s[RS] + IMM × 32. -/
def State.vxDesc (s : State) (n c : Nat) (a : VxArgs) : Nat :=
  add64 (s.sreg n c a.rs.toNat) (a.imm.toNat * 32)

/-- The tree sum of R122 in a lane type; INT32 lanes add in the same tree with saturation. -/
def vTree (t : Nat) : Nat → List Nat → Nat × Bool
  | _, [] => (0, false)
  | _, [x] => (x, false)
  | 0, x :: _ => (x, false)
  | k + 1, l =>
    let rec level : List Nat → List Nat × Bool
      | a :: b :: r =>
        let (v, q) := vArith 3 t a b
        let (vs, q') := level r
        (v :: vs, q || q')
      | r => (r, false)
    let (l', q) := level l
    let (v, q') := vTree t k l'
    (v, q || q')
/-- Lane-wise binary results with their saturation. -/
def vZip (f : Nat → Nat → Nat × Bool) (as bs : List Nat) : List Nat × Bool :=
  let r := List.zipWith f as bs
  (r.map Prod.fst, r.any Prod.snd)

/-- A fixed-latency operation takes the VXE for a cycle: the accesses of a background operation that are still to
come, and its completion, move on by one (R326). -/
def vbgSlip (n : Nat) (s : State) : State :=
  let t := s.cyc n
  s.doIf ((s.core n).sched.any fun a => a.slip && a.cyc == t) fun s => s.modCore n fun c => { c with
    sched := c.sched.map fun a => if a.slip ∧ t ≤ a.cyc then { a with cyc := a.cyc + 1 } else a
    vbg := c.vbg.map fun b => if t ≤ b.done then { b with done := b.done + 1 } else b }
/-- Issue of a fixed-latency operation of the VX slot. -/
def vxIssue (opc n c : Nat) (a : VxArgs) (s : State) : State :=
  let s := vbgSlip n s
  let t := a.t.toNat
  let d := a.vd.toNat
  let reg := fun (v : BitVec 6) => lanesOf t (s.vreg n v.toNat)
  let x := reg a.va
  let y := reg a.vb
  let pa := s.vpois n a.va.toNat
  let pb := s.vpois n a.vb.toNat
  let pc := s.vpois n a.vc.toNat
  let k := a.imm.toNat
  match opc with
  | 0x01 =>
    let o := s.vxAddr n c a
    (s.sched n 10 o 512 (s.cyc n) false).vput n d 0 6 ((chunks 4 128 (s.cm n o 512)).map leNat)
      ((List.range 8).map fun u => ⟨u, s.cmPoison n (o + 64 * u) 64⟩)
  | 0x02 =>
    let bs := (s.vreg n a.va.toNat).flatMap (natLe 4)
    let o := s.vxAddr n c a
    let ps := (List.range ((o % 64 + 512 + 63) / 64)).map fun u =>
      pa.getD u false || (o % 64 != 0 && u != 0 && pa.getD (u - 1) false)
    (s.sched n 10 o 512 (s.cyc n + 2) true).modCore n fun x =>
      { x with slow := x.slow ++ [.cmw (s.cyc n + 2) o bs ps false] }
  | 0x06 =>
    let z := reg a.vc
    let r := List.zipWith (fun p w => vRnd t (fpAdd (fpMul (vVal t p.1) (vVal t p.2)) (vVal t w)))
      (x.zip y) z
    s.vput n d t 4 r (poisonUnits [pa, pb, pc])
  | 0x07 => s.vput n d t 4 (List.zipWith (vMinMax false t) x y) (poisonUnits [pa, pb])
  | 0x08 => s.vput n d t 4 (List.zipWith (vMinMax true t) x y) (poisonUnits [pa, pb])
  | 0x09 =>
    let (fr, s) := if t = 2 ∧ k % 4 ≠ 2 then s.freeLanes 32 else ([], s)
    s.vput n d t 4 (x.zipIdx.map fun q => vUnary (k % 4) t q.1 (fr.getD q.2 0)) (poisonUnits [pa])
  | 0x0A =>
    s.vput n d t 4 (List.zipWith (fun p q => if vRel (k % 8) t p q then vOnes t else 0) x y)
      (poisonUnits [pa, pb])
  | 0x0B =>
    let z := reg a.vc
    s.vput n d t 4 (List.zipWith (fun p w => if w ≠ 0 then p.1 else p.2) (x.zip y) z)
      (poisonUnits [pa, pb, pc])
  | 0x0C =>
    let et := k % 16
    let h := if bitAt k 4 then 1 else 0
    let src := if t = 1 then (x.drop (128 * h)).take 128 else x
    let r := src.map fun w => fpElem et (vVal t w)
    let nan := et = etInt32 && src.any fun w => (vVal t w).special
    let s := s.vxeSet n (et = etInt32 && src.any fun w => convSat (vVal t w)) nan false
    let bits := fun u => if t = 1 then pa.getD (4 * h + u / 2) false else pa.getD u false
    if et = etBf16 then
      s.vput n d 1 4 r ((List.range 4).map fun u =>
        ⟨4 * h + u, if t = 1 then pa.getD (4 * h + u) false
          else pa.getD (2 * u) false || pa.getD (2 * u + 1) false⟩) (64 * h)
    else s.vput n d 0 4 r ((List.range 8).map fun u => ⟨u, bits u⟩)
  | 0x0D =>
    let (fr, s) := if t = 2 then s.freeLanes 32 else ([], s)
    s.vput n d t 8 (x.zipIdx.map fun q => vFunc (k % 16) t q.1 (fr.getD q.2 0)) (poisonUnits [pa])
  | 0x0E =>
    let (fr, s) := if t = 2 then s.freeLanes 32 else ([], s)
    s.vput n d t 12 ((x.zip y).zipIdx.map fun q => vDiv t q.1.1 q.1.2 (fr.getD q.2 0))
      (poisonUnits [pa, pb])
  | 0x0F =>
    let (v, sat) :=
      if k % 4 = 0 then vTree t 9 x
      else ((x.drop 1).foldl (vMinMax (k % 4 == 2) t) (x.getD 0 0), false)
    let s := s.vxeSet n sat false false
    s.vput n d 0 8 [v] (if pa.contains true then [⟨0, true⟩] else []) 0 (if t = 1 then 0xFFFF else 0xFFFFFFFF)
  | 0x10 =>
    let v := s.sreg n c a.rs.toNat % 2 ^ 32
    let w := if t = 1 then v % 65536 * 65537 else v
    let p := s.spoison n c a.rs.toNat
    s.vput n d 0 2 (List.replicate 128 w) ((List.range 8).map fun u => ⟨u, p⟩)
  | _ =>
    let (r, sat) := vZip (vArith opc t) x y
    let s := s.vxeSet n sat false false
    s.vput n d t 4 r (poisonUnits [pa, pb])

/-- Fault of a VX slot at decode (R300, R304, R324, R326). -/
def vxFault (opc n c : Nat) (a : VxArgs) (s : State) : Nat :=
  let t := a.t.toNat
  let k := a.imm.toNat
  let usesRs := opc = 1 ∨ opc = 2 ∨ opc = 0x11 ∨ opc = 0x12
  let o := s.vxAddr n c a
  let d := s.vxDesc n c a
  let w := s.cm n d 32
  let f := fieldAt w
  let past := fun (u len : Nat) => wideBad (u * 64) len
  firstFault [
    failIf (0x12 < opc) ecDescFormat 56,
    failIf (t == 3) ecDescFormat 30,
    failIf (decide usesRs && s.spoison n c a.rs.toNat) ecPoisonConsumed a.rs.toNat,
    failIf ((opc == 1 || opc == 2) && decide (cmSize < o + 512)) ecDescRange 0,
    failIf (opc == 6 && t == 2) ecDescFormat 30,
    failIf (opc == 9 && k % 4 == 3) ecDescFormat 0,
    failIf (opc == 0x0A && decide (5 < k % 8)) ecDescFormat 0,
    failIf (opc == 0x0C && !(decide (4 ≤ k % 16 ∧ k % 16 ≤ 6))) ecDescFormat 0,
    failIf (opc == 0x0D && decide (8 < k % 16)) ecDescFormat 0,
    failIf (opc == 0x0F && k % 4 == 3) ecDescFormat 0,
    failIf ((opc == 0x11 || opc == 0x12) && d % 32 != 0) ecDescFormat 0,
    failIf ((opc == 0x11 || opc == 0x12) && decide (cmSize < d + 32)) ecDescRange 0,
    if opc = 0x11 then
      let kk := f 4 2
      let nn := f 6 1
      let et := f 16 4
      firstFault [
        failIf (f 7 1 != 0 || decide (3 < et) || bitAt (f 20 1) 6 || f 21 11 != 0) ecDescFormat 0,
        failIf (decide (16384 < kk ∨ nn = 0 ∨ 128 < nn)) ecDescRange 0,
        failIf (kk != 0 && (past (f 0 4) (kk * nn * 4) || past (f 8 4) (ceilDiv kk 128 * denseLen et * 64) ||
          past (f 12 4) (nn * 8))) ecDescRange 0]
    else if opc = 0x12 then
      let p := f 8 1
      let len := f 10 2
      let et := f 12 1
      firstFault [
        failIf (f 9 1 != 0 || !(et == 0 || et == 2) || f 13 3 != 0 || bitAt (f 20 1) 6 || f 21 11 != 0)
          ecDescFormat 0,
        failIf (decide (128 < p)) ecDescRange 0,
        failIf (p != 0 && len != 0 && (past (f 0 4 + (p - 1) * f 4 4) (len * 512) ||
          past (f 16 4) (len * 512))) ecDescRange 0]
    else 0]

/-! ### VREQ and VPSUM (R58, R59, R129, R326) -/

/-- qmax of a weight type (R58). -/
def weightQmax (et : Nat) : Nat :=
  to32 (ofInt (if et = 0 then 7 else if et = 1 then 127 else if et = 2 then 448 else 57344))
/-- The code of a master weight (R58, R35): clamped to ±qmax, NaN to 0, an infinity to ±qmax. -/
def weightCode (et s : Nat) (w : Fp) : Nat :=
  let q := match w with
    | .inf _ => Quot.special w
    | .nan => .special .nan
    | _ => fpDiv w (of32 s)
  if w.isZero then 0
  else if et ≤ 1 then
    let m : Int := if et = 0 then 7 else 127
    ux (etBits et) (match q with
      | .special .nan => 0
      | q => quotToInt (-m) m q)
  else match q with
    | .special v => fpElem et v
    | .ratio neg a b e => if et = 2 then quotE4 neg a b e else quotE5 neg a b e

/-- What a background operation will write and report. -/
structure VecBgRes where
  writes : List WrOp
  const : List Nat
  sat : Bool
  nan : Bool
  poison : Bool
  deriving DecidableEq, Repr

/-- VREQ: scales, codes, tiles and parameters of a K × N master block (R58, R59). -/
def vreqRes (s : State) (n : Nat) (d : List Byte) : VecBgRes :=
  let f := fieldAt d
  let kk := f 4 2
  let nn := f 6 1
  let et := f 16 4
  let src := f 0 4 * 64
  let w := (List.range kk).map fun k => (List.range nn).map fun j =>
    of32 (s.cmN n (src + (k * nn + j) * 4) 4)
  let am := (List.range nn).map fun j =>
    w.foldl (fun a r => fpMax a (fpAbs (r.getD j (.num false 0 0)))) (.num false 0 0)
  let sc := am.map fun a => div32 (to32 (fpMax a (of32 0x33800000))) (weightQmax et)
  let codes := w.map fun r => List.zipWith (fun s x => weightCode et s x) sc r
  let p := s.cmPoison n src (kk * nn * 4)
  let tiles := (List.range (ceilDiv kk 128)).map fun i =>
    let rows := min 128 (kk - 128 * i)
    let bs := encodeTile fmtDense et rows nn ((codes.drop (128 * i)).take rows)
    WrOp.mk (coreBase n + f 8 4 * 64 + i * denseLen et * 64) bs p
  let params := WrOp.mk (coreBase n + f 12 4 * 64) (sc.flatMap fun x => natLe 8 (x * 2 ^ 32)) p
  { writes := tiles ++ [params]
    const := (List.range nn).filter fun j => (am.getD j .nan).isZero
    sat := false, nan := w.any (·.any Fp.special), poison := p }
/-- VPSUM: P partials in partial-index order (R129). -/
def vpsumRes (s : State) (n : Nat) (d : List Byte) : VecBgRes :=
  let f := fieldAt d
  let p := f 8 1
  let len := f 10 2
  let int := f 12 1 = 2
  let at_ := fun (i l : Nat) => s.cmN n ((f 0 4 + i * f 4 4) * 64 + l * 4) 4
  let sum := fun l =>
    if int then
      let v := (List.range p).foldl (fun a i => a + sx 32 (at_ i l)) (0 : Int)
      (ux 32 (satI32 v), satI32 v != v)
    else ((List.range (p - 1)).foldl (fun a i => add32 a (at_ (i + 1) l)) (at_ 0 l), false)
  let r := (List.range (len * 128)).map sum
  let pois := (List.range (len * 8)).map fun u =>
    (List.range p).any fun i => s.cmPoison n ((f 0 4 + i * f 4 4) * 64 + u * 64) 64
  { writes := pois.zipIdx.map fun q =>
      WrOp.mk (coreBase n + f 16 4 * 64 + q.2 * 64)
        (((r.drop (16 * q.2)).take 16).flatMap fun x => natLe 4 x.1) q.1
    const := [], sat := r.any Prod.snd, nan := false, poison := pois.contains true }
/-- The CM offsets that a background operation reads, 512 bytes a cycle (R326): the master block in address order;
of each result vector the partials in order. -/
def vbgReads (req : Bool) (d : List Byte) : List Nat :=
  let f := fieldAt d
  if req then (List.range (ceilDiv (f 4 2 * f 6 1) 128)).map fun i => f 0 4 * 64 + 512 * i
  else (List.range (f 10 2)).flatMap fun l => (List.range (f 8 1)).map fun p => (f 0 4 + p * f 4 4) * 64 + 512 * l
/-- The CM offsets that it writes, 512 bytes a cycle. -/
def vbgWrites (n : Nat) (ws : List WrOp) : List Nat :=
  wideCover ((ws.flatMap fun w => (List.range (ceilDiv w.bs.length 64)).map fun i => (w.a - coreBase n) / 64 + i).dedup.mergeSort) 0
    |>.map (· * 64)
/-- Issue of a VREQ or VPSUM: it runs in the background at 128 lanes per cycle, after those before it, its reads
ahead of its writes; a count of 0 completes at once and writes nothing (R326; assumption 41, DESIGN CHOICE). The
descriptor is read as a scheduled access. -/
def vbgIssue (req : Bool) (n c : Nat) (a : VxArgs) (s : State) : State :=
  let d := s.cm n (s.vxDesc n c a) 32
  let f := fieldAt d
  let t := s.cyc n
  let zero := if req then f 4 2 = 0 else f 8 1 = 0 ∨ f 10 2 = 0
  let ev := f 20 1
  let r : VecBgRes := if zero then ⟨[], [], false, false, false⟩ else if req then vreqRes s n d else vpsumRes s n d
  let reads := if zero then [] else vbgReads req d
  let as := reads.map (·, false) ++ (vbgWrites n r.writes).map (·, true)
  let t0 := if zero then t else (s.core n).vbg.foldl (fun a b => max a b.done) t
  let s := s.sched n 10 (s.vxDesc n c a) 32 t false
  let s := s.setFld (.vxeStat n) F.vxeStatBusy 1
  s.modCore n fun x => { x with
    sched := x.sched ++ as.zipIdx.map fun q => ⟨t0 + 1 + q.2, 10, q.1.1, 512, q.1.2, true⟩
    vbg := x.vbg ++ [⟨c, t, t0 + as.length, bitAt ev 7, ev % 64, r.writes, r.const, r.sat, r.nan, r.poison, 0, s.pc n c⟩] }
/-- VECTOR_BACKGROUND_DONE: the oldest background operation completes: its writes, its
CONST_CHANNEL events (R59), its flags and its event (R326). -/
def vectorBackgroundDone (n : Nat) (s : State) : State :=
  match (s.core n).vbg with
  | [] => s
  | b :: rest =>
    let s := s.toCyc n b.done
    let s := s.modCore n fun x => { x with vbg := rest }
    let s := s.wrOps b.writes
    let s := b.const.foldl (fun s j => s.raise
      { src := srcOf 1 n 5, code := ecConstChannel, detail := [(32, 2, j), (34, 1, 1)] }) s
    let s := s.doIf rest.isEmpty fun s => s.setFld (.vxeStat n) F.vxeStatBusy 0
    let s := s.doIf (!b.evEn) fun s => s.vxeSet n b.sat b.nanSeen b.poison
    s.signalIf b.evEn n b.event
      { code := if b.const.isEmpty then b.code else ecConstChannel, poison := b.poison,
        sat := b.sat, nanSeen := b.nanSeen }

end Sys2Proof.Machine
end

