-- ==== Sys2Proof/Machine/Bundle.lean ====
section
/-! DEFINITION. Bundles (R296-R301, R316-R330, R337-R340): the operations of a bundle's slots, the
stalls and faults they meet, their issue; results of fixed latency as they land; far operations as
they complete. -/

namespace Sys2Proof.Machine

/-! ### What lands in a core (R303, R308, R337) -/

/-- The core cycle in which a result on its way acts: a CSRR samples two cycles before its result. -/
def SlowOp.acts : SlowOp → Nat
  | .cmw due .. => due
  | .reg due .. => due
  | .csrr due .. => due - 2
  | .csrw due .. => due
/-- Insertion in order of cycle, after the entries of the same cycle. -/
def slowInsert (o : SlowOp) : List SlowOp → List SlowOp
  | [] => [o]
  | p :: ps => if o.acts < p.acts then o :: p :: ps else p :: slowInsert o ps
/-- A result lands. -/
def slowLand (n t : Nat) (o : SlowOp) (s : State) : State :=
  match o with
  | .cmw .. => s
  | .reg _ c rd v p => s.setSreg n c rd v.toNat p
  | .csrw _ a v => csrWrite (.core (Fin.ofNat 32 n)) a v.toNat s
  | .csrr due c rd a =>
    let r := csrRead (.core (Fin.ofNat 32 n)) a s
    if due ≤ t then r.2.setSreg n c rd r.1 false
    else r.2.modCore n fun x => { x with slow := x.slow ++ [.reg due c rd (BitVec.ofNat 64 r.1) false] }
/-- True for a result that acts by a cycle, CM writes apart. -/
def slowReady (t : Nat) (o : SlowOp) : Bool := o.cmDue.isNone && decide (o.acts ≤ t)
/-- Scalar results and CSR accesses of the core due by now act, in order of cycle. -/
def landSlow (n : Nat) (s : State) : State :=
  let t := s.cyc n
  let l := (s.core n).slow
  if l.any (slowReady t) then
    let s := s.modCore n fun x => { x with slow := x.slow.filter fun o => !slowReady t o }
    ((l.filter (slowReady t)).foldl (fun a o => slowInsert o a) []).foldl (fun s o => slowLand n t o s) s
  else s
/-- Everything due in a core by its present cycle has happened, and the control block has served what came before
it. -/
def coreSync (n : Nat) (s : State) : State :=
  ((landSlow n (flushLanded n (s.landCm n)).tsSettle).landVec n).syncCore n
/-- The contexts of a running kernel. -/
def Kernel.places (k : Kernel) : List (Nat × Nat) := k.cores.flatMap fun n => k.ctxs.map fun c => (n, c)
/-- The first eight DETAIL bytes of the newest error record of a core with a code. -/
def State.ringDetail (s : State) (n code : Nat) : Nat :=
  let head := s.fld .errHead F.errHeadHead
  match ((List.range 1024).map fun i => (head + 2047 - i) % 1024).find? fun i =>
      bitsOf (s.word (.errRing i 1)) 23 16 = code ∧ bitsOf (s.word (.errRing i 1)) 15 4 = 256 + n with
  | some i => s.word (.errRing i 4)
  | none => 0
/-- A kernel command completes (R360): status 3 when a context faults, which Virhan then resets; status 0
once every context has halted. A kernel holds its grant while a context of it lives. -/
def kernelEnd (k : Kernel) (s : State) : State :=
  let s := match k.places.find? fun p => s.ctx p.1 p.2 == ctxFaulted with
    | some p =>
      let code := s.fld (.tctxStat p.1 p.2) F.tctxStatCode
      let s := endCmd k.q k.cmd ⟨3, code, s.ringDetail p.1 code⟩ s
      k.places.foldl (fun s p => s.doIf (s.ctx p.1 p.2 == ctxFaulted) (tctxReset p.1 p.2)) s
    | none => s
  if k.places.any fun p => s.ctxLive p.1 p.2 then s
  else finishCmd k.q k.cmd { s with hif := { s.hif with kernels := s.hif.kernels.filter fun x => x.cmd != k.cmd } }
/-- Every running kernel is looked at. -/
def kernelSweep (s : State) : State := s.hif.kernels.foldl (fun s k => kernelEnd k s) s
/-- A command of a core: what is due has happened first; a kernel that it ends completes. -/
def runCore (n : Nat) (f : State → State) (s : State) : Host.Outcome State Fault Refusal :=
  run (fun s => kernelSweep (f (coreSync n s))) s

/-! ### The operations of a bundle (R296) -/

/-- An operation of a slot; `bad` is a word that does not decode, with the lowest bit of the field. -/
inductive BOp where
  | sc (opc : Nat) (a : ScArgs)
  | mx (m : Nat) (o : MxOp)
  | vx (opc : Nat) (a : VxArgs)
  | ff (opc off : Nat)
  | st (opc : Nat) (a : StArgs)
  | bad (slot w low : Nat)
  deriving DecidableEq, Repr
/-- The slot of an operation. -/
def BOp.slot : BOp → Nat
  | .sc .. => 0
  | .mx m _ => m + 1
  | .vx .. => 5
  | .ff .. => 6
  | .st .. => 7
  | .bad k _ _ => k
/-- The slot word of an operation. -/
def BOp.word : BOp → Nat
  | .sc opc a => scWord opc a
  | .mx _ o => mxWord o
  | .vx opc a => vxWord opc a
  | .ff opc off => opc * 2 ^ 56 + off * 2 ^ 38
  | .st opc a => stWord opc a
  | .bad _ w _ => w
/-- The operation of a slot word that is not all zeros (R300, R305, R318, R324, R327, R329). -/
def bopOf (k w : Nat) : BOp :=
  let opc := bitsOf w 63 56
  if k = 0 then .sc opc (scOf w)
  else if k ≤ 4 then match mxOf w with
    | some o => .mx (k - 1) o
    | none => .bad k w (if 6 < opc then 56 else 0)
  else if k = 5 then .vx opc (vxOf w)
  else if k = 6 then if opc = 0 ∨ 2 < opc then .bad k w 56 else if bitsOf w 37 0 ≠ 0 then .bad k w 0
    else .ff opc (bitsOf w 55 38)
  else if opc = 0 ∨ 5 < opc then .bad k w 56 else if bitsOf w 16 0 ≠ 0 then .bad k w 0
    else .st opc (stOf w)
/-- The operations of a bundle; a slot of all zeros is a NOP (R298). -/
def bundleOps (w : Nat → Nat) : List BOp :=
  ((List.range 8).filter fun k => w k != 0).map fun k => bopOf k (w k)

/-! ### Stalls (R302, R320, R328, R330, R339) -/

/-- Scalar registers that an operation reads or writes. -/
def BOp.regs : BOp → List Nat
  | .sc opc a => scRegs opc a
  | .mx _ (.pass a) => [a.xreg.toNat]
  | .mx _ (.spass a) => [a.xreg.toNat]
  | .mx _ (.drain a) => [a.xreg.toNat]
  | .vx opc a => if opc = 1 ∨ opc = 2 ∨ opc = 0x10 ∨ opc = 0x11 ∨ opc = 0x12 then [a.rs.toNat] else []
  | .st opc a => if opc = stQsetir then [a.rs.toNat] else []
  | _ => []
/-- A stall: its cause, and the core cycle that ends it where time alone does. -/
structure StallAt where
  cause : Nat
  due : Option Nat
  deriving DecidableEq, Repr
/-- The stall of a register interlock (R302). -/
def regStall (s : State) (n c i : Nat) : Option StallAt :=
  if s.regBusy n c i then
    let ds := (s.core n).slow.filterMap fun o => match o with
      | .reg due c' rd _ _ => if c' = c ∧ rd = i then some due else none
      | .csrr due c' rd _ => if c' = c ∧ rd = i then some due else none
      | _ => none
    some ⟨stReg, if (s.core n).far.any (fun f => f.ctx == c && f.rd == i) then none
      else ds.foldl (fun a d => some (max (a.getD 0) d)) none⟩
  else none
/-- Feeder operations, in flight and queued (R177): the stall ends when the last vector of the one in flight
has left, also of a sparse pass that has yet to signal. -/
def feederStall (s : State) (n m : Nat) : Option StallAt :=
  let x := s.mxe n m
  let k := x.feeder.length
  let flying := s.cyc n < x.feedFree
  if 2 ≤ k + b2n flying then
    if k ≤ 1 then some ⟨stFeeder m, some x.feedFree⟩
    else match sparseLeft s n m with
      | some t =>
        if s.cyc n ≤ t then some ⟨stFeeder m, if k = 2 then some (t + 1) else none⟩
        else if k = 2 then none else some ⟨stFeeder m, none⟩
      | none => some ⟨stFeeder m, none⟩
  else none
/-- The stall of an operation on an accumulator tile (R107). -/
def tileStall (s : State) (n m t : Nat) (chain : Option Nat) : Option StallAt :=
  if accInterlock s n m t (chain.map (s.chainWords n m)) then some ⟨stAcc, none⟩ else none
/-- The stall of a matrix operation (R85, R107, R177, R320). In a gang one fenced member holds what names any
of them, a FILL or a WLOAD too (assumption 171, DESIGN CHOICE). -/
def mxStall (s : State) (n m : Nat) (o : MxOp) : Option StallAt :=
  if o ≠ .nop ∧ (membersOf (s.gang n) m).any (s.fenced n) then some ⟨stCfg, none⟩
  else match o with
    | .wload _ => if (s.mxe n m).load.isSome then some ⟨stQueue, none⟩ else none
    | .pass a => (tileStall s n m a.tile.val (if a.close then some a.chain.val else none)).orElse fun _ =>
        feederStall s n m
    | .spass a => (tileStall s n m a.tile.val (if a.close then some a.chain.val else none)).orElse fun _ =>
        feederStall s n m
    | .drain a => tileStall s n m a.tile.val (some a.chain.val)
    | .discard t => tileStall s n m t.val none
    | _ => none
/-- The stall of an operation, registers apart. -/
def opStall (s : State) (n : Nat) : BOp → Option StallAt
  | .sc opc _ =>
    if opc = 0x17 ∧ (s.core n).far.any (fun f => match f.kind with
      | .stf .. => true
      | .tadd .. => true
      | .csrw .. => true
      | _ => false) then some ⟨stCfg, none⟩ else none
  | .mx m o => mxStall s n m o
  | .ff _ _ => if 2 ≤ (s.core n).fife.length then some ⟨stQueue, none⟩ else none
  | .st _ _ => if 8 ≤ (s.core n).stq.length then some ⟨stQueue, none⟩ else none
  | _ => none
/-- A held MXE_CFG write of the core's own scalar unit holds issue (R66). -/
def cfgStall (s : State) (n : Nat) : Bool :=
  (s.core n).cfgHeld.isSome && (s.core n).stall.any fun st => st.cause == stCfgWrite
/-- The first stall that a bundle meets. -/
def bundleStall (s : State) (n c : Nat) (ops : List BOp) : Option StallAt :=
  if cfgStall s n then some ⟨stCfgWrite, none⟩
  else ((ops.flatMap BOp.regs).findSome? (regStall s n c)).orElse fun _ => ops.findSome? (opStall s n)
/-- Operations of a bundle that meet the accumulator interlock (R107, R108). -/
def interlocks (s : State) (n : Nat) (ops : List BOp) : Nat :=
  (ops.filter fun o => match o with
    | .mx m (.pass a) => (tileStall s n m a.tile.val (if a.close then some a.chain.val else none)).isSome
    | .mx m (.spass a) => (tileStall s n m a.tile.val (if a.close then some a.chain.val else none)).isSome
    | .mx m (.drain a) => (tileStall s n m a.tile.val (some a.chain.val)).isSome
    | .mx m (.discard t) => (tileStall s n m t.val none).isSome
    | _ => false).length
/-- Hold a bundle while it stalls; a stall that time alone ends is waited out. `true` when the bundle may
issue. -/
def settleStall (n c : Nat) (ops : List BOp) : Nat → State → State × Bool
  | 0, s => (s, false)
  | k + 1, s =>
    match bundleStall s n c ops with
    | none => (s.stallOff n, true)
    | some st =>
      let s := s.doIf (st.cause == stAcc && !(s.core n).stall.any fun x => x.cause == stAcc) fun s =>
        s.bump (.scAccInterlock n) F.scAccInterlockEvents (interlocks s n ops)
      let s := s.stallOn n c st.cause
      match st.due with
      | some t => settleStall n c ops k (coreSync n (s.toCyc n t))
      | none => (s, false)

/-! ### Faults (R300, R304, R316) -/

/-- WLOADs of one bundle by MXE, with their row counts. -/
def wloads (ops : List BOp) : List (Nat × Nat) :=
  ops.filterMap fun o => match o with
    | .mx m (.wload a) => some (m, a.n.toNat)
    | _ => none
/-- The WLOADs of a gang issue in one bundle, one for every member, with the same row count (R316). -/
def wloadGangOk (s : State) (n m rows : Nat) (ops : List BOp) : Bool :=
  (membersOf (s.gang n) m).all fun i => (wloads ops).any fun w => w.1 == i && w.2 == rows
/-- Fault of a matrix operation (R316-R323). -/
def mxFault (s : State) (n c m : Nat) (ops : List BOp) : MxOp → Nat
  | .nop => 0
  | .fill a => if !a.dk && notLead s n m then atBit ecDescFormat 56 else fillDecode a
  | .wload a => if wloadGangOk s n m a.n.toNat ops then wloadFault s n m a else atBit ecDescFormat 46
  | .pass a => if s.spoison n c a.xreg.toNat then atBit ecPoisonConsumed a.xreg.toNat else passFault s n c m a
  | .spass a => if s.spoison n c a.xreg.toNat then atBit ecPoisonConsumed a.xreg.toNat else spassFault s n c m a
  | .drain a => if s.spoison n c a.xreg.toNat then atBit ecPoisonConsumed a.xreg.toNat else drainFault s n c m a
  | .discard _ => if notLead s n m then atBit ecDescFormat 56 else 0
/-- Fault of an operation at decode, 0 for none. -/
def opFault (s : State) (n c : Nat) (ops : List BOp) : BOp → Nat
  | .sc opc a => scFault opc n c a s
  | .mx m o => mxFault s n c m ops o
  | .vx opc a => if opc = 0 then 0 else vxFault opc n c a s
  | .ff opc off => if opc = 1 then fmvFault s n off else 0
  | .st opc a =>
    if opc = stQsetir ∧ s.spoison n c a.rs.toNat then atBit ecPoisonConsumed a.rs.toNat else stFault opc a
  | .bad _ _ low => atBit ecDescFormat low
/-- The first operation that fails decode, with its fault. -/
def firstBad (s : State) (n c : Nat) (ops : List BOp) : Option (BOp × Nat) :=
  ops.findSome? fun o => if opFault s n c ops o ≠ 0 then some (o, opFault s n c ops o) else none
/-- The DETAIL bytes of a decode fault (R488). -/
def decodeDetail (o : BOp) (f : Nat) : List (Nat × Nat × Nat) :=
  if f % 256 = ecPoisonConsumed then [(32, 1, o.slot), (33, 1, f / 256)]
  else if f % 256 = ecTileDir then [(32, 3, 0), (35, 1, 6)]
  else [(32, 8, o.word), (40, 1, o.slot), (41, 1, f / 256)]

/-! ### Footprints (R245, R246) -/

/-- Footprints of an operation: those that the shadow looks at as it issues, those that it looks at once a later
event tells their cycle, and those of the drain that it closes a tile for. -/
structure Feet where
  now : List Foot := []
  later : List Foot := []
  drain : List Foot := []
  deriving DecidableEq, Repr
/-- Units touched in one cycle. -/
def feetAt (us : List Nat) (w : Bool) (t : Nat) : List Foot := us.map fun u => ⟨u, w, t, t⟩
/-- Units pending from a cycle on. -/
def feetFrom (us : List Nat) (w : Bool) (t : Nat) : List Foot := us.map fun u => ⟨u, w, t, laterCyc⟩
/-- CM units that the stages of a drain read, and those that they write (R119, R120, R122). -/
def stageUnits (sts : List Stage) (mt cols : Nat) : List Nat × List Nat :=
  sts.foldl (fun p st => match st with
    | .bias b => (p.1 ++ cmUnits (b * 64) (cols * 4), p.2)
    | .resid rs f32 rec pitch b => (p.1 ++ (if rs then cmUnits (rec * 16) (mt * 16) else []) ++
        (List.range mt).flatMap fun i => cmUnits ((b + i * pitch) * 64) (cols * (if f32 then 4 else 2)), p.2)
    | .rowstat _ i _ rec =>
      let u := cmUnits (rec * 16) (mt * 16)
      (p.1 ++ (if i then [] else u), p.2 ++ u)
    | _ => p) ([], [])
/-- Footprints of the drain of a tile that a closing operation leaves (R317): stages and stored tiles. -/
def drainFeet (s : State) (n m chain dst t : Nat) (v : TileView) : List Foot :=
  let sts := stagesOf (s.chainWords n m chain)
  let et := outType sts (decide (v.mode ≤ 1))
  let p := stageUnits sts v.mt v.cols
  feetFrom p.1.dedup false t ++ feetFrom ((p.2 ++ cmUnits (dst * 64)
    ((storedTiles v.mode v.transpose v.mt v.cols).length * denseLen et * 64)).dedup) true t
/-- Units of a tile in AB or CM, by its header. -/
def tileBytesAt (s : State) (a : Nat) : Nat := (hdrOf (s.rd a 64)).len * 64
/-- The footprints of an operation issued in cycle t. -/
def opFeet (s : State) (n c : Nat) (o : BOp) : Feet :=
  let t := s.cyc n
  match o with
  | .sc 0x04 a => { now := feetAt (cmUnits (s.scAddr n c a) 1) false t }
  | .sc 0x05 a => { now := feetAt (cmUnits (s.scAddr n c a) 1) true t }
  | .vx 0x01 a => { now := feetAt (cmUnits (s.vxAddr n c a) 512) false t }
  | .vx 0x02 a => { now := feetAt (cmUnits (s.vxAddr n c a) 512) true (t + 2) }
  | .vx opc a =>
    if opc = 0x11 ∨ opc = 0x12 then
      let f := fieldAt (s.cm n (s.vxDesc n c a) 32)
      let d := feetAt (cmUnits (s.vxDesc n c a) 32) false t
      if opc = 0x11 then
        { now := d ++ feetFrom (cmUnits (f 0 4 * 64) (f 4 2 * f 6 1 * 4)) false t,
          later := feetFrom (cmUnits (f 8 4 * 64) (ceilDiv (f 4 2) 128 * denseLen (f 16 4) * 64) ++
            (if f 4 2 = 0 then [] else cmUnits (f 12 4 * 64) (f 6 1 * 8))) true t }
      else
        { now := d ++ feetFrom ((List.range (f 8 1)).flatMap fun i =>
            cmUnits ((f 0 4 + i * f 4 4) * 64) (f 10 2 * 512)) false t,
          later := feetFrom (if f 8 1 = 0 then [] else cmUnits (f 16 4 * 64) (f 10 2 * 512)) true t }
    else {}
  | .ff 1 off =>
    let d := fmvOf (s.cm n (off * 32) 32)
    let src := if d.wsrc then [] else
      let ts := (stripsFrom (s.cmUpTo n) (ceilDiv d.k 128) d.strips (d.woff * 64)).2
      cmUnits (d.woff * 64) (ts - d.woff * 64)
    let act := if d.asrc then [] else (List.range d.v).flatMap fun v =>
      cmUnits ((d.aoff + v * d.apitch) * 64) (2 * d.k)
    let ot := outType (stagesOf (s.fifeChain n d.chain)) true
    if d.k = 0 ∨ d.strips = 0 then { now := feetAt (cmUnits (off * 32) 32) false t }
    else
      let o : FifeOp := ⟨c, 0, [], {}, [], [], t, [], false, none, [], [], none⟩
      let x := s.fifeIn n o
      let bm := if d.gather then cmUnits (d.bmap * 8) (ceilDiv d.k 8) else []
      let stages := (List.range d.strips).map fun i => stageUnits ((stagesOf (s.fifeChain n d.chain)).map (stripStage i)) d.v 128
      let rd := (src ++ act ++ bm).dedup
      { now := feetAt (cmUnits (off * 32) 32) false t
        later := match s.fifeTimes n t d x (s.core n).fife with
          | some (a, k) => rd.map fun u => ⟨u, false, a + 1, a + d.strips * k⟩
          | none => feetFrom rd false t
        drain := if d.hold then [] else feetFrom (stages.flatMap Prod.fst).dedup false t ++
          feetFrom ((stages.flatMap Prod.snd) ++ cmUnits (d.dst * 64) (d.strips * denseLen ot * 64)).dedup true t }
  | .mx m (.fill a) =>
    let src := a.src.toNat * 64
    let fin := src + if a.dk then tileBytesAt s (coreBase n + src) else a.len.toNat * 64
    let rd := (s.fillReads n a).zipIdx.flatMap fun r =>
      (cmUnits r.1 (min 512 (fin - r.1))).map fun u => (⟨u, false, t + 1 + r.2, t + 1 + r.2⟩ : Foot)
    let wr := if a.dk then [wsUnit m a.set.val] else abUnits m (a.aboff.toNat * 64) (a.len.toNat * 64)
    { now := rd ++ wr.map fun u => ⟨u, true, t + 3, laterCyc⟩ }
  | .mx m (.wload a) =>
    if a.n.toNat = 0 then {}
    else { later := feetFrom (wsUnit m a.set.val :: cmUnits (a.param.toNat * 64) 2048) false t }
  | .mx m (.pass a) =>
    let x := (xregOf (s.sreg n c a.xreg.toNat)).getD ⟨false, 0, 0, 0⟩
    let et := (s.mxe n m).typeFor a.switch
    let v := s.tileView n m a.tile.val
    let w := v.closing (modeOf et) (tileCols et (s.transp n m) (s.bypassed n m)) (s.transp n m) a.m.toNat a.row0.toNat
    { later := if a.m.toNat = 0 then [] else
        feetFrom (abUnits m (a.aboff.toNat * 64) (tileBytesAt s (abBase n m + a.aboff.toNat * 64))) false t
      drain := if a.close ∧ (a.m.toNat ≠ 0 ∨ v.isOpen) then drainFeet s n m a.chain.val x.dst t w else [] }
  | .mx m (.spass a) =>
    let x := (xregOf (s.sreg n c a.xreg.toNat)).getD ⟨false, 0, 0, 0⟩
    let es := s.srcList n a
    let et := s.spassType n es (s.mxe n m).issEtype
    let v := s.tileView n m a.tile.val
    let w := v.closing (modeOf et) (tileCols et false (s.bypassed n m)) false a.m.toNat a.row0.toNat
    { now := (List.range (ceilDiv (16 * a.count.toNat) 512)).flatMap fun i =>
        feetAt (cmUnits (a.list.toNat * 64 + 512 * i) (min 512 (16 * a.count.toNat - 512 * i))) false (t + i)
      later := feetFrom ((es.flatMap fun e =>
          abUnits m (listAoff e * 64) (tileBytesAt s (abBase n m + listAoff e * 64)) ++
          (List.range (membersOf (s.gang n) m).length).flatMap fun g =>
            cmUnits (listWoff e g * 64) (tileBytesAt s (coreBase n + listWoff e g * 64))).dedup) false t
      drain := if a.close ∧ (a.m.toNat ≠ 0 ∨ v.isOpen) then drainFeet s n m a.chain.val x.dst t w else [] }
  | .mx m (.drain a) =>
    let x := (xregOf (s.sreg n c a.xreg.toNat)).getD ⟨false, 0, 0, 0⟩
    { drain := drainFeet s n m a.chain.val x.dst t (s.tileView n m a.tile.val) }
  | _ => {}
/-- The footprints of an operation are pending from its issue on (R245). -/
def State.declare (s : State) (n c : Nat) (o : BOp) : State :=
  let f := opFeet s n c o
  let t := s.cyc n
  let pc := s.pc n c
  (s.shadowAdd n (opId t o.slot) pc (f.now ++ f.later)).shadowAdd n (drainId t o.slot) pc f.drain
/-- Requester code of an operation (R246). -/
def BOp.req : BOp → Nat
  | .sc .. => 11
  | .mx m (.drain _) => m
  | .mx m (.wload _) => 4 + m
  | .mx _ _ => 8
  | .ff .. => 9
  | .vx .. => 10
  | _ => 12
/-- The core event that an operation signals, if it carries one. -/
def opEvent (s : State) (n c : Nat) : BOp → Option Nat
  | .mx _ (.pass a) => (xregOf (s.sreg n c a.xreg.toNat)).bind fun x => if x.evEn && a.close then some x.event else none
  | .mx _ (.spass a) => (xregOf (s.sreg n c a.xreg.toNat)).bind fun x => if x.evEn then some x.event else none
  | .mx _ (.drain a) => (xregOf (s.sreg n c a.xreg.toNat)).bind fun x => if x.evEn then some x.event else none
  | .ff _ off => let d := fmvOf (s.cm n (off * 32) 32); if d.en then some d.event else none
  | .vx opc a =>
    let e := fieldAt (s.cm n (s.vxDesc n c a) 32) 20 1
    if (opc = 0x11 ∨ opc = 0x12) ∧ bitAt e 7 then some (e % 64) else none
  | _ => none
/-- The first footprint of a bundle that breaks a shadow rule: the operation, unit, KIND, earlier PC. -/
def bundleShadow (s : State) (n c : Nat) (ops : List BOp) : Option (BOp × Nat × Nat × Nat) :=
  if s.vmode n then ops.findSome? fun o => (shadowCheck (s.core n) (opFeet s n c o).now).map fun r => (o, r)
  else none

/-! ### Issue -/

/-- An operation other than a scalar one issues. -/
def opIssue (n c : Nat) (o : BOp) (s : State) : State :=
  match o with
  | .mx m (.fill a) => fillIssue n c m a s
  | .mx m (.wload a) => wloadIssue n c m a s
  | .mx m (.pass a) => passIssue n c m a s
  | .mx m (.spass a) => spassIssue n c m a s
  | .mx m (.drain a) => drainIssue n c m a s
  | .mx m (.discard t) => discardIssue n m t.val s
  | .vx opc a => if opc = 0 then s else if opc = 0x11 ∨ opc = 0x12 then vbgIssue (opc == 0x11) n c a s
      else vxIssue opc n c a s
  | .ff opc off => if opc = 1 then fmvIssue n c off s else fdiscard n s
  | .st opc a => stIssue n ⟨c, s.pc n c, opc, a.q.val, a.ir.val,
      BitVec.ofNat 64 (if opc = stQsetir then s.sreg n c a.rs.toNat else 0), a.stk.val, a.off.toNat,
      a.event.val, a.en⟩ s
  | _ => s
/-- The scalar operation of a bundle. -/
def scOp (ops : List BOp) : Option (Nat × ScArgs) :=
  ops.findSome? fun o => match o with
    | .sc opc a => some (opc, a)
    | _ => none
/-- The count of a REPEAT (R310). -/
def repeatCount (s : State) (n c : Nat) (a : ScArgs) : Nat :=
  if bitAt a.fn.toNat 0 then s.sreg n c a.rs1.toNat else a.imm.toNat % 65536
/-- A bundle is behind the context: it goes on at p, no earlier than `k` cycles after this one; a STOP
that waited for the boundary acts. -/
def bundleEnd (n c p k : Nat) (s : State) : State :=
  let s := (setPcTo n c p s).modCore n fun x => { x with notBefore := s.cyc n + k }
  if (s.core n).stops.contains c then leaveCore n c (s.setCtx n c ctxIdle) else s
/-- The scalar operation acts last: every slot has read its registers as they were before the bundle
(R297). -/
def scIssue (n c opc : Nat) (a : ScArgs) (s0 s : State) : State :=
  let tgt := scTarget opc n c a s0
  let w := scWait opc n c a s0
  let s := scEffect opc n c a s
  let s := match tgt with
    | some p => bundleEnd n c p 2 s
    | none => bundleEnd n c (s0.pc n c + 1) 1 s
  let s := match w with
    | some w => beginWait n c w s
    | none => s
  if opc = 0x13 then yieldCore n c s else if opc = 0x14 then halt n c s else s
/-- Cycles for which the whole core stalls while the MXEs that a bundle names rise (R78, R92): they rise
together. -/
def bundleRamp (s : State) (n : Nat) (ops : List BOp) : Nat :=
  ops.foldl (fun k o => match o with
    | .mx m (.wload _) => max k (s.rampCycles n m)
    | .mx m (.pass _) => max k (s.rampCycles n m)
    | .mx m (.spass _) => max k (s.rampCycles n m)
    | _ => k) 0
/-- The slots of a bundle that decodes and does not stall issue (R297, R310). -/
def bundleIssue (n c : Nat) (ops : List BOp) (s : State) : State :=
  let rest := ops.filter fun o => o.slot != 0
  let pc := s.pc n c
  let others := fun (s : State) =>
    rest.foldl (fun s o => opIssue n c o s) (s.doIf (bundleRamp s n rest != 0) fun s => s.freeze n (bundleRamp s n rest))
  match scOp ops with
  | none => bundleEnd n c (pc + 1) 1 (others s)
  | some (opc, a) =>
    if opc = 0x0C then
      let k := if (s.core n).rep ≠ 0 then (s.core n).rep else repeatCount s n c a
      if rest.isEmpty ∨ k = 0 then bundleEnd n c (pc + 1) (max 1 k) s
      else
        let s := (others s).modCore n fun x => { x with rep := k - 1 }
        if k = 1 then bundleEnd n c (pc + 1) 1 s
        else s.modCore n fun x => { x with notBefore := s.cyc n + 1 }
    else scIssue n c opc a s (others s)
/-- A bundle of context c in the present cycle: it stalls, fails decode as a whole, or issues. -/
def issueOps (n c : Nat) (ops : List BOp) (s : State) : State :=
  let (s, ok) := settleStall n c ops 8 s
  if !ok then s
  else match firstBad s n c ops with
    | some (o, f) => s.faultCtx n c o.slot (f % 256) (decodeDetail o f)
    | none => match bundleShadow s n c ops with
      | some (o, u, k, pc1) =>
        let s := (opEvent s n c o).elim s fun e => s.signal n e { code := ecSlotOrder }
        (s.slotOrder n u k pc1 o.req (ctxWord (s.pc n c) c)).markFault n c o.slot ecSlotOrder
      | none =>
        bundleIssue n c ops (s.doIf (s.vmode n) fun s => ops.foldl (fun s o => s.declare n c o) s)
/-- No bundle issues while a context of the core is FAULTED (R300). -/
def coreStopped (s : State) (n : Nat) : Bool := (List.range 4).any fun c => s.ctx n c == ctxFaulted
/-- Time moves on to the next cycle in which the core may issue. -/
def toIssue (n : Nat) (s : State) : State := coreSync n (s.toCyc n (max (s.cyc n) (s.core n).notBefore))
/-- BUNDLE_ISSUE (R297): the core's context issues the bundle at its PC. -/
def issueBundle (n : Nat) (s : State) : State :=
  if coreStopped s n then s
  else match chooseCtx n s with
    | (none, s) => s
    | (some c, s) =>
      if s.ctx n c ≠ ctxRunning then s
      else
        let s := toIssue n s
        let p := s.pc n c
        if coreStopped s n ∨ s.ctx n c ≠ ctxRunning then s
        else if s.inCode n c p = false ∨ (s.core n).pcOut.contains c then
          s.faultCtx n c 0 ecDescRange [(41, 1, 0)]
        else if s.parity.bundles.contains (n, p) then
          (bundleDetect n c p s).faultCtx n c 0 ecDetectSram [(32, 1, 4)]
        else issueOps n c (bundleOps fun k => s.word (.ibuf n (p * 8 + k))) s
/-- One operation of context c issued in a bundle whose other slots are NOPs, while no other context has
the core. -/
def issueSlot (n c : Nat) (o : Option BOp) (s : State) : State :=
  let x := s.core n
  if coreStopped s n ∨ x.running.any (· != c) ∨ s.ctx n c = ctxWaiting ∨ x.rep ≠ 0 then s
  else issueOps n c o.toList (toIssue n s)

/-! ### Far operations complete (R256, R307, R308, R312) -/

/-- An access of a core by device address that breaks a shadow rule of its target is suppressed. -/
def farShadow (a : Nat) (write : Bool) (s : State) : State × Bool := bgReach 14 a 8 write s
/-- An arrival has its answer: the wait goes on for the generation it joined; with COUNT 0 it returns
at once (R258). -/
def joinWait (c b g : Nat) (count0 : Bool) (x : Core) : Core :=
  match tabFind x.waits c with
  | some w => if w.kind = .joining b then
      { x with waits := tabSet x.waits c { w with kind := if count0 then .joined g else .barrier b g false } }
    else x
  | none => x
/-- A far operation acts at its target and its result comes back. -/
def farDone (n : Nat) (f : FarOp) (s : State) : State :=
  match f.kind with
  | .ldf a =>
    let (s, bad) := farShadow a false s
    if bad then s.setSreg n f.ctx f.rd 0 true
    else
      let (u, s) := s.fetch a
      s.setSreg n f.ctx f.rd (leNat ((u.bs.drop (a % 64)).take 8)) u.poison
  | .stf a v p =>
    let (s, bad) := farShadow a true s
    if bad then s else rmwPieces true a (natLe 8 v.toNat) [p] s
  | .csrr a =>
    let (v, s) := csrRead (.core (Fin.ofNat 32 n)) a s
    s.setSreg n f.ctx f.rd v false
  | .csrw a v => csrWrite (.core (Fin.ofNat 32 n)) a v.toNat s
  | .turn t k =>
    let (s, r) := tsComplete n (.turn t k) s
    s.setSreg n f.ctx f.rd (r.getD 0).toNat false
  | .tadd t k => (tsComplete n (.add t (k % 2 ^ 32)) s).1
  | .arrive b =>
    let (s, r) := tsComplete n (.arrive b) s
    s.setSreg n f.ctx f.rd (r.getD 0).toNat false
  | .arriveWait b =>
    let c0 := s.fld (.barState b) F.barStateCount = 0
    let (s, r) := tsComplete n (.arrive b) s
    s.modCore n (joinWait f.ctx b (r.getD 0).toNat c0)
/-- True for an atomic operation, whose round trip takes 5 FABRIC_CLK cycles (R256). -/
def FarKind.atomic : FarKind → Bool
  | .turn .. | .tadd .. | .arrive _ | .arriveWait _ => true
  | _ => false
/-- A CSRW to HIF_Q_POST waits while its CQ is full (R457). -/
def farWaits (s : State) : FarKind → Bool
  | .csrw a _ => match regAt a with
    | .hifQPost q => s.qState q == 1 && (s.cqFull q || s.d3Full)
    | _ => false
  | _ => false
/-- FAR_OP_COMPLETE (R307): the oldest far operation of the core completes. -/
def farOpComplete (n : Nat) (s : State) : State :=
  match (s.core n).far with
  | [] => s
  | f :: rest =>
    if farWaits s f.kind then s else
    farDone n f (s.modCore n fun x => { x with far := rest })

end Sys2Proof.Machine
end

