-- ==== Sys2Proof/Machine/Recovery.lean ====
section
/-! DEFINITION. Online tests and spares (spec/15, R492-R497). -/

namespace Sys2Proof.Machine

/-- Windows whose local range lies in a core's CM. -/
def State.winsIn (s : State) (n : Nat) : List Nat :=
  (List.range 1024).filter fun w => within (coreBase n) cmSize (s.winBase w) && s.winState w == winOpen
/-- Those windows with their fields. -/
def State.winFields (s : State) (n : Nat) : List (Nat × Nat) := (s.winsIn n).map fun w => (w, s.word (.winCtl w))
/-- Windows are closed (R264). -/
def closeWindows (ws : List (Nat × Nat)) (s : State) : State := ws.foldl (fun s w => winForceOp w.1 s) s
/-- They open again with the same fields (R264, R492, R496). -/
def reopenWindows (ws : List (Nat × Nat)) (s : State) : State :=
  ws.foldl (fun s w => pump (winCtlWrite (.cc 1) w.1 (w.2 ||| 2) s)) s
/-- The windows into a core's CM close and open again (R496). -/
def cycleWindows (n : Nat) (s : State) : State :=
  let ws := s.winFields n
  reopenWindows ws (closeWindows ws s)
/-- The units that a core's ready tasks hold return to the retry lists; the core gets no more (R492). -/
def dropTasks (n : Nat) (s : State) : State :=
  let ts := tabGet [] s.hif.tasks n
  let jobs := ts.foldl (fun js t => match tabFind js t.job with
    | some j => tabSet js t.job { j with retry := j.retry ++ [t.unit] }
    | none => js) s.hif.jobs
  { s with hif := { s.hif with jobs := jobs, tasks := tabDel s.hif.tasks n } }
/-- BIST destroys CM, engine buffers and registers of the core (R492); a substitution copies CM alone
(R496), so `cm` is false. -/
def coreWiped (cm : Bool) (n : Nat) (s : State) : State :=
  let s := s.dropMem fun x => within (coreBase n) 0x1000000 x && (cm || !within (coreBase n) cmSize x)
  let s := s.dropRegs fun x => lostCoreReg x && within (0x020210000000 + n * 0x100000) 0x100000 x
  s.modCore n fun c => { c with
    mxes := [], vregs := [], vpoison := [], vpend := [], vbg := [], slow := [], fills := [], fife := [],
    fifeHold := none, fifeQ := [], fifeQP := [], shadow := [] }
/-- What a test finds is recorded (R493): columns are bypassed under R86, anything else, or a fifth
column in one array, takes the site out of use. The core is then substituted under R496; with a fifth column
and no spare site left, it stays in service with that MXE fenced (R90, R497). -/
def testResult (n : Nat) (res : TestResult) (s : State) : State :=
  let site := s.fld (.coreMap n) F.coreMapSite
  match res with
  | .pass => s.setFld (.coreMap n) F.coreMapState 0
  | .columns m cols =>
    let s := s.bump .tstStat F.tstStatFailed 1
    let s := s.raise { src := srcOf 1 n (m.val + 1), code := ecAbftMismatch, fw := true, detail := [(32, 1, m.val)] }
    let all := (bypassedOf (s.word (.mxeBypass n m.val)) ++ cols.map Fin.val).dedup
    let s := addBypass n m.val (cols.map Fin.val) s
    if all.length ≤ 4 then s.setFld (.coreMap n) F.coreMapState 0
    else if s.spareSites = [] then
      ((failSite site s).setFld (.tstFence n) F.tstFenceMxe (s.fld (.tstFence n) F.tstFenceMxe ||| 2 ^ m.val)).setFld
        (.coreMap n) F.coreMapState 0
    else failSite site s
  | .sram code =>
    let s := s.bump .tstStat F.tstStatFailed 1
    failSite site (s.raise { src := srcOf 1 n (if code = 0 then 8 else 0), code := ecDetectSram, fw := true,
                             detail := [(32, 1, code.val + 1)] })
  | .fail => failSite site (s.bump .tstStat F.tstStatFailed 1)
/-- Progress channel 4 (R461): cores tested in the sweep. -/
def sweepProgress (s : State) : State :=
  if s.fld (.hifProgStat 4) F.hifProgStatState = 1 then
    let pos := s.word (.hifProgPos 4) + 1
    if s.chip.tests = [] then progDone 4 pos s else progAt 4 (pos * 10000 / 32) pos s
  else s
/-- VCORES of a core, and every bit of its TST_FENCE (R492). -/
def testMarks (n v : Nat) (s : State) : State :=
  (s.setFld .chipMode F.chipModeVcores (withBits (s.fld .chipMode F.chipModeVcores) n n v)).setFld (.tstFence n)
    F.tstFenceMxe (15 * v)
/-- The test begins (R492, steps 3 to 6) once no kernel's program runs on the core; it takes 40 ms at P0, longer in a
slower P-state, and destroys CM, engine buffers and registers. -/
def testBegin (n : Nat) (s : State) : State :=
  if s.kernelOn n then s
  else
    let s := coreSync n s
    let s := (List.range 16).foldl (fun s q => if s.strLive n q then strStop n q s else s) s
    let ws := s.winFields n
    let s := coreWiped true n (testMarks n 1 (closeWindows ws s))
    { s.setFld .tstStat F.tstStatState 2 with chip := { s.chip with
        testing := some ⟨n, some (s.now + 40 * msTicks * s.div n / 4), ws⟩ } }
/-- The test ends (R492, step 7; R493). -/
def testFinish (n stop : Nat) (ws : List (Nat × Nat)) (res : TestResult) (s : State) : State :=
  let s := reopenWindows ws (testMarks n 0 (s.advance stop))
  let s := { s.setFld .tstStat F.tstStatState 0 with chip := { s.chip with testing := none } }
  let s := (s.bump .tstStat F.tstStatTested 1).setFld .tstStat F.tstStatLastCore n
  sweepProgress (testResult n res s)
/-- ONLINE_TEST (R492, R493), once to mark the core and begin as soon as it is drained, and again to end; one test
runs at a time (R507). `res` is what the test finds. -/
def onlineTest (n : Nat) (res : TestResult) (s : State) : State :=
  match s.chip.testing with
  | some t =>
    if t.core ≠ n then s
    else match t.stop with
      | none => testBegin n s
      | some stop => testFinish n stop t.wins res s
  | none =>
    if s.fld (.coreMap n) F.coreMapState ≠ 0 || !s.ready then s
    else
      let s := dropTasks n ((s.setFld (.coreMap n) F.coreMapState 1).setFld .tstStat F.tstStatState 1)
      testBegin n { s with chip := { s.chip with tests := s.chip.tests.erase n, testing := some ⟨n, none, []⟩ } }
/-- TEST_SWEEP (R493): every core in service is queued. -/
def testSweep (s : State) : State :=
  if s.fld .tstSweep F.tstSweepPeriod = 0 then s
  else
    let new := s.liveCores.filter fun n => !s.chip.tests.contains n
    let s := { s with chip := { s.chip with tests := s.chip.tests ++ new } }
    if s.chip.tests = [] then s else progStart 4 s
/-- GH_UNIT_TEST (R494): one unit is out of service for 200 µs; a unit that fails makes a raw stack. -/
def ghUnitTest (k : Nat) (ok : Bool) (s : State) : State :=
  if s.bit (.ghStatus k) F.ghStatusRaw then s
  else
    let s := s.advance (s.now + 200 * usTicks)
    if ok then s else rawStack k 1 s
/-- A core in service whose only defect is an array with too many faulty columns: the MXE is fenced (R90). -/
def State.fencedOnly (s : State) (n : Nat) : Bool :=
  s.fld (.coreMap n) F.coreMapState == 0 && s.fld (.tstFence n) F.tstFenceMxe != 0
/-- SPARE_SUBSTITUTION (R496, R497, R363): the core moves to a usable spare site, or leaves service when
none is left, unless a fenced MXE is all that ails it (R90, R497); not while a kernel names it. While Colonnade
transfers are in flight it waits, and no other one starts (R283). -/
def spareSubst (n site : Nat) (s : State) : State :=
  if s.coreOut n || s.kernelOn n || s.chip.testing.any (fun t => t.core == n) then s
  else if ringBusy s then
    { s with chip := { s.chip with ringHold := if s.chip.ringHold.contains n then s.chip.ringHold else n :: s.chip.ringHold } }
  else
  let s := { s with chip := { s.chip with ringHold := s.chip.ringHold.erase n } }
  if s.spareSites = [] then
    if s.fencedOnly n then s else substitute n none (dropTasks n s)
  else if s.spareSites.contains site then
    let s := coreWiped false n (cycleWindows n (dropTasks n s))
    (substitute n (some site) s).setFld (.coreMap n) F.coreMapState 0
  else s

/-! ### The commands -/

/-- ONLINE_TEST (R493). -/
def execOnlineTest (n : CoreId) (res : TestResult) (s : State) : Host.Outcome State Fault Refusal :=
  run (onlineTest n res) s
/-- TEST_SWEEP (R493). -/
def execTestSweep (s : State) : Host.Outcome State Fault Refusal := run testSweep s
/-- GH_UNIT_TEST (R494). -/
def execGhUnitTest (k : StackId) (ok : Bool) (s : State) : Host.Outcome State Fault Refusal :=
  run (ghUnitTest k ok) s
/-- SPARE_SUBSTITUTION (R496). -/
def execSpareSubstitution (n : CoreId) (site : Fin 36) (s : State) : Host.Outcome State Fault Refusal :=
  run (spareSubst n site) s

end Sys2Proof.Machine
end

