-- ==== Sys2Proof/Machine/Tensor.lean ====
section
/-! DEFINITION. Tensors of WCS commands (spec/11, R343, R347): descriptors and their checks, the tiles
that they name, reading and writing those tiles, and the order of commands that touch the same ones. -/

namespace Sys2Proof.Machine

/-! ### How a command fails -/

/-- A failure of a command: its code and DETAIL, and the record that is still to be raised. -/
structure Fail where
  code : Nat
  detail : Nat
  err : Option Err
  deriving DecidableEq, Repr
/-- Work of a command that may fail. -/
abbrev Act := ExceptT Fail (StateM State)
/-- A state operation as a piece of work. -/
def act {α : Type} (f : State → α × State) : Act α := ExceptT.mk fun s => let (a, s) := f s; (.ok a, s)
/-- The present state. -/
def actState : Act State := act fun s => (s, s)
/-- Fail when a condition holds. -/
def failWhen (c : Bool) (f : Fail) : Act Unit := if c then throw f else pure ()
/-- A failure with an error record of a queue. -/
def recFail (e : Err) : Fail := ⟨e.code, e.word, some e⟩
/-- A decode failure of a queue's command: the failing word, its index, the lowest bit of the field. -/
def decFail (q code word idx low : Nat) : Fail := recFail (wordErr (qSrc q) code word idx low)
/-- A failed resolution (R153), recorded already. -/
def dirFailed (h cause : Nat) : Fail := ⟨ecTileDir, h + cause * 2 ^ 24, none⟩
/-- A command fails: the record is raised, and the command completes with status 3. -/
def failWith (q id : Nat) (f : Fail) (s : State) : State :=
  endCmd q id ⟨3, f.code, f.detail⟩ (match f.err with
    | some e => s.raise e
    | none => s)

/-! ### Descriptors (R343, R346) -/

/-- A tensor descriptor (R343). -/
structure Desc where
  h : Nat
  etype : Nat
  ofmt : Nat
  z : Nat
  slot : Nat
  slotEn : Bool
  recomp : Bool
  raw : Bool
  rows : Nat
  cols : Nat
  batch : Nat
  tp : Nat
  bp : Nat
  da : Nat
  deriving DecidableEq, Repr

/-- A descriptor from its 64 bytes (R343). -/
def descOf (bs : List Byte) : Desc :=
  let f := fieldAt bs
  let rows := f 8 4
  let cols := f 12 4
  let tp := if f 20 4 = 0 then ceilDiv cols 128 else f 20 4
  { h := f 0 3, etype := f 4 1 % 16, ofmt := f 4 1 / 16, z := f 5 1, slot := f 6 2 % 4096,
    slotEn := bitAt (f 6 2) 12, recomp := bitAt (f 6 2) 13, raw := bitAt (f 6 2) 14, rows := rows,
    cols := cols, batch := f 16 4, tp := tp, bp := if f 24 4 = 0 then ceilDiv rows 128 * tp else f 24 4,
    da := f 32 8 }
/-- Tile rows and tile columns of a grid. -/
def Desc.tr (d : Desc) : Nat := ceilDiv d.rows 128
def Desc.tc (d : Desc) : Nat := ceilDiv d.cols 128
/-- Place of tile (r, c) of item b in the grid's row-major order (R343). -/
def Desc.ord (d : Desc) (b r c : Nat) : Nat := b * d.bp + r * d.tp + c
/-- Handle of a tile (R343). -/
def Desc.hd (d : Desc) (b r c : Nat) : Nat := d.h + d.ord b r c
/-- Device address of a RAW tile (R343). -/
def Desc.tda (d : Desc) (b r c : Nat) : Nat := d.da + d.ord b r c * denseLen d.etype * 64
/-- A dimension of 0: the command does nothing (R343). -/
def Desc.none (d : Desc) : Bool := d.rows == 0 || d.cols == 0 || d.batch == 0
/-- Places that the grid spans. -/
def Desc.span (d : Desc) : Nat := if d.none then 0 else d.ord (d.batch - 1) (d.tr - 1) (d.tc - 1) + 1
/-- The zero code of elements: an integer tensor's (R343). -/
def Desc.zc (d : Desc) : Nat := if d.etype ≤ 1 ∨ d.etype = etInt32 then d.z else 0
/-- A narrow descriptor for a piece of a pointer list (R355): another base and shape. -/
def Desc.at (d : Desc) (h rows cols : Nat) : Desc :=
  { d with h := h, rows := rows, cols := cols, batch := 1, tp := ceilDiv cols 128,
           bp := ceilDiv rows 128 * ceilDiv cols 128 }

/-- The checks of R343 and R346 on a descriptor's bytes: code, word and lowest bit of the field. -/
def descFault (s : State) (bs : List Byte) : Option (Nat × Nat × Nat) :=
  let d := descOf bs
  let w := fun i => fieldAt bs (8 * i) 8
  let cs : List (Bool × Nat × Nat × Nat) :=
    [(bitsOf (w 0) 31 24 != 0, ecDescFormat, 0, 24), (decide (6 < d.etype), ecDescFormat, 0, 32),
     (decide (5 < d.ofmt), ecDescFormat, 0, 36), (bitAt (w 0) 63, ecDescFormat, 0, 63),
     (bitsOf (w 3) 63 32 != 0, ecDescFormat, 3, 32), (w 5 != 0, ecDescFormat, 5, 0),
     (w 6 != 0, ecDescFormat, 6, 0), (w 7 != 0, ecDescFormat, 7, 0),
     (if d.raw then decide (d.da = 0 ∨ d.da % 64 ≠ 0 ∨ 2 ^ 48 ≤ d.da) else d.da != 0, ecDescFormat, 4, 0),
     (decide (2 ^ 24 < d.rows), ecDescRange, 1, 0), (decide (2 ^ 24 < d.cols), ecDescRange, 1, 32),
     (decide (65536 < d.batch), ecDescRange, 2, 0),
     (!d.raw && decide (2 ^ 24 < d.h + d.span), ecDescRange, 0, 0),
     (d.raw && !d.none && s.reach d.da (d.span * denseLen d.etype * 64) == 2, ecDescRange, 4, 0)]
  (cs.find? fun c => c.1).map fun c => c.2

/-- Bytes that a command takes from memory are read with their check codes first (R224). -/
def touchAct (da n : Nat) : Act Unit := act fun s => ((), s.touch da n)
/-- A device address that a command reads or writes itself lies in the stacks or the Orangery. -/
def daOk (s : State) (da len : Nat) : Bool := s.reach da len == 0 && decide (da < 0x020010000000)
/-- How a command fails that reaches past what it may: into a directory region with TILE_DIR (R147), else as given. -/
def reachFail (s : State) (da len : Nat) (f : Fail) : Fail :=
  match f.err with
  | some e => if s.reach da len = 1 then recFail { e with code := ecTileDir, detail := [(32, 3, 0), (35, 1, 6)] } else f
  | none => f
/-- The descriptor that word `idx` of a command names (R343), read and checked. -/
def getDesc (q idx da : Nat) : Act (List Byte) := do
  let s ← actState
  failWhen (da % 64 != 0 || decide (2 ^ 48 ≤ da)) (decFail q ecDescFormat da idx 0)
  failWhen (!daOk s da 64) (reachFail s da 64 (decFail q ecDescRange da idx 0))
  touchAct da 64
  let s ← actState
  let bs := s.rdRange da 64
  match descFault s bs with
  | some f => throw (decFail q f.1 (fieldAt bs (8 * f.2.1) 8) f.2.1 f.2.2)
  | none =>
    let d := descOf bs
    let len := d.span * denseLen d.etype * 64
    failWhen (d.raw && !d.none && s.reach d.da len == 1) (reachFail s d.da len (decFail q ecDescRange d.da 4 0))
    pure bs

/-! ### Reading tiles -/

/-- A tile that a command has read: its header, bytes, and the poison of its units. -/
structure TileIn where
  hd : TileHdr
  bs : List Byte
  ps : List Bool
  deriving DecidableEq, Repr

/-- Units read as a tile of a tensor, checked under R138; a tile of another type than the tensor's is
refused, but for handle 0, which reads as zero in the declared type (R148). -/
def tileIn (q : Nat) (d : Desc) (zero : Bool) (avail : Nat) (us : List UnitP) : Act TileIn := do
  let bs := bytesOf us
  let hd := hdrOf bs
  let f := tileFault bs (min avail bs.length)
  failWhen (f != 0) (decFail q f (fieldAt bs 32 8) 4 0)
  failWhen (!zero && (hd.etype != d.etype || (d.raw && hd.format != fmtDense)))
    (decFail q ecDescFormat (fieldAt bs 32 8) 4 0)
  pure ⟨if zero then { hd with etype := d.etype, zcode := d.zc } else hd, bs, us.map UnitP.poison⟩
/-- Tile (r, c) of item b of a tensor, read (R343, R156). -/
def readTileOf (q : Nat) (d : Desc) (b r c : Nat) : Act TileIn := do
  if d.raw then
    let us ← act fun s => s.fetchN (d.tda b r c) (denseLen d.etype)
    tileIn q d false (regionEnd (d.tda b r c) - d.tda b r c) us
  else
    let h := d.hd b r c
    let (e, cause) ← act fun s => let (e, c, s) := resolve h false s; ((e, c), s)
    failWhen (cause != 0) (dirFailed h cause)
    let us ← act (tileUnits e)
    tileIn q d (h == 0) (regionEnd e.da - e.da) us

/-- Some rows of tile (r, c) of item b, read as a ROW_GATHER reads them (R212): header, index and the units of those
rows alone. -/
def readTileRows (q : Nat) (d : Desc) (b r c : Nat) (rows : List Nat) : Act TileIn := do
  let h := d.hd b r c
  let (e, cause) ← act fun s => let (e, c, s) := resolve h false s; ((e, c), s)
  failWhen (cause != 0) (dirFailed h cause)
  let s ← actState
  let bs := s.rdRange e.da (e.len * 64)
  let hd := hdrOf bs
  let needs := if tileFault bs bs.length ≠ 0 then [0] else ((rows.flatMap fun i => tileNeeds bs hd i 1 0 128).dedup).mergeSort
  let us ← act (tilePick e needs)
  let bad := (needs.zip us).filterMap fun u => if u.2.poison then some u.1 else none
  tileIn q d (h == 0) (regionEnd e.da - e.da) ((chunks 64 e.len bs).zipIdx.map fun u => ⟨u.1, bad.contains u.2⟩)

/-- Element (i, j) of a tile. -/
def TileIn.elem (t : TileIn) (i j : Nat) : Nat := tileElem t.bs t.hd i j
/-- Row i of a tile is poisoned (R127): its own units in DENSE and RSB, any unit in the other formats. -/
def TileIn.rowPoison (t : TileIn) (i : Nat) : Bool :=
  if t.hd.format = fmtDense ∨ t.hd.format = fmtRsb then
    let k := if t.hd.format = fmtDense then i else popBelow t.hd.rowNz i
    let n := denseRowBytes t.hd.etype 128 / 64
    t.ps.getD 0 false || (!(t.hd.format == fmtRsb && !bitAt t.hd.rowNz i) &&
      ((t.ps.drop (1 + k * n)).take n).contains true)
  else t.ps.contains true

/-- A rectangle of a tensor's tiles, from tile (r0, c0) of an item. -/
structure Grid where
  d : Desc
  r0 : Nat
  c0 : Nat
  ts : List (List TileIn)
  deriving DecidableEq, Repr

/-- Tile rows r0 to r0 + nr − 1 and tile columns c0 to c0 + nc − 1 of an item, read. -/
def readGrid (q : Nat) (d : Desc) (b r0 nr c0 nc : Nat) : Act Grid := do
  let ts ← (List.range nr).mapM fun r => (List.range nc).mapM fun c => readTileOf q d b (r0 + r) (c0 + c)
  pure ⟨d, r0, c0, ts⟩
/-- The tiles that cover rows i0 to i0 + n − 1 and columns j0 to j0 + m − 1, read. -/
def readPart (q : Nat) (d : Desc) (b i0 n j0 m : Nat) : Act Grid :=
  readGrid q d b (i0 / 128) (ceilDiv (i0 % 128 + n) 128) (j0 / 128) (ceilDiv (j0 % 128 + m) 128)
/-- A tile of a rectangle. -/
def Grid.tile (g : Grid) (r c : Nat) : Option TileIn := (g.ts[r - g.r0]?).bind fun l => l[c - g.c0]?
/-- Element (i, j) of the tensor's item. -/
def Grid.elem (g : Grid) (i j : Nat) : Nat :=
  match g.tile (i / 128) (j / 128) with
  | some t => t.elem (i % 128) (j % 128)
  | none => emptyElem g.d.etype g.d.zc
/-- Its value. -/
def Grid.fp (g : Grid) (i j : Nat) : Fp := elemFp g.d.etype (g.elem i j)
/-- Row i is poisoned in some tile of the rectangle. -/
def Grid.rowPoison (g : Grid) (i : Nat) : Bool :=
  (g.ts.getD (i / 128 - g.r0) []).any fun t => t.rowPoison (i % 128)
/-- Some unit of the rectangle is poisoned. -/
def Grid.poison (g : Grid) : Bool := g.ts.any fun l => l.any fun t => t.ps.contains true

/-! ### Writing tiles (R152, R157, R343) -/

/-- What a write of a handle meets (R153, R343): a cause, 0x01 standing for an entry that the write
allocates. -/
def outCause (h : Nat) (s : State) : Nat × State :=
  if !s.bit (.ghDirCtl (h % 8)) F.ghDirCtlEn then (0x07, s)
  else if h = 0 then (0x06, s)
  else
    let (e, c, s) := dirLookup h s
    let c := if c ≠ 0 then c else entFault e
    (if c = 0 ∧ s.inDir e.da (e.len * 64) then 0x06 else c, s)
/-- A unit resolves a tile that it only writes, and ACCESS counts it (R152). -/
def checkOut (d : Desc) (b r c : Nat) : Act Unit := do
  if d.raw then pure ()
  else
    let h := d.hd b r c
    let cause ← act (outCause h)
    if cause = 0 then act fun s => ((), dirCount h (s.dirEnt h) s)
    else if cause = 1 then pure ()
    else
      let _ ← act fun s => ((), dirFail h cause s)
      throw (dirFailed h cause)
/-- A tile's new content through its handle (R157, R160): in place for a pinned entry, else in new space;
the entry switches, an unused entry is allocated. The cause of a failure, or 0. -/
def tilePut (h : Nat) (us : List UnitP) (slot : Nat) (constch : Bool) (s : State) : Nat × State :=
  let e := s.dirEnt h
  let hd := hdrOf (bytesOf (us.take 1))
  let sw := fun da => (⟨h, da, us.length, hd.format, hd.etype, hd.nnz, slot, constch⟩ : TileSwitch)
  if e.valid && e.pinned then
    if denseLen e.etype < us.length then (0x0A, dirFail h 0x0A s)
    else (0, tileSwitch (sw e.da) (s.putUnits e.da us))
  else
    match heapAlloc (h % 8) h us.length s with
    | (none, s) => (0x08, dirFail h 0x08 s)
    | (some da, s) =>
      let s := s.putUnits da us
      (0, if e.valid then tileSwitch (sw da) s else s.dirWrite h (switchedEnt e (sw da)))
/-- Tile (r, c) of item b takes new content; a command that writes poison says so (R482). The results of a
unit whose re-runs all met a parity detection are poisoned (R478). -/
def writeTileOf (q id : Nat) (d : Desc) (b r c : Nat) (us : List UnitP) (constch : Bool) : Act Unit := do
  let s ← actState
  let us := if (s.cmd? q id).any WcsCmd.taint then us.map fun u => { u with poison := true } else us
  let _ ← act fun s => ((), s.doIf (us.any UnitP.poison) fun s => s.modCmd q id fun c => { c with poison := true })
  if d.raw then act fun s => ((), s.putUnits (d.tda b r c) us)
  else
    let h := d.hd b r c
    let cause ← act (tilePut h us d.slot constch)
    failWhen (cause != 0) (dirFailed h cause)
/-- The units of a tile that a drain or the VXE stores: rows of patterns, each with its poison (R117,
R127, R140). A RAW tile is a full DENSE tile. -/
def rowsToUnits (d : Desc) (nc : Nat) (rows : List (List Nat × Bool)) : List UnitP :=
  let nr := rows.length
  let fmt := if d.raw then fmtDense else d.ofmt
  (drainTile d.etype fmt d.zc 0 rows nr nc).flatMap fun w => (unitsOf w.bs w.poison).map fun u => ⟨u.1, u.2⟩
/-- Rows of an output, cut into tiles: the tile rows from r0 and tile columns from c0 on. -/
def outTiles (d : Desc) (r0 c0 cols : Nat) (rows : List (List Nat × Bool)) : List (Nat × Nat × List UnitP) :=
  (chunks 128 (ceilDiv rows.length 128) rows).zipIdx.flatMap fun q =>
    (List.range (ceilDiv cols 128)).map fun c =>
      let nc := min 128 (cols - 128 * c)
      (r0 + q.2, c0 + c, rowsToUnits d nc (q.1.map fun r => ((r.1.drop (128 * c)).take nc, r.2)))
/-- Whether a tile is meant: every tile, or the one of a handle that is recomputed (R359). -/
def wanted (only : Option Nat) (d : Desc) (b r c : Nat) : Bool :=
  match only with
  | none => true
  | some h => !d.raw && d.hd b r c == h
/-- Rows of item b are written to the tiles from (r0, c0) on. -/
def writeRows (q id : Nat) (only : Option Nat) (d : Desc) (b r0 c0 cols : Nat) (constch : Bool)
    (rows : List (List Nat × Bool)) : Act Unit := do
  let ts := (outTiles d r0 c0 cols rows).filter fun t => wanted only d b t.1 t.2.1
  let _ ← ts.mapM fun t => checkOut d b t.1 t.2.1
  let _ ← ts.mapM fun t => writeTileOf q id d b t.1 t.2.1 t.2.2 constch
  pure ()
/-- The scale slot of a descriptor has CONST set (R152). -/
def Desc.const (d : Desc) (s : State) : Bool := d.slotEn && s.bit (.ssParam d.slot) F.ssParamConst

/-! ### Commands that touch the same tiles (R347) -/

/-- The range of handles, or of device addresses above 2^64, that a descriptor covers. -/
def Desc.range (d : Desc) : Nat × Nat :=
  if d.raw then (2 ^ 64 + d.da, 2 ^ 64 + d.da + d.span * denseLen d.etype * 64) else (d.h, d.h + d.span)
/-- What the descriptor at a device address covers. -/
def State.covers (s : State) (da : Nat) : List (Nat × Nat) :=
  if da = 0 then [] else [(descOf (s.rdRange da 64)).range]
/-- What the operands of an EPI list cover (R356). -/
def State.epiCovers (s : State) (da n : Nat) : List (Nat × Nat) :=
  (List.range n).flatMap fun i =>
    let w := s.rdN (da + 16 * i) 8
    let k := w / 2 ^ 60
    if k = 3 ∨ k = 5 ∨ k = 6 then s.covers (s.rdN (da + 16 * i + 8) 8) else []
/-- What the entries of a pointer list cover in A, B or C (R355). -/
def State.listCovers (s : State) (da n k : Nat) : List (Nat × Nat) :=
  (List.range n).map fun i =>
    let f := fun o => s.rdN (da + 32 * i + o) 4
    let t := fun o => ceilDiv (f o) 128
    let c := if k = 0 then t 12 * t 20 else if k = 1 then t 20 * t 16 else t 12 * t 16
    (f (4 * k) % 2 ^ 24, f (4 * k) % 2 ^ 24 + c)
/-- What a command reads and what it writes (R347). -/
def State.touches (s : State) (c : WcsCmd) : List (Nat × Nat) × List (Nat × Nat) :=
  let d := fun i => s.covers (c.w i)
  match c.op with
  | 0x01 | 0x02 =>
    let n := bitsOf (c.w 6) 16 0
    let l := s.listCovers (c.w 5) n
    let e := s.epiCovers (bitsOf (c.w 4) 47 0) (bitsOf (c.w 4) 50 48)
    if n = 0 then (d 1 ++ d 2 ++ e, d 3) else (l 0 ++ l 1 ++ e, l 2)
  | 0x03 => (d 1 ++ d 2 ++ d 3, d 4)
  | 0x04 => (d 1, d 3)
  | 0x05 => (d 1, d 4)
  | 0x06 => (d 1 ++ d 2 ++ s.epiCovers (bitsOf (c.w 4) 47 0) (bitsOf (c.w 4) 51 48), d 3)
  | 0x07 | 0x08 | 0x11 => (d 1, d 2)
  | _ => ([], [])
/-- Two lists of ranges meet. -/
def meet (a b : List (Nat × Nat)) : Bool := a.any fun x => b.any fun y => decide (x.1 < y.2 ∧ y.1 < x.2)
/-- LAUNCH_KERNEL, COLLECTIVE and PIN conflict with every command (R347). -/
def WcsCmd.lone (c : WcsCmd) : Bool := c.op == 0x10 || c.op == 0x12 || c.op == 0x13
/-- An earlier command of the queue holds a later one back: a step it closes (R350), a FENCE or EVENT_WAIT
that has not completed (R349), a conflict (R347). -/
def State.holdsBack (s : State) (e c : WcsCmd) : Bool :=
  e.stepEnd || (!e.done && (e.op == 0x18 || e.op == 0x1A || e.lone || c.lone ||
    (let x := s.touches e
     let y := s.touches c
     meet x.2 (y.1 ++ y.2) || meet x.1 y.2)))
/-- The command of a queue that starts next, when nothing holds it back (R347, R445, R454). -/
def State.nextCmd (s : State) (q : Nat) : Option WcsCmd :=
  if !(s.qState q == 1 || s.qState q == 3) || s.d3Full || !s.ready then none
  else
    let cs := (s.qp q).cmds
    match cs.find? fun c => !c.started && !c.done with
    | none => none
    | some c =>
      let before := cs.takeWhile fun e => e.id != c.id
      if before.any fun e => s.holdsBack e c then none else some c
/-- Every earlier command of the queue has completed (R349). -/
def State.allBefore (s : State) (q id : Nat) : Bool :=
  ((s.qp q).cmds.takeWhile fun e => e.id != id).all WcsCmd.done

end Sys2Proof.Machine
end

