-- ==== Sys2Proof/Machine/Wcs.lean ====
section
/-! DEFINITION. WCS commands that order others (spec/11, R344, R347-R349) and PIN (R358). -/

namespace Sys2Proof.Machine

/-- A field of a command's words: word, high bit, low bit. -/
abbrev WField := Nat × Nat × Nat
/-- The reserved fields of words 0 and 7 (R341). -/
def commonFields (c : WcsCmd) : List WField × List WField :=
  ([(0, 51, 48), (0, 30, 28), (0, 15, 0)],
   [(7, 63, 48), (7, 5, 0)] ++ if c.trace then [] else [(7, 47, 6)])
/-- The reserved fields of words 1-6 when the words from k on are empty. -/
def emptyFrom (k : Nat) : List WField := (List.range (7 - k)).map fun i => (k + i, 63, 0)
/-- Decode of a command (R341, R344): its reserved fields hold 0, and TRACE_DA names memory. -/
def checkFields (q : Nat) (c : WcsCmd) (fs : List WField) : Act Unit := do
  let (a, b) := commonFields c
  match (a ++ fs ++ b).find? fun f => bitsOf (c.w f.1) f.2.1 f.2.2 ≠ 0 with
  | some f => throw (decFail q ecDescFormat (c.w f.1) f.1 f.2.2)
  | none => pure ()
  let s ← actState
  failWhen (c.trace && !daOk s (c.w 7) 64) (reachFail s (c.w 7) 64 (decFail q ecDescRange (c.w 7) 7 6))
/-- A DA field is 64-byte aligned (R344). -/
def checkDa (q : Nat) (c : WcsCmd) (i v : Nat) : Act Unit :=
  failWhen (v % 64 != 0 || decide (2 ^ 48 ≤ v)) (decFail q ecDescFormat (c.w i) i 0)
/-- Run a piece of work for a command: a failure completes it with status 3. -/
def runAct (q id : Nat) (a : Act Unit) (s : State) : State :=
  match (a.run).run s with
  | (.ok _, s) => s
  | (.error f, s) => failWith q id f s
/-- A command starts. -/
def markStarted (q id : Nat) (s : State) : State :=
  s.modCmd q id fun c => { c with started := true, since := s.now }
/-- The next command of a queue starts when it is the one meant (R347). -/
def startNext (q : Nat) (ok : WcsCmd → Bool) (f : WcsCmd → State → State) (s : State) : State :=
  match s.nextCmd q with
  | none => s
  | some c => if ok c then f c (markStarted q c.id (wake s)) else s

/-! ### NOP, FENCE, events, PROGRESS (R344, R349) -/

/-- A command that only checks its fields and completes. -/
def wcsNop (q : Nat) (s : State) : State :=
  startNext q (fun c => c.op == 0x00) (fun c s => runAct q c.id (do
    checkFields q c (emptyFrom 1)
    act fun s => ((), finishCmd q c.id s)) s) s
/-- FENCE (R349): it completes once every earlier command of its queue has. -/
def wcsFence (q : Nat) (s : State) : State :=
  startNext q (fun c => c.op == 0x18 && s.allBefore q c.id) (fun c s => runAct q c.id (do
    checkFields q c (emptyFrom 1)
    act fun s => ((), finishCmd q c.id s)) s) s
/-- EVENT_SIGNAL (R349). -/
def eventSignal (q : Nat) (s : State) : State :=
  startNext q (fun c => c.op == 0x19 && s.allBefore q c.id) (fun c s => runAct q c.id (do
    checkFields q c ((1, 63, 12) :: emptyFrom 3)
    act fun s => ((), finishCmd q c.id (addEvent (bitsOf (c.w 1) 11 0) (c.w 2) s))) s) s
/-- PROGRESS (R349). -/
def progress (q : Nat) (s : State) : State :=
  startNext q (fun c => c.op == 0x1B && s.allBefore q c.id) (fun c s => runAct q c.id (do
    checkFields q c (emptyFrom 2)
    act fun s => ((), finishCmd q c.id (s.setWord (.hifSqProg q) (c.w 1)))) s) s
/-- The event of an EVENT_WAIT has reached TARGET. -/
def WcsCmd.hit (c : WcsCmd) (s : State) : Bool := decide (c.w 2 ≤ s.cevent (bitsOf (c.w 1) 11 0))
/-- An EVENT_WAIT completes, with the counter as DETAIL (R456). -/
def waitEnd (q : Nat) (c : WcsCmd) (s : State) : State :=
  endCmd q c.id ⟨0, 0, s.cevent (bitsOf (c.w 1) 11 0)⟩ s
/-- EVENT_WAIT (R349): it completes at once, or blocks its queue. -/
def eventWait (q : Nat) (s : State) : State :=
  startNext q (fun c => c.op == 0x1A) (fun c s => runAct q c.id (do
    checkFields q c ((1, 63, 12) :: (3, 63, 32) :: emptyFrom 4)
    act fun s => ((), if c.hit s then waitEnd q c s else s)) s) s
/-- The EVENT_WAIT that blocks a queue. -/
def State.waiting? (s : State) (q : Nat) : Option WcsCmd :=
  (s.qp q).cmds.find? fun c => c.op == 0x1A && c.started && !c.done
/-- EVENT_WAIT_SATISFIED (R349). -/
def eventWaitSatisfied (q : Nat) (s : State) : State :=
  match s.waiting? q with
  | some c => if c.hit s && !s.d3Full then waitEnd q c s else s
  | none => s
/-- EVENT_WAIT_TIMEOUT (R349): status 3, TASK_HANG, and the queue halts. -/
def eventWaitTimeout (q : Nat) (s : State) : State :=
  match s.waiting? q with
  | some c =>
    let us := c.w 3 % 2 ^ 32
    if us = 0 ∨ c.hit s then s
    else
      let s := s.advance (c.since + us * usTicks)
      haltQueue q ecTaskHang (failCmd q c.id
        { src := qSrc q, code := ecTaskHang, fw := true, detail := [(32, 1, 4), (36, 4, us)] } s)
  | none => s

/-! ### PIN (R160, R358) -/

/-- Why a PIN cannot name a handle; 0 when it can. -/
def pinCause (h : Nat) (s : State) : Nat × State :=
  if h = 0 then (0x06, s) else outCause h s
/-- Every entry of a PIN is valid, before any changes. -/
def checkPins (hs : List Nat) : Act Unit := do
  let _ ← hs.mapM fun h => do
    let cause ← act (pinCause h)
    if cause = 0 then pure ()
    else
      let _ ← act fun s => ((), dirFail h cause s)
      throw (dirFailed h cause)
  pure ()
/-- A tile as the space of a pinned entry holds it: as it is, or expanded to DENSE where it is longer than
its type's DENSE length (R160). -/
def pinUnits (e : DirEnt) (us : List UnitP) : List UnitP :=
  if us.length ≤ denseLen e.etype then us
  else
    let bs := bytesOf us
    let h := hdrOf bs
    let rows := (List.range h.rows).map fun i => tileRow bs h i h.cols
    tileToUnits (hdrBytes (mkHdr fmtDense h.etype h.zcode h.rows h.cols (padTile h.etype h.zcode rows)) ++
      tileBody fmtDense h.etype h.zcode (padTile h.etype h.zcode rows)) (us.any UnitP.poison)
/-- One entry is to be pinned (R160): it gets space of its type's DENSE length, and queue 14 of its Glasshouse takes
the COPY of its tile, where the tile fits as it is. -/
def pinOne (q cmd h : Nat) : Act Unit := do
  let s ← actState
  if (s.dirEnt h).pinned then pure ()
  else
    let e ← act fun s =>
      let s := abandonMig h s
      (s.dirEnt h, s)
    let da ← act (heapAlloc (h % 8) h (denseLen e.etype))
    match da with
    | none =>
      let _ ← act fun s => ((), dirFail h 0x08 s)
      throw (dirFailed h 0x08)
    | some da => act fun s =>
      let s := s.doIf (decide (e.len ≤ denseLen e.etype)) (ghPushFabric (h % 8) 14 none
        ([0x0A, e.da, da, e.len, 0, 0, 0, 0].map fun x => BitVec.ofNat 64 x))
      ((), { s with hif := { s.hif with pins := s.hif.pins ++ [⟨q, cmd, h, da, e.da, e.version⟩] } })
/-- A tile is in place (R160): its entry names the new space and is PINNED; VERSION and POISON stay. A tile that was
written meanwhile, or is longer than its type's DENSE length, is written there now (assumption 194, DESIGN CHOICE). -/
def pinDone (p : PinCopy) (s : State) : State :=
  let s := abandonMig p.h s
  let e := s.dirEnt p.h
  if !e.valid || e.pinned then heapFree p.da s
  else
    let copied := e.da == p.src && e.version == p.ver && decide (e.len ≤ denseLen e.etype) &&
      s.rdRange p.da (e.len * 64) == s.rdRange e.da (e.len * 64)
    let (us, s) := if copied then ((List.range e.len).map fun i => ⟨s.rd (p.da + 64 * i) 64, s.poisoned (p.da + 64 * i)⟩, s)
      else s.fetchN e.da e.len
    let vs := pinUnits e us
    let s := heapFree e.da (if copied then s else s.putUnits p.da vs)
    let fmt := (hdrOf (bytesOf (vs.take 1))).format
    let w0 := withBits (withBits (e.set 53 true).w0 39 0 (p.da / 64)) 63 60 fmt
    s.dirWrite p.h { e with w0 := w0, w1 := withBits e.w1 63 48 vs.length }
/-- A command that pins has every entry in place. -/
def pinEnd (q cmd : Nat) (s : State) : State :=
  if s.hif.pins.any fun p => p.q == q && p.cmd == cmd then s else finishCmd q cmd s
/-- Tiles whose copies have ended are pinned, and a PIN completes with its last (R358). -/
def pinSweep (s : State) : State :=
  s.hif.pins.foldl (fun s p =>
    if (s.gh (p.h % 8)).copying p.da then s
    else
      let s := pinDone p s
      pinEnd p.q p.cmd { s with hif := { s.hif with pins := s.hif.pins.erase p } }) s
/-- PIN (R358): every entry from FIRST on is pinned, or unpinned. -/
def pin (q : Nat) (set : Bool) (s : State) : State :=
  startNext q (fun c => c.op == 0x12 && bitAt (c.w 3) 0 == set) (fun c s => runAct q c.id (do
    let first := bitsOf (c.w 1) 23 0
    let n := bitsOf (c.w 2) 24 0
    checkFields q c ([(1, 63, 24), (2, 63, 25), (3, 63, 1)] ++ emptyFrom 4)
    failWhen (decide (2 ^ 24 < n ∨ 2 ^ 24 < first + n)) (decFail q ecDescRange (c.w 2) 2 0)
    let hs := (List.range n).map (first + ·)
    checkPins hs
    if set then
      let _ ← hs.mapM (pinOne q c.id)
      pure ()
    else act fun s => ((), hs.foldl (fun s h => s.dirWrite h ((s.dirEnt h).set 53 false)) s)
    act fun s => ((), pinSweep (pinEnd q c.id s))) s) s

/-! ### The commands -/

/-- WCS_NOP (R344). -/
def execWcsNop (q : QpId) (s : State) : Host.Outcome State Fault Refusal := run (wcsNop q) s
/-- WCS_FENCE (R349). -/
def execWcsFence (q : QpId) (s : State) : Host.Outcome State Fault Refusal := run (wcsFence q) s
/-- EVENT_SIGNAL (R349). -/
def execEventSignal (q : QpId) (s : State) : Host.Outcome State Fault Refusal := run (eventSignal q) s
/-- EVENT_WAIT (R349). -/
def execEventWait (q : QpId) (s : State) : Host.Outcome State Fault Refusal := run (eventWait q) s
/-- EVENT_WAIT_SATISFIED (R349). -/
def execEventWaitSatisfied (q : QpId) (s : State) : Host.Outcome State Fault Refusal :=
  run (eventWaitSatisfied q) s
/-- EVENT_WAIT_TIMEOUT (R349). -/
def execEventWaitTimeout (q : QpId) (s : State) : Host.Outcome State Fault Refusal :=
  run (eventWaitTimeout q) s
/-- PROGRESS (R349). -/
def execProgress (q : QpId) (s : State) : Host.Outcome State Fault Refusal := run (progress q) s
/-- GH_COMMAND_COMPLETE (R210). -/
def execGhCommandComplete (k : StackId) (q : QId) (s : State) : Host.Outcome State Fault Refusal :=
  run (fun s => pinSweep (ghComplete k q s)) s
/-- PIN (R358). -/
def execPin (q : QpId) (s : State) : Host.Outcome State Fault Refusal := run (pin q true) s
/-- UNPIN (R358): a PIN without SET. -/
def execUnpin (q : QpId) (s : State) : Host.Outcome State Fault Refusal := run (pin q false) s

end Sys2Proof.Machine
end

