-- ==== Sys2Proof/Machine/Epilogue.lean ====
section
/-! DEFINITION. Epilogues of tensor commands (spec/11, R356, R357): EPI lists, their operands, and the
stages that follow a product or an element-wise read. -/

namespace Sys2Proof.Machine

/-- The stage of an EPI entry. -/
def EpiEnt.st (x : EpiEnt) : Option Stage := decodeStage x.w
/-- Kinds of EPI entries. -/
def EpiEnt.isGate (x : EpiEnt) : Bool := x.w / 2 ^ 60 == 5
def EpiEnt.isRowstat (x : EpiEnt) : Bool := x.w / 2 ^ 60 == 8
/-- The entry whose operand is a descriptor: BIAS, RESID_ADD, and GATE_MUL of a GEMM (R356). -/
def EpiEnt.wantsDesc (gemm : Bool) (x : EpiEnt) : Bool :=
  let k := x.w / 2 ^ 60
  k == 3 || k == 6 || (k == 5 && gemm)
/-- A stage word that an EPI list may not hold (R356, R357): the lowest bit of the failing field. -/
def epiStageBad (w : Nat) : Option Nat :=
  match decodeStage w with
  | none | some .zpCorr | some (.cast ..) => some 60
  | some (.bias b) => if b ≠ 0 then some 0 else none
  | some (.resid _ _ rec _ b) => if rec ≠ 0 then some 39 else if b ≠ 0 then some 0 else none
  | some (.rowstat _ _ _ rec) => if rec ≠ 0 then some 0 else none
  | some (.clamp lo hi) =>
    if (of16 lo).isNan || (of16 hi).isNan || fpLt (of16 hi) (of16 lo) then some 0 else none
  | _ => none

/-- The shapes that an EPI operand must have (R356): the product's M × N, its weights. -/
structure EpiShape where
  gemm : Bool
  m : Nat
  n : Nat
  b : Desc
  free : Bool
  deriving DecidableEq, Repr
/-- The operand descriptor of an entry suits the stage. -/
def epiDescOk (sh : EpiShape) (x : EpiEnt) (d : Desc) : Bool :=
  let k := x.w / 2 ^ 60
  if k = 3 then d.etype == etFp32 && (sh.free || (d.rows == 1 && d.cols == sh.n))
  else if k = 6 then (d.etype == etFp32 || d.etype == etBf16) && (sh.free || (d.rows == sh.m && d.cols == sh.n))
  else modeOf d.etype == modeOf sh.b.etype && isWeightType d.etype &&
    (sh.free || (d.rows == sh.b.rows && d.cols == sh.b.cols))
/-- An EPI list read and checked at decode (R356, R357). -/
def readEpi (q : Nat) (sh : EpiShape) (da n : Nat) : Act (List EpiEnt) := do
  if n = 0 then pure []
  else
    failWhen (da % 64 != 0) (decFail q ecDescFormat da 4 0)
    let s ← actState
    failWhen (!daOk s da (16 * n)) (reachFail s da (16 * n) (decFail q ecDescRange da 4 0))
    touchAct da (16 * n)
    let s ← actState
    let xs ← (List.range n).mapM fun i => do
      let w := s.rdN (da + 16 * i) 8
      let o := s.rdN (da + 16 * i + 8) 8
      match epiStageBad w with
      | some low => throw (decFail q ecDescFormat w (2 * i) low)
      | none => pure ()
      let x : EpiEnt := ⟨w, o, []⟩
      let bad := decFail q ecDescFormat o (2 * i + 1) 0
      if x.wantsDesc sh.gemm then
        let bs ← getDesc q (2 * i + 1) o
        failWhen (!epiDescOk sh x (descOf bs)) bad
        pure { x with desc := bs }
      else if x.isRowstat then
        failWhen (o % 16 != 0 || decide (2 ^ 48 ≤ o) || !daOk s o (16 * max 1 sh.m)) (reachFail s o (16 * max 1 sh.m) bad)
        pure x
      else
        failWhen (o != 0) bad
        match x.st with
        | some (.amax k) =>
          let f := s.slotFault k fun _ => true
          failWhen (f != 0) (decFail q f w (2 * i) 0)
        | _ => pure ()
        pure x
    let last := xs.getLastD ⟨0, 0, []⟩
    let int := decide (modeOf sh.b.etype ≤ 1) && sh.gemm
    failWhen (decide (1 < (xs.filter EpiEnt.isGate).length ∨ 1 < (xs.filter EpiEnt.isRowstat).length) ||
        xs.any fun x => match x.st with
          | some (.gate _ pzp _ _) => pzp && !int
          | some (.resid true ..) => !xs.any EpiEnt.isRowstat
          | _ => false)
      (decFail q ecDescFormat last.w (2 * (n - 1)) 60)
    pure xs

/-- What a run of stages reads beside the values: the product's tile (latched slot, column parameters),
the partner's values, the operands of the list, and the place of the block in the output. -/
structure EpiEnv where
  tile : AccTile
  gate : Nat → Nat → Nat
  gateBad : Nat → Bool
  lat : Nat → SlotLatch
  ops : List (EpiEnt × Option Grid)
  i0 : Nat
  j0 : Nat

/-- The DA of the ROWSTAT records of a list. -/
def EpiEnv.recAt (e : EpiEnv) (i : Nat) : Nat :=
  match e.ops.find? fun x => x.1.isRowstat with
  | some x => x.1.da + (e.i0 + i) * 16
  | none => 0
/-- One stage on a row of a block (R119-R125, R356, R357). -/
def epiStage (e : EpiEnv) (p : State × RowRun) (x : EpiEnt × Option Grid) : State × RowRun :=
  let s := p.1
  let r := p.2
  let i := r.row
  let each := fun (f : Nat → Nat → Nat) => { r with vs := r.vs.zipIdx.map fun q => .fp (f q.2 q.1.to32) }
  match x.1.st, x.2 with
  | some (.bias _), some g =>
    let r1 := each fun j v => add32 v (g.elem 0 (e.j0 + j))
    if g.rowPoison 0 then poisonRow s r1 else (s, r1)
  | some (.resid rs _ _ _ _), some g =>
    let q := recOf (s.rd (e.recAt i) 16)
    let skip := rs && (of32 q.aux).isZero
    let r1 := each fun j v =>
      let w := to32 (g.fp (e.i0 + i) (e.j0 + j))
      add32 v (if skip then 0 else if rs then mul32 q.aux w else w)
    if (rs && q.poison) || (!skip && g.rowPoison (e.i0 + i)) then poisonRow s r1 else (s, r1)
  | some (.gate _ _ _ pf), _ =>
    let r1 := each fun j v => let g := e.gate i j; mul32 v (if pf = 15 then g else actFn pf g)
    if e.gateBad i then poisonRow s r1 else (s, r1)
  | some (.rowstat mode init colBase _), _ =>
    let a := e.recAt i
    let bs := s.rd a 16
    let old := recOf bs
    if r.poison then (s.wr a (recBytes { old with poison := true }), r)
    else
      let (q, ws) := rowstatRow mode (colBase + e.j0) (if init && e.j0 == 0 then emptyRec else old) (r.vs.map Val.to32)
      (s.wr a (recBytes q), { r with vs := ws.map Val.fp, recAt := some (a, bs) })
  | some st, _ => stageRow ⟨e.tile, {}, fun _ _ => 0, 0, e.lat, fun b => ⟨b, [], false⟩⟩ st s r
  | none, _ => p
/-- Every stage on every row of a block, in row order: the rows with their poison. -/
def epiRows (e : EpiEnv) (rows : List (List Nat × Bool)) (s : State) : DrainRun :=
  rows.zipIdx.foldl (fun r q =>
    let r0 : RowRun := ⟨q.2, 0, q.1.1.map Val.fp, q.1.2, none, [], []⟩
    let (s, x) := e.ops.foldl (epiStage e) (r.s, r0)
    let st := x.stats
    ⟨s, st.1 ++ r.amax, st.2 ++ r.nanSlots, r.rows ++ [(x.vs.map Val.to32, x.poison)]⟩) ⟨s, [], [], []⟩
/-- The operands of a list for a block of an item. -/
def epiOps (q : Nat) (xs : List EpiEnt) (b i0 n j0 m : Nat) : Act (List (EpiEnt × Option Grid)) :=
  xs.mapM fun x => do
    let k := x.w / 2 ^ 60
    let d := descOf x.desc
    if k = 3 then
      let g ← readPart q d 0 0 1 j0 m
      pure (x, some g)
    else if k = 6 then
      let g ← readPart q d (b % max 1 d.batch) i0 n j0 m
      pure (x, some g)
    else pure (x, none)
/-- The pattern that CAST stores (R117): BF16 or FP32. -/
def castWord (et w : Nat) : Nat := if et = etBf16 then to16 (of32 w) else w
/-- A block through the stages of a list and CAST (R357): records are written, statistics reported. -/
def runEpi (q id : Nat) (xs : List EpiEnt) (et b i0 j0 m : Nat) (tile : AccTile) (lat : List SlotLatch)
    (gate rows : List (List Nat × Bool)) : Act (List (List Nat × Bool)) := do
  let ops ← epiOps q xs b i0 rows.length j0 m
  let e : EpiEnv := ⟨tile, fun i j => ix (gate.getD i ([], false)).1 j, fun i => (gate.getD i ([], false)).2,
    latchIn lat, ops, i0, j0⟩
  act fun s =>
    let r := epiRows e rows s
    let s := r.amax.foldl (fun s a => s.report a.1 (some a.2)) r.s
    let s := r.nanSlots.foldl (fun s k => s.slotNan k true) s
    let s := s.doIf (!r.nanSlots.isEmpty) (noteNan q id)
    let s := s.doIf (r.rows.any Prod.snd && ops.any fun x => x.1.isRowstat) fun s =>
      s.modCmd q id fun c => { c with poison := true }
    (r.rows.map fun o => (o.1.map (castWord et), o.2), s)
/-- The slots that a command binds (R350): those of its descriptors and of AMAX stages. -/
def boundSlots (ds : List Desc) (xs : List EpiEnt) : List Nat :=
  ((ds.filter Desc.slotEn).map Desc.slot ++ xs.filterMap fun x => match x.st with
    | some (.amax k) => some k
    | _ => none).dedup

end Sys2Proof.Machine
end

