-- ==== Sys2Proof/Machine/Gemm.lean ====
section
/-! DEFINITION. GEMM and SPGEMM (spec/11, R344, R351-R357): decode, the plan, one work unit on the arrays
or on Fife, partial sums, and the writing of output blocks. -/

namespace Sys2Proof.Machine

/-! ### Problems (R343, R355) -/

/-- One product C = A · B: an item of the batch, or an entry of a pointer list. -/
structure Prob where
  a : Desc
  b : Desc
  c : Desc
  ia : Nat
  ib : Nat
  ic : Nat
  m : Nat
  n : Nat
  k : Nat
  deriving DecidableEq, Repr

/-- Descriptor i of a job. -/
def Job.desc (j : Job) (i : Nat) : Desc := descOf (j.descs.getD i [])
/-- Word i of a job's command. -/
def Job.w (j : Job) (i : Nat) : Nat := (j.ws.getD i 0).toNat
/-- The products of a GEMM (R343, R355). -/
def Job.probs (j : Job) : List Prob :=
  let a := j.desc 0
  let b := j.desc 1
  let c := j.desc 2
  if j.plist = [] then (List.range c.batch).map fun i =>
    ⟨a, b, c, i % max 1 a.batch, i % max 1 b.batch, i, a.rows, b.cols, a.cols⟩
  else j.plist.map fun e =>
    let f := fieldAt e
    ⟨a.at (f 0 3) (f 12 4) (f 20 4), b.at (f 4 3) (f 20 4) (f 16 4), c.at (f 8 3) (f 12 4) (f 16 4),
     0, 0, 0, f 12 4, f 16 4, f 20 4⟩

/-! ### The plan (R351-R353) -/

/-- How Virhan tiles a product (R351-R353). -/
structure Plan where
  fife : Bool
  sparse : Bool
  et : Nat
  m0 : Nat
  n0 : Nat
  k0 : Nat
  mc : Nat
  nf : Nat
  kc : Nat
  ks : Nat
  order : Nat
  mb : Nat
  nb : Nat
  units : Nat
  deriving DecidableEq, Repr

/-- Four double-buffered units and their outputs fit in 5 MiB of CM (R351): the weights of four units and
one activation block they share twice over, and four outputs. -/
def unitFits (et aet mc nf kc : Nat) : Bool :=
  decide (8 * (kc * nf * etBits et / 8) + 4 * (mc * nf * 4) + 2 * (mc * kc * etBits aet / 8) ≤ 5 * 2 ^ 20)
/-- Halving of the unit rows down to M0 (R351). -/
def halveMc (et aet m0 nf kc : Nat) : Nat → Nat → Nat
  | 0, mc => mc
  | k + 1, mc =>
    if unitFits et aet mc nf kc ∨ mc ≤ m0 then mc
    else halveMc et aet m0 nf kc k (ceilDiv (mc / m0) 2 * m0)
/-- Width of the arrays in a mode: the widest MXE of the cores in service (R87, R351). -/
def State.planWidth (s : State) (et : Nat) : Nat :=
  s.liveCores.foldl (fun a n => (List.range 4).foldl (fun a m =>
    if s.fenced n m then a else max a (widthOf et (s.bypassed n m))) a) 0
/-- The plan of a product (R351-R353). `mode` is MODE of the command. -/
def planOf (width mode : Nat) (sparse : Bool) (p : Prob) : Plan :=
  let et := p.b.etype
  let am := modeOf et
  let m0 := tileRows am false
  let nf := tileFullCols am false
  let k0 := if am = 3 then 64 else 128
  let mc0 := min (ceilDiv p.m m0) 4 * m0
  let nb := ceilDiv p.n nf
  let u := ceilDiv p.m mc0 * nb
  let ks := max 1 (min (128 / u) (p.k / 1024))
  let kc := ceilDiv (ceilDiv p.k k0) ks * k0
  let mc := halveMc et p.a.etype m0 width kc 4 mc0
  let mb := ceilDiv p.m mc
  { fife := mode == 2 || (mode == 0 && decide (p.m < 32)), sparse := sparse, et := et, m0 := m0, n0 := width,
    k0 := k0, mc := mc, nf := nf, kc := kc, ks := ks,
    order := if p.m * p.k * etBits p.a.etype ≤ p.k * p.n * etBits et then 0 else 1,
    mb := mb, nb := nb, units := if p.m = 0 ∨ p.n = 0 ∨ p.k = 0 then 0 else mb * nb * ks }
/-- MODE of a GEMM. -/
def Job.mode (j : Job) : Nat := bitsOf (j.w 4) 52 51
/-- The command is an SPGEMM. -/
def Job.sparse (j : Job) : Bool := bitsOf (j.w 0) 63 56 == 2
/-- Plans of a job's products. -/
def Job.plans (j : Job) : List (Prob × Plan) :=
  j.probs.map fun p => (p, planOf j.width j.mode j.sparse p)
/-- Range of K of part p (R352): the first parts take one block more. -/
def Plan.part (pl : Plan) (k p : Nat) : Nat × Nat :=
  let bl := ceilDiv k pl.k0
  let at_ := fun i => i * (bl / pl.ks) + min i (bl % pl.ks)
  (at_ p * pl.k0, min k (at_ (p + 1) * pl.k0))
/-- Block indices and K part of a unit (R352): mb, nb, p. -/
def Plan.decode (pl : Plan) (u : Nat) : Nat × Nat × Nat :=
  let p := u % pl.ks
  let t := u / pl.ks
  if pl.order = 0 then (t % pl.mb, t / pl.mb, p) else (t / pl.nb, t % pl.nb, p)
/-- The unit of block indices and a K part. -/
def Plan.unit (pl : Plan) (mb nb p : Nat) : Nat :=
  (if pl.order = 0 then nb * pl.mb + mb else mb * pl.nb + nb) * pl.ks + p
/-- The product and unit that a claimed value maps to (R355). -/
def probAt : List (Prob × Plan) → Nat → Nat → Option (Nat × Prob × Plan × Nat)
  | [], _, _ => none
  | (p, pl) :: r, base, u =>
    if u < pl.units then some (base, p, pl, u) else probAt r (base + pl.units) (u - pl.units)
/-- Energy class of a unit (R366). -/
def Plan.cls (pl : Plan) : Nat :=
  if pl.fife then 1 else if pl.sparse then 2 else if modeOf pl.et = 0 then 3 else 2
/-- Stages in a unit's drain (R353, R357). -/
def Plan.chain (pl : Plan) (zp : Bool) (epi : Nat) : Nat :=
  b2n zp + 1 + (if pl.ks = 1 then epi else 0) + 1
/-- Planned stack-interface bytes of a product (R353). -/
def Plan.bytes (pl : Plan) (p : Prob) : Nat :=
  pl.mb * (p.k * p.n * etBits pl.et / 8) + p.m * p.k * etBits p.a.etype / 8 + p.m * p.n * etBits p.c.etype / 8
/-- The 64 bytes of a plan record (R353). -/
def planBytes (m0 n0 k0 mc nc kc ks unit order units ts cls chain cores bytes : Nat) : List Byte :=
  natLe 2 m0 ++ natLe 2 n0 ++ natLe 2 k0 ++ natLe 2 0 ++ natLe 4 mc ++ natLe 4 nc ++ natLe 4 kc ++ natLe 2 ks ++
    natLe 1 unit ++ natLe 1 order ++ natLe 4 units ++ natLe 2 ts ++ natLe 1 cls ++ natLe 1 chain ++
    natLe 4 cores ++ natLe 4 0 ++ natLe 8 bytes ++ natLe 16 0
/-- The mask of the cores in service. -/
def State.coreMask (s : State) : Nat := maskOf s.liveCores

/-! ### Column parameters -/

/-- The key under which the column parameters of a weight tensor are kept: its first tile. -/
def Desc.key (d : Desc) : Nat := if d.raw then 2 ^ 64 + d.da else d.h
/-- MXE_WPARAM word of column j of item b of a weight tensor: what the QUANTIZE that wrote the tensor
published (R59), else scale 1.0 for BF16 weights, and for others a scale that the spec does not place,
with the descriptor's zero code as the zero point. -/
def State.wparam (s : State) (d : Desc) (b j : Nat) : Word × Bool :=
  match tabFind s.hif.wparams d.key with
  | some da =>
    let a := da + b * (ceilDiv (d.cols * 8) 64 * 64) + 8 * j
    (BitVec.ofNat 64 (s.rdN a 8), s.poisoned a)
  | none =>
    if d.etype = etBf16 then (BitVec.ofNat 64 (0x3F800000 * 2 ^ 32), false)
    else
      let sc := Config.freeNat (2 ^ 128 + d.key * 2 ^ 48 + b * 2 ^ 24 + j) % 2 ^ 32
      (BitVec.ofNat 64 (sc * 2 ^ 32 + (if isIntMode d.etype then d.z * 2 ^ 24 else 0)), false)
/-- The parameters of n columns from column j on. -/
def State.wparams (s : State) (d : Desc) (b j n : Nat) : List Word × Bool :=
  let ps := (List.range n).map fun i => s.wparam d b (j + i)
  (ps.map Prod.fst, ps.any Prod.snd)

/-! ### Products (R52-R55, R95, R171, R351) -/

/-- A block of activations or weights that a product reads: values by row and K, poisoned rows. -/
structure Feed where
  x : Nat → Nat → Fp
  poison : Nat → Bool
/-- What a product gives: the tile's records, the entries by row, the statistic, free values drawn. -/
structure AccOut where
  tile : AccTile
  vals : List (List Nat)
  stat : Option Nat

/-- Larger of two statistics. -/
def statJoin : Option Nat → Option Nat → Option Nat
  | some a, some b => some (max a b)
  | a, none => a
  | none, b => b
/-- One entry: its groups of K in order (R53, R55, R95). `fr` stands for a sum with a factor that is not
finite. -/
def accEntry (fife int : Bool) (ta et fr : Nat) : List (List Nat × List Nat) → Nat × Bool → Nat × Bool
  | [], r => r
  | (as, ws) :: gs, (acc, sat) =>
    if int then
      let v := sx 32 acc + intSum (etBits et) as ws
      accEntry fife int ta et fr gs (ux 32 (satI32 v), sat || satI32 v != v)
    else if fife then accEntry fife int ta et fr gs (fifeGroup ta et acc as ws, sat)
    else
      let x := match colProds ta et as ws with
        | some ps => match windowSum ps with
          | some x => add32 acc x
          | none => acc
        | none => fr
      accEntry fife int ta et fr gs (x, sat)
/-- A product of m rows and n columns over groups of K indices: activations quantised under the slot
(BF16 weights take them as they are), weights by code, row and column sums (R37, R49, R52). -/
def product (fife : Bool) (l : SlotLatch) (et : Nat) (groups : List (List Nat)) (m n : Nat) (f : Feed)
    (w : Nat → Nat → Nat) (params : List Word) (wpoison : Bool) (fr : Nat → Nat) : AccOut :=
  let int := isIntMode et
  let bf := decide (et = etBf16)
  let l := if bf then {} else l
  let ta := if bf then etBf16 else l.etype
  let wg := groups.map fun g => g.map fun k => (List.range n).map fun j => w k j
  let rows := (List.range m).map fun i =>
    groups.map fun g => mkVec l bf (g.map (f.x i)) (f.poison i)
  let cw := wg.map fun g => g.map fun r => r.map (loadCode et)
  let vals := rows.zipIdx.map fun q => (List.range n).map fun j =>
    accEntry fife int ta et (fr (q.2 * n + j))
      ((q.1.zip cw).map fun p => (p.1.codes, p.2.map fun r => ix r j)) (0, false)
  let cnt : Nat := groups.foldl (fun (a : Nat) g => a + g.length) 0
  let colsum := (List.range n).map fun j =>
    if int then (cw.flatten.foldl (fun (a : Int) r => a + sx (etBits et) (ix r j)) 0 : Int) -
      cnt * sx 8 (F.mxeWparamZp.of (params.getD j 0).toNat)
    else 0
  let nan := rows.any (fun r => r.any Vec.nan) ||
    ((et == etE4 || et == etE5) && wg.any fun g => g.any fun r => r.any fun w => (elemFp et w).special)
  { tile := { st := 1, etype := et, cols := n, fullCols := n, mt := m, latch := l, wparam := params,
              rowsum := rows.zipIdx.map fun q => (q.2, q.1.foldl (fun (a : Int) v => a + v.rsum) 0),
              colacc := colsum, sat := vals.any fun r => r.any Prod.snd,
              poison := (List.range m).filter fun i => wpoison || f.poison i, nanSeen := nan }
    vals := vals.map fun r => r.map Prod.fst
    stat := rows.foldl (fun a r => r.foldl (fun a v => statJoin a v.stat) a) none }
/-- The entries of a product through ZP_CORR and SCALE (R115, R357): FP32 rows, and whether ZP_CORR
saturated. -/
def scaled (t : AccTile) (zp scale : Bool) (imm : Nat) (vals : List (List Nat)) : List (List Nat) × Bool :=
  let v := fun (i j w : Nat) => if isIntMode t.etype then
      (if zp then zpCorrected t i j (sx 32 w) else sx 32 w) else 0
  let one := fun (i j w : Nat) =>
    let x := if isIntMode t.etype then Val.int (satI32 (v i j w)) else Val.fp w
    if scale then to32 (fpMul x.fpv (of32 (scaleFactor t true true imm j))) else x.to32
  (vals.zipIdx.map fun r => r.1.zipIdx.map fun q => one r.2 q.2 q.1,
   vals.zipIdx.any fun r => r.1.zipIdx.any fun q => satI32 (v r.2 q.2 q.1) != v r.2 q.2 q.1)

/-- The groups of K of an array pass or a Fife operation. -/
def denseGroups (step ka kb : Nat) : List (List Nat) :=
  chunks step (ceilDiv (kb - ka) step) ((List.range (kb - ka)).map (ka + ·))
/-- The compacted passes of a sparse product (R165, R167, R171): one source position per K tile, lists of
up to 256 positions. -/
def sparseGroups (a b : Grid) (r c ka kb rowsMax : Nat) : List (List Nat) :=
  let ts := (List.range (ceilDiv kb 128 - ka / 128)).map (ka / 128 + ·)
  let pos := ts.map fun t =>
    let w := b.tile t c
    let m := ((a.tile r t).map fun x => x.hd.colNz).getD 0 &&& (w.map fun x => x.hd.rowNz).getD 0
    (t, maskOf ((setBits m).filter fun k => ka ≤ 128 * t + k ∧ 128 * t + k < kb),
     portCost ((w.map fun x => x.hd.format).getD 0))
  (chunks 256 (ceilDiv pos.length 256) pos).flatMap fun l =>
    (formPasses rowsMax l ⟨[], 0⟩ 0 []).map fun p => p.rows.map fun x => 128 * x.1 + x.2

/-! ### One unit (R351-R354) -/

/-- A block of a unit that one accumulator tile, or one sparse product, computes: rows and columns. -/
def subBlocks (pl : Plan) (i0 m j0 n : Nat) : List (Nat × Nat × Nat × Nat) :=
  let sp := pl.sparse && !pl.fife
  let rs := if pl.fife then m else if sp then min pl.m0 128 else pl.m0
  let cs := if sp then min pl.nf 128 else pl.nf
  (List.range (ceilDiv m rs)).flatMap fun a => (List.range (ceilDiv n cs)).map fun b =>
    (i0 + a * rs, min rs (m - a * rs), j0 + b * cs, min cs (n - b * cs))
/-- One block, run again with the next SHIFT while it saturates (R56). -/
def blockRun (core q id : Nat) (slot : Nat) (bind : Bool) (pl : Plan) (groups : List (List Nat)) (m n : Nat) (f : Feed)
    (w : Nat → Nat → Nat) (params : List Word) (wpoison zp scale : Bool) : Nat → State → List (List Nat) × List Nat × State
  | 0, s => ([], [], s)
  | k + 1, s =>
    let l := if bind then s.latchSlot slot else {}
    let base := s.draws
    let o := product pl.fife l pl.et groups m n f w params wpoison fun i => Config.freeNat (base + i) % 2 ^ 32
    let s := { s with draws := base + m * n }
    let (rows, sat) := scaled o.tile zp scale 0x3F800000 o.vals
    let s := (s.doIf bind (·.report slot o.stat)).doIf bind (·.slotNan slot o.tile.nanSeen)
    let s := s.doIf o.tile.nanSeen (noteNan q id)
    let shift := s.fld (.ssParam slot) F.ssParamShift
    if !(o.tile.sat || sat) || !bind then (rows, o.tile.poison, s)
    else if k = 0 ∨ 7 ≤ shift then
      let e : Err := { src := srcOf 1 core 1, code := ecAccSatFinal, fw := true,
                       detail := [(32, 1, 0), (33, 2, slot), (35, 1, shift)] }
      (rows, o.tile.poison, noteInfo q id e.code e.word (s.raise e))
    else
      let s := s.setFld (.ssParam slot) F.ssParamShift (shift + 1)
      let e : Err := { src := srcOf 1 core 1, code := ecSatRepeat, fw := true,
                       detail := [(32, 2, slot), (34, 1, shift + 1)] }
      blockRun core q id slot bind pl groups m n f w params wpoison zp scale k (noteInfo q id e.code e.word (s.raise e))
/-- A × W over a unit's rows, columns and K range: FP32 rows and poisoned rows. -/
def unitProduct (core q id : Nat) (pl : Plan) (a : Desc) (ga gb : Grid) (ib i0 m j0 n ka kb : Nat) (zp scale : Bool) :
    Act (List (List Nat) × List Nat) := act fun s =>
  let f : Feed := ⟨fun i k => ga.fp (i0 + i) k, fun i => ga.rowPoison (i0 + i)⟩
  let bind := decide (pl.et ≠ etBf16)
  let r := (subBlocks pl i0 m j0 n).foldl (fun (r : List (Nat × Nat × List (List Nat)) × List Nat × State) b =>
    let (ri, rm, cj, cn) := b
    let s := r.2.2
    let (params, pp) := s.wparams gb.d ib cj cn
    let groups := if pl.sparse && !pl.fife then
        sparseGroups ga gb (ri / 128) (cj / 128) ka kb (if modeOf pl.et = 3 then 64 else 128)
      else denseGroups (if pl.fife then 128 else pl.k0) ka kb
    let (rows, pois, s) := blockRun core q id a.slot bind pl groups rm cn
      ⟨fun i k => f.x (ri - i0 + i) k, fun i => f.poison (ri - i0 + i)⟩
      (fun k j => gb.elem k (cj + j)) params (pp || gb.poison) zp scale 4 s
    (r.1 ++ [(ri - i0, cj - j0, rows)], (r.2.1 ++ pois.map (ri - i0 + ·)).dedup, s)) ([], [], s)
  let row := fun i => (r.1.filter fun b => decide (b.1 ≤ i ∧ i < b.1 + b.2.2.length)).flatMap fun b =>
    b.2.2.getD (i - b.1) []
  (((List.range m).map row, r.2.1), r.2.2)
/-- The GATE_MUL entry of a job, with the flags of its stage. -/
def Job.gate? (j : Job) : Option (EpiEnt × Bool × Bool) :=
  j.epi.findSome? fun x => match x.st with
    | some (.gate _ pzp ps _) => some (x, pzp, ps)
    | _ => none
/-- One unit of a GEMM or SPGEMM (R351-R355). -/
def gemmUnit (core : Nat) (j : Job) (u : Nat) : Act Job := do
  match probAt j.plans 0 u with
  | none => pure j
  | some (_, p, pl, v) =>
    let (mb, nb, kp) := pl.decode v
    let i0 := mb * pl.mc
    let m := min pl.mc (p.m - i0)
    let j0 := nb * pl.nf
    let n := min pl.nf (p.n - j0)
    let (ka, kb) := pl.part p.k kp
    let ga ← readPart j.q p.a p.ia i0 m ka (kb - ka)
    let gb ← readPart j.q p.b p.ib ka (kb - ka) j0 n
    let (rows, pois) ← unitProduct core j.q j.cmd pl p.a ga gb p.ib i0 m j0 n ka kb true true
    let (gate, gp) ← match j.gate? with
      | none => pure ([], [])
      | some (x, pzp, ps) => do
        let d := descOf x.desc
        let gg ← readPart j.q d (p.ib % max 1 d.batch) ka (kb - ka) j0 n
        unitProduct core j.q j.cmd { pl with et := d.etype } p.a ga gg (p.ib % max 1 d.batch) i0 m j0 n ka kb pzp ps
    let s ← actState
    pure { j with parts := j.parts ++ [⟨u, rows, gate, (pois ++ gp).dedup,
      if pl.et = etBf16 then {} else s.latchSlot p.a.slot, s.amaxLatches (j.epi.filterMap EpiEnt.st)⟩] }

/-! ### Output blocks (R352, R355, R357) -/

/-- The blocks that are written together: those that share output tiles, and, with ROWSTAT in the list,
all blocks of their rows, so that its records meet the columns in order. -/
def Plan.group (pl : Plan) (rowstat : Bool) (mb nb : Nat) : Nat × Nat :=
  (if pl.mc < 128 then mb * pl.mc / 128 else mb, if rowstat then 0 else if pl.nf < 128 then nb * pl.nf / 128 else nb)
/-- The mb and nb of a group. -/
def Plan.members (pl : Plan) (rowstat : Bool) (g : Nat × Nat) : List Nat × List Nat :=
  ((List.range pl.mb).filter fun i => (pl.group rowstat i 0).1 == g.1,
   (List.range pl.nb).filter fun i => (pl.group rowstat 0 i).2 == g.2)
/-- Partials of a block added in order of K (R129, R352). -/
def sumParts : List (List (List Nat)) → List (List Nat)
  | [] => []
  | r :: rs => rs.foldl (fun a b => List.zipWith (List.zipWith add32) a b) r
/-- Rows side by side, with their poison. -/
def besides (a b : List (List Nat × Bool)) : List (List Nat × Bool) :=
  if a.isEmpty then b else List.zipWith (fun x y => (x.1 ++ y.1, x.2 || y.2)) a b
/-- A block's rows through the EPI stages and CAST. -/
def blockOut (j : Job) (base : Nat) (p : Prob) (pl : Plan) (mb nb : Nat) : Act (List (List Nat × Bool)) := do
  let ps := (List.range pl.ks).filterMap fun k => j.parts.find? fun x => x.unit == base + pl.unit mb nb k
  let i0 := mb * pl.mc
  let j0 := nb * pl.nf
  let n := min pl.nf (p.n - j0)
  let s ← actState
  let bad := ps.flatMap Partial.poison
  let rows := (sumParts (ps.map Partial.rows)).zipIdx.map fun r => (r.1, bad.contains r.2)
  let gate := (sumParts (ps.map Partial.gate)).map fun r => (r, false)
  let l := (ps.head?.map Partial.latch).getD {}
  let tile : AccTile := { st := 1, etype := pl.et, cols := n, fullCols := n, latch := l, wparam := (s.wparams p.b p.ib j0 n).1 }
  runEpi j.q j.cmd j.epi p.c.etype p.ic i0 j0 n tile ((ps.head?.map Partial.amax).getD []) gate rows
/-- The pointer list still holds what the command started with (R355). -/
def Job.listKept (j : Job) (s : State) : Bool :=
  j.plist = [] || j.plist.flatten == s.rdRange (bitsOf (j.w 5) 47 0) (32 * j.plist.length)
/-- A group of blocks is written when all its units have run. -/
def groupOut (only : Option Nat) (j : Job) (base : Nat) (p : Prob) (pl : Plan) (g : Nat × Nat) : Act Job := do
  let rs := j.epi.any EpiEnt.isRowstat
  let (ms, ns) := pl.members rs g
  let us := ms.flatMap fun mb => ns.flatMap fun nb => (List.range pl.ks).map fun k => base + pl.unit mb nb k
  if us.all fun u => j.parts.any fun x => x.unit == u then
    let blocks ← ms.mapM fun mb => do
      let cs ← ns.mapM fun nb => blockOut j base p pl mb nb
      pure (cs.foldl besides [])
    let s ← actState
    let rows ← act fun s =>
      let rows := blocks.flatten
      if j.listKept s then (rows, s)
      else (rows.map fun r => (r.1.zipIdx.map fun q => Config.freeNat (s.draws + q.2) % 2 ^ etBits p.c.etype, r.2),
            { s with draws := s.draws + p.n })
    let j0 := (ns.headD 0) * pl.nf
    let cols := min p.n ((ns.getLastD 0 + 1) * pl.nf) - j0
    writeRows j.q j.cmd only p.c p.ic ((ms.headD 0) * pl.mc / 128) (j0 / 128) cols (p.a.const s) rows
    pure { j with parts := j.parts.filter fun x => !us.contains x.unit }
  else pure j
/-- A unit has run: its group is written when complete. -/
def gemmDone (only : Option Nat) (j : Job) (u : Nat) : Act Job := do
  match probAt j.plans 0 u with
  | none => pure j
  | some (base, p, pl, v) =>
    let (mb, nb, _) := pl.decode v
    groupOut only j base p pl (pl.group (j.epi.any EpiEnt.isRowstat) mb nb)

/-! ### Decode (R344, R346, R355, R357) -/

/-- A pointer-list entry's fault (R346, R355): word and lowest bit. -/
def plistFault (e : List Byte) : Option (Nat × Nat × Nat) :=
  let f := fieldAt e
  let t := fun o => ceilDiv (f o 4) 128
  let cs : List (Bool × Nat × Nat × Nat) :=
    [(f 3 1 != 0, ecDescFormat, 0, 24), (f 7 1 != 0, ecDescFormat, 0, 56), (f 11 1 != 0, ecDescFormat, 1, 24),
     (f 24 8 != 0, ecDescFormat, 3, 0), (decide (2 ^ 24 < f 12 4), ecDescRange, 1, 32),
     (decide (2 ^ 24 < f 16 4), ecDescRange, 2, 0), (decide (2 ^ 24 < f 20 4), ecDescRange, 2, 32),
     (decide (2 ^ 24 < f 0 3 + t 12 * t 20), ecDescRange, 0, 0),
     (decide (2 ^ 24 < f 4 3 + t 20 * t 16), ecDescRange, 0, 32),
     (decide (2 ^ 24 < f 8 3 + t 12 * t 16), ecDescRange, 1, 0)]
  (cs.find? fun c => c.1).map fun c => c.2
/-- A pointer list read and checked. -/
def readPlist (q da n : Nat) : Act (List (List Byte)) := do
  if n = 0 then pure []
  else
    let s ← actState
    failWhen (!daOk s da (32 * n)) (reachFail s da (32 * n) (decFail q ecDescRange da 5 0))
    touchAct da (32 * n)
    let s ← actState
    (List.range n).mapM fun i => do
      let e := s.rdRange (da + 32 * i) 32
      match plistFault e with
      | some f => throw (decFail q f.1 (fieldAt e (8 * f.2.1) 8) (4 * i + f.2.1) f.2.2)
      | none => pure e
/-- The types of a product's tensors (R31, R40, R62, R117, R343): wide activations, weights that an array
takes with a slot of the right code type, a BF16 or FP32 output. -/
def typesFault (s : State) (a b c : Desc) : Option (Nat × Nat) :=
  if ¬(a.etype = etBf16 ∨ a.etype = etFp32) then some (ecDescFormat, 1)
  else if !isWeightType b.etype then some (ecDescFormat, 2)
  else if ¬(c.etype = etBf16 ∨ c.etype = etFp32) then some (ecDescFormat, 3)
  else if b.etype = etBf16 then none
  else if !a.slotEn then some (ecDescFormat, 1)
  else
    let f := s.slotFault a.slot (wantCode (modeOf b.etype))
    if f ≠ 0 then some (f, 1) else none
/-- The activation slot, or some weight column, has a zero point (R357). -/
def Job.zp (j : Job) (s : State) : Bool :=
  let b := j.desc 1
  isIntMode b.etype && (decide ((s.latchSlot (j.desc 0).slot).zp ≠ 0) ||
    j.probs.any fun p => (List.range (if (tabFind s.hif.wparams p.b.key).isSome then p.n else min p.n 1)).any fun i =>
      F.mxeWparamZp.of (s.wparam p.b p.ib i).1.toNat != 0)
/-- Decode of a GEMM or SPGEMM (R344, R346, R355-R357): the job it makes. -/
def gemmDecode (q ts : Nat) (c : WcsCmd) : Act Job := do
  let n := bitsOf (c.w 6) 16 0
  let en := bitsOf (c.w 4) 50 48
  let eda := bitsOf (c.w 4) 47 0
  checkFields q c [(4, 63, 53), (6, 63, 17)]
  failWhen (bitsOf (c.w 4) 52 51 == 3) (decFail q ecDescFormat (c.w 4) 4 51)
  checkDa q c 5 (c.w 5)
  failWhen (decide (65536 < n)) (decFail q ecDescRange (c.w 6) 6 0)
  failWhen (decide (6 < en)) (decFail q ecDescRange (c.w 4) 4 48)
  let ab ← getDesc q 1 (c.w 1)
  let bb ← getDesc q 2 (c.w 2)
  let cb ← getDesc q 3 (c.w 3)
  let a := descOf ab
  let b := descOf bb
  let d := descOf cb
  let s ← actState
  match typesFault s a b d with
  | some f => throw (decFail q f.1 (c.w f.2) f.2 0)
  | none => pure ()
  let l ← readPlist q (bitsOf (c.w 5) 47 0) n
  failWhen (n != 0 && (a.raw || b.raw || d.raw)) (decFail q ecDescFormat (c.w 6) 6 0)
  failWhen (n == 0 && !a.none && !b.none && !d.none && (a.rows != d.rows || a.cols != b.rows || b.cols != d.cols ||
    (a.batch != d.batch && a.batch != 1) || (b.batch != d.batch && b.batch != 1)))
    (decFail q ecDescRange (c.w 3) 3 0)
  let epi ← readEpi q ⟨true, d.rows, d.cols, b, n != 0⟩ eda en
  let j : Job := { q := q, cmd := c.id, units := 0, ts := ts, ws := c.ws, descs := [ab, bb, cb], epi := epi, plist := l,
                   width := s.planWidth b.etype }
  failWhen (decide (8 < b2n (j.zp s) + 2 + en)) (decFail q ecDescRange (c.w 4) 4 48)
  let live := n != 0 || !(a.none || b.none || d.none)
  let units := if live then j.plans.foldl (fun u p => u + p.2.units) 0 else 0
  pure { j with units := units }
/-- The plan record of a GEMM (R353): its first product, UNITS over all. -/
def gemmPlan (j : Job) (s : State) : List Byte :=
  match j.plans with
  | [] => planBytes 0 0 0 0 0 0 0 0 0 0 j.ts 0 0 s.coreMask 0
  | (_, pl) :: _ =>
    planBytes pl.m0 pl.n0 pl.k0 pl.mc pl.n0 pl.kc pl.ks (b2n pl.fife) pl.order j.units j.ts pl.cls
      (pl.chain (j.zp s) j.epi.length) s.coreMask
      (j.plans.foldl (fun a x => a + x.2.bytes x.1) 0)

end Sys2Proof.Machine
end

