-- ==== Sys2Proof/Machine/TensorOps.lean ====
section
/-! DEFINITION. ELEMENTWISE, REDUCE, QUANTIZE, COPY, EMBEDDING_BAG and ATTENTION (spec/11, R344; spec/02,
R58, R59; spec/04, R122, R124; spec/07, R214). -/

namespace Sys2Proof.Machine

/-- The job of a command with the descriptors at the given words. -/
def opJob (q ts : Nat) (c : WcsCmd) (ixs : List Nat) : Act Job := do
  let ds ← ixs.mapM fun i => getDesc q i (c.w i)
  let off := ds.any fun d => (descOf d).none
  pure { q := q, cmd := c.id, units := if off then 0 else 1, ts := ts, ws := c.ws, descs := ds }
/-- A failure at a word of the command. -/
def wordFail (q : Nat) (c : WcsCmd) (code i low : Nat) : Fail := decFail q code (c.w i) i low
/-- A type that only weights may be stored in (R31). -/
def isNarrow (et : Nat) : Bool := decide (et ≤ 3)
/-- Two grids have the same shape. -/
def Desc.same (a b : Desc) : Bool := a.rows == b.rows && a.cols == b.cols && a.batch == b.batch
/-- Every tile row and column of an item. -/
def readItem (q : Nat) (d : Desc) (b : Nat) : Act Grid := readGrid q d b 0 d.tr 0 d.tc

/-! ### ELEMENTWISE (R344, R346, R357) -/

/-- Decode of an ELEMENTWISE. -/
def elemDecode (q ts : Nat) (c : WcsCmd) : Act Job := do
  let n := bitsOf (c.w 4) 51 48
  checkFields q c ((4, 63, 52) :: emptyFrom 5)
  failWhen (decide (8 < n)) (wordFail q c ecDescRange 4 48)
  let j ← opJob q ts c (if c.w 2 = 0 then [1, 3] else [1, 3, 2])
  let x := j.desc 0
  let z := j.desc 1
  failWhen (isNarrow x.etype) (wordFail q c ecDescFormat 1 0)
  failWhen (c.w 2 != 0 && isNarrow (j.desc 2).etype) (wordFail q c ecDescFormat 2 0)
  let epi ← readEpi q ⟨false, x.rows, x.cols, x, false⟩ (bitsOf (c.w 4) 47 0) n
  failWhen (!x.same z || (c.w 2 != 0 && !x.same (j.desc 2))) (wordFail q c ecDescRange 3 0)
  failWhen (z.etype != etBf16 && z.etype != etFp32) (wordFail q c ecDescFormat 3 0)
  failWhen (epi.any EpiEnt.isGate && c.w 2 == 0) (wordFail q c ecDescFormat 2 0)
  let s ← actState
  match (j.descs.map descOf).find? fun d => d.slotEn && s.slotFault d.slot (fun _ => true) != 0 with
  | some d => throw (wordFail q c (s.slotFault d.slot fun _ => true) 1 0)
  | none => pure ()
  pure { j with epi := epi }
/-- A row of a tensor's item as FP32 words, with its poison. -/
def gridRow (g : Grid) (cols i : Nat) : List Nat × Bool :=
  ((List.range cols).map fun k => to32 (g.fp i k), g.rowPoison i)
/-- ELEMENTWISE on item b (R357). With P_SCALE a partner is scaled by the slot of Y. -/
def elemItem (only : Option Nat) (j : Job) (b : Nat) : Act Unit := do
  let x := j.desc 0
  let gx ← readItem j.q x b
  let gate ← if j.descs.length < 3 then pure [] else do
    let y := j.desc 2
    let gy ← readItem j.q y b
    let s ← actState
    let f := match j.gate? with
      | some (_, _, true) => to32 (slotDivisor (s.latchSlot y.slot))
      | _ => 0x3F800000
    pure ((List.range y.rows).map fun i => let r := gridRow gy y.cols i; (r.1.map (mul32 f), r.2))
  let s ← actState
  let tile : AccTile := { st := 1, etype := etFp32, cols := x.cols, fullCols := x.cols,
                          latch := if x.slotEn then s.latchSlot x.slot else {},
                          wparam := List.replicate x.cols (BitVec.ofNat 64 (0x3F800000 * 2 ^ 32)) }
  let rows ← runEpi j.q j.cmd j.epi (j.desc 1).etype b 0 0 x.cols tile (s.amaxLatches (j.epi.filterMap EpiEnt.st)) gate
    ((List.range x.rows).map (gridRow gx x.cols))
  writeRows j.q j.cmd only (j.desc 1) b 0 0 x.cols (x.const s) rows

/-! ### REDUCE (R122, R125, R344) -/

/-- Decode of a REDUCE. -/
def reduceDecode (q ts : Nat) (c : WcsCmd) : Act Job := do
  checkFields q c ([(3, 63, 6), (3, 3, 2)] ++ emptyFrom 4)
  let ax := bitsOf (c.w 3) 1 0
  failWhen (ax == 3) (wordFail q c ecDescFormat 3 0)
  let j ← opJob q ts c [1, 2]
  let x := j.desc 0
  let z := j.desc 1
  failWhen (isNarrow x.etype) (wordFail q c ecDescFormat 1 0)
  failWhen (isNarrow z.etype) (wordFail q c ecDescFormat 2 0)
  failWhen (z.rows != (if ax = 0 then min 1 x.rows else x.rows) || z.cols != (if ax = 1 then min 1 x.cols else x.cols) ||
    z.batch != (if ax = 2 then min 1 x.batch else x.batch)) (wordFail q c ecDescRange 2 0)
  pure j
/-- One result: the elements along the axis in index order, in the VXE tree order of R122. -/
def reduceVals (op : Nat) (int : Bool) (xs : List Nat) : Fp × Bool :=
  let t := if int then 2 else 0
  match op with
  | 0 => let (v, sat) := vTree t 25 xs; (vVal t v, sat)
  | 3 => (match rowWinner false 0 (if int then xs.map fun x => to32 (ofInt (sx 32 x)) else xs) with
    | some (_, k) => ofInt k
    | none => ofInt 0, false)
  | _ => (vVal t (xs.tail.foldl (vMinMax (op == 2) t) (ix xs 0)), false)
/-- REDUCE (R344): AXIS is the axis that goes. -/
def reduceRun (only : Option Nat) (j : Job) : Act Unit := do
  let x := j.desc 0
  let z := j.desc 1
  let ax := bitsOf (j.w 3) 1 0
  let op := bitsOf (j.w 3) 5 4
  let int := decide (x.etype ≤ 1) || x.etype == etInt32
  let gs ← (List.range x.batch).mapM (readItem j.q x)
  let val := fun (b i k : Nat) => match gs[b]? with
    | some g => if int then ux 32 (toIntSat i32Min i32Max (g.fp i k)) else to32 (g.fp i k)
    | none => 0
  let bad := fun (b i : Nat) => (gs[b]?).any fun g => g.rowPoison i
  let one := fun (b i k : Nat) =>
    let (v, sat) := reduceVals op int (if ax = 0 then (List.range x.rows).map fun r => val b r k
      else if ax = 1 then (List.range x.cols).map fun c => val b i c
      else (List.range x.batch).map fun n => val n i k)
    (fpElem z.etype v, sat)
  let rowBad := fun (b i : Nat) => if ax = 0 then (List.range x.rows).any (bad b)
    else if ax = 1 then bad b i else (List.range x.batch).any fun n => bad n i
  let _ ← (List.range z.batch).mapM fun b => do
    let rows := (List.range z.rows).map fun i => (List.range z.cols).map fun k => one b i k
    let s ← actState
    let _ ← act fun s => ((), s.doIf (rows.any fun r => r.any Prod.snd) (noteInfo j.q j.cmd ecAccSatFinal 0))
    writeRows j.q j.cmd only z b 0 0 z.cols (x.const s)
      (rows.zipIdx.map fun r => (r.1.map Prod.fst, rowBad b r.2))
  pure ()

/-! ### QUANTIZE (R58, R59, R344) -/

/-- Bytes of one item's column parameters. -/
def paramPitch (cols : Nat) : Nat := ceilDiv (cols * 8) 64 * 64
/-- Decode of a QUANTIZE. -/
def quantDecode (q ts : Nat) (c : WcsCmd) : Act Job := do
  checkFields q c ((3, 63, 48) :: emptyFrom 4)
  checkDa q c 3 (c.w 3)
  let j ← opJob q ts c [1, 2]
  let x := j.desc 0
  let z := j.desc 1
  failWhen (!x.same z) (wordFail q c ecDescRange 2 0)
  failWhen (x.etype != etFp32) (wordFail q c ecDescFormat 1 0)
  failWhen (decide (3 < z.etype)) (wordFail q c ecDescFormat 2 0)
  let s ← actState
  failWhen (j.units != 0 && !daOk s (c.w 3) (x.batch * paramPitch x.cols))
    (reachFail s (c.w 3) (x.batch * paramPitch x.cols) (wordFail q c ecDescRange 3 0))
  pure j
/-- QUANTIZE (R58, R59): codes and column parameters appear together. -/
def quantRun (only : Option Nat) (j : Job) : Act Unit := do
  let x := j.desc 0
  let z := j.desc 1
  let _ ← (List.range x.batch).mapM fun b => do
    let g ← readItem j.q x b
    let w := (List.range x.rows).map fun i => (List.range x.cols).map (g.fp i)
    let am := (List.range x.cols).map fun k =>
      w.foldl (fun a r => fpMax a (fpAbs (r.getD k (.num false 0 0)))) (.num false 0 0)
    let sc := am.map fun a => div32 (to32 (fpMax a (of32 fp32Floor))) (weightQmax z.etype)
    let rows := w.map fun r => List.zipWith (fun s v => weightCode z.etype s v) sc r
    let const := (List.range x.cols).filter fun k => (am.getD k .nan).isZero
    writeRows j.q j.cmd only z b 0 0 x.cols (!const.isEmpty) (rows.map fun r => (r, g.poison))
    act fun s =>
      let bs := sc.flatMap fun v => natLe 8 (v * 2 ^ 32)
      let s := rmwPieces true (j.w 3 + b * paramPitch x.cols) bs (List.replicate (ceilDiv bs.length 64) g.poison) s
      let s := const.foldl (fun s k =>
        let e : Err := { src := qSrc j.q, code := ecConstChannel, fw := true, detail := [(32, 2, k), (34, 1, 1)] }
        noteInfo j.q j.cmd e.code e.word (s.raise e)) s
      ((), s.doIf (w.any fun r => r.any Fp.special) (noteNan j.q j.cmd))
  act fun s => ((), { s with hif := { s.hif with wparams := tabSet s.hif.wparams z.key (j.w 3) } })

/-! ### COPY (R140, R344) -/

/-- Decode of a COPY. -/
def copyDecode (q ts : Nat) (c : WcsCmd) : Act Job := do
  checkFields q c (emptyFrom 3)
  let j ← opJob q ts c [1, 2]
  failWhen (!(j.desc 0).same (j.desc 1)) (wordFail q c ecDescRange 2 0)
  failWhen ((j.desc 0).etype != (j.desc 1).etype) (wordFail q c ecDescFormat 2 0)
  pure j
/-- A tile as the destination of a COPY stores it: its bytes as given, or encoded anew when the asked
format differs from its own, with the zero code that the destination names (R142). -/
def copyUnits (d : Desc) (t : TileIn) : List UnitP :=
  let fmt := if d.raw then fmtDense else d.ofmt
  let as_ := (chunks 64 t.ps.length t.bs).zip t.ps |>.map fun u => (⟨u.1, u.2⟩ : UnitP)
  if t.hd.format = fmt ∧ t.hd.etype = (hdrOf t.bs).etype then as_
  else
    let rows := (List.range t.hd.rows).map fun i => (List.range t.hd.cols).map (t.elem i)
    let bs := if d.raw then denseTile d.etype d.zc t.hd.rows t.hd.cols rows
      else encodeTileZ fmt d.etype d.zc t.hd.rows t.hd.cols rows
    tileToUnits bs (t.ps.contains true)
/-- COPY (R344). -/
def copyRun (only : Option Nat) (j : Job) : Act Unit := do
  let x := j.desc 0
  let z := j.desc 1
  let at_ := (List.range x.batch).flatMap fun b => (List.range x.tr).flatMap fun r =>
    (List.range x.tc).map fun c => (b, r, c)
  let at_ := at_.filter fun p => wanted only z p.1 p.2.1 p.2.2
  let ts ← at_.mapM fun p => readTileOf j.q x p.1 p.2.1 p.2.2
  let _ ← at_.mapM fun p => checkOut z p.1 p.2.1 p.2.2
  let s ← actState
  let _ ← (at_.zip ts).mapM fun p =>
    writeTileOf j.q j.cmd z p.1.1 p.1.2.1 p.1.2.2 (copyUnits z p.2) (!x.raw && bitAt (s.dirEnt (x.hd p.1.1 p.1.2.1 p.1.2.2)).w0 52)
  pure ()

/-! ### EMBEDDING_BAG (R214, R344) -/

/-- Decode of an EMBEDDING_BAG. -/
def embDecode (q ts : Nat) (c : WcsCmd) : Act Job := do
  let bags := bitsOf (c.w 5) 31 0
  checkFields q c [(2, 63, 48), (3, 63, 48), (5, 63, 35), (6, 63, 48)]
  checkDa q c 2 (c.w 2)
  checkDa q c 3 (c.w 3)
  checkDa q c 6 (c.w 6)
  failWhen (bitsOf (c.w 5) 33 32 == 3) (wordFail q c ecDescFormat 5 32)
  let j ← opJob q ts c [1, 4]
  let t := j.desc 0
  let z := j.desc 1
  failWhen (z.etype != etFp32) (wordFail q c ecDescFormat 4 0)
  failWhen (j.units != 0 && bags != 0 && (t.cols != z.cols || z.rows != bags || z.batch != 1 || t.batch != 1))
    (wordFail q c ecDescRange 4 0)
  let s ← actState
  let f := if t.etype ≤ 3 then s.slotFault t.slot (fun _ => true) else 0
  failWhen (f != 0) (wordFail q c f 1 0)
  failWhen (bags != 0 && !daOk s (c.w 3) (4 * (bags + 1)))
    (reachFail s (c.w 3) (4 * (bags + 1)) (wordFail q c ecDescRange 3 0))
  pure { j with units := if bags = 0 then 0 else j.units }
/-- A little-endian field of memory and its poison. -/
def State.fieldP (s : State) (a n : Nat) : Nat × Bool := (s.rdN a n, s.anyPoison a n)
/-- One bag (R214): the pooled row, and whether it is poisoned. -/
def embOne (s : State) (j : Job) (g : Grid) (l : SlotLatch) (b : Nat) : List Nat × Bool :=
  let t := j.desc 0
  let ib := if bitAt (j.w 5) 34 then 8 else 4
  let o0 := s.fieldP (j.w 3 + 4 * b) 4
  let o1 := s.fieldP (j.w 3 + 4 * b + 4) 4
  let n := if o0.2 || o1.2 then 0 else o1.1 - o0.1
  let rows := (List.range n).map fun i =>
    let x := s.fieldP (j.w 2 + (o0.1 + i) * ib) ib
    let w := if j.w 6 = 0 then (0x3F800000, false) else s.fieldP (j.w 6 + (o0.1 + i) * 4) 4
    let bad := x.2 || decide (t.rows ≤ x.1)
    ((List.range t.cols).map fun k => if bad then 0 else
       let v := embElem t.etype l (g.elem x.1 k)
       if j.w 6 = 0 then v else mul32 v w.1,
     bad || w.2 || (!bad && g.rowPoison x.1))
  ((List.range t.cols).map fun k => embPool (bitsOf (j.w 5) 33 32) n (rows.map fun r => ix r.1 k),
   o0.2 || o1.2 || rows.any Prod.snd)
/-- EMBEDDING_BAG (R344): bags in order; a decreasing OFFS pair ends the command, bags before it stay. -/
def embRun (only : Option Nat) (j : Job) : Act Unit := do
  let t := j.desc 0
  let z := j.desc 1
  let g ← readItem j.q t 0
  let bags := bitsOf (j.w 5) 31 0
  if bags = 0 then pure () else touchAct (j.w 3) (4 * (bags + 1))
  let s ← actState
  let l := s.latchSlot t.slot
  let down := (List.range bags).find? fun b =>
    let o0 := s.fieldP (j.w 3 + 4 * b) 4
    let o1 := s.fieldP (j.w 3 + 4 * b + 4) 4
    !o0.2 && !o1.2 && decide (o1.1 < o0.1)
  let ends := (List.range (down.getD bags)).flatMap fun b => [s.fieldP (j.w 3 + 4 * b) 4, s.fieldP (j.w 3 + 4 * b + 4) 4]
  let n := (ends.filter fun o => !o.2).foldl (fun a o => max a o.1) 0
  let ib := if bitAt (j.w 5) 34 then 8 else 4
  failWhen (n != 0 && !daOk s (j.w 2) (n * ib)) (reachFail s (j.w 2) (n * ib) (decFail j.q ecDescRange (j.w 2) 2 0))
  failWhen (n != 0 && j.w 6 != 0 && !daOk s (j.w 6) (n * 4)) (reachFail s (j.w 6) (n * 4) (decFail j.q ecDescRange (j.w 6) 6 0))
  touchAct (j.w 2) (n * ib)
  if j.w 6 = 0 then pure () else touchAct (j.w 6) (n * 4)
  let s ← actState
  let rows := (List.range (down.getD bags)).map (embOne s j g l)
  if rows.isEmpty then pure () else writeRows j.q j.cmd only z 0 0 0 z.cols (t.const s) rows
  failWhen down.isSome (recFail
    { src := qSrc j.q, code := ecDescFormat, fw := true, detail := [(32, 8, j.w 3), (40, 1, 3)] })

/-! ### ATTENTION (R124, R344) -/

/-- Decode of an ATTENTION. -/
def attDecode (q ts : Nat) (c : WcsCmd) : Act Job := do
  checkFields q c [(6, 63, 33)]
  let len := bitsOf (c.w 5) 31 0
  let grp := bitsOf (c.w 5) 47 32
  failWhen (decide (grp = 0 ∨ 64 < grp)) (wordFail q c ecDescRange 5 32)
  let j ← opJob q ts c [1, 2, 3, 4]
  let a := j.desc 0
  let k := j.desc 1
  let v := j.desc 2
  let o := j.desc 3
  match (j.descs.zipIdx 1).find? fun d => !((descOf d.1).etype == etBf16 || (descOf d.1).etype == etFp32) with
  | some d => throw (wordFail q c ecDescFormat d.2 0)
  | none => pure ()
  failWhen (j.units != 0 && (decide (k.rows < len ∨ v.rows < len) || a.cols != k.cols || o.cols != v.cols ||
    a.rows != o.rows || a.batch != o.batch || k.batch != v.batch || decide (k.batch * grp < a.batch)))
    (wordFail q c ecDescRange 5 0)
  pure { j with units := if len = 0 then 0 else j.units }
/-- The keys that query row i of n sees, of len keys: from, to (R344). -/
def keysOf (causal : Bool) (window len n i : Nat) : Nat × Nat :=
  let hi := if causal then min len (len + i + 1 - n) else len
  (if window = 0 then 0 else hi - window, hi)
/-- The running state of the online softmax of one query head (R124): records and output rows. -/
structure AttRun where
  recs : List RowRec
  out : List (List Nat)
  bad : List Bool
  s : State
/-- The BF16 code of an element of the KV cache, which an array loads as a weight: an FP32 element is
rounded to BF16 (assumption 156, DESIGN CHOICE). -/
def kvCode (d : Desc) (g : Grid) (i c : Nat) : Nat := if d.etype = etBf16 then g.elem i c else to16 (g.fp i c)
/-- One tile of keys (R124): scores, mask, softmax record, O' = α·O + P·V. -/
def attTile (core : Nat) (j : Job) (gq gk gv : Grid) (n d dv step : Nat) (r : AttRun) (t : Nat) : AttRun :=
  let len := bitsOf (j.w 5) 31 0
  let causal := bitAt (j.w 6) 32
  let window := bitsOf (j.w 5) 63 48
  let a := j.desc 0
  let k := j.desc 1
  let v := j.desc 2
  let k0 := t * step
  let m := min step (len - k0)
  let plan : Plan := ⟨false, false, etBf16, step, step, step, step, step, d, 1, 0, 1, 1, 1⟩
  let kpoison := (List.range m).any fun i => gk.rowPoison (k0 + i)
  let one := fun (k : Nat) => List.replicate k (BitVec.ofNat 64 (0x3F800000 * 2 ^ 32) : Word)
  let (xs, bad1, s) := blockRun core j.q j.cmd a.slot false plan (denseGroups 64 0 d) n m ⟨gq.fp, gq.rowPoison⟩
    (fun c i => kvCode k gk (k0 + i) c) (one m) kpoison true true 4 r.s
  let sc := bitsOf (j.w 6) 31 0
  let sc1 := fun (i : Nat) (row : List Nat) => row.zipIdx.map fun q =>
    let (lo, hi) := keysOf causal window len n i
    if lo ≤ k0 + q.2 ∧ k0 + q.2 < hi then mul32 q.1 sc else 0xFF800000
  let st := (xs.zipIdx.map fun q => sc1 q.2 q.1).zip r.recs |>.map fun q => rowstatRow 3 k0 q.2 q.1
  let ps := st.map fun q => q.2.map fun x => to16 (of32 x)
  let vpoison := (List.range m).any fun i => gv.rowPoison (k0 + i)
  let (pv, bad2, s) := blockRun core j.q j.cmd (j.desc 3).slot false plan (denseGroups 64 0 m) n dv
    ⟨fun i c => of16 (ix (ps.getD i []) c), fun i => bad1.contains i⟩
    (fun c i => kvCode v gv (k0 + c) i) (one dv) vpoison true true 4 s
  let out := (pv.zip (r.out.zip st)).map fun q =>
    if (of32 q.2.2.1.aux).isZero then q.1
    else List.zipWith (fun x o => add32 x (mul32 q.2.2.1.aux o)) q.1 q.2.1
  ⟨st.map Prod.fst, out, r.bad.zipIdx.map fun b => b.1 || bad1.contains b.2 || bad2.contains b.2, s⟩
/-- ATTENTION on query head h (R344). -/
def attHead (core : Nat) (only : Option Nat) (j : Job) (h : Nat) : Act Unit := do
  let a := j.desc 0
  let k := j.desc 1
  let v := j.desc 2
  let o := j.desc 3
  let len := bitsOf (j.w 5) 31 0
  let kv := h / max 1 (bitsOf (j.w 5) 47 32)
  let gq ← readItem j.q a h
  let gk ← readPart j.q k kv 0 len 0 k.cols
  let gv ← readPart j.q v kv 0 len 0 v.cols
  let s ← actState
  let step := 64
  let rows ← act fun s =>
    let r0 : AttRun := ⟨List.replicate a.rows emptyRec, List.replicate a.rows (List.replicate v.cols 0),
      List.replicate a.rows false, s⟩
    let r := (List.range (ceilDiv len step)).foldl (attTile core j gq gk gv a.rows a.cols v.cols step) r0
    ((r.out.zip (r.recs.zip r.bad)).map fun q => (q.1.map fun x => castWord o.etype (div32 x q.2.1.l), q.2.2), r.s)
  writeRows j.q j.cmd only o h 0 0 o.cols (a.const s) rows
/-- ATTENTION (R344). -/
def attRun (core : Nat) (only : Option Nat) (j : Job) : Act Unit := do
  let _ ← (List.range (j.desc 0).batch).mapM (attHead core only j)
  pure ()

end Sys2Proof.Machine
end

