-- ==== Sys2Proof/Machine/Piccolo.lean ====
section
/-! DEFINITION. FFN_PREDICTED and the Piccolo predictor (spec/06, R185-R197; spec/11, R345): the layer and
counter tables, prediction, the experts of unaudited and audited tokens, adaptation. -/

namespace Sys2Proof.Machine

/-! ### The tables (R185, R188) -/

/-- A field of a layer-table entry: word, high bit, low bit (R185). -/
def layerFld (bs : List Byte) (w h l : Nat) : Nat := bitsOf (fieldAt bs (8 * w) 8) h l
/-- Entry L of the layer table, and of the counter table. -/
def layerDa (lt l : Nat) : Nat := orgBase + lt * 32768 + l * 64
def counterDa (lt l : Nat) : Nat := layerDa lt l + 16384
/-- The core whose PIC_CTL Virhan reads; it writes the same value to every core (R189). -/
def State.picCore (s : State) : Nat := s.liveCores.headD 0
/-- Counter i of a counter entry gains a value, saturating (R188). -/
def addCounter (da i v : Nat) (s : State) : State :=
  s.wrN (da + 8 * i) 8 (min (s.rdN (da + 8 * i) 8 + v) (2 ^ 64 - 1))

/-! ### Decode (R186, R345) -/

/-- Bytes of a ROUTE record (R345). -/
def routeBytes (tope : Nat) : Nat := 4 * ceilDiv (5 * tope) 4
/-- The checks of R186 on a layer entry: code, word and lowest bit of the field. -/
def layerFault (bs : List Byte) : Option (Nat × Nat × Nat) :=
  let f := layerFld bs
  let mode := f 1 3 2
  let cs : List (Bool × Nat × Nat × Nat) :=
    [(f 1 0 0 == 0, ecDescFormat, 1, 0), (mode == 3, ecDescFormat, 1, 2),
     (f 6 63 0 != 0, ecDescFormat, 6, 0), (f 7 63 0 != 0, ecDescFormat, 7, 0),
     (f 1 15 5 == 0 || decide (1024 < f 1 15 5), ecDescRange, 1, 5),
     (f 3 31 16 == 0 || decide (16384 < f 3 31 16), ecDescRange, 3, 16),
     (mode == 2 && (f 1 31 16 == 0 || decide (f 3 31 16 < f 1 31 16)), ecDescRange, 1, 16),
     (f 5 31 24 == 0, ecDescRange, 5, 24)]
  (cs.find? fun c => c.1).map fun c => c.2
/-- Words of an FFN_PREDICTED: experts per token, SHARED. -/
def Job.tope (j : Job) : Nat := bitsOf (j.w 5) 11 8
def Job.shared (j : Job) : Bool := bitAt (j.w 5) 12
/-- EXPERTS of the latched layer entry. -/
def Job.experts (j : Job) : Nat := layerFld j.layer 5 31 24
/-- Token rows of X. -/
def Job.tokens (j : Job) : Nat := (j.desc 0).rows * (j.desc 0).batch
/-- The routed experts of a token with their gate weights, in the order of the ROUTE bytes, then the
shared expert with 1.0 (R345). -/
def routeOf (s : State) (j : Job) (t : Nat) : List (Nat × Nat) :=
  let a := j.w 4 + t * routeBytes j.tope
  ((List.range j.tope).map fun i => (s.rdN (a + i) 1, s.rdN (a + j.tope + 4 * i) 4)) ++
    if j.shared then [(j.experts - 1, 0x3F800000)] else []
/-- Some unit of a token's ROUTE record is poisoned. -/
def routePoison (s : State) (j : Job) (t : Nat) : Bool :=
  s.anyPoison (j.w 4 + t * routeBytes j.tope) (routeBytes j.tope)
/-- DA of an expert's entry of the EXPERTS table. -/
def Job.expertDa (j : Job) (e : Nat) : Nat := j.w 2 + 16 * e
/-- The checks on the EXPERTS entry of an expert that a token names. -/
def expertFault (s : State) (j : Job) (e : Nat) : Option (Nat × Nat × Nat × Nat) :=
  let a := j.expertDa e
  let w := fun i => s.rdN (a + 8 * i) 8
  let k := 2 * e
  if !daOk s a 16 then some (if s.reach a 16 = 1 then ecTileDir else ecDescRange, w 0, k, 0)
  else if bitsOf (w 0) 31 24 ≠ 0 then some (ecDescFormat, w 0, k, 24)
  else if bitsOf (w 0) 63 56 ≠ 0 then some (ecDescFormat, w 0, k, 56)
  else if bitsOf (w 1) 63 24 ≠ 0 then some (ecDescFormat, w 1, k + 1, 24)
  else none
/-- Decode of an FFN_PREDICTED (R186, R345): the layer entry and PIC_CTL are latched (R187). -/
def ffnDecode (q ts : Nat) (c : WcsCmd) : Act Job := do
  checkFields q c [(2, 63, 48), (4, 63, 48), (5, 63, 13), (6, 63, 32)]
  checkDa q c 2 (c.w 2)
  checkDa q c 4 (c.w 4)
  let tope := bitsOf (c.w 5) 11 8
  failWhen (decide (tope = 0 ∨ 8 < tope)) (wordFail q c ecDescRange 5 8)
  let j ← opJob q ts c [1, 3]
  let x := j.desc 0
  let y := j.desc 1
  failWhen (!x.none && !y.none && (x.rows != y.rows || x.batch != y.batch)) (wordFail q c ecDescRange 3 0)
  failWhen (x.etype != etBf16 && x.etype != etFp32) (wordFail q c ecDescFormat 1 0)
  failWhen (y.etype != etBf16 && y.etype != etFp32) (wordFail q c ecDescFormat 3 0)
  let s ← actState
  let ctl := s.word (.picCtl s.picCore)
  let bs := s.rdRange (layerDa (F.picCtlLtBase.of ctl) (bitsOf (c.w 5) 7 0)) 64
  match layerFault bs with
  | some f => throw (decFail q f.1 (fieldAt bs (8 * f.2.1) 8) f.2.1 f.2.2)
  | none => pure ()
  let want := wantCode (if layerFld bs 1 4 4 = 1 then 0 else 1)
  let f := s.slotFault (layerFld bs 5 23 12) want
  failWhen (f != 0) (decFail q f (fieldAt bs 40 8) 5 12)
  let f := s.slotFault (layerFld bs 5 11 0) want
  failWhen (f != 0) (decFail q f (fieldAt bs 40 8) 5 0)
  let j := { j with layer := bs ++ natLe 8 ctl }
  if j.units = 0 then pure j
  else
    failWhen (!daOk s (c.w 4) (j.tokens * routeBytes tope))
      (reachFail s (c.w 4) (j.tokens * routeBytes tope) (wordFail q c ecDescRange 4 0))
    touchAct (c.w 4) (j.tokens * routeBytes tope)
    let s ← actState
    let top := j.experts - b2n j.shared
    let named := (List.range j.tokens).flatMap fun t => (List.range tope).map fun i =>
      s.rdN (c.w 4 + t * routeBytes tope + i) 1
    failWhen (named.any fun e => decide (top ≤ e)) (wordFail q c ecDescRange 4 0)
    let es := (named ++ if j.shared then [j.experts - 1] else []).dedup
    let _ ← (es.filter fun e => daOk s (j.expertDa e) 16).mapM fun e => touchAct (j.expertDa e) 16
    let s ← actState
    match es.findSome? (expertFault s j) with
    | some f => throw (decFail q f.1 f.2.1 f.2.2.1 f.2.2.2)
    | none => pure { j with units := 2 }

/-! ### Which tokens are audited (R189, R191) -/

/-- The PIC_CTL that a job latched. -/
def Job.picCtl (j : Job) : Nat := fieldAt j.layer 64 8
/-- Prediction is enabled. -/
def Job.picEn (j : Job) : Bool := bitAt (j.picCtl) 0
/-- Token t is audited (R191). -/
def Job.audited (j : Job) (t : Nat) : Bool :=
  ((j.w 6 + t) % 2 ^ 32 + F.picCtlPhase.of j.picCtl) % 2 ^ F.picCtlAuditExp.of j.picCtl == 0
/-- Token t is computed over every neuron on the arrays: audited tokens, and all with EN clear. -/
def Job.denseTok (j : Job) (t : Nat) : Bool := !j.picEn || j.audited t

/-! ### Prediction (R190) -/

/-- A tensor of an FFN that a first handle and a shape describe: row-major tiles of a type. -/
def ffnDesc (h et rows cols : Nat) : Desc :=
  { h := h, etype := et, ofmt := 0, z := 0, slot := 0, slotEn := false, recomp := false, raw := false,
    rows := rows, cols := cols, batch := 1, tp := ceilDiv cols 128, bp := ceilDiv rows 128 * ceilDiv cols 128, da := 0 }
/-- The given rows of a matrix, as the ROW_GATHER commands of Virhan bring them (R212, R213): of each tile row that
holds one, those rows of every tile. -/
def readRowsOf (q : Nat) (d : Desc) (rows : List Nat) : Act Grid := do
  let ts ← (List.range d.tr).mapM fun r =>
    let mine := (rows.filter fun i => i / 128 == r).map (· % 128)
    if mine = [] then pure [] else (List.range d.tc).mapM fun c => readTileRows q d 0 r c mine
  pure ⟨d, 0, 0, ts⟩
/-- The plan of an FFN product: Fife, or the arrays of a type's mode. -/
def ffnPlan (fife : Bool) (et : Nat) : Plan :=
  let k0 := if fife ∨ et ≠ etBf16 then 128 else 64
  ⟨fife, false, et, 1, 1, k0, 1, 1, k0, 1, 0, 1, 1, 1⟩
/-- A product of m rows of activations over k with weights: FP32 rows, poisoned rows. -/
def ffnProduct (core : Nat) (j : Job) (fife : Bool) (slot et m n k : Nat) (x : Feed) (w : Nat → Nat → Nat)
    (params : List Word) (wpoison : Bool) : Act (List (List Nat) × List Nat) := act fun s =>
  let pl := ffnPlan fife et
  let (rows, bad, s) := blockRun core j.q j.cmd slot (decide (et ≠ etBf16)) pl (denseGroups pl.k0 0 k) m n x w
    params wpoison true true 4 s
  ((rows, bad), s)
/-- Rows of BF16 patterns as activations. -/
def bfFeed (rows : List (List Nat)) (bad : List Nat) : Feed :=
  ⟨fun i k => of16 (ix (rows.getD i []) k), bad.contains⟩
/-- Rows of FP32 words as BF16 patterns. -/
def toBf (rows : List (List Nat)) : List (List Nat) := rows.map fun r => r.map fun x => to16 (of32 x)
/-- Score m goes before score n in the selection of the TOPK mode: NaN first, then larger scores, then the
lower index (R190). -/
def topBefore (v : List Nat) (m n : Nat) : Bool :=
  let a := of32 (ix v m)
  let b := of32 (ix v n)
  a.isNan || fpLt b a || (!b.isNan && !fpLt a b && decide (m < n))
/-- The bitmap of a token's scores (R190): the predicted neurons in ascending order. -/
def predicted (mode tau k : Nat) (v : List Nat) : List Nat :=
  (List.range v.length).filter fun n =>
    let x := of32 (ix v n)
    mode == 0 || x.isNan || (if mode = 1 then fpLtIeee (of32 tau) x
      else decide (((List.range v.length).filter fun m => topBefore v m n).length < k))
/-- The predictions of an expert for rows of activations: a bitmap and the poison of each (R190). -/
def predict (core : Nat) (j : Job) (e d : Nat) (x : Feed) (m : Nat) : Act (List (List Nat × Bool)) := do
  let f := layerFld j.layer
  let et := if f 1 4 4 = 1 then etInt4 else etInt8
  let r := f 1 15 5
  let n := f 3 31 16
  let p1 := ffnDesc ((f 0 63 40 + e * f 0 15 0) % 2 ^ 24) et d r
  let p2 := ffnDesc ((f 0 39 16 + e * f 0 15 0) % 2 ^ 24) et r n
  let g1 ← readPart j.q p1 0 0 d 0 r
  let g2 ← readPart j.q p2 0 0 r 0 n
  let s ← actState
  let (w1, b1) := s.wparams p1 0 0 r
  let (w2, b2) := s.wparams p2 0 0 n
  let (u, bad1) ← ffnProduct core j true (f 5 23 12) et m r d x g1.elem w1 (b1 || g1.poison)
  let (v, bad2) ← ffnProduct core j true (f 5 11 0) et m n r (bfFeed (toBf u) bad1) g2.elem w2 (b2 || g2.poison)
  act fun s =>
    let s := s.bump (.picStat core) F.picStatPredictions m
    let s := s.doIf (v.any fun l => l.any fun y => (of32 y).isNan) (noteNan j.q j.cmd)
    (v.zipIdx.map fun l => (predicted (f 1 3 2) (f 1 63 32) (f 1 31 16) l.1, bad2.contains l.2), s)

/-! ### Experts (R192-R194) -/

/-- Type of the tiles at a handle, as the directory has it. -/
def State.typeAt (s : State) (h : Nat) : Nat := (s.dirEnt h).etype
/-- The scales and zero points of some neurons: the entries at PARAM + i × 8 that a ROW_GATHER with PARAM packs, PARAM
being the block that holds the tensor's parameters (R212, R213). -/
def neuronParams (s : State) (d : Desc) (idx : List Nat) : List Word × Bool :=
  let ps := idx.map fun i => s.wparam d 0 i
  (ps.map Prod.fst, ps.any Prod.snd)
/-- An expert over some of its neurons (R192, R194): the gated activations of each row in BF16, the rows of
the down product, the poisoned rows. -/
def expertRun (core : Nat) (j : Job) (fife : Bool) (e d dout : Nat) (idx : List Nat) (x : Feed) (m : Nat) :
    Act (List (List Nat) × List (List Nat) × List Nat) := do
  if idx = [] then pure (List.replicate m [], List.replicate m (List.replicate dout 0), [])
  else
    let s ← actState
    let h := fun i => s.rdN (j.expertDa e + 4 * i) 4
    let n := layerFld j.layer 3 31 16
    let up := ffnDesc (h 0) (s.typeAt (h 0)) n d
    let gt := ffnDesc (h 1) (s.typeAt (h 1)) n d
    let dn := ffnDesc (h 2) (s.typeAt (h 2)) n dout
    let gu ← readRowsOf j.q up idx
    let gg ← readRowsOf j.q gt idx
    let gd ← readRowsOf j.q dn idx
    let s ← actState
    let xs := (j.desc 0).slot
    let ys := (j.desc 1).slot
    let ok := fun (t slot : Nat) (en : Bool) => t == etBf16 ||
      (isWeightType t && en && s.slotFault slot (wantCode (modeOf t)) == 0)
    failWhen (!ok up.etype xs (j.desc 0).slotEn || !ok gt.etype xs (j.desc 0).slotEn ||
      !ok dn.etype ys (j.desc 1).slotEn) (decFail j.q ecDescFormat (s.rdN (j.expertDa e) 8) (2 * e) 0)
    let (wu, bu) := neuronParams s up idx
    let (wg, bg) := neuronParams s gt idx
    let (wd, bd) := s.wparams dn 0 0 dout
    let (u, b1) ← ffnProduct core j fife xs up.etype m idx.length d x (fun k c => gu.elem (ix idx c) k) wu
      (bu || gu.poison)
    let (g, b2) ← ffnProduct core j fife xs gt.etype m idx.length d x (fun k c => gg.elem (ix idx c) k) wg
      (bg || gg.poison)
    let a := toBf (List.zipWith (List.zipWith fun u g => mul32 u (actFn 2 g)) u g)
    let bad := (b1 ++ b2).dedup
    let (y, b3) ← ffnProduct core j fife ys dn.etype m dout idx.length (bfFeed a bad) (fun k c => gd.elem (ix idx k) c)
      wd (bd || gd.poison)
    pure (a, y, (bad ++ b3).dedup)
/-- An audited element's magnitude in units of 2^-16 (R188). -/
def auditMag (a : Nat) : Nat :=
  if (of16 a).isNan then 2 ^ 40
  else (toIntSat 0 (2 ^ 40) (fpMul (fpAbs (of16 a)) (.num false (2 ^ 16) 0))).toNat
/-- The counters of one audited token and expert (R188); a poisoned row adds nothing. -/
def auditCount (da eps : Nat) (row pred : List Nat) (s : State) : State :=
  let act := (List.range row.length).filter fun i =>
    let a := of16 (ix row i)
    a.isNan || fpLtIeee (of32 eps) (fpAbs a)
  let lost := act.filter fun i => !pred.contains i
  let mag := fun (l : List Nat) => l.foldl (fun (x : Nat) i => x + auditMag (ix row i)) 0
  let s := addCounter da 1 row.length s
  let s := addCounter da 2 act.length s
  let s := addCounter da 3 lost.length s
  let s := addCounter da 4 (pred.filter fun i => !act.contains i).length s
  let s := addCounter da 5 pred.length s
  addCounter da 7 (mag act) (addCounter da 6 (mag lost) s)

/-- What an expert gives its tokens: expert, token, row, poison. -/
structure ExpertOut where
  e : Nat
  tok : Nat
  row : List Nat
  bad : Bool
  deriving DecidableEq, Repr
/-- The tokens of a unit: unit 0 takes the predicted ones, unit 1 the dense ones. -/
def Job.unitTokens (j : Job) (u : Nat) : List Nat := (List.range j.tokens).filter fun t => j.denseTok t == (u == 1)
/-- One expert for the tokens of a unit. -/
def ffnExpert (core : Nat) (j : Job) (u : Nat) (gs : List Grid) (ts : List Nat) (e : Nat) : Act (List ExpertOut) := do
  let x := j.desc 0
  let dout := (j.desc 1).cols
  let s ← actState
  let ts := ts.filter fun t => (routeOf s j t).any fun p => p.1 == e
  if ts = [] then pure []
  else
    let row := fun i => ix ts i
    let f : Feed := ⟨fun i k => ((gs[row i / x.rows]?).map fun g => g.fp (row i % x.rows) k).getD .nan,
      fun i => (gs[row i / x.rows]?).any fun g => g.rowPoison (row i % x.rows)⟩
    let n := layerFld j.layer 3 31 16
    let preds ← if j.picEn then predict core j e x.cols f ts.length else pure []
    let idx := if u = 1 then List.range n
      else (List.range n).filter fun i => preds.any fun p => p.1.contains i
    let (a, y, bad) ← expertRun core j (u == 0) e x.cols dout idx f ts.length
    act fun s =>
      let da := counterDa (F.picCtlLtBase.of j.picCtl) (bitsOf (j.w 5) 7 0)
      let s := if u = 1 ∧ j.picEn then
          let s := s.bump (.picStat core) F.picStatAudits ts.length
          (a.zip preds).zipIdx.foldl (fun s p => if bad.contains p.2 then s
            else auditCount da (layerFld j.layer 2 63 32) p.1.1 p.1.2.1 s) s
        else s
      ((y.zip ts).zipIdx.map fun p =>
        ⟨e, p.1.2, p.1.1, bad.contains p.2 || (preds.getD p.2 ([], false)).2⟩, s)
/-- The output row of a token (R345): its experts in the order of the ROUTE bytes, the shared one last. -/
def ffnRow (s : State) (j : Job) (os : List ExpertOut) (t : Nat) : List Nat × Bool :=
  let ps := (routeOf s j t).map fun p =>
    match os.find? fun o => o.e == p.1 && o.tok == t with
    | some o => (o.row.map (mul32 p.2), o.bad)
    | none => ([], false)
  let sum := match ps with
    | [] => []
    | p :: ps => ps.foldl (fun a b => List.zipWith add32 a b.1) p.1
  (sum, ps.any Prod.snd || routePoison s j t)
/-- One unit of an FFN_PREDICTED: unit 0 on Fife, unit 1, the dense tokens, on the arrays. -/
def ffnUnit (core : Nat) (j : Job) (u : Nat) : Act Job := do
  let x := j.desc 0
  let ts := j.unitTokens u
  let gs ← (List.range x.batch).mapM (readItem j.q x)
  let s ← actState
  let es := (ts.flatMap fun t => (routeOf s j t).map Prod.fst).dedup.mergeSort
  let os ← es.mapM (ffnExpert core j u gs ts)
  let rows ← act fun s =>
    let s := if u = 1 ∧ j.picEn then
        addCounter (counterDa (F.picCtlLtBase.of j.picCtl) (bitsOf (j.w 5) 7 0)) 0 ts.length s else s
    (ts.map (ffnRow s j os.flatten), s)
  let all := (List.range j.tokens).map fun t => match (ts.zip rows).find? fun p => p.1 == t with
    | some p => p.2
    | none => ([], false)
  pure { j with parts := j.parts ++ [
    { unit := u, rows := all.map Prod.fst, gate := [],
      poison := (all.zipIdx.filter fun p => p.1.2).map Prod.snd }] }
/-- When both units have run, Y is written. -/
def ffnDone (only : Option Nat) (j : Job) : Act Job := do
  match j.parts.find? (fun p => p.unit == 0), j.parts.find? (fun p => p.unit == 1) with
  | some a, some b => do
    let y := j.desc 1
    let s ← actState
    let rows := (List.range j.tokens).map fun t =>
      let p := if j.denseTok t then b else a
      ((p.rows.getD t []).map (castWord y.etype), p.poison.contains t)
    let _ ← (List.range y.batch).mapM fun i =>
      writeRows j.q j.cmd only y i 0 0 y.cols ((j.desc 0).const s) ((rows.drop (i * y.rows)).take y.rows)
    pure { j with parts := [] }
  | _, _ => pure j

/-! ### Adaptation (R196) -/

/-- The counters of an entry that adaptation reads. -/
def countersAt (s : State) (da : Nat) : Adapted :=
  let c := fun i => s.rdN (da + 8 * i) 8
  ⟨c 0, c 2, c 3, c 1, c 5⟩
/-- An FP32 ratio of two counter deltas; 0 over 0 is 0. -/
def ratio32 (a b : Nat) : Nat := if b = 0 then 0 else div32 (to32 (ofInt a)) (to32 (ofInt b))
/-- The step by which K_TOP moves: max(1, round(K_TOP × δ)). -/
def topStep (k delta : Nat) : Nat := (toIntSat 1 65535 (of32 (mul32 (to32 (ofInt k)) delta))).toNat
/-- The value that replaces TAU, or K_TOP in TOPK mode (R196). -/
def adaptedValue (bs : List Byte) (r rho : Nat) : Nat :=
  let f := layerFld bs
  let topk := f 1 3 2 == 2
  let tau := f 1 63 32
  let k := f 1 31 16
  let delta := f 3 63 32
  let target := f 2 31 0
  if fpLtIeee (of32 target) (of32 r) then
    if topk then min (k + topStep k delta) (f 3 31 16) else max32 (sub32 tau delta) (f 4 63 32)
  else if fpLtIeee (of32 r) (of32 (mul32 target 0x3E800000)) && fpLtIeee (of32 (f 5 63 32)) (of32 rho) then
    if topk then max (k - topStep k delta) 1 else min32 (add32 tau delta) (f 4 31 0)
  else if topk then k else tau
/-- PICCOLO_ADAPT (R196): the entry of a layer after a window of audited tokens. -/
def piccoloAdapt (l : Nat) (s : State) : State :=
  let lt := s.fld (.picCtl s.picCore) F.picCtlLtBase
  let da := layerDa lt l
  let bs := s.rdRange da 64
  let f := layerFld bs
  let old := tabGet {} s.hif.adapted l
  let new := countersAt s (counterDa lt l)
  let w := f 3 15 0
  if 256 ≤ l ∨ f 1 0 0 = 0 ∨ f 1 1 1 = 0 ∨ w = 0 ∨ new.audited - old.audited < w then s
  else
    let s := { s with hif := { s.hif with adapted := tabSet s.hif.adapted l new } }
    let mode := f 1 3 2
    let v0 := if mode = 2 then f 1 31 16 else f 1 63 32
    let v := adaptedValue bs (ratio32 (new.falseNeg - old.falseNeg) (new.trueAct - old.trueAct))
      (ratio32 (new.pred - old.pred) (new.evals - old.evals))
    if v = v0 ∨ mode = 0 ∨ mode = 3 then s
    else
      let w1 := fieldAt bs 8 8
      (s.wrN (da + 8) 8 (if mode = 2 then withBits w1 31 16 v else withBits w1 63 32 v)).raise
        { src := virSrc, code := ecAuditAdjust, fw := true, detail := [(32, 1, l), (36, 4, v0), (40, 4, v)] }
/-- PICCOLO_ADAPT (R196). -/
def execPiccoloAdapt (layer : Nat) (s : State) : Host.Outcome State Fault Refusal := run (piccoloAdapt layer) s

end Sys2Proof.Machine
end

