-- ==== Sys2Proof/Machine/Jobs.lean ====
section
/-! DEFINITION. Distribution of tensor commands (spec/11, R354, R359, R366, R367): the start of a command,
claims through its turnstile, dispatch on a core, re-runs (R478) and recomputation. -/

namespace Sys2Proof.Machine

/-! ### Start (R353, R354) -/

/-- Opcode of a job's command. -/
def Job.op (j : Job) : Nat := bitsOf (j.w 0) 63 56
/-- Decode of a tensor command. -/
def jobDecode (q ts : Nat) (c : WcsCmd) : Act Job :=
  match c.op with
  | 0x01 | 0x02 => gemmDecode q ts c
  | 0x03 => attDecode q ts c
  | 0x04 => ffnDecode q ts c
  | 0x05 => embDecode q ts c
  | 0x06 => elemDecode q ts c
  | 0x07 => reduceDecode q ts c
  | 0x08 => quantDecode q ts c
  | _ => copyDecode q ts c
/-- Energy class of a unit (R366). -/
def Job.cls (j : Job) (u : Nat) : Nat :=
  match j.op with
  | 0x01 | 0x02 => match probAt j.plans 0 u with
    | some (_, _, pl, _) => pl.cls
    | none => 0
  | 0x03 => if modeOf (j.desc 1).etype = 0 then 3 else 2
  | 0x04 => if u = 1 then 2 else 1
  | 0x06 | 0x07 | 0x08 => 1
  | _ => 0
/-- UNIT of a plan record (R353). -/
def Job.engine (j : Job) : Nat :=
  match j.op with
  | 0x03 => 0
  | 0x04 => 1
  | 0x06 | 0x07 | 0x08 => 2
  | _ => 3
/-- The plan record of a command (R353). -/
def Job.record (j : Job) (s : State) : List Byte :=
  if j.op = 1 ∨ j.op = 2 then gemmPlan j s
  else planBytes 0 0 0 0 0 0 0 j.engine 0 j.units j.ts (j.cls 0)
    (if j.op = 6 then j.epi.length + 1 else 0) s.coreMask 0
/-- The tensors of an expert and its predictor, as ranges of handles. -/
def ffnCovers (s : State) (j : Job) (e : Nat) : List (Nat × Nat) :=
  let f := layerFld j.layer
  let h := fun i => s.rdN (j.expertDa e + 4 * i) 4
  let n := f 3 31 16
  let d := (j.desc 0).cols
  let p := fun b => (b + e * f 0 15 0) % 2 ^ 24
  [ffnDesc (h 0) 0 n d, ffnDesc (h 1) 0 n d, ffnDesc (h 2) 0 n (j.desc 1).cols, ffnDesc (p (f 0 63 40)) 0 d (f 1 15 5),
   ffnDesc (p (f 0 39 16)) 0 (f 1 15 5) n].map Desc.range
/-- Handle and VERSION of every input tile (R359). -/
def inputsOf (s : State) (c : WcsCmd) (j : Job) : List (Nat × Nat) :=
  let more := if j.op = 4 then
      ((List.range j.tokens).flatMap fun t => (routeOf s j t).map Prod.fst).dedup.flatMap (ffnCovers s j)
    else []
  ((s.touches c).1 ++ more).flatMap fun r => (List.range (r.2 - r.1)).map fun i =>
    (r.1 + i, if r.1 + i < 2 ^ 24 then (s.dirEnt (r.1 + i)).version else 0)
/-- The descriptors that a command writes. -/
def Job.outs (j : Job) : List Desc :=
  match j.op with
  | 0x01 | 0x02 => if j.plist = [] then [j.desc 2] else j.probs.map Prob.c
  | 0x03 => [j.desc 3]
  | _ => [j.desc 1]
/-- The command writes a recomputable tensor (R359). -/
def Job.recomp (j : Job) : Bool := j.outs.any Desc.recomp
/-- A decoded command gets its plan record, its turnstile and its place among the jobs; one without units
completes. -/
def jobStart (q : Nat) (c : WcsCmd) (j : Job) (s : State) : State :=
  let s := s.modCmd q c.id fun c => { c with slots := boundSlots (j.descs.map descOf) j.epi }
  let s := s.doIf c.trace (·.putUnits (c.w 7) [⟨j.record s, false⟩])
  if j.units = 0 then finishCmd q c.id s
  else
    let s := (s.setFld (.tsCnt j.ts) F.tsCntValue 0).setFld (.tsCnt j.ts) F.tsCntLimit j.units
    let j := if j.recomp then { j with ins := inputsOf s c j } else j
    { s with hif := { s.hif with jobs := tabSet s.hif.jobs s.hif.nextJob j, nextJob := s.hif.nextJob + 1 } }
/-- A turnstile that distributes a job's units. -/
def State.tsBusy (s : State) (ts : Nat) : Bool := s.hif.jobs.any fun j => j.2.ts == ts
/-- A tensor command starts (R344, R347, R354). -/
def tensorStart (op q ts : Nat) (s : State) : State :=
  startNext q (fun c => c.op == op && !s.tsBusy ts) (fun c s =>
    match ((jobDecode q ts c).run).run s with
    | (.ok j, s) => jobStart q c j s
    | (.error f, s) => failWith q c.id f s) s

/-! ### Claims (R354) -/

/-- How many units a core asks for. -/
def claimAmount (j : Job) (n : Nat) : Nat :=
  match tabFind j.last n with
  | none => 1
  | some v => max 1 (min ((j.units - v) / 256) 8)
/-- Replace a job. -/
def State.setJob (s : State) (k : Nat) (j : Job) : State :=
  { s with hif := { s.hif with jobs := tabSet s.hif.jobs k j } }
/-- Units become tasks of a core: audits at low priority, all others at high priority (R194, R360). -/
def addTasks (n k : Nat) (j : Job) (us : List Nat) (s : State) : State :=
  let ts := us.map fun u => (⟨k, u, !(j.op == 4 && u == 1), j.cls u, s.now⟩ : Task)
  { s with hif := { s.hif with tasks := tabSet s.hif.tasks n (tabGet [] s.hif.tasks n ++ ts) } }
/-- TILE_UNIT_CLAIM (R354): the retry list first, then a TURN. -/
def tileUnitClaim (n k : Nat) (s : State) : State :=
  match tabFind s.hif.jobs k with
  | none => s
  | some j =>
    if s.fld (.coreMap n) F.coreMapState ≠ 0 then s
    else match j.retry with
    | u :: r => addTasks n k j [u] (s.setJob k { j with retry := r })
    | [] =>
      if j.spent.contains n then s
      else
        let a := claimAmount j n
        let (s, w) := turn j.ts a s.tsSettle
        if w = exhausted then s.setJob k { j with spent := j.spent ++ [n] }
        else
          let v := w.toNat
          addTasks n k j ((List.range (min a (j.units - v))).map (v + ·))
            (s.setJob k { j with last := tabSet j.last n v })

/-! ### Running a unit -/

/-- One work unit of a command. -/
def unitRun (core : Nat) (only : Option Nat) (j : Job) (u : Nat) : Act Job :=
  match j.op with
  | 0x01 | 0x02 => do
    let j ← gemmUnit core j u
    gemmDone only j u
  | 0x03 => do
    attRun core only j
    pure j
  | 0x04 => do
    let j ← ffnUnit core j u
    ffnDone only j
  | 0x05 => do
    embRun only j
    pure j
  | 0x06 => do
    let _ ← (List.range (j.desc 0).batch).mapM (elemItem only j)
    pure j
  | 0x07 => do
    reduceRun only j
    pure j
  | 0x08 => do
    quantRun only j
    pure j
  | _ => do
    copyRun only j
    pure j
/-- The unit of a GEMM or an FFN_PREDICTED whose partial results are poisoned (R478). -/
def unitTainted (core : Nat) (j : Job) (u : Nat) : Act Job := do
  let taint := fun (j : Job) => { j with parts := j.parts.map fun p =>
    if p.unit = u then { p with poison := List.range p.rows.length } else p }
  match j.op with
  | 0x01 | 0x02 => do
    let j ← gemmUnit core j u
    gemmDone none (taint j) u
  | 0x04 => do
    let j ← ffnUnit core j u
    ffnDone none (taint j)
  | _ => unitRun core none j u
/-- A job leaves, with its tasks on every core. -/
def dropJob (k : Nat) (s : State) : State :=
  { s with hif := { s.hif with
      jobs := tabDel s.hif.jobs k
      tasks := s.hif.tasks.map fun t => (t.1, t.2.filter fun x => x.job != k) } }
/-- A unit has drained: after the last one the command completes, and is remembered when its output is
recomputable (R354, R359). -/
def unitDone (k : Nat) (j : Job) (s : State) : State :=
  let j := { j with drained := j.drained + 1 }
  if j.drained < j.units then s.setJob k j
  else
    let s := dropJob k s
    let s := s.doIf j.recomp fun s =>
      { s with hif := { s.hif with recomp := (s.hif.recomp ++ [j]).drop (s.hif.recomp.length + 1 - 4096) } }
    finishCmd j.q j.cmd s
/-- A unit of a job runs on a core. -/
def runUnit (k : Nat) (act : Job → Act Job) (s : State) : State :=
  match tabFind s.hif.jobs k with
  | none => s
  | some j => match ((act j).run).run s with
    | (.ok j, s) => unitDone k j s
    | (.error f, s) => dropJob k (failWith j.q j.cmd f s)

/-! ### Dispatch (R366, R367) -/

/-- A task above the class ceiling. -/
def State.above (s : State) (t : Task) : Bool :=
  s.bit .dispCtl F.dispCtlEn && decide (s.fld .blwStat F.blwStatCeil < t.cls)
/-- A task has been passed over for AGE_MAX ticks. -/
def State.aged (s : State) (t : Task) : Bool :=
  decide (t.since + max 1 (s.fld .dispCtl F.dispCtlAgeMax) * usTicks ≤ s.now)
/-- The oldest of some tasks. -/
def oldest (ts : List Task) : Option Task :=
  ts.foldl (fun a t => match a with
    | some b => if t.since < b.since then some t else some b
    | none => some t) none
/-- The task belongs to a micro-batch whose tasks Virhan dispatches now (R406), or to none. -/
def State.mayRun (s : State) (t : Task) : Bool := (tabFind s.hif.jobs t.job).all fun j => microRuns s j.q
/-- The task that a core runs next (R367). -/
def State.pick (s : State) (n : Nat) : Option Task :=
  let ts := (tabGet [] s.hif.tasks n).filter s.mayRun
  let late := ts.filter fun t => s.above t && s.aged t
  let ready := ts.filter fun t => !s.above t
  ((oldest late).or (oldest (ready.filter Task.prio))).or (oldest ready)
/-- The task uses the arrays. -/
def State.onArrays (s : State) (t : Task) : Bool :=
  match tabFind s.hif.jobs t.job with
  | none => false
  | some j =>
    j.op == 3 || (j.op == 4 && t.unit == 1) || ((j.op == 1 || j.op == 2) && (probAt j.plans 0 t.unit).any fun x => !x.2.2.1.fife)
/-- A task leaves a core. -/
def dropTask (n : Nat) (t : Task) (s : State) : State :=
  { s with hif := { s.hif with tasks := tabSet s.hif.tasks n ((tabGet [] s.hif.tasks n).erase t) } }
/-- A task's unit returns to the retry list of its job (R354). -/
def retryTask (n : Nat) (t : Task) (s : State) : State :=
  let s := dropTask n t s
  match tabFind s.hif.jobs t.job with
  | none => s
  | some j => s.setJob t.job { j with retry := j.retry ++ [t.unit] }
/-- TASK_DISPATCH (R366, R367): a unit whose engine is fenced returns to the retry list; audits that wait
behind high-priority work of the arrays are counted (R194). -/
def taskDispatch (n : Nat) (s : State) : State :=
  if s.fld (.coreMap n) F.coreMapState ≠ 0 then s
  else match s.pick n with
  | none => s
  | some t =>
    if s.onArrays t && (List.range 4).all (s.fenced n) then retryTask n t s
    else
      let s := dropTask n t s
      let audits := (tabGet [] s.hif.tasks n).filter fun x => !x.prio
      let s := s.doIf (t.prio && s.onArrays t) (·.bump (.picStat n) F.picStatDeferred audits.length)
      runUnit t.job (fun j => unitRun n none j t.unit) s

/-! ### Re-runs (R478) -/


/-- TILE_RERUN (R478): the next task of a core meets a poisoned unit; the re-run works, or its two re-runs
meet a detection again and its results are poisoned. -/
def tileRerun (n : Nat) (repaired : Bool) (s : State) : State :=
  match s.pick n with
  | none => s
  | some t =>
    if repaired then countDetections n 1 (retryTask n t s)
    else match tabFind s.hif.jobs t.job with
    | none => s
    | some j =>
      let e : Err := { src := srcOf 1 n 8, code := ecDetectSram, fw := true, detail := [(32, 1, 1), (33, 1, 2)] }
      let s := countDetections n 3 ((dropTask n t s).raise e)
      let s := s.modCmd j.q j.cmd fun c => { c with taint := true, poison := true, info := if c.info = 0 then e.code + 256 * e.word else c.info }
      let s := runUnit t.job (fun j => unitTainted n j t.unit) s
      s.modCmd j.q j.cmd fun c => { c with taint := false }

/-- ABFT_TILE_RERUN (R83, R342): the tile is discarded and a column scan asked for; the command whose unit the core
has in hand, if it uses the arrays, completes with status 1 once its re-run has succeeded. -/
def abftRerun (n m t : Nat) (s : State) : State :=
  let hit := ((s.mxe n m).tile t).abft
  let word := s.ringDetail n ecAbftMismatch
  let s := abftTileRerun n m t s
  match if hit then s.pick n else none with
  | none => s
  | some k => match tabFind s.hif.jobs k.job with
    | some j => s.doIf (s.onArrays k) (noteInfo j.q j.cmd ecAbftMismatch word)
    | none => s

/-! ### Recomputation (R359) -/

/-- A descriptor covers a handle. -/
def Desc.covers (d : Desc) (h : Nat) : Bool := !d.raw && decide (d.h ≤ h ∧ h < d.h + d.span)
/-- The units whose output blocks hold a handle's tile. -/
def Job.unitsFor (j : Job) (h : Nat) : List Nat :=
  if j.op = 1 ∨ j.op = 2 then (List.range j.units).filter fun u =>
    (probAt j.plans 0 u).any fun x =>
      let (_, p, pl, v) := x
      let (mb, nb, _) := pl.decode v
      let rs := j.epi.any EpiEnt.isRowstat
      let (ms, ns) := pl.members rs (pl.group rs mb nb)
      let r0 := ms.headD 0 * pl.mc / 128
      let r1 := ceilDiv (min p.m ((ms.getLastD 0 + 1) * pl.mc)) 128
      let c0 := ns.headD 0 * pl.nf / 128
      let c1 := ceilDiv (min p.n ((ns.getLastD 0 + 1) * pl.nf)) 128
      (List.range (r1 - r0)).any fun r => (List.range (c1 - c0)).any fun c => p.c.hd p.ic (r0 + r) (c0 + c) == h
  else List.range j.units
/-- Every input tile still holds its VERSION, and none is poisoned; a RAW input has no VERSION. -/
def Job.inputsKept (j : Job) (s : State) : Bool :=
  j.ins.all fun x => decide (x.1 < 2 ^ 24) && (s.dirEnt x.1).version == x.2 && !(s.dirEnt x.1).poison
/-- The record of a recomputation (R489). -/
def recomputed (how h : Nat) (s : State) : State :=
  s.raise { src := virSrc, code := ecRecomputed, fw := true, detail := [(32, 1, how), (36, 4, h)] }
/-- RECOMPUTE (R359): the newest command that wrote the poisoned tile runs again over its output blocks, or
the tensor is reported for a checkpoint reload. -/
def recompute (h : Nat) (s : State) : State :=
  let e := s.dirEnt h
  if !e.valid ∨ !e.poison then s
  else
    match s.hif.recomp.reverse.find? fun j => j.outs.any fun d => d.recomp && d.covers h with
    | none => recomputed 1 h s
    | some j =>
      if !j.inputsKept s then recomputed 1 h s
      else
        let j := { j with parts := [] }
        match (((j.unitsFor h).foldlM (unitRun s.picCore (some h)) j).run).run s with
        | (.ok _, s) => recomputed 0 h s
        | (.error _, s) => recomputed 1 h s

/-! ### The commands -/

/-- GEMM (R344, R351-R357). -/
def execGemm (q : QpId) (ts : Fin 1024) (s : State) : Host.Outcome State Fault Refusal := run (tensorStart 0x01 q ts) s
/-- SPGEMM (R344, R351-R357). -/
def execSpgemm (q : QpId) (ts : Fin 1024) (s : State) : Host.Outcome State Fault Refusal := run (tensorStart 0x02 q ts) s
/-- ATTENTION (R344). -/
def execAttention (q : QpId) (ts : Fin 1024) (s : State) : Host.Outcome State Fault Refusal := run (tensorStart 0x03 q ts) s
/-- FFN_PREDICTED (R345). -/
def execFfnPredicted (q : QpId) (ts : Fin 1024) (s : State) : Host.Outcome State Fault Refusal := run (tensorStart 0x04 q ts) s
/-- EMBEDDING_BAG (R344). -/
def execEmbeddingBag (q : QpId) (ts : Fin 1024) (s : State) : Host.Outcome State Fault Refusal := run (tensorStart 0x05 q ts) s
/-- ELEMENTWISE (R344, R357). -/
def execElementwise (q : QpId) (ts : Fin 1024) (s : State) : Host.Outcome State Fault Refusal := run (tensorStart 0x06 q ts) s
/-- REDUCE (R344). -/
def execReduce (q : QpId) (ts : Fin 1024) (s : State) : Host.Outcome State Fault Refusal := run (tensorStart 0x07 q ts) s
/-- QUANTIZE (R344). -/
def execQuantize (q : QpId) (ts : Fin 1024) (s : State) : Host.Outcome State Fault Refusal := run (tensorStart 0x08 q ts) s
/-- COPY (R344). -/
def execWcsCopy (q : QpId) (ts : Fin 1024) (s : State) : Host.Outcome State Fault Refusal := run (tensorStart 0x11 q ts) s
/-- ABFT_TILE_RERUN (R83). -/
def execAbftTileRerun (n : CoreId) (m : MxeId) (tile : Fin 8) (s : State) :
    Host.Outcome State Fault Refusal := runCore n (abftRerun n m tile) s
/-- TILE_UNIT_CLAIM (R354). -/
def execTileUnitClaim (n : CoreId) (job : Nat) (s : State) : Host.Outcome State Fault Refusal := run (tileUnitClaim n job) s
/-- TASK_DISPATCH (R366, R367). -/
def execTaskDispatch (n : CoreId) (s : State) : Host.Outcome State Fault Refusal := run (taskDispatch n) s
/-- TILE_RERUN (R478). -/
def execTileRerun (n : CoreId) (repaired : Bool) (s : State) : Host.Outcome State Fault Refusal :=
  run (tileRerun n repaired) s
/-- RECOMPUTE (R359). -/
def execRecompute (h : BitVec 24) (s : State) : Host.Outcome State Fault Refusal := run (recompute h.toNat) s

end Sys2Proof.Machine
end

