-- ==== Sys2Proof/Machine/Place.lean ====
section
/-! DEFINITION. The placement service (spec/11, R364, R365): what one placement interval moves between the
stacks and the Orangery. -/

namespace Sys2Proof.Machine

/-- A tile in a directory cache: handle, growth of ACCESS since the last interval, bytes. -/
structure Heat where
  h : Nat
  growth : Nat
  bytes : Nat
  deriving DecidableEq, Repr

/-- Every cache-resident entry, with the growth of its ACCESS (R364). -/
def State.heats (s : State) : List Heat :=
  (List.range 8).flatMap fun k => (s.gh k).cache.map fun e =>
    ⟨e.1 * 8 + k, e.2.access - tabGet 0 s.hif.access (e.1 * 8 + k), e.2.len * 64⟩
/-- Hotter before colder; the lower handle first among equals. -/
def hotter (a b : Heat) : Bool := decide (b.growth < a.growth ∨ (a.growth = b.growth ∧ a.h ≤ b.h))
/-- A tile's bytes lie in the Orangery. -/
def State.inOrg (s : State) (h : Nat) : Bool := isOrangery (canon (s.dirEnt h).da)
/-- The stack that holds a tile; 8 for none. -/
def State.stackOf (s : State) (h : Nat) : Nat :=
  match placeOf (canon (s.dirEnt h).da) with
  | .stack k _ => k
  | _ => 8
/-- Tiles that the service holds in the Orangery, or is copying there. -/
def State.orgTiles (s : State) : List Nat :=
  s.hif.org.filter fun h => s.inOrg h || ((tabFind (s.gh (h % 8)).migs h).any fun da => isOrangery (canon da))
/-- Bytes of the Orangery that the service fills. -/
def State.orgUse (s : State) : Nat := s.orgTiles.foldl (fun a h => a + (s.dirEnt h).len * 64) 0
/-- What an interval still has to give: places in the Orangery, bytes to move, bytes of the budget. -/
structure PlaceRun where
  s : State
  places : List Nat
  left : Nat
  room : Nat
  want : Nat

/-- A hot tile goes to the Orangery (R364, step 2), while places, MIG_MAX and the budget last; what does not
fit the budget asks for space. -/
def placeHot (r : PlaceRun) (t : Heat) : PlaceRun :=
  match r.places with
  | [] => r
  | p :: ps =>
    if !r.s.movable t.h ∨ r.s.inOrg t.h ∨ r.left < t.bytes ∨ 2 ^ 28 < p * 64 + t.bytes then r
    else if r.room < t.bytes then { r with want := r.want + t.bytes }
    else
      let s := migCopy t.h (orgBase + p * 64) r.s
      { r with s := { s with hif := { s.hif with org := (s.hif.org ++ [t.h]).dedup } }, places := ps
               left := r.left - t.bytes, room := r.room - t.bytes }
/-- An Orangery tile returns to its home stack while space is asked for (R364, step 3). -/
def placeCold (r : PlaceRun) (t : Heat) : PlaceRun :=
  if r.want = 0 ∨ r.left < t.bytes ∨ !r.s.movable t.h ∨ !r.s.inOrg t.h then r
  else { r with s := migStart t.h (t.h % 8) r.s, left := r.left - t.bytes, want := r.want - t.bytes }
/-- A tile of the busiest stack moves to the local view of the least-loaded one (R364, step 4). -/
def placeOut (dst : Nat) (r : PlaceRun) (t : Heat) : PlaceRun :=
  if r.left < t.bytes ∨ !r.s.movable t.h then r
  else { r with s := migStart t.h dst r.s, left := r.left - t.bytes }
/-- Bytes resolved in a stack since the last interval. -/
def stackLoad (s : State) (ts : List Heat) (k : Nat) : Nat :=
  (ts.filter fun t => s.stackOf t.h == k).foldl (fun a t => a + t.growth * t.bytes) 0
/-- Step 4 of R364: every stack that exceeded the mean of the eight by 25 % or more. -/
def rebalance (ts : List Heat) (r : PlaceRun) : PlaceRun :=
  let loads := (List.range 8).map (stackLoad r.s ts)
  let sum := loads.foldl (· + ·) 0
  let dst := (List.range 8).foldl (fun b k => if ix loads k < ix loads b then k else b) 0
  (List.range 8).foldl (fun r k =>
    if sum = 0 ∨ 4 * 8 * ix loads k < 5 * sum then r
    else (ts.filter fun t => r.s.stackOf t.h == k).foldl (placeOut dst) r) r
/-- PLACEMENT_INTERVAL (R364, R365); `places` are the places in the Orangery, in units, that Virhan takes for
the tiles it moves there. -/
def placementInterval (places : List Nat) (s : State) : State :=
  if !s.bit .placeCtl F.placeCtlEn || !s.ready then s
  else
    let s := (List.range 8).foldl (fun s k => dirFlush k s) s
    let ts := s.heats.mergeSort hotter
    let s := { s with hif := { s.hif with
        abandoned := [], sram := [], org := s.orgTiles
        access := ts.foldl (fun a (t : Heat) => tabSet a t.h (s.dirEnt t.h).access) s.hif.access } }
    let s := s.bump .placeStat F.placeStatIntervals 1
    let hot := s.fld .placeCtl F.placeCtlHotMin
    let budget := min 256 (s.fld .placeCtl F.placeCtlOrgBudget) * 2 ^ 20
    let use := s.orgUse
    let r : PlaceRun := ⟨s, places, s.fld .placeCtl F.placeCtlMigMax * 2 ^ 20, budget - use, use - budget⟩
    let r := (ts.filter fun t => decide (hot ≤ t.growth)).foldl placeHot r
    let r := if budget < use then ts.reverse.foldl placeCold r
      else (ts.reverse.filter fun t => decide (4 * t.growth < hot)).foldl placeCold r
    if s.bit .placeCtl F.placeCtlRebal then (rebalance ts r).s else r.s
/-- PLACEMENT_INTERVAL (R364, R365). -/
def execPlacementInterval (places : List (BitVec 22)) (s : State) : Host.Outcome State Fault Refusal :=
  run (placementInterval (places.map BitVec.toNat)) s

end Sys2Proof.Machine
end

