-- ==== Sys2Proof/Machine/Collect.lean ====
section
/-! DEFINITION. The Consort engine (spec/12, R396-R413): collectives, their conversions and reductions,
re-shards, barriers, global turnstile sets, aborts; and the step boundary (spec/11, R350). -/

namespace Sys2Proof.Machine

/-! ### The command (R396) -/

/-- SOURCE of the Consort engine. -/
def csrtSrc : Nat := srcOf 9 0 0
/-- The fields of a COLLECTIVE (R396). -/
structure Coll where
  src : Nat
  dst : Nat
  count : Nat
  op : Nat
  red : Nat
  st : Nat
  dt : Nat
  group : Nat
  ackto : Nat
  version : Nat
  vchk : Bool
  ncols : Nat
  aux : Nat
  wait : Nat
  deriving DecidableEq, Repr
/-- The fields of a command's words. -/
def collOf (c : WcsCmd) : Coll :=
  { src := bitsOf (c.w 1) 47 0, dst := bitsOf (c.w 2) 47 0, count := bitsOf (c.w 3) 31 0, op := bitsOf (c.w 3) 35 32,
    red := bitsOf (c.w 3) 37 36, st := bitsOf (c.w 3) 43 40, dt := bitsOf (c.w 3) 47 44, group := bitsOf (c.w 3) 55 48,
    ackto := bitsOf (c.w 3) 62 56, version := bitsOf (c.w 4) 31 0, vchk := bitAt (c.w 4) 32,
    ncols := bitsOf (c.w 4) 47 36, aux := bitsOf (c.w 5) 47 0, wait := bitsOf (c.w 6) 31 0 }
/-- Members of a group, in rank order. -/
def State.members (s : State) (g : Nat) : List Nat := tabGet [] s.net.groups g
/-- This device's rank in a group. -/
def State.rankIn (s : State) (g : Nat) : Nat := (s.members g).idxOf s.devid

/-- The type pairs of R399. -/
def pairOk (op red st dt : Nat) : Bool :=
  if op ≤ 1 then
    if red = 3 then op == 0 && st == etFp32 && dt == etFp32
    else ((st == etFp32 || st == etInt32) && dt == st) || (st == etBf16 && (dt == etBf16 || dt == etFp32))
  else (decide (st ≤ 6) && dt == st) || (st == etInt4 && dt == etInt8) ||
    (decide (st ≤ 3) && (dt == etBf16 || dt == etFp32)) || (st == etBf16 && dt == etFp32)
/-- The conversion needs column parameters. -/
def Coll.widens (k : Coll) : Bool := decide (2 ≤ k.op ∧ k.op ≤ 4 ∧ k.st ≤ 3) && (k.dt == etBf16 || k.dt == etFp32)
/-- The OP needs a table: G entries, or COUNT of them. -/
def Coll.tableLen (k : Coll) (g : Nat) : Nat :=
  match k.op with
  | 3 => 4 * g
  | 4 => 2 * g
  | 15 => 2 * k.count
  | _ => 0
/-- Bits of an element as it is sent: pairs for MAXIDX. -/
def Coll.sbits (k : Coll) : Nat := if k.op ≤ 1 ∧ k.red = 3 then 64 else etBits k.st
def Coll.dbits (k : Coll) : Nat := if k.op ≤ 1 ∧ k.red = 3 then 64 else etBits k.dt
/-- Bytes of n elements. -/
def bytesFor (bits n : Nat) : Nat := ceilDiv (bits * n) 8
/-- Table and parameter addresses of the auxiliary block. -/
def State.auxTable (s : State) (k : Coll) : Nat := bitsOf (s.rdN k.aux 8) 47 0
def State.auxParam (s : State) (k : Coll) : Nat := bitsOf (s.rdN (k.aux + 8) 8) 47 0
/-- Entry i of a table of n-byte entries. -/
def State.entry (s : State) (k : Coll) (n i : Nat) : Nat := s.rdN (s.auxTable k + n * i) n
/-- Elements this device sends to rank r, and where they begin (R396, R397). -/
def State.sendCount (s : State) (k : Coll) (r : Nat) : Nat := s.entry k 4 r
def State.sendAt (s : State) (k : Coll) (r : Nat) : Nat := (List.range r).foldl (fun a i => a + s.sendCount k i) 0
/-- Elements of SRC, and of DST where the command tells. -/
def State.srcElems (s : State) (k : Coll) (g : Nat) : Nat := if k.op = 3 then s.sendAt k g else k.count
def dstElems (k : Coll) (g r : Nat) : Nat :=
  match k.op with
  | 1 => min k.count ((r + 1) * ceilDiv k.count g) - r * ceilDiv k.count g
  | 2 => g * k.count
  | 3 => 0
  | _ => k.count

/-- The checks on the auxiliary block (R396, R397). -/
def checkAux (q : Nat) (c : WcsCmd) (k : Coll) (g : Nat) : Act Unit := do
  let t := k.tableLen g
  let bad := fun (code i low : Nat) => decFail q code (c.w i) i low
  let needs := k.op == 3 || k.op == 4 || k.op == 15
  failWhen (k.aux == 0 && (needs || k.widens)) (bad ecDescFormat 5 0)
  if k.aux = 0 then pure ()
  else
    let s ← actState
    failWhen (s.reach k.aux 64 != 0) (reachFail s k.aux 64 (bad ecDescRange 5 0))
    touchAct k.aux 64
    let s ← actState
    let w := fun i => s.rdN (k.aux + 8 * i) 8
    match (List.range 8).find? fun i => (if i < 2 then bitsOf (w i) 63 48 else w i) ≠ 0 with
    | some i => throw (decFail q ecDescFormat (w i) i (if i < 2 then 48 else 0))
    | none => pure ()
    failWhen (needs && bitsOf (w 0) 47 0 == 0) (decFail q ecDescFormat (w 0) 0 0)
    failWhen (k.widens && bitsOf (w 1) 47 0 == 0) (decFail q ecDescFormat (w 1) 1 0)
    failWhen (needs && s.reach (s.auxTable k) t != 0) (reachFail s (s.auxTable k) t (decFail q ecDescRange (w 0) 0 0))
    failWhen (k.widens && s.reach (s.auxParam k) (8 * k.ncols) != 0)
      (reachFail s (s.auxParam k) (8 * k.ncols) (decFail q ecDescRange (w 1) 1 0))
    if needs then touchAct (s.auxTable k) t else pure ()
    let s ← actState
    if k.op = 4 then
      let ds := (List.range g).map (s.entry k 2)
      failWhen ((List.range g).any fun r => !ds.contains r) (decFail q ecDescFormat (w 0) 0 0)
    else if k.op = 15 then
      let ds := (List.range k.count).map (s.entry k 2)
      failWhen (ds.any fun d => decide (4096 ≤ d)) (decFail q ecDescRange (w 0) 0 0)
      failWhen (decide (ds.dedup.length < ds.length) || !ds.contains s.devid) (decFail q ecDescFormat (w 0) 0 0)
    else pure ()
/-- Decode of a COLLECTIVE (R396, R397). -/
def collDecode (q : Nat) (c : WcsCmd) : Act Unit := do
  let k := collOf c
  let bad := fun (code i low : Nat) => decFail q code (c.w i) i low
  checkFields q c ((if k.op = 6 then [(1, 63, 16)] else [(1, 63, 48), (2, 63, 48)]) ++
    [(3, 39, 38), (3, 63, 63), (4, 35, 33), (4, 63, 48), (5, 63, 48), (6, 63, 32)])
  if k.op ≤ 4 then
    checkDa q c 1 k.src
    checkDa q c 2 k.dst
    failWhen (!pairOk k.op k.red k.st k.dt) (bad ecDescFormat 3 40)
  checkDa q c 5 k.aux
  failWhen (decide (64 < k.ackto)) (bad ecDescRange 3 56)
  failWhen (k.op == 15 && decide (k.count = 0 ∨ 4096 < k.count)) (bad ecDescRange 3 0)
  failWhen (k.widens && k.ncols == 0) (bad ecDescRange 4 36)
  let s ← actState
  failWhen (k.op != 6 && decide (k.group < 8)) (bad ecDescFormat 3 48)
  failWhen (k.op != 6 && k.op != 15 && (s.members k.group).isEmpty) (bad ecDescFormat 3 48)
  let g := (s.members k.group).length
  checkAux q c k g
  if k.op ≤ 4 then
    let n := s.srcElems k g
    let m := dstElems k g (s.rankIn k.group)
    failWhen (n != 0 && s.reach k.src (bytesFor k.sbits n) != 0)
      (reachFail s k.src (bytesFor k.sbits n) (bad ecDescRange 1 0))
    failWhen (m != 0 && s.reach k.dst (bytesFor k.dbits m) != 0)
      (reachFail s k.dst (bytesFor k.dbits m) (bad ecDescRange 2 0))

/-! ### Elements, conversions, reductions (R398, R399, R481) -/

/-- What one member sends: bytes with their poison, elements, column parameters, VERSION, its gang. -/
structure Sent where
  rank : Nat
  gang : Nat
  inGang : Nat
  version : Nat
  n : Nat
  bs : List Byte
  ps : List Bool
  params : List Byte
  pps : List Bool
/-- Element i of some bytes, with its poison. -/
def sentElem (bits : Nat) (x : Sent) (i : Nat) : Nat × Bool :=
  let p := x.ps.getD (i * bits / 512) false
  if bits = 4 then (bitsOf (fieldAt x.bs (i / 2) 1) (i % 2 * 4 + 3) (i % 2 * 4), p) else (fieldAt x.bs (i * bits / 8) (bits / 8), p)
/-- Elements packed into bytes. -/
def packElems (bits : Nat) (xs : List (Nat × Bool)) : List (Byte × Bool) :=
  if bits = 4 then (chunks 2 (ceilDiv xs.length 2) xs).map fun c =>
    (BitVec.ofNat 8 (c.zipIdx.foldl (fun (a : Nat) x => a + x.1.1 % 16 * 16 ^ x.2) 0), c.any Prod.snd)
  else xs.flatMap fun x => (natLe (bits / 8) x.1).map fun b => (b, x.2)
/-- The receive converter (R399): element i of what a member sent. -/
def convElem (k : Coll) (x : Sent) (i : Nat) : Nat × Bool :=
  let (v, p) := sentElem k.sbits x i
  if k.st = k.dt then (v, p)
  else if k.dt = etInt8 then (ux 8 (sx 4 v), p)
  else if k.st = etBf16 then (v * 65536, p)
  else
    let j := i % max 1 k.ncols
    let w := fieldAt x.params (8 * j) 8
    let q := if isIntMode k.st then ofInt (sx (etBits k.st) v - sx 8 (F.mxeWparamZp.of w)) else elemFp k.st v
    let r := fpMul (of32 (F.mxeWparamScale.of w)) q
    (if k.dt = etBf16 then to16 r else to32 r, p || x.pps.getD (8 * j / 64) false)
/-- The pair that MAXIDX keeps (R398). -/
def maxIdx (a b : Nat) : Nat :=
  let x := of32 (a % 2 ^ 32)
  let y := of32 (b % 2 ^ 32)
  if x.isNan && y.isNan then (if b / 2 ^ 32 < a / 2 ^ 32 then b else a)
  else if x.isNan then a
  else if y.isNan then b
  else if fpLt x y then b
  else if fpLt y x then a
  else if b / 2 ^ 32 < a / 2 ^ 32 then b else a
/-- Contributions of one element combined: within sub-gangs in rank order, across them in a balanced tree
(R398); whether an INT32 total saturates. -/
def reduceElem (k : Coll) (subs : List (List Nat)) : Nat × Bool :=
  let fold := fun (f : Nat → Nat → Nat) (l : List Nat) => l.tail.foldl f (l.headD 0)
  let all := subs.flatten
  if k.red = 3 then (fold maxIdx all, false)
  else if k.st = etInt32 then
    if k.red = 0 then
      let t := all.foldl (fun (a : Int) x => a + sx 32 x) 0
      (ux 32 (satI32 t), satI32 t != t)
    else (fold (fun a b => if (sx 32 a < sx 32 b) = (k.red = 1) then b else a) all, false)
  else
    let wide := fun x => if k.st = etBf16 then x * 65536 else x
    let subs := subs.map fun l => l.map wide
    let v := if k.red = 0 then treeSumN subs.length (subs.map (fold add32))
      else fold (if k.red = 1 then max32 else min32) subs.flatten
    (if k.dt = etBf16 then to16 (of32 v) else v, false)
/-- The sub-gangs of the members, as ranks of the group (R398). -/
def subGangs (xs : List Sent) : List (List Nat) :=
  let firsts := (xs.zipIdx.filter fun x => (xs.take x.2).all fun y => y.gang != x.1.gang).map fun x => x.1.gang
  firsts.map fun g =>
    ((xs.filter fun x => x.gang == g).mergeSort fun a b => decide (a.inGang ≤ b.inGang)).map Sent.rank
/-- Reduced elements from a to b − 1, with poison and saturation. -/
def reduced (k : Coll) (xs : List Sent) (a b : Nat) : List (Nat × Bool) × Bool :=
  let subs := subGangs xs
  let es := (List.range (b - a)).map fun i =>
    let el := fun r => match xs.find? fun x => x.rank == r with
      | some x => sentElem k.sbits x (a + i)
      | none => (0, false)
    let r := reduceElem k (subs.map fun l => l.map fun r => (el r).1)
    ((r.1, subs.any fun l => l.any fun r => (el r).2), r.2)
  (es.map Prod.fst, es.any Prod.snd)
/-- Bytes read with their poison. -/
def readBytes (da n : Nat) : Act (List Byte × List Bool) := act fun s =>
  let (us, s) := s.fetchN da (ceilDiv n 64)
  (((bytesOf us).take n, us.map UnitP.poison), s)
/-- This device's own contribution. -/
def ownSent (k : Coll) : Act Sent := do
  let s ← actState
  let g := (s.members k.group).length
  let r := s.rankIn k.group
  let n := s.srcElems k g
  let (bs, ps) ← readBytes k.src (bytesFor k.sbits n)
  let (pr, pps) ← if k.widens then readBytes (s.auxParam k) (8 * k.ncols) else pure ([], [])
  let all : Sent := ⟨r, s.fld .chipNode F.chipNodeGang, s.fld .chipNode F.chipNodeRank, k.version, n, bs, ps, pr, pps⟩
  if k.op = 3 then
    let es := packElems k.sbits ((List.range (s.sendCount k r)).map fun i => sentElem k.sbits all (s.sendAt k r + i))
    pure { all with n := s.sendCount k r, bs := es.map Prod.fst, ps := (chunks 64 (ceilDiv es.length 64) es).map fun c => c.any Prod.snd }
  else pure all
/-- What another member sent. -/
def sentOf (c : Contribution) : Sent :=
  ⟨c.rank, c.gang, c.inGang, c.version, c.count, c.data, c.poison, c.params, []⟩
/-- Every member's contribution, in rank order. -/
def allSent (k : Coll) (peers : List Contribution) : Act (List Sent) := do
  let own ← ownSent k
  let s ← actState
  pure ((List.range (s.members k.group).length).filterMap fun r =>
    if r = s.rankIn k.group then some own else (peers.find? fun p => p.rank == r).map sentOf)
/-- Converted elements to an address: 64-byte units are poisoned where a poisoned unit contributed. -/
def writeElems (q id da bits : Nat) (xs : List (Nat × Bool)) : Act Unit := act fun s =>
  let es := packElems bits xs
  let ps := (chunks 64 (ceilDiv es.length 64) es).map fun c => c.any Prod.snd
  let s := if es.isEmpty then s else rmwPieces true da (es.map Prod.fst) ps s
  ((), s.doIf (ps.contains true) fun s => s.modCmd q id fun c => { c with poison := true })

/-! ### Aborts and the end of a collective (R401, R409) -/

/-- The started collective of a queue that has not completed. -/
def State.collWaiting (s : State) (q : Nat) : Option WcsCmd :=
  (s.qp q).cmds.find? fun c => c.op == 0x10 && c.started && !c.done
/-- CSTEP abort to every other member (R401). -/
def sendAborts (g step code : Nat) (s : State) : State :=
  (s.members g).foldl (fun s d =>
    if d = s.devid then s else s.send d (.cstep g s.net.serial step true code) false none) s
/-- The destination of an aborted collective is undefined (R401): as long as this device can tell, with ALL_TO_ALL as
long as what it sends. -/
def collLost (k : Coll) (s : State) : State :=
  let g := (s.members k.group).length
  let m := if k.op = 3 then s.srcElems k g else dstElems k g (s.rankIn k.group)
  if k.op ≤ 4 then loseRange k.dst (bytesFor k.dbits m) s else s
/-- Abort of a collective by this device, with its record. -/
def abortOwn (q : Nat) (c : WcsCmd) (step : Nat) (e : Err) (s : State) : State :=
  failCmd q c.id e (collLost (collOf c) (sendAborts (collOf c).group step e.code s))
/-- COLL_TIMEOUT with a peer and a step. -/
def timeoutErr (g peer step : Nat) (s : State) : Err :=
  { src := csrtSrc, code := ecCollTimeout, peer := peer, detail := [(32, 1, g), (36, 4, s.net.serial), (40, 2, step)] }
/-- An abort concerns a collective: one of its group, or the loss of one of its members. -/
def abortHits (s : State) (g : Nat) (a : CollAbort) : Bool :=
  match a.group with
  | some h => h == g
  | none => (s.members g).contains a.dev
/-- Aborts that have arrived end the collectives that they concern (R401); a lost member ends one with this
device's own abort. -/
def collSweep (s : State) : State :=
  let hit := fun (s : State) (q : Nat) => (s.collWaiting q).bind fun c =>
    (s.net.aborts.find? (abortHits s (collOf c).group)).map fun a => (c, a)
  let used := s.net.aborts.filter fun a => a.group.isNone || (List.range 64).any fun q =>
    (s.collWaiting q).any fun c => abortHits s (collOf c).group a
  let s := (List.range 64).foldl (fun s q => match hit s q with
    | some (c, a) =>
      endCmd q c.id ⟨3, a.code, 0⟩ (collLost (collOf c) (s.doIf a.group.isNone (sendAborts (collOf c).group 0 a.code)))
    | none => s) s
  s.modNet fun n => { n with aborts := n.aborts.filter fun a => !used.contains a }
/-- SHARD_STALE (R409): the first member, in rank order, whose stamp differs. -/
def staleOf (k : Coll) (xs : List Sent) : Option Sent :=
  if k.vchk then xs.find? fun x => x.version != k.version else none
/-- SHARD_STALE is raised and the collective aborted. -/
def abortStale (q : Nat) (c : WcsCmd) (x : Sent) (s : State) : State :=
  let s := s.doIf c.gathers (microStale q)
  let s := s.bump .csrtStat F.csrtStatStale 1
  abortOwn q c 0 { src := csrtSrc, code := ecShardStale, peer := peerField ((s.members (collOf c).group).getD x.rank 0),
                   detail := [(32, 4, x.version), (36, 4, (collOf c).version)] } s
/-- A collective is done. -/
def collDone (q id : Nat) : Act Unit := act fun s => ((), finishCmd q id (s.bump .csrtStat F.csrtStatDone 1))

/-! ### Data collectives (R398, R399) -/

/-- The result of a collective from all contributions. -/
def collWrite (q : Nat) (c : WcsCmd) (k : Coll) (xs : List Sent) : Act Unit := do
  let s ← actState
  let g := (s.members k.group).length
  let r := s.rankIn k.group
  match k.op with
  | 0 | 1 =>
    let ch := ceilDiv k.count g
    let (a, b) := if k.op = 0 then (0, k.count) else (r * ch, min k.count ((r + 1) * ch))
    let (es, sat) := reduced k xs a b
    let _ ← act fun s => ((), s.doIf sat (noteInfo q c.id ecAccSatFinal 0))
    writeElems q c.id k.dst k.dbits es
  | 2 => writeElems q c.id k.dst k.dbits (xs.flatMap fun x => (List.range k.count).map (convElem k x))
  | 3 =>
    let es := xs.flatMap fun x => (List.range x.n).map (convElem k x)
    failWhen (!es.isEmpty && s.reach k.dst (bytesFor k.dbits es.length) != 0)
      (reachFail s k.dst (bytesFor k.dbits es.length) (decFail q ecDescRange (c.w 2) 2 0))
    writeElems q c.id k.dst k.dbits es
  | _ =>
    match xs.find? fun x => s.entry k 2 x.rank == r with
    | some x => writeElems q c.id k.dst k.dbits ((List.range k.count).map (convElem k x))
    | none => pure ()
/-- All members have contributed. -/
def State.joined (s : State) (k : Coll) (peers : List Contribution) : Bool :=
  (List.range (s.members k.group).length).all fun r => r == s.rankIn k.group || peers.any fun p => p.rank == r
/-- A collective moves its data and completes. -/
def collFinish (q : Nat) (c : WcsCmd) (peers : List Contribution) (s : State) : State :=
  let k := collOf c
  match ((allSent k peers).run).run s with
  | (.error f, s) => failWith q c.id f s
  | (.ok xs, s) =>
    match staleOf k xs with
    | some x => abortStale q c x s
    | none => microGo (runAct q c.id (do
        collWrite q c k xs
        collDone q c.id) s)
/-- A started collective whose members have all joined completes; one that waits stays. -/
def collTry (q : Nat) (peers : List Contribution) (s : State) : State :=
  match s.collWaiting q with
  | some c => if s.joined (collOf c) peers && !s.d3Full then collFinish q c peers s else s
  | none => s
/-- A COLLECTIVE starts (R396): its serial number, its plan record, and what needs no other member. -/
def collStart (op q : Nat) (go : WcsCmd → State → State) (s : State) : State :=
  startNext q (fun c => c.op == 0x10 && (collOf c).op == op) (fun c s =>
    match ((collDecode q c).run).run s with
    | (.error f, s) => failWith q c.id f s
    | (.ok _, s) =>
      let s := s.modNet fun n => { n with serial := (n.serial + 1) % 2 ^ 32 }
      let s := s.doIf c.gathers (microReplay q)
      let s := s.doIf c.trace (·.putUnits (c.w 7) [⟨planBytes 0 0 0 0 0 0 0 4 0 1 0 0 0 s.coreMask 0, false⟩])
      collSweep (go c s)) s
/-- ALL_REDUCE, REDUCE_SCATTER, ALL_GATHER, ALL_TO_ALL, PERMUTE: the started command, or the next one. A
PERMUTE onto its own source is recorded as a re-shard (R407). The reduce-scatter of a step's gradients waits for the
last micro-batch (R405). -/
def collData (op q : Nat) (peers : List Contribution) (s : State) : State :=
  let s := collSweep s
  match s.collWaiting q with
  | some c => if (collOf c).op = op then collTry q peers s else s
  | none => if op = 1 ∧ microBusy s q then s else collTry q peers (collStart op q (fun c s =>
      let k := collOf c
      if k.op = 4 ∧ k.src = k.dst then
        finishCmd q c.id (s.modQp q fun x => { x with reshards := x.reshards ++ [c.ws] })
      else if k.count = 0 ∧ k.op ≠ 3 then finishCmd q c.id (s.bump .csrtStat F.csrtStatDone 1)
      else s) s)

/-! ### BARRIER, GTURN_SET, DEFINE_GROUP (R397, R412, R413) -/

/-- The members of a group are one sub-gang. -/
def State.oneGang (s : State) (g : Nat) : Bool := (s.members g).all fun d => d == s.devid || (s.peer d).inGang
/-- ROLE of this device: 0 worker, 1 group manager, 2 root. -/
def State.role (s : State) : Nat := s.fld .chipNode F.chipNodeRole
/-- Where a device's arrival goes: to its group manager, from there to the root. -/
def State.manager (s : State) : Nat :=
  if s.role = 0 then ((s.net.peers.filter fun p => p.2.alive && p.2.role == 1).map Prod.fst).headD s.rootDev else s.rootDev
/-- Generation of a group's barriers. -/
def State.barGenOf (s : State) (g : Nat) : Nat := tabGet 0 s.net.barGen g
/-- Barrier messages of a generation. -/
def State.barMsgs (s : State) (g n : Nat) (rel : Bool) : List BarMsg :=
  s.net.barriers.filter fun b => b.group == g && b.gen == n && b.release == rel
/-- The root releases a generation once every member's arrival is in; a group manager passes on what it
receives. -/
def barRelay (g n from_ : Nat) (rel : Bool) (s : State) : State :=
  let others := (s.members g).filter fun d => d != s.devid && d != from_
  if s.oneGang g then s
  else if s.role = 2 ∧ !rel then
    if s.members g ≠ [] ∧ (s.members g).length ≤ (s.barMsgs g n false).length then
      let s := others.foldl (fun s d => s.send d (.barrier g n true) false none) s
      let s := s.doIf (decide (from_ ≠ s.devid)) fun s => s.send from_ (.barrier g n true) false none
      s.modNet fun t => { t with
        barriers := (t.barriers.filter fun b => !(b.group == g && b.gen == n)) ++ [⟨g, n, s.devid, true⟩] }
    else s
  else if s.role = 1 ∧ from_ ≠ s.devid then
    if rel then (others.filter fun d => d != s.rootDev).foldl (fun s d => s.send d (.barrier g n true) false none) s
    else s.send s.rootDev (.barrier g n false) false none
  else s
/-- This device arrives at a barrier (R412). -/
def barArriveAt (g : Nat) (s : State) : State :=
  let n := s.barGenOf g
  if s.oneGang g then
    (s.members g).foldl (fun s d => if d = s.devid then s else s.send d (.barrier g n false) false none) s
  else if s.role = 2 then
    barRelay g n s.devid false (s.modNet fun t => { t with barriers := t.barriers ++ [⟨g, n, s.devid, false⟩] })
  else s.send s.manager (.barrier g n false) false none
/-- Every member has arrived: their arrivals in a sub-gang, else the release. -/
def State.barOpen (s : State) (g : Nat) : Bool :=
  let n := s.barGenOf g
  if s.oneGang g then
    (s.members g).all fun d => d == s.devid || (s.barMsgs g n false).any fun b => b.dev == d
  else !(s.barMsgs g n true).isEmpty
/-- The barrier of a queue completes when it is open. -/
def barTry (q : Nat) (s : State) : State :=
  match s.collWaiting q with
  | some c =>
    let g := (collOf c).group
    if (collOf c).op = 5 ∧ s.barOpen g ∧ !s.d3Full then
      let n := s.barGenOf g
      let s := s.modNet fun t => { t with
        barriers := t.barriers.filter fun b => !(b.group == g && b.gen == n)
        barGen := tabSet t.barGen g ((n + 1) % 2 ^ 32) }
      finishCmd q c.id (s.bump .csrtStat F.csrtStatDone 1)
    else s
  | none => s
/-- BARRIER (R412): it starts, or completes once open. -/
def collBarrier (q : Nat) (s : State) : State :=
  let s := collSweep s
  match s.collWaiting q with
  | some _ => barTry q s
  | none => barTry q (collStart 5 q (fun c s => barArriveAt (collOf c).group s) s)
/-- GTURN_SET (R413): the root writes VALUE and LIMIT. -/
def gturnSet (q : Nat) (s : State) : State :=
  collStart 6 q (fun c s =>
    let s := s.doIf (decide (s.role = 2)) (·.setGturn (bitsOf (c.w 1) 15 0) ⟨bitsOf (c.w 2) 31 0, bitsOf (c.w 2) 63 32⟩)
    finishCmd q c.id (s.bump .csrtStat F.csrtStatDone 1)) s
/-- DEFINE_GROUP (R396, R397). -/
def defineGroup (q : Nat) (s : State) : State :=
  collStart 15 q (fun c s =>
    let k := collOf c
    let ds := (List.range k.count).map (s.entry k 2)
    let s := s.modNet fun n => { n with groups := tabSet n.groups k.group ds }
    finishCmd q c.id (s.bump .csrtStat F.csrtStatDone 1)) s

/-! ### The step boundary (R350) and re-shards (R407, R408) -/

/-- The command at the head of a queue that has completed and closes a step. -/
def State.atBoundary (s : State) (q : Nat) : Option WcsCmd :=
  match (s.qp q).cmds with
  | c :: _ => if c.done && c.stepEnd then some c else none
  | [] => none
/-- The commits of a step (R350): ascending slots, one for each FABRIC_CLK cycle. -/
def stepCommits (q : Nat) (s : State) : State :=
  match s.atBoundary q with
  | none => s
  | some _ =>
    let ks := (s.qp q).slots.mergeSort
    let s := ks.foldl (fun s k => (commitSlot k s).advance (s.now + fabTicks)) s
    (ks.foldl (fun s k => commitComplete k s) s).modQp q fun x => { x with slots := [] }
/-- One recorded re-shard: this device's shard becomes the one of its predecessor in the cycle; all sends
read the data from before. -/
def reshardOne (q : Nat) (ws : List Word) (peers : List Contribution) (s : State) : State :=
  let c : WcsCmd := { id := s.hif.nextCmd, ws := ws }
  let k := collOf c
  let r := s.rankIn k.group
  let n := (s.members k.group).length
  let src := ((List.range n).find? fun i => s.entry k 2 i == r).getD r
  let drop := fun (s : State) => s.modQp q fun x => { x with reshards := x.reshards.drop 1 }
  if src = r then drop (progDone 5 0 (progStart 5 s))
  else match peers.find? fun p => p.rank == src with
  | none => s
  | some p => match staleOf k [sentOf p] with
    | some x =>
      let s := drop (s.bump .csrtStat F.csrtStatStale 1)
      let e : Err := { src := csrtSrc, code := ecShardStale, peer := peerField ((s.members k.group).getD x.rank 0), detail := [(32, 4, x.version), (36, 4, k.version)] }
      collLost k (sendAborts k.group 0 e.code (s.raise e))
    | none =>
      let s := progStart 5 s
      let s := runAct q c.id (writeElems q c.id k.dst k.dbits ((List.range k.count).map (convElem k (sentOf p)))) s
      drop (progDone 5 (bytesFor k.dbits k.count) (s.bump .csrtStat F.csrtStatDone 1))
/-- RESHARD_EXECUTE (R350, R407, R408): the oldest recorded re-shard, after the step's commits. -/
def reshardExecute (q : Nat) (peers : List Contribution) (s : State) : State :=
  match s.atBoundary q, (s.qp q).reshards with
  | some _, ws :: _ => reshardOne q ws peers (stepCommits q s)
  | _, _ => s
/-- STEP_BOUNDARY (R350): the commits, and, once its re-shards are done, the command's completion entry. -/
def stepBoundary (q : Nat) (s : State) : State :=
  match s.atBoundary q with
  | none => s
  | some c =>
    let s := stepCommits q s
    if (s.qp q).reshards ≠ [] ∨ s.d3Full then s
    else match c.fin with
    | none => s
    | some e =>
      let s := placeBoundary (microBoundary q s)
      sweep q (s.modQp q fun x => { x with cmds := x.cmds.drop 1, out := x.out ++ entryOf q c e })

/-! ### Timeouts (R401) -/

/-- A timeout of a queue's collective, or of the re-shard that its step boundary waits for. -/
def collTimeout (q peer step us : Nat) (s : State) : State :=
  match s.collWaiting q with
  | some c =>
    let g := (collOf c).group
    let s := (s.advance (c.since + us * usTicks)).bump .csrtStat F.csrtStatTimeouts 1
    abortOwn q c step (timeoutErr g peer step s) s
  | none => match s.atBoundary q, (s.qp q).reshards with
    | some _, ws :: _ =>
      let k := collOf { id := 0, ws := ws }
      let g := k.group
      let s := s.bump .csrtStat F.csrtStatTimeouts 1
      let e := timeoutErr g peer step s
      (collLost k (sendAborts g step e.code (s.raise e))).modQp q fun x => { x with reshards := x.reshards.drop 1 }
    | _, _ => s
/-- The fields of the collective that a queue waits for. -/
def State.collNow (s : State) (q : Nat) : Option Coll :=
  match s.collWaiting q, (s.qp q).reshards with
  | some c, _ => some (collOf c)
  | none, ws :: _ => if (s.atBoundary q).isSome then some (collOf { id := 0, ws := ws }) else none
  | none, [] => none
/-- COLLECTIVE_STEP_TIMEOUT (R401): ACKTO, or COLL_TIMEOUT when it is 0. -/
def stepTimeout (q peer step : Nat) (s : State) : State :=
  let s := collSweep s
  match s.collNow q with
  | none => s
  | some k =>
    if k.op = 6 ∨ k.op = 15 then s
    else collTimeout q (peerField peer) step (if k.ackto = 0 then s.fld .csrtCtl F.csrtCtlCollTimeout else k.ackto) s
/-- COLLECTIVE_WAIT_TIMEOUT (R401): WAIT elapses. -/
def waitTimeout (q : Nat) (s : State) : State :=
  let s := collSweep s
  match s.collNow q with
  | none => s
  | some k => if k.wait = 0 then s else collTimeout q 0 0 k.wait s

/-! ### The commands -/

/-- ALL_REDUCE (R398). -/
def execAllReduce (q : QpId) (peers : List Contribution) (s : State) : Host.Outcome State Fault Refusal :=
  runNet (collData 0 q peers) s
/-- REDUCE_SCATTER (R398). -/
def execReduceScatter (q : QpId) (peers : List Contribution) (s : State) : Host.Outcome State Fault Refusal :=
  runNet (collData 1 q peers) s
/-- ALL_GATHER (R398). -/
def execAllGather (q : QpId) (peers : List Contribution) (s : State) : Host.Outcome State Fault Refusal :=
  runNet (collData 2 q peers) s
/-- ALL_TO_ALL (R397, R399). -/
def execAllToAll (q : QpId) (peers : List Contribution) (s : State) : Host.Outcome State Fault Refusal :=
  runNet (collData 3 q peers) s
/-- PERMUTE (R398, R407). -/
def execPermute (q : QpId) (peers : List Contribution) (s : State) : Host.Outcome State Fault Refusal :=
  runNet (collData 4 q peers) s
/-- RESHARD_EXECUTE (R407, R408). -/
def execReshardExecute (q : QpId) (peers : List Contribution) (s : State) : Host.Outcome State Fault Refusal :=
  runNet (reshardExecute q peers) s
/-- COLLECTIVE_BARRIER (R412). -/
def execCollectiveBarrier (q : QpId) (s : State) : Host.Outcome State Fault Refusal := runNet (collBarrier q) s
/-- GTURN_SET (R413). -/
def execGturnSet (q : QpId) (s : State) : Host.Outcome State Fault Refusal := runNet (gturnSet q) s
/-- DEFINE_GROUP (R397). -/
def execDefineGroup (q : QpId) (s : State) : Host.Outcome State Fault Refusal := runNet (defineGroup q) s
/-- STEP_BOUNDARY (R350). -/
def execStepBoundary (q : QpId) (s : State) : Host.Outcome State Fault Refusal := run (stepBoundary q) s
/-- COLLECTIVE_STEP_TIMEOUT (R401). -/
def execCollectiveStepTimeout (q : QpId) (peer : DevId) (step : BitVec 16) (s : State) :
    Host.Outcome State Fault Refusal := runNet (stepTimeout q peer step.toNat) s
/-- COLLECTIVE_WAIT_TIMEOUT (R401). -/
def execCollectiveWaitTimeout (q : QpId) (s : State) : Host.Outcome State Fault Refusal := runNet (waitTimeout q) s
/-- CSTEP (R401): an abort ends the collective of its group; an acknowledgement ends a step. -/
def execCstep (p : PortId) (h : BwtHeader) (group : Byte) (serial : W32) (step : BitVec 16) (abort : Bool)
    (code : Byte) (s : State) : Host.Outcome State Fault Refusal :=
  runNet (fun s => collSweep (receive (portNum p) h (.cstep group.toNat serial.toNat step.toNat abort code.toNat) s)) s
/-- BARRIER_MESSAGE (R412): it is kept for this device's barrier, and passed on by the manager roles. -/
def execBarrierMessage (p : PortId) (h : BwtHeader) (group : Byte) (gen : W32) (release : Bool) (s : State) :
    Host.Outcome State Fault Refusal :=
  runNet (fun s =>
    let n := s.net.barriers.length
    let s := receive (portNum p) h (.barrier group.toNat gen.toNat release) s
    if s.net.barriers.length = n then s
    else
      let d := (s.net.barriers.getLast?.map BarMsg.dev).getD 0
      (List.range 64).foldl (fun s q => barTry q s) (barRelay group.toNat gen.toNat d release s)) s

end Sys2Proof.Machine
end

