-- ==== Sys2Proof/Machine/CoreCmds.lean ====
section
/-! DEFINITION. The commands of a core: the rows of its slots, each one operation in a bundle whose other
slots are NOPs, and the events of its engines, queues and contexts. Each acts after what is due in the
core (R303, R308, R337). -/

namespace Sys2Proof.Machine

/-! ### The shadow at the access of a later event (R245, R246) -/

/-- An operation in flight breaks a shadow rule: its event tells, and its context stops. -/
def flightShadow (n ctx pc slot req : Nat) (en : Bool) (ev : Nat) (v : Nat × Nat × Nat) (s : State) : State :=
  let s := s.signalIf en n ev { code := ecSlotOrder }
  (s.slotOrder n v.1 v.2.1 v.2.2 req (ctxWord pc ctx)).markFault n ctx slot ecSlotOrder
/-- The rule that the accesses of one direction of an operation break, as it begins them in a cycle. -/
def ownShadow (s : State) (n id : Nat) (write : Bool) (t : Nat) : Option (Nat × Nat × Nat) :=
  shadowCheckOwn (s.core n) id ((s.core n).ownFeet id write t)
/-- A feeder operation starts to read: the shadow is asked first. What it has read is free afterwards, and a closing
operation that left no drain will write nothing. -/
def feedGate (n m : Nat) (act : State → State) (s : State) : State :=
  let after := act s
  match (s.mxe n m).feeder with
  | [] => after
  | f :: r =>
    if s.vmode n = false ∨ (after.mxe n m).feeder.length ≠ r.length then after
    else
      let id := opId f.issue (m + 1)
      let did := drainId f.issue (m + 1)
      let t0 := if f.sparse then max f.issue (s.mxe n m).feedFree else feedCycle s n m f
      let b := s.toCyc n t0
      match ownShadow b n id false t0 with
      | some v => flightShadow n f.ctx f.pc (m + 1) 8 (f.info.evEn && (f.close || f.sparse)) f.info.event v
          (((b.modMxe n m popFeed).shadowDrop n id).shadowDrop n did)
      | none =>
        let after := after.shadowDone n id false (max t0 ((after.mxe n m).feedFree - 1))
        after.doIf (!(after.mxe n m).drains.any fun d => d.tile == f.tile && d.info == f.info) fun s => s.shadowDrop n did
/-- A weight load starts to read its set and parameters: the shadow is asked first (R77). -/
def loadGate (n m : Nat) (s : State) : State :=
  let after := weightLoadStart n m s
  match (s.mxe n m).load with
  | none => after
  | some l =>
    if s.vmode n = false ∨ (after.mxe n m).load.isSome then after
    else
      let id := opId l.issue (m + 1)
      let s0 := (((after.mxe n m).cur.bind LoadOp.start).getD 0)
      let b := s.toCyc n s0
      match ownShadow b n id false s0 with
      | some v => flightShadow n l.ctx l.pc (m + 1) (4 + m) false 0 v
          ((b.modMxe n m fun x => { x with load := none, issStandby := none }).shadowDrop n id)
      | none => after.shadowDone n id false (s0 + max 3 (ceilDiv l.n 4))
/-- The first cycle in which a drain writes. -/
def DrainOp.firstWrite (s : State) (n : Nat) (d : DrainOp) : Nat := (d.spans s n).foldl (fun c a => min c a.2.2) d.lastWrite
/-- A drain starts: the shadow is asked for what its stages read and for what it writes; a drain that breaks a rule
writes nothing, nor does the rest of its gang. -/
def drainGate (n m : Nat) (s : State) : State :=
  let after := drainStart n m s
  match (after.mxe n m).drains.find? fun d => d.started && !(s.mxe n m).drains.contains d with
  | none => after
  | some d =>
    let lead := leadOf (s.gang n) m
    if s.vmode n = false ∨ m ≠ lead then after
    else
      let id := drainId d.info.issue (m + 1)
      match (ownShadow after n id false d.d0).orElse fun _ =>
          if d.sat then none else ownShadow after n id true (d.firstWrite after n) with
      | none => after.doIf (s.gang n == 0 && !d.sat) fun s =>
          (s.shadowDone n id true d.lastWrite).shadowDone n id false d.lastWrite
      | some v =>
        let mute := fun (s : State) (i : Nat) => s.modMxe n i fun x =>
          { x with drains := x.drains.map fun e =>
              if d.same e then { e with muted := true, info := { e.info with evEn := false } } else e }
        flightShadow n d.info.ctx d.info.pc (m + 1) m d.info.evEn d.info.event v
          (((membersOf (s.gang n) m).foldl mute after).shadowDrop n id)
/-- FMV_COMPLETE in validation mode: the shadow is asked for what the FMV reads from its first lane cycle on and for
what its chain reads and writes, which begins 6 cycles later at the earliest. -/
def fmvGate (n : Nat) (s : State) : State :=
  let after := fmvComplete n s
  match (s.core n).fife with
  | [] => after
  | op :: rest =>
    if s.vmode n = false ∨ (after.core n).fife.length ≠ rest.length then after
    else
      let d := fmvOf op.desc
      let id := opId op.issue 6
      let did := drainId op.issue 6
      let a := op.start.getD (max op.issue (s.core n).fifeFree) + 1
      let b := s.toCyc n a
      match ((ownShadow b n id false a).orElse fun _ => ownShadow b n did false (a + 6)).orElse fun _ =>
          ownShadow b n did true (a + 6) with
      | some v =>
        let b := b.modCore n fun x => { x with fife := x.fife.drop 1 }
        flightShadow n op.ctx op.pc 6 9 d.en d.event v (fifePlan n 0 ((b.shadowDrop n id).shadowDrop n did))
      | none =>
        let e := after.cyc n - 1
        ((after.shadowDone n id false e).shadowDone n did false e).shadowDone n did true e
/-- VECTOR_BACKGROUND_DONE in validation mode: the shadow is asked before the writes land. -/
def vbgGate (n : Nat) (s : State) : State :=
  let after := vectorBackgroundDone n s
  match (s.core n).vbg with
  | [] => after
  | o :: rest =>
    if s.vmode n = false then after
    else
      let id := opId o.issue 5
      let b := s.toCyc n o.done
      match ownShadow b n id true o.done with
      | some v =>
        let b := b.modCore n fun x => { x with vbg := rest }
        flightShadow n o.ctx o.pc 5 10 o.evEn o.event v
          ((b.doIf rest.isEmpty fun s => s.setFld (.vxeStat n) F.vxeStatBusy 0).shadowDrop n id)
      | none => (after.shadowDone n id false o.done).shadowDone n id true o.done
/-- The fill of a core that completes first, by its place and cycle. -/
def firstFill (s : State) (n : Nat) : Option (Nat × Nat) :=
  ((s.core n).fills.zipIdx.map fun f => (f.2, s.fillDue n f.1)).foldl (fun a f => match a with
    | none => some f
    | some b => if f.2 < b.2 then some f else some b) none
/-- FILL_COMPLETE (R234, R319): the fill that completes first does so, and its writes are pending no more. -/
def fillComplete (n : Nat) (s : State) : State :=
  match firstFill s n with
  | none => s
  | some (k, due) =>
    let s := s.toCyc n due
    match (s.core n).fills[k]? with
    | none => s
    | some f =>
      let after := fillDone n f (s.modCore n fun x => { x with fills := x.fills.eraseIdx k })
      let id := opId f.issue f.slot
      if f.args.dk && !(tabGet {} (after.mxe n f.m).wsMeta f.args.set.val).valid then after.shadowDrop n id
      else after.shadowDone n id true (due - 1)

/-! ### The commands -/

/-- MXE_CFG_APPLY (R66). -/
def execMxeCfgApply (n : CoreId) (s : State) :
    Host.Outcome State Fault Refusal := runCore n (mxeCfgApply n) s
/-- BUNDLE_ISSUE (R297). -/
def execBundleIssue (n : CoreId) (s : State) :
    Host.Outcome State Fault Refusal := runCore n (issueBundle n) s
/-- NOP (R298). -/
def execNop (n : CoreId) (c : CtxId) (s : State) : Host.Outcome State Fault Refusal :=
  runCore n (issueSlot n c none) s
/-- ALU (R305). -/
def execAlu (n : CoreId) (c : CtxId) (a : ScArgs) (s : State) : Host.Outcome State Fault Refusal :=
  runCore n (issueSlot n c (some (.sc 0x1 a))) s
/-- ALUI (R305). -/
def execAlui (n : CoreId) (c : CtxId) (a : ScArgs) (s : State) : Host.Outcome State Fault Refusal :=
  runCore n (issueSlot n c (some (.sc 0x2 a))) s
/-- LI (R305). -/
def execLi (n : CoreId) (c : CtxId) (a : ScArgs) (s : State) : Host.Outcome State Fault Refusal :=
  runCore n (issueSlot n c (some (.sc 0x3 a))) s
/-- LD (R306). -/
def execLd (n : CoreId) (c : CtxId) (a : ScArgs) (s : State) : Host.Outcome State Fault Refusal :=
  runCore n (issueSlot n c (some (.sc 0x4 a))) s
/-- ST (R306). -/
def execSt (n : CoreId) (c : CtxId) (a : ScArgs) (s : State) : Host.Outcome State Fault Refusal :=
  runCore n (issueSlot n c (some (.sc 0x5 a))) s
/-- LDF (R307). -/
def execLdf (n : CoreId) (c : CtxId) (a : ScArgs) (s : State) : Host.Outcome State Fault Refusal :=
  runCore n (issueSlot n c (some (.sc 0x6 a))) s
/-- STF (R307). -/
def execStf (n : CoreId) (c : CtxId) (a : ScArgs) (s : State) : Host.Outcome State Fault Refusal :=
  runCore n (issueSlot n c (some (.sc 0x7 a))) s
/-- CSRR (R308). -/
def execCsrr (n : CoreId) (c : CtxId) (a : ScArgs) (s : State) : Host.Outcome State Fault Refusal :=
  runCore n (issueSlot n c (some (.sc 0x8 a))) s
/-- CSRW (R308). -/
def execCsrw (n : CoreId) (c : CtxId) (a : ScArgs) (s : State) : Host.Outcome State Fault Refusal :=
  runCore n (issueSlot n c (some (.sc 0x9 a))) s
/-- FAR_OP_COMPLETE (R307). -/
def execFarOpComplete (n : CoreId) (s : State) :
    Host.Outcome State Fault Refusal := runCore n (farOpComplete n) s
/-- BR (R309). -/
def execBr (n : CoreId) (c : CtxId) (a : ScArgs) (s : State) : Host.Outcome State Fault Refusal :=
  runCore n (issueSlot n c (some (.sc 0xa a))) s
/-- JR (R309). -/
def execJr (n : CoreId) (c : CtxId) (a : ScArgs) (s : State) : Host.Outcome State Fault Refusal :=
  runCore n (issueSlot n c (some (.sc 0xb a))) s
/-- REPEAT (R310). -/
def execRepeat (n : CoreId) (c : CtxId) (a : ScArgs) (s : State) : Host.Outcome State Fault Refusal :=
  runCore n (issueSlot n c (some (.sc 0xc a))) s
/-- TURN (R255). -/
def execTurn (n : CoreId) (c : CtxId) (a : ScArgs) (s : State) : Host.Outcome State Fault Refusal :=
  runCore n (issueSlot n c (some (.sc 0xd a))) s
/-- TADD (R255). -/
def execTadd (n : CoreId) (c : CtxId) (a : ScArgs) (s : State) : Host.Outcome State Fault Refusal :=
  runCore n (issueSlot n c (some (.sc 0xe a))) s
/-- BAR (R312). -/
def execBar (n : CoreId) (c : CtxId) (a : ScArgs) (s : State) : Host.Outcome State Fault Refusal :=
  runCore n (issueSlot n c (some (.sc 0xf a))) s
/-- EVWAIT (R315). -/
def execEvwait (n : CoreId) (c : CtxId) (a : ScArgs) (s : State) : Host.Outcome State Fault Refusal :=
  runCore n (issueSlot n c (some (.sc 0x10 a))) s
/-- WAIT_SATISFIED (R315). -/
def execWaitSatisfied (n : CoreId) (c : CtxId) (s : State) :
    Host.Outcome State Fault Refusal := runCore n (waitSatisfied n c) s
/-- EVSET (R314). -/
def execEvset (n : CoreId) (c : CtxId) (a : ScArgs) (s : State) : Host.Outcome State Fault Refusal :=
  runCore n (issueSlot n c (some (.sc 0x11 a))) s
/-- EVSTAT (R305). -/
def execEvstat (n : CoreId) (c : CtxId) (a : ScArgs) (s : State) : Host.Outcome State Fault Refusal :=
  runCore n (issueSlot n c (some (.sc 0x12 a))) s
/-- YIELD (R332). -/
def execYield (n : CoreId) (c : CtxId) (s : State) : Host.Outcome State Fault Refusal :=
  runCore n (issueSlot n c (some (.sc 0x13 ⟨0, 0, 0, 0, 0⟩))) s
/-- HALT (R334). -/
def execHalt (n : CoreId) (c : CtxId) (s : State) : Host.Outcome State Fault Refusal :=
  runCore n (issueSlot n c (some (.sc 0x14 ⟨0, 0, 0, 0, 0⟩))) s
/-- CONTEXT_DONE (R334). -/
def execContextDone (n : CoreId) (c : CtxId) (s : State) :
    Host.Outcome State Fault Refusal := runCore n (contextDone n c) s
/-- GTURN (R313). -/
def execGturn (n : CoreId) (c : CtxId) (a : ScArgs) (s : State) : Host.Outcome State Fault Refusal :=
  runCore n (issueSlot n c (some (.sc 0x15 a))) s
/-- TIME (R305). -/
def execTime (n : CoreId) (c : CtxId) (a : ScArgs) (s : State) : Host.Outcome State Fault Refusal :=
  runCore n (issueSlot n c (some (.sc 0x16 a))) s
/-- FENCEF (R307). -/
def execFencef (n : CoreId) (c : CtxId) (s : State) : Host.Outcome State Fault Refusal :=
  runCore n (issueSlot n c (some (.sc 0x17 ⟨0, 0, 0, 0, 0⟩))) s
/-- FILL (R319). -/
def execFill (n : CoreId) (c : CtxId) (m : MxeId) (a : FillArgs) (s : State) : Host.Outcome State Fault Refusal :=
  runCore n (issueSlot n c (some (.mx m (.fill a)))) s
/-- FILL_COMPLETE (R319). -/
def execFillComplete (n : CoreId) (s : State) :
    Host.Outcome State Fault Refusal := runCore n (fillComplete n) s
/-- WLOAD (R320). -/
def execWload (n : CoreId) (c : CtxId) (m : MxeId) (a : WloadArgs) (s : State) : Host.Outcome State Fault Refusal :=
  runCore n (issueSlot n c (some (.mx m (.wload a)))) s
/-- WEIGHT_LOAD_START (R75). -/
def execWeightLoadStart (n : CoreId) (m : MxeId) (s : State) :
    Host.Outcome State Fault Refusal := runCore n (loadGate n m) s
/-- WEIGHT_LOAD_DONE (R75). -/
def execWeightLoadDone (n : CoreId) (m : MxeId) (s : State) :
    Host.Outcome State Fault Refusal := runCore n (weightLoadDone n m) s
/-- PASS (R321). -/
def execPass (n : CoreId) (c : CtxId) (m : MxeId) (a : PassArgs) (s : State) : Host.Outcome State Fault Refusal :=
  runCore n (issueSlot n c (some (.mx m (.pass a)))) s
/-- PASS_FEED_START (R321). -/
def execPassFeedStart (n : CoreId) (m : MxeId) (misses : List Miss) (s : State) :
    Host.Outcome State Fault Refusal := runCore n (feedGate n m (passFeedStart n m misses)) s

/-- COLUMN_SCAN (R85). -/
def execColumnScan (n : CoreId) (m : MxeId) (fails : List (Fin 128)) (s : State) :
    Host.Outcome State Fault Refusal := runCore n (columnScan n m (fails.map Fin.val)) s
/-- DUMMY_PASS (R91). -/
def execDummyPass (n : CoreId) (m : MxeId) (s : State) :
    Host.Outcome State Fault Refusal := runCore n (fun s => if s.feederIdle n m then dummyPass n s else s) s
/-- ACTIVITY_RAMP_DOWN (R91). -/
def execActivityRampDown (n : CoreId) (m : MxeId) (s : State) :
    Host.Outcome State Fault Refusal := runCore n (rampDown n m) s
/-- SPASS (R322). -/
def execSpass (n : CoreId) (c : CtxId) (m : MxeId) (a : SpassArgs) (s : State) : Host.Outcome State Fault Refusal :=
  runCore n (issueSlot n c (some (.mx m (.spass a)))) s
/-- SPASS_COMPLETE (R178). -/
def execSpassComplete (n : CoreId) (m : PassEnd) (s : State) :
    Host.Outcome State Fault Refusal := runCore n (feedGate n m.mxe (spassComplete n m.mxe m.misses)) s
/-- DRAIN (R323). -/
def execDrain (n : CoreId) (c : CtxId) (m : MxeId) (a : DrainArgs) (s : State) : Host.Outcome State Fault Refusal :=
  runCore n (issueSlot n c (some (.mx m (.drain a)))) s
/-- DISCARD (R323). -/
def execDiscard (n : CoreId) (c : CtxId) (m : MxeId) (tile : Fin 8) (s : State) : Host.Outcome State Fault Refusal :=
  runCore n (issueSlot n c (some (.mx m (.discard tile)))) s
/-- DRAIN_START (R104). -/
def execDrainStart (n : CoreId) (m : MxeId) (s : State) :
    Host.Outcome State Fault Refusal := runCore n (drainGate n m) s
/-- DRAIN_SWAP (R106). -/
def execDrainSwap (n : CoreId) (m : MxeId) (s : State) :
    Host.Outcome State Fault Refusal := runCore n (drainSwap n m) s
/-- DRAIN_COMPLETE (R114). -/
def execDrainComplete (n : CoreId) (m : MxeId) (s : State) :
    Host.Outcome State Fault Refusal := runCore n (drainComplete n m) s
/-- FMV (R327). -/
def execFmv (n : CoreId) (c : CtxId) (off : BitVec 18) (s : State) : Host.Outcome State Fault Refusal :=
  runCore n (issueSlot n c (some (.ff 1 off.toNat))) s
/-- FDISCARD (R327). -/
def execFdiscard (n : CoreId) (c : CtxId) (s : State) : Host.Outcome State Fault Refusal :=
  runCore n (issueSlot n c (some (.ff 2 0))) s
/-- FMV_COMPLETE (R95). -/
def execFmvComplete (n : CoreId) (s : State) :
    Host.Outcome State Fault Refusal := runCore n (fmvGate n) s
/-- VLD (R324). -/
def execVld (n : CoreId) (c : CtxId) (a : VxArgs) (s : State) : Host.Outcome State Fault Refusal :=
  runCore n (issueSlot n c (some (.vx 0x1 a))) s
/-- VST (R324). -/
def execVst (n : CoreId) (c : CtxId) (a : VxArgs) (s : State) : Host.Outcome State Fault Refusal :=
  runCore n (issueSlot n c (some (.vx 0x2 a))) s
/-- VADD (R324). -/
def execVadd (n : CoreId) (c : CtxId) (a : VxArgs) (s : State) : Host.Outcome State Fault Refusal :=
  runCore n (issueSlot n c (some (.vx 0x3 a))) s
/-- VSUB (R324). -/
def execVsub (n : CoreId) (c : CtxId) (a : VxArgs) (s : State) : Host.Outcome State Fault Refusal :=
  runCore n (issueSlot n c (some (.vx 0x4 a))) s
/-- VMUL (R324). -/
def execVmul (n : CoreId) (c : CtxId) (a : VxArgs) (s : State) : Host.Outcome State Fault Refusal :=
  runCore n (issueSlot n c (some (.vx 0x5 a))) s
/-- VFMA (R324). -/
def execVfma (n : CoreId) (c : CtxId) (a : VxArgs) (s : State) : Host.Outcome State Fault Refusal :=
  runCore n (issueSlot n c (some (.vx 0x6 a))) s
/-- VMAX (R324). -/
def execVmax (n : CoreId) (c : CtxId) (a : VxArgs) (s : State) : Host.Outcome State Fault Refusal :=
  runCore n (issueSlot n c (some (.vx 0x7 a))) s
/-- VMIN (R324). -/
def execVmin (n : CoreId) (c : CtxId) (a : VxArgs) (s : State) : Host.Outcome State Fault Refusal :=
  runCore n (issueSlot n c (some (.vx 0x8 a))) s
/-- VUNARY (R324). -/
def execVunary (n : CoreId) (c : CtxId) (a : VxArgs) (s : State) : Host.Outcome State Fault Refusal :=
  runCore n (issueSlot n c (some (.vx 0x9 a))) s
/-- VCMP (R324). -/
def execVcmp (n : CoreId) (c : CtxId) (a : VxArgs) (s : State) : Host.Outcome State Fault Refusal :=
  runCore n (issueSlot n c (some (.vx 0xa a))) s
/-- VSEL (R324). -/
def execVsel (n : CoreId) (c : CtxId) (a : VxArgs) (s : State) : Host.Outcome State Fault Refusal :=
  runCore n (issueSlot n c (some (.vx 0xb a))) s
/-- VCVT (R324). -/
def execVcvt (n : CoreId) (c : CtxId) (a : VxArgs) (s : State) : Host.Outcome State Fault Refusal :=
  runCore n (issueSlot n c (some (.vx 0xc a))) s
/-- VFUNC (R324). -/
def execVfunc (n : CoreId) (c : CtxId) (a : VxArgs) (s : State) : Host.Outcome State Fault Refusal :=
  runCore n (issueSlot n c (some (.vx 0xd a))) s
/-- VDIV (R324). -/
def execVdiv (n : CoreId) (c : CtxId) (a : VxArgs) (s : State) : Host.Outcome State Fault Refusal :=
  runCore n (issueSlot n c (some (.vx 0xe a))) s
/-- VRED (R324). -/
def execVred (n : CoreId) (c : CtxId) (a : VxArgs) (s : State) : Host.Outcome State Fault Refusal :=
  runCore n (issueSlot n c (some (.vx 0xf a))) s
/-- VBCAST (R324). -/
def execVbcast (n : CoreId) (c : CtxId) (a : VxArgs) (s : State) : Host.Outcome State Fault Refusal :=
  runCore n (issueSlot n c (some (.vx 0x10 a))) s
/-- VREQ (R326). -/
def execVreq (n : CoreId) (c : CtxId) (a : VxArgs) (s : State) : Host.Outcome State Fault Refusal :=
  runCore n (issueSlot n c (some (.vx 0x11 a))) s
/-- VPSUM (R326). -/
def execVpsum (n : CoreId) (c : CtxId) (a : VxArgs) (s : State) : Host.Outcome State Fault Refusal :=
  runCore n (issueSlot n c (some (.vx 0x12 a))) s
/-- VECTOR_BACKGROUND_DONE (R326). -/
def execVectorBackgroundDone (n : CoreId) (s : State) :
    Host.Outcome State Fault Refusal := runCore n (vbgGate n) s
/-- QSTART (R329). -/
def execQstart (n : CoreId) (c : CtxId) (a : StArgs) (s : State) : Host.Outcome State Fault Refusal :=
  runCore n (issueSlot n c (some (.st 1 a))) s
/-- QSTOP (R329). -/
def execQstop (n : CoreId) (c : CtxId) (a : StArgs) (s : State) : Host.Outcome State Fault Refusal :=
  runCore n (issueSlot n c (some (.st 2 a))) s
/-- QSETIR (R329). -/
def execQsetir (n : CoreId) (c : CtxId) (a : StArgs) (s : State) : Host.Outcome State Fault Refusal :=
  runCore n (issueSlot n c (some (.st 3 a))) s
/-- COLON (R329). -/
def execColon (n : CoreId) (c : CtxId) (a : StArgs) (s : State) : Host.Outcome State Fault Refusal :=
  runCore n (issueSlot n c (some (.st 4 a))) s
/-- GHPUSH (R329). -/
def execGhpush (n : CoreId) (c : CtxId) (a : StArgs) (s : State) : Host.Outcome State Fault Refusal :=
  runCore n (issueSlot n c (some (.st 5 a))) s
/-- GHPUSH_ACCEPTED (R329). -/
def execGhpushAccepted (n : CoreId) (s : State) :
    Host.Outcome State Fault Refusal := runCore n (stRun n 16) s
/-- SC_TCTX_START (R336). -/
def execScTctxStart (n : CoreId) (c : CtxId) (s : State) :
    Host.Outcome State Fault Refusal := runCore n (tctxStart n c) s
/-- SC_TCTX_STOP (R336). -/
def execScTctxStop (n : CoreId) (c : CtxId) (s : State) :
    Host.Outcome State Fault Refusal := runCore n (tctxStop n c) s
/-- SC_TCTX_RESET (R336). -/
def execScTctxReset (n : CoreId) (c : CtxId) (s : State) :
    Host.Outcome State Fault Refusal := runCore n (tctxReset n c) s
/-- SC_EVENT_CLEAR (R336). -/
def execScEventClear (n : CoreId) (mask : Word) (s : State) :
    Host.Outcome State Fault Refusal := runCore n (fun s => s.clearNow n mask.toNat false) s
/-- SC_EVENT_SET (R336). -/
def execScEventSet (n : CoreId) (mask : Word) (s : State) :
    Host.Outcome State Fault Refusal := runCore n (eventSet n mask.toNat) s
/-- TASK_WATCHDOG (R335). -/
def execTaskWatchdog (n : CoreId) (c : CtxId) (s : State) :
    Host.Outcome State Fault Refusal := runCore n (taskWatchdog n c) s
/-- BG_ACCESS (R236, R240). -/
def execBgAccess (n : CoreId) (unit : BgUnit) (off len : Nat) (data : BgData) (write : Bool) (s : State) :
    Host.Outcome State Fault Refusal := runCore n (slotAccess n unit off len data.bytes write data.poison) s
/-- BG_FORCE (R240). -/
def execBgForce (n : CoreId) (s : State) :
    Host.Outcome State Fault Refusal := runCore n (bgForce n) s
/-- CMC_LOG_CLR (R248). -/
def execCmcLogClr (n : CoreId) (s : State) :
    Host.Outcome State Fault Refusal := runCore n (logClr n) s
/-- MODE_SAMPLE (R247). -/
def execModeSample (n : CoreId) (s : State) :
    Host.Outcome State Fault Refusal := runCore n (modeSample n) s
/-- STREAM_SET (R271). -/
def execStreamSet (n : CoreId) (q : QId) (s : State) :
    Host.Outcome State Fault Refusal := runCore n (strStep n q 1 (strMove n q)) s
/-- STREAM_ADD (R271). -/
def execStreamAdd (n : CoreId) (q : QId) (s : State) :
    Host.Outcome State Fault Refusal := runCore n (strStep n q 2 (strMove n q)) s
/-- STREAM_LOOP (R272). -/
def execStreamLoop (n : CoreId) (q : QId) (s : State) :
    Host.Outcome State Fault Refusal := runCore n (strStep n q 3 (strMove n q)) s
/-- EMIT (R273). -/
def execEmit (n : CoreId) (q : QId) (s : State) :
    Host.Outcome State Fault Refusal := runCore n (fun s => pump (strStep n q 4 (strEmit n q) s)) s
/-- STREAM_GATHER (R274). -/
def execStreamGather (n : CoreId) (q : QId) (s : State) :
    Host.Outcome State Fault Refusal := runCore n (fun s => pump (strStep n q 5 (strGather n q) s)) s
/-- MARK (R276). -/
def execMark (n : CoreId) (q : QId) (s : State) :
    Host.Outcome State Fault Refusal := runCore n (strStep n q 6 (strMarkOp n q)) s
/-- MARK_SATISFIED (R276). -/
def execMarkSatisfied (n : CoreId) (q : QId) (s : State) :
    Host.Outcome State Fault Refusal := runCore n (markSatisfied n q) s
/-- SIGNAL (R275). -/
def execSignal (n : CoreId) (q : QId) (s : State) :
    Host.Outcome State Fault Refusal := runCore n (strStep n q 7 (strSignalOp n q)) s
/-- SIGNAL_COMPLETE (R275). -/
def execSignalComplete (n : CoreId) (q : QId) (s : State) :
    Host.Outcome State Fault Refusal := runCore n (signalComplete n q) s
/-- STREAM_END (R275). -/
def execStreamEnd (n : CoreId) (q : QId) (s : State) :
    Host.Outcome State Fault Refusal := runCore n (strStep n q 0 (strEnd n q)) s
/-- QUEUE_DRAINED (R275). -/
def execQueueDrained (n : CoreId) (q : QId) (s : State) :
    Host.Outcome State Fault Refusal := runCore n (queueDrained n q) s
/-- TRANSFER_COMPLETE (R275). -/
def execTransferComplete (n : CoreId) (q : QId) (i : Nat) (s : State) :
    Host.Outcome State Fault Refusal := runCore n (transferComplete n q i) s
/-- TRANSFER_FAULT (R278). -/
def execTransferFault (n : CoreId) (q : QId) (i : Nat) (code : Byte) (s : State) :
    Host.Outcome State Fault Refusal := runCore n (transferFault n q i code.toNat) s
/-- COLONNADE_START (R280). -/
def execColonnadeStart (n : CoreId) (s : State) :
    Host.Outcome State Fault Refusal := runCore n (colonnadeStart n) s
/-- COLONNADE_SENT (R282). -/
def execColonnadeSent (n : CoreId) (s : State) :
    Host.Outcome State Fault Refusal := runCore n (colonnadeSent n) s
/-- COLONNADE_DELIVERED (R282). -/
def execColonnadeDelivered (n : CoreId) (dst : CoreId) (s : State) :
    Host.Outcome State Fault Refusal := runCore n (colonnadeDelivered n dst) s

end Sys2Proof.Machine
end

