-- ==== Sys2Proof/Machine/CsrCmds.lean ====
section
/-! DEFINITION. The commands that access CSRs (R10, R13, R14) and those of registers that belong to
cores: when the host's access is served (R465), what it wakes (R440), and halves of atomic registers. -/

namespace Sys2Proof.Machine

/-- The host's access to a CSR is served (R463, R465). -/
def barServed (s : State) (a : Nat) : Bool := s.hifServed && (s.ready || decide (a < 0x020200200000))
/-- The host's access to a block that idle states switch off wakes the device (R440). -/
def wakeFor (a : Nat) (s : State) : State := if a < 0x020200300000 then s else wake s
/-- What an access of a register finds done: the atomic operations of earlier cycles (R256), the writes of windows
into the memories of cores (R262). -/
def csrSettle (a : Nat) (s : State) : State :=
  match regAt a with
  | .tsCnt _ | .tsNotify _ | .barState _ | .barCtl _ => s.tsSettle
  | .winStat _ | .winCtl _ => s.winSettle
  | _ => s
/-- An access of a requester to a CSR address: the results on their way to its core land first. -/
def csrGate (r : Requester) (a : Nat) (f : State → State) (s : State) : State :=
  let s := if r == .host then wakeFor a s else s
  if r == .host && !barServed s a then noAnswer 1 s
  else match csrCore a with
    | some n => f (coreSync n s)
    | none => f (csrSettle a s)
/-- A command that accesses a register. -/
def runCsr (r : Requester) (a : Nat) (f : State → State) (s : State) : Host.Outcome State Fault Refusal :=
  run (csrGate r a f) s

/-- A write to a core that is out of service is discarded (R497). -/
def unlessOut (n : Nat) (r : Reg) (f : State → State) (s : State) : State :=
  if s.coreOut n then s.conflict (srcOf 1 n 0) (regAddr r) 0 else f s

/-! ### Halves of registers (R13, R14) -/

/-- A held or latched half of a requester at an address. -/
def halfOf (l : List (Nat × Nat × W32)) (who a : Nat) : Option W32 :=
  (l.find? fun h => h.1 == who && h.2.1 == a).map fun h => h.2.2
/-- The list without the half of a requester at an address. -/
def dropHalf (l : List (Nat × Nat × W32)) (who a : Nat) : List (Nat × Nat × W32) :=
  l.filter fun h => !(h.1 == who && h.2.1 == a)
/-- The requester's number among those that have halves: the host and the control cores. -/
def halfIdx : Requester → Option Nat
  | .host => some 0
  | .cc i => some (1 + i.val)
  | _ => none
/-- A half of a register that is not atomic: RW fields of the other half keep their values. -/
def mergeHalf (s : State) (r : Reg) (hi : Bool) (v : Nat) : Nat :=
  let w := match r with
    | .ssParam n => slotWord s n false
    | .ssCenter n => slotWord s n true
    | _ => s.word r
  let keep := (regFields r).foldl (fun k f => match f.acc with
    | .rw => f.fld.put k (f.fld.of w)
    | _ => k) 0
  if hi then withBits keep 63 32 v else withBits keep 31 0 v
/-- A half of a register that is not atomic is written (R13): a half without a writable field changes
nothing. A word of a push register gathers its halves, and the high half hands it on (R205). -/
def plainHalf (r : Requester) (a : Nat) (hi : Bool) (v : Nat) (s : State) : State :=
  let reg := regAt a
  match reg with
  | .ghCmdqPush k q w => pushHalf r k q w hi v s
  | _ => s.doIf (halfWritable (regFields reg) hi) (csrWrite r a (mergeHalf s reg hi v))
/-- ATOMIC_HALF_WRITE (R14): the low half is held, one per requester; the high half applies both. -/
def halfWrite (r : Requester) (a : Nat) (hi : Bool) (v : Nat) (s : State) : State :=
  match halfIdx r with
  | none => s
  | some who =>
    let reg := regAt a
    if regAtomic reg = false then plainHalf r a hi v s
    else if hi then
      let lo := match halfOf s.heldLow who a with
        | some l => l.toNat
        | none => (csrRead r a s).1 % 2 ^ 32
      csrWrite r a (v * 2 ^ 32 + lo) { s with heldLow := dropHalf s.heldLow who a }
    else { s with heldLow := (s.heldLow.filter fun h => h.1 != who) ++ [(who, a, BitVec.ofNat 32 v)] }
/-- What a read of a half returns in its half of the word, and the state after it: only that half's RC
bits clear (R10, R13; assumption 155, DESIGN CHOICE). -/
def csrReadHalf (r : Requester) (a : Nat) (hi : Bool) (s : State) : Nat × State :=
  let (v, t) := csrRead r a s
  let reg := regAt a
  (v, if (regFields reg).any fun f => f.acc == .rc then t.setWord reg (withHalf hi (s.word reg) (t.word reg)) else t)
/-- ATOMIC_HALF_READ (R14): the low half latches the high half; the high half takes the latch. -/
def halfRead (r : Requester) (a : Nat) (hi : Bool) (s : State) : State :=
  match halfIdx r with
  | none => s
  | some who =>
    if hi && (halfOf s.latchHigh who a).isSome then
      let v := (halfOf s.latchHigh who a).getD 0
      { s with reply := some ⟨v.toNat, 0⟩, latchHigh := dropHalf s.latchHigh who a }
    else
      let (v, s) := csrReadHalf r a hi s
      if hi then { s with reply := some ⟨v / 2 ^ 32, 0⟩ }
      else
        let s := { s with reply := some ⟨v % 2 ^ 32, 0⟩ }
        if regAtomic (regAt a) then
          { s with latchHigh := (s.latchHigh.filter fun h => h.1 != who) ++ [(who, a, BitVec.ofNat 32 (v / 2 ^ 32))] }
        else s

/-! ### The commands -/

/-- CSR_WRITE (R10). -/
def execCsrWrite (r : Requester) (a : Nat) (v : Word) (s : State) : Host.Outcome State Fault Refusal :=
  runCsr r a (csrWrite r a v.toNat) s
/-- CSR_UNSUPPORTED_ACCESS (R13): the host's access of another size or alignment; nothing changes. A
naturally aligned access of 4 or 8 bytes is none of these. -/
def execCsrUnsupportedAccess (a size : Nat) (_write : Bool) (s : State) : Host.Outcome State Fault Refusal :=
  run (fun s => if (size = 8 ∧ a % 8 = 0) ∨ (size = 4 ∧ a % 4 = 0) then s else noAnswer 1 s) s
/-- ATOMIC_HALF_WRITE (R14). -/
def execAtomicHalfWrite (r : Requester) (a : Nat) (hi : Bool) (v : W32) (s : State) :
    Host.Outcome State Fault Refusal := runCsr r a (halfWrite r a hi v.toNat) s
/-- ATOMIC_HALF_READ (R14). -/
def execAtomicHalfRead (r : Requester) (a : Nat) (hi : Bool) (s : State) : Host.Outcome State Fault Refusal :=
  runCsr r a (halfRead r a hi) s
/-- MXE_CFG_WRITE (R65). -/
def execMxeCfgWrite (r : Requester) (n : CoreId) (v : Word) (s : State) : Host.Outcome State Fault Refusal :=
  runCsr r (regAddr (.mxeCfg n 0)) (csrWrite r (regAddr (.mxeCfg n 0)) v.toNat) s
/-- MXE_BYPASS_WRITE (R86). -/
def execMxeBypassWrite (r : Requester) (n : CoreId) (m : MxeId) (v : Word) (s : State) :
    Host.Outcome State Fault Refusal :=
  runCsr r (regAddr (.mxeBypass n m)) (csrWrite r (regAddr (.mxeBypass n m)) v.toNat) s
/-- IBUF_WRITE (R299). -/
def execIbufWrite (r : Requester) (n : CoreId) (p : Fin 2048) (k : Fin 8) (v : Word) (s : State) :
    Host.Outcome State Fault Refusal :=
  runCsr r (regAddr (.ibuf n (p * 8 + k))) (csrWrite r (regAddr (.ibuf n (p * 8 + k))) v.toNat) s
/-- CMC_SHADOW_INV (R248). -/
def execCmcShadowInv (r : Requester) (n : CoreId) (first count : BitVec 16) (s : State) :
    Host.Outcome State Fault Refusal :=
  runCsr r (regAddr (.cmcShadowInv n)) (unlessOut n (.cmcShadowInv n) fun s => shadowInv n first.toNat count.toNat s) s
/-- STR_Q_START (R266): a write of START. -/
def execStrQStart (r : Requester) (n : CoreId) (q : QId) (s : State) : Host.Outcome State Fault Refusal :=
  runCsr r (regAddr (.strQCtl n q)) (unlessOut n (.strQCtl n q) (strStart n q)) s
/-- STR_Q_STOP (R266): a write of STOP. -/
def execStrQStop (r : Requester) (n : CoreId) (q : QId) (s : State) : Host.Outcome State Fault Refusal :=
  runCsr r (regAddr (.strQCtl n q)) (unlessOut n (.strQCtl n q) (strStop n q)) s
/-- STR_Q_CTL_WRITE (R268). -/
def execStrQCtlWrite (r : Requester) (n : CoreId) (q : QId) (v : Word) (s : State) :
    Host.Outcome State Fault Refusal :=
  runCsr r (regAddr (.strQCtl n q)) (csrWrite r (regAddr (.strQCtl n q)) v.toNat) s
/-- The register that a STR_Q_REG_WRITE names. -/
def strRegOf (n q : Nat) : StrReg → Reg
  | .src => .strQSrc n q
  | .dst => .strQDst n q
  | .ir i => .strQIr n q i.val
  | .prog i => .strProg n q i.val
/-- STR_Q_REG_WRITE (R266). -/
def execStrQRegWrite (r : Requester) (n : CoreId) (q : QId) (reg : StrReg) (v : Word) (s : State) :
    Host.Outcome State Fault Refusal :=
  let a := regAddr (strRegOf n q reg)
  runCsr r a (csrWrite r a v.toNat) s
/-- The register that a SC_TCTX_REG_WRITE names. -/
def tctxRegOf (n c : Nat) : TctxReg → Reg
  | .ctl => .tctxCtl n c
  | .code => .tctxCode n c
  | .pc => .tctxPc n c
  | .poison => .tctxPoison n c
  | .reg i => .tctxReg n c i.val
/-- SC_TCTX_REG_WRITE (R336). -/
def execScTctxRegWrite (r : Requester) (n : CoreId) (c : CtxId) (reg : TctxReg) (v : Word) (s : State) :
    Host.Outcome State Fault Refusal :=
  let a := regAddr (tctxRegOf n c reg)
  runCsr r a (csrWrite r a v.toNat) s
/-- CLK_CORE_PS_WRITE (R422). -/
def execClkCorePsWrite (r : Requester) (n : CoreId) (v : Word) (s : State) : Host.Outcome State Fault Refusal :=
  runCsr r (regAddr (.clkCorePs n)) (clkCorePsWrite n v.toNat) s
/-- TST_CORE_REQUEST (R495): a write of TST_CORE_CTL. -/
def execTstCoreRequest (r : Requester) (v : Word) (s : State) : Host.Outcome State Fault Refusal :=
  runCsr r (regAddr .tstCoreCtl) (tstCoreWrite v.toNat) s
/-- TST_FENCE_WRITE (R495). -/
def execTstFenceWrite (r : Requester) (n : CoreId) (v : Word) (s : State) : Host.Outcome State Fault Refusal :=
  runCsr r (regAddr (.tstFence n)) (tstFenceWrite r n v.toNat) s

end Sys2Proof.Machine
end

