-- ==== Sys2Proof/Machine/Kernel.lean ====
section
/-! DEFINITION. LAUNCH_KERNEL (spec/11, R346, R360-R363): the grant block, halo records, the start and
the end of a kernel. -/

namespace Sys2Proof.Machine

/-! ### Grants (R361) -/

/-- Fields of a grant block (R361). -/
def gr (g : List Byte) (o n : Nat) : Nat := fieldAt g o n
/-- The ranges that a grant names of the resources that all cores share: kind, first, number. -/
def grantShared (g : List Byte) : List (Nat × Nat × Nat) :=
  [(0, gr g 8 4, gr g 12 4), (1, gr g 16 2, gr g 18 2), (2, gr g 20 1, gr g 21 1), (3, gr g 22 2, gr g 24 2)]
/-- Two ranges overlap. -/
def rangesMeet (a n b m : Nat) : Bool := decide (a < b + m ∧ b < a + n)
/-- A grant on some cores overlaps that of a running kernel. -/
def grantsMeet (g : List Byte) (cores : List Nat) (k : Kernel) : Bool :=
  ((grantShared g).zip (grantShared k.grant)).any (fun p => rangesMeet p.1.2.1 p.1.2.2 p.2.2.1 p.2.2.2) ||
  (cores.any k.cores.contains && (rangesMeet (gr g 0 4) (gr g 4 4) (gr k.grant 0 4) (gr k.grant 4 4) ||
    (gr g 26 2 &&& gr k.grant 26 2) != 0 || (gr g 28 1 &&& gr k.grant 28 1) != 0))
/-- The fault of a grant block (R346, R361): code and place of the field in it. -/
def grantFault (g : List Byte) : Option (Nat × Nat) :=
  let cs : List (Bool × Nat × Nat) :=
    [(gr g 29 3 != 0, ecDescFormat, 29), (gr g 41 23 != 0, ecDescFormat, 41),
     (gr g 28 1 == 0 || decide (3 < gr g 28 1), ecDescFormat, 28),
     (gr g 32 8 % 64 != 0 || decide (2 ^ 48 ≤ gr g 32 8), ecDescFormat, 32),
     (decide (cmSize / 64 < gr g 0 4 + gr g 4 4), ecDescRange, 0),
     (decide (65536 < gr g 8 4 + gr g 12 4), ecDescRange, 8),
     (gr g 18 2 != 0 && decide (gr g 16 2 < 1024 ∨ 4096 < gr g 16 2 + gr g 18 2), ecDescRange, 16),
     (gr g 21 1 != 0 && decide (gr g 20 1 < 64 ∨ 256 < gr g 20 1 + gr g 21 1), ecDescRange, 20),
     (gr g 24 2 != 0 && decide (3840 < gr g 22 2 + gr g 24 2), ecDescRange, 22),
     (decide (64 < gr g 40 1 ∨ gr g 18 2 < gr g 40 1), ecDescRange, 40)]
  (cs.find? fun c => c.1).map fun c => c.2
/-- A decode failure in a table of bytes: the word that holds a byte, and the byte's bit in it. -/
def byteFail (q code : Nat) (bs : List Byte) (o : Nat) : Fail :=
  decFail q code (fieldAt bs (o / 8 * 8) 8) (o / 8) (o % 8 * 8)

/-! ### Halo records (R362, R363) -/

/-- The fault of a halo descriptor (R362). -/
def haloFault (d : List Byte) : Option (Nat × Nat) :=
  let f := fieldAt d
  let cs : List (Bool × Nat × Nat) :=
    [(bitsOf (f 2 1) 7 6 != 0, ecDescFormat, 2), (f 3 1 != 0, ecDescFormat, 3), (f 14 2 != 0, ecDescFormat, 14),
     (decide (31 < f 0 1), ecDescRange, 0), (decide (31 < f 1 1), ecDescRange, 1),
     (decide (1024 < f 12 2), ecDescRange, 12),
     (decide (cmSize / 64 < f 4 4 + f 12 2), ecDescRange, 4), (decide (cmSize / 64 < f 8 4 + f 12 2), ecDescRange, 8)]
  (cs.find? fun c => c.1).map fun c => c.2
/-- The record of halo descriptor i (R362): route and latency follow the distance of the two sites. -/
def haloRecord (s : State) (ts : Nat) (d : List Byte) : List Byte :=
  let f := fieldAt d
  let dist := s.coreDist (f 0 1) (f 1 1)
  natLe 8 ((coreBase (f 1 1) + f 8 4 * 64) / 64) ++ natLe 2 ts ++ natLe 1 (if dist = 1 then 0 else 1) ++
    natLe 1 dist ++ natLe 2 (if dist = 1 then 6 else 10 + 2 * dist) ++ natLe 2 0
/-- Halo descriptor i (R362): its record reaches the sender's CM and its turnstile is armed. -/
def haloArm (g : List Byte) (i : Nat) (d : List Byte) (s : State) : State :=
  let ts := gr g 16 2 + i
  let f := fieldAt d
  let s := bgWrite 14 (coreBase (f 0 1) + gr g 0 4 * 64 + i * 16) (haloRecord s ts d) [false] s
  let s := s.setWord (.tsCnt ts) (F.tsCntLimit.put 0 1)
  let s := s.setFld (.tsNotify ts) F.tsNotifyCore (f 1 1)
  let s := s.setFld (.tsNotify ts) F.tsNotifyEvent (bitsOf (f 2 1) 5 0)
  s.setFld (.tsNotify ts) F.tsNotifyArm 1

/-! ### Start (R360) -/

/-- The logical cores of a CORES mask. -/
def coresOf (m : Nat) : List Nat := (List.range 32).filter (bitAt m)
/-- The words of a kernel's bundles, loaded into the instruction buffer of a core from a bundle on. -/
def loadBundles (n base len code : Nat) (s : State) : State :=
  (List.range (len * 8)).foldl (fun s i =>
    s.setWord (.ibuf n (base * 8 + i)) (s.rdN (code + 8 * i) 8))
    { s with parity := { s.parity with bundles := s.parity.bundles.filter fun b =>
        !(b.1 == n && decide (base ≤ b.2 ∧ b.2 < base + len)) } }
/-- A context starts (R360): its code range, PC, registers and priority. -/
def kernelStart (n c base len prio args halo : Nat) (s : State) : State :=
  let s := tctxReset n c s
  let s := s.setWord (.tctxCode n c) (F.tctxCodeBase.put (F.tctxCodeLen.put 0 len) base)
  let s := s.setWord (.tctxPc n c) (F.tctxPcPc.put 0 base)
  let s := s.setFld (.tctxCtl n c) F.tctxCtlPrio prio
  let s := (List.range 32).foldl (fun s i => s.setWord (.tctxReg n c i)
    (if i = 1 then args else if i = 2 then n else if i = 3 then halo else 0)) s
  tctxStart n c s
/-- Instruction-buffer space that no running kernel of these cores holds. -/
def codeFree (s : State) (cores : List Nat) (base len : Nat) : Bool :=
  decide (base + len ≤ 2048) &&
    s.hif.kernels.all fun k => !cores.any k.cores.contains || !rangesMeet base len k.base k.len
/-- The checks of a LAUNCH_KERNEL and its start (R360, R361). -/
def launch (q base : Nat) (c : WcsCmd) : Act Unit := do
  let len := bitsOf (c.w 3) 11 0
  let cores := coresOf (c.w 1 % 2 ^ 32)
  let gda := bitsOf (c.w 4) 47 0
  let code := bitsOf (c.w 2) 47 0
  checkFields q c [(1, 63, 32), (2, 63, 48), (3, 63, 12), (4, 63, 48), (5, 15, 3), (5, 63, 32), (6, 63, 48)]
  checkDa q c 2 (c.w 2)
  checkDa q c 4 (c.w 4)
  checkDa q c 6 (c.w 6)
  failWhen (decide (2048 < len)) (decFail q ecDescRange (c.w 3) 3 0)
  let s ← actState
  failWhen (!daOk s gda 64) (reachFail s gda 64 (decFail q ecDescRange (c.w 4) 4 0))
  touchAct gda 64
  let g := s.rdRange gda 64
  match grantFault g with
  | some f => throw (byteFail q f.1 g f.2)
  | none => pure ()
  failWhen (len != 0 && !daOk s code (len * 64)) (reachFail s code (len * 64) (decFail q ecDescRange (c.w 2) 2 0))
  let n := gr g 40 1
  failWhen (n != 0 && (gr g 32 8 == 0 || !daOk s (gr g 32 8) (n * 16)))
    (reachFail s (gr g 32 8) (n * 16) (byteFail q ecDescRange g 32))
  failWhen (decide (cmSize < gr g 0 4 * 64 + n * 16)) (byteFail q ecDescRange g 0)
  touchAct (gr g 32 8) (n * 16)
  touchAct code (len * 64)
  let ds := (List.range n).map fun i => s.rdRange (gr g 32 8 + 16 * i) 16
  match ds.find? fun d => (haloFault d).isSome with
  | some d => throw (byteFail q ((haloFault d).getD (0, 0)).1 d ((haloFault d).getD (0, 0)).2)
  | none => pure ()
  failWhen (cores.any s.coreOut) (recFail
    { src := qSrc q, code := ecConfigConflict, fw := true, detail := [(32, 8, c.w 1)] })
  let ctxs := (List.range 2).filter (bitAt (gr g 28 1))
  if len = 0 ∨ cores = [] then act fun s => ((), finishCmd q c.id s)
  else act fun s =>
    let s := ds.zipIdx.foldl (fun s d => haloArm g d.2 d.1 s) s
    let s := cores.foldl (fun s n => loadBundles n base len code (coreSync n s)) s
    let s := cores.foldl (fun s n => ctxs.foldl (fun s x =>
      kernelStart n x base len (b2n (bitAt (c.w 5) 2)) (bitsOf (c.w 6) 47 0) (gr g 0 4 * 64) s) s) s
    ((), { s with hif := { s.hif with kernels := s.hif.kernels ++
      [⟨q, c.id, g, cores, ctxs, len, base, s.now, bitsOf (c.w 5) 31 16⟩] } })
/-- LAUNCH_KERNEL (R360): a grant that overlaps a running kernel's waits in its queue, and so does a launch on a core
under test (R492). -/
def launchKernel (q base : Nat) (s : State) : State :=
  let s := kernelSweep s
  startNext q (fun c =>
    let cores := coresOf (c.w 1 % 2 ^ 32)
    c.op == 0x13 && !(s.hif.kernels.any (grantsMeet (s.rdRange (bitsOf (c.w 4) 47 0) 64) cores)) &&
      codeFree s cores base (min 2048 (bitsOf (c.w 3) 11 0)) &&
      cores.all fun n => s.fld (.coreMap n) F.coreMapState != 1) (fun c s => runAct q c.id (launch q base c) s) s
/-- KERNEL_TIMEOUT (R360): Virhan stops the contexts of the k-th running kernel; its command completes
with status 4. -/
def kernelTimeout (k : Nat) (s : State) : State :=
  let s := kernelSweep s
  match s.hif.kernels[k]? with
  | none => s
  | some x =>
    if x.timeout = 0 then s
    else
      let s := s.advance (x.start + x.timeout * usTicks)
      let s := x.cores.foldl (fun s n => coreSync n s) s
      let s := x.places.foldl (fun s p => tctxStop p.1 p.2 s) s
      kernelSweep (endCmd x.q x.cmd ⟨4, 0, 0⟩ s)

/-! ### The commands -/

/-- LAUNCH_KERNEL (R360): `base` is the instruction-buffer space that Virhan allocates. -/
def execLaunchKernel (q : QpId) (base : Fin 2048) (s : State) : Host.Outcome State Fault Refusal :=
  run (launchKernel q base) s
/-- KERNEL_TIMEOUT (R360). -/
def execKernelTimeout (k : Nat) (s : State) : Host.Outcome State Fault Refusal := run (kernelTimeout k) s

end Sys2Proof.Machine
end

