-- ==== Sys2Proof/Machine/Dispatch.lean ====
section
/-! DEFINITION. One arm per command: each is one call of the command's own meaning. -/

namespace Sys2Proof.Machine

/-- The effect of a command on everything but the queue of waiting commands. -/
def exec (i : Instr) (s : State) : Host.Outcome State Fault Refusal :=
  match i with
  | .csrWrite r a v => Sys2Proof.Machine.execCsrWrite r a v s
  | .csrUnsupportedAccess a size write => Sys2Proof.Machine.execCsrUnsupportedAccess a size write s
  | .atomicHalfWrite r a hi v => Sys2Proof.Machine.execAtomicHalfWrite r a hi v s
  | .atomicHalfRead r a hi => Sys2Proof.Machine.execAtomicHalfRead r a hi s
  | .ssCommit n => Sys2Proof.Machine.execSsCommit n s
  | .ssCommitComplete n => Sys2Proof.Machine.execSsCommitComplete n s
  | .ssClear n => Sys2Proof.Machine.execSsClear n s
  | .ssCenterWrite n v => Sys2Proof.Machine.execSsCenterWrite n v s
  | .ssParamWrite n v => Sys2Proof.Machine.execSsParamWrite n v s
  | .statReport n xs => Sys2Proof.Machine.execStatReport n xs s
  | .tileSatRetry n m tile => Sys2Proof.Machine.execTileSatRetry n m tile s
  | .mxeCfgWrite r n v => Sys2Proof.Machine.execMxeCfgWrite r n v s
  | .mxeCfgApply n => Sys2Proof.Machine.execMxeCfgApply n s
  | .bundleIssue n => Sys2Proof.Machine.execBundleIssue n s
  | .nop n c => Sys2Proof.Machine.execNop n c s
  | .alu n c a => Sys2Proof.Machine.execAlu n c a s
  | .alui n c a => Sys2Proof.Machine.execAlui n c a s
  | .li n c a => Sys2Proof.Machine.execLi n c a s
  | .ld n c a => Sys2Proof.Machine.execLd n c a s
  | .st n c a => Sys2Proof.Machine.execSt n c a s
  | .ldf n c a => Sys2Proof.Machine.execLdf n c a s
  | .stf n c a => Sys2Proof.Machine.execStf n c a s
  | .csrr n c a => Sys2Proof.Machine.execCsrr n c a s
  | .csrw n c a => Sys2Proof.Machine.execCsrw n c a s
  | .farOpComplete n => Sys2Proof.Machine.execFarOpComplete n s
  | .br n c a => Sys2Proof.Machine.execBr n c a s
  | .jr n c a => Sys2Proof.Machine.execJr n c a s
  | .repeat n c a => Sys2Proof.Machine.execRepeat n c a s
  | .turn n c a => Sys2Proof.Machine.execTurn n c a s
  | .tadd n c a => Sys2Proof.Machine.execTadd n c a s
  | .turnstileDeferredOp t => Sys2Proof.Machine.execTurnstileDeferredOp t s
  | .tsCntWrite r t v => Sys2Proof.Machine.execTsCntWrite r t v s
  | .tsNotifyWrite r t v => Sys2Proof.Machine.execTsNotifyWrite r t v s
  | .bar n c a => Sys2Proof.Machine.execBar n c a s
  | .barCountWrite b v => Sys2Proof.Machine.execBarCountWrite b v s
  | .barAbort b => Sys2Proof.Machine.execBarAbort b s
  | .barReset b => Sys2Proof.Machine.execBarReset b s
  | .evwait n c a => Sys2Proof.Machine.execEvwait n c a s
  | .waitSatisfied n c => Sys2Proof.Machine.execWaitSatisfied n c s
  | .evset n c a => Sys2Proof.Machine.execEvset n c a s
  | .evstat n c a => Sys2Proof.Machine.execEvstat n c a s
  | .yield n c => Sys2Proof.Machine.execYield n c s
  | .halt n c => Sys2Proof.Machine.execHalt n c s
  | .contextDone n c => Sys2Proof.Machine.execContextDone n c s
  | .gturn n c a => Sys2Proof.Machine.execGturn n c a s
  | .gturnResult n => Sys2Proof.Machine.execGturnResult n s
  | .time n c a => Sys2Proof.Machine.execTime n c a s
  | .fencef n c => Sys2Proof.Machine.execFencef n c s
  | .fill n c m a => Sys2Proof.Machine.execFill n c m a s
  | .fillComplete n => Sys2Proof.Machine.execFillComplete n s
  | .wload n c m a => Sys2Proof.Machine.execWload n c m a s
  | .weightLoadStart n m => Sys2Proof.Machine.execWeightLoadStart n m s
  | .weightLoadDone n m => Sys2Proof.Machine.execWeightLoadDone n m s
  | .pass n c m a => Sys2Proof.Machine.execPass n c m a s
  | .passFeedStart n m misses => Sys2Proof.Machine.execPassFeedStart n m misses s
  | .abftTileRerun n m tile => Sys2Proof.Machine.execAbftTileRerun n m tile s
  | .columnScan n m fails => Sys2Proof.Machine.execColumnScan n m fails s
  | .mxeBypassWrite r n m v => Sys2Proof.Machine.execMxeBypassWrite r n m v s
  | .dummyPass n m => Sys2Proof.Machine.execDummyPass n m s
  | .activityRampDown n m => Sys2Proof.Machine.execActivityRampDown n m s
  | .spass n c m a => Sys2Proof.Machine.execSpass n c m a s
  | .spassComplete n m => Sys2Proof.Machine.execSpassComplete n m s
  | .drain n c m a => Sys2Proof.Machine.execDrain n c m a s
  | .discard n c m tile => Sys2Proof.Machine.execDiscard n c m tile s
  | .drainStart n m => Sys2Proof.Machine.execDrainStart n m s
  | .drainSwap n m => Sys2Proof.Machine.execDrainSwap n m s
  | .drainComplete n m => Sys2Proof.Machine.execDrainComplete n m s
  | .fmv n c off => Sys2Proof.Machine.execFmv n c off s
  | .fdiscard n c => Sys2Proof.Machine.execFdiscard n c s
  | .fmvComplete n => Sys2Proof.Machine.execFmvComplete n s
  | .vld n c a => Sys2Proof.Machine.execVld n c a s
  | .vst n c a => Sys2Proof.Machine.execVst n c a s
  | .vadd n c a => Sys2Proof.Machine.execVadd n c a s
  | .vsub n c a => Sys2Proof.Machine.execVsub n c a s
  | .vmul n c a => Sys2Proof.Machine.execVmul n c a s
  | .vfma n c a => Sys2Proof.Machine.execVfma n c a s
  | .vmax n c a => Sys2Proof.Machine.execVmax n c a s
  | .vmin n c a => Sys2Proof.Machine.execVmin n c a s
  | .vunary n c a => Sys2Proof.Machine.execVunary n c a s
  | .vcmp n c a => Sys2Proof.Machine.execVcmp n c a s
  | .vsel n c a => Sys2Proof.Machine.execVsel n c a s
  | .vcvt n c a => Sys2Proof.Machine.execVcvt n c a s
  | .vfunc n c a => Sys2Proof.Machine.execVfunc n c a s
  | .vdiv n c a => Sys2Proof.Machine.execVdiv n c a s
  | .vred n c a => Sys2Proof.Machine.execVred n c a s
  | .vbcast n c a => Sys2Proof.Machine.execVbcast n c a s
  | .vreq n c a => Sys2Proof.Machine.execVreq n c a s
  | .vpsum n c a => Sys2Proof.Machine.execVpsum n c a s
  | .vectorBackgroundDone n => Sys2Proof.Machine.execVectorBackgroundDone n s
  | .qstart n c a => Sys2Proof.Machine.execQstart n c a s
  | .qstop n c a => Sys2Proof.Machine.execQstop n c a s
  | .qsetir n c a => Sys2Proof.Machine.execQsetir n c a s
  | .colon n c a => Sys2Proof.Machine.execColon n c a s
  | .ghpush n c a => Sys2Proof.Machine.execGhpush n c a s
  | .ghpushAccepted n => Sys2Proof.Machine.execGhpushAccepted n s
  | .ibufWrite r n p k v => Sys2Proof.Machine.execIbufWrite r n p k v s
  | .scTctxStart n c => Sys2Proof.Machine.execScTctxStart n c s
  | .scTctxStop n c => Sys2Proof.Machine.execScTctxStop n c s
  | .scTctxReset n c => Sys2Proof.Machine.execScTctxReset n c s
  | .scEventClear n mask => Sys2Proof.Machine.execScEventClear n mask s
  | .scEventSet n mask => Sys2Proof.Machine.execScEventSet n mask s
  | .taskWatchdog n c => Sys2Proof.Machine.execTaskWatchdog n c s
  | .handleResolve r h write => Sys2Proof.Machine.execHandleResolve r h write s
  | .tileSwitch h => Sys2Proof.Machine.execTileSwitch h s
  | .migrationStart h dst => Sys2Proof.Machine.execMigrationStart h dst s
  | .migrationSwitch h => Sys2Proof.Machine.execMigrationSwitch h s
  | .ghDirFlush xs => Sys2Proof.Machine.execGhDirFlush xs s
  | .ghDirInval xs => Sys2Proof.Machine.execGhDirInval xs s
  | .ghDirInvalDone xs => Sys2Proof.Machine.execGhDirInvalDone xs s
  | .ghDirBaseWrite r xs v => Sys2Proof.Machine.execGhDirBaseWrite r xs v s
  | .ghHeapWrite r xs lim v => Sys2Proof.Machine.execGhHeapWrite r xs lim v s
  | .ghCmdqPush r xs q ws => Sys2Proof.Machine.execGhCmdqPush r xs q ws s
  | .ghCmdqReset xs q => Sys2Proof.Machine.execGhCmdqReset xs q s
  | .ghNop xs q => Sys2Proof.Machine.execGhNop xs q s
  | .ghGather xs q => Sys2Proof.Machine.execGhGather xs q s
  | .scatter xs q => Sys2Proof.Machine.execScatter xs q s
  | .rowGather xs q => Sys2Proof.Machine.execRowGather xs q s
  | .embBag xs q => Sys2Proof.Machine.execEmbBag xs q s
  | .accum xs q => Sys2Proof.Machine.execAccum xs q s
  | .scatterAdd xs q => Sys2Proof.Machine.execScatterAdd xs q s
  | .compact xs q => Sys2Proof.Machine.execCompact xs q s
  | .merge xs q => Sys2Proof.Machine.execMerge xs q s
  | .ghFence xs q => Sys2Proof.Machine.execGhFence xs q s
  | .ghFenceRelease xs q => Sys2Proof.Machine.execGhFenceRelease xs q s
  | .ghCopy xs q => Sys2Proof.Machine.execGhCopy xs q s
  | .handleWrite xs q => Sys2Proof.Machine.execHandleWrite xs q s
  | .stackRefresh xs pc => Sys2Proof.Machine.execStackRefresh xs pc s
  | .scrubPass xs => Sys2Proof.Machine.execScrubPass xs s
  | .rowRepair xs pc bank row => Sys2Proof.Machine.execRowRepair xs pc bank row s
  | .rowRepairDone xs => Sys2Proof.Machine.execRowRepairDone xs s
  | .ghHeartbeat xs answered => Sys2Proof.Machine.execGhHeartbeat xs answered s
  | .rawStackEmulate xs q => Sys2Proof.Machine.execRawStackEmulate xs q s
  | .bgAccess n unit off len data write => Sys2Proof.Machine.execBgAccess n unit off len data write s
  | .bgForce n => Sys2Proof.Machine.execBgForce n s
  | .cmcShadowInv r n first count => Sys2Proof.Machine.execCmcShadowInv r n first count s
  | .cmcLogClr n => Sys2Proof.Machine.execCmcLogClr n s
  | .modeSample n => Sys2Proof.Machine.execModeSample n s
  | .orangeryAccess r off len data write poison => Sys2Proof.Machine.execOrangeryAccess r off len data write poison s
  | .winLocalWrite r w v => Sys2Proof.Machine.execWinLocalWrite r w v s
  | .strQStart r n q => Sys2Proof.Machine.execStrQStart r n q s
  | .strQStop r n q => Sys2Proof.Machine.execStrQStop r n q s
  | .strQCtlWrite r n q v => Sys2Proof.Machine.execStrQCtlWrite r n q v s
  | .streamSet n q => Sys2Proof.Machine.execStreamSet n q s
  | .streamAdd n q => Sys2Proof.Machine.execStreamAdd n q s
  | .streamLoop n q => Sys2Proof.Machine.execStreamLoop n q s
  | .emit n q => Sys2Proof.Machine.execEmit n q s
  | .streamGather n q => Sys2Proof.Machine.execStreamGather n q s
  | .mark n q => Sys2Proof.Machine.execMark n q s
  | .markSatisfied n q => Sys2Proof.Machine.execMarkSatisfied n q s
  | .signal n q => Sys2Proof.Machine.execSignal n q s
  | .signalComplete n q => Sys2Proof.Machine.execSignalComplete n q s
  | .streamEnd n q => Sys2Proof.Machine.execStreamEnd n q s
  | .queueDrained n q => Sys2Proof.Machine.execQueueDrained n q s
  | .transferComplete n q k => Sys2Proof.Machine.execTransferComplete n q k s
  | .transferFault n q k code => Sys2Proof.Machine.execTransferFault n q k code s
  | .colonnadeStart n => Sys2Proof.Machine.execColonnadeStart n s
  | .colonnadeSent n => Sys2Proof.Machine.execColonnadeSent n s
  | .colonnadeDelivered n dst => Sys2Proof.Machine.execColonnadeDelivered n dst s
  | .portArbitrate xs presents => Sys2Proof.Machine.execPortArbitrate xs presents s
  | .portTransferDone xs => Sys2Proof.Machine.execPortTransferDone xs s
  | .portWatchdog xs => Sys2Proof.Machine.execPortWatchdog xs s
  | .portResetEnd xs => Sys2Proof.Machine.execPortResetEnd xs s
  | .bsPreset xs => Sys2Proof.Machine.execBsPreset xs s
  | .bsCommit r xs => Sys2Proof.Machine.execBsCommit r xs s
  | .bsTableActivate xs => Sys2Proof.Machine.execBsTableActivate xs s
  | .bsFreezeWrite xs freeze => Sys2Proof.Machine.execBsFreezeWrite xs freeze s
  | .bsRankWrite r xs v => Sys2Proof.Machine.execBsRankWrite r xs v s
  | .sqDoorbell q v => Sys2Proof.Machine.execSqDoorbell q v s
  | .cqDoorbell q v => Sys2Proof.Machine.execCqDoorbell q v s
  | .dmaDoorbell c v => Sys2Proof.Machine.execDmaDoorbell c v s
  | .sqFetch q ok => Sys2Proof.Machine.execSqFetch q ok s
  | .wcsNop q => Sys2Proof.Machine.execWcsNop q s
  | .gemm q ts => Sys2Proof.Machine.execGemm q ts s
  | .spgemm q ts => Sys2Proof.Machine.execSpgemm q ts s
  | .attention q ts => Sys2Proof.Machine.execAttention q ts s
  | .ffnPredicted q ts => Sys2Proof.Machine.execFfnPredicted q ts s
  | .piccoloAdapt layer => Sys2Proof.Machine.execPiccoloAdapt layer s
  | .embeddingBag q ts => Sys2Proof.Machine.execEmbeddingBag q ts s
  | .elementwise q ts => Sys2Proof.Machine.execElementwise q ts s
  | .reduce q ts => Sys2Proof.Machine.execReduce q ts s
  | .quantize q ts => Sys2Proof.Machine.execQuantize q ts s
  | .wcsCopy q ts => Sys2Proof.Machine.execWcsCopy q ts s
  | .pin q => Sys2Proof.Machine.execPin q s
  | .unpin q => Sys2Proof.Machine.execUnpin q s
  | .launchKernel q base => Sys2Proof.Machine.execLaunchKernel q base s
  | .kernelTimeout k => Sys2Proof.Machine.execKernelTimeout k s
  | .wcsFence q => Sys2Proof.Machine.execWcsFence q s
  | .eventSignal q => Sys2Proof.Machine.execEventSignal q s
  | .eventWait q => Sys2Proof.Machine.execEventWait q s
  | .eventWaitSatisfied q => Sys2Proof.Machine.execEventWaitSatisfied q s
  | .eventWaitTimeout q => Sys2Proof.Machine.execEventWaitTimeout q s
  | .progress q => Sys2Proof.Machine.execProgress q s
  | .allReduce q peers => Sys2Proof.Machine.execAllReduce q peers s
  | .reduceScatter q peers => Sys2Proof.Machine.execReduceScatter q peers s
  | .allGather q peers => Sys2Proof.Machine.execAllGather q peers s
  | .allToAll q peers => Sys2Proof.Machine.execAllToAll q peers s
  | .permute q peers => Sys2Proof.Machine.execPermute q peers s
  | .reshardExecute q peers => Sys2Proof.Machine.execReshardExecute q peers s
  | .collectiveBarrier q => Sys2Proof.Machine.execCollectiveBarrier q s
  | .gturnSet q => Sys2Proof.Machine.execGturnSet q s
  | .defineGroup q => Sys2Proof.Machine.execDefineGroup q s
  | .stepBoundary q => Sys2Proof.Machine.execStepBoundary q s
  | .tileUnitClaim n job => Sys2Proof.Machine.execTileUnitClaim n job s
  | .taskDispatch n => Sys2Proof.Machine.execTaskDispatch n s
  | .placementInterval places => Sys2Proof.Machine.execPlacementInterval places s
  | .recompute h => Sys2Proof.Machine.execRecompute h s
  | .tileRerun n repaired => Sys2Proof.Machine.execTileRerun n repaired s
  | .cqEntryPost q => Sys2Proof.Machine.execCqEntryPost q s
  | .coalTimer q => Sys2Proof.Machine.execCoalTimer q s
  | .hifQPost r q v => Sys2Proof.Machine.execHifQPost r q v s
  | .hifQEnable q => Sys2Proof.Machine.execHifQEnable q s
  | .hifQDisable q => Sys2Proof.Machine.execHifQDisable q s
  | .hifQDrainDone q => Sys2Proof.Machine.execHifQDrainDone q s
  | .hifQAbort q => Sys2Proof.Machine.execHifQAbort q s
  | .hifQRestart q => Sys2Proof.Machine.execHifQRestart q s
  | .dmaEnable c v => Sys2Proof.Machine.execDmaEnable c v s
  | .dmaDescriptor c lost => Sys2Proof.Machine.execDmaDescriptor c lost s
  | .bar2Access x len data write ep => Sys2Proof.Machine.execBar2Access x len data write ep s
  | .hifBar2MapWrite r v => Sys2Proof.Machine.execHifBar2MapWrite r v s
  | .progStatRead k => Sys2Proof.Machine.execProgStatRead k s
  | .d3hotEntry => Sys2Proof.Machine.execD3hotEntry s
  | .d0Return => Sys2Proof.Machine.execD0Return s
  | .boot e => Sys2Proof.Machine.execBoot e s
  | .bootStageTimeout stage e => Sys2Proof.Machine.execBootStageTimeout stage e s
  | .perstAssert => Sys2Proof.Machine.execPerstAssert s
  | .flr => Sys2Proof.Machine.execFlr s
  | .chipResetGo v => Sys2Proof.Machine.execChipResetGo v s
  | .fwUpdateStart r => Sys2Proof.Machine.execFwUpdateStart r s
  | .fwUpdateAbort r => Sys2Proof.Machine.execFwUpdateAbort r s
  | .fwCommit => Sys2Proof.Machine.execFwCommit s
  | .fwCommitSvn => Sys2Proof.Machine.execFwCommitSvn s
  | .pldmRequest t => Sys2Proof.Machine.execPldmRequest t s
  | .pldmCapEffecter w => Sys2Proof.Machine.execPldmCapEffecter w s
  | .pldmFwUpdate image => Sys2Proof.Machine.execPldmFwUpdate image s
  | .debugUnlock jtag => Sys2Proof.Machine.execDebugUnlock jtag s
  | .extest v => Sys2Proof.Machine.execExtest v s
  | .extestPulse => Sys2Proof.Machine.execExtestPulse s
  | .idcode => Sys2Proof.Machine.execIdcode s
  | .samplePreload v => Sys2Proof.Machine.execSamplePreload v s
  | .bypass => Sys2Proof.Machine.execBypass s
  | .ieee1687Access v => Sys2Proof.Machine.execIeee1687Access v s
  | .ccHaltStep cc step => Sys2Proof.Machine.execCcHaltStep cc step s
  | .jtagMemoryAccess a v write => Sys2Proof.Machine.execJtagMemoryAccess a v write s
  | .challengeRead => Sys2Proof.Machine.execChallengeRead s
  | .tokenWrite ws => Sys2Proof.Machine.execTokenWrite ws s
  | .tapReset => Sys2Proof.Machine.execTapReset s
  | .gpRetrain p => Sys2Proof.Machine.execGpRetrain p s
  | .xpRetrain p => Sys2Proof.Machine.execXpRetrain p s
  | .linkTrainingDone p lanes => Sys2Proof.Machine.execLinkTrainingDone p lanes s
  | .portRetrainTimer p => Sys2Proof.Machine.execPortRetrainTimer p s
  | .peer p m => Sys2Proof.Machine.execPeer p m s
  | .heartbeatSend p => Sys2Proof.Machine.execHeartbeatSend p s
  | .heartbeat p t => Sys2Proof.Machine.execHeartbeat p t s
  | .heartbeatTimeout p => Sys2Proof.Machine.execHeartbeatTimeout p s
  | .flitReplay p seq good => Sys2Proof.Machine.execFlitReplay p seq good s
  | .data p h d => Sys2Proof.Machine.execData p h d s
  | .accumWindowVisible w => Sys2Proof.Machine.execAccumWindowVisible w s
  | .credReq p h w count reqid => Sys2Proof.Machine.execCredReq p h w count reqid s
  | .credGrant p h w count reqid token => Sys2Proof.Machine.execCredGrant p h w count reqid token s
  | .refuse p h id code isReq => Sys2Proof.Machine.execRefuse p h id code isReq s
  | .ack p h => Sys2Proof.Machine.execAck p h s
  | .ackTimer dev => Sys2Proof.Machine.execAckTimer dev s
  | .credReturn p h token count => Sys2Proof.Machine.execCredReturn p h token count s
  | .cstep p h group serial step abort code => Sys2Proof.Machine.execCstep p h group serial step abort code s
  | .timeMessage p h t => Sys2Proof.Machine.execTimeMessage p h t s
  | .gturnMessage p h m => Sys2Proof.Machine.execGturnMessage p h m s
  | .barrierMessage p h group gen release => Sys2Proof.Machine.execBarrierMessage p h group gen release s
  | .arp p ip => Sys2Proof.Machine.execArp p ip s
  | .resendTimer dev => Sys2Proof.Machine.execResendTimer dev s
  | .ecnRateStep dev => Sys2Proof.Machine.execEcnRateStep dev s
  | .creditExpiry w k => Sys2Proof.Machine.execCreditExpiry w k s
  | .senderCreditRetire dev token => Sys2Proof.Machine.execSenderCreditRetire dev token s
  | .creditWaitTimeout dev k => Sys2Proof.Machine.execCreditWaitTimeout dev k s
  | .windowOpen r w v => Sys2Proof.Machine.execWindowOpen r w v s
  | .windowClose r w => Sys2Proof.Machine.execWindowClose r w s
  | .windowForce r w => Sys2Proof.Machine.execWindowForce r w s
  | .collectiveStepTimeout q peer step => Sys2Proof.Machine.execCollectiveStepTimeout q peer step s
  | .collectiveWaitTimeout q => Sys2Proof.Machine.execCollectiveWaitTimeout q s
  | .chipNodeWrite r v => Sys2Proof.Machine.execChipNodeWrite r v s
  | .managerHeartbeat beats => Sys2Proof.Machine.execManagerHeartbeat beats s
  | .timeSlew => Sys2Proof.Machine.execTimeSlew s
  | .refLoss => Sys2Proof.Machine.execRefLoss s
  | .pstateSwitch n => Sys2Proof.Machine.execPstateSwitch n s
  | .vcoreRaise mv => Sys2Proof.Machine.execVcoreRaise mv s
  | .vcoreRaiseTimeout => Sys2Proof.Machine.execVcoreRaiseTimeout s
  | .bellowsTick watts temps est => Sys2Proof.Machine.execBellowsTick watts temps est s
  | .blwCapWrite r v => Sys2Proof.Machine.execBlwCapWrite r v s
  | .clkCorePsWrite r n v => Sys2Proof.Machine.execClkCorePsWrite r n v s
  | .fastThrottleAssert => Sys2Proof.Machine.execFastThrottleAssert s
  | .fastThrottleDeassert => Sys2Proof.Machine.execFastThrottleDeassert s
  | .ftHoldExpiry => Sys2Proof.Machine.execFtHoldExpiry s
  | .thermalTrip sensor temp => Sys2Proof.Machine.execThermalTrip sensor temp s
  | .idleEntry st => Sys2Proof.Machine.execIdleEntry st s
  | .idleWake => Sys2Proof.Machine.execIdleWake s
  | .hifIdleWake => Sys2Proof.Machine.execHifIdleWake s
  | .hifWakeTolWrite v => Sys2Proof.Machine.execHifWakeTolWrite v s
  | .errTailWrite v => Sys2Proof.Machine.execErrTailWrite v s
  | .flashLogCopy => Sys2Proof.Machine.execFlashLogCopy s
  | .onlineTest n res => Sys2Proof.Machine.execOnlineTest n res s
  | .testSweep => Sys2Proof.Machine.execTestSweep s
  | .tstCoreRequest r v => Sys2Proof.Machine.execTstCoreRequest r v s
  | .tstFenceWrite r n v => Sys2Proof.Machine.execTstFenceWrite r n v s
  | .ghUnitTest xs ok => Sys2Proof.Machine.execGhUnitTest xs ok s
  | .spareSubstitution n site => Sys2Proof.Machine.execSpareSubstitution n site s
  | .chipModeWrite r v => Sys2Proof.Machine.execChipModeWrite r v s
  | .traceEnable r en => Sys2Proof.Machine.execTraceEnable r en s
  | .chipGpioWrite r v => Sys2Proof.Machine.execChipGpioWrite r v s
  | .chipTimerExpiry k => Sys2Proof.Machine.execChipTimerExpiry k s
  | .hifAdviceAck => Sys2Proof.Machine.execHifAdviceAck s
  | .powerUp => Sys2Proof.Machine.execPowerUp s
  | .powerLoss => Sys2Proof.Machine.execPowerLoss s
  | .auxRailLoss => Sys2Proof.Machine.execAuxRailLoss s
  | .ghCommandComplete xs q => Sys2Proof.Machine.execGhCommandComplete xs q s
  | .portCtlWrite r p v => Sys2Proof.Machine.execPortCtlWrite r p v s
  | .chipTimerWrite r k v => Sys2Proof.Machine.execChipTimerWrite r k v s
  | .scTctxRegWrite r n c reg v => Sys2Proof.Machine.execScTctxRegWrite r n c reg v s
  | .strQRegWrite r n q reg v => Sys2Proof.Machine.execStrQRegWrite r n q reg v s
  | .hifQConfigWrite q reg v => Sys2Proof.Machine.execHifQConfigWrite q reg v s
  | .winConfigWrite r w reg v => Sys2Proof.Machine.execWinConfigWrite r w reg v s
  | .fcsFailure p => Sys2Proof.Machine.execFcsFailure p s
  | .railRise rail => Sys2Proof.Machine.execRailRise rail s

end Sys2Proof.Machine
end

