-- ==== Sys2Proof/Machine/Tick.lean ====
section
/-! DEFINITION. What the device does when no command waits. -/

namespace Sys2Proof.Machine

/-- One FABRIC_CLK cycle passes: a firmware update that has been written ends, kernels whose contexts have
all halted complete, aborted collectives complete, and a queue hung for a second calls for recovery. -/
def tick (s : State) : Host.Outcome State Fault Refusal :=
  run (fun s => collSweep (kernelSweep (hangSweep (fwFinish (s.advance (s.now + fabTicks)))))) s

end Sys2Proof.Machine
end

