-- ==== Sys2Proof/Safety.lean ====
section
/-! DEFINITION. What counts as a safe state and a safe run, and the words the statements use: what a command
answers, and what it leaves alone. -/

namespace Sys2Proof

/-- The state's own order: device and host memory are in canonical form. -/
def Machine.State.Ordered (s : Machine.State) : Prop :=
  Machine.memWf s.mem = true ∧ Machine.memWf s.host = true
/-- k steps from a state all answer a next state. -/
def SafeRun : Nat → Machine.State → Prop
  | 0, _ => True
  | k + 1, s => ∃ t, Machine.step s = .next t ∧ SafeRun k t

namespace Machine

/-- A command at a state answers the next state `t`, left in the order in which every command leaves a
state: the queue as it was, time never back, memory in canonical form. -/
def Answers (c : Instr) (s t : State) : Prop := exec c s = .next (s.settle t)
/-- Every CSR but the ones listed holds what it held. -/
def State.RegsBut (s t : State) (rs : List Reg) : Prop :=
  ∀ a, a ∉ rs.map regAddr → tabFind t.regs a = tabFind s.regs a
/-- Nothing but the CSRs listed differs: all other CSRs, every byte of memory, every core, engine,
queue, port and clock stay as they were. -/
def State.OnlyRegs (s t : State) (rs : List Reg) : Prop := s.RegsBut t rs ∧ t = { s with regs := t.regs }
/-- Every byte of device memory outside the ranges (start, length) listed reads as it did. -/
def State.MemBut (s t : State) (rs : List (Nat × Nat)) : Prop :=
  ∀ a, (∀ r ∈ rs, a < r.1 ∨ r.1 + r.2 ≤ a) → memByte t.mem a = memByte s.mem a
/-- Every CSR outside the error unit and the MSI-X pending bits holds what it held: what a raised event
leaves alone (R485). -/
def State.RegsButErr (s t : State) (rs : List Reg) : Prop :=
  ∀ a, a ∉ rs.map regAddr → (a < 0x020250000000 ∨ 0x020250020000 ≤ a) →
    (a < 0x020200111000 ∨ 0x020200111020 ≤ a) → tabFind t.regs a = tabFind s.regs a
/-- One event was raised: its sequence number advanced, and nothing outside the error unit, the MSI-X
pending bits and the messages sent changed (R485). -/
def ErrorRaised (s t : State) : Prop :=
  t.fld .errHead F.errHeadSeq = (s.fld .errHead F.errHeadSeq + 1) % 2 ^ 32 ∧ s.RegsButErr t [] ∧
  t = { s with regs := t.regs, msixSent := t.msixSent }
/-- Nothing is due in core n: no result, store, access or operation at the Orangery control block of an earlier
cycle has yet to act, no window write has yet to become visible, and no kernel waits for the end of a context. -/
def State.Settled (s : State) (n : Nat) : Prop :=
  s.landCm n = s ∧ flushLanded n s = s ∧ s.tsSettle = s ∧ landSlow n s = s ∧ s.landVec n = s ∧
  s.syncCore n = s ∧ s.hif.kernels = []
/-- Context c of core n may issue in this cycle, outside validation mode: nothing is due, no context of the
core is FAULTED, none but c has the core, c does not wait, and no REPEAT, STOP or stall is in progress. -/
def State.Calm (s : State) (n c : Nat) : Prop :=
  s.Settled n ∧ s.toCyc n (max (s.cyc n) (s.core n).notBefore) = s ∧ s.vmode n = false ∧ coreStopped s n = false ∧ s.ctx n c ≠ ctxWaiting ∧
  ((s.core n).running = none ∨ (s.core n).running = some c) ∧ (s.core n).rep = 0 ∧
  (s.core n).stall = none ∧ c ∉ (s.core n).stops
/-- An operation of context c decodes (R300) and meets no stall (R302, R320, R328, R330) in this cycle. -/
def State.Ready (s : State) (n c : Nat) (o : BOp) : Prop :=
  s.Calm n c ∧ bundleStall s n c [o] = none ∧ opFault s n c [o] o = 0
/-- A requester's access at an address of the register space reaches it: any requester's but the host's;
the host's while the interface serves it (R463, R465) and no idle state has to end first (R440). -/
def State.Reaches (s : State) (r : Requester) (a : Nat) : Prop :=
  r = .host → wakeFor a s = s ∧ barServed s a = true
/-- A register that has no behaviour beyond the access codes of its fields: a write of it does what those
say (R10). -/
def plainReg : Reg → Bool
  | .none | .mxeCfg .. | .mxeBypass .. | .ssParam _ | .ssCenter _ | .ssCtrl _ | .scEvent _ | .scEventSet _
  | .tctxCtl .. | .tctxCode .. | .tctxPc .. | .tctxPoison .. | .tctxReg .. | .ibuf .. | .strQCtl .. | .strQSrc ..
  | .strQDst .. | .strQIr .. | .strProg .. | .cmcShadowInv _ | .cmcCtl _ | .tsCnt _ | .tsNotify _ | .barState _
  | .barCtl _ | .ghDirBase _ | .ghHeapBase _ | .ghHeapLim _ | .ghDirCtl _ | .ghCmdqCtl .. | .ghCmdqPush ..
  | .ghPhy .. | .bsCtl _ | .bsRank _ | .winCtl _ | .winPerm _ | .winCmpl _ | .winLocal _ | .gpCtl _ | .xpCtl _
  | .chipNode | .blwCap | .clkCorePs _ | .hifWakeTol | .hifIdle | .hifBar2Map | .hifSqBase _ | .hifCqBase _
  | .hifQCfg _ | .hifQCtl _ | .hifQPost _ | .dmaBase _ | .dmaCfg _ | .msixTable _ | .hifAdvice | .hifFwCtl
  | .dbgCtl | .chipReset | .chipMode | .chipTimer _ | .chipGpio | .errTail | .tstCoreCtl | .tstFence _
  | .tstTraceCtl | .csrtCtl => false
  | _ => true
/-- The commands that act whatever holds the compute die: the package's rails and pins, boot, the AUX
controller's sideband, the test access port (R463-R471, R518-R522, R529-R531). -/
def outsideDie : Instr → Bool
  | .boot _ | .bootStageTimeout .. | .perstAssert | .powerUp | .powerLoss | .auxRailLoss | .railRise _
  | .pldmRequest .. | .pldmFwUpdate .. | .extest _ | .extestPulse | .idcode | .samplePreload _ | .bypass
  | .ieee1687Access _ | .challengeRead | .tokenWrite _ | .tapReset | .fastThrottleAssert
  | .fastThrottleDeassert => true
  | _ => false
/-- The slot rows, as core, context and operation: one operation in a bundle whose other slots are NOPs
(R296). -/
def slotRow : Instr → Option (CoreId × CtxId × BOp)
  | .alu n c a => some (n, c, .sc 0x1 a)
  | .alui n c a => some (n, c, .sc 0x2 a)
  | .li n c a => some (n, c, .sc 0x3 a)
  | .ld n c a => some (n, c, .sc 0x4 a)
  | .st n c a => some (n, c, .sc 0x5 a)
  | .ldf n c a => some (n, c, .sc 0x6 a)
  | .stf n c a => some (n, c, .sc 0x7 a)
  | .csrr n c a => some (n, c, .sc 0x8 a)
  | .csrw n c a => some (n, c, .sc 0x9 a)
  | .br n c a => some (n, c, .sc 0xa a)
  | .jr n c a => some (n, c, .sc 0xb a)
  | .repeat n c a => some (n, c, .sc 0xc a)
  | .turn n c a => some (n, c, .sc 0xd a)
  | .tadd n c a => some (n, c, .sc 0xe a)
  | .bar n c a => some (n, c, .sc 0xf a)
  | .evwait n c a => some (n, c, .sc 0x10 a)
  | .evset n c a => some (n, c, .sc 0x11 a)
  | .evstat n c a => some (n, c, .sc 0x12 a)
  | .gturn n c a => some (n, c, .sc 0x15 a)
  | .time n c a => some (n, c, .sc 0x16 a)
  | .yield n c => some (n, c, .sc 0x13 ⟨0, 0, 0, 0, 0⟩)
  | .halt n c => some (n, c, .sc 0x14 ⟨0, 0, 0, 0, 0⟩)
  | .fencef n c => some (n, c, .sc 0x17 ⟨0, 0, 0, 0, 0⟩)
  | .fill n c m a => some (n, c, .mx m (.fill a))
  | .wload n c m a => some (n, c, .mx m (.wload a))
  | .pass n c m a => some (n, c, .mx m (.pass a))
  | .spass n c m a => some (n, c, .mx m (.spass a))
  | .drain n c m a => some (n, c, .mx m (.drain a))
  | .discard n c m t => some (n, c, .mx m (.discard t))
  | .fmv n c off => some (n, c, .ff 1 off.toNat)
  | .fdiscard n c => some (n, c, .ff 2 0)
  | .vld n c a => some (n, c, .vx 0x1 a)
  | .vst n c a => some (n, c, .vx 0x2 a)
  | .vadd n c a => some (n, c, .vx 0x3 a)
  | .vsub n c a => some (n, c, .vx 0x4 a)
  | .vmul n c a => some (n, c, .vx 0x5 a)
  | .vfma n c a => some (n, c, .vx 0x6 a)
  | .vmax n c a => some (n, c, .vx 0x7 a)
  | .vmin n c a => some (n, c, .vx 0x8 a)
  | .vunary n c a => some (n, c, .vx 0x9 a)
  | .vcmp n c a => some (n, c, .vx 0xa a)
  | .vsel n c a => some (n, c, .vx 0xb a)
  | .vcvt n c a => some (n, c, .vx 0xc a)
  | .vfunc n c a => some (n, c, .vx 0xd a)
  | .vdiv n c a => some (n, c, .vx 0xe a)
  | .vred n c a => some (n, c, .vx 0xf a)
  | .vbcast n c a => some (n, c, .vx 0x10 a)
  | .vreq n c a => some (n, c, .vx 0x11 a)
  | .vpsum n c a => some (n, c, .vx 0x12 a)
  | .qstart n c a => some (n, c, .st 1 a)
  | .qstop n c a => some (n, c, .st 2 a)
  | .qsetir n c a => some (n, c, .st 3 a)
  | .colon n c a => some (n, c, .st 4 a)
  | .ghpush n c a => some (n, c, .st 5 a)
  | _ => none

end Machine

end Sys2Proof
end

