-- ==== Sys2Proof/Certificates/Slice0/Obligations.lean ====
section
/-! DEFINITION. The statements for the provers. Each speaks of every state, not only of those a run from reset
reaches; `Answers c s t` says that command c at s answers the next state t, and the frame words of
Sys2Proof.Safety say what t leaves alone. -/

open Sys2Proof Sys2Proof.Machine

/-- Writing, clearing and completing a scale slot. (R39, R44.) With the device running, after the statistics
of operations that have ended: SS_CLEAR makes COUNT, HEAD, CUR_AMAX and REPORTED of the slot 0 and changes
nothing else. On a slot without a commit in progress SS_PARAM_WRITE stores SCALE, ZP, SHIFT, ETYPE and
HLEN (CONST stays, NAN_SEEN is cleared by a 1), and SS_CENTER_WRITE stores CENTER and clears the history.
While a commit of the slot is in progress both writes leave every register alone and wait behind the
commit. SS_COMMIT_COMPLETE ends the commit no earlier than its time: the writes held during it apply in
order, so the last one held decides, and with none held no register changes. A clear or a commit of a slot
whose parity has failed raises DETECT_SRAM alone; a write of SS_PARAM makes it valid again. Each clause
says what else stays. -/
def Obligations.SlotWritesClearAndHold : Prop :=
  ∀ (s : State) (n : SlotId) (v : Word), s.dead = false →
    (s.badCtl (.ssParam n) = true →
      ∃ t, Answers (.ssClear n) s t ∧ Answers (.ssCommit n) s t ∧ s.RegsButErr t [.hifAdvice] ∧
        t = { s with regs := t.regs, msixSent := t.msixSent, chip := t.chip } ∧
        t.fld .errHead F.errHeadSeq = (s.fld .errHead F.errHeadSeq + 1) % 2 ^ 32) ∧
    (s.badCtl (.ssParam n) = false → ∃ t, Answers (.ssClear n) s t ∧
      (landReports s).OnlyRegs t [.ssCenter n, .ssCur n] ∧
      t.fld (.ssCenter n) F.ssCenterCount = 0 ∧ t.fld (.ssCenter n) F.ssCenterHead = 0 ∧
      t.fld (.ssCur n) F.ssCurCurAmax = 0 ∧ t.fld (.ssCur n) F.ssCurReported = 0 ∧
      t.fld (.ssCenter n) F.ssCenterCenter = s.fld (.ssCenter n) F.ssCenterCenter ∧
      t.fld (.ssCenter n) F.ssCenterSteps = s.fld (.ssCenter n) F.ssCenterSteps) ∧
    (s.commitOf n = none →
      (∃ t, Answers (.ssParamWrite n v) s t ∧ (landReports s).RegsBut t [.ssParam n] ∧
        t = { landReports s with regs := t.regs, slotNow := t.slotNow, parity := t.parity } ∧
        t.badCtl (.ssParam n) = false ∧
        (∀ f ∈ [F.ssParamScale, F.ssParamZp, F.ssParamShift, F.ssParamEtype, F.ssParamHlen],
          t.fld (.ssParam n) f = f.of v.toNat) ∧
        t.fld (.ssParam n) F.ssParamConst = s.fld (.ssParam n) F.ssParamConst ∧
        (t.bit (.ssParam n) F.ssParamNanSeen =
          ((landReports s).bit (.ssParam n) F.ssParamNanSeen && !v.toNat.testBit 9))) ∧
      (∃ t, Answers (.ssCenterWrite n v) s t ∧ (landReports s).RegsBut t [.ssCenter n, .ssCur n] ∧
        t = { landReports s with regs := t.regs, slotNow := t.slotNow } ∧
        t.fld (.ssCenter n) F.ssCenterCenter = F.ssCenterCenter.of v.toNat ∧
        t.fld (.ssCenter n) F.ssCenterCount = 0 ∧ t.fld (.ssCenter n) F.ssCenterHead = 0 ∧
        t.fld (.ssCur n) F.ssCurCurAmax = 0 ∧ t.fld (.ssCur n) F.ssCurReported = 0 ∧
        t.fld (.ssCenter n) F.ssCenterSteps = s.fld (.ssCenter n) F.ssCenterSteps)) ∧
    (∀ c, s.commitOf n = some c →
      (∃ t, Answers (.ssParamWrite n v) s t ∧ t = { s with commits := t.commits } ∧
        t.commitOf n = some { c with held := c.held ++ [(false, v)] }) ∧
      (∃ t, Answers (.ssCenterWrite n v) s t ∧ t = { s with commits := t.commits } ∧
        t.commitOf n = some { c with held := c.held ++ [(true, v)] }) ∧
      (∃ t, Answers (.ssCommitComplete n) s t ∧ t.commitOf n = none ∧ c.ends ≤ t.now ∧
        s.RegsBut t [.ssParam n, .ssCenter n, .ssCur n] ∧
        t = { s with now := t.now, commits := t.commits, regs := t.regs, parity := t.parity } ∧
        (c.held = [] → t.regs = s.regs) ∧
        (∀ ws w, c.held = ws ++ [(false, w)] →
          ∀ f ∈ [F.ssParamScale, F.ssParamZp, F.ssParamShift, F.ssParamEtype, F.ssParamHlen],
            t.fld (.ssParam n) f = f.of w.toNat) ∧
        (∀ ws w, c.held = ws ++ [(true, w)] →
          t.fld (.ssCenter n) F.ssCenterCenter = F.ssCenterCenter.of w.toNat ∧
          t.fld (.ssCenter n) F.ssCenterCount = 0)))

/-- A commit pushes the reported maximum and sets the scale from the history. (R45.) On a valid slot, after a
commit in progress and the statistics of operations that have ended, SS_COMMIT acts on the slot as it
stands, or, where writes reached it earlier in the same FABRIC_CLK cycle, as it stood before these, which
the commit then holds: if REPORTED, CUR_AMAX goes into the history at HEAD, HEAD advances modulo 16, COUNT
grows to at most 16 and STEPS by one modulo 2^16; if not, the history, HEAD, COUNT and STEPS stay.
CUR_AMAX and REPORTED become 0. With HLEN or COUNT 0 the parameters stay. Else A is the largest of the
last min(COUNT, HLEN) entries: for A other than a zero, SCALE = A / qmax, ZP is 0 for FP8 types and the
clamped rounding of -CENTER / SCALE for INT8, CONST is 0; for A = 0, SCALE = max(|CENTER|, 2^-24) / qmax
(CENTER 0 for FP8), ZP 0, CONST 1, and CONST_CHANNEL is raised. The commit lasts three FABRIC_CLK cycles,
its old parameters recorded. Other registers (the error unit apart) and all memory stay. -/
def Obligations.SlotCommitSetsScale : Prop :=
  ∀ (s0 s : State) (n : SlotId) (held : List (Bool × Word)), s0.dead = false → s0.badCtl (.ssParam n) = false →
    (let u := commitComplete n (landReports s0)
     match u.slotNowOf n with
     | none => s = u ∧ held = []
     | some w => s = { slotUndo n w u with slotNow := u.slotNow.filter fun x => x.slot != n.val } ∧ held = w.writes) →
    ∃ t, Answers (.ssCommit n) s0 t ∧
      t.commits = s.commits ++ [⟨n, s.now + 3 * fabTicks, BitVec.ofNat 64 (s.word (.ssParam n)),
        BitVec.ofNat 64 (s.word (.ssCenter n)), held⟩] ∧
      s.RegsButErr t ([.ssParam n, .ssCenter n, .ssCur n] ++ (List.range 8).map (.ssHist n)) ∧
      t = { s with regs := t.regs, commits := t.commits, msixSent := t.msixSent } ∧
      t.fld (.ssCur n) F.ssCurCurAmax = 0 ∧ t.fld (.ssCur n) F.ssCurReported = 0 ∧
      t.fld (.ssCenter n) F.ssCenterCenter = s.fld (.ssCenter n) F.ssCenterCenter ∧
      t.fld (.ssParam n) F.ssParamEtype = s.fld (.ssParam n) F.ssParamEtype ∧
      t.fld (.ssParam n) F.ssParamHlen = s.fld (.ssParam n) F.ssParamHlen ∧
      t.fld (.ssParam n) F.ssParamShift = s.fld (.ssParam n) F.ssParamShift ∧
      (if s.bit (.ssCur n) F.ssCurReported then
        t.hist n (s.fld (.ssCenter n) F.ssCenterHead) = s.fld (.ssCur n) F.ssCurCurAmax ∧
        t.fld (.ssCenter n) F.ssCenterHead = (s.fld (.ssCenter n) F.ssCenterHead + 1) % 16 ∧
        t.fld (.ssCenter n) F.ssCenterCount = min (s.fld (.ssCenter n) F.ssCenterCount + 1) 16 ∧
        t.fld (.ssCenter n) F.ssCenterSteps = (s.fld (.ssCenter n) F.ssCenterSteps + 1) % 2 ^ 16
      else
        (∀ i, t.hist n i = s.hist n i) ∧
        ∀ f ∈ [F.ssCenterHead, F.ssCenterCount, F.ssCenterSteps],
          t.fld (.ssCenter n) f = s.fld (.ssCenter n) f) ∧
      (let hlen := s.fld (.ssParam n) F.ssParamHlen
       let count := t.fld (.ssCenter n) F.ssCenterCount
       let int8 := s.fld (.ssParam n) F.ssParamEtype = etInt8
       let center := if int8 then s.fld (.ssCenter n) F.ssCenterCenter else 0
       let qmax := slotQmax (s.fld (.ssParam n) F.ssParamEtype)
       let a := t.histMax n (min count hlen)
       if hlen = 0 ∨ count = 0 then t.word (.ssParam n) = s.word (.ssParam n)
       else if (of32 a).isZero then
         t.fld (.ssParam n) F.ssParamScale =
           div32 (to32 (fpMax (fpAbs (of32 center)) (of32 fp32Floor))) qmax % 2 ^ 32 ∧
         t.fld (.ssParam n) F.ssParamZp = 0 ∧ t.fld (.ssParam n) F.ssParamConst = 1
       else
         t.fld (.ssParam n) F.ssParamScale = div32 a qmax % 2 ^ 32 ∧
         t.fld (.ssParam n) F.ssParamConst = 0 ∧
         t.fld (.ssParam n) F.ssParamZp =
           if int8 then ux 8 (quotToInt (-128) 127 (fpDiv (fpNeg (of32 center)) (of32 (div32 a qmax))))
           else 0)

/-- One STACK_CLK cycle of a stack port's decisions. (R288, R289, R290, R291.) PORT_ARBITRATE with distinct
presenting requesters, the device running. Where a transfer is in flight, the port resets, or BS_FREEZE is
set, nothing is granted. Else, if the slot's owner presents it is granted and counted in OWNED; if not,
the presenting requester first in the ranking is granted and counted in FREE; with nobody presenting
nothing is granted. The granted transfer is in flight from now, INFLIGHT reads 1, and MAXWAIT covers its
wait. Each loser counts a WAITCYC and gets the distance to its next owned slot as hint, 63 while frozen or
when it owns none. Only this port's counters and status and its record change, and time moves to the next
STACK_CLK cycle. No byte of memory changes. -/
def Obligations.PortArbitrationGrantsAndHints : Prop :=
  ∀ (s : State) (k : StackId) (ps : List (Fin 12)), s.dead = false → ps.Nodup →
    ∃ t, Answers (.portArbitrate k ps) s t ∧
      s.RegsBut t ([.bsStat k] ++ (List.range 12).map (.bsWait k) ++ (List.range 12).map (.bsGrants k)) ∧
      t = { s with regs := t.regs, ports := t.ports, now := t.now } ∧
      (∀ j, j ≠ k.val → t.port j = s.port j) ∧
      t.now = max s.now ((s.port k).frame + stackTicks * (s.portCyc k + 1)) ∧
      (let present (r : Nat) := r ∈ ps.map Fin.val
       let owner := s.slotOwner k (s.portSlot k)
       let grant : Option Nat → Prop := fun g =>
         (∀ r, present r → some r ≠ g →
           t.fld (.bsWait k r) F.bsWaitWaitcyc = min (s.fld (.bsWait k r) F.bsWaitWaitcyc + 1) (2 ^ 32 - 1) ∧
           tabGet 0 (t.port k).waits r = tabGet 0 (s.port k).waits r + 1 ∧
           ∃ h, tabFind (t.port k).hints r = some h ∧
             if s.bit (.bsCtl k) F.bsCtlBsFreeze then h = 63
             else (h < 63 → s.slotOwner k (s.portSlot k + 1 + h) = r) ∧ h ≤ 63 ∧
               ∀ i < h, s.slotOwner k (s.portSlot k + 1 + i) ≠ r) ∧
         (∀ r, g = some r → (t.port k).inflight = some (r, s.now) ∧
           t.fld (.bsStat k) F.bsStatInflight = 1 ∧
           t.fld (.bsWait k r) F.bsWaitMaxwait =
             min (max (tabGet 0 (s.port k).waits r) (s.fld (.bsWait k r) F.bsWaitMaxwait)) (2 ^ 32 - 1) ∧
           tabFind (t.port k).waits r = none ∧
           (if r = owner then
             t.fld (.bsGrants k r) F.bsGrantsOwned = min (s.fld (.bsGrants k r) F.bsGrantsOwned + 1) (2 ^ 32 - 1)
            else t.fld (.bsGrants k r) F.bsGrantsFree = min (s.fld (.bsGrants k r) F.bsGrantsFree + 1) (2 ^ 32 - 1))) ∧
         (g = none → (t.port k).inflight = (s.port k).inflight ∧ t.word (.bsStat k) = s.word (.bsStat k))
       if (s.port k).inflight.isSome ∨ (s.port k).resetEnd.isSome ∨ s.bit (.bsCtl k) F.bsCtlBsFreeze then
         grant none
       else if present owner then grant (some owner)
       else (∀ p < 12, present (rankAt (s.ranking k) p) →
           (∀ q < p, ¬ present (rankAt (s.ranking k) q)) → grant (some (rankAt (s.ranking k) p))) ∧
         ((∀ p < 12, ¬ present (rankAt (s.ranking k) p)) → grant none))

/-- A stack port's transfer end, watchdog, reset, table commit, freeze and ranking. (R290, R291, R293.) With
the device running. PORT_TRANSFER_DONE ends the transfer in flight (INFLIGHT 0). PORT_WATCHDOG with a
transfer in flight and WDOG_LIMIT not 0 moves time to the moment the count is reached, notes the requester
in LAST_WD, counts WD_COUNT, raises an event and resets the port for 1,024 FABRIC_CLK cycles; with
WDOG_LIMIT 0, or nothing in flight, nothing changes. BS_PRESET resets the port alike without the event.
PORT_RESET_END ends the reset: the frame restarts at slot 0. BS_COMMIT notes the commit once;
BS_TABLE_ACTIVATE copies the pending table into the active one at the start of the next frame.
BS_FREEZE_WRITE sets BS_FREEZE. BS_RANK_WRITE stores a ranking of twelve distinct codes below 12, the old
one still deciding in this cycle; any other is discarded with DESC_FORMAT. The tables, the ranking,
BS_FREEZE and all other state stay as the clauses say. -/
def Obligations.PortResetsTablesAndRanking : Prop :=
  ∀ (s : State) (k : StackId), s.dead = false →
    (∃ t, Answers (.portTransferDone k) s t ∧ s.RegsBut t [.bsStat k] ∧
      t = { s with regs := t.regs, ports := t.ports } ∧
      t.port k = { s.port k with inflight := none } ∧ (∀ j, j ≠ k.val → t.port j = s.port j) ∧
      t.fld (.bsStat k) F.bsStatInflight = 0) ∧
    (∀ r t0, (s.port k).inflight = some (r, t0) → s.fld (.bsCtl k) F.bsCtlWdogLimit ≠ 0 →
      ∃ t, Answers (.portWatchdog k) s t ∧ s.RegsButErr t [.bsStat k] ∧
        t = { s with regs := t.regs, ports := t.ports, now := t.now, msixSent := t.msixSent } ∧
        t.now = max s.now (t0 + s.fld (.bsCtl k) F.bsCtlWdogLimit * fabTicks) ∧
        t.port k = { s.port k with inflight := none, resetEnd := some (t.now + 1024 * fabTicks) } ∧
        (∀ j, j ≠ k.val → t.port j = s.port j) ∧
        t.fld .errHead F.errHeadSeq = (s.fld .errHead F.errHeadSeq + 1) % 2 ^ 32 ∧
        t.fld (.bsStat k) F.bsStatLastWd = r % 16 ∧
        t.fld (.bsStat k) F.bsStatWdCount = min (s.fld (.bsStat k) F.bsStatWdCount + 1) (2 ^ 16 - 1) ∧
        t.fld (.bsStat k) F.bsStatInflight = 0 ∧ t.fld (.bsStat k) F.bsStatResetting = 1) ∧
    ((s.port k).inflight = none ∨ s.fld (.bsCtl k) F.bsCtlWdogLimit = 0 → Answers (.portWatchdog k) s s) ∧
    (∃ t, Answers (.bsPreset k) s t ∧ s.RegsBut t [.bsStat k] ∧
      t = { s with regs := t.regs, ports := t.ports } ∧
      t.port k = { s.port k with inflight := none, resetEnd := some (s.now + 1024 * fabTicks) } ∧
      (∀ j, j ≠ k.val → t.port j = s.port j) ∧
      t.fld (.bsStat k) F.bsStatInflight = 0 ∧ t.fld (.bsStat k) F.bsStatResetting = 1) ∧
    (∀ e, (s.port k).resetEnd = some e → ∃ t, Answers (.portResetEnd k) s t ∧ s.RegsBut t [.bsStat k] ∧
      t = { s with regs := t.regs, ports := t.ports, now := max s.now e } ∧
      t.port k = { s.port k with resetEnd := none, frame := max s.now e } ∧ t.portSlot k = 0 ∧
      (∀ j, j ≠ k.val → t.port j = s.port j) ∧ t.fld (.bsStat k) F.bsStatResetting = 0) ∧
    (∀ r, s.bit (.bsStat k) F.bsStatCommitPend = false →
      ∃ t, Answers (.bsCommit r k) s t ∧ s.RegsBut t [.bsStat k] ∧
        t = { s with regs := t.regs, ports := t.ports } ∧
        t.port k = { s.port k with commitAt := some s.now } ∧
        (∀ j, j ≠ k.val → t.port j = s.port j) ∧ t.bit (.bsStat k) F.bsStatCommitPend = true) ∧
    (∀ r, s.bit (.bsStat k) F.bsStatCommitPend = true → Answers (.bsCommit r k) s s) ∧
    (∀ c, (s.port k).commitAt = some c → ∃ t, Answers (.bsTableActivate k) s t ∧
      s.RegsBut t ([.bsStat k] ++ (List.range 4).map (.bsAct k)) ∧
      t = { s with regs := t.regs, ports := t.ports, now := t.now } ∧
      t.now = max s.now (if c < (s.port k).frame then (s.port k).frame
        else (s.port k).frame + 256 * ((c - (s.port k).frame) / 256 + 1)) ∧
      t.port k = { s.port k with commitAt := none } ∧ (∀ j, j ≠ k.val → t.port j = s.port j) ∧
      t.bit (.bsStat k) F.bsStatCommitPend = false ∧
      ∀ i < 4, t.word (.bsAct k i) = s.word (.bsSlot k i)) ∧
    (∀ b, ∃ t, Answers (.bsFreezeWrite k b) s t ∧ s.OnlyRegs t [.bsCtl k] ∧
      t.bit (.bsCtl k) F.bsCtlBsFreeze = b ∧
      t.fld (.bsCtl k) F.bsCtlWdogLimit = s.fld (.bsCtl k) F.bsCtlWdogLimit) ∧
    (∀ r (v : Word), (∀ p < 12, rankAt v.toNat p < 12) →
      (∀ p < 12, ∀ q < p, rankAt v.toNat p ≠ rankAt v.toNat q) →
      ∃ t, Answers (.bsRankWrite r k v) s t ∧ s.RegsBut t [.bsRank k] ∧
        t = { s with regs := t.regs, ports := t.ports } ∧ (∀ j, j ≠ k.val → t.port j = s.port j) ∧
        (∀ p < 12, rankAt (t.word (.bsRank k)) p = rankAt v.toNat p) ∧ t.ranking k = s.ranking k) ∧
    (∀ r (v : Word), ((∃ p < 12, 12 ≤ rankAt v.toNat p) ∨
        ∃ p < 12, ∃ q < p, rankAt v.toNat p = rankAt v.toNat q) →
      Answers (.bsRankWrite r k v) s (s.refuseWrite (srcOf 3 k 0) (regAddr (.bsRank k)) v.toNat ecDescFormat))

/-- TURN, ADD and notify on a turnstile. (R254, R255.) For every state and turnstile. TURN of 0 returns VALUE
and changes nothing. TURN of n > 0 at VALUE >= LIMIT counts EXHAUSTED (saturating) and returns all ones.
Else it returns VALUE and VALUE becomes min(VALUE + n, LIMIT). ADD of n makes VALUE (VALUE + n) mod 2^32
whatever LIMIT is. A CSR write of TS_CNT stores VALUE and LIMIT, one of TS_NOTIFY stores ARM, CORE and
EVENT and leaves EXHAUSTED, both after the operations of earlier cycles. After every one of these changes,
when ARM is 1 and VALUE >= LIMIT, ARM becomes 0 and the event of CORE is set with its status word; in all
other cases no core register changes. Other registers and all memory stay. -/
def Obligations.TurnstileTurnAddAndNotify : Prop :=
  ∀ (s0 s : State) (i : TurnId), s = s0.tsSettle →
    let value (u : State) := u.fld (.tsCnt i) F.tsCntValue
    let limit (u : State) := u.fld (.tsCnt i) F.tsCntLimit
    let target (u : State) (f : Fld) := u.fld (.tsNotify i) f
    let notified (v l : Nat) (arm : Bool) (core event : Nat) (t : State) : Prop :=
      value t = v ∧ limit t = l ∧ target t F.tsNotifyCore = core ∧ target t F.tsNotifyEvent = event ∧
      t = { s with regs := t.regs, cores := t.cores, parity := t.parity } ∧
      if arm = true ∧ l ≤ v then
        s.RegsBut t [.tsCnt i, .tsNotify i, .scEvent core, .scEvstat core event] ∧
        t.bit (.tsNotify i) F.tsNotifyArm = false ∧ bitAt (t.word (.scEvent core)) event = true ∧
        (∀ e, e ≠ event → bitAt (t.word (.scEvent core)) e = bitAt (s.word (.scEvent core)) e) ∧
        (∀ n, n ≠ core → t.core n = s.core n)
      else s.RegsBut t [.tsCnt i, .tsNotify i] ∧ t.bit (.tsNotify i) F.tsNotifyArm = arm ∧ t.cores = s.cores
    let arm := s.bit (.tsNotify i) F.tsNotifyArm
    let core := target s F.tsNotifyCore
    let event := target s F.tsNotifyEvent
    let count := target s F.tsNotifyExhausted
    (∀ n : Nat, n < 2 ^ 32 →
      (n = 0 → turn i n s = (s, BitVec.ofNat 64 (value s))) ∧
      (n ≠ 0 → limit s ≤ value s → ∃ t, turn i n s = (t, BitVec.ofNat 64 (2 ^ 64 - 1)) ∧
        s.OnlyRegs t [.tsNotify i] ∧ target t F.tsNotifyExhausted = min (count + 1) (2 ^ 32 - 1) ∧
        t.bit (.tsNotify i) F.tsNotifyArm = arm) ∧
      (n ≠ 0 → value s < limit s → ∃ t, turn i n s = (t, BitVec.ofNat 64 (value s)) ∧
        notified (min (value s + n) (limit s)) (limit s) arm core event t ∧
        target t F.tsNotifyExhausted = count) ∧
      (notified ((value s + n) % 2 ^ 32) (limit s) arm core event (turnAdd i n s) ∧
        target (turnAdd i n s) F.tsNotifyExhausted = count)) ∧
    (∀ (r : Requester) (v : Word), s0.dead = false →
      (∃ t, Answers (.tsCntWrite r i v) s0 t ∧ t.badCtl (.tsCnt i) = false ∧
        notified (F.tsCntValue.of v.toNat) (F.tsCntLimit.of v.toNat) arm core event t ∧
        target t F.tsNotifyExhausted = count) ∧
      (∃ t, Answers (.tsNotifyWrite r i v) s0 t ∧
        notified (value s) (limit s) (F.tsNotifyArm.of v.toNat != 0) (F.tsNotifyCore.of v.toNat)
          (F.tsNotifyEvent.of v.toNat) t ∧ target t F.tsNotifyExhausted = count))

/-- A deferred operation on a turnstile is served, first in the order of service. (R256.) The next operation
of the control block is, of its service (t mod 16), the first in the order of its cycle and that cycle's
rotation. With the device running and the turnstile's own operation next, TURNSTILE_DEFERRED_OP serves it
in its cycle, the first that its service has free: it acts as TURN or ADD say, its result is noted in its
entry (an operation that asks for no answer leaves the queue), every other entry stays as it was, its
service is free again in the cycle after, and time is at least its cycle. On an entry that fails its
parity it raises DETECT_SRAM and its result is free. With none waiting nothing changes. -/
def Obligations.DeferredTurnstileOperationServed : Prop :=
  ∀ (s : State) (i : TurnId), s.dead = false →
    ((∀ o ∈ s.tsq, o.res = none → o.kind.target ≠ i) → Answers (.turnstileDeferredOp i) s s) ∧
    (∀ o, nextTs s = some o → o ∈ s.tsq ∧ o.res = none ∧
      ∀ p ∈ s.tsq, p.res = none → p.kind.cls = o.kind.cls → o.kind.cls ≠ none → o.key s ≤ p.key s) ∧
    (∀ o, nextTs s = some o → o.kind.target = i →
      let s1 : State := { s with now := s.turnAt o * fabTicks }
      ∃ t, Answers (.turnstileDeferredOp i) s t ∧ s.turnAt o * fabTicks ≤ t.now ∧
        (∃ u w, (∀ n, o.kind = .turn i n → if s.badCtl (.tsCnt i) then u = ((ctlFail s1).free 64).2 else turn i n s1 = (u, w)) ∧
          (∀ n, o.kind = .add i n → if s.badCtl (.tsCnt i) then u = ((ctlFail s1).free 64).2 else turnAdd i n s1 = u) ∧
          t = { u with tsq := t.tsq, tsFree := t.tsFree, now := t.now } ∧
          tabGet 0 t.tsFree (i.val % 16) = s.turnAt o + 1 ∧
          (o.req < 37 → t.tsq = s.tsq.modify (s.tsq.idxOf o) fun p => { p with res := some w, svc := s.turnAt o }) ∧
          (37 ≤ o.req → t.tsq = s.tsq.erase o)))

/-- Writing COUNT, aborting and resetting a chip barrier. (R257, R258.) With the device running, after the
operations of earlier cycles at the control block. A write of COUNT stores it; when ARRIVED is not 0 and
the new COUNT is no greater, the barrier releases: GEN advances modulo 2^32 and ARRIVED becomes 0; else
GEN and ARRIVED stay. BAR_ABORT advances GEN, sets ARRIVED to 0, and every wait of a core on a generation
of this barrier that GEN has not passed, or that joined the current one with its answer on its way, ends
aborted, every other wait and the rest of every core as before. BAR_RESET sets ARRIVED to 0 and nothing
else: waiters wait on. No other register and no memory changes. -/
def Obligations.ChipBarrierCountAbortAndReset : Prop :=
  ∀ (s0 s : State) (b : BarId), s0.dead = false → s = s0.tsSettle →
    let gen (u : State) := u.fld (.barState b) F.barStateGen
    let arrived (u : State) := u.fld (.barState b) F.barStateArrived
    let count (u : State) := u.fld (.barState b) F.barStateCount
    (∀ v : Word, ∃ t, Answers (.barCountWrite b v) s0 t ∧ s.RegsBut t [.barState b] ∧
      t = { s with regs := t.regs, parity := t.parity } ∧ t.badCtl (.barState b) = false ∧
      count t = F.barStateCount.of v.toNat ∧
      if arrived s ≠ 0 ∧ F.barStateCount.of v.toNat ≤ arrived s then
        gen t = (gen s + 1) % 2 ^ 32 ∧ arrived t = 0
      else gen t = gen s ∧ arrived t = arrived s) ∧
    (∃ t, Answers (.barAbort b) s0 t ∧ s.RegsBut t [.barState b] ∧
      t = { s with regs := t.regs, cores := t.cores } ∧
      gen t = (gen s + 1) % 2 ^ 32 ∧ arrived t = 0 ∧ count t = count s ∧
      ∀ n, t.core n = { s.core n with waits := (t.core n).waits } ∧
        (t.core n).waits.map Prod.fst = (s.core n).waits.map Prod.fst ∧
        ∀ c w, tabFind (s.core n).waits c = some w →
          (∀ g x, w.kind = .barrier b.val g x → tabFind (t.core n).waits c =
            some (if barPast s b g then w else { w with kind := .barrier b.val g true })) ∧
          (w.kind = .joining b.val → tabFind (t.core n).waits c =
            some (if s.hasJoined n b (gen s) then { w with kind := .barrier b.val (gen s) true } else w)) ∧
          ((∀ g x, w.kind ≠ .barrier b.val g x) → w.kind ≠ .joining b.val →
            tabFind (t.core n).waits c = some w)) ∧
    (∃ t, Answers (.barReset b) s0 t ∧ s.OnlyRegs t [.barState b] ∧
      gen t = gen s ∧ arrived t = 0 ∧ count t = count s)

/-- A read or write at the Orangery. (R250, R251, R252.) With the device running. A write of bytes within the
Orangery leaves exactly those bytes there, so that a read of them gives them back; every byte of memory
outside it and every register stays; a poisoned write poisons every unit it touches. A read answers the
bytes stored, little-endian, as a poisoned completion when one of its units is poisoned, and changes
nothing else but what a unit that fails its parity makes known. An access that runs past the end of the
Orangery raises DESC_RANGE with the device address and changes no memory. -/
def Obligations.OrangeryAccessReadsAndWrites : Prop :=
  ∀ (s : State) (r : Requester) (off len : Nat) (data : List Byte) (poison : Bool), s.dead = false →
    (off + data.length ≤ 0x10000000 → ∃ t, Answers (.orangeryAccess r off len data true poison) s t ∧
      t = { s with mem := t.mem, sramPoison := t.sramPoison, parity := t.parity } ∧
      memRead t.mem (orgBase + off) data.length = data ∧ s.MemBut t [(orgBase + off, data.length)] ∧
      (poison = true → ∀ a, off ≤ a → a < off + data.length → t.poisoned (orgBase + a) = true)) ∧
    (off + len ≤ 0x10000000 → ∃ t, Answers (.orangeryAccess r off len data false poison) s t ∧
      t = { (s.senseN (orgBase + off / 64 * 64) (if len = 0 then 0 else ceilDiv (off % 64 + len) 64)).2 with
        reply := t.reply } ∧
      ((∀ u ∈ s.parity.units, u * 64 + 64 ≤ orgBase + off / 64 * 64 ∨
        orgBase + off + len ≤ u * 64) → t = { s with reply := t.reply }) ∧
      ∃ y, t.reply = some y ∧
      y.v = leNat (memRead s.mem (orgBase + off) len) ∧
      (y.kind = if s.anyPoison (orgBase + off) len then 3 else 0)) ∧
    (∀ w, 0x10000000 < off + (if w then data.length else len) →
      Answers (.orangeryAccess r off len data w poison) s
        (s.raise { src := srcOf 6 (orgSlice off) 0, code := ecDescRange, addr := orgBase + off }))

/-- Resolving a handle: success, each failure cause, and the registers they leave. (R148, R151, R152, R153,
R154.) HANDLE_RESOLVE with the device running. With the directory off the cause is 0x07; a write of handle
0 fails with 0x06; neither looks the entry up. A cached entry that passes the checks (for a read its tile
header must agree with it, else 0x04) answers the tile's address, counts ACCESS (saturating) and HITS, and
changes nothing else; one that fails them has the cause of the first check: not valid 0x01, a reserved
code or field 0x05, a location past the last that is allowed 0x03, one in a directory region 0x06. An
entry read from its sound sector counts MISSES: with a CRC that fails the cause is 0x02; else, with room
in its set, it is cached. A failure answers kind 1 and leaves handle and cause in GH_DIR_ERR and an error
event; no byte of memory changes. -/
def Obligations.HandleResolutionOutcomes : Prop :=
  ∀ (s : State) (r : Requester) (h : BitVec 24) (w : Bool), s.dead = false →
    let k := h.toNat % 8
    let i := h.toNat / 8
    let en := s.bit (.ghDirCtl k) F.ghDirCtlEn
    let fails (cause : Nat) : Prop := ∃ t, Answers (.handleResolve r h w) s t ∧
      (∃ y, t.reply = some y ∧ y.kind = 1) ∧
      t.fld (.ghDirErr k) F.ghDirErrHandle = h.toNat ∧ t.fld (.ghDirErr k) F.ghDirErrCause = cause ∧
      t.fld .errHead F.errHeadSeq = (s.fld .errHead F.errHeadSeq + 1) % 2 ^ 32 ∧
      s.RegsButErr t [.ghDirErr k, .ghDirStat k] ∧
      t = { s with regs := t.regs, ghs := t.ghs, reply := t.reply, msixSent := t.msixSent }
    let quiet (a : Nat) : Prop := match placeOf a with
      | .stack j _ => (s.gh j).repair = none ∧ tabGet 0 s.chk (canon a / 64) ∈ [0, poisonSig]
      | _ => a / 64 ∉ s.parity.units
    let header (e : DirEnt) : Prop := let hd := hdrOf (s.rd (e.da / 64 * 64) 64)
      hd.format = e.fmt ∧ hd.etype = e.etype ∧ hd.len = e.len
    let after (e : DirEnt) (stat : Fld) (t : State) : Prop := t.reply = some ⟨e.da, 0⟩ ∧
      t.fld (.ghDirStat k) stat = min (s.fld (.ghDirStat k) stat + 1) stat.top ∧
      s.RegsBut t [.ghDirStat k] ∧ t = { s with regs := t.regs, ghs := t.ghs, reply := t.reply } ∧
      (∀ j, j ≠ k → t.gh j = s.gh j) ∧ t.gh k = { s.gh k with cache := (t.gh k).cache } ∧
      tabFind (t.gh k).cache i = some { e with access := min (e.access + 1) 0xFFFFFFFF } ∧
      ∀ j, j ≠ i → tabFind (t.gh k).cache j = tabFind (s.gh k).cache j
    (en = false → fails 0x07) ∧
    (en = true → w = true → h = 0 → fails 0x06) ∧
    (en = true → ¬ (w = true ∧ h = 0) → (s.gh k).inval = none →
      (∀ e, tabFind (s.gh k).cache i = some e →
        let spare := bitsOf e.w0 50 40 ≠ 0 ∨ e.w1 % 2 ^ 36 ≠ 0 ∨ e.w2 % 2 ^ 16 ≠ 0
        (e.valid = false → fails 0x01) ∧
        (e.valid = true → (5 < e.fmt ∨ 6 < e.etype ∨ spare) → fails 0x05) ∧
        (e.valid = true → ¬ (5 < e.fmt ∨ 6 < e.etype ∨ spare) → 0x020010000000 ≤ e.da → fails 0x03) ∧
        (entFault e = 0 → s.inDir e.da (e.len * 64) = true → fails 0x06) ∧
        (entFault e = 0 → s.inDir e.da (e.len * 64) = false →
          (w = false → quiet e.da → ¬ header e → fails 0x04) ∧
          ((w = false → quiet e.da ∧ header e) →
            ∃ t, Answers (.handleResolve r h w) s t ∧ after e F.ghDirStatHits t))) ∧
      (tabFind (s.gh k).cache i = none → (s.gh k).repair = none →
        tabGet 0 s.chk (canon (s.dirAddr h.toNat) / 64) = 0 → isStack (s.dirAddr h.toNat) = true →
        let e := (s.dirStored h.toNat).1
        let sound := (s.dirStored h.toNat).2 = crc32 (s.rd (s.dirAddr h.toNat) 24)
        (¬ sound → fails 0x02) ∧
        (sound → ((s.gh k).cache.filter fun c => cacheSet c.1 == cacheSet i).length < 16 →
          entFault e = 0 → s.inDir e.da (e.len * 64) = false → (w = false → quiet e.da ∧ header e) →
          ∃ t, Answers (.handleResolve r h w) s t ∧ after e F.ghDirStatMisses t)))

/-- Flushing and invalidating the directory cache, and writing its base and the heap bounds. (R155, R163,
R164, R218.) With the device running. GH_DIR_FLUSH writes ACCESS of every cached entry into its place in
the directory and changes no other byte, register or record. GH_DIR_INVAL notes an invalidation that ends
after one GH_CLK cycle for each cached entry, at least one. GH_DIR_INVAL_DONE, while one is noted, moves
time to its end, writes ACCESS back as a flush does and empties the cache. GH_DIR_BASE_WRITE, and
GH_HEAP_WRITE by a control core, store their register's field while EN is 0, and are refused with
CONFIG_CONFLICT, the register as it was, while EN is 1; so is a heap bound's write by any other requester
(assumption 175). -/
def Obligations.DirectoryFlushInvalidateAndBounds : Prop :=
  ∀ (s : State) (k : StackId), s.dead = false →
    let place (c : Nat × DirEnt) := (s.dirAddr (c.1 * 8 + k) + 28, 4)
    let flushed (t : State) : Prop := s.MemBut t ((s.gh k).cache.map place) ∧
      ∀ i e, tabFind (s.gh k).cache i = some e →
        memRead t.mem (s.dirAddr (i * 8 + k) + 28) 4 = natLe 4 e.access
    (∃ t, Answers (.ghDirFlush k) s t ∧ flushed t ∧ t = { s with mem := t.mem }) ∧
    (∃ t, Answers (.ghDirInval k) s t ∧ t = { s with ghs := t.ghs } ∧
      t.gh k = { s.gh k with inval := some (s.now + max 1 (s.gh k).cache.length * fabTicks) } ∧
      ∀ j, j ≠ k.val → t.gh j = s.gh j) ∧
    ((s.gh k).inval = none → Answers (.ghDirInvalDone k) s s) ∧
    (∀ e, (s.gh k).inval = some e → ∃ t, Answers (.ghDirInvalDone k) s t ∧ flushed t ∧
      t = { s with mem := t.mem, ghs := t.ghs, now := max s.now e } ∧
      t.gh k = { s.gh k with cache := [], inval := none } ∧ ∀ j, j ≠ k.val → t.gh j = s.gh j) ∧
    (∀ r (v : Word), if s.bit (.ghDirCtl k) F.ghDirCtlEn then
        Answers (.ghDirBaseWrite r k v) s (s.conflict (srcOf 2 k 0) (regAddr (.ghDirBase k)) v.toNat)
      else ∃ t, Answers (.ghDirBaseWrite r k v) s t ∧ s.OnlyRegs t [.ghDirBase k] ∧
        t.fld (.ghDirBase k) F.ghDirBaseBase = F.ghDirBaseBase.of v.toNat) ∧
    (∀ r (v : Word), if s.bit (.ghDirCtl k) F.ghDirCtlEn ∨ Requester.isCc r = false then
        Answers (.ghHeapWrite r k false v) s (s.conflict (srcOf 2 k 0) (regAddr (.ghHeapBase k)) v.toNat) ∧
        Answers (.ghHeapWrite r k true v) s (s.conflict (srcOf 2 k 0) (regAddr (.ghHeapLim k)) v.toNat)
      else (∃ t, Answers (.ghHeapWrite r k false v) s t ∧ s.OnlyRegs t [.ghHeapBase k] ∧
          t.fld (.ghHeapBase k) F.ghHeapBaseOffset = F.ghHeapBaseOffset.of v.toNat) ∧
        ∃ t, Answers (.ghHeapWrite r k true v) s t ∧ s.OnlyRegs t [.ghHeapLim k] ∧
          t.fld (.ghHeapLim k) F.ghHeapLimOffset = F.ghHeapLimOffset.of v.toNat)

/-- A tile switch, the start of a migration and its switch update the directory entry in one step. (R152,
R157, R159.) With the device running and the entry of handle h in the cache. TILE_SWITCH of the oldest
waiting switch of h, with no migration of it: the cached entry takes the new location, length, format,
element type, slot and nnz, stays VALID, keeps PINNED, clears POISON and MIGRATING, and VERSION advances
modulo 2^32; the words and their CRC are written through; the switch no longer waits; registers stay. With
no switch of h waiting nothing changes. MIGRATION_START of a movable tile with room in the destination
heap sets MIGRATING, notes the copy's place and puts a COPY of the tile to it into queue 14 of the home
Glasshouse (assumption 177), or among the pushes that wait for that queue when it is full; without room or
for a tile that may not move nothing but the heap's own sweep of freed space changes. MIGRATION_SWITCH of
a migrating tile whose COPY has ended moves LOC to the copy, clears MIGRATING, forgets the copy and counts
it; with no migration noted, or its COPY still to end, nothing changes. -/
def Obligations.TileSwitchAndMigrationUpdateEntry : Prop :=
  ∀ (s : State) (h : BitVec 24) (e : DirEnt), s.dead = false →
    let n := h.toNat
    let k := n % 8
    let entry (t : State) := tabFind (t.gh k).cache (n / 8)
    let waiting := (s.gh k).queues.flatMap fun q => q.2.flatMap GhCmd.switches
    entry s = some e →
    ((∀ u ∈ waiting, u.h ≠ n) → Answers (.tileSwitch h) s s) ∧
    (∀ u, waiting.find? (fun v => v.h == n) = some u → e.migrating = false →
      u.fmt < 16 → u.etype < 16 → u.da % 64 = 0 → u.da < 2 ^ 46 → u.len < 2 ^ 16 → u.slot < 2 ^ 12 → u.nnz < 2 ^ 16 →
      ∃ t e', Answers (.tileSwitch h) s t ∧ entry t = some e' ∧
        e'.da = u.da ∧ e'.len = u.len ∧ e'.fmt = u.fmt ∧ e'.etype = u.etype ∧ e'.slot = u.slot ∧
        e'.valid = true ∧ e'.poison = false ∧ e'.migrating = false ∧ e'.pinned = e.pinned ∧
        e'.version = (e.version + 1) % 2 ^ 32 ∧ e'.access = e.access ∧
        (let ws := natLe 8 e'.w0 ++ natLe 8 e'.w1 ++ natLe 8 e'.w2
         memRead t.mem (s.dirAddr n) 28 = ws ++ natLe 4 (crc32 ws)) ∧
        s.MemBut t [(s.dirAddr n, 28)] ∧ t.regs = s.regs ∧
        t = { s with mem := t.mem, ghs := t.ghs } ∧
        u ∉ (t.gh k).queues.flatMap fun q => q.2.flatMap GhCmd.switches) ∧
    (∀ dst : StackId, s.movable n = false → Answers (.migrationStart h dst) s s) ∧
    (∀ dst : StackId, s.movable n = true → (heapAlloc dst n e.len s).1 = none →
      Answers (.migrationStart h dst) s (heapSweep dst s)) ∧
    (∀ dst : StackId, s.movable n = true → ∀ da, (heapAlloc dst n e.len s).1 = some da →
      let copy := [0x0A, e.da, da, e.len, 0, 0, 0, 0].map fun x => BitVec.ofNat 64 x
      ∃ t, Answers (.migrationStart h dst) s t ∧ entry t = some (e.set 51 true) ∧
        tabFind (t.gh k).migs n = some da ∧ t.regs = s.regs ∧ t.now = s.now ∧ t.cores = s.cores ∧
        (((s.gh k).q 14).length < 256 → ((t.gh k).q 14).map GhCmd.ws = ((s.gh k).q 14).map GhCmd.ws ++ [copy]) ∧
        (256 ≤ ((s.gh k).q 14).length → (t.gh k).waiting = (s.gh k).waiting ++ [⟨14, none, copy⟩])) ∧
    (tabFind (s.gh k).migs n = none → Answers (.migrationSwitch h) s s) ∧
    (∀ da, tabFind (s.gh k).migs n = some da → (s.gh k).copying da = true → Answers (.migrationSwitch h) s s) ∧
    (∀ da, tabFind (s.gh k).migs n = some da → (s.gh k).copying da = false → e.migrating = true → da % 64 = 0 → da < 2 ^ 46 →
      ∃ t e', Answers (.migrationSwitch h) s t ∧ entry t = some e' ∧ e'.da = da ∧
        e'.migrating = false ∧ e'.len = e.len ∧ e'.version = e.version ∧ e'.access = e.access ∧
        tabFind (t.gh k).migs n = none ∧ s.OnlyRegs { t with mem := s.mem, ghs := s.ghs } [.placeStat] ∧
        t.fld .placeStat F.placeStatMigrated =
          min (s.fld .placeStat F.placeStatMigrated + 1) F.placeStatMigrated.top ∧
        s.MemBut t [(s.dirAddr n, 28)])

/-- Pushing to a Glasshouse queue, resetting it, releasing its fence, completing its head. (R204, R205, R206,
R210, R222, R405, R406, R410.) With the device running. GH_CMDQ_PUSH by the queue's producer with fewer
than 256 commands held appends the eight words with the next sequence number; by another requester it
raises DESC_FORMAT; by the host on a full queue it sets OVERFLOW and raises DESC_RANGE; by a fabric
producer on a full queue it waits. A gradient ACCUM of a micro-batch of the job waits with it while an
earlier micro-batch has yet to issue its own, and is pushed at once when its micro-batch is next and no
gather of it is in the way (R405, R410). GH_CMDQ_RESET ends every command not yet started as aborted and
leaves the started ones. GH_FENCE_RELEASE completes a started FENCE at the head once no masked queue holds
a command with a lower sequence number, and changes nothing before. GH_COMMAND_COMPLETE with the head
done, no switch, no accumulation, no waiting push, no PIN in progress, no failed copy and no completion
action takes exactly the head away, counts COMPLETED and moves time to the moment it is ready; with the
head not done, or none, nothing changes. The frame: no byte of memory and no other register. -/
def Obligations.GlasshouseQueuePushResetAndCompletion : Prop :=
  ∀ (s : State) (k : StackId) (q : QId), s.dead = false →
    let held := (s.gh k).q q
    let same (t : State) : Prop := (∀ j, j ≠ k.val → t.gh j = s.gh j) ∧
      ∀ p, p ≠ q.val → (t.gh k).q p = (s.gh k).q p
    let plain (r : Requester) (g : Option Gradient) : Prop :=
      ∀ i x, r = .cc i → g = some x → s.net.micro.length ≤ x.micro
    (∀ (r : Requester) (ws : List Word) (g : Option Gradient), plain r g → ws.length = 8 →
      Requester.queue r = some q.val → held.length < 256 →
      ∃ t, Answers (.ghCmdqPush r k q ⟨ws, g⟩) s t ∧ t = { s with ghs := t.ghs } ∧ same t ∧
        (t.gh k).q q = held ++ [{ ws := ws, seq := (s.gh k).seq, arr := s.now }] ∧
        (t.gh k).seq = (s.gh k).seq + 1) ∧
    (∀ (r : Requester) (ws : List Word) (g : Option Gradient), plain r g → Requester.queue r ≠ some q.val →
      Answers (.ghCmdqPush r k q ⟨ws, g⟩) s
        (s.raise { src := srcOf 2 k 0, code := ecDescFormat, detail := [(32, 8, (ws.getD 0 0).toNat)] })) ∧
    (∀ (ws : List Word) (g : Option Gradient), q.val = 12 → 256 ≤ held.length →
      ∃ t, Answers (.ghCmdqPush .host k q ⟨ws, g⟩) s t ∧ t.ghs = s.ghs ∧
        t.bit (.ghCmdqStat k q) F.ghCmdqStatOverflow = true ∧ s.RegsButErr t [.ghCmdqStat k q] ∧
        t.fld .errHead F.errHeadSeq = (s.fld .errHead F.errHeadSeq + 1) % 2 ^ 32 ∧ t.mem = s.mem) ∧
    (∀ (r : Requester) (ws : List Word) (g : Option Gradient), plain r g → r ≠ .host →
      Requester.queue r = some q.val → 256 ≤ held.length →
      ∃ t, Answers (.ghCmdqPush r k q ⟨ws, g⟩) s t ∧ t = { s with ghs := t.ghs } ∧ same t ∧
        t.gh k = { s.gh k with waiting := (s.gh k).waiting ++ [⟨q, none, ws⟩] }) ∧
    (∀ (i : Fin 4) (ws : List Word) (x : Gradient) (j : Nat) (m : Micro), s.net.micro[j]? = some m →
      m.issued = false → (∀ b < j, ∀ y, s.net.micro[b]? = some y → y.issued = true) →
      (j < x.micro → x.micro < s.net.micro.length → microClear s m = false ∨ m.held = [] ∧ m.closed = false →
        ∃ t, Answers (.ghCmdqPush (.cc i) k q ⟨ws, some x⟩) s t ∧
          t = { s with net := { s.net with micro := t.net.micro } } ∧ t.net.micro.length = s.net.micro.length ∧
          (∀ b, b ≠ x.micro → t.net.micro[b]? = s.net.micro[b]?) ∧
          ∀ y, s.net.micro[x.micro]? = some y → t.net.micro[x.micro]? =
            some { y with held := y.held ++ [⟨.cc i, k, q, ws⟩], closed := x.last }) ∧
      (j = x.micro → x.last = false ∨ j + 1 = s.net.micro.length → microClear s m = true → m.held = [] →
        ws.length = 8 → Requester.queue (.cc i) = some q.val → held.length < 256 →
        ∃ t, Answers (.ghCmdqPush (.cc i) k q ⟨ws, some x⟩) s t ∧
          t = { s with ghs := t.ghs, net := { s.net with micro := t.net.micro } } ∧ same t ∧
          (t.gh k).q q = held ++ [{ ws := ws, seq := (s.gh k).seq, arr := s.now }] ∧
          (∀ b, b ≠ j → t.net.micro[b]? = s.net.micro[b]?) ∧
          t.net.micro[j]? = some { m with closed := x.last, issued := x.last })) ∧
    (∃ t, Answers (.ghCmdqReset k q) s t ∧ t = { s with ghs := t.ghs } ∧ same t ∧
      (t.gh k).q q = held.map fun c => if c.start.isNone
        then { c with start := some s.now, done := some (ghAborted s.now) } else c) ∧
    (∀ c rest, held = c :: rest → c.start.isSome = true → c.done = none → cOpcode c.ws = 9 →
      let waits := ∃ p < 16, p ≠ q.val ∧ bitAt (cw c.ws 1) p = true ∧ ∃ x ∈ (s.gh k).q p, x.seq < c.seq
      (waits → Answers (.ghFenceRelease k q) s s) ∧
      (¬ waits → ∃ t, Answers (.ghFenceRelease k q) s t ∧ t = { s with ghs := t.ghs } ∧ same t ∧
        (t.gh k).q q = { c with done := some (fenceDone s.now) } :: rest)) ∧
    (s.hif.pins = [] → held = [] → Answers (.ghCommandComplete k q) s s) ∧
    (∀ c rest, s.hif.pins = [] → held = c :: rest → c.done = none → Answers (.ghCommandComplete k q) s s) ∧
    (∀ c rest d, s.hif.pins = [] → held = c :: rest → c.done = some d → c.switches = [] → c.accum = [] →
      cCmpl c.ws = 0 → ¬ (q.val = 14 ∧ 3 ≤ d.status) → (s.gh k).waiting = [] → (∀ x ∈ rest, x.seq ≠ c.seq) →
      ∃ t, Answers (.ghCommandComplete k q) s t ∧ same t ∧ (t.gh k).q q = rest ∧
        t.fld (.ghCmdqStat k q) F.ghCmdqStatCompleted =
          min (s.fld (.ghCmdqStat k q) F.ghCmdqStatCompleted + 1) F.ghCmdqStatCompleted.top ∧
        s.RegsBut t [.ghCmdqStat k q] ∧
        t = { s with ghs := t.ghs, regs := t.regs, now := max s.now d.ready })

/-- A Glasshouse command starts when it is its queue's turn, checks its words and runs its function. (R206,
R208, R209, R220.) With the device running, c the oldest command of a queue not yet started, without a
port's payload, and at the time T (not before 8 cycles after its arrival nor within a cycle of the last
start) that queue having the turn: the start of c's opcode (NOP and the reserved ones, GATHER, SCATTER,
ROW_GATHER, EMB_BAG, ACCUM, SCATTER_ADD, COMPACT, MERGE, FENCE, COPY, HANDLE_WRITE) marks it started at T
and passes the turn's credit on. Words that fail a check, or an entry that fails its parity, run nothing:
one error event is raised, and the command is done with status 3 and the fault's code; so is one that
reaches a directory region, with TILE_DIR and its cause in GH_DIR_ERR. Words in order run the opcode's
function: the state is what the function leaves, but for the events of its fault or saturation, and the
command is done with the function's status, the code of its first event, count and switches, ready 6
cycles after its end; a FENCE stays undone, a NOP is done at once. A queue whose turn it is not, or whose
oldest command has another opcode, starts nothing. -/
def Obligations.GlasshouseCommandStartsAtItsTurn : Prop :=
  ∀ (s : State) (k : StackId) (q : QId) (c : GhCmd) (start : Instr), s.dead = false →
    (start, cOpcode c.ws) ∈ [(Instr.ghNop k q, 0), (.ghGather k q, 1), (.scatter k q, 2), (.rowGather k q, 3),
      (.embBag k q, 4), (.accum k q, 5), (.scatterAdd k q, 6), (.compact k q, 7), (.merge k q, 8),
      (.ghFence k q, 9), (.ghCopy k q, 10), (.handleWrite k q, 11)] ∨ start = .ghNop k q ∧ 11 < cOpcode c.ws →
    ((s.gh k).q q).find? (fun x => x.start.isNone) = some c → c.buf = none →
    let T := max s.now (max (c.arr + 8 * fabTicks) ((s.gh k).lastStart + fabTicks))
    ((∀ p, nextTurn s k T ≠ some (q.val, p)) → Answers start s s) ∧
    ∀ credit, nextTurn s k T = some (q.val, credit) →
      let s1 := { s with now := T }.modGh k fun g => { g with turn := q, credit := credit - 1, lastStart := T }
      let f := ghDecode s1 c.ws
      let bad := s.parity.queues.contains (k.val, c.seq)
      let put (u : State) (c' : GhCmd) := u.setGhQ k q (((u.gh k).q q).map fun x => if x.seq = c.seq then c' else x)
      let failed (u : State) (code : Nat) : Prop := Answers start s (put u { c with
        start := some T, switches := [], accum := []
        done := some { status := 3, code := code, count := 0, ready := T + 6 * fabTicks } })
      (bad = true → ∃ u, failed u ecDetectSram ∧
        ErrorRaised { s1 with parity := u.parity } u) ∧
      (bad = false → f % 256 ≠ 0 → ∃ u, failed u (f % 256) ∧ ErrorRaised s1 u) ∧
      (bad = false → f = 0 → cOpcode c.ws = 9 → Answers start s (put s1 { c with
        start := some T, switches := [], accum := [], done := none })) ∧
      (bad = false → f = 0 → cOpcode c.ws ≠ 9 → ghInDir s1 c.ws = true → ∃ u, failed u ecTileDir ∧
        u.fld (.ghDirErr k) F.ghDirErrHandle = 0 ∧ u.fld (.ghDirErr k) F.ghDirErrCause = 6 ∧
        s1.RegsButErr u [.ghDirErr k] ∧ u = { s1 with regs := u.regs, msixSent := u.msixSent }) ∧
      (bad = false → f = 0 → cOpcode c.ws = 0 → ghInDir s1 c.ws = false → Answers start s (put s1 { c with
        start := some T, switches := [], accum := []
        done := some { status := 0, code := 0, count := 0, ready := T + 6 * fabTicks } })) ∧
      (bad = false → f = 0 → cOpcode c.ws ≠ 9 → ghInDir s1 c.ws = false →
        let r := ghFunc c.ws { s := s1, k := k }
        let d : GhDone := { count := r.count, ready := r.s.now + 6 * fabTicks
                            status := if r.fault ≠ 0 then 3 else if r.poison then 2
                              else if r.info || r.sat then 1 else 0
                            code := firstEvent s1 r.s r.fault r.sat, sat := r.sat && r.fault == 0, nan := r.info }
        ∃ u, (u = r.s ∨ ErrorRaised r.s u ∨ ∃ v, ErrorRaised r.s v ∧ ErrorRaised v u) ∧
          Answers start s (put u { c with
            start := some T, switches := r.switches, accum := r.accum, done := some d }))

/-- Refresh, scrubbing, row repair, heartbeats and raw-stack mode of a Glasshouse. (R226, R227, R228, R229,
R231, R499, R503.) With the device running. STACK_REFRESH moves time to the pseudo-channel's next refresh,
32 ms after the last, 16 ms with REFRESH_2X or in raw mode. SCRUB_PASS, while EN and not raw, moves time
to the next pass, notes it and counts it as completed in queue 15; with every check code sound or poisoned
nothing else changes but progress channel 3; with EN 0 or raw, nothing at all. ROW_REPAIR starts on a
queued row with a spare left, as a command of queue 15; without one the row, once, counts as UNREPAIRED
and stays queued, and with the eighth such row of its bank REPAIR_PENDING reads 1 and ADVICE at least 3;
it does nothing for a row not queued, during a repair or in raw mode. ROW_REPAIR_DONE ends the repair 2 us
after its start: the row leaves the queue, is remapped, a spare and ROWS_USED are counted, and the command
completes. GH_HEARTBEAT takes 10 us: an answer clears the misses, a miss counts; the third declares the
Glasshouse failed: RAW and REFRESH_2X read 1 and no repair goes on. RAW_STACK_EMULATE in raw mode
completes the head of a queue that has ended, or runs that of an enabled queue as its start and completion
would, a FENCE once no masked queue holds an earlier command; else nothing. -/
def Obligations.StackRefreshScrubRepairAndRawMode : Prop :=
  ∀ (s : State) (k : StackId), s.dead = false →
    let g := s.gh k
    let raw := s.bit (.ghStatus k) F.ghStatusRaw
    let others (t : State) : Prop := ∀ j, j ≠ k.val → t.gh j = s.gh j
    (∀ pc : Fin 64, let ms := if s.bit (.ghStatus k) F.ghStatusRefresh2x || raw then 16 else 32
      ∃ t, Answers (.stackRefresh k pc) s t ∧ t = { s with now := t.now, ghs := t.ghs } ∧ others t ∧
        t.now = max s.now (tabGet 0 g.refreshed pc + ms * 1000 * usTicks) ∧
        t.gh k = { g with refreshed := tabSet g.refreshed pc t.now }) ∧
    (s.bit (.ghScrubCtl k) F.ghScrubCtlEn = false ∨ raw = true → Answers (.scrubPass k) s s) ∧
    (s.bit (.ghScrubCtl k) F.ghScrubCtlEn = true → raw = false →
      (∀ e ∈ s.chk, e.2 = poisonSig) →
      ∃ t, Answers (.scrubPass k) s t ∧ others t ∧
        t = { s with now := t.now, ghs := t.ghs, regs := t.regs, msixSent := t.msixSent } ∧
        s.RegsButErr t [.ghCmdqStat k 15, .hifProgStat 3, .hifProgPos 3] ∧
        t.fld (.ghCmdqStat k 15) F.ghCmdqStatCompleted =
          min (s.fld (.ghCmdqStat k 15) F.ghCmdqStatCompleted + 1) F.ghCmdqStatCompleted.top ∧
        t.now = max s.now (g.lastScrub +
          max 1 (s.fld (.ghScrubCtl k) F.ghScrubCtlPeriod) * 3600 * 1000000 * usTicks) ∧
        t.gh k = { g with lastScrub := t.now, seq := g.seq + 1 }) ∧
    (∀ (pc : Fin 64) (bank : Fin 32) (row : BitVec 16), let r : RowAt := ⟨pc, bank, row.toNat⟩
      (r ∉ g.repairQ ∨ g.repair.isSome ∨ raw = true → Answers (.rowRepair k pc bank row) s s) ∧
      (r ∈ g.repairQ → g.repair = none → raw = false →
        (8 ≤ tabGet 0 g.spares (pc * 32 + bank) →
          (r ∈ g.unspared → Answers (.rowRepair k pc bank row) s s) ∧
          (r ∉ g.unspared → let more := (g.bankRows pc bank).length + 1
            ∃ t, Answers (.rowRepair k pc bank row) s t ∧ t = { s with ghs := t.ghs, regs := t.regs } ∧ others t ∧
            t.gh k = { g with unspared := g.unspared ++ [r] } ∧ s.RegsBut t [.ghRepairStat k, .hifAdvice] ∧
            t.fld (.ghRepairStat k) F.ghRepairStatUnrepaired =
              min (s.fld (.ghRepairStat k) F.ghRepairStatUnrepaired + 1) F.ghRepairStatUnrepaired.top ∧
            (more < 8 → t.word .hifAdvice = s.word .hifAdvice) ∧
            (8 ≤ more → t.bit .hifAdvice F.hifAdviceRepairPending = true ∧
              t.fld .hifAdvice F.hifAdviceAdvice = max (s.fld .hifAdvice F.hifAdviceAdvice) 3))) ∧
        (tabGet 0 g.spares (pc * 32 + bank) < 8 →
          ∃ t, Answers (.rowRepair k pc bank row) s t ∧ t = { s with ghs := t.ghs } ∧ others t ∧
            t.gh k = { g with repair := some (r, s.now), seq := g.seq + 1, queues := (t.gh k).queues } ∧
            (∀ p, p ≠ 15 → (t.gh k).q p = g.q p) ∧ (t.gh k).q 15 =
              g.q 15 ++ [{ ws := List.replicate 8 0, seq := g.seq, arr := s.now, start := some s.now }]))) ∧
    (g.repair = none → Answers (.rowRepairDone k) s s) ∧
    (∀ r t0, g.repair = some (r, t0) → ∃ t, Answers (.rowRepairDone k) s t ∧ others t ∧
      t = { s with now := t.now, ghs := t.ghs, regs := t.regs } ∧ t.now = max s.now (t0 + 2000 * fabTicks) ∧
      s.RegsBut t [.ghRepairStat k, .ghCmdqStat k 15] ∧ (t.gh k).q 15 = (g.q 15).tail ∧
      (∀ p, p ≠ 15 → (t.gh k).q p = g.q p) ∧ (t.gh k).repair = none ∧ (t.gh k).repairQ = g.repairQ.erase r ∧
      (t.gh k).remapped = g.remapped ++ [r] ∧
      tabGet 0 (t.gh k).spares (r.pc * 32 + r.bank) = tabGet 0 g.spares (r.pc * 32 + r.bank) + 1 ∧
      t.fld (.ghRepairStat k) F.ghRepairStatRowsUsed =
        min (s.fld (.ghRepairStat k) F.ghRepairStatRowsUsed + 1) F.ghRepairStatRowsUsed.top) ∧
    (∃ t, Answers (.ghHeartbeat k true) s t ∧ t = { s with now := s.now + 10 * usTicks, ghs := t.ghs } ∧
      others t ∧ t.gh k = { g with misses := 0 }) ∧
    (g.misses < 2 → ∃ t, Answers (.ghHeartbeat k false) s t ∧ others t ∧
      t = { s with now := s.now + 10 * usTicks, ghs := t.ghs } ∧ t.gh k = { g with misses := g.misses + 1 }) ∧
    (2 ≤ g.misses → raw = false → g.queues = [] → ∃ t, Answers (.ghHeartbeat k false) s t ∧
      s.RegsButErr t [.ghStatus k] ∧ t.bit (.ghStatus k) F.ghStatusRaw = true ∧
      t.bit (.ghStatus k) F.ghStatusRefresh2x = true ∧ (t.gh k).repair = none ∧ t.mem = s.mem ∧ t.now = s.now + 10 * usTicks) ∧
    (∀ q : QId, (raw = false ∨ g.q q = [] → Answers (.rawStackEmulate k q) s s) ∧
      ∀ c rest, raw = true → g.q q = c :: rest →
        let fence := c.buf = none ∧ cOpcode c.ws = 9 ∧ ghDecode s c.ws = 0
        (∀ d, c.done = some d → Answers (.rawStackEmulate k q) s (ghFinish k q c d { s with now := max s.now d.ready })) ∧
        (c.done = none → s.ghEn k q = false ∨ fence ∧ fenceWaits k q c s = true → Answers (.rawStackEmulate k q) s s) ∧
        (c.done = none → s.ghEn k q = true → s.parity.queues.contains (k.val, c.seq) = false → c.buf = none →
          ghDecode s c.ws = 0 →
          (fence → fenceWaits k q c s = false → Answers (.rawStackEmulate k q) s
            (ghFinish k q { c with switches := [], accum := [] } (fenceDone s.now) s)) ∧
          (¬ fence → ghInDir s c.ws = false → let r := ghFunc c.ws { s := s, k := k }
            r.fault = 0 → r.sat = false →
            Answers (.rawStackEmulate k q) s (ghFinish k q { c with switches := r.switches, accum := r.accum }
              { status := if r.poison then 2 else if r.info then 1 else 0, code := firstEvent s r.s 0 false
                count := r.count, ready := r.s.now + 6 * fabTicks, nan := r.info } r.s))))

/-- One element of ACCUM: the exact sum, maximum or minimum, clamped to INT32, or rounded FP32 and BF16.
(R215, R183.) For an INT32 destination d and an INT32 source c, the element becomes d + c, max or min
clamped to the INT32 range, the saturation flag is set exactly when the clamp changed it, and NAN_SEEN is
not set. For FP32 the element is the FP32 sum, maximum or minimum and never saturates; for BF16 it is the
FP32 result rounded to BF16. A group of entries of one key under MERGE in INT32 is their exact sum,
clamped once. -/
def Obligations.AccumulationOfOneElement : Prop :=
  (∀ func c d : Nat, func < 3 → c < 2 ^ 32 → d < 2 ^ 32 →
    let exact : Int := if func = 0 then sx 32 d + sx 32 c else if func = 1 then max (sx 32 d) (sx 32 c)
      else min (sx 32 d) (sx 32 c)
    let clamped : Int := max (-2 ^ 31) (min (2 ^ 31 - 1) exact)
    ∃ v sat, accElem func etInt32 false c d = (v, sat, false) ∧ v < 2 ^ 32 ∧ sx 32 v = clamped ∧
      (sat = true ↔ exact ≠ clamped) ∧ (func ≠ 0 → sat = false)) ∧
  (∀ func c d : Nat, func < 3 → accElem func etFp32 false c d =
    (if func = 0 then add32 d c else if func = 1 then max32 d c else min32 d c, false, false)) ∧
  (∀ func c d : Nat, func < 3 → accElem func etBf16 false c d =
    (to16 (of32 (if func = 0 then add32 (d * 65536) (c * 65536) else if func = 1 then max32 (d * 65536) (c * 65536)
      else min32 (d * 65536) (c * 65536))), false, false)) ∧
  (∀ v : Nat, ∀ vs : List Nat, v < 2 ^ 32 → (∀ x ∈ vs, x < 2 ^ 32) →
    let exact : Int := ((v :: vs).map (sx 32)).sum
    let clamped : Int := max (-2 ^ 31) (min (2 ^ 31 - 1) exact)
    ∃ w sat, combine etInt32 (v :: vs) = (w, sat) ∧ sx 32 w = clamped ∧ (sat = true ↔ exact ≠ clamped))

/-- What a scalar result and the end of a bundle change. (R302, R303, R309, R332, R337.) A write of a scalar
register stores the value and its poison bit and leaves every other register and poison bit; a write of s0
is discarded and s0 reads 0 without poison. A result of latency 1 is written at once; a longer one changes
no register and is on its way until its cycle. The end of a bundle moves PC to its target modulo 2,048,
notes a target outside the instruction buffer, and lets the core issue no earlier than the given number of
cycles later; other registers, other cores and memory stay. -/
def Obligations.ScalarRegisterAndPcUpdates : Prop :=
  ∀ (s : State) (n : CoreId) (c : CtxId) (rd v k : Nat) (p : Bool), rd < 32 → v < 2 ^ 64 →
    (s.sreg n c 0 = 0 ∧ s.spoison n c 0 = false ∧ s.setSreg n c 0 v p = s ∧ s.later n c 0 v p k = s) ∧
    (rd ≠ 0 → let t := s.setSreg n c rd v p
      s.OnlyRegs t [.tctxReg n c rd, .tctxPoison n c] ∧ t.sreg n c rd = v ∧ t.spoison n c rd = p ∧
      ∀ i < 32, i ≠ rd → t.sreg n c i = s.sreg n c i ∧ t.spoison n c i = s.spoison n c i) ∧
    (rd ≠ 0 → 1 < k → let t := s.later n c rd v p k
      t.regs = s.regs ∧ t = { s with cores := t.cores } ∧ (∀ m, m ≠ n.val → t.core m = s.core m) ∧
      t.core n = { s.core n with slow := (s.core n).slow ++ [.reg (s.cyc n + k) c rd (BitVec.ofNat 64 v) p] } ∧
      t.regBusy n c rd = true) ∧
    (c.val ∉ (s.core n).stops → let t := bundleEnd n c v k s
      s.RegsBut t [.tctxPc n c] ∧ t = { s with regs := t.regs, cores := t.cores } ∧ t.pc n c = v % 2048 ∧
      (∀ m, m ≠ n.val → t.core m = s.core m) ∧ (t.core n).pcOut.contains c.val = decide (2048 ≤ v) ∧
      t.core n = { s.core n with pcOut := (t.core n).pcOut, notBefore := s.cyc n + k })

/-- The scalar ALU operations and branch conditions on 64-bit words. (R305, R309.) On two 64-bit words, the
ALU operations 0-15 are: sum and difference modulo 2^64, AND, OR, XOR, shifts left, logical right and
arithmetic right by the low six bits of the second, signed minimum and maximum, unsigned minimum and
maximum, signed and unsigned less-than, equality as 0 or 1, and the low 64 bits of the product. The branch
conditions 0-6 are: always, equal, not equal, signed less, signed greater or equal, unsigned less,
unsigned greater or equal. -/
def Obligations.AluAndBranchMeanings : Prop :=
  ∀ x y : Word,
    let op (k : Nat) := BitVec.ofNat 64 (aluOp k x.toNat y.toNat)
    let sh := y.toNat % 64
    (∀ k, aluOp k x.toNat y.toNat < 2 ^ 64) ∧
    op 0 = x + y ∧ op 1 = x - y ∧ op 2 = x &&& y ∧ op 3 = x ||| y ∧ op 4 = x ^^^ y ∧
    op 5 = x <<< sh ∧ op 6 = x >>> sh ∧ op 7 = x.sshiftRight sh ∧
    op 8 = (if x.toInt ≤ y.toInt then x else y) ∧ op 9 = (if x.toInt ≤ y.toInt then y else x) ∧
    op 10 = (if x.toNat ≤ y.toNat then x else y) ∧ op 11 = (if x.toNat ≤ y.toNat then y else x) ∧
    op 12 = (if x.toInt < y.toInt then 1 else 0) ∧ op 13 = (if x.toNat < y.toNat then 1 else 0) ∧
    op 14 = (if x = y then 1 else 0) ∧ op 15 = x * y ∧
    brTaken 0 x.toNat y.toNat = true ∧ (brTaken 1 x.toNat y.toNat = true ↔ x = y) ∧
    (brTaken 2 x.toNat y.toNat = true ↔ x ≠ y) ∧ (brTaken 3 x.toNat y.toNat = true ↔ x.toInt < y.toInt) ∧
    (brTaken 4 x.toNat y.toNat = true ↔ y.toInt ≤ x.toInt) ∧
    (brTaken 5 x.toNat y.toNat = true ↔ x.toNat < y.toNat) ∧
    (brTaken 6 x.toNat y.toNat = true ↔ y.toNat ≤ x.toNat)

/-- NOP, ALU, ALUI, LI, LD, ST, TIME, EVSET, EVSTAT and FENCEF issue and leave their results. (R298, R305,
R306, R314, R337.) With the device running and the operation ready to issue: NOP and FENCEF only end the
bundle. ALU and ALUI leave the operation's result in RD with the operands' poison, after one cycle, three
for a product. LI writes the sign-extended immediate, or the high half beside RD's low half. LD leaves 1,
2, 4 or 8 bytes of core memory, zero- or sign-extended, as earlier narrow stores leave them, with the
unit's poison, four cycles later; ST sends the low bytes of RS2 with its poison, to land two cycles later.
TIME leaves TIME_CLK, EVSTAT the status word of the event. EVSET sets events or clears them with their
status words. The context goes on at the next bundle one cycle later, and nothing else changes. -/
def Obligations.ScalarSlotResults : Prop :=
  ∀ (s : State) (n : CoreId) (c : CtxId) (a : ScArgs), s.dead = false →
    let rd := a.rd.toNat
    let fn := a.fn.toNat
    let x := s.sreg n c a.rs1.toNat
    let y := s.sreg n c a.rs2.toNat
    let px := s.spoison n c a.rs1.toNat
    let py := s.spoison n c a.rs2.toNat
    let next (t : State) := bundleEnd n c (s.pc n c + 1) 1 t
    let o := s.scAddr n c a
    let sz := 2 ^ (fn % 4)
    (s.Calm n c → Answers (.nop n c) s (next s)) ∧
    (s.Ready n c (.sc 0x17 ⟨0, 0, 0, 0, 0⟩) → Answers (.fencef n c) s (next s)) ∧
    (s.Ready n c (.sc 0x1 a) → Answers (.alu n c a) s
      (next (s.later n c rd (aluOp (fn % 16) x y) (px || py) (if fn % 16 = 15 then 3 else 1)))) ∧
    (s.Ready n c (.sc 0x2 a) → Answers (.alui n c a) s
      (next (s.later n c rd (aluOp (fn % 16) x (immSx a.imm)) px (if fn % 16 = 15 then 3 else 1)))) ∧
    (s.Ready n c (.sc 0x3 a) → Answers (.li n c a) s (next (if fn.testBit 0
      then s.setSreg n c rd (a.imm.toNat * 2 ^ 32 + s.sreg n c rd % 2 ^ 32) (s.spoison n c rd)
      else s.setSreg n c rd (immSx a.imm) false))) ∧
    (s.Ready n c (.sc 0x4 a) →
      let raw := (narrowView n s).cmN n o sz
      Answers (.ld n c a) s (next ((s.sched n 11 o sz (s.cyc n) false).later n c rd
        (if fn.testBit 2 then ux 64 (sx (8 * sz) raw) else raw)
        ((narrowView n s).poisoned (coreBase n + o)) 4))) ∧
    (s.Ready n c (.sc 0x5 a) → Answers (.st n c a) s (next ((s.sched n 11 o sz (s.cyc n) true).modCore n fun k =>
      { k with slow := k.slow ++ [.cmw (s.cyc n + 2) o (natLe sz y) [py] true] }))) ∧
    (s.Ready n c (.sc 0x16 a) → Answers (.time n c a) s (next (s.later n c rd s.timeNow false 4))) ∧
    (s.Ready n c (.sc 0x11 a) →
      let mask := if fn.testBit 3 then 2 ^ (a.imm.toNat % 64) else x
      Answers (.evset n c a) s (next (if fn.testBit 0 then s.clearNow n mask false else eventSet n mask s))) ∧
    (s.Ready n c (.sc 0x12 a) →
      let e := if fn.testBit 3 then a.imm.toNat % 64 else x % 64
      Answers (.evstat n c a) s (next (s.setSreg n c rd (s.word (.scEvstat n e)) (!fn.testBit 3 && px))))

/-- BR, JR, REPEAT, EVWAIT, BAR waits, YIELD and HALT, and the ends of waits and halts. (R309, R310, R312,
R315, R332, R334.) With the device running and the operation ready. A taken BR goes on at PC + IMM, a JR
at RS1 (RD takes PC + 1), both two cycles later; an untaken BR one cycle later at the next bundle. A
REPEAT alone holds the core its count of cycles. An EVWAIT whose events are set leaves them (or the single
event's status word) in RD, clearing them with CLR; else the context is WAITING, the wait recorded. YIELD
gives the core to a READY context of equal or higher priority. HALT makes the context IDLE at once and
notes when its results have landed. WAIT_SATISFIED ends a wait whose condition holds: RUNNING on its own
core, else READY; CONTEXT_DONE of a halted context with nothing in flight signals DONE_EV when DONE_EN; a
wait not satisfied, or no halt, leaves the state. -/
def Obligations.ScalarBranchesAndWaits : Prop :=
  ∀ (s : State) (n : CoreId) (c : CtxId) (a : ScArgs), s.dead = false →
    let rd := a.rd.toNat
    let fn := a.fn.toNat
    let x := s.sreg n c a.rs1.toNat
    let y := s.sreg n c a.rs2.toNat
    let u := bundleEnd n c (s.pc n c + 1) 1 s
    let prio (d : Nat) := s.fld (.tctxCtl n d) F.tctxCtlPrio
    (s.Ready n c (.sc 0xa a) → Answers (.br n c a) s
      (if brTaken (fn % 8) x y then bundleEnd n c (add64 (s.pc n c) (immSx a.imm)) 2 s else u)) ∧
    (s.Ready n c (.sc 0xb a) → Answers (.jr n c a) s
      (bundleEnd n c x 2 (s.setSreg n c rd (s.pc n c + 1) false))) ∧
    (s.Ready n c (.sc 0xc a) → Answers (.repeat n c a) s (bundleEnd n c (s.pc n c + 1)
      (max 1 (if fn.testBit 0 then x else a.imm.toNat % 65536)) s)) ∧
    (s.Ready n c (.sc 0x10 a) →
      let mask := if fn.testBit 3 then 2 ^ (a.imm.toNat % 64) else x
      let hits := u.word (.scEvent n) &&& mask
      let w : Wait := ⟨.events mask (fn.testBit 0) (fn.testBit 1) (fn.testBit 3), rd, fn.testBit 2, s.now, false⟩
      (waitHolds u n w.kind = true ↔ if fn.testBit 0 then hits = mask else hits ≠ 0) ∧
      (waitHolds u n w.kind = true → ∃ t, Answers (.evwait n c a) s t ∧
        (fn.testBit 1 = false → t = u.setSreg n c rd (if fn.testBit 3 then u.word (.scEvstat n (a.imm.toNat % 64))
          else hits) false) ∧
        (fn.testBit 1 = true → t = (u.clearNow n hits true).setSreg n c rd
          (if fn.testBit 3 then u.word (.scEvstat n (a.imm.toNat % 64)) else hits) false)) ∧
      (waitHolds u n w.kind = false → Answers (.evwait n c a) s ((u.setCtx n c ctxWaiting).modCore n fun k =>
        { k with waits := tabSet k.waits c w }))) ∧
    (s.Ready n c (.sc 0xf a) → fn % 4 = 2 →
      let w : Wait := ⟨.barrier (x % 256) (y % 2 ^ 32) false, rd, fn.testBit 3, s.now, false⟩
      Answers (.bar n c a) s (if barPast u (x % 256) (y % 2 ^ 32)
        then u.setSreg n c rd (u.fld (.barState (x % 256)) F.barStateGen % 2 ^ 32) false
        else (u.setCtx n c ctxWaiting).modCore n fun k => { k with waits := tabSet k.waits c w })) ∧
    (s.Ready n c (.sc 0x13 ⟨0, 0, 0, 0, 0⟩) → Answers (.yield n c) s
      (if (s.core n).running = some c.val ∧ (∃ d : CtxId, d ≠ c ∧ s.ctx n d = ctxReady ∧ prio c ≤ prio d)
       then (u.setCtx n c ctxReady).modCore n fun k => { k with running := none } else u)) ∧
    (s.Ready n c (.sc 0x14 ⟨0, 0, 0, 0, 0⟩) → ∃ t, Answers (.halt n c) s t ∧ t.ctx n c = ctxIdle ∧
      s.RegsBut t [.tctxPc n c, .tctxStat n c] ∧ t.pc n c = (s.pc n c + 1) % 2048 ∧
      t = { s with regs := t.regs, cores := t.cores } ∧ (t.core n).running = none ∧
      tabFind (t.core n).waits c = none ∧ tabFind (t.core n).halted c = some (lastLanding (s.core n)) ∧
      ∀ m, m ≠ n.val → t.core m = s.core m) ∧
    (s.Settled n → ∀ w, tabFind (s.core n).waits c = some w →
      (s.ctx n c = ctxWaiting → waitHolds s n w.kind = true → ∃ t, Answers (.waitSatisfied n c) s t ∧
        tabFind (t.core n).waits c = none ∧
        ((s.core n).running = some c.val → t.ctx n c = ctxRunning ∧ s.cyc n + 1 ≤ (t.core n).notBefore) ∧
        ((s.core n).running ≠ some c.val → t.ctx n c = ctxReady) ∧
        (∀ mask all single, w.kind = .events mask all false single → w.rd ≠ 0 → w.rd < 32 → single = false →
          t.sreg n c w.rd = s.word (.scEvent n) &&& mask)) ∧
      (waitHolds s n w.kind = false → Answers (.waitSatisfied n c) s s)) ∧
    (s.Settled n → tabFind (s.core n).waits c = none → Answers (.waitSatisfied n c) s s) ∧
    (s.Settled n → tabFind (s.core n).halted c = none → Answers (.contextDone n c) s s) ∧
    (s.Settled n → ∀ d, tabFind (s.core n).halted c = some d → ctxBusy s n c = false → s.cycTime n d ≤ s.now →
      let v := s.modCore n fun k => { k with halted := tabDel k.halted c }
      Answers (.contextDone n c) s (if s.bit (.tctxCtl n c) F.tctxCtlDoneEn
        then v.signal n (s.fld (.tctxCtl n c) F.tctxCtlDoneEv) {} else v))

/-- LDF, STF, CSRR, CSRW, TURN, TADD, BAR and GTURN leave the core, and far operations act when they complete.
(R256, R258, R307, R308, R311, R313.) With the device running and the operation ready: LDF, STF, and a
CSRR or CSRW outside the core's own sub-blocks join the far operations of the core with address and value;
in its own sub-blocks a CSRR answers after 4 cycles and a CSRW acts after 2, one to its own CMC_SHADOW_INV
at once. TURN, TADD and BAR arrivals also reach the Orangery's control block in this cycle; BAR with FN 1
then waits. GTURN sends its request to the root and notes it. The bundle ends after one cycle.
FAR_OP_COMPLETE takes the oldest: LDF leaves its eight bytes and poison in RD, STF writes its eight bytes,
CSRR and CSRW read and write the register, TURN and BAR leave the control block's answer, TADD waits for
it; with none in flight, nothing changes. -/
def Obligations.ScalarFarOperations : Prop :=
  ∀ (s : State) (n : CoreId) (c : CtxId) (a : ScArgs), s.dead = false →
    let rd := a.rd.toNat
    let x := s.sreg n c a.rs1.toNat
    let y := s.sreg n c a.rs2.toNat
    let o := s.scAddr n c a
    let own := 0x020210000000 + n.val * 0x100000 ≤ o ∧ o < 0x020210000000 + (n.val + 1) * 0x100000
    let next (t : State) := bundleEnd n c (s.pc n c + 1) 1 t
    let away (r : Nat) (k : FarKind) := s.modCore n fun q => { q with far := q.far ++ [⟨c, r, k, s.now⟩] }
    let slow (k : SlowOp) := s.modCore n fun q => { q with slow := q.slow ++ [k] }
    let atomic (t : State) (k : TsKind) : State := { t with tsq := s.tsq ++ [⟨n, s.fab, k, none, 0⟩] }
    (s.Ready n c (.sc 0x6 a) → Answers (.ldf n c a) s (next (away rd (.ldf o)))) ∧
    (s.Ready n c (.sc 0x7 a) → Answers (.stf n c a) s
      (next (away 0 (.stf o (BitVec.ofNat 64 y) (s.spoison n c a.rs2.toNat))))) ∧
    (s.Ready n c (.sc 0x8 a) → (own → Answers (.csrr n c a) s (next (slow (.csrr (s.cyc n + 4) c rd o)))) ∧
      (¬ own → Answers (.csrr n c a) s (next (away rd (.csrr o))))) ∧
    (s.Ready n c (.sc 0x9 a) →
      (own → regAt o ≠ .cmcShadowInv n →
        Answers (.csrw n c a) s (next (slow (.csrw (s.cyc n + 2) o (BitVec.ofNat 64 y))))) ∧
      (own → regAt o = .cmcShadowInv n →
        Answers (.csrw n c a) s (next (csrWrite (.core n) o (BitVec.ofNat 64 y).toNat s))) ∧
      (¬ own → Answers (.csrw n c a) s (next (away 0 (.csrw o (BitVec.ofNat 64 y)))))) ∧
    (s.Ready n c (.sc 0xd a) → Answers (.turn n c a) s
      (next (atomic (away rd (.turn (x % 4096) y)) (.turn (x % 4096) y)))) ∧
    (s.Ready n c (.sc 0xe a) → Answers (.tadd n c a) s
      (next (atomic (away 0 (.tadd (x % 4096) y)) (.add (x % 4096) (y % 2 ^ 32))))) ∧
    (s.Ready n c (.sc 0xf a) → a.fn.toNat % 4 = 0 → Answers (.bar n c a) s
      (next (atomic (away rd (.arrive (x % 256))) (.arrive (x % 256))))) ∧
    (s.Ready n c (.sc 0xf a) → a.fn.toNat % 4 = 1 →
      let w : Wait := ⟨.joining (x % 256), rd, a.fn.toNat.testBit 3, s.now, false⟩
      Answers (.bar n c a) s
        (((next (atomic (away 0 (.arriveWait (x % 256))) (.arrive (x % 256)))).setCtx n c ctxWaiting).modCore n
          fun q => { q with waits := tabSet q.waits c w })) ∧
    (s.Ready n c (.sc 0x15 a) →
      let id := s.net.reqid
      let v := (s.modNet fun q => { q with reqid := (id + 1) % 2 ^ 32 }).modCore n fun q =>
        { q with gturns := q.gturns ++ [⟨id, a.imm.toNat, a.fn.toNat % 64, c, s.pc n c, none⟩] }
      Answers (.gturn n c a) s (next (pump (v.send s.rootDev (.gturnRequest (x % 65536) y id) false none)))) ∧
    (s.Settled n → (s.core n).far = [] → Answers (.farOpComplete n) s s) ∧
    (s.Settled n → ∀ f rest, (s.core n).far = f :: rest →
      let u := s.modCore n fun q => { q with far := rest }
      (∀ da, f.kind = .ldf da → farShadow da false u = (u, false) →
        let (v, w) := u.fetch da
        Answers (.farOpComplete n) s (w.setSreg n f.ctx f.rd (leNat ((v.bs.drop (da % 64)).take 8)) v.poison)) ∧
      (∀ da v p, f.kind = .stf da v p → farShadow da true u = (u, false) →
        Answers (.farOpComplete n) s (rmwPieces true da (natLe 8 v.toNat) [p] u) ∧
        memRead (rmwPieces true da (natLe 8 v.toNat) [p] u).mem (canon da) 8 = natLe 8 v.toNat) ∧
      (∀ da, f.kind = .csrr da →
        let r := csrRead (.core n) da u
        Answers (.farOpComplete n) s (r.2.setSreg n f.ctx f.rd r.1 false)) ∧
      (∀ da v, f.kind = .csrw da v → (∀ q, regAt da ≠ .hifQPost q) → (csrWrite (.core n) da v.toNat u).hif.kernels = [] →
        Answers (.farOpComplete n) s (csrWrite (.core n) da v.toNat u)) ∧
      (∀ t k, f.kind = .turn t k →
        let r := tsComplete n (.turn t k) u
        Answers (.farOpComplete n) s (r.1.setSreg n f.ctx f.rd (r.2.getD 0).toNat false)) ∧
      (∀ t k, f.kind = .tadd t k → Answers (.farOpComplete n) s (tsComplete n (.add t (k % 2 ^ 32)) u).1) ∧
      (∀ b, f.kind = .arrive b → let r := tsComplete n (.arrive b) u
        Answers (.farOpComplete n) s (r.1.setSreg n f.ctx f.rd (r.2.getD 0).toNat false)) ∧
      (∀ b, f.kind = .arriveWait b → let r := tsComplete n (.arrive b) u
        Answers (.farOpComplete n) s (r.1.modCore n
          (joinWait f.ctx b (r.2.getD 0).toNat (u.fld (.barState b) F.barStateCount = 0)))))

/-- A slot operation that fails decode does nothing but fault its context, and a faulted core issues nothing.
(R300, R304, R332.) With the device running, core and context free to issue and no stall: a slot row whose
operation fails decode leaves the context FAULTED with the fault's code, the slot and the PC in its
status, takes the core from it, and raises one event; PC, every other register but the error unit's, and
all memory stay. This holds for every slot row: the scalar, matrix, Fife, vector and stream operations.
While a context of the core is FAULTED, every such row and BUNDLE_ISSUE leave the state as it is. -/
def Obligations.SlotDecodeFaultStopsContext : Prop :=
  ∀ (s : State) (i : Instr) (n : CoreId) (c : CtxId) (o : BOp), s.dead = false → slotRow i = some (n, c, o) →
    (s.Calm n c → bundleStall s n c [o] = none → opFault s n c [o] o ≠ 0 →
      ∃ t, Answers i s t ∧ t.ctx n c = ctxFaulted ∧
        t.fld (.tctxStat n c) F.tctxStatCode = opFault s n c [o] o % 256 ∧
        t.fld (.tctxStat n c) F.tctxStatFslot = o.slot ∧ t.fld (.tctxStat n c) F.tctxStatFpc = s.pc n c ∧
        t.pc n c = s.pc n c ∧ s.RegsButErr t [.tctxStat n c] ∧
        (opFault s n c [o] o % 256 < 0x40 →
          t.fld .errHead F.errHeadSeq = (s.fld .errHead F.errHeadSeq + 1) % 2 ^ 32) ∧
        t = { s with regs := t.regs, cores := t.cores, msixSent := t.msixSent } ∧
        (∀ m, m ≠ n.val → t.core m = s.core m) ∧ t.core n = { s.core n with running := none }) ∧
    (s.Settled n → coreStopped s n = true → Answers i s s ∧ Answers (.bundleIssue n) s s)

/-- BUNDLE_ISSUE runs the bundle at the running context's PC. (R297, R298, R299, R300, R332.) With the device
running and the core calm. When the running context's PC lies in its code range and its bundle passes its
parity, BUNDLE_ISSUE issues the operations of the eight slot words at PC, of whatever slots, when none of
them stalls or fails decode: all of them zero, it only ends the bundle; one of them other than zero, it
does exactly what that slot's row does. A PC outside the code range faults the context with DESC_RANGE, a
bundle that fails its parity with DETECT_SRAM. With no context running and a READY one, the one of highest
priority takes the core first, in rotation after the one that ran last; with none READY, nothing changes. -/
def Obligations.BundleIssuesAtThePc : Prop :=
  ∀ (s : State) (n : CoreId) (c : CtxId), s.dead = false → s.Calm n c →
    let w (k : Nat) := s.word (.ibuf n (s.pc n c * 8 + k))
    ((s.core n).running = some c.val → s.ctx n c = ctxRunning →
      (s.inCode n c (s.pc n c) = true → c.val ∉ (s.core n).pcOut → (n.val, s.pc n c) ∉ s.parity.bundles →
        (let ops := bundleOps w
         bundleStall s n c ops = none → (∀ o ∈ ops, opFault s n c ops o = 0) →
          Answers (.bundleIssue n) s (kernelSweep (bundleIssue n c ops s))) ∧
        ((∀ k < 8, w k = 0) → Answers (.bundleIssue n) s (bundleEnd n c (s.pc n c + 1) 1 s)) ∧
        (∀ k < 8, w k ≠ 0 → (∀ j < 8, j ≠ k → w j = 0) →
          ∀ i, slotRow i = some (n, c, bopOf k (w k)) → exec (.bundleIssue n) s = exec i s)) ∧
      (s.inCode n c (s.pc n c) = true → c.val ∉ (s.core n).pcOut → (n.val, s.pc n c) ∈ s.parity.bundles →
        ∃ t, Answers (.bundleIssue n) s t ∧ t.ctx n c = ctxFaulted ∧
          t.fld (.tctxStat n c) F.tctxStatCode = ecDetectSram ∧ t.pc n c = s.pc n c ∧ t.mem = s.mem ∧
          (n.val, s.pc n c) ∉ t.parity.bundles ∧ s.RegsButErr t [.tctxStat n c, .tstSramCnt n]) ∧
      (s.inCode n c (s.pc n c) = false → ∃ t, Answers (.bundleIssue n) s t ∧ t.ctx n c = ctxFaulted ∧
        t.fld (.tctxStat n c) F.tctxStatCode = ecDescRange ∧ t.pc n c = s.pc n c ∧ t.mem = s.mem ∧
        s.RegsButErr t [.tctxStat n c])) ∧
    ((s.core n).running = none → (∀ d : CtxId, s.ctx n d ≠ ctxReady) → Answers (.bundleIssue n) s s) ∧
    ((s.core n).running = none → (∃ d : CtxId, s.ctx n d = ctxReady) →
      ∃ d : CtxId, chooseCtx n s = (some d.val, takeCore n d s) ∧ s.ctx n d = ctxReady ∧
        (takeCore n d s).ctx n d = ctxRunning ∧ ((takeCore n d s).core n).running = some d.val ∧
        ∀ e : CtxId, s.ctx n e = ctxReady →
          s.fld (.tctxCtl n e) F.tctxCtlPrio ≤ s.fld (.tctxCtl n d) F.tctxCtlPrio)

/-- Starting, stopping and resetting a context, setting and clearing core events, the task watchdog. (R314,
R331, R335, R336.) With the device running and nothing due in the core. SC_TCTX_START makes an IDLE
context whose PC lies in its code range READY; another state is refused with CONFIG_CONFLICT, a PC outside
with DESC_RANGE. SC_TCTX_STOP makes a READY, RUNNING or WAITING context IDLE, PC and registers kept, at
the last repetition of a REPEAT; other states stay. SC_TCTX_RESET makes it IDLE with PC at BASE and no
poison, its registers kept. SC_EVENT_CLEAR clears the events of the mask and their status words and no
other; an event that a signal reached in this same cycle stays set and holds that signal alone;
SC_EVENT_SET sets them. TASK_WATCHDOG with a limit raises TASK_HANG once for a wait, at the moment the
limit passes, and leaves the wait; with limit 0 or a wait already reported it changes nothing. -/
def Obligations.TaskContextControls : Prop :=
  ∀ (s : State) (n : CoreId) (c : CtxId), s.dead = false → s.Settled n →
    let same (t : State) := ∀ m, m ≠ n.val → t.core m = s.core m
    (s.ctx n c ≠ ctxIdle → Answers (.scTctxStart n c) s (s.conflict (scSrc n) (regAddr (.tctxCtl n c)) 1)) ∧
    (s.ctx n c = ctxIdle → (s.inCode n c (s.pc n c) = false ∨ c.val ∈ (s.core n).pcOut) →
      Answers (.scTctxStart n c) s (s.refuseWrite (scSrc n) (regAddr (.tctxCtl n c)) 1 ecDescRange)) ∧
    (s.ctx n c = ctxIdle → s.inCode n c (s.pc n c) = true → c.val ∉ (s.core n).pcOut →
      ∃ t, Answers (.scTctxStart n c) s t ∧ s.OnlyRegs t [.tctxStat n c] ∧ t.ctx n c = ctxReady) ∧
    (s.ctx n c ∉ [ctxReady, ctxRunning, ctxWaiting] → Answers (.scTctxStop n c) s s) ∧
    (s.ctx n c ∈ [ctxReady, ctxRunning, ctxWaiting] → (s.core n).stall = none →
      ((s.core n).running = some c.val → (s.core n).rep ≠ 0 → ∃ t, Answers (.scTctxStop n c) s t ∧
        t.regs = s.regs ∧ (t.core n).stops = c.val :: (s.core n).stops) ∧
      ((s.core n).running ≠ some c.val ∨ (s.core n).rep = 0 → ∃ t, Answers (.scTctxStop n c) s t ∧ same t ∧
        s.RegsBut t [.tctxStat n c] ∧ t = { s with regs := t.regs, cores := t.cores } ∧
        t.ctx n c = ctxIdle ∧ (t.core n).running ≠ some c.val ∧ tabFind (t.core n).waits c = none)) ∧
    ((s.core n).stall = none → ∃ t, Answers (.scTctxReset n c) s t ∧ same t ∧
      s.RegsBut t [.tctxStat n c, .tctxPc n c, .tctxPoison n c] ∧
      t = { s with regs := t.regs, cores := t.cores } ∧ t.ctx n c = ctxIdle ∧
      t.pc n c = s.fld (.tctxCode n c) F.tctxCodeBase ∧ (∀ i, t.spoison n c i = false) ∧
      (t.core n).running ≠ some c.val) ∧
    (∀ mask : Word, ∃ t, Answers (.scEventClear n mask) s t ∧
      s.OnlyRegs t (.scEvent n :: (List.range 64).map (.scEvstat n)) ∧
      ∀ e < 64, let set := bitAt (s.word (.scEvent n)) e
        (mask.toNat.testBit e = false → bitAt (t.word (.scEvent n)) e = set ∧
          t.word (.scEvstat n e) = s.word (.scEvstat n e)) ∧
        (∀ o, mask.toNat.testBit e = true → set = true → tabFind (s.core n).sigs e = some o → o.cyc = s.cyc n →
          bitAt (t.word (.scEvent n)) e = true ∧ t.word (.scEvstat n e) = o.status % 2 ^ 64) ∧
        (mask.toNat.testBit e = true → (∀ o, tabFind (s.core n).sigs e = some o → o.cyc ≠ s.cyc n) →
          bitAt (t.word (.scEvent n)) e = false ∧ t.word (.scEvstat n e) = 0)) ∧
    (∀ mask : Word, ∃ t, Answers (.scEventSet n mask) s t ∧ same t ∧
      s.RegsBut t (.scEvent n :: (List.range 64).map (.scEvstat n)) ∧
      t = { s with regs := t.regs, cores := t.cores } ∧
      ∀ e < 64, bitAt (t.word (.scEvent n)) e = (bitAt (s.word (.scEvent n)) e || mask.toNat.testBit e) ∧
        (mask.toNat.testBit e = false → t.word (.scEvstat n e) = s.word (.scEvstat n e))) ∧
    (s.fld (.scTaskWdog n) F.scTaskWdogLimit = 0 → Answers (.taskWatchdog n c) s s) ∧
    (∀ w, tabFind (s.core n).waits c = some w → s.fld (.scTaskWdog n) F.scTaskWdogLimit ≠ 0 →
      (w.hung = true → Answers (.taskWatchdog n c) s s) ∧
      (w.hung = false → ∃ t, Answers (.taskWatchdog n c) s t ∧ same t ∧
        t.now = max s.now (w.since + s.fld (.scTaskWdog n) F.scTaskWdogLimit * 1000 * fabTicks) ∧
        tabFind (t.core n).waits c = some { w with hung := true } ∧ s.RegsButErr t [] ∧
        t.fld .errHead F.errHeadSeq = (s.fld .errHead F.errHeadSeq + 1) % 2 ^ 32 ∧ t.mem = s.mem))

/-- Background accesses to core memory, the conflict log and the sampling of the mode. (R238, R240, R245,
R247, R248.) With the device running, nothing due in the core. BG_ACCESS past the end of core memory
raises DESC_RANGE, unless it is the debug unit's read of an engine buffer that is fenced or in validation
mode, which answers what the buffer holds; in service mode, with no access of this cycle and no waiting
one on its sub-banks, a write lands (those bytes and no other change, with the poison it carries) and a
read answers the bytes, poisoned if a unit is; else it waits behind the others. BG_FORCE with none waiting
changes nothing. CMC_LOG_CLR zeroes the eight log entries and LOGGED. MODE_SAMPLE with nothing in flight
on core memory sets VMODE as CHIP_MODE asks and clears PENDING, entering validation mode marks every unit
VALID; with something in flight it leaves the state. -/
def Obligations.CoreMemoryBackgroundAndModes : Prop :=
  ∀ (s : State) (n : CoreId), s.dead = false → s.Settled n →
    (∀ (u : BgUnit) (off len : Nat) (d : List Byte) (w p : Bool), cmSize < off + (if w then d.length else len) →
      (u = .debug → off < 0x1000000 → viewServes s (coreBase n + off) (if w then d.length else len) = false) →
      Answers (.bgAccess n u off len ⟨d, p⟩ w) s
        (s.raise { src := srcOf 1 n 8, code := ecDescRange, addr := coreBase n + off })) ∧
    (∀ (off len m o : Nat) (d : List Byte) (p : Bool), off < 0x1000000 → placeOf (coreBase n + off) = .engine n m o →
      viewServes s (coreBase n + off) len = true → ∃ t, Answers (.bgAccess n .debug off len ⟨d, p⟩ false) s t ∧
        t = { s with reply := t.reply } ∧ ∃ y, t.reply = some y ∧ y.v = leNat (viewRead s n m o len)) ∧
    (∀ (u : BgUnit) (off len : Nat) (d : List Byte) (w p : Bool), s.vmode n = false →
      let l := if w then d.length else len
      let clear := bankTaken (s.core n).accesses (s.cyc n) off l = false ∧
        ∀ b ∈ (s.core n).bg, ∀ x ∈ banksOf b.off b.size, x ∉ banksOf off l
      let same (t : State) : Prop := ∀ m, m ≠ n.val → t.core m = s.core m
      (off + l ≤ cmSize → clear → w = true →
        ∃ t, Answers (.bgAccess n u off len ⟨d, p⟩ w) s t ∧ same t ∧
          t = { s with mem := t.mem, sramPoison := t.sramPoison, parity := t.parity, cores := t.cores } ∧
          t.core n = { s.core n with bgUsed := (t.core n).bgUsed } ∧
          memRead t.mem (coreBase n + off) d.length = d ∧ s.MemBut t [(coreBase n + off, d.length)] ∧
          (p = true → ∀ a, off ≤ a → a < off + d.length → t.poisoned (coreBase n + a) = true)) ∧
      (off + l ≤ cmSize → clear → w = false →
        ∃ t, Answers (.bgAccess n u off len ⟨d, p⟩ w) s t ∧ same t ∧ t = { s with reply := t.reply, cores := t.cores } ∧
          t.core n = { s.core n with bgUsed := (t.core n).bgUsed } ∧
          t.reply = some ⟨leNat (memRead s.mem (coreBase n + off) len), 3 * b2n (s.cmPoison n off len)⟩) ∧
      (off + l ≤ cmSize → ¬ clear →
        ∃ t, Answers (.bgAccess n u off len ⟨d, p⟩ w) s t ∧ same t ∧ t = { s with cores := t.cores } ∧
          t.core n = { s.core n with bgUsed := (t.core n).bgUsed, bg := (s.core n).bg ++
            [⟨bgReq u, off, d, List.replicate (ceilDiv (off % 64 + l) 64) p, w, len, s.cyc n, none⟩] })) ∧
    ((s.core n).bg = [] → Answers (.bgForce n) s s) ∧
    (∀ b rest, (s.core n).bg = b :: rest → b.write = false → s.vmode n = false →
      s.cycTime n (b.since + max 1 (s.fld (.cmcBgCtl n) F.cmcBgCtlWaitMax)) ≤ s.now →
      ∃ t, Answers (.bgForce n) s t ∧ (t.core n).bg = rest ∧ t.now = s.now + s.div n ∧
        t.reply = some ⟨leNat (memRead s.mem (coreBase n + b.off) b.len), 3 * b2n (s.cmPoison n b.off b.len)⟩ ∧
        t.fld (.cmcBgCnt n) F.cmcBgCntForced =
          min (s.fld (.cmcBgCnt n) F.cmcBgCntForced + 1) F.cmcBgCntForced.top ∧
        s.RegsBut t [.cmcBgCnt n] ∧ t.mem = s.mem) ∧
    (∃ t, Answers (.cmcLogClr n) s t ∧ s.OnlyRegs t (.cmcStatus n :: (List.range 8).map (.cmcConfLog n)) ∧
      t.fld (.cmcStatus n) F.cmcStatusLogged = 0 ∧ (∀ i < 8, t.word (.cmcConfLog n i) = 0) ∧
      t.vmode n = s.vmode n) ∧
    (s.quiet n = false → Answers (.modeSample n) s s) ∧
    (s.quiet n = true → ∃ t, Answers (.modeSample n) s t ∧ s.RegsBut t [.cmcStatus n] ∧
      t = { s with regs := t.regs, cores := t.cores } ∧ t.fld (.cmcStatus n) F.cmcStatusPending = 0 ∧
      (t.vmode n = true ↔ s.wantsValid n = 1) ∧
      (s.wantsValid n = 1 → s.vmode n = false → t.core n = { s.core n with valid := true, shadow := [] }) ∧
      (s.wantsValid n = 0 ∨ s.vmode n = true → t.core n = s.core n))

/-- FILL, WLOAD, PASS, SPASS, DRAIN, DISCARD, FMV and FDISCARD issue. (R92, R93, R297, R319, R320, R321, R322,
R323, R328, R542.) With the device running and the operation ready. FILL reads its source in wide accesses
from the next cycle on, one a cycle, and is in flight until 3 cycles and one per access (AB) or 36 and one
per access beyond 32 (WS) after issue. WLOAD with N > 0 is queued and names the standby type; PASS and
SPASS go to the end of the lead's feeder with the slot and closing information they latch, and a PASS that
feeds and closes nothing only signals; a SWITCH moves the standby type to every member. Each of these
three first raises an MXE below level 4 to level 4 in 16 cycles a level, in which time passes and no core
cycle does. DRAIN closes the tile on every member; DISCARD frees it where it is OPEN. FMV is queued with
what it latches; fed from CM, with every FMV ahead fed from CM, its lane cycles are fixed: K times V over
the lanes of the weight type for each strip, with no bitmap. FDISCARD empties the hold bank, after the
FMVs ahead of it. The context goes on one cycle later. -/
def Obligations.MatrixSlotsIssue : Prop :=
  ∀ (s : State) (n : CoreId) (c : CtxId) (m : MxeId), s.dead = false →
    let next (t : State) := bundleEnd n c (s.pc n c + 1) 1 t
    let g := membersOf (s.gang n) m
    let r := rampUp n m (if s.rampCycles n m = 0 then s else s.freeze n (s.rampCycles n m))
    ((4 ≤ s.level n m → r = s) ∧ (s.level n m < 4 →
      r.now = s.now + 16 * (4 - s.level n m) * s.div n ∧ r.cyc n = s.cyc n ∧ (∀ i ∈ g, r.level n i = 4) ∧
      s.RegsBut r (.mxeStallCnt n (leadOf (s.gang n) m) :: g.map (.mxeStatus n)) ∧
      r = { s with now := r.now, cores := r.cores, regs := r.regs })) ∧
    (∀ a : FillArgs, s.Ready n c (.mx m (.fill a)) →
      let reads := (s.fillReads n a).zipIdx.map fun q => (s.cyc n + 1 + q.2, q.1)
      let due := s.cyc n + if a.dk then 36 + (reads.length - 32) else 3 + ceilDiv a.len.toNat 8
      (a.dk = false → s.fillReads n a =
        (List.range (ceilDiv a.len.toNat 8)).map fun i => a.src.toNat * 64 + 512 * i) ∧
      Answers (.fill n c m a) s (next ((reads.foldl (fun u q => u.sched n 8 q.2 512 q.1 false) s).modCore n fun x =>
        { x with fills := x.fills ++ [⟨c, s.pc n c, s.cyc n, m + 1, m, a, due, reads, []⟩] }))) ∧
    (∀ a : WloadArgs, s.Ready n c (.mx m (.wload a)) → Answers (.wload n c m a) s
      (next (if a.n.toNat = 0 then r else r.modMxe n m fun x =>
        { x with load := some ⟨c, s.pc n c, a.set.val, a.n.toNat, a.param.toNat, s.cyc n, none⟩,
                 issStandby := some (s.setType n m a.set.val) }))) ∧
    (∀ a : PassArgs, s.Ready n c (.mx m (.pass a)) → ∀ q, xregOf (s.sreg n c a.xreg.toNat) = some q →
      let idle := a.m.toNat = 0 ∧ (a.close = false ∨ (s.tileView n m a.tile.val).isOpen = false)
      let op : FeedOp := ⟨false, c, s.pc n c, a.aboff.toNat, a.m.toNat, a.tile.val, a.row0.toNat, a.close, a.kh,
        a.arow.toNat, a.switch, [], 0, r.latchSlot q.slot, r.closeInfo n c m a.chain.val q, s.cyc n, false⟩
      let queued := r.modMxe n m fun x => { x with feeder := x.feeder ++ [op] }
      (idle → Answers (.pass n c m a) s (next (if a.close ∧ q.evEn then r.signal n q.event {} else r))) ∧
      (¬ idle → a.switch = false → Answers (.pass n c m a) s (next queued)) ∧
      (¬ idle → a.switch = true → Answers (.pass n c m a) s (next (g.foldl (fun t i => t.modMxe n i fun x =>
        { x with issEtype := x.issStandby.getD x.issEtype, issValid := true, issStandby := none }) queued)))) ∧
    (∀ a : SpassArgs, s.Ready n c (.mx m (.spass a)) → ∀ q, xregOf (s.sreg n c a.xreg.toNat) = some q →
      let es := s.srcList n a
      let u := r.schedRange n 8 (a.list.toNat * 64) (a.count.toNat * 16) (s.cyc n) false
      let op : FeedOp := ⟨true, c, s.pc n c, 0, a.m.toNat, a.tile.val, a.row0.toNat, a.close, false, 0, false, es,
        a.count.toNat, u.latchSlot q.slot, u.closeInfo n c m a.chain.val q, s.cyc n, false⟩
      Answers (.spass n c m a) s (next (g.foldl (fun t i => t.modMxe n i fun x =>
          { x with issEtype := s.spassType n es (s.mxe n m).issEtype, issValid := true })
        (u.modMxe n m fun x => { x with feeder := x.feeder ++ [op] })))) ∧
    (∀ a : DrainArgs, s.Ready n c (.mx m (.drain a)) → ∀ q, xregOf (s.sreg n c a.xreg.toNat) = some q →
      Answers (.drain n c m a) s (next (g.foldl (fun t i => t.modMxe n i fun x => pushDrain a.tile.val
        (s.closeInfo n c m a.chain.val q) (s.cyc n) x) s))) ∧
    (∀ t : Fin 8, s.Ready n c (.mx m (.discard t)) → Answers (.discard n c m t) s
      (next (g.foldl (fun u i => if ((u.mxe n i).tile t).st = 1
        then (u.modMxe n i fun x => { x.setTile t {} with stale := x.stale.filter fun e => e.tile != t.val }).zero
          (accBase n i t) 0x10000 else u) s))) ∧
    (∀ off : BitVec 18, s.Ready n c (.ff 1 off.toNat) →
      let bs := s.cm n (off.toNat * 32) 32
      let d := fmvOf bs
      let u := s.sched n 9 (off.toNat * 32) 32 (s.cyc n) false
      Answers (.fmv n c off) s (next (fifePlan n (s.core n).fife.length (u.modCore n fun x =>
        { x with fife := x.fife ++ [⟨c, s.pc n c, bs, u.latchSlot d.slot, u.fifeChain n d.chain,
          (if d.wsrc ∨ d.k = 0 then []
            else (stripsFrom (s.cmUpTo n) (ceilDiv d.k 128) d.strips (d.woff * 64)).1.map Prod.fst), s.cyc n,
          u.amaxLatches (stagesOf (u.fifeChain n d.chain)), false, none, [], [], none⟩] }))) ∧
      (d.wsrc = false → d.gather = false → d.k ≠ 0 → d.strips ≠ 0 → (∀ o ∈ (s.core n).fife, o.start ≠ none) →
        ∃ t, Answers (.fmv n c off) s t ∧ (t.core n).fifeFree = max (s.cyc n) (s.core n).fifeFree +
          d.strips * ceilDiv (d.k * d.v) (fifeLanes (s.fmvType n d)))) ∧
    (s.Ready n c (.ff 2 0) → Answers (.fdiscard n c) s (next (s.modCore n fun x =>
      if x.fife = [] then { x with fifeHold := none }
      else { x with fife := x.fife.modify (x.fife.length - 1) fun o => { o with drop := true } })))

/-- Fills and weight loads complete; an MXE's configuration, scan, re-run and activity. (R66, R68, R75, R83,
R85, R86, R91, R233, R319, R495.) With the device running, the core quiet. FILL_COMPLETE ends the fill
that is due first, a line read in its turn delaying it: an AB takes the bytes of the source, those of core
memory where nothing else lands meanwhile; a valid tile sets the WS set's type and columns, an invalid one
marks the set and raises DESC_FORMAT. WEIGHT_LOAD_START, outside validation mode, starts a queued load
with none running at the latest of its issue, the end of the load before and 9 cycles past the last
switch; WEIGHT_LOAD_DONE leaves column sums and row count and SVALID. MXE_CFG_APPLY with a held write
waits for its MXEs, then for the last result, and a changed array loses its weights. ABFT_TILE_RERUN frees
a mismatched tile with its drains and asks for a scan. COLUMN_SCAN bypasses failing columns up to four in
all and unfences, beyond four it stays fenced; while a kernel holds an undrained core it does nothing.
DUMMY_PASS is one idle cycle. ACTIVITY_RAMP_DOWN lowers the level of a gang by one, 16 cycles after the
idle gap or the last change. Not enabled, each leaves the state. -/
def Obligations.MatrixLoadsAndConfiguration : Prop :=
  (∀ (s : State) (n : CoreId) (m : MxeId) (fails : List (Fin 128)), s.dead = false → coreSync n s = s →
    kernelSweep s = s → s.kernelOn n = true → s.drained n = false → Answers (.columnScan n m fails) s s) ∧
  ∀ (s : State) (n : CoreId) (m : MxeId), s.dead = false → s.Settled n →
    ((s.core n).fills = [] → Answers (.fillComplete n) s s) ∧
    (∀ as f bs, (s.core n).fills = as ++ f :: bs → (∀ e ∈ as, s.fillDue n f < s.fillDue n e) →
      (∀ e ∈ bs, s.fillDue n f ≤ s.fillDue n e) → f.m = m.val →
      let u := s.toCyc n (s.fillDue n f)
      let a := f.args
      ∃ f' t, (u.core n).fills[as.length]? = some f' ∧ f'.args = a ∧ Answers (.fillComplete n) s t ∧ t.now = u.now ∧
        (t.core n).fills = (u.core n).fills.eraseIdx as.length ∧
        (a.dk = false → (s.core n).bg = [] →
          (∀ q ∈ (s.core n).moments (s.fillDue n f), ∃ k off, q.2 = .fill k off) →
          f.got = [] → f.due = f.issue + 3 + ceilDiv a.len.toNat 8 →
          (f.reads = (List.range (ceilDiv a.len.toNat 8)).map fun i => (f.issue + 1 + i, a.src.toNat * 64 + 512 * i)) →
          (a.src.toNat + a.len.toNat) * 64 ≤ cmSize → (a.aboff.toNat + a.len.toNat) * 64 ≤ 0x40000 →
            t.regs = s.regs ∧ s.MemBut t [(abBase n m + a.aboff.toNat * 64, a.len.toNat * 64)] ∧
            ∀ i < a.len.toNat * 64, memByte t.mem (abBase n m + a.aboff.toNat * 64 + i) =
              memByte s.mem (coreBase n + a.src.toNat * 64 + i)) ∧
        (a.dk = true →
          let src := a.src.toNat * 64
          let h := hdrOf (gotBytes f'.got src 64)
          let bad := fillFault (gotBytes f'.got src (min (max (h.len * 64) 64) (cmSize - src))) (cmSize - src) a.part.toNat
          (bad = 0 → t.regs = u.regs ∧ u.MemBut t [(wsBase n m a.set.val, 0x4000)] ∧
            tabFind (t.mxe n m).wsMeta a.set.val =
              some (fillMeta (tabGet {} (u.mxe n m).wsMeta a.set.val) h a.part.toNat)) ∧
          (bad ≠ 0 → u.RegsButErr t [] ∧ t.mem = u.mem ∧
            t.fld .errHead F.errHeadSeq = (u.fld .errHead F.errHeadSeq + 1) % 2 ^ 32 ∧
            ∃ w, tabFind (t.mxe n m).wsMeta a.set.val = some w ∧ w.valid = false))) ∧
    ((s.mxe n m).load = none → Answers (.weightLoadStart n m) s s) ∧
    (∀ l, (s.mxe n m).load = some l → (∃ f ∈ (s.mxe n (leadOf (s.gang n) m)).feeder, f.switch = true ∧ f.issue ≤ l.issue) →
      Answers (.weightLoadStart n m) s s) ∧
    (∀ l, (s.mxe n m).load = some l → (s.mxe n m).cur = none → s.vmode n = false →
      (∀ f ∈ (s.mxe n (leadOf (s.gang n) m)).feeder, f.switch = true → l.issue < f.issue) → ∀ k : Fin 4, l.set = k.val →
      l.n ≤ 128 →
      let prev := match (s.mxe n m).lastLoad with
        | some (a, k) => a + ceilDiv k 4
        | none => 0
      let sw := match (s.mxe n m).lastSwitch with
        | some t => t + 9
        | none => 0
      let s0 := max l.issue (max prev sw)
      let u := (s.toCyc n s0).schedRange n (4 + m) (l.param * 64) 2048 s0 false
      ∃ t, Answers (.weightLoadStart n m) s t ∧ (t.mxe n m).load = none ∧
        (t.mxe n m).cur = some { l with start := some s0 } ∧ (t.mxe n m).lastLoad = some (s0, l.n) ∧
        (t.mxe n m).standby = u.readSet n m l ∧ t.fld (.mxeStatus n m) F.mxeStatusSvalid = 0 ∧
        (t.mxe n m).spans = ([1, 2, 3].map fun i => (s0 + i, l.param * 64 + 512 * i, 64 * i)) ∧
        u.RegsButErr t [.mxeStatus n m, .tstSramCnt n] ∧ t.mem = u.mem ∧ t.now = u.now) ∧
    ((s.mxe n m).cur = none → Answers (.weightLoadDone n m) s s) ∧
    (∀ l, (s.mxe n m).cur = some l →
      let u := s.toCyc n (l.start.getD 0 + ceilDiv l.n 4 + 1)
      let ws := if (u.mxe n m).standby = {} then (u.mxe n m).active else (u.mxe n m).standby
      ∃ t, Answers (.weightLoadDone n m) s t ∧ (t.mxe n m).cur = none ∧ (t.mxe n m).standby = (u.mxe n m).standby ∧
        t.now = u.now ∧ t.mem = u.mem ∧ t.word (.mxeRowcnt n m) = l.n % 2 ^ 64 ∧
        ((u.mxe n m).standby ≠ {} → t.fld (.mxeStatus n m) F.mxeStatusSvalid = 1) ∧
        (∀ j < 256, t.word (.mxeColsum n m j) = ux 32 (ws.colsum.getD j 0)) ∧
        u.RegsBut t ([.mxeRowcnt n m, .mxeStatus n m] ++ (List.range 256).map (.mxeColsum n m) ++
          (List.range 256).map (.mxeWparam n m))) ∧
    ((s.core n).cfgHeld = none ∨ (∃ i : MxeId, (s.mxe n i).held = true) → Answers (.mxeCfgApply n) s s) ∧
    (∀ v, (s.core n).cfgHeld = some v → (∀ i : MxeId, (s.mxe n i).held = false) →
      let u := s.toCyc n ((List.range 4).foldl (fun a i => max a (s.mxe n i).busyTill) 0)
      ∃ t, Answers (.mxeCfgApply n) s t ∧ (t.core n).cfgHeld = none ∧ t.now = u.now ∧
        t.fld (.mxeCfg n 0) F.mxeCfgGang = F.mxeCfgGang.of v.toNat ∧
        t.fld (.mxeCfg n 0) F.mxeCfgTranspose = F.mxeCfgTranspose.of v.toNat ∧
        ((u.core n).stall = none → u.RegsBut t (.mxeCfg n 0 :: (List.range 4).map (.mxeStatus n))) ∧
        (∀ st, (u.core n).stall = some st → st.cause = stCfgWrite → (t.core n).stall = none) ∧
        (∀ i : MxeId, u.gang n ≠ F.mxeCfgGang.of v.toNat ∨ u.transp n i ≠ bitAt (F.mxeCfgTranspose.of v.toNat) i →
          (t.mxe n i).active = {} ∧ (t.mxe n i).standby = {} ∧
          t.fld (.mxeStatus n i) F.mxeStatusWvalid = 0 ∧ t.fld (.mxeStatus n i) F.mxeStatusSvalid = 0 ∧
          ∀ k < 8, ((t.mxe n i).tile k).st ≠ 1)) ∧
    (∀ k : Fin 8, (((s.mxe n m).tile k).abft = false → Answers (.abftTileRerun n m k) s s) ∧
      (((s.mxe n m).tile k).abft = true → ∃ t, Answers (.abftTileRerun n m k) s t ∧
        t.regs = s.regs ∧ t.now = s.now ∧ (t.mxe n m).tile k = {} ∧ (t.mxe n m).scan = true ∧
        (t.mxe n m).drains = (s.mxe n m).drains.filter (fun d => d.tile ≠ k.val) ∧
        (∀ i < 0x10000, memByte t.mem (accBase n m k + i) = 0) ∧ s.MemBut t [(accBase n m k, 0x10000)])) ∧
    (∀ fails : List (Fin 128),
      let w := s.word (.mxeBypass n m)
      let all := (bypassedOf w ++ fails.map Fin.val).dedup
      ((List.range 4).filter fun i => bitAt w (8 * i + 7)).length = (bypassedOf w).length →
      ∃ t, Answers (.columnScan n m fails) s t ∧ t.now = s.now + 10240 * s.div n ∧ t.mem = s.mem ∧
        (t.fenced n m = true ↔ 4 < all.length) ∧ (∀ i : MxeId, i ≠ m → t.fenced n i = s.fenced n i) ∧
        s.RegsButErr t [.tstFence n, .mxeBypass n m, .mxeStatus n m] ∧ (t.mxe n m).scan = false ∧
        (∀ x ∈ bypassedOf (t.word (.mxeBypass n m)), x ∈ all) ∧
        (all.length ≤ 4 → ∀ x ∈ all, x ∈ bypassedOf (t.word (.mxeBypass n m)))) ∧
    (s.feederIdle n m = true → Answers (.dummyPass n m) s { s with now := s.now + s.div n }) ∧
    (s.feederIdle n m = false → Answers (.dummyPass n m) s s) ∧
    (s.feederIdle n m = false ∨ s.level n m = 0 → Answers (.activityRampDown n m) s s) ∧
    (s.feederIdle n m = true → s.level n m ≠ 0 → ∃ t, Answers (.activityRampDown n m) s t ∧
      let due := max ((s.mxe n (leadOf (s.gang n) m)).feedFree + s.gapMax) (s.mxe n m).levelAt + 16
      let u := s.toCyc n due
      let g := membersOf (u.gang n) m
      t.now = u.now ∧ t.mem = u.mem ∧ (∀ i ∈ g, t.level n i = s.level n m - 1 ∧ (t.mxe n i).levelAt = due) ∧
      u.RegsBut t (g.map (.mxeStatus n)))

/-- A pass runs, a sparse pass completes, a drain starts, swaps and completes, and a Fife operation ends.
(R55, R82, R102, R104, R106, R126, R176, R178, R301, R321, R327.) With the device running, the core quiet,
outside validation mode. PASS_FEED_START runs the dense pass at the head of the feeder once it has its
weights: a bad activation tile only raises and signals; else its tile is OPEN and, with CLOSE, goes to the
drain unit; only accumulator bytes change, and an integer vector adds the sum of products of its codes to
each column, clamped to INT32; a checked pass counts its vectors. SPASS_COMPLETE ends a sparse pass: with
no vectors or positions at once, a bad position only raises and signals, else it signals or closes.
DRAIN_START begins at D0, past the last results and the drain before, in a gang member by member at one
D0, and takes the tile and its partner; DRAIN_SWAP frees both with their bytes 0; DRAIN_COMPLETE ends it
after the last write; the last member signals with the flags of all. FMV_COMPLETE ends the oldest Fife
operation and signals its event, a stream source only once its tiles are there, and an FDISCARD behind it
empties the hold bank. With nothing to run each leaves the state. -/
def Obligations.MatrixPassesRunAndDrainsComplete : Prop :=
  ∀ (s : State) (n : CoreId) (m : MxeId), s.dead = false → s.Settled n → s.vmode n = false →
    let x := s.mxe n m
    let g := membersOf (s.gang n) m
    let set (t : State) (e : Nat) := bitAt (t.word (.scEvent n)) e = true
    (∀ ms, x.feeder = [] → Answers (.passFeedStart n m ms) s s ∧ Answers (.spassComplete n ⟨m, ms⟩) s s) ∧
    (∀ f rest ms, x.feeder = f :: rest →
      (f.sparse = true → Answers (.passFeedStart n m ms) s s) ∧
      (f.sparse = false → Answers (.spassComplete n ⟨m, ms⟩) s s) ∧
      (f.sparse = false → awaitsLoad s n m f = true → Answers (.passFeedStart n m ms) s s) ∧
      (f.sparse = false → awaitsLoad s n m f = false →
        let t0 := feedCycle s n m f
        let u0 := s.toCyc n t0
        let g := membersOf (u0.gang n) m
        let u := u0.doIf f.switch fun s => g.foldl (fun s i => switchSet n i t0 s) s
        let bs := u.abTile n m f.aboff
        let v := u.doIf (decide (f.m ≠ 0)) (·.parityRange (abBase n m + f.aboff * 64) bs.length)
        let bad := if f.m = 0 then 0 else actTileFault bs (0x40000 - f.aboff * 64)
        let o (i : Nat) := if f.m ≠ 0 ∧ ((v.mxe n i).tile f.tile).st = 0
          then (openTile v n i f.tile f.latch).mxe n i else v.mxe n i
        let r := (o m).tile f.tile
        let w := (v.mxe n m).active
        (bad ≠ 0 → Answers (.passFeedStart n m ms) s (feedFail n m f bad v)) ∧
        (bad = 0 → ∃ t, Answers (.passFeedStart n m ms) s t ∧ (t.mxe n m).feeder = rest ∧
          v.RegsButErr t [.mxeAbftCnt n m, .mxeStallCnt n m] ∧
          (v.abftEn n m = false → t.now = v.now) ∧
          (v.isChecked n m f.info.chain = true → t.fld (.mxeAbftCnt n m) F.mxeAbftCntChecked =
            min (v.fld (.mxeAbftCnt n m) F.mxeAbftCntChecked + f.m) F.mxeAbftCntChecked.top) ∧
          (∀ i ∈ g, ((t.mxe n i).tile f.tile).st = ((o i).tile f.tile).st ∧
            ((t.mxe n i).tile f.tile).mt =
              (if f.m = 0 then ((o i).tile f.tile).mt else max ((o i).tile f.tile).mt (f.row0 + f.m)) ∧
            (t.mxe n i).drains.length = (v.mxe n i).drains.length + b2n f.close ∧
            (f.close = true → ((t.mxe n i).tile f.tile).closing = true)) ∧
          (∀ k : Fin 8, f.tile = k.val → (∀ i ∈ g, ((o i).tile f.tile).cols ≤ ((o i).tile f.tile).fullCols ∧
              (f.row0 + f.m) * ((o i).tile f.tile).fullCols ≤ 0x4000) →
            v.MemBut t (g.map fun i => (accBase n i f.tile, 0x10000)) ∧
            (f.m = 1 → ms = [] → g = [m.val] → v.abftEn n m = false → isIntMode w.etype = true →
              let h := hdrOf bs
              let e := v.abRow n m bs h f.aboff f.arow (if f.kh then 64 else 0) (if r.transpose then w.cols else w.rows)
              let codes := (mkVec r.latch (w.etype == etBf16) (e.1.zipIdx.map fun q => foldScale w r.transpose q.2 q.1) e.2).codes
              ∀ j < r.cols, t.accWord n m f.tile r.fullCols f.row0 j =
                ux 32 (satI32 (sx 32 (v.accWord n m f.tile r.fullCols f.row0 j) +
                  intSum (etBits w.etype) codes (w.against r.transpose j))))))) ∧
      (f.sparse = true → f.m = 0 ∨ f.count = 0 →
        let i0 := max f.issue x.feedFree
        let u := (s.toCyc n i0).modMxe n m popFeed
        (f.close = true ∧ (x.tile f.tile).st = 1 → Answers (.spassComplete n ⟨m, ms⟩) s
          (closeGang n (membersOf (u.gang n) m) f.tile f.info (x.tile f.tile).ready u)) ∧
        (¬ (f.close = true ∧ (x.tile f.tile).st = 1) → Answers (.spassComplete n ⟨m, ms⟩) s
          ((u.toCyc n (i0 + 1)).signal n f.info.event {}))) ∧
      (f.sparse = true → f.m ≠ 0 → f.count ≠ 0 →
        let u := s.toCyc n (max f.issue x.feedFree)
        let et := u.spassType n f.entries x.issEtype
        let ps := u.positions n m (membersOf (u.gang n) m) f.entries
        (spassBad u n m f et ps ≠ 0 →
          Answers (.spassComplete n ⟨m, ms⟩) s (feedFail n m f (spassBad u n m f et ps) u)) ∧
        ∃ t, Answers (.spassComplete n ⟨m, ms⟩) s t ∧ (t.mxe n m).feeder = rest ∧ s.now ≤ t.now ∧
          (spassBad u n m f et ps = 0 → f.close = false → ∀ e : Fin 64, f.info.event = e.val → set t e))) ∧
    (x.drains.all DrainOp.started = true → Answers (.drainStart n m) s s) ∧
    (∀ d rest, x.drains = d :: rest →
      let ahead := g.takeWhile (· ≠ m.val)
      let hold := (∃ i ∈ ahead, ∃ e ∈ (s.mxe n i).drains, e.started = false ∧ d.same e = true) ∨
        (ahead = [] ∧ drainWaits s n m d = true)
      let due := if ahead = [] then g.foldl (fun a i => max a (max (((s.mxe n i).tile d.tile).ready + 1)
          (max ((d.partner.map fun p => ((s.mxe n i).tile p).ready + 1).getD 0) ((s.mxe n i).lastSwap + 1))))
          (d.info.issue + 1) else d.d0
      (d.started = false → hold → Answers (.drainStart n m) s s) ∧
      (d.started = false → ¬ hold → let u := s.toCyc n due
        let q := (u.mxe n m).tile d.tile
        ∃ t d', Answers (.drainStart n m) s t ∧ (t.mxe n m).drains.head? = some d' ∧ d'.started = true ∧
        d'.swapped = d.swapped ∧ d'.d0 = due ∧ d'.tile = d.tile ∧ d'.partner = d.partner ∧ d'.info = d.info ∧
        d'.swapAt = due + drainCycles q.mt q.fullCols (outType (stagesOf d.info.chain) (isIntMode q.etype)) ∧
        (d'.sat = true → d'.todo = []) ∧ t.mem = u.mem ∧ t.now = u.now ∧
        ((t.mxe n m).tile d.tile).st = 3 ∧ (∀ p, d.partner = some p → ((t.mxe n m).tile p).st = 3)) ∧
      (d.started = false → d.swapped = false → Answers (.drainSwap n m) s s) ∧
      (d.started = true → d.swapped = false → let u := s.toCyc n d.swapAt
        ∃ t, Answers (.drainSwap n m) s t ∧ t.regs = u.regs ∧ t.now = u.now ∧
          (t.mxe n m).drains = (u.mxe n m).drains.modify 0 (fun e => { e with swapped := true }) ∧
          (t.mxe n m).lastSwap = d.swapAt ∧
          (∀ k, k = d.tile ∨ d.partner = some k → (t.mxe n m).tile k = {} ∧
            ∀ i < 0x10000, memByte t.mem (accBase n m k + i) = 0) ∧
          u.MemBut t ((d.tile :: d.partner.toList).map fun k => (accBase n m k, 0x10000))) ∧
      (d.swapped = false → Answers (.drainComplete n m) s s) ∧
      (d.swapped = true → let u := s.toCyc n (d.lastWrite + 1)
        ∃ t d', Answers (.drainComplete n m) s t ∧ (u.mxe n m).drains = d' :: (t.mxe n m).drains ∧ d'.info = d.info ∧
          t.now = u.now ∧ t.mem = u.mem ∧
          (let last := ∀ i ∈ membersOf (u.gang n) m, i ≠ m.val → ∀ e ∈ (u.mxe n i).drains, d'.same e = false
           (last → d.info.evEn = true → ∀ e : Fin 64, d.info.event = e.val → set t e ∧
            let g : Sig := { poison := d'.flags.poison, abft := d'.flags.abft, sat := d'.flags.sat, nanSeen := d'.flags.nanSeen }
            t.word (.scEvstat n e) = mergeStatus (u.word (.scEvstat n e)) g % 2 ^ 64) ∧
           (¬ last ∨ d.info.evEn = false → t.word (.scEvent n) = u.word (.scEvent n))))) ∧
    (x.drains = [] → Answers (.drainSwap n m) s s ∧ Answers (.drainComplete n m) s s) ∧
    ((s.core n).fife = [] → Answers (.fmvComplete n) s s) ∧
    (∀ op rest, (s.core n).fife = op :: rest →
      let d := fmvOf op.desc
      let q := tabGet [] (s.core n).fifeQ (d.woff % 16)
      let stop := (stripsFrom (fun off len => (q.drop off).take len) (ceilDiv d.k 128) d.strips 0).2
      (d.k ≠ 0 → d.strips ≠ 0 → d.wsrc = true → op.reads = [] → q.length < stop → Answers (.fmvComplete n) s s) ∧
      (d.k = 0 ∨ d.strips = 0 ∨ d.wsrc = false ∨ stop ≤ q.length → ∃ t, Answers (.fmvComplete n) s t ∧
        (t.core n).fife.length = rest.length ∧ s.now ≤ t.now ∧ (d.en = true → set t d.event) ∧
        (op.drop = true → (t.core n).fifeHold = none)))

/-- The vector slot's eighteen operations issue, and background operations end. (R237, R297, R303, R324, R325,
R326.) With the device running and the operation ready, each vector operation puts its lanes on their way
to VD with the latency of R324 and goes on one cycle later: VLD 512 bytes of core memory, VADD, VSUB and
VMUL lane by lane (an INT32 saturation sets SAT), VFMA with one rounding, VMAX, VMIN, VUNARY, VCMP, VSEL,
VCVT of the chosen half (to INT32, a special sets NAN_SEEN and a value out of range SAT), VFUNC, VDIV,
VRED into lane 0, VBCAST of RS; a poisoned operand unit poisons the result's and sets POISON. Where a
background operation has an access in this cycle, it and its end move on by one. VST sends VA's bytes with
their poison to land two cycles later. VREQ and VPSUM set BUSY and run in the background behind those
before them, reading 128 lanes a cycle and then writing; VECTOR_BACKGROUND_DONE then writes, signals with
EN or sets VXE_STAT without, and clears BUSY with the last. With none it leaves the state. ABS and NEG of
the lowest INT32, INT32 VDIV by 0 and INT32 VFUNC take free values (assumption 2). -/
def Obligations.VectorSlotsIssue : Prop :=
  ∀ (s : State) (n : CoreId) (c : CtxId) (a : VxArgs), s.dead = false →
    let next (t : State) := bundleEnd n c (s.pc n c + 1) 1 t
    let rdy (k : Nat) := s.Ready n c (.vx k a)
    let sl := vbgSlip n s
    let t := a.t.toNat
    let k := a.imm.toNat
    let lane (v : BitVec 6) := lanesOf t (s.vreg n v.toNat)
    let pz (v : BitVec 6) := s.vpois n v.toNat
    let x := lane a.va
    let y := lane a.vb
    let z := lane a.vc
    let o := s.vxAddr n c a
    let two := poisonUnits [pz a.va, pz a.vb]
    let three := poisonUnits [pz a.va, pz a.vb, pz a.vc]
    let put (u : State) (lat : Nat) (ls : List Nat) (p : List PoisonBit) := next (u.vput n a.vd.toNat t lat ls p)
    let arith (op : Nat) := let r := vZip (vArith op t) x y
      put (sl.vxeSet n r.2 false false) 4 r.1 two
    let bg (req : Bool) : State :=
      let d := s.cm n (s.vxDesc n c a) 32
      let f := fieldAt d
      let zero := if req then f 4 2 = 0 else f 8 1 = 0 ∨ f 10 2 = 0
      let r : VecBgRes := if zero then ⟨[], [], false, false, false⟩ else if req then vreqRes s n d else vpsumRes s n d
      let reads := if zero then [] else if req
        then (List.range (ceilDiv (f 4 2 * f 6 1) 128)).map fun i => f 0 4 * 64 + 512 * i
        else (List.range (f 10 2)).flatMap fun l => (List.range (f 8 1)).map fun p => (f 0 4 + p * f 4 4) * 64 + 512 * l
      let as := reads.map (·, false) ++ (vbgWrites n r.writes).map (·, true)
      let t0 := if zero then s.cyc n else (s.core n).vbg.foldl (fun a b => max a b.done) (s.cyc n)
      next (((s.sched n 10 (s.vxDesc n c a) 32 (s.cyc n) false).setFld (.vxeStat n) F.vxeStatBusy 1).modCore n fun q =>
        { q with
          sched := q.sched ++ as.zipIdx.map fun i => ⟨t0 + 1 + i.2, 10, i.1.1, 512, i.1.2, true⟩
          vbg := q.vbg ++ [⟨c, s.cyc n, t0 + as.length, bitAt (f 20 1) 7, f 20 1 % 64, r.writes, r.const, r.sat, r.nan,
            r.poison, 0, s.pc n c⟩] })
    (¬ ((s.core n).sched.any fun q => q.slip && q.cyc == s.cyc n) → sl = s) ∧
    (((s.core n).sched.any fun q => q.slip && q.cyc == s.cyc n) →
      (sl.core n).vbg = (s.core n).vbg.map fun b => if s.cyc n ≤ b.done then { b with done := b.done + 1 } else b) ∧
    (rdy 0x1 → Answers (.vld n c a) s (next ((sl.sched n 10 o 512 (s.cyc n) false).vput n a.vd.toNat 0 6
      ((chunks 4 128 (s.cm n o 512)).map leNat) ((List.range 8).map fun u => ⟨u, s.cmPoison n (o + 64 * u) 64⟩)))) ∧
    (rdy 0x2 →
      let ps := (List.range ((o % 64 + 512 + 63) / 64)).map fun u =>
        (pz a.va).getD u false || (o % 64 != 0 && u != 0 && (pz a.va).getD (u - 1) false)
      Answers (.vst n c a) s (next ((sl.sched n 10 o 512 (s.cyc n + 2) true).modCore n fun q =>
        { q with slow := q.slow ++ [.cmw (s.cyc n + 2) o ((s.vreg n a.va.toNat).flatMap (natLe 4)) ps false] }))) ∧
    (rdy 0x3 → Answers (.vadd n c a) s (arith 3)) ∧ (rdy 0x4 → Answers (.vsub n c a) s (arith 4)) ∧
    (rdy 0x5 → Answers (.vmul n c a) s (arith 5)) ∧
    (rdy 0x6 → Answers (.vfma n c a) s (put sl 4 (List.zipWith (fun p w =>
      vRnd t (fpAdd (fpMul (vVal t p.1) (vVal t p.2)) (vVal t w))) (x.zip y) z) three)) ∧
    (rdy 0x7 → Answers (.vmax n c a) s (put sl 4 (List.zipWith (vMinMax false t) x y) two)) ∧
    (rdy 0x8 → Answers (.vmin n c a) s (put sl 4 (List.zipWith (vMinMax true t) x y) two)) ∧
    (rdy 0x9 → Answers (.vunary n c a) s (let fr := if t = 2 ∧ k % 4 ≠ 2 then sl.freeLanes 32 else ([], sl)
      put fr.2 4 (x.zipIdx.map fun q => vUnary (k % 4) t q.1 (fr.1.getD q.2 0)) (poisonUnits [pz a.va]))) ∧
    (rdy 0xa → Answers (.vcmp n c a) s
      (put sl 4 (List.zipWith (fun p q => if vRel (k % 8) t p q then vOnes t else 0) x y) two)) ∧
    (rdy 0xb → Answers (.vsel n c a) s
      (put sl 4 (List.zipWith (fun p w => if w ≠ 0 then p.1 else p.2) (x.zip y) z) three)) ∧
    (rdy 0xc →
      let h := if bitAt k 4 then 1 else 0
      let src := if t = 1 then (x.drop (128 * h)).take 128 else x
      let r := src.map fun w => fpElem (k % 16) (vVal t w)
      let u := sl.vxeSet n (decide (k % 16 = etInt32) && src.any fun w => convSat (vVal t w))
        (decide (k % 16 = etInt32) && src.any fun w => (vVal t w).special) false
      let p := pz a.va
      Answers (.vcvt n c a) s (next (if k % 16 = etBf16
        then u.vput n a.vd.toNat 1 4 r ((List.range 4).map fun i => ⟨4 * h + i, if t = 1 then p.getD (4 * h + i) false
          else p.getD (2 * i) false || p.getD (2 * i + 1) false⟩) (64 * h)
        else u.vput n a.vd.toNat 0 4 r
          ((List.range 8).map fun i => ⟨i, if t = 1 then p.getD (4 * h + i / 2) false else p.getD i false⟩)))) ∧
    (rdy 0xd → Answers (.vfunc n c a) s (let fr := if t = 2 then sl.freeLanes 32 else ([], sl)
      put fr.2 8 (x.zipIdx.map fun q => vFunc (k % 16) t q.1 (fr.1.getD q.2 0)) (poisonUnits [pz a.va]))) ∧
    (rdy 0xe → Answers (.vdiv n c a) s (let fr := if t = 2 then sl.freeLanes 32 else ([], sl)
      put fr.2 12 ((x.zip y).zipIdx.map fun q => vDiv t q.1.1 q.1.2 (fr.1.getD q.2 0)) two)) ∧
    (rdy 0xf → Answers (.vred n c a) s
      (let r := if k % 4 = 0 then vTree t 9 x
         else ((x.drop 1).foldl (vMinMax (k % 4 == 2) t) (x.getD 0 0), false)
       next ((sl.vxeSet n r.2 false false).vput n a.vd.toNat 0 8 [r.1]
         (if (pz a.va).contains true then [⟨0, true⟩] else []) 0 (if t = 1 then 0xFFFF else 0xFFFFFFFF)))) ∧
    (rdy 0x10 → Answers (.vbcast n c a) s
      (let v := s.sreg n c a.rs.toNat % 2 ^ 32
       next (sl.vput n a.vd.toNat 0 2 (List.replicate 128 (if t = 1 then v % 65536 * 65537 else v))
         ((List.range 8).map fun u => ⟨u, s.spoison n c a.rs.toNat⟩)))) ∧
    (rdy 0x11 → Answers (.vreq n c a) s (bg true)) ∧ (rdy 0x12 → Answers (.vpsum n c a) s (bg false)) ∧
    (s.Settled n → s.vmode n = false →
      ((s.core n).vbg = [] → Answers (.vectorBackgroundDone n) s s) ∧
      (∀ b rest, (s.core n).vbg = b :: rest → ∀ e : Fin 64, b.event = e.val →
        let v := s.toCyc n b.done
        ∃ u, Answers (.vectorBackgroundDone n) s u ∧ (u.core n).vbg = rest ∧ u.now = v.now ∧
          u.mem = (v.wrOps b.writes).mem ∧ (b.evEn = true → bitAt (u.word (.scEvent n)) e = true) ∧
          (rest = [] → u.fld (.vxeStat n) F.vxeStatBusy = 0) ∧
          (b.const = [] → v.RegsBut u (.vxeStat n :: if b.evEn then [.scEvent n, .scEvstat n e] else []))))

/-- INT32 lanes add, subtract and multiply with saturation. (R325, R324.) For every two INT32 lanes, VADD,
VSUB and VMUL give the signed sum, difference and product clamped to -2^31 and 2^31 - 1, and say so
exactly when it was clamped. VMAX and VMIN give the signed larger and smaller lane, VCMP the signed
relations EQ, NE, LT, LE, GT and GE, VUNARY 2 the lane itself, ABS and NEG the signed results except of
-2^31, which takes a free value. A division by 0 takes a free value and one by 1 gives the lane
(assumption 2). -/
def Obligations.VectorIntegerLanesSaturate : Prop :=
  ∀ a b fr : Nat, a < 2 ^ 32 → b < 2 ^ 32 →
    let v (w : Nat) := sx 32 w
    let sat (x : Int) (r : Nat × Bool) := v r.1 = max (-2147483648) (min 2147483647 x) ∧ r.1 < 2 ^ 32 ∧
      (r.2 = true ↔ x < -2147483648 ∨ 2147483647 < x)
    sat (v a + v b) (vArith 3 2 a b) ∧ sat (v a - v b) (vArith 4 2 a b) ∧ sat (v a * v b) (vArith 5 2 a b) ∧
    v (vMinMax false 2 a b) = max (v a) (v b) ∧ v (vMinMax true 2 a b) = min (v a) (v b) ∧
    (vRel 0 2 a b = true ↔ v a = v b) ∧ (vRel 1 2 a b = true ↔ v a ≠ v b) ∧ (vRel 2 2 a b = true ↔ v a < v b) ∧
    (vRel 3 2 a b = true ↔ v a ≤ v b) ∧ (vRel 4 2 a b = true ↔ v b < v a) ∧ (vRel 5 2 a b = true ↔ v b ≤ v a) ∧
    vUnary 2 2 a fr = a ∧ (v a ≠ -2147483648 →
      v (vUnary 0 2 a fr) = max (v a) (- v a) ∧ v (vUnary 1 2 a fr) = - v a) ∧
    (v a = -2147483648 → vUnary 0 2 a fr = fr ∧ vUnary 1 2 a fr = fr) ∧
    (v b = 0 → vDiv 2 a b fr = fr) ∧ (v b = 1 → v (vDiv 2 a b fr) = v a)

/-- Starting, stopping and programming stream queues, the stream slot, and a queue's end. (R266, R268, R270,
R275, R278, R329, R330, R336.) With the device running and nothing due in the core. START of a queue that
neither executes nor drains makes it RUNNING at PC 0 when its program validates; else it is FAULTED with
the code, an error and the completion event; a live queue refuses it. STOP of a live queue ends its
execution, of another does nothing. A CTL write with QDEPTH over 64 or a sum over 256 is refused with
DESC_RANGE; else it stores, and DEPTH_SUM follows. SRC, DST, IR and PROG writes store on a queue that is
not live and conflict on a live one. A stream-slot operation with none before it does the same from its
slot; GHPUSH waits while its Glasshouse queue is full and GHPUSH_ACCEPTED then pushes. QUEUE_DRAINED makes
a queue without transfers FAULTED, STOPPED or IDLE and signals. Not enabled, each leaves the state. -/
def Obligations.StreamQueueControl : Prop :=
  ∀ (s : State) (n : CoreId) (c : CtxId) (q : QId) (r : Requester), s.dead = false → s.Settled n → s.coreOut n = false →
    s.Reaches r (regAddr (.strQCtl n q)) →
    let live := s.strLive n q
    let prog := progCheck (s.strWord n q) 32 0 []
    let stat (t : State) (f : Fld) := t.fld (.strQStat n q) f
    let ev := s.fld (.strQCtl n q) F.strQCtlEvent
    let late := (s.strq n q).signals
    let done := [.strQStat n q, .scEvent n, .scEvstat n ev] ++ late.map fun g => .scEvstat n g.event
    let told (t : State) := bitAt (t.word (.scEvent n)) ev = true ∧
      ∀ e : Fin 64, (∃ g ∈ late, g.event = e.val) → bitAt (t.word (.scEvent n)) e = true
    let get (off len : Nat) (s : State) := bgReach 12 (coreBase n + off * 32) len false s
    let slot (code : Nat) (a : StArgs) := s.Ready n c (.st code a) ∧ (s.core n).stq = []
    let next (t : State) := bundleEnd n c (s.pc n c + 1) 1 t
    (∀ t, t = strStart n q s →
      (live = true → t = s.conflict (strSrc n) (regAddr (.strQCtl n q)) 1) ∧
      (live = false → prog.code = 0 → t.strState n q = strRunning ∧ stat t F.strQStatPc = 0 ∧
        stat t F.strQStatCode = 0 ∧ s.RegsBut t [.strQStat n q] ∧ t = { s with regs := t.regs, cores := t.cores } ∧
        (t.strq n q).loops = [] ∧ (t.strq n q).inflight = (s.strq n q).inflight ∧ (t.strq n q).fault = 0) ∧
      (live = false → prog.code ≠ 0 → t.strState n q = strFaulted ∧ stat t F.strQStatCode = prog.code % 256 ∧
        bitAt (t.word (.scEvent n)) ev = true ∧ s.RegsButErr t done ∧
        t.fld .errHead F.errHeadSeq = (s.fld .errHead F.errHeadSeq + 1) % 2 ^ 32)) ∧
    Answers (.strQStart r n q) s (strStart n q s) ∧
    (live = false → Answers (.strQStop r n q) s s) ∧
    (live = true → Answers (.strQStop r n q) s (s.modStrq n q fun x => { x with stopping := true, todo := [] })) ∧
    (∀ v : Word, let d := F.strQCtlQdepth.of v.toNat
      let sum := depthSum s n - max 1 (s.fld (.strQCtl n q) F.strQCtlQdepth) + max 1 d
      (64 < d ∨ 256 < sum → Answers (.strQCtlWrite r n q v) s
        (s.refuseWrite (strSrc n) (regAddr (.strQCtl n q)) v.toNat ecDescRange)) ∧
      (¬ (64 < d ∨ 256 < sum) → F.strQCtlStart.of v.toNat = 0 → F.strQCtlStop.of v.toNat = 0 →
        (live = false ∨ d = s.fld (.strQCtl n q) F.strQCtlQdepth) → ∃ t, Answers (.strQCtlWrite r n q v) s t ∧
          s.OnlyRegs t [.strQCtl n q, .strCfg n] ∧ t.fld (.strQCtl n q) F.strQCtlQdepth = d ∧
          t.fld (.strQCtl n q) F.strQCtlEvent = F.strQCtlEvent.of v.toNat ∧
          t.fld (.strCfg n) F.strCfgDepthSum = depthSum t n)) ∧
    (∀ (x : StrReg) (v : Word), s.Reaches r (regAddr (strRegOf n q x)) →
      (live = true → Answers (.strQRegWrite r n q x v) s (s.conflict (strSrc n) (regAddr (strRegOf n q x)) v.toNat)) ∧
      (live = false → Answers (.strQRegWrite r n q x v) s (s.plainWrite (strRegOf n q x) v.toNat))) ∧
    (∀ a : StArgs, a.q = q →
      (slot 1 a → Answers (.qstart n c a) s (next (strStart n q s))) ∧
      (slot 2 a → live = true → Answers (.qstop n c a) s
        (next (s.modStrq n q fun x => { x with stopping := true, todo := [] }))) ∧
      (slot 2 a → live = false → Answers (.qstop n c a) s (next s)) ∧
      (slot 3 a → live = false → Answers (.qsetir n c a) s
        (next (s.plainWrite (.strQIr n q a.ir.val) (s.sreg n c a.rs.toNat)))) ∧
      (slot 4 a → Answers (.colon n c a) s (next (colonRequest n c (s.pc n c) a.off.toNat s))) ∧
      (slot 5 a → ((s.gh a.stk).q (n / 4)).length < 256 →
        let o : StOp := ⟨c, s.pc n c, 5, a.q.val, a.ir.val, 0, a.stk.val, a.off.toNat, a.event.val, a.en⟩
        let (u, bad) := get a.off.toNat 64 s
        let t := if bad then u else ghAccept a.stk (n / 4) (pushWords n o u) u
        Answers (.ghpush n c a) s
          (next (if a.en then t.signal n a.event { code := if bad then ecSlotOrder else 0 } else t))) ∧
      (slot 5 a → 256 ≤ ((s.gh a.stk).q (n / 4)).length → Answers (.ghpush n c a) s (next (s.modCore n fun x =>
        { x with stq := [⟨c, s.pc n c, 5, a.q.val, a.ir.val, 0, a.stk.val, a.off.toNat, a.event.val, a.en⟩] })))) ∧
    ((s.core n).stq = [] → Answers (.ghpushAccepted n) s s) ∧
    (∀ o, (s.core n).stq = [o] → o.code = 5 → ((s.gh o.stk).q (n / 4)).length < 256 →
      let (u, bad) := get o.off 64 (s.modCore n fun x => { x with stq := [] })
      let t := if bad then u else ghAccept o.stk (n / 4) (pushWords n o u) u
      Answers (.ghpushAccepted n) s (if o.en then t.signal n o.event { code := if bad then ecSlotOrder else 0 } else t)) ∧
    ((s.strq n q).inflight ≠ [] ∨ live = false → Answers (.queueDrained n q) s s) ∧
    ((s.strq n q).inflight = [] → live = true →
      ((s.strq n q).fault ≠ 0 → ∃ t, Answers (.queueDrained n q) s t ∧ t.strState n q = strFaulted ∧
        stat t F.strQStatCode = (s.strq n q).fault % 256 ∧ told t ∧ s.RegsBut t done ∧ t.mem = s.mem) ∧
      ((s.strq n q).fault = 0 → (s.strq n q).stopping = true → ∃ t, Answers (.queueDrained n q) s t ∧
        t.strState n q = strStopped ∧ told t ∧ s.RegsBut t done ∧ t.mem = s.mem) ∧
      ((s.strq n q).fault = 0 → (s.strq n q).stopping = false → s.strState n q = strDraining →
        ∃ t, Answers (.queueDrained n q) s t ∧ t.strState n q = strIdle ∧ told t ∧ s.RegsBut t done ∧ t.mem = s.mem) ∧
      ((s.strq n q).fault = 0 → (s.strq n q).stopping = false → s.strState n q ≠ strDraining →
        Answers (.queueDrained n q) s (lateSignals n q s)))

/-- Stream instructions of a running queue and the ends of its transfers. (R267, R271, R272, R273, R274, R275,
R276, R277, R278.) With the device running, nothing due, and a RUNNING queue neither failing nor stopping,
not held for a place, whose present instruction has the opcode, it executes in its turn of the rotation,
no earlier than its next cycle. SET writes its index register and ADD adds to it; they and LOOP move the
program on and change only the queue. EMIT and GATHER issue their transfers as far as there is room and
move on when all are issued, a GATHER's index register by one length for each set bit; a bad address,
bitmap or handle fails the queue; with no unit to move they only move on. MARK whose condition holds moves
it on, else the queue is MARK_WAIT; MARK_SATISFIED resumes it. SIGNAL waits for the transfers before it
and SIGNAL_COMPLETE sets its event when they are done. END makes the queue DRAINING. A queue not ready, or
at another opcode, is left alone. TRANSFER_COMPLETE lands the oldest local transfer's units, in its cycles
of the core memory, and counts it; TRANSFER_FAULT removes one, with the SIGNALs behind it, and the queue
fails with its code. -/
def Obligations.StreamInstructionsExecute : Prop :=
  ∀ (s : State) (n : CoreId) (q : QId), s.dead = false → s.Settled n →
    let x := s.strq n q
    let turn := strTake s n q 16 ((s.core n).strTurn.goOn (max (s.cyc n) x.free))
    let v := (s.modCore n fun c => { c with strTurn := turn }).toCyc n turn.cyc
    let w := v.strWord n q (v.fld (.strQStat n q) F.strQStatPc)
    let u := v.modStrq n q fun y => { y with free := turn.cyc + 1 }
    let y := u.strq n q
    let go (k : Nat) := strReady s n q = true ∧ strHeld s n q = false ∧ strOp s n q = k
    let pos := u.strPos n q
    let next := posNext (u.strWord n q) pos
    let moved := setPos n q (posExec (u.strWord n q) pos) u
    let mine := .strQStat n q :: (List.range 4).map (.strQIr n q)
    let total (t : State) := (t.strq n q).inflight.length + (t.strq n q).todo.length
    max (s.cyc n) x.free ≤ turn.cyc ∧ u.RegsBut moved mine ∧ (go 1 ∨ go 2 ∨ go 3 →
      (∀ k < 4, k ≠ siIr w → moved.word (.strQIr n q k) = u.word (.strQIr n q k)) ∧
      (siOp w = 1 → moved.word (.strQIr n q (siIr w)) = bitsOf w 47 0) ∧
      (siOp w = 2 → bitAt w 55 = true → moved.word (.strQIr n q (siIr w)) =
        (u.word (.strQIr n q (siIr w)) + u.word (.strQIr n q (bitsOf w 53 52))) % 2 ^ 64)) ∧
    (go 1 → Answers (.streamSet n q) s moved) ∧ (go 2 → Answers (.streamAdd n q) s moved) ∧
    (go 3 → Answers (.streamLoop n q) s moved) ∧
    (¬ go 1 → Answers (.streamSet n q) s s) ∧ (¬ go 2 → Answers (.streamAdd n q) s s) ∧
    (¬ go 3 → Answers (.streamLoop n q) s s) ∧ (¬ go 6 → Answers (.mark n q) s s) ∧
    (¬ go 7 → Answers (.signal n q) s s) ∧ (¬ go 0 → Answers (.streamEnd n q) s s) ∧
    (¬ go 4 → Answers (.emit n q) s (pump s)) ∧ (¬ go 5 → Answers (.streamGather n q) s (pump s)) ∧
    (go 4 → y.todo = [] → y.cut = 0 → siSh w = false →
      let d := strDest u n q w (pos.ir (siIr w))
      let a := (u.fld (.strQSrc n q) F.strQSrcBase * 64 + pos.ir (siSi w)) % 2 ^ 64
      (siLen w = 0 → Answers (.emit n q) s
        (pump (setPos n q next (strLast n q next (u.modStrq n q fun y => { y with todo := [] })).2))) ∧
      (siLen w ≠ 0 → xferFault u a (siLen w * 64) d ≠ 0 →
        Answers (.emit n q) s (pump (emitFail n q (xferFault u a (siLen w * 64) d) w u))) ∧
      (siLen w ≠ 0 → xferFault u a (siLen w * 64) d = 0 → strRoom u n q = true → isRemote d.a = false → ∃ t,
        Answers (.emit n q) s (pump t) ∧
        (t.strq n q).inflight = y.inflight ++ [⟨y.nextId, a, d.a, d.fife, siLen w, false⟩] ∧
        (t.strq n q).nextId = y.nextId + 1 ∧ (t.strq n q).todo = [] ∧ t.mem = u.mem ∧ u.RegsBut t mine)) ∧
    (go 4 → y.todo = [] → siSh w = true →
      (siLen w ≠ 0 ∨ 2 ≤ siDkind w → Answers (.emit n q) s (pump (emitFail n q ecDescFormat w u))) ∧
      (siLen w = 0 → siDkind w < 2 → (resolve (pos.ir (siSi w) % 2 ^ 24) false u).2.1 ≠ 0 → ∃ t,
        Answers (.emit n q) s (pump t) ∧ (t.strq n q).fault = ecTileDir ∧ (t.strq n q).todo = [])) ∧
    (go 4 → (emitList n q w u).2.strq n q = y → y.todo = [] → y.cut = 0 → y.fault = 0 →
      (∀ t ∈ (emitList n q w u).1, isRemote t.dst = false) → ∃ t, Answers (.emit n q) s (pump t) ∧
        total t = y.inflight.length + (emitList n q w u).1.length ∧ t.mem = (emitList n q w u).2.mem) ∧
    (go 5 → y.todo = [] →
      let r := gatherList n q w u
      let g := r.2.2.2
      let b := bgReach 12 (coreBase n + bitsOf w 19 0 * 8) (ceilDiv (bitsOf w 43 31) 8) false u
      (siLen w ≠ 0 → bitsOf w 43 31 ≠ 0 → bitsOf w 19 0 * 8 + ceilDiv (bitsOf w 43 31) 8 ≤ cmSize → b.2 = false →
        g = b.1 ∧ r.2.1 = ((List.range (bitsOf w 43 31)).filter
          (bitAt (b.1.cmN n (bitsOf w 19 0 * 8) (ceilDiv (bitsOf w 43 31) 8)))).length) ∧
      ((g.strq n q).fault ≠ 0 → Answers (.streamGather n q) s (pump g)) ∧
      ((g.strq n q).fault = 0 → (∀ t ∈ r.1, isRemote t.dst = false) → ∃ t, Answers (.streamGather n q) s (pump t) ∧
        t.mem = g.mem ∧ total t = (g.strq n q).inflight.length + r.1.length ∧
        ((t.strq n q).todo = [] → r.2.2.1 = 0 → (t.strq n q).fault = 0 ∧
          t.word (.strQIr n q (siIr w)) = (u.word (.strQIr n q (siIr w)) + r.2.1 * siLen w * 64) % 2 ^ 64))) ∧
    (go 4 ∨ go 5 → y.todo ≠ [] → (∀ t ∈ y.todo, isRemote t.dst = false) → ∃ t,
      (go 4 → Answers (.emit n q) s (pump t)) ∧ (go 5 → Answers (.streamGather n q) s (pump t)) ∧
      t.mem = u.mem ∧ total t = y.inflight.length + y.todo.length) ∧
    (go 6 → (markHolds u n q w = true → Answers (.mark n q) s (markPass n q w u)) ∧
      (markHolds u n q w = false → Answers (.mark n q) s (u.setStr n q strMark))) ∧
    (let w := s.strWord n q (s.fld (.strQStat n q) F.strQStatPc)
     let r := s.modStrq n q fun y => { y with free := s.cyc n + 1 }
     (s.strState n q = strMark → x.fault = 0 → x.stopping = false → markHolds s n q w = true →
       Answers (.markSatisfied n q) s (markPass n q w r) ∧ (markPass n q w r).strState n q = strRunning) ∧
     (s.strState n q ≠ strMark ∨ markHolds s n q w = false → Answers (.markSatisfied n q) s s)) ∧
    (go 7 → let r := u.modStrq n q fun y => { y with signals := y.signals ++ [⟨bitsOf w 5 0, y.nextId⟩] }
      Answers (.signal n q) s (setPos n q (posNext (r.strWord n q) (r.strPos n q)) r)) ∧
    (∀ g rest, x.signals = g :: rest → (∀ t ∈ x.inflight, g.bound ≤ t.id) →
      Answers (.signalComplete n q) s ((s.modStrq n q fun y => { y with signals := rest }).signal n g.event {})) ∧
    (x.signals = [] → Answers (.signalComplete n q) s s) ∧
    (go 0 → Answers (.streamEnd n q) s (u.setStr n q strDraining)) ∧
    (∀ t rest, x.inflight = t :: rest → (∀ k ∈ rest, k.id ≠ t.id) →
      (isRemote t.dst = true → Answers (.transferComplete n q 0) s s) ∧
      (∀ m o o', placeOf t.dst = .cm m o → placeOf t.src = .orangery o' → s.vmode m = false →
        o + t.units * 64 ≤ cmSize → t.fife = false →
        let r := (bgReach (strReq n t.dst) t.dst (t.units * 64) true s).1
        ∃ v, Answers (.transferComplete n q 0) s v ∧
          (v.strq n q).inflight = rest ∧ r.MemBut v [(coreBase m + o, t.units * 64)] ∧
          v.fld (.strQCnt n q) F.strQCntTransfers =
            min (r.fld (.strQCnt n q) F.strQCntTransfers + 1) F.strQCntTransfers.top) ∧
      (∀ code : Byte, code.toNat ≠ ecWatchdog → code.toNat ≠ 0 → code.toNat < 0x40 → x.fault = 0 → ∃ v,
        Answers (.transferFault n q 0 code) s v ∧ (v.strq n q).inflight = rest ∧
        (v.strq n q).signals = (x.signals.filter fun g => g.bound ≤ t.id) ∧
        (v.strq n q).fault = code.toNat ∧ v.mem = s.mem ∧
        v.fld .errHead F.errHeadSeq = (s.fld .errHead F.errHeadSeq + 1) % 2 ^ 32)) ∧
    (∀ k, x.inflight.length ≤ k → Answers (.transferComplete n q k) s s ∧ ∀ code, Answers (.transferFault n q k code) s s)

/-- A Colonnade transfer is asked for, starts, is sent and is delivered. (R280, R281, R282, R283.) With the
device running and nothing due in the core. A request reads its descriptor in its cycle of the core
memory; an illegal one only raises and signals SEVENT with the code; with MASK or LEN 0 it signals SEVENT
at once; else it waits with the cores to serve. COLONNADE_START starts the oldest waiting transfer when no
other of the chip holds or waited earlier for one of its ring links and no substitution waits for the
ring, reads its data and counts it; with a clash, or none waiting, it leaves the state. COLONNADE_SENT
signals SEVENT when the last chunk has left; COLONNADE_DELIVERED writes the units on the named core, no
earlier than the hops and chunks and its cycles there take, and signals DEVENT two cycles later. Only the
destination's bytes change. A delivery to a core that the transfer does not name leaves the state. -/
def Obligations.ColonnadeTransfers : Prop :=
  ∀ (s : State) (n d : CoreId), s.dead = false → s.Settled n → s.vmode d = false → s.vmode n = false →
    let ts := (s.core n).colon
    (∀ (c : CtxId) (pc off : Nat), off * 32 + 32 ≤ cmSize →
      let r := (bgReach 12 (coreBase n + off * 32) 32 false s).1
      let e := r.cm n (off * 32) 32
      let k := colDesc e
      let u := r.raise { src := srcOf 1 n 7, code := colFault e, addr := coreBase n + off * 32, context := ctxWord pc c }
      (colFault e ≠ 0 → colonRequest n c pc off s =
        if bitAt k.sevent 7 then u.signal n (k.sevent % 64) { code := colFault e } else u) ∧
      (colFault e = 0 → k.mask = 0 ∨ k.len = 0 → colonRequest n c pc off s =
        if bitAt k.sevent 7 then r.signal n (k.sevent % 64) {} else r) ∧
      (colFault e = 0 → k.mask ≠ 0 → k.len ≠ 0 → colonRequest n c pc off s = r.modCore n fun x =>
        { x with colon := x.colon ++ [⟨e, r.now, none, false, [], (List.range 32).filter (bitAt k.mask), c⟩] })) ∧
    ((∀ t ∈ ts, t.start.isSome = true) → Answers (.colonnadeStart n) s s) ∧
    (∀ t rest, ts = t :: rest → t.start = none → t ∉ rest →
      let c := colDesc t.desc
      let clash := (∃ p ∈ allCol s, (p.2.start.isSome = true ∨ p.2.arr < t.arr) ∧ ¬ (p.1 = n.val ∧ p.2 = t) ∧
        colClash s n t p.1 p.2 = true) ∨ s.chip.ringHold ≠ []
      let v := (bgReach 13 (coreBase n + c.src * 64) (c.len * 64) false s).1
      (clash → Answers (.colonnadeStart n) s s) ∧
      (¬ clash → ∃ u, Answers (.colonnadeStart n) s u ∧ v.RegsBut u [.strColCnt n] ∧
        u = { v with regs := u.regs, cores := u.cores } ∧
        (u.core n).colon = { t with start := some v.now, data := v.unitsAt (coreBase n + c.src * 64) c.len } :: rest ∧
        u.fld (.strColCnt n) F.strColCntSent =
          min (v.fld (.strColCnt n) F.strColCntSent + c.len) F.strColCntSent.top)) ∧
    ((∀ t ∈ ts, t.start = none ∨ t.sent = true) → Answers (.colonnadeSent n) s s) ∧
    (∀ t rest t0, ts = t :: rest → t ∉ rest → t.start = some t0 → t.sent = false → t.left ≠ [] →
      (∀ v ∈ rest, v.sent = true → v.left ≠ []) →
      let c := colDesc t.desc
      ∃ u, Answers (.colonnadeSent n) s u ∧ (u.core n).colon = { t with sent := true } :: rest ∧ u.mem = s.mem ∧
        u.now = max s.now (t0 + ceilDiv c.len 4 * fabTicks) ∧
        (bitAt c.sevent 7 = true → bitAt (u.word (.scEvent n)) (c.sevent % 64) = true) ∧
        s.RegsBut u [.scEvent n, .scEvstat n (c.sevent % 64)] ∧ (bitAt c.sevent 7 = false → u.regs = s.regs)) ∧
    ((∀ t ∈ ts, t.start = none ∨ d.val ∉ t.left) → Answers (.colonnadeDelivered n d) s s) ∧
    (∀ t rest t0, ts = t :: rest → t.start = some t0 → d.val ∈ t.left → t.data.length = (colDesc t.desc).len →
      (∀ b ∈ t.data, b.bs.length = 64) →
      colFault t.desc = 0 → let c := colDesc t.desc
      let last := t0 + (hopTime s n (hopsTo n d) + ceilDiv c.len 4 - 1) * fabTicks
      let w := setCol n t { t with left := t.left.filter (· != d.val) } (s.advance last)
      let v := (bgReach 13 (colDst c d) (c.len * 64) true w).1
      ∃ u, Answers (.colonnadeDelivered n d) s u ∧ w.now = max s.now last ∧
        u.now = max v.now (last + (v.now - w.now) + 2 * fabTicks) ∧
        v.MemBut u [(colDst c d, c.len * 64)] ∧
        (∀ i b, t.data[i]? = some b → memRead u.mem (colDst c d + 64 * i) 64 = b.bs) ∧
        (bitAt c.devent 7 = true → bitAt (u.word (.scEvent d)) (c.devent % 64) = true) ∧
        v.RegsBut u [.scEvent d, .scEvstat d (c.devent % 64)] ∧
        (t ∉ rest → t.sent = false → { t with left := t.left.filter (· != d.val) } ∈ (u.core n).colon))

/-- Register writes by access codes, accesses of another size, and 32-bit halves. (R10, R12, R13, R14, R497.)
With the device running and an access that reaches its register: a write at an address that names no
register changes nothing; one to a register without behaviour of its own stores RW fields, clears W1C bits
written as 1, sets W1S bits written as 1 and leaves RO fields, and nothing else changes; one to any
register does that register's own effect. A write to a core out of service is refused with
CONFIG_CONFLICT. A host access of another size or alignment is answered as Unsupported Request and changes
nothing. Of an atomic register the low half of a write is held, one for each requester, and the high half
writes both; a read of the low half latches the high half, which the next high-half read returns. Of
another register a half write acts on the fields of its half alone, and a half read clears the RC fields
of its half alone. -/
def Obligations.CsrAccessesFollowTheAccessCodes : Prop :=
  ∀ (s : State) (r : Requester) (a : Nat), s.dead = false → s.Reaches r a →
    (∀ n, csrCore a = some n → s.Settled n) → (csrCore a = none → csrSettle a s = s) →
    let reg := regAt a
    let half (hi : Bool) (x : Nat) := if hi then x / 2 ^ 32 else x % 2 ^ 32
    let open_ := ∀ n, csrCore a = some n → s.coreOut n = false
    (∀ v, reg = .none ∨ rawHidden s reg = true → Answers (.csrWrite r a v) s s) ∧
    (∀ v : Word, reg ≠ .none → rawHidden s reg = false →
      (∀ n, csrCore a = some n → s.coreOut n = true →
        Answers (.csrWrite r a v) s (s.conflict (srcOf 1 n 0) a v.toNat)) ∧
      (open_ → Answers (.csrWrite r a v) s (csrEffect r reg v.toNat s)) ∧
      (open_ → plainReg reg = true → ∃ t, Answers (.csrWrite r a v) s t ∧ s.OnlyRegs t [reg] ∧
        ∀ f ∈ regFields reg,
          (f.acc = .rw → t.fld reg f.fld = f.fld.of v.toNat) ∧
          (f.acc = .w1c → t.fld reg f.fld = s.fld reg f.fld &&& (f.fld.top - f.fld.of v.toNat)) ∧
          (f.acc = .w1s → t.fld reg f.fld = s.fld reg f.fld ||| f.fld.of v.toNat) ∧
          (f.acc = .ro ∨ f.acc = .rc ∨ f.acc = .wo → t.fld reg f.fld = s.fld reg f.fld))) ∧
    (∀ size w, ¬ ((size = 8 ∧ a % 8 = 0) ∨ (size = 4 ∧ a % 4 = 0)) →
      Answers (.csrUnsupportedAccess a size w) s { s with reply := some ⟨0, 1⟩ }) ∧
    (∀ who (v : W32), halfIdx r = some who →
      (regAtomic reg = true → Answers (.atomicHalfWrite r a false v) s
        { s with heldLow := (s.heldLow.filter fun h => h.1 != who) ++ [(who, a, BitVec.ofNat 32 v.toNat)] }) ∧
      (regAtomic reg = true → ∀ lo, halfOf s.heldLow who a = some lo → rawHidden s reg = false → open_ → reg ≠ .none →
        Answers (.atomicHalfWrite r a true v) s (csrEffect r reg (v.toNat * 2 ^ 32 + lo.toNat)
          { s with heldLow := dropHalf s.heldLow who a })) ∧
      (regAtomic reg = false → plainReg reg = true → rawHidden s reg = false → open_ → ∀ hi, ∃ t,
        Answers (.atomicHalfWrite r a hi v) s t ∧ s.OnlyRegs t [reg] ∧
        ∀ f ∈ regFields reg, (f.fld.lo / 32 = f.fld.hi / 32) →
          let mine := f.fld.lo / 32 = 1 ↔ hi = true
          let w := f.fld.of (if hi then v.toNat * 2 ^ 32 else v.toNat)
          (f.acc = .rw → mine → t.fld reg f.fld = w) ∧
          (f.acc = .w1c → mine → t.fld reg f.fld = s.fld reg f.fld &&& (f.fld.top - w)) ∧
          (f.acc = .w1s → mine → t.fld reg f.fld = s.fld reg f.fld ||| w) ∧
          (¬ mine → t.fld reg f.fld = s.fld reg f.fld)) ∧
      (regAtomic reg = true → ∃ t, Answers (.atomicHalfRead r a false) s t ∧
        t.reply = some ⟨(csrRead r a s).1 % 2 ^ 32, 0⟩ ∧
        halfOf t.latchHigh who a = some (BitVec.ofNat 32 ((csrRead r a s).1 / 2 ^ 32)) ∧
        t = { (csrReadHalf r a false s).2 with reply := t.reply, latchHigh := t.latchHigh }) ∧
      (regAtomic reg = false → ∀ hi, (hi = true → halfOf s.latchHigh who a = none) →
        let u := (csrReadHalf r a hi s).2
        Answers (.atomicHalfRead r a hi) s { u with reply := some ⟨half hi (csrRead r a s).1, 0⟩ } ∧
        ((∀ i, reg ≠ .hifProgStat i ∧ reg ≠ .hifProgPos i) → (u = s ∨ s.OnlyRegs u [reg]) ∧
          half (!hi) (u.word reg) = half (!hi) (s.word reg) ∧
          (reg ≠ .none → rawHidden s reg = false → open_ → ∀ f ∈ regFields reg, f.acc = .rc →
            f.fld.lo / 32 = b2n hi → f.fld.hi / 32 = b2n hi → u.fld reg f.fld = 0))) ∧
      (∀ h, halfOf s.latchHigh who a = some h → Answers (.atomicHalfRead r a true) s
        { s with reply := some ⟨h.toNat, 0⟩, latchHigh := dropHalf s.latchHigh who a }))

/-- Writes of MXE_CFG, MXE_BYPASS, the instruction buffer, the shadow, context registers, P-states, test
registers. (R65, R66, R67, R86, R248, R299, R336, R422, R495.) With the device running, an access that
reaches an in-service core with nothing due. MXE_CFG of a reserved gang, or of a gang with transposition,
is refused with DESC_FORMAT; idle MXEs take it at once, else it is held. MXE_BYPASS is stored only while
fenced, a new column set dropping the weights; else it conflicts. The instruction buffer takes a word
outside every active code range, inside it conflicts. SHADOW_INV clears VALID in validation mode only. A
context register of a READY, RUNNING or WAITING context conflicts; of another it is stored, s0 ignoring
it. CLK_CORE_PS above 4 is refused with DESC_RANGE. REQUEST queues a test of an in-service core once.
TST_FENCE is stored, from the host it conflicts. -/
def Obligations.CoreAndTestRegisterWrites : Prop :=
  ∀ (s : State) (r : Requester) (n : CoreId) (m : MxeId) (c : CtxId), s.dead = false → s.Settled n → s.coreOut n = false →
    (∀ reg : Reg, s.Reaches r (regAddr reg)) →
    (∀ v : Word, let g := F.mxeCfgGang.of v.toNat
      let bad := g = 3 ∨ ((g = 1 ∨ g = 2) ∧ F.mxeCfgTranspose.of v.toNat ≠ 0)
      (bad → Answers (.mxeCfgWrite r n v) s (s.refuseWrite (srcOf 1 n 1) (regAddr (.mxeCfg n 0)) v.toNat ecDescFormat)) ∧
      (¬ bad → s.mxesIdle n = true → ∃ t, Answers (.mxeCfgWrite r n v) s t ∧
        t.fld (.mxeCfg n 0) F.mxeCfgGang = g ∧ t.fld (.mxeCfg n 0) F.mxeCfgTranspose = F.mxeCfgTranspose.of v.toNat ∧
        t.fld (.mxeCfg n 0) F.mxeCfgAbftEn = F.mxeCfgAbftEn.of v.toNat ∧
        s.RegsBut t (.mxeCfg n 0 :: (List.range 4).map (.mxeStatus n))) ∧
      (¬ bad → s.mxesIdle n = false → ∃ t, Answers (.mxeCfgWrite r n v) s t ∧ (t.core n).cfgHeld = some v ∧
        t.word (.mxeCfg n 0) = s.word (.mxeCfg n 0) ∧ t.mem = s.mem ∧
        ((∀ i, r ≠ .core i) → t = s.modCore n fun k => { k with cfgHeld := some v }))) ∧
    (∀ v : Word, (s.fenced n m = false →
        Answers (.mxeBypassWrite r n m v) s (s.conflict (srcOf 1 n (m + 1)) (regAddr (.mxeBypass n m)) v.toNat)) ∧
      (s.fenced n m = true → ∃ t, Answers (.mxeBypassWrite r n m v) s t ∧ t.mem = s.mem ∧
        s.RegsBut t [.mxeBypass n m, .mxeStatus n m] ∧
        t.word (.mxeBypass n m) = (s.plainWrite (.mxeBypass n m) v.toNat).word (.mxeBypass n m) ∧
        ((∃ x, x ∈ bypassedOf (t.word (.mxeBypass n m)) ∧ x ∉ bypassedOf (s.word (.mxeBypass n m))) →
          (t.mxe n m).active = {} ∧ (t.mxe n m).standby = {}))) ∧
    (∀ (p : Fin 2048) (k : Fin 8) (v : Word),
      ((∃ d : CtxId, s.ctxLive n d = true ∧ s.inCode n d p = true) → Answers (.ibufWrite r n p k v) s
        (s.conflict (scSrc n) (regAddr (.ibuf n (p * 8 + k))) v.toNat)) ∧
      ((∀ d : CtxId, s.ctxLive n d = true → s.inCode n d p = false) → ∃ t, Answers (.ibufWrite r n p k v) s t ∧
        s.RegsBut t [.ibuf n (p * 8 + k)] ∧ t = { s with regs := t.regs, parity := t.parity } ∧
        t.word (.ibuf n (p * 8 + k)) = v.toNat ∧ (n.val, p.val) ∉ t.parity.bundles)) ∧
    (∀ f k : BitVec 16, (s.vmode n = false → Answers (.cmcShadowInv r n f k) s s) ∧
      (s.vmode n = true → f.toNat + k.toNat ≤ 14352 → ∃ t, Answers (.cmcShadowInv r n f k) s t ∧
        t = { s with cores := t.cores } ∧ ∀ u, ((t.core n).shadowOf u).valid =
          (((s.core n).shadowOf u).valid && !decide (f.toNat ≤ u ∧ u < f.toNat + k.toNat))) ∧
      (s.vmode n = true → 14352 < f.toNat + k.toNat → Answers (.cmcShadowInv r n f k) s (s.refuseWrite (srcOf 1 n 8)
        (regAddr (.cmcShadowInv n)) (k.toNat * 2 ^ 48 + f.toNat) ecDescRange))) ∧
    (∀ (x : TctxReg) (v : Word), x ≠ .ctl → let reg := tctxRegOf n c x
      (s.ctxLive n c = true → Answers (.scTctxRegWrite r n c x v) s (s.conflict (scSrc n) (regAddr reg) v.toNat)) ∧
      (s.ctxLive n c = false → x ≠ .reg 0 →
        (x = .code → F.tctxCodeBase.of v.toNat + F.tctxCodeLen.of v.toNat ≤ 2048) →
        ∃ t, Answers (.scTctxRegWrite r n c x v) s t ∧ t.regs = (s.plainWrite reg v.toNat).regs ∧
          s.RegsBut t [reg] ∧ t = { s with regs := t.regs, cores := t.cores }) ∧
      (s.ctxLive n c = false → Answers (.scTctxRegWrite r n c (.reg 0) v) s s)) ∧
    (∀ v : Word, (4 < F.clkCorePsHost.of v.toNat → Answers (.clkCorePsWrite r n v) s
        (s.refuseWrite blwSrc (regAddr (.clkCorePs n)) v.toNat ecDescRange)) ∧
      (F.clkCorePsHost.of v.toNat ≤ 4 → Answers (.clkCorePsWrite r n v) s
        (askVoltage s.pb (s.plainWrite (.clkCorePs n) v.toNat)))) ∧
    (∀ v : Word, let k := F.tstCoreCtlCore.of v.toNat
      (bitAt v.toNat 0 = true → s.coreOut k = true →
        Answers (.tstCoreRequest r v) s (s.conflict chipSrc (regAddr .tstCoreCtl) v.toNat)) ∧
      (bitAt v.toNat 0 = true → s.coreOut k = false → s.fld (.coreMap k) F.coreMapState ≠ 1 → k ∉ s.chip.tests →
        ∃ t, Answers (.tstCoreRequest r v) s t ∧ t.chip.tests = s.chip.tests ++ [k] ∧ s.RegsBut t [.tstCoreCtl])) ∧
    (∀ v : Word, (r = .host → Answers (.tstFenceWrite r n v) s (s.conflict chipSrc (regAddr (.tstFence n)) v.toNat)) ∧
      (r ≠ .host → ∃ t, Answers (.tstFenceWrite r n v) s t ∧ s.OnlyRegs t [.tstFence n] ∧
        ∀ i : MxeId, t.fenced n i = bitAt (F.tstFenceMxe.of v.toNat) i))

/-- Doorbells; enabling, disabling, draining, aborting, restarting and configuring a queue pair. (R445, R453,
R454, R455.) With the device running. A doorbell out of the function's reach does nothing; else it wakes
the device, and a value outside its queue sets DBERR and raises DESC_RANGE, another becomes the tail or
head. In reach, HIF_Q_ENABLE of a disabled pair checks the sizes and the vector, then leaves the pair
ACTIVE and empty with heads 0 and PHASE 1; HIF_Q_DISABLE clears EN and turns ACTIVE or HALTED into
DRAINING; HIF_Q_DRAIN_DONE makes an empty DRAINING pair DISABLED; HIF_Q_ABORT fetches every slot up to the
tail and ends it and every command not started with status 4; HIF_Q_RESTART turns HALTED into ACTIVE; a
configuration write stores on a DISABLED pair only. A write that the state forbids raises and stores
nothing. The host's access out of reach has no effect but its reply. -/
def Obligations.QueuePairControl : Prop :=
  ∀ (s : State) (q : QpId), s.dead = false →
    let st := Reg.hifQStat q
    let ctl := Reg.hifQCtl q
    let cfg := Reg.hifQCfg q
    let w := wake s
    let u := hangSweep w
    let raised (c : Instr) (s0 : State) := ∃ t, Answers c s t ∧ ErrorRaised s0 t
    (∀ (v : W32) (d : Fin 8),
      (s.hifServed = false → Answers (.sqDoorbell q v) s s ∧ Answers (.cqDoorbell q v) s s ∧
        Answers (.dmaDoorbell d v) s s) ∧
      (s.hifServed = true →
        let head := (w.qp q).cqHead
        let size := w.fld cfg F.hifQCfgCqSize
        let dist (x : Nat) := (x + size - head) % size
        (u.qState q = 0 ∨ u.fld cfg F.hifQCfgSqSize ≤ v.toNat → raised (.sqDoorbell q v) (u.setFld st F.hifQStatDberr 1)) ∧
        (u.qState q ≠ 0 → v.toNat < u.fld cfg F.hifQCfgSqSize →
          Answers (.sqDoorbell q v) s (u.modQp q fun x => { x with tail := v.toNat })) ∧
        (w.qState q = 0 ∨ size ≤ v.toNat ∨ dist (w.fld st F.hifQStatCqTail) < dist v.toNat →
          raised (.cqDoorbell q v) (w.setFld st F.hifQStatDberr 1)) ∧
        (w.qState q ≠ 0 → v.toNat < size → dist v.toNat ≤ dist (w.fld st F.hifQStatCqTail) →
          Answers (.cqDoorbell q v) s (w.modQp q fun x => { x with cqHead := v.toNat })) ∧
        (w.fld (.dmaStat d) F.dmaStatState = 0 ∨ w.fld (.dmaCfg d) F.dmaCfgSize ≤ v.toNat → raised (.dmaDoorbell d v) w) ∧
        (w.fld (.dmaStat d) F.dmaStatState ≠ 0 → v.toNat < w.fld (.dmaCfg d) F.dmaCfgSize →
          Answers (.dmaDoorbell d v) s { w with hif := { w.hif with dmaTail := tabSet w.hif.dmaTail d v.toNat } }))) ∧
    (s.hifServed = false → ∀ c ∈ [Instr.hifQEnable q, .hifQDisable q, .hifQAbort q, .hifQRestart q],
      Answers c s { s with reply := some ⟨0, 1⟩ }) ∧
    (s.hifServed = true → s.bit ctl F.hifQCtlEn = true → Answers (.hifQEnable q) s s) ∧
    (s.hifServed = true → s.bit ctl F.hifQCtlEn = false →
      let ok (f : Fld) := 2 ≤ s.fld cfg f ∧ s.fld cfg f ≤ 65536
      let good := ok F.hifQCfgSqSize ∧ ok F.hifQCfgCqSize ∧ s.fld cfg F.hifQCfgVec ≤ 191
      (s.ready = false ∨ s.qState q ≠ 0 ∨ ¬ good → raised (.hifQEnable q) s) ∧
      (s.ready = true → s.qState q = 0 → good → ∃ t, Answers (.hifQEnable q) s t ∧ t.qState q = 1 ∧ t.qp q = {} ∧
        t.bit ctl F.hifQCtlEn = true ∧ t.fld st F.hifQStatSqHead = 0 ∧ t.fld st F.hifQStatCqTail = 0 ∧
        t.fld st F.hifQStatCode = 0 ∧ t.fld st F.hifQStatPhase = 1 ∧ s.RegsBut t [ctl, st] ∧
        (∀ p : QpId, p ≠ q → t.qp p = s.qp p) ∧
        t = { s with regs := t.regs, hif := { s.hif with qps := t.hif.qps } })) ∧
    (s.hifServed = true → s.bit ctl F.hifQCtlEn = false → Answers (.hifQDisable q) s s) ∧
    (s.hifServed = true → s.bit ctl F.hifQCtlEn = true → ∃ t, Answers (.hifQDisable q) s t ∧
      t.bit ctl F.hifQCtlEn = false ∧ t.qState q = (if s.qState q = 1 ∨ s.qState q = 2 then 3 else s.qState q) ∧
      (∀ f ∈ [F.hifQStatSqHead, F.hifQStatCqTail, F.hifQStatCode, F.hifQStatPhase], t.fld st f = s.fld st f) ∧
      s.OnlyRegs t [ctl, st]) ∧
    (s.qState q = 3 → (s.qp q).cmds = [] → (s.qp q).out = [] →
      ∃ t, Answers (.hifQDrainDone q) s t ∧ t.qState q = 0 ∧ s.OnlyRegs t [st]) ∧
    (s.qState q ≠ 3 ∨ (s.qp q).cmds ≠ [] ∨ (s.qp q).out ≠ [] → Answers (.hifQDrainDone q) s s) ∧
    (s.hifServed = true → s.qState q = 0 → Answers (.hifQAbort q) s s) ∧
    (s.hifServed = true → s.qState q ≠ 0 →
      let head := s.fld st F.hifQStatSqHead
      let n := s.fld cfg F.hifQCfgSqSize
      let k := ((s.qp q).tail + n - head) % n
      let waiting := ((s.qp q).cmds.filter fun c => !c.started && !c.done).map WcsCmd.id
      let fetched := (List.range k).foldl (fun t i => addCmd q (s.slotWords q ((head + i) % n)) none t) s
      Answers (.hifQAbort q) s ((waiting ++ (List.range k).map (s.hif.nextCmd + ·)).foldl
        (fun t id => endCmd q id ⟨4, 0, 0⟩ t) (fetched.setFld st F.hifQStatSqHead (s.qp q).tail))) ∧
    (s.hifServed = true → let h := hangSweep s
      (h.qState q ≠ 2 → Answers (.hifQRestart q) s h) ∧
      (h.qState q = 2 → ∃ t, Answers (.hifQRestart q) s t ∧ t.qState q = 1 ∧ t.fld st F.hifQStatCode = 0 ∧
        t.qp q = { h.qp q with hungAt := none } ∧ h.RegsBut t [st] ∧
        t = { h with regs := t.regs, hif := { h.hif with qps := t.hif.qps } })) ∧
    (∀ (r : QcfgReg) (v : Word), let reg := match r with
        | .sqBase => Reg.hifSqBase q
        | .cqBase => .hifCqBase q
        | .cfg => .hifQCfg q
      (s.hifServed = false → Answers (.hifQConfigWrite q r v) s { s with reply := some ⟨0, 1⟩ }) ∧
      (s.hifServed = true → s.qState q = 0 → ∃ t, Answers (.hifQConfigWrite q r v) s t ∧ s.OnlyRegs t [reg] ∧
        ∀ f ∈ regFields reg, t.fld reg f.fld = f.fld.of v.toNat) ∧
      (s.hifServed = true → s.qState q ≠ 0 → raised (.hifQConfigWrite q r v) s))

/-- Fetching a slot, posting a completion entry, coalescing and user entries. (R440, R453, R454, R456, R457,
R459.) With the device running. SQ_FETCH of the queue whose turn it is, ready and in I0, reads the slot at
the head from host memory, moves the head on and puts the command at the end of the queue; an unknown
opcode or OP raises DESC_FORMAT; a failed fetch halts the queue with CODE 0 and, with nothing before it,
leaves an entry of status 2 with an open TAG. Else nothing changes. CQ_ENTRY_POST writes the oldest
waiting entry's 16 bytes at the CQ tail, moves the tail, turns PHASE at the wrap, and raises the vector
for an INTR entry or at COAL_N; with no entry, a full CQ, D3hot or a DISABLED pair it does nothing.
COAL_TIMER raises the vector COAL_US after the first entry not told of. HIF_Q_POST puts a user entry
behind the waiting ones; on a pair that is not ACTIVE it raises, and a core's write meets a full CQ, or
1,024 entries held in D3hot, with no effect. -/
def Obligations.QueueFetchAndPost : Prop :=
  ∀ (s : State) (q : QpId), s.dead = false →
    let st := Reg.hifQStat q
    let cfg := Reg.hifQCfg q
    let head := s.fld st F.hifQStatSqHead
    let ws := s.slotWords q head
    let cmd : WcsCmd := { id := s.hif.nextCmd, ws := ws }
    let told (t : State) := t.msixSent = s.msixSent ++ [s.fld cfg F.hifQCfgVec] ∨
      bitAt (t.word (.msixPba (s.fld cfg F.hifQCfgVec / 64))) (s.fld cfg F.hifQCfgVec % 64) = true
    let silent (t : State) := t.msixSent = s.msixSent ∧ ∀ i < 4, t.word (.msixPba i) = s.word (.msixPba i)
    (s.fld .hifIdle F.hifIdleState ≠ 0 ∨ s.fetchTurn ≠ some q.val ∨ s.ready = false → ∀ ok, Answers (.sqFetch q ok) s s) ∧
    (s.fld .hifIdle F.hifIdleState = 0 → s.fetchTurn = some q.val → s.ready = true →
      (∀ ok, ∃ t, Answers (.sqFetch q ok) s t ∧
        t.fld st F.hifQStatSqHead = (head + 1) % s.fld cfg F.hifQCfgSqSize % 2 ^ 16 ∧
        t.hif.nextCmd = s.hif.nextCmd + 1 ∧ t.mem = s.mem ∧ t.host = s.host ∧ t.cores = s.cores ∧ t.ghs = s.ghs ∧
        (ok = true → knownOp cmd = true → (t.qp q).cmds = (s.qp q).cmds ++ [cmd] ∧ (t.qp q).out = (s.qp q).out ∧
          s.RegsBut t [st] ∧ t = { s with regs := t.regs, hif := t.hif } ∧ (∀ p : QpId, p ≠ q → t.qp p = s.qp p)) ∧
        (ok = true → knownOp cmd = false →
          t.fld .errHead F.errHeadSeq = (s.fld .errHead F.errHeadSeq + 1) % 2 ^ 32) ∧
        (ok = false → t.qState q = 2 ∧ t.fld st F.hifQStatCode = 0 ∧ s.RegsBut t [st] ∧ t.draws = s.draws + 1 ∧
          ((s.qp q).cmds = [] → (t.qp q).cmds = [] ∧
            (t.qp q).out = (s.qp q).out ++ [⟨Config.freeNat s.draws % 2 ^ 16, 2, 0, q, 0, false, true⟩])))) ∧
    ((s.qp q).out = [] ∨ s.cqFull q = true ∨ s.hif.d3 = true ∨ s.qState q = 0 → Answers (.cqEntryPost q) s s) ∧
    (∀ e rest, (s.qp q).out = e :: rest → s.cqFull q = false → s.hif.d3 = false → s.qState q ≠ 0 →
      let tail := s.fld st F.hifQStatCqTail
      let phase := s.fld st F.hifQStatPhase
      let wrap := s.fld cfg F.hifQCfgCqSize ≤ tail + 1
      let a := s.fld (.hifCqBase q) F.hifCqBaseAddr * 4096 + tail * 16
      let full := s.fld cfg F.hifQCfgCoalN ≠ 0 ∧ s.fld cfg F.hifQCfgCoalN ≤ (s.qp q).since + 1
      ∃ t, Answers (.cqEntryPost q) s t ∧ (t.qp q).out = rest ∧ (t.qp q).cmds = (s.qp q).cmds ∧ t.mem = s.mem ∧
        memRead t.host a 16 = cqBytes e head phase ∧
        (∀ b, b < a ∨ a + 16 ≤ b → memByte t.host b = memByte s.host b) ∧
        (wrap → t.fld st F.hifQStatCqTail = 0 ∧ t.fld st F.hifQStatPhase = 1 - phase) ∧
        (¬ wrap → t.fld st F.hifQStatCqTail = (tail + 1) % 2 ^ 16 ∧ t.fld st F.hifQStatPhase = phase) ∧
        (e.intr = true ∨ full → told t ∧ (t.qp q).since = 0 ∧ (t.qp q).firstAt = none) ∧
        (e.intr = false → ¬ full → silent t ∧ (t.qp q).since = (s.qp q).since + 1 ∧
          (t.qp q).firstAt = some ((s.qp q).firstAt.getD s.now)) ∧
        s.RegsBut t (st :: (List.range 4).map .msixPba) ∧
        t = { s with regs := t.regs, hif := { s.hif with qps := t.hif.qps }, host := t.host, msixSent := t.msixSent }) ∧
    ((s.qp q).firstAt = none ∨ s.fld cfg F.hifQCfgCoalUs = 0 → Answers (.coalTimer q) s s) ∧
    (∀ x, (s.qp q).firstAt = some x → s.fld cfg F.hifQCfgCoalUs ≠ 0 → ∃ t, Answers (.coalTimer q) s t ∧ told t ∧
      t.now = max s.now (x + s.fld cfg F.hifQCfgCoalUs * usTicks) ∧
      t.qp q = { s.qp q with since := 0, firstAt := none } ∧ t.mem = s.mem ∧ t.host = s.host ∧
      s.RegsBut t ((List.range 4).map .msixPba)) ∧
    (∀ (r : Requester) (v : Word),
      (r = .host → s.hifServed = false → Answers (.hifQPost r q v) s { s with reply := some ⟨0, 1⟩ }) ∧
      ((r = .host → s.hifServed = true) →
        let blocked := ∃ n, r = .core n ∧ (s.cqFull q = true ∨ s.d3Full = true)
        (s.qState q ≠ 1 → ∃ t, Answers (.hifQPost r q v) s t ∧ ErrorRaised s t) ∧
        (s.qState q = 1 → blocked → Answers (.hifQPost r q v) s s) ∧
        (s.qState q = 1 → ¬ blocked → Answers (.hifQPost r q v) s
          (s.modQp q fun x => { x with out := x.out ++ [⟨0xFFFF, 0, 0, q + 128, v.toNat, false, false⟩] }))))

/-- DMA channels, the BAR2 aperture, progress reads, D3hot and the acknowledgement of advice. (R445, R447,
R448, R460, R462, R466, R504.) With the device running. DMA_ENABLE of a channel that is off stores without
EN; with EN it needs a ready device, an ACTIVE pair and a size of 2 to 65,536, and leaves the channel
ACTIVE at head 0; on a channel that is on, clearing EN stops it and another write raises. DMA_DESCRIPTOR
with nothing rung, off or in D3hot does nothing; else it advances the head, waits for its cycles in CM,
moves LEN bytes or fails with its code, and leaves an entry whose status says that it moved poison.
BAR2_ACCESS outside the aperture is unsupported; an engine buffer of a fenced MXE or in validation mode is
served; a read of memory returns the bytes, a write stores them, with EP as poison; a directory region, or
a shadow rule, aborts reads and discards writes. HIF_BAR2_MAP_WRITE stores BASE unless bit 11 is set or
recovery forbids it. PROG_STAT_READ answers the word and latches POS. D3HOT_ENTRY and D0_RETURN set and
clear D3hot. HIF_ADVICE_ACK drops the rung-1 conditions; an ADVICE of 1 falls to 0. -/
def Obligations.DmaApertureAndPowerState : Prop :=
  ∀ s : State, s.dead = false →
    let raised (c : Instr) := ∃ t, Answers c s t ∧ ErrorRaised s t
    let refused := { s with reply := some ⟨0, 1⟩ }
    let bar2 (t : State) (w : Bool) (x len : Nat) (bs : List Byte) (ep : Bool) := Answers (.bar2Access x len bs w ep) s t
    (∀ (c : Fin 8) (v : Word), (s.hifServed = false → Answers (.dmaEnable c v) s refused) ∧ (s.hifServed = true →
      let st := Reg.dmaStat c
      let size := F.dmaCfgSize.of v.toNat
      let off := s.fld st F.dmaStatState = 0
      let fits := 2 ≤ size ∧ size ≤ 65536
      let able := s.ready = true ∧ s.qState (F.dmaCfgQp.of v.toNat) = 1
      (off → v.toNat.testBit 0 = false → ∃ t, Answers (.dmaEnable c v) s t ∧ s.OnlyRegs t [.dmaCfg c] ∧
        t.fld (.dmaCfg c) F.dmaCfgSize = size ∧ t.fld (.dmaCfg c) F.dmaCfgQp = F.dmaCfgQp.of v.toNat ∧
        t.fld (.dmaCfg c) F.dmaCfgEn = 0) ∧
      (off → v.toNat.testBit 0 = true → ¬ (able ∧ fits) → raised (.dmaEnable c v)) ∧
      (off → v.toNat.testBit 0 = true → able → fits → ∃ t, Answers (.dmaEnable c v) s t ∧
        t.fld (.dmaCfg c) F.dmaCfgSize = size ∧ t.fld (.dmaCfg c) F.dmaCfgEn = 1 ∧ t.fld st F.dmaStatState = 1 ∧
        t.fld st F.dmaStatHead = 0 ∧ t.fld st F.dmaStatCode = 0 ∧ tabFind t.hif.dmaTail c = none ∧
        s.RegsBut t [.dmaCfg c, st] ∧ t = { s with regs := t.regs, hif := { s.hif with dmaTail := t.hif.dmaTail } }) ∧
      (¬ off → v.toNat.testBit 0 = false → ∃ t, Answers (.dmaEnable c v) s t ∧ s.OnlyRegs t [.dmaCfg c, st] ∧
        t.fld (.dmaCfg c) F.dmaCfgEn = 0 ∧ t.fld st F.dmaStatState = 0 ∧
        t.fld (.dmaCfg c) F.dmaCfgSize = s.fld (.dmaCfg c) F.dmaCfgSize) ∧
      (¬ off → v.toNat.testBit 0 = true → raised (.dmaEnable c v)))) ∧
    (∀ (c : Fin 8) (lost : List Nat),
      let st := Reg.dmaStat c
      let head := s.fld st F.dmaStatHead
      let d := memRead s.host (s.fld (.dmaBase c) F.dmaBaseAddr * 4096 + head * 32) 32
      let q := s.fld (.dmaCfg c) F.dmaCfgQp
      let entry (status code detail : Nat) : CqEntry :=
        ⟨fieldAt d 20 2, status, code, c + 64, detail, bitAt (fieldAt d 22 1) 1, false⟩
      let on := s.fld .hifIdle F.hifIdleState = 0 ∧ s.fld st F.dmaStatState = 1 ∧ s.hif.d3 = false ∧
        head ≠ tabGet 0 s.hif.dmaTail c
      (¬ on → Answers (.dmaDescriptor c lost) s s) ∧
      (on →
        let at0 := s.setFld st F.dmaStatHead ((head + 1) % s.fld (.dmaCfg c) F.dmaCfgSize)
        let ha := fieldAt d 0 8
        let da := fieldAt d 8 8
        let len := fieldAt d 16 4
        let out := bitAt (fieldAt d 22 1) 0
        let (b, bad) := bgReach 14 da len (!out) at0
        ∃ t, Answers (.dmaDescriptor c lost) s t ∧
        (dmaFault at0 d ≠ 0 → t.fld st F.dmaStatHead = (head + 1) % s.fld (.dmaCfg c) F.dmaCfgSize % 2 ^ 16 ∧
          t.fld st F.dmaStatState = 2 ∧ t.fld st F.dmaStatCode = dmaFault at0 d ∧ t.mem = s.mem ∧
          t.host = s.host ∧ t.fld .errHead F.errHeadSeq = (s.fld .errHead F.errHeadSeq + 1) % 2 ^ 32 ∧
          s.RegsButErr t [st] ∧
          (s.qState q ≠ 0 → (t.qp q).out = (s.qp q).out ++ [entry 3 (dmaFault at0 d) 0])) ∧
        (dmaFault at0 d = 0 → bad = true ∨ len = 0 → t.mem = b.mem ∧ t.host = b.host ∧ t.regs = b.regs ∧
          (b.qState q ≠ 0 → (t.qp q).out = (b.qp q).out ++ [entry 0 0 len])) ∧
        (dmaFault at0 d = 0 → bad = false → out = false → t.host = b.host ∧
          (0x020000000000 ≤ da → (∀ i < len, i / 64 ∉ lost →
              memByte t.mem (da + i) = memByte b.host (ha + i)) ∧ b.MemBut t [(da, len)])) ∧
        (dmaFault at0 d = 0 → bad = false → out = true →
          let (us, g) := b.fetchN da (len / 64)
          t.mem = g.mem ∧ t.regs = g.regs ∧ t.host = memWrite g.host ha (bytesOf us) ∧
          (g.qState q ≠ 0 → (t.qp q).out = (g.qp q).out ++ [entry (if us.any UnitP.poison then 2 else 0) 0 len])))) ∧
    (∀ (x len : Nat) (bs : List Byte) (w ep : Bool), let l := if w then bs.length else len
      let da := s.fld .hifBar2Map F.hifBar2MapBase * 2 ^ 36 + x
      let k := wake s
      (s.hifServed = false ∨ 2 ^ 36 < x + l ∨ s.bar2Open da = false → bar2 refused w x len bs ep) ∧
      (s.hifServed = true → x + l ≤ 2 ^ 36 → s.bar2Open da = true →
        let ps (p : Bool) := List.replicate (ceilDiv (da % 64 + l) 64) p
        let (b, bad) := bgReach 14 da l w k
        (∀ n m o, placeOf da = .engine n m o → k.fenced n m = true ∨ k.vmode n = true → o + l ≤ viewEnd o →
          let e := k.landCm n
          (w = true → bar2 (bgWrite 14 da bs (ps (ep && decide (o < 0x80000))) e) w x len bs ep) ∧
          (w = false → ∃ t, bar2 t w x len bs ep ∧ t = { e with reply := t.reply } ∧
            t.reply.map Reply.v = some (leNat (viewRead e n m o l)))) ∧
        (viewServes k da l = false →
          (w = true → k.reach da l ≠ 0 → bar2 k w x len bs ep) ∧
          (w = true → k.reach da l = 0 → bar2 (if bad then b else rmwPieces true da bs (ps ep) b) w x len bs ep) ∧
          (w = false → k.reach da l = 1 → bar2 { k with reply := some ⟨0, 2⟩ } w x len bs ep) ∧
          (w = false → k.reach da l = 2 → bar2 { k with reply := some ⟨0, 1⟩ } w x len bs ep) ∧
          (w = false → k.reach da l = 0 → bad = true → bar2 { b with reply := some ⟨0, 2⟩ } w x len bs ep) ∧
          (w = false → k.reach da l = 0 → bad = false →
            let (us, r) := b.fetchN (da / 64 * 64) (ceilDiv (da % 64 + l) 64)
            bar2 { r with reply := some ⟨leNat (((bytesOf us).drop (da % 64)).take l),
              if us.any UnitP.poison then 3 else 0⟩ } w x len bs ep)))) ∧
    (∀ (r : Requester) (v : Word), (r = .host → s.hifServed = false → Answers (.hifBar2MapWrite r v) s refused) ∧
      ((r = .host → s.hifServed = true) →
        let bad := v.toNat.testBit 47 = true ∨ (s.recovery = true ∧ F.hifBar2MapBase.of v.toNat ≠ 0x020)
        (bad → raised (.hifBar2MapWrite r v)) ∧
        (¬ bad → ∃ t, Answers (.hifBar2MapWrite r v) s t ∧ s.OnlyRegs t [.hifBar2Map] ∧
          t.fld .hifBar2Map F.hifBar2MapBase = F.hifBar2MapBase.of v.toNat))) ∧
    (∀ i : Fin 16, (s.hifServed = false → Answers (.progStatRead i) s refused) ∧
      (s.hifServed = true → Answers (.progStatRead i) s { s with
        hif := { s.hif with posLatch := tabSet s.hif.posLatch i (s.word (.hifProgPos i)) }
        reply := some ⟨s.word (.hifProgStat i), 0⟩ })) ∧
    Answers .d3hotEntry s { s with hif := { s.hif with d3 := true } } ∧
    (s.hif.d3 = false → Answers .d0Return s s) ∧
    (s.hif.d3 = true → ∃ t, Answers .d0Return s t ∧ t.hif.d3 = false ∧ t.mem = s.mem ∧ t.cores = s.cores ∧
      s.RegsBut t ((List.range 64).map .hifQStat ++ (List.range 4).map .msixPba) ∧
      ∀ q : QpId, (s.qp q).cmds = [] → (s.qp q).out = [] → t.qp q = s.qp q) ∧
    (∃ t, Answers .hifAdviceAck s t ∧ t.chip.rung1 = [] ∧ s.OnlyRegs { t with chip := s.chip } [.hifAdvice] ∧
      t.chip = { s.chip with rung1 := [] } ∧ t.fld .hifAdvice F.hifAdviceAdvice =
        (if s.fld .hifAdvice F.hifAdviceAdvice = 1 then 0 else s.fld .hifAdvice F.hifAdviceAdvice))

/-- Firmware update and commit, the sideband at its address, the error ring's consumers, debug unlock. (R428,
R468, R469, R471, R472, R474, R475, R486, R487, R526.) With the device running (the challenge and the
token in any state with the AUX rails on; the sideband too, at its own SMBus address, or over PCI Express
with the link up). An update, from memory or the sideband, is refused during another; an image that fails
its checks leaves STATE 5 with FW_AUTH, a good one empties the inactive slot and is being written (STATE
2). FW_UPDATE_ABORT ends it; FW_COMMIT makes a trial the default; FW_COMMIT_SVN raises the fuse, or
conflicts in a trial. A sensor answers its value, an open one a free value, an unavailable one nothing.
FLASH_LOG_COPY appends the new fault records; ERR_TAIL_WRITE moves TAIL within the filled part and the
cursor out of what it frees. DEBUG_UNLOCK after three failures or before READY conflicts; a bad token
counts and raises FW_AUTH; a good one adds its SCOPE; each attempt makes a new open challenge. -/
def Obligations.FirmwareSidebandAndUnlock : Prop :=
  ∀ s : State,
    let refused := { s with reply := some ⟨0, 1⟩ }
    let raised (c : Instr) := ∃ t, Answers c s t ∧ ErrorRaised s t
    let seqUp (t : State) := t.fld .errHead F.errHeadSeq = (s.fld .errHead F.errHeadSeq + 1) % 2 ^ 32
    let pba := (List.range 4).map Reg.msixPba
    let begins (c : Instr) (ws : List Word) (u : State) := let x := readImage ws u.chip.svn
      (x.good = false → ∃ t, Answers c s t ∧ t.fld .hifFwStat F.hifFwStatState = 5 ∧
        t.fld .hifFwStat F.hifFwStatCode = ecFwAuth ∧
        t.fld .errHead F.errHeadSeq = (u.fld .errHead F.errHeadSeq + 1) % 2 ^ 32 ∧
        u.RegsButErr t [.hifFwStat, .hifProgStat 7, .hifProgPos 7] ∧
        t = { u with regs := t.regs, msixSent := t.msixSent }) ∧
      (x.good = true → ∃ t, Answers c s t ∧ t.fld .hifFwStat F.hifFwStatState = 2 ∧
        t.fld .hifFwStat F.hifFwStatCode = 0 ∧ t.chip.update = some x ∧ t.chip.slot u.chip.inactive = none ∧
        t.chip.slot u.chip.running = u.chip.slot u.chip.running ∧
        u.RegsBut t ([.hifFwStat, .hifProgStat 7, .hifProgPos 7] ++ pba) ∧
        t = { u with regs := t.regs, msixSent := t.msixSent, chip := t.chip })
    let near (a : Option (BitVec 7)) := s.sideband (a.map BitVec.toNat)
    (s.dead = false →
      (∀ r : Requester, (r = .host → s.hifServed = false →
          Answers (.fwUpdateStart r) s refused ∧ Answers (.fwUpdateAbort r) s refused) ∧
        ((r = .host → s.hifServed = true) →
          let da := s.fld .hifFwSrc F.hifFwSrcAddr * 64
          let len := s.fld .hifFwCtl F.hifFwCtlLen
          (s.chip.update.isSome = true ∨ s.reach da len ≠ 0 → raised (.fwUpdateStart r)) ∧
          (s.chip.update = none → s.reach da len = 0 →
            let u := s.touch da len
            begins (.fwUpdateStart r) (imageWords u da len) u) ∧
          (s.chip.update = none → Answers (.fwUpdateAbort r) s s) ∧
          (s.chip.update.isSome = true → ∃ t, Answers (.fwUpdateAbort r) s t ∧ t.fld .hifFwStat F.hifFwStatState = 5 ∧
            t.fld .hifFwStat F.hifFwStatCode = 0 ∧ s.RegsBut t ([.hifFwStat, .hifProgStat 7] ++ pba) ∧
            t = { s with regs := t.regs, msixSent := t.msixSent, chip := { s.chip with update := none } }))) ∧
      (s.hifServed = false → Answers .fwCommit s refused ∧ Answers .fwCommitSvn s refused) ∧
      (s.hifServed = true →
        (s.chip.trial = true → raised .fwCommitSvn ∧
          Answers .fwCommit s { s with chip := { s.chip with active := s.chip.running, trial := false } }) ∧
        (s.chip.trial = false → Answers .fwCommit s s ∧ Answers .fwCommitSvn s { s with chip := { s.chip with
          svn := max s.chip.svn (((s.chip.slot s.chip.running).map Image.svn).getD 0) } })) ∧
      (∀ a (w : BitVec 16), (near a = false → Answers (.pldmCapEffecter ⟨a, w⟩) s s) ∧ (near a = true →
        (w.toNat < 600 ∨ 1800 < w.toNat → raised (.pldmCapEffecter ⟨a, w⟩)) ∧
        (600 ≤ w.toNat → w.toNat ≤ 1800 → ∃ t, Answers (.pldmCapEffecter ⟨a, w⟩) s t ∧ t.fld .blwCap F.blwCapCap = w.toNat ∧
          s.RegsBut t [.blwCap, .blwStat] ∧ t = { s with regs := t.regs, power := { s.power with raise := t.power.raise } } ∧
          (s.fld .blwCap F.blwCapCap ≤ w.toNat → s.OnlyRegs t [.blwCap]) ∧
          (w.toNat < s.fld .blwCap F.blwCapCap → t.power.raise = none)))) ∧
      (let head := s.fld .errHead F.errHeadHead
        let new := ((List.range 1024).map fun i => (head + i) % 1024).filter fun i =>
          s.ringFault i && decide (s.chip.logSeq ≤ s.ringSeq i)
        ∃ t, Answers .flashLogCopy s t ∧ t = { s with chip := { s.chip with log := t.chip.log, logSeq := t.chip.logSeq } } ∧
          t.chip.logSeq = s.fld .errHead F.errHeadSeq ∧ t.chip.log.length ≤ 32768 ∧
          ∃ old, s.chip.log ++ new.map s.ringRecord = old ++ t.chip.log) ∧
      (∀ v : Word, let w := wake s
        let x := F.errTailTail.of v.toNat
        let tail := w.fld .errTail F.errTailTail
        let dist (i : Nat) := (i + 1024 - tail) % 1024
        let cur := w.fld .errMgmt F.errMgmtCursor
        (dist (w.fld .errHead F.errHeadHead) < dist x → ∃ t, Answers (.errTailWrite v) s t ∧ ErrorRaised w t) ∧
        (dist x ≤ dist (w.fld .errHead F.errHeadHead) → ∃ t, Answers (.errTailWrite v) s t ∧
          t.fld .errTail F.errTailTail = x ∧ w.OnlyRegs t [.errTail, .errMgmt] ∧
          (dist x ≤ dist cur → t.word .errMgmt = w.word .errMgmt) ∧
          (dist cur < dist x → t.fld .errMgmt F.errMgmtCursor = x ∧ t.fld .errMgmt F.errMgmtSkipped =
            min (w.fld .errMgmt F.errMgmtSkipped + (dist x - dist cur)) F.errMgmtSkipped.top))) ∧
      (∀ jtag : Bool, (jtag = false → s.hifServed = false → Answers (.debugUnlock jtag) s refused) ∧
        (jtag = true ∨ s.hifServed = true →
          let ws := if jtag then s.chip.jtagToken else (List.range 20).map fun i => BitVec.ofNat 64 (s.word (.dbgToken i))
          let scope := fieldAt (tokenBytes ws) 24 4
          let key := fieldAt (tokenBytes ws) 28 1
          let shut := (s.ready = false ∧ s.recovery = false) ∨ 3 ≤ s.fld .dbgStat F.dbgStatFails
          let fresh (u t : State) := t.draws = u.draws + 2 ∧ t.word (.dbgChal 0) = Config.freeNat u.draws % 2 ^ 64 ∧
            t.word (.dbgChal 1) = Config.freeNat (u.draws + 1) % 2 ^ 64
          (shut → raised (.debugUnlock jtag)) ∧
          (¬ shut → tokenOk s ws = false → ∃ t, Answers (.debugUnlock jtag) s t ∧ fresh s t ∧ seqUp t ∧
            t.fld .dbgStat F.dbgStatFails = s.fld .dbgStat F.dbgStatFails + 1 ∧
            t.fld .dbgStat F.dbgStatScope = s.fld .dbgStat F.dbgStatScope ∧
            s.RegsButErr t [.dbgStat, .dbgChal 0, .dbgChal 1] ∧
            t = { s with regs := t.regs, draws := t.draws, msixSent := t.msixSent }) ∧
          (¬ shut → tokenOk s ws = true →
            let u := if key < 4 ∧ (scope.testBit 2 = true ∨ scope.testBit 3 = true) then clearAll (abortAll s) else s
            ∃ t, Answers (.debugUnlock jtag) s t ∧ fresh u t ∧ t.fld .dbgStat F.dbgStatKey = key ∧
              t.fld .dbgStat F.dbgStatScope = (u.fld .dbgStat F.dbgStatScope ||| scope) ∧
              u.RegsBut t [.dbgStat, .dbgChal 0, .dbgChal 1] ∧ t = { u with regs := t.regs, draws := t.draws })))) ∧
    (∀ x : BitVec 7, near (some x) = true ↔ s.auxOn = true ∧ x.toNat = s.chip.sbAddr) ∧
    (near none = true ↔ s.auxOn = true ∧ s.chip.held = false ∧ s.chip.pciDown = false) ∧
    (∀ a (image : List Word), (near a = false → Answers (.pldmFwUpdate ⟨a, image⟩) s s) ∧
      (near a = true → s.chip.update.isSome = true → raised (.pldmFwUpdate ⟨a, image⟩)) ∧
      (near a = true → s.chip.update = none → begins (.pldmFwUpdate ⟨a, image⟩) image s)) ∧
    (∀ a, near a = false → ∀ k, Answers (.pldmRequest ⟨a, k⟩) s s) ∧
    (s.auxOn = false → Answers .challengeRead s s ∧ ∀ ws, Answers (.tokenWrite ws) s s) ∧
    (s.auxOn = true →
      Answers .challengeRead s { s with
        chip := { s.chip with jtagIr := 0x30 }
        reply := some ⟨s.word (.dbgChal 0) + s.word (.dbgChal 1) * 2 ^ 64, 0⟩ } ∧
      ∀ ws, Answers (.tokenWrite ws) s { s with chip := { s.chip with jtagIr := 0x31, jtagToken := ws.take 20 } }) ∧
    (∀ a, near a = true →
      Answers (.pldmRequest ⟨a, 12⟩) s { s with reply := some ⟨if s.chip.held then 0 else s.fld .hifBoot F.hifBootStage, 0⟩ } ∧
      (s.dead = true → ∀ k, k ≠ 12 → Answers (.pldmRequest ⟨a, k⟩) s refused) ∧
      (s.dead = false →
        let gives (k : Byte) (v : Nat) := Answers (.pldmRequest ⟨a, k⟩) s { s with reply := some ⟨v, 0⟩ }
        let w := wake s
        let cur := w.fld .errMgmt F.errMgmtCursor
        gives 0 (s.fld .blwStat F.blwStatPkgW) ∧ gives 1 (s.fld .blwStat F.blwStatTjMax) ∧
        gives 11 (s.fld .hifIdle F.hifIdleState) ∧ gives 13 (((List.range 1024).filter s.ringFault).length) ∧
        (∀ k : Byte, 2 ≤ k → k ≤ 9 →
          (s.fld .hifIdle F.hifIdleState = 4 → Answers (.pldmRequest ⟨a, k⟩) s refused) ∧
          (s.fld .hifIdle F.hifIdleState ≠ 4 → Answers (.pldmRequest ⟨a, k⟩) s { w with
            draws := w.draws + 1, reply := some ⟨Config.freeNat w.draws % 2 ^ 16, 0⟩ })) ∧
        Answers (.pldmRequest ⟨a, 10⟩) s { s with
          draws := s.draws + 1, reply := some ⟨Config.freeNat s.draws % 2 ^ 16, 0⟩ } ∧
        (cur = w.fld .errHead F.errHeadHead → Answers (.pldmRequest ⟨a, 14⟩) s { w with reply := some ⟨0, 1⟩ }) ∧
        (cur ≠ w.fld .errHead F.errHeadHead → Answers (.pldmRequest ⟨a, 14⟩) s
          { w.setFld .errMgmt F.errMgmtCursor ((cur + 1) % 1024) with reply := some ⟨leNat (w.ringRecord cur), 0⟩ }) ∧
        (∀ k : Byte, 14 < k → Answers (.pldmRequest ⟨a, k⟩) s refused)))

/-- The test access port, CHIP_MODE, the trace port, GPIO and the timers. (R490, R500, R501, R529, R530,
R531.) With the AUX rails off a test-port command does nothing. Else it selects its instruction: IDCODE
answers the identity; SAMPLE/PRELOAD and an open instrument answer an open value; EXTEST and EXTEST_PULSE
drive the pins and take every link down; BYPASS and a locked opcode select a zero data register; TAP_RESET
ends EXTEST. JTAG_MEMORY_ACCESS reads or writes 8 aligned bytes of an SRAM or stack, a core's memory once
it has its cycles, anything else answers a refusal; CC_HALT_STEP marks a control core halted. With the
device running: CHIP_MODE_WRITE and CHIP_GPIO_WRITE store or conflict, TRACE_ENABLE needs its scope and no
driven GPIO, a timer's write restarts it and its expiry adds 1 to its command event, time moving to the
period's end; a one-shot then stops. -/
def Obligations.TestPortAndDeviceRegisters : Prop :=
  ∀ s : State,
    let refused := { s with reply := some ⟨0, 1⟩ }
    let sel (ir : Nat) (u : State) : State := { u with chip := { u.chip with jtagIr := ir } }
    let bypassed := { s with chip := { s.chip with jtagIr := 0xFF, jtagDr := 0 } }
    let raised (c : Instr) (u : State) := ∃ t, Answers c s t ∧ ErrorRaised u t
    (s.auxOn = false → (∀ v, Answers (.extest v) s s ∧ Answers (.samplePreload v) s s ∧ Answers (.ieee1687Access v) s s) ∧
      (∀ c ∈ [Instr.extestPulse, .idcode, .bypass, .tapReset], Answers c s s) ∧
      (s.dead = false → (∀ cc st, Answers (.ccHaltStep cc st) s s) ∧ ∀ a v w, Answers (.jtagMemoryAccess a v w) s s)) ∧
    (s.auxOn = true →
      Answers .idcode s { sel 0x01 s with reply := some ⟨2 ^ 28 + 0x9400 * 2 ^ 12 + Config.jedec % 2 ^ 11 * 2 + 1, 0⟩ } ∧
      Answers .bypass s bypassed ∧
      Answers .tapReset s { s with chip := { s.chip with jtagIr := 0x01, jtagDr := 0, extest := false } } ∧
      (∀ v, Answers (.samplePreload v) s { s with
        chip := { s.chip with jtagIr := 0x02, jtagDr := v }
        draws := s.draws + 1, reply := some ⟨Config.freeNat s.draws % 2 ^ 64, 0⟩ }) ∧
      (∀ v, (s.scope 0 = false → Answers (.ieee1687Access v) s bypassed) ∧
        (s.scope 0 = true → Answers (.ieee1687Access v) s { s with
          chip := { s.chip with jtagIr := 0x20, instruments := v }
          draws := s.draws + 1, reply := some ⟨Config.freeNat s.draws % 2 ^ 64, 0⟩ })) ∧
      (let drive (ir : Nat) (c : Instr) (v : Word) :=
          let u := if s.chip.held then sel ir s else allPorts.foldl (fun u p => linkDown p u) (sel ir s)
          Answers c s { u with chip := { u.chip with jtagDr := v, extest := true, pciDown := true } }
       (∀ v, drive 0x00 (.extest v) v) ∧ drive 0x0A .extestPulse s.chip.jtagDr) ∧
      (s.dead = false →
        (∀ cc st, (s.scope 2 = false → Answers (.ccHaltStep cc st) s bypassed) ∧
          (s.scope 2 = true → ∃ t, Answers (.ccHaltStep cc st) s t ∧ cc.val ∈ t.chip.ccHalted ∧
            (∀ i, i ≠ cc.val → (i ∈ t.chip.ccHalted ↔ i ∈ s.chip.ccHalted)) ∧
            t = { s with chip := { s.chip with jtagIr := 0x21, ccHalted := t.chip.ccHalted } })) ∧
        (∀ a v w, let memory := match placeOf a with
            | .stack _ _ | .orangery _ | .cm _ _ | .engine _ _ _ => true
            | _ => false
          (s.scope 3 = false → Answers (.jtagMemoryAccess a v w) s bypassed) ∧
          (s.scope 3 = true → memory = false ∨ a % 8 ≠ 0 →
            Answers (.jtagMemoryAccess a v w) s { sel 0x22 s with reply := some ⟨0, 1⟩ }) ∧
          (s.scope 3 = true → memory = true → a % 8 = 0 →
            (let (u, g) := (sel 0x22 s).fetch a;
              Answers (.jtagMemoryAccess a v false) s { g with
                reply := some ⟨leNat ((u.bs.drop (a % 64)).take 8), b2n u.poison * 3⟩ }) ∧
            let (b, bad) := bgReach 14 a 8 true (sel 0x22 s)
            ∃ t, Answers (.jtagMemoryAccess a v true) s t ∧ (bad = true → t = b) ∧
              (bad = false → memRead t.mem (canon a) 8 = natLe 8 v.toNat ∧ b.MemBut t [(canon a, 8)]))))) ∧
    (s.dead = false → ∀ (r : Requester) (v : Word),
      (r = .host → s.hifServed = false → Answers (.chipModeWrite r v) s refused ∧ Answers (.chipGpioWrite r v) s refused ∧
        ∀ k, Answers (.chipTimerWrite r k v) s refused) ∧
      ((r = .host → s.hifServed = true) →
        let clears := r = .host ∧ ∃ n < 32, s.fld (.coreMap n) F.coreMapState = 1 ∧ v.toNat.testBit (32 + n) = false
        let driven := s.bit .tstTraceCtl F.tstTraceCtlEn = true ∧ F.chipGpioOe.of v.toNat ≠ 0
        (clears → raised (.chipModeWrite r v) s) ∧ (driven → raised (.chipGpioWrite r v) s) ∧
        (¬ clears → ∃ t, Answers (.chipModeWrite r v) s t ∧ s.OnlyRegs t [.chipMode] ∧
          t.word .chipMode = writeWord (regFields .chipMode) (s.word .chipMode) v.toNat % 2 ^ 64) ∧
        (¬ driven → ∃ t, Answers (.chipGpioWrite r v) s t ∧ s.OnlyRegs t [.chipGpio] ∧
          t.fld .chipGpio F.chipGpioOe = F.chipGpioOe.of v.toNat ∧ t.fld .chipGpio F.chipGpioOut = F.chipGpioOut.of v.toNat) ∧
        (∀ k : Fin 8, (r = .host → k.val < 4 → raised (.chipTimerWrite r k v) s) ∧
          (r ≠ .host ∨ 4 ≤ k.val → ∃ t, Answers (.chipTimerWrite r k v) s t ∧ s.RegsBut t [.chipTimer k] ∧
            tabFind t.chip.timers k = some s.now ∧ t.fld (.chipTimer k) F.chipTimerPeriod = F.chipTimerPeriod.of v.toNat ∧
            t.fld (.chipTimer k) F.chipTimerEn = F.chipTimerEn.of v.toNat ∧
            t = { s with regs := t.regs, chip := { s.chip with timers := t.chip.timers } }))) ∧
      (∀ en : Bool, let w := wake s
        (en = true → w.fld .chipGpio F.chipGpioOe ≠ 0 ∨ w.scope 1 = false → raised (.traceEnable r en) w) ∧
        (en = false ∨ (w.fld .chipGpio F.chipGpioOe = 0 ∧ w.scope 1 = true) → ∃ t, Answers (.traceEnable r en) s t ∧
          w.OnlyRegs t [.tstTraceCtl] ∧ (t.bit .tstTraceCtl F.tstTraceCtlEn = true ↔ en = true))) ∧
      (∀ k : Fin 8, let reg := Reg.chipTimer k
        let e := s.fld reg F.chipTimerCevent
        let end_ := tabGet 0 s.chip.timers k + s.fld reg F.chipTimerPeriod * fabTicks
        let on := 4 ≤ k.val ∧ s.fld reg F.chipTimerPeriod ≠ 0 ∧ s.bit reg F.chipTimerEn = true
        (¬ on → Answers (.chipTimerExpiry k) s s) ∧
        (on → ∃ t, Answers (.chipTimerExpiry k) s t ∧ t.cevent e = (s.cevent e + 1) % 2 ^ 64 ∧
          (∀ i, i ≠ e → t.cevent i = s.cevent i) ∧ t.now = max s.now end_ ∧ tabFind t.chip.timers k = some end_ ∧
          t.mem = s.mem ∧ s.RegsBut t [reg] ∧
          t.bit reg F.chipTimerEn = (!s.bit reg F.chipTimerOneshot))))

/-- NOP, FENCE, event commands, PROGRESS and PIN; how a command completes. (R341, R342, R347, R349, R358,
R456.) With the device running. Each row acts on the command of its queue that starts next, if that is the
one meant, else nothing changes; a reserved field that is not 0 fails it with status 3 and one record. NOP
completes; FENCE, EVENT_SIGNAL and PROGRESS do once every earlier command has, the second adding its value
to the event, the third writing the progress word. EVENT_WAIT completes when the counter has reached
TARGET, else waits; EVENT_WAIT_SATISFIED ends the wait then, EVENT_WAIT_TIMEOUT fails it with TASK_HANG
after its time and halts the queue. PIN and UNPIN check every entry, then unpin it, or give it space and
queue its copy, after the last of which the PIN completes; a failed check fails the command. A completed
command alone in its queue leaves its completion entry, and its command event gains 1. -/
def Obligations.WcsCommandsThatOrderOthers : Prop :=
  ∀ (s : State) (q : QpId), s.dead = false →
    (∀ c e, (s.qp q).cmds = [c] → c.done = false → c.stepEnd = false → s.hif.d3 = false → e.status < 2 →
      let t := endCmd q c.id e s
      (t.qp q).cmds = [] ∧ (t.qp q).out = (s.qp q).out ++ entryOf q c e ∧
        (c.cevEn = true → t.cevent c.cevent = (s.cevent c.cevent + 1) % 2 ^ 64) ∧
        (c.cevEn = false → t.cevents = s.cevents) ∧ t = { s with hif := t.hif, cevents := t.cevents }) ∧
    (s.nextCmd q = none → ∀ c ∈ [Instr.wcsNop q, .wcsFence q, .eventSignal q, .eventWait q, .progress q, .pin q, .unpin q],
      Answers c s s) ∧
    (∀ c, s.nextCmd q = some c →
      let u := markStarted q c.id (wake s)
      let failed (cmd : Instr) (v : State) := ∃ e code detail, ErrorRaised v e ∧ (code = ecDescFormat ∨ code = ecDescRange ∨ code = ecTileDir) ∧
        Answers cmd s (endCmd q c.id ⟨3, code, detail⟩ e)
      let clean (fs : List WField) := (∀ f ∈ (commonFields c).1 ++ fs ++ (commonFields c).2,
        bitsOf (c.w f.1) f.2.1 f.2.2 = 0) ∧ (c.trace = true → daOk u (c.w 7) 64 = true)
      let row (cmd : Instr) (meant : Prop) (fs : List WField) (r : State) := (¬ meant → Answers cmd s s) ∧
        (meant → clean fs → Answers cmd s r) ∧ (meant → ¬ clean fs → failed cmd u)
      let first := s.allBefore q c.id = true
      let e := bitsOf (c.w 1) 11 0
      row (.wcsNop q) (c.op = 0x00) (emptyFrom 1) (finishCmd q c.id u) ∧
      row (.wcsFence q) (c.op = 0x18 ∧ first) (emptyFrom 1) (finishCmd q c.id u) ∧
      row (.eventSignal q) (c.op = 0x19 ∧ first) ((1, 63, 12) :: emptyFrom 3) (finishCmd q c.id (addEvent e (c.w 2) u)) ∧
      row (.progress q) (c.op = 0x1B ∧ first) (emptyFrom 2) (finishCmd q c.id (u.setWord (.hifSqProg q) (c.w 1))) ∧
      row (.eventWait q) (c.op = 0x1A) ((1, 63, 12) :: (3, 63, 32) :: emptyFrom 4)
        (if c.w 2 ≤ u.cevent e then endCmd q c.id ⟨0, 0, u.cevent e⟩ u else u) ∧
      (let set := bitAt (c.w 3) 0
       let cmd := if set then Instr.pin q else .unpin q
       let start := bitsOf (c.w 1) 23 0
       let n := bitsOf (c.w 2) 24 0
       let hs := (List.range n).map (start + ·)
       let fs := [(1, 63, 24), (2, 63, 25), (3, 63, 1)] ++ emptyFrom 4
       (c.op ≠ 0x12 → Answers (.pin q) s s ∧ Answers (.unpin q) s s) ∧
       Answers (if set then .unpin q else .pin q) s s ∧
       (c.op = 0x12 → ¬ (clean fs ∧ start + n ≤ 2 ^ 24) → failed cmd u) ∧
       (c.op = 0x12 → clean fs → start + n ≤ 2 ^ 24 →
        (∀ f v, ((checkPins hs).run).run u = (.error f, v) → Answers cmd s (failWith q c.id f v)) ∧
        (∀ v, ((checkPins hs).run).run u = (.ok (), v) →
          (set = false → Answers cmd s (pinSweep (pinEnd q c.id
            (hs.foldl (fun t h => t.dirWrite h ((t.dirEnt h).set 53 false)) v)))) ∧
          (set = true →
            (∀ xs w, ((hs.mapM (pinOne q c.id)).run).run v = (.ok xs, w) → Answers cmd s (pinSweep (pinEnd q c.id w))) ∧
            ∀ f w, ((hs.mapM (pinOne q c.id)).run).run v = (.error f, w) → Answers cmd s (failWith q c.id f w)))))) ∧
    (∀ p, s.hif.pins = [p] → (s.gh (p.h % 8)).copying p.da = false →
      pinSweep s = finishCmd p.q p.cmd { pinDone p s with hif := { (pinDone p s).hif with pins := [] } }) ∧
    (s.hif.pins = [] → pinSweep s = s ∧ ∀ id, pinEnd q id s = finishCmd q id s) ∧
    (s.waiting? q = none → Answers (.eventWaitSatisfied q) s s ∧ Answers (.eventWaitTimeout q) s s) ∧
    (∀ c, s.waiting? q = some c →
      let e := bitsOf (c.w 1) 11 0
      let us := c.w 3 % 2 ^ 32
      (c.w 2 ≤ s.cevent e → s.d3Full = false → Answers (.eventWaitSatisfied q) s (endCmd q c.id ⟨0, 0, s.cevent e⟩ s)) ∧
      (s.cevent e < c.w 2 ∨ s.d3Full = true → Answers (.eventWaitSatisfied q) s s) ∧
      (us = 0 ∨ c.w 2 ≤ s.cevent e → Answers (.eventWaitTimeout q) s s) ∧
      (us ≠ 0 → s.cevent e < c.w 2 → ∃ r d, ErrorRaised (s.advance (c.since + us * usTicks)) r ∧
        Answers (.eventWaitTimeout q) s (haltQueue q ecTaskHang (endCmd q c.id ⟨3, ecTaskHang, d⟩ r)) ∧
        (s.qState q = 1 → (haltQueue q ecTaskHang (endCmd q c.id ⟨3, ecTaskHang, d⟩ r)).qState q = 2)))

/-- Tensor commands start, their units are claimed, dispatched and run again. (R194, R344, R347, R353, R354,
R366, R367, R406, R478.) With the device running. Each of GEMM, SPGEMM, ATTENTION, FFN_PREDICTED,
EMBEDDING_BAG, ELEMENTWISE, REDUCE, QUANTIZE and COPY starts the next command of its queue when that has
its opcode and the turnstile is free; a failed decode completes it with status 3. Decoded, it binds its
scale slots and becomes a job of so many units, its turnstile at 0 below that limit, or completes when it
has none. TILE_UNIT_CLAIM gives a core in service the first unit of the retry list, else those of a TURN;
an exhausted core claims no more. TASK_DISPATCH runs the core's next task, none of a micro-batch whose
turn it is not, or gives its unit back when all its arrays are fenced; TILE_RERUN gives a repaired unit
back, or runs it with poisoned results and DETECT_SRAM, counting detections. With nothing to do each
leaves the state. -/
def Obligations.TensorCommandsAreDistributed : Prop :=
  ∀ s : State, s.dead = false →
    (∀ (q : QpId) (ts : Fin 1024) (cmd : Instr) (op : Nat), (cmd, op) ∈ [(Instr.gemm q ts, 0x01), (.spgemm q ts, 0x02),
        (.attention q ts, 0x03), (.ffnPredicted q ts, 0x04), (.embeddingBag q ts, 0x05), (.elementwise q ts, 0x06),
        (.reduce q ts, 0x07), (.quantize q ts, 0x08), (.wcsCopy q ts, 0x11)] →
      (s.nextCmd q = none ∨ s.tsBusy ts = true → Answers cmd s s) ∧
      (∀ c, s.nextCmd q = some c → c.op ≠ op → Answers cmd s s) ∧
      (∀ c, s.nextCmd q = some c → c.op = op → s.tsBusy ts = false →
        let u := markStarted q c.id (wake s)
        (∀ f v, ((jobDecode q ts c).run).run u = (.error f, v) → Answers cmd s (failWith q c.id f v)) ∧
        (∀ j v, ((jobDecode q ts c).run).run u = (.ok j, v) →
          let b := v.modCmd q c.id fun c => { c with slots := boundSlots (j.descs.map descOf) j.epi }
          let w := if c.trace then b.putUnits (c.w 7) [⟨j.record b, false⟩] else b
          (j.units = 0 → Answers cmd s (finishCmd q c.id w)) ∧
          (j.units ≠ 0 → ∃ t, Answers cmd s t ∧ t.hif.nextJob = w.hif.nextJob + 1 ∧
            t.fld (.tsCnt j.ts) F.tsCntValue = 0 ∧ t.fld (.tsCnt j.ts) F.tsCntLimit = j.units % 2 ^ 32 ∧
            w.RegsBut t [.tsCnt j.ts] ∧ (∀ k, k ≠ w.hif.nextJob → tabFind t.hif.jobs k = tabFind w.hif.jobs k) ∧
            (∃ i, tabFind t.hif.jobs w.hif.nextJob = some { j with ins := i } ∧ (j.recomp = false → i = j.ins)) ∧
            t = { w with regs := t.regs, hif := { w.hif with jobs := t.hif.jobs, nextJob := t.hif.nextJob } })))) ∧
    (∀ (n : CoreId) (k : Nat),
      (tabFind s.hif.jobs k = none ∨ s.fld (.coreMap n) F.coreMapState ≠ 0 → Answers (.tileUnitClaim n k) s s) ∧
      (∀ j, tabFind s.hif.jobs k = some j → s.fld (.coreMap n) F.coreMapState = 0 →
        let adds (u : State) (us : List Nat) (j2 : Job) := ∃ t, Answers (.tileUnitClaim n k) s t ∧
          tabFind t.hif.jobs k = some j2 ∧ tabGet [] t.hif.tasks n = tabGet [] u.hif.tasks n ++
            us.map (fun i => ⟨k, i, !(j.op == 4 && i == 1), j.cls i, u.now⟩) ∧
          (∀ m : CoreId, m ≠ n → tabGet [] t.hif.tasks m = tabGet [] u.hif.tasks m) ∧
          t = { u with hif := { u.hif with jobs := t.hif.jobs, tasks := t.hif.tasks } }
        (∀ i r, j.retry = i :: r → adds s [i] { j with retry := r }) ∧
        (j.retry = [] → n.val ∈ j.spent → Answers (.tileUnitClaim n k) s s) ∧
        (j.retry = [] → n.val ∉ j.spent → let a := claimAmount j n
          let (u, v) := turn j.ts a s.tsSettle
          (v = exhausted → Answers (.tileUnitClaim n k) s (u.setJob k { j with spent := j.spent ++ [n.val] })) ∧
          (v ≠ exhausted → adds u ((List.range (min a (j.units - v.toNat))).map (v.toNat + ·))
            { j with last := tabSet j.last n v.toNat })))) ∧
    (∀ n : CoreId,
      (s.pick n = none → Answers (.taskDispatch n) s s ∧ ∀ ok, Answers (.tileRerun n ok) s s) ∧
      (s.fld (.coreMap n) F.coreMapState ≠ 0 → Answers (.taskDispatch n) s s) ∧
      (∀ x, s.pick n = some x →
        (∀ j, tabFind s.hif.jobs x.job = some j → microRuns s j.q = true) ∧
        let fenced := s.onArrays x = true ∧ ∀ m < 4, s.fenced n m = true
        let u := dropTask n x s
        let audits := (tabGet [] u.hif.tasks n).filter fun y => !y.prio
        let r := if x.prio ∧ s.onArrays x then u.bump (.picStat n) F.picStatDeferred audits.length else u
        (s.fld (.coreMap n) F.coreMapState = 0 →
          (fenced → Answers (.taskDispatch n) s (retryTask n x s)) ∧
          (¬ fenced → tabFind s.hif.jobs x.job = none → Answers (.taskDispatch n) s r) ∧
          (∀ j, ¬ fenced → tabFind s.hif.jobs x.job = some j →
            (∀ j2 v, ((unitRun n none j x.unit).run).run r = (.ok j2, v) → Answers (.taskDispatch n) s (unitDone x.job j2 v)) ∧
            (∀ f v, ((unitRun n none j x.unit).run).run r = (.error f, v) →
              Answers (.taskDispatch n) s (dropJob x.job (failWith j.q j.cmd f v))))) ∧
        Answers (.tileRerun n true) s (countDetections n 1 (retryTask n x s)) ∧
        (tabFind s.hif.jobs x.job = none → Answers (.tileRerun n false) s s) ∧
        (∀ j, tabFind s.hif.jobs x.job = some j → ∃ e w, ErrorRaised u e ∧
          let v := (countDetections n 3 e).modCmd j.q j.cmd fun c => { c with
            taint := true, poison := true, info := if c.info = 0 then ecDetectSram + 256 * w else c.info }
          Answers (.tileRerun n false) s ((runUnit x.job (fun j => unitTainted n j x.unit) v).modCmd j.q j.cmd
            fun c => { c with taint := false }))))

/-- LAUNCH_KERNEL, its timeout, recomputation, predictor adaptation and the placement interval. (R196, R359,
R360, R361, R364, R365.) With the device running. LAUNCH_KERNEL starts the next command of its queue when
no running kernel's grant and no kernel's code space meets its own and no core of it is under test, else
it waits; a failed check completes the command with status 3; with no bundles or cores it completes; else
a kernel of its cores is running from the given base. KERNEL_TIMEOUT, after the kernel's TIMEOUT, stops
its contexts and completes its command with status 4. RECOMPUTE of a tile that is not poisoned does
nothing; else the newest command that wrote it runs again over its blocks, or RECOMPUTED reports a reload.
PICCOLO_ADAPT, with fewer audited tokens than the window, does nothing; else it takes the counters and
moves the threshold, raising AUDIT_ADJUST. PLACEMENT_INTERVAL needs EN and a ready device; it counts. -/
def Obligations.KernelsPlacementAndRecomputation : Prop :=
  ∀ s : State, s.dead = false →
    (∀ (q : QpId) (base : Fin 2048), let r := kernelSweep s
      (r.nextCmd q = none → Answers (.launchKernel q base) s r) ∧
      (∀ c, r.nextCmd q = some c →
        let cores := coresOf (c.w 1 % 2 ^ 32)
        let len := bitsOf (c.w 3) 11 0
        let free := c.op = 0x13 ∧ (∀ k ∈ r.hif.kernels, grantsMeet (r.rdRange (bitsOf (c.w 4) 47 0) 64) cores k = false) ∧
          codeFree r cores base (min 2048 len) = true ∧ ∀ n ∈ cores, r.fld (.coreMap n) F.coreMapState ≠ 1
        let u := markStarted q c.id (wake r)
        (¬ free → Answers (.launchKernel q base) s r) ∧
        (free → (∀ f v, ((launch q base c).run).run u = (.error f, v) →
            Answers (.launchKernel q base) s (failWith q c.id f v)) ∧
          ∀ v, ((launch q base c).run).run u = (.ok (), v) → Answers (.launchKernel q base) s v ∧
            let w := u.touch (bitsOf (c.w 4) 47 0) 64
            let g := w.rdRange (bitsOf (c.w 4) 47 0) 64
            (len = 0 ∨ cores = [] → v = finishCmd q c.id
              ((w.touch (gr g 32 8) (gr g 40 1 * 16)).touch (bitsOf (c.w 2) 47 0) (len * 64))) ∧
            (len ≠ 0 → cores ≠ [] → ∃ k, v.hif.kernels = u.hif.kernels ++ [k] ∧ k.q = q.val ∧ k.cmd = c.id ∧
              k.cores = cores ∧ k.base = base.val ∧ k.len = len ∧ k.grant = g ∧
              k.timeout = bitsOf (c.w 5) 31 16)))) ∧
    (∀ k : Nat, let r := kernelSweep s
      (r.hif.kernels[k]? = none → Answers (.kernelTimeout k) s r) ∧
      (∀ x, r.hif.kernels[k]? = some x → x.timeout = 0 → Answers (.kernelTimeout k) s r) ∧
      (∀ x, r.hif.kernels[k]? = some x → x.timeout ≠ 0 → Answers (.kernelTimeout k) s (kernelSweep (endCmd x.q x.cmd ⟨4, 0, 0⟩
        (x.places.foldl (fun t p => tctxStop p.1 p.2 t) (x.cores.foldl (fun t n => coreSync n t)
          (r.advance (x.start + x.timeout * usTicks)))))))) ∧
    (∀ h : BitVec 24, let e := s.dirEnt h.toNat
      let job := s.hif.recomp.reverse.find? fun j => j.outs.any fun d => d.recomp && d.covers h.toNat
      let reports (how : Nat) (v : State) := Answers (.recompute h) s (recomputed how h.toNat v)
      (e.valid = false ∨ e.poison = false → Answers (.recompute h) s s) ∧
      (e.valid = true → e.poison = true →
        (job = none → reports 1 s) ∧
        (∀ j, job = some j → j.inputsKept s = false → reports 1 s) ∧
        (∀ j, job = some j → j.inputsKept s = true → let j := { j with parts := [] }
          (∀ x v, (((j.unitsFor h.toNat).foldlM (unitRun s.picCore (some h.toNat)) j).run).run s = (.ok x, v) → reports 0 v) ∧
          (∀ x v, (((j.unitsFor h.toNat).foldlM (unitRun s.picCore (some h.toNat)) j).run).run s = (.error x, v) →
            reports 1 v)))) ∧
    (∀ l : Nat, let lt := s.fld (.picCtl s.picCore) F.picCtlLtBase
      let da := layerDa lt l
      let bs := s.rdRange da 64
      let f := layerFld bs
      let old := tabGet {} s.hif.adapted l
      let new := countersAt s (counterDa lt l)
      let due := l < 256 ∧ f 1 0 0 ≠ 0 ∧ f 1 1 1 ≠ 0 ∧ f 3 15 0 ≠ 0 ∧ f 3 15 0 ≤ new.audited - old.audited
      let mode := f 1 3 2
      let v0 := if mode = 2 then f 1 31 16 else f 1 63 32
      let v := adaptedValue bs (ratio32 (new.falseNeg - old.falseNeg) (new.trueAct - old.trueAct))
        (ratio32 (new.pred - old.pred) (new.evals - old.evals))
      let moved := v ≠ v0 ∧ (mode = 1 ∨ mode = 2)
      (¬ due → Answers (.piccoloAdapt l) s s) ∧
      (due → ∃ t, Answers (.piccoloAdapt l) s t ∧ tabFind t.hif.adapted l = some new ∧
        (∀ i, i ≠ l → tabFind t.hif.adapted i = tabFind s.hif.adapted i) ∧
        (¬ moved → t = { s with hif := t.hif }) ∧
        (moved → s.RegsButErr t [] ∧ s.MemBut t [(canon (da + 8), 8)] ∧
          memRead t.mem (canon (da + 8)) 8 = natLe 8 (withBits (fieldAt bs 8 8) (if mode = 2 then 31 else 63)
            (if mode = 2 then 16 else 32) v)))) ∧
    (∀ places, (s.bit .placeCtl F.placeCtlEn = false ∨ s.ready = false → Answers (.placementInterval places) s s) ∧
      (s.bit .placeCtl F.placeCtlEn = true → s.ready = true → ∃ t, Answers (.placementInterval places) s t ∧
        t.fld .placeStat F.placeStatIntervals = min (s.fld .placeStat F.placeStatIntervals + 1) F.placeStatIntervals.top ∧
        t.now = s.now ∧ t.host = s.host ∧ t.cores = s.cores ∧ t.hif.qps = s.hif.qps ∧ t.hif.sram = []))

/-- Collectives start, join and move their data; re-shards; groups and global turnstile sets. (R396, R397,
R398, R399, R405, R407, R408, R409, R410, R413.) With the device running, after the aborts that have
arrived. ALL_REDUCE, REDUCE_SCATTER, ALL_GATHER, ALL_TO_ALL and PERMUTE act on the started collective of
their queue, else start the next command if it is theirs; a failed decode completes it with status 3. A
started one completes when every other member has contributed: a version that differs aborts it with
SHARD_STALE, its DST then undefined; REDUCE_SCATTER waits while gradients of its micro-batches are
outstanding; else the reduced or converted elements are written at DST and it completes, counted.
RESHARD_EXECUTE, at the step's boundary after its commits, writes the converted shard of the member that
the table names, and drops the record. GTURN_SET at the root sets VALUE and LIMIT of a global turnstile;
DEFINE_GROUP takes the members from its table; both complete. With nothing to do nothing changes. -/
def Obligations.CollectivesMoveData : Prop :=
  ∀ (s : State) (q : QpId) (peers : List Contribution), s.dead = false →
    let net (t : State) := linkProg (pump t)
    let u := collSweep s
    let plan (c : WcsCmd) (v : State) :=
      let n := v.modNet fun n => { n with serial := (n.serial + 1) % 2 ^ 32 }
      let n := if c.gathers then microReplay q n else n
      if c.trace then n.putUnits (c.w 7) [⟨planBytes 0 0 0 0 0 0 0 4 0 1 0 0 0 n.coreMask 0, false⟩] else n
    (∀ (cmd : Instr) (op : Nat), (cmd, op) ∈ [(Instr.allReduce q peers, 0), (.reduceScatter q peers, 1),
        (.allGather q peers, 2), (.allToAll q peers, 3), (.permute q peers, 4)] →
      let does (t : State) := Answers cmd s (net t)
      (∀ c, u.collWaiting q = some c → let k := collOf c
        (k.op ≠ op ∨ u.joined k peers = false ∨ u.d3Full = true → does u) ∧
        (k.op = op → u.joined k peers = true → u.d3Full = false →
          (∀ f v, ((allSent k peers).run).run u = (.error f, v) → does (failWith q c.id f v)) ∧
          (∀ xs v, ((allSent k peers).run).run u = (.ok xs, v) →
            (∀ x, staleOf k xs = some x → ∃ e d,
              ErrorRaised (collLost k (sendAborts k.group 0 ecShardStale
                ((if c.gathers then microStale q v else v).bump .csrtStat F.csrtStatStale 1))) e ∧
              does (endCmd q c.id ⟨3, ecShardStale, d⟩ e)) ∧
            (staleOf k xs = none →
              (∀ f w, ((collWrite q c k xs).run).run v = (.error f, w) → does (microGo (failWith q c.id f w))) ∧
              ∀ w, ((collWrite q c k xs).run).run v = (.ok (), w) →
                does (microGo (finishCmd q c.id (w.bump .csrtStat F.csrtStatDone 1))) ∧
                let r := v.rankIn k.group
                let ch := ceilDiv k.count (v.members k.group).length
                let es := match op with
                  | 0 => (reduced k xs 0 k.count).1
                  | 1 => (reduced k xs (r * ch) (min k.count ((r + 1) * ch))).1
                  | 2 => xs.flatMap fun x => (List.range k.count).map (convElem k x)
                  | 3 => xs.flatMap fun x => (List.range x.n).map (convElem k x)
                  | _ => match xs.find? fun x => v.entry k 2 x.rank == r with
                    | some x => (List.range k.count).map (convElem k x)
                    | none => []
                let bs := (packElems k.dbits es).map Prod.fst
                (k.dst % 64 = 0 → 0x020000000000 ≤ k.dst → v.parity.units = [] → w.regs = v.regs ∧ w.now = v.now ∧
                  memRead w.mem k.dst bs.length = bs ∧ v.MemBut w [(k.dst, bs.length)]))))) ∧
      (u.collWaiting q = none → op = 1 → microBusy u q = true → does u) ∧
      (u.collWaiting q = none → (u.nextCmd q = none ∨ ∃ c, u.nextCmd q = some c ∧ (c.op ≠ 0x10 ∨ (collOf c).op ≠ op)) → does u) ∧
      (∀ c, u.collWaiting q = none → (op = 1 → microBusy u q = false) → u.nextCmd q = some c → c.op = 0x10 →
        (collOf c).op = op →
        let b := markStarted q c.id (wake u)
        let k := collOf c
        (∀ f v, ((collDecode q c).run).run b = (.error f, v) → does (collTry q peers (failWith q c.id f v))) ∧
        (∀ v, ((collDecode q c).run).run b = (.ok (), v) →
          let p := plan c v
          let g := if op = 4 ∧ k.src = k.dst then
              finishCmd q c.id (p.modQp q fun x => { x with reshards := x.reshards ++ [c.ws] })
            else if k.count = 0 ∧ op ≠ 3 then finishCmd q c.id (p.bump .csrtStat F.csrtStatDone 1) else p
          does (collTry q peers (collSweep g))))) ∧
    (s.atBoundary q = none ∨ (s.qp q).reshards = [] → Answers (.reshardExecute q peers) s (net s)) ∧
    (∀ c ws rest, s.atBoundary q = some c → (s.qp q).reshards = ws :: rest →
      let v := stepCommits q s
      let k := collOf { id := v.hif.nextCmd, ws := ws }
      let r := v.rankIn k.group
      let src := ((List.range (v.members k.group).length).find? fun i => v.entry k 2 i == r).getD r
      let does (t : State) := Answers (.reshardExecute q peers) s (net t)
      (src ≠ r → (∀ p ∈ peers, p.rank ≠ src) → does v) ∧
      (src = r → ∃ t, does t ∧ (t.qp q).reshards = rest ∧ t.mem = v.mem) ∧
      (∀ p, src ≠ r → peers.find? (fun p => p.rank == src) = some p →
        (staleOf k [sentOf p] ≠ none → ∃ e, does (collLost k (sendAborts k.group 0 ecShardStale e)) ∧
          ErrorRaised ((v.bump .csrtStat F.csrtStatStale 1).modQp q fun x => { x with reshards := rest }) e) ∧
        (staleOf k [sentOf p] = none → let bs := (packElems k.dbits ((List.range k.count).map (convElem k (sentOf p)))).map Prod.fst
          ∃ t, does t ∧ (t.qp q).reshards = rest ∧ (k.dst % 64 = 0 → 0x020000000000 ≤ k.dst → v.parity.units = [] →
            memRead t.mem k.dst bs.length = bs ∧ v.MemBut t [(k.dst, bs.length)])))) ∧
    (∀ (cmd : Instr) (op : Nat), (cmd, op) ∈ [(Instr.gturnSet q, 6), (.defineGroup q, 15)] →
      let does (t : State) := Answers cmd s (net t)
      (s.nextCmd q = none ∨ (∃ c, s.nextCmd q = some c ∧ (c.op ≠ 0x10 ∨ (collOf c).op ≠ op)) → does s) ∧
      (∀ c, s.nextCmd q = some c → c.op = 0x10 → (collOf c).op = op →
        let b := markStarted q c.id (wake s)
        let k := collOf c
        (∀ f v, ((collDecode q c).run).run b = (.error f, v) → does (failWith q c.id f v)) ∧
        (∀ v, ((collDecode q c).run).run b = (.ok (), v) → let p := plan c v
          let g := if op = 15 then p.modNet fun n =>
              { n with groups := tabSet n.groups k.group ((List.range k.count).map (p.entry k 2)) }
            else if p.role = 2 then p.setGturn (bitsOf (c.w 1) 15 0) ⟨bitsOf (c.w 2) 31 0, bitsOf (c.w 2) 63 32⟩ else p
          does (collSweep (finishCmd q c.id (g.bump .csrtStat F.csrtStatDone 1))))))

/-- Barriers complete, steps end, collectives time out or are aborted. (R350, R401, R404, R412.) With the
device running. With no abort arrived none acts; one that concerns the only collective that waits ends it
with status 3 and its code. COLLECTIVE_BARRIER arrives at the barrier that is the queue's next command,
and completes a started one that is open, its generation advancing; any other collective that waits stays.
STEP_BOUNDARY, when the command at the head has completed and closes a step, performs the step's commits
and, with no re-shard left, gives its completion entry and removes it; a re-partition decided and the
micro-batches of the step then take effect. COLLECTIVE_STEP_TIMEOUT and COLLECTIVE_WAIT_TIMEOUT count,
send the abort to the other members, raise COLL_TIMEOUT and end the collective with status 3, or drop the
re-shard that the boundary waits for; the first takes ACKTO or its default, the second needs a WAIT. Not
enabled, each leaves the state after the aborts. -/
def Obligations.BarriersBoundariesAndTimeouts : Prop :=
  ∀ (s : State) (q : QpId), s.dead = false →
    let net (t : State) := linkProg (pump t)
    let u := collSweep s
    (s.net.aborts = [] → u = s) ∧
    (∀ a c, s.net.aborts = [a] → a.group ≠ none → s.collWaiting q = some c → abortHits s (collOf c).group a = true →
      (∀ p : QpId, p ≠ q → s.collWaiting p = none) →
      u = (endCmd q c.id ⟨3, a.code, 0⟩ (collLost (collOf c) s)).modNet fun n => { n with aborts := [] }) ∧
    (∀ c, u.collWaiting q = some c →
      let g := (collOf c).group
      let gen := u.barGenOf g
      let go := (collOf c).op = 5 ∧ u.barOpen g = true ∧ u.d3Full = false
      (¬ go → Answers (.collectiveBarrier q) s (net u)) ∧
      (go → Answers (.collectiveBarrier q) s (net (finishCmd q c.id ((u.modNet fun n => { n with
        barriers := n.barriers.filter fun b => !(b.group == g && b.gen == gen)
        barGen := tabSet n.barGen g ((gen + 1) % 2 ^ 32) }).bump .csrtStat F.csrtStatDone 1))))) ∧
    (u.collWaiting q = none →
      (u.nextCmd q = none ∨ (∃ c, u.nextCmd q = some c ∧ (c.op ≠ 0x10 ∨ (collOf c).op ≠ 5)) →
        Answers (.collectiveBarrier q) s (net u)) ∧
      (∀ c, u.nextCmd q = some c → c.op = 0x10 → (collOf c).op = 5 → let b := markStarted q c.id (wake u)
        (∀ f v, ((collDecode q c).run).run b = (.error f, v) →
          Answers (.collectiveBarrier q) s (net (barTry q (failWith q c.id f v)))) ∧
        (∀ v, ((collDecode q c).run).run b = (.ok (), v) → let n := v.modNet fun n => { n with serial := (n.serial + 1) % 2 ^ 32 }
          Answers (.collectiveBarrier q) s (net (barTry q (collSweep (barArriveAt (collOf c).group (if c.trace
            then n.putUnits (c.w 7) [⟨planBytes 0 0 0 0 0 0 0 4 0 1 0 0 0 n.coreMask 0, false⟩] else n)))))))) ∧
    (s.atBoundary q = none → Answers (.stepBoundary q) s s) ∧
    (∀ c e, s.atBoundary q = some c → c.fin = some e →
      let v := stepCommits q s
      ((s.qp q).slots = [] → v = s.modQp q fun x => { x with slots := [] }) ∧
      ((v.qp q).reshards ≠ [] ∨ v.d3Full = true → Answers (.stepBoundary q) s v) ∧
      ((v.qp q).reshards = [] → v.d3Full = false → Answers (.stepBoundary q) s
        (sweep q ((placeBoundary (microBoundary q v)).modQp q fun x =>
          { x with cmds := x.cmds.drop 1, out := x.out ++ entryOf q c e }))) ∧
      (∀ d, (placeBoundary v).net.place.next = none ∧ (v.net.place.next = some d → (placeBoundary v).net.place.now = d)) ∧
      ((v.net.micro.any fun m => m.q == q.val) = true → (v.net.micro.all fun m => m.issued) = true →
        (microBoundary q v).net.micro = v.net.micro.map fun m => { q := m.q })) ∧
    (∀ (peer : DevId) (step : BitVec 16),
      let idle (cmd : Instr) := Answers cmd s (net u)
      let ends (cmd : Instr) (st us : Nat) := (∀ c, u.collWaiting q = some c → ∃ e d,
          ErrorRaised (collLost (collOf c) (sendAborts (collOf c).group st ecCollTimeout
            ((u.advance (c.since + us * usTicks)).bump .csrtStat F.csrtStatTimeouts 1))) e ∧
          Answers cmd s (net (endCmd q c.id ⟨3, ecCollTimeout, d⟩ e))) ∧
        (∀ ws rest, u.collWaiting q = none → (u.qp q).reshards = ws :: rest → ∃ e,
          ErrorRaised (u.bump .csrtStat F.csrtStatTimeouts 1) e ∧
          let k := collOf { id := 0, ws := ws }
          Answers cmd s (net ((collLost k (sendAborts k.group st ecCollTimeout e)).modQp q fun x =>
            { x with reshards := x.reshards.drop 1 })))
      (u.collNow q = none → idle (.collectiveStepTimeout q peer step) ∧ idle (.collectiveWaitTimeout q)) ∧
      (∀ k, u.collNow q = some k →
        (k.op = 6 ∨ k.op = 15 → idle (.collectiveStepTimeout q peer step)) ∧
        (k.op ≠ 6 → k.op ≠ 15 → ends (.collectiveStepTimeout q peer step) step.toNat
          (if k.ackto = 0 then u.fld .csrtCtl F.csrtCtlCollTimeout else k.ackto)) ∧
        (k.wait = 0 → idle (.collectiveWaitTimeout q)) ∧ (k.wait ≠ 0 → ends (.collectiveWaitTimeout q) 0 k.wait)))

/-- Ports train, identify, exchange heartbeats, replay flits, go down; port and node registers. (R368, R371,
R372, R373, R374, R375, R376, R380, R461, R479.) With the device running; `net` lets local traffic settle,
which without any changes nothing but the transport's own records. GP_RETRAIN and XP_RETRAIN of an enabled
port take it down and to TRAINING. LINK_TRAINING_DONE at 8, 4 or 2 lanes makes a gang port identify itself
with PEER, a scale-out port ACTIVE; at fewer the port is DOWN. PORT_RETRAIN_TIMER trains 10 ms after the
port went down. PEER makes a gang port ACTIVE or, where gang, size or rank do not fit, MISMATCH with
CONFIG_CONFLICT. HEARTBEAT_SEND sends 1 µs after the last; HEARTBEAT notes the arrival; HEARTBEAT_TIMEOUT
after 3 µs raises LINK_DOWN and takes the port down. FLIT_REPLAY counts; a fourth failed replay raises
DETECT_LINK and retrains. FCS_FAILURE counts. PORT_CTL_WRITE and CHIP_NODE_WRITE store or raise; ARP for
the own address is answered. -/
def Obligations.LinkPortsTrainAndWatch : Prop :=
  ∀ s : State, s.dead = false →
    let net (t : State) := linkProg (pump t)
    let raised (c : Instr) := ∃ t, Answers c s (net t) ∧ ErrorRaised s t
    let noted (t u : State) := t.fld .errHead F.errHeadSeq = (u.fld .errHead F.errHeadSeq + 1) % 2 ^ 32
    (∀ u : State, u.net.self = [] → (u.peer u.devid).unacked = [] → u.fld (.hifProgStat 2) F.hifProgStatState ≠ 1 →
      net u = { u with net := { u.net with peers := (net u).net.peers } } ∧ ∀ d, (net u).peer d = u.peer d) ∧
    (∀ (c : Instr) (k : Nat), (∃ p : GpId, c = .gpRetrain p ∧ k = p.val) ∨ (∃ p : XpId, c = .xpRetrain p ∧ k = 16 + p.val) →
      (s.portEn k = false ∨ s.chip.pciDown = true → Answers c s (net s)) ∧
      (s.portEn k = true → s.chip.pciDown = false → ∃ t, Answers c s (net t) ∧ t.lpState k = lpTraining ∧
        t = (linkDown k s).setLp k lpTraining)) ∧
    (∀ (p : PortId) (m : PeerMsg) (v : ThreeTimes), let k := portNum p
      let off := s.lpState k ≠ lpActive
      let d := s.fld (.gpStatus k) F.gpStatusPeer
      (∀ n, s.lpState k ≠ lpTraining → Answers (.linkTrainingDone p n) s (net s)) ∧
      (∀ n, s.lpState k = lpTraining → n < 2 → ∃ t, Answers (.linkTrainingDone p n) s (net t) ∧
        (16 ≤ k → t = linkDown k s) ∧ (k < 16 → ErrorRaised (linkDown k s) t)) ∧
      (let wait := s.lpState k = lpDown ∧ s.portEn k = true ∧ s.chip.pciDown = false
       (¬ wait → Answers (.portRetrainTimer p) s (net s)) ∧
       (wait → ∃ t, Answers (.portRetrainTimer p) s (net t) ∧ t.lpState k = lpTraining ∧
        t.now = max s.now ((s.lport k).downAt + 10000 * usTicks) ∧
        s.RegsBut t [if k < 16 then .gpStatus k else .xpStatus (k - 16)] ∧ t = { s with regs := t.regs, now := t.now })) ∧
      (16 ≤ k ∨ s.lpState k ≠ lpIdentify → Answers (.peer p m) s (net s)) ∧
      (k < 16 → s.lpState k = lpIdentify →
        let fits := m.gang.toNat = s.fld .chipNode F.chipNodeGang ∧ m.gsize.toNat = s.fld .chipNode F.chipNodeGsize ∧
          m.rank.toNat ≠ s.fld .chipNode F.chipNodeRank
        ∃ t, Answers (.peer p m) s (net t) ∧ t.fld (.gpStatus k) F.gpStatusPeer = m.dev.val ∧
          t.mem = s.mem ∧ t.cores = s.cores ∧ s.RegsButErr t [.gpStatus k] ∧
          (fits → t.lpState k = lpActive ∧ s.RegsBut t [.gpStatus k] ∧ (t.lport k).hbIn = s.now ∧
            (t.lport k).hbOut = s.now ∧ (t.peer m.dev.val).inGang = true ∧ (t.peer m.dev.val).rank = m.rank.toNat) ∧
          (¬ fits → t.lpState k = lpMismatch ∧ noted t s ∧ t.net = s.net)) ∧
      (off ∨ s.bit .chipNode F.chipNodeIdValid = false → Answers (.heartbeatSend p) s (net s)) ∧
      (¬ off → s.bit .chipNode F.chipNodeIdValid = true →
        (k < 16 → ∃ t, Answers (.heartbeatSend p) s (net t) ∧ t.now = max s.now ((s.lport k).hbOut + usTicks) ∧
          (t.lport k).hbOut = t.now ∧ (t.lport k).hbIn = (s.lport k).hbIn ∧ t.net.out = s.net.out ++
            [⟨k, none, d, 0, (s.peer d).ack, (s.peer d).eceDue, false,
              .heartbeat t.timeNow (s.lport k).peerSent (s.lport k).peerAt, none, none⟩] ∧
          (t.fld (.gpCnt k) F.gpCntHbMiss = if (s.lport k).hbIn ≤ (s.lport k).hbOut
            then min (s.fld (.gpCnt k) F.gpCntHbMiss + 1) F.gpCntHbMiss.top else s.fld (.gpCnt k) F.gpCntHbMiss) ∧
          s.RegsBut t [.gpCnt k] ∧ t.mem = s.mem) ∧
        (16 ≤ k → s.fld .chipNode F.chipNodeRank ≠ 0 ∨ s.rootDev = s.devid → Answers (.heartbeatSend p) s (net s)) ∧
        (16 ≤ k → s.fld .chipNode F.chipNodeRank = 0 → s.rootDev ≠ s.devid →
          let u := s.advance (s.net.lastTime + 100 * usTicks)
          Answers (.heartbeatSend p) s (net ((u.send s.rootDev
            (.time u.timeNow (s.lport 16).peerSent (s.lport 16).peerAt) false none).modNet fun n =>
              { n with lastTime := u.now })))) ∧
      (16 ≤ k ∨ off → Answers (.heartbeat p v) s (net s) ∧ Answers (.heartbeatTimeout p) s (net s)) ∧
      (k < 16 → ¬ off →
        let h := s.modLport k fun l => { l with hbIn := s.now, peerSent := v.sent.toNat, peerAt := s.timeNow }
        let samples := (s.peer d).rank = 0 ∧ s.fld .chipNode F.chipNodeRank ≠ 0
        (samples → Answers (.heartbeat p v) s (net (timeSample d 1 v h))) ∧
        (¬ samples → Answers (.heartbeat p v) s (net h)) ∧
        ∃ u, ErrorRaised (s.advance ((s.lport k).hbIn + 3 * usTicks)) u ∧
          Answers (.heartbeatTimeout p) s (net (linkDown k u)))) ∧
    (∀ (p : GpId) (n : Nat), s.lpState p = lpTraining → 2 ≤ n →
      let lanes := if 8 ≤ n then 8 else if 4 ≤ n then 4 else 2
      let g (f : Fld) := s.fld .chipNode f
      ∃ t, Answers (.linkTrainingDone (.gp p) n) s (net t) ∧ t.lpState p = lpIdentify ∧
        t.fld (.gpStatus p) F.gpStatusLanes = lanes ∧ (8 ≤ n → s.RegsBut t [.gpStatus p]) ∧
        s.RegsButErr t [.gpStatus p] ∧ t.mem = s.mem ∧ t.net.out = s.net.out ++ [⟨p, none, 0, 0, 0, false, false,
          .peer (g F.chipNodeDevid) (g F.chipNodeGang) (g F.chipNodeRank) (g F.chipNodeGsize) p, none, none⟩]) ∧
    (∀ (p : XpId) (n : Nat) (ip : BitVec 128),
      (s.lpState (16 + p) = lpTraining → 2 ≤ n → ∃ t, Answers (.linkTrainingDone (.xp p) n) s (net t) ∧
        t.lpState (16 + p) = lpActive ∧ s.OnlyRegs t [.xpStatus p] ∧
        t.fld (.xpStatus p) F.xpStatusLanes = if 8 ≤ n then 8 else if 4 ≤ n then 4 else 2) ∧
      (let own := s.lpState (16 + p) = lpActive ∧ ip.toNat = s.word (.xpIp p 0) + s.word (.xpIp p 1) * 2 ^ 64
       (¬ own → Answers (.arp p ip) s (net s)) ∧
       (own → Answers (.arp p ip) s (net (s.modNet fun n => { n with
         out := n.out ++ [⟨16 + p, none, 0, 0, 0, false, false, .arp ip (s.fld (.xpAddr p) F.xpAddrMac), none, none⟩] })))) ∧
      (let u := s.bump .winCnt F.winCntRefused 1
       let recent := ∃ x, (s.lport (16 + p)).detAt = some x ∧ s.now < x + 1000 * usTicks
       (recent → Answers (.fcsFailure p) s (net u)) ∧
       (¬ recent → ∃ t, Answers (.fcsFailure p) s (net t) ∧ noted t s ∧ (t.lport (16 + p)).detAt = some s.now ∧
         t.fld .winCnt F.winCntRefused = u.fld .winCnt F.winCntRefused ∧ s.RegsButErr t [.winCnt] ∧ t.mem = s.mem))) ∧
    (∀ (p : GpId) (seq : BitVec 12), (s.lpState p ≠ lpActive → ∀ ok, Answers (.flitReplay p seq ok) s (net s)) ∧
      (s.lpState p = lpActive → let u := s.bump (.gpCnt p) F.gpCntReplays 1
        Answers (.flitReplay p seq true) s (net (u.modLport p fun l => { l with replays := 0 })) ∧
        ((s.lport p).replays < 3 → Answers (.flitReplay p seq false) s
          (net (u.modLport p fun l => { l with replays := (s.lport p).replays + 1 }))) ∧
        (3 ≤ (s.lport p).replays → ∃ w, ErrorRaised u w ∧ Answers (.flitReplay p seq false) s
          (net (retrain p (w.modLport p fun l => { l with replays := 0 })))))) ∧
    (∀ (r : Requester) (v : Word),
      (∀ p : GpId, let u := portEnable p (s.plainWrite (.gpCtl p) v.toNat)
        Answers (.portCtlWrite r (.gp p) v) s (net (if F.gpCtlRetrain.of v.toNat = 1 then retrain p u else u)) ∧
        (s.lpState p = lpDisabled → F.gpCtlEn.of v.toNat = 1 → u.lpState p = lpTraining) ∧
        (F.gpCtlEn.of v.toNat = 0 → s.lpState p ≠ lpActive → u.lpState p = lpDisabled)) ∧
      (∀ p : XpId, let same (f : Fld) := f.of v.toNat = s.fld (.xpCtl p) f
        let locked := s.lpState (16 + p) = lpActive ∧
          ¬ (same F.xpCtlUdpPort ∧ same F.xpCtlMaxlen ∧ same F.xpCtlIpv6 ∧ same F.xpCtlSpeed)
        let u := portEnable (16 + p) (s.plainWrite (.xpCtl p) v.toNat)
        (locked → raised (.portCtlWrite r (.xp p) v)) ∧
        (¬ locked → Answers (.portCtlWrite r (.xp p) v) s
          (net (if F.xpCtlRetrain.of v.toNat = 1 then retrain (16 + p) u else u)))) ∧
      (let up := ∃ p ∈ allPorts, s.lpState p ≠ lpDisabled ∧ s.lpState p ≠ lpDown
       let size := F.chipNodeGsize.of v.toNat
       (up ∨ size = 0 ∨ 8 < size → raised (.chipNodeWrite r v)) ∧
       (¬ up → 1 ≤ size → size ≤ 8 → ∃ t, Answers (.chipNodeWrite r v) s (net t) ∧ s.OnlyRegs t [.chipNode] ∧
         ∀ f ∈ regFields .chipNode, f.acc = .rw → t.fld .chipNode f.fld = f.fld.of v.toNat)))

/-- Messages of the window transport act in the order of their SEQ; acknowledgements, resends and credits.
(R374, R378, R381, R383, R388, R389, R390, R391, R392, R415.) With the device running, DATA, CRED_REQ,
CRED_GRANT, REFUSE, CRED_RETURN, TIME, GTURN, CSTEP and barrier messages arriving on a port that is not
ACTIVE, without an identity, or from the device itself act not at all. One of another version or a wrong
LENGTH is discarded and counted; one for another device is relayed over a gang port to it, and dropped on
a scale-out port. Otherwise the ACK field and the congestion marks of the header act first; a message
whose SEQ is the next expected one acts, followed by the held ones; one already seen only asks for an
acknowledgement; a later one is held on a gang port and counted and discarded on a scale-out port. DATA of
a wrong length is counted. After a CSTEP the aborts end the collectives that they concern; after a barrier
message the manager roles pass it on and open barriers complete. ACK_TIMER sends the acknowledgement due;
RESEND_TIMER resends the message due first or gives the peer up after its third; ECN_RATE_STEP raises the
rate; an unused credit expires 100 µs after its grant at the window and goes back 60 µs after it at the
sender; a transfer that waited too long fails with NO_CREDIT. -/
def Obligations.MessagesActInOrder : Prop :=
  ∀ s : State, s.dead = false →
    let net (t : State) := linkProg (pump t)
    (∀ (p : PortId) (h : BwtHeader) (c : Instr) (m : Msg) (after : State → State),
      (∃ (g : Byte) (n : W32) (x : BitVec 16) (ab : Bool) (e : Byte), c = .cstep p h g n x ab e ∧ after = collSweep ∧
        m = .cstep g.toNat n.toNat x.toNat ab e.toNat) ∨
      (∃ (g : Byte) (n : W32) (rel : Bool), c = .barrierMessage p h g n rel ∧ m = .barrier g.toNat n.toNat rel ∧
        after = fun r => if r.net.barriers.length = s.net.barriers.length then r else
          (List.range 64).foldl (fun t q => barTry q t) (barRelay g.toNat n.toNat
            ((r.net.barriers.getLast?.map BarMsg.dev).getD 0) rel r)) ∨
      after = id ∧ (
      (∃ d : DataMsg, c = .data p h d ∧ m = .data d.token.toNat d.offset.toNat (dataUnits d) ∧
        d.units ≠ [] ∧ d.units.length ≤ 64 ∧ ∀ u ∈ d.units, u.length = 64) ∨
      (∃ (w : BitVec 10) (k : BitVec 16) (i : W32), c = .credReq p h w k i ∧ m = .credReq w.toNat k.toNat i.toNat) ∨
      (∃ (w : BitVec 10) (k : BitVec 16) (i x : W32), c = .credGrant p h w k i x ∧
        m = .credGrant w.toNat k.toNat i.toNat x.toNat) ∨
      (∃ (i : W32) (e : Byte) (q : Bool), c = .refuse p h i e q ∧ m = .refuse i.toNat e.toNat q) ∨
      (∃ (x : W32) (k : BitVec 16), c = .credReturn p h x k ∧ m = .credReturn x.toNat k.toNat) ∨
      (∃ x : ThreeTimes, c = .timeMessage p h x ∧ m = .time x.sent.toNat x.echo.toNat x.arrived.toNat) ∨
      (∃ x : GturnMsg, c = .gturnMessage p h x ∧ m = gturnBody x) ∨ (c = .ack p h ∧ m = .ack)) →
      let k := portNum p
      let d := h.src.val
      let q := h.seq.toNat
      let deaf := s.lpState k ≠ lpActive ∨ s.bit .chipNode F.chipNodeIdValid = false ∨ d = s.devid
      let isTime := ∃ x, c = .timeMessage p h x
      let does (r : State) := Answers c s (net (after r))
      let broken := h.ver ≠ 1 ∨ h.length.toNat ≠ m.bytes
      (deaf → does s) ∧
      (¬ deaf → broken → does (s.bump .winCnt F.winCntRefused 1)) ∧
      (¬ deaf → ¬ broken → h.dst.val ≠ s.devid → (16 ≤ k → does s) ∧
        (k < 16 → (wake s).gpTo h.dst.val = [] → does (wake s)) ∧
        ∀ g gs, k < 16 → (wake s).gpTo h.dst.val = g :: gs → does ((wake s).modNet fun n => { n with
          out := n.out ++ [⟨g, none, h.dst.val, q, h.ack.toNat, h.ece, h.notify, m, some d, none⟩] })) ∧
      (¬ deaf → ¬ broken → h.dst.val = s.devid → ∀ u a b : State, (isTime → u = s) → (¬ isTime → u = wake s) →
        a = (if h.ece then eceArrive d (ackArrive d h.ack.toNat u) else ackArrive d h.ack.toNat u) →
        (b = if h.ce ∧ 16 ≤ k then
          (a.bump (.xpCnt (k - 16)) F.xpCntEcnCe 1).modPeer d fun r => { r with eceDue := true } else a) →
        let next := (b.peer d).rxNext
        (c = .ack p h → does b) ∧
        (c ≠ .ack p h →
          (q = next → let e := b.modPeer d fun r => { r with
              rxNext := (r.rxNext + 1) % 2 ^ 32, ackSince := some (r.ackSince.getD b.now) }
            does (deliverHeld d 1024 (deliver (decide (16 ≤ k)) d q h.notify m e))) ∧
          (q ≠ next → seqBefore q next = true → does
            (b.modPeer d fun r => { r with ackSince := some (r.ackSince.getD b.now) })) ∧
          (q ≠ next → seqBefore q next = false → 16 ≤ k → does (b.bump .winCnt F.winCntRefused 1)) ∧
          (q ≠ next → seqBefore q next = false → k < 16 → (∀ y ∈ (b.peer d).held, y.seq ≠ q) → does
            (b.modPeer d fun r => { r with held := r.held ++ [⟨q, h.notify, false, m⟩] }))))) ∧
    (∀ (p : PortId) (h : BwtHeader) (d : DataMsg), d.units = [] ∨ 64 < d.units.length ∨ (∃ u ∈ d.units, u.length ≠ 64) →
      Answers (.data p h d) s (net (s.bump .winCnt F.winCntRefused 1))) ∧
    (∀ d : DevId, let r := s.peer d
      let timed (n : Nat) := if n = 0 then 8 else if n = 1 then 20 else 30
      let due (x : TxMsg) := x.first + timed x.tries * usTicks
      (r.ackSince = none → Answers (.ackTimer d) s (net s)) ∧
      (∀ x, r.ackSince = some x → Answers (.ackTimer d) s (net ((s.advance (x + 200 * fabTicks)).send d .ack false none))) ∧
      (r.inGang = true ∨ d.val = s.devid ∨ r.unacked = [] → Answers (.resendTimer d) s (net s)) ∧
      (∀ as x bs, r.inGang = false → d.val ≠ s.devid → r.unacked = as ++ x :: bs → (∀ y ∈ as, due x < due y) →
        (∀ y ∈ bs, due x ≤ due y) → let u := s.advance (due x)
        (2 ≤ x.tries → Answers (.resendTimer d) s (net (failPeer d 2 u))) ∧
        (x.tries < 2 → ∃ t, Answers (.resendTimer d) s (net (emit d x.seq x.notify x.msg t)) ∧ t.now = u.now ∧
          t.mem = s.mem ∧ s.RegsBut t [.xpCnt 0, .xpCnt 1, .xpCnt 2, .xpCnt 3] ∧ (t.peer d).unacked =
            r.unacked.map fun y => if y.seq = x.seq then { y with tries := y.tries + 1 } else y)) ∧
      (∃ t, Answers (.ecnRateStep d) s (net t) ∧ t.now = max s.now (r.lastEce + 10 * usTicks) ∧
        t.peer d = { r with rate := min (r.rate + 1 / 64) 1, lastEce := t.now } ∧ t.mem = s.mem ∧ t.regs = s.regs ∧
        ∀ e, e ≠ d.val → t.peer e = s.peer e) ∧
      (∀ token : W32, ((∀ c ∈ s.net.creds, c.dev ≠ d.val ∨ c.token ≠ token.toNat) →
          Answers (.senderCreditRetire d token) s (net s)) ∧
        (∀ as c bs, s.net.creds = as ++ c :: bs → c.dev = d.val → c.token = token.toNat →
          (∀ e ∈ as, e.dev ≠ d.val ∨ e.token ≠ token.toNat) → Answers (.senderCreditRetire d token) s
            (net (((s.advance (c.arr + 60 * usTicks)).modNet fun n => { n with creds := as ++ bs }).send d
              (.credReturn token.toNat 1) false none)))) ∧
      (∀ i : Nat, let waits := s.net.remTx.filter fun x => x.dev == d.val && x.parts != []
        (waits.length ≤ i → Answers (.creditWaitTimeout d i) s (net s)) ∧
        (∀ x, waits[i]? = some x → Answers (.creditWaitTimeout d i) s (net (txFail x.ref ecNoCredit (peerField d)
          (s.advance (x.since + max 1 (s.fld .winGctl F.winGctlCredWait) * usTicks))))))) ∧
    (∀ (w : WinId) (i : Nat), let unused (c : Credit) := c.index = i ∧ c.used = false
      ((∀ c ∈ (s.win w).credits, ¬ unused c) → Answers (.creditExpiry w i) s (net s)) ∧
      (∀ as c bs, (s.win w).credits = as ++ c :: bs → unused c → (∀ e ∈ as, ¬ unused e) →
        Answers (.creditExpiry w i) s (net (creditReturn w i (s.advance (c.granted + 100 * usTicks))))))

/-- Receive windows open, close and are forced; accumulate windows; managers; division of work; time; global
turnstiles. (R261, R313, R387, R394, R395, R403, R404, R413, R414, R415.) With the device running. The
host's writes of windows 0-63 conflict. WIN_LOCAL stores on a CLOSED window a legal range.
WIN_CONFIG_WRITE stores unless a guarded field would change on an open window or CREDITS exceeds 4,096.
WINDOW_OPEN of a CLOSED window whose range, exports and accumulate fields are legal advances EPOCH and
makes it OPEN. WINDOW_CLOSE makes an OPEN window CLOSING, CLOSED with no credit out; WINDOW_FORCE makes it
CLOSED without credits; both refuse what waits. ACCUM_WINDOW_VISIBLE makes the oldest finished DATA
visible. MANAGER_HEARTBEAT counts misses over 100 µs; three make a device not alive; a job is divided:
columns and heads in consecutive parts, experts one more or less per device, by parameters or, after 16
steps, measured costs. TIME_SLEW moves the time by one tick towards the offset. GTURN_RESULT writes the
result to CM, unless a shadow rule suppresses it, and signals. -/
def Obligations.WindowsOpenCloseAndManagersWatch : Prop :=
  ∀ s : State, s.dead = false →
    let net (t : State) := linkProg (pump t)
    let raised (c : Instr) := ∃ t, Answers c s (net t) ∧ ErrorRaised s t
    (∀ (r : Requester) (w : WinId) (v : Word),
      let st := Reg.winStat w
      let barred := r = .host ∧ w.val < 64
      let legal := winRangeOk s (F.winLocalBase.of v.toNat * 4096) (F.winLocalPages.of v.toNat * 4096) = true
      (barred → raised (.winLocalWrite r w v) ∧ raised (.windowOpen r w v) ∧ raised (.windowClose r w) ∧
        raised (.windowForce r w) ∧ ∀ g, raised (.winConfigWrite r w g v)) ∧
      (¬ barred →
        (s.winState w ≠ winClosed ∨ ¬ legal → raised (.winLocalWrite r w v)) ∧
        (s.winState w = winClosed → legal → ∃ t, Answers (.winLocalWrite r w v) s (net t) ∧ s.OnlyRegs t [.winLocal w] ∧
          t.fld (.winLocal w) F.winLocalBase = F.winLocalBase.of v.toNat ∧
          t.fld (.winLocal w) F.winLocalPages = F.winLocalPages.of v.toNat) ∧
        (∀ g : WinReg, let reg := match g with
            | .ctl => Reg.winCtl w
            | .perm => .winPerm w
            | .cmpl => .winCmpl w
          let guarded := match g with
            | .ctl => F.winCtlXbase.of v.toNat ≠ s.fld reg F.winCtlXbase ∨ F.winCtlCredits.of v.toNat ≠ s.fld reg F.winCtlCredits
            | .perm => False
            | .cmpl => True
          let bad := (guarded ∧ s.winState w ≠ winClosed) ∨ (g = .ctl ∧ 4096 < F.winCtlCredits.of v.toNat)
          (bad → raised (.winConfigWrite r w g v)) ∧
          (¬ bad → ∃ t, Answers (.winConfigWrite r w g v) s (net t) ∧ s.OnlyRegs t [reg] ∧
            ∀ f ∈ regFields reg, f.acc = .rw → t.fld reg f.fld = f.fld.of v.toNat)) ∧
        (let x := F.winCtlOpen.put v.toNat 1
          let plain := s.plainWrite (.winCtl w) x
          let f := winCfgFault w (.winCtl w) x s
          ∃ u o, (f = 0 → u = plain) ∧ (f ≠ 0 → ErrorRaised s u) ∧
            (let c := if F.winCtlClose.of v.toNat = 1 then winCloseOp w o else o
             Answers (.windowOpen r w v) s (net (if F.winCtlForce.of v.toNat = 1 then winForceOp w c else c))) ∧
            (s.winState w ≠ winClosed → s.winState w ≠ winClosing → o = u) ∧
            (s.winState w = winClosing ∨ (s.winState w = winClosed ∧ winOpenFault w u ≠ 0) → ErrorRaised u o) ∧
            (s.winState w = winClosed → winOpenFault w u = 0 → o.winState w = winOpen ∧
              o.fld st F.winStatEpoch = (s.fld st F.winStatEpoch + 1) % 2 ^ 6 ∧ u.RegsBut o [st] ∧
              o.win w = { s.win w with next := 0 } ∧ (∀ i : WinId, i ≠ w → o.win i = s.win i) ∧
              o = { u with regs := o.regs, net := { u.net with wins := o.net.wins } })) ∧
        (s.winState w ≠ winOpen → Answers (.windowClose r w) s (net s)) ∧
        (s.winState w = winClosed → Answers (.windowForce r w) s (net s)) ∧
        (s.winState w = winOpen → let u := refuseQueued w (s.setFld st F.winStatState winClosing)
          ∃ t, Answers (.windowClose r w) s (net t) ∧ u.RegsBut t [st] ∧ t = { u with regs := t.regs } ∧
            ((s.win w).reqs = [] → t.winState w = if (s.win w).credits = [] then winClosed else winClosing)) ∧
        (s.winState w ≠ winClosed → let u := refuseQueued w (s.setFld st F.winStatState winClosed)
          ∃ t, Answers (.windowForce r w) s (net t) ∧ (t.win w).credits = [] ∧ u.RegsBut t [st] ∧
            (∀ i : WinId, i ≠ w → t.win i = u.win i) ∧ ((s.win w).reqs = [] → t.winState w = winClosed)))) ∧
    (∀ w : WinId, let v := s.winSettle
      let busy (l : Landing) := l.core ≠ none ∨ l.cmds.any (ghHeld v) = true
      ((∀ x ∈ s.net.wins, ∀ l ∈ x.2.landings, l.core = none) → v = s) ∧
      ((∀ l ∈ (v.win w).landings, busy l) → Answers (.accumWindowVisible w) s (net v)) ∧
      (∀ as l bs, (v.win w).landings = as ++ l :: bs → (∀ x ∈ as, busy x) → ¬ busy l →
        Answers (.accumWindowVisible w) s (net (dataVisible w l.dev l.seq l.index l.units
          l.notify (v.modWin w fun x => { x with landings := as ++ bs }))))) ∧
    (∀ n g : Nat, 0 < g → (columnPart n g 0).1 = 0 ∧ (headPart n g 0).1 = 0 ∧
      (∀ r, (columnPart n g r).2 ≤ ceilDiv n g ∧ (tileColumns n g r).sum = (columnPart n g r).2 ∧
        (headPart n g r).2 ≤ ceilDiv n g ∧ (r + 1 < g → (columnPart n g (r + 1)).1 = (columnPart n g r).1 + (columnPart n g r).2 ∧
          (headPart n g (r + 1)).1 = (headPart n g r).1 + (headPart n g r).2) ∧
        (r + 1 = g → (columnPart n g r).1 + (columnPart n g r).2 = n ∧ (headPart n g r).1 + (headPart n g r).2 = n))) ∧
    (∀ (ws : List Nat) (d : Nat), 0 < d → ws ≠ [] → let held := expertPart ws d
      held.length = d ∧ (∀ e, e < ws.length ↔ ∃ es ∈ held, e ∈ es) ∧
      (d ≤ ws.length → (held.flatten).Nodup ∧ ∀ es ∈ held, ws.length / d ≤ es.length ∧ es.length ≤ ws.length / d + 1)) ∧
    (∀ (beats : List MgrBeat) (plan : Option JobPlan) (loads : Option StepLoads), let now := max s.now (s.net.lastBeat + 100 * usTicks)
      ∃ x, x.now = now ∧ x.net.lastBeat = now ∧ x.regs = s.regs ∧ x.mem = s.mem ∧ x.cores = s.cores ∧
        ((beats.map fun b => b.dev.val).Nodup → ∀ b ∈ beats, (x.peer b.dev.val).role = b.role.val ∧
          (x.peer b.dev.val).misses = (if b.ok then 0 else (s.peer b.dev.val).misses + 1) ∧
          ((x.peer b.dev.val).alive = true ↔ (x.peer b.dev.val).misses < 3)) ∧
        (∀ d, (∀ b ∈ beats, b.dev.val ≠ d) → x.peer d = s.peer d) ∧
        let y := beats.foldl (fun t b =>
          if b.role.val ≠ 0 ∧ (t.peer b.dev.val).misses = 3 then replaceManager b beats t else t) x
        ∃ z w, (plan = none → z = y) ∧ (loads = none → w = z) ∧
          (∀ p, plan = some p → z.net.micro = p.micro.map (fun q => { q := q.val }) ∧
            z.net.place = { plan := p, now := divide { plan := p } } ∧
            z = { y with net := { y.net with micro := z.net.micro, place := z.net.place } }) ∧
          (∀ l, loads = some l → let old := z.net.place
            let new := w.net.place
            new = { old with steps := old.steps + 1, expLoad := addLoads old.expLoad l.experts,
                             layLoad := addLoads old.layLoad l.layers, next := new.next } ∧
            new.next = (if divide { new with next := old.next } = old.now then none else some (divide { new with next := old.next })) ∧
            w = { z with net := { z.net with place := new } }) ∧
          Answers (.managerHeartbeat ⟨beats, plan, loads⟩) s (net w)) ∧
    (s.net.slew = 0 → Answers .timeSlew s (net s)) ∧
    (s.net.slew ≠ 0 → ∃ t, Answers .timeSlew s (net t) ∧
      t.now = max s.now (max s.now (s.net.lastSlew + 15 * timeTicks) + timeTicks) ∧ t.net.lastSlew = t.now ∧
      t.time = (if 0 < s.net.slew then s.time + 1 else s.time - 1) ∧
      t.net.slew.natAbs + 1 = s.net.slew.natAbs ∧ t.regs = s.regs ∧ t.mem = s.mem) ∧
    (∀ n : CoreId, ((∀ g ∈ (s.core n).gturns, g.res = none) → Answers (.gturnResult n) s s) ∧
      (∀ as g bs x, (s.core n).gturns = as ++ g :: bs → (∀ e ∈ as, e.res = none) → g.res = some x →
        let a := coreBase n + g.off
        let (b, bad) := bgReach 14 a 8 true (s.modCore n fun c => { c with gturns := as ++ bs })
        (bad = true → Answers (.gturnResult n) s (b.signal n g.event {})) ∧
        (∀ (o : Fin (cmSize / 8)) (e : Fin 64), bad = false → g.off = 8 * o.val → g.event = e.val →
          ∃ t, Answers (.gturnResult n) s t ∧ memRead t.mem a 8 = natLe 8 x.toNat ∧ b.MemBut t [(a, 8)] ∧
            bitAt (t.word (.scEvent n)) e = true ∧ b.RegsBut t [.scEvent n, .scEvstat n e])))

/-- Clock loss, P-states, voltage raises, the Bellows tick, FAST_THROTTLE_N, the thermal trip, idle states.
(R423, R424, R425, R427, R428, R431, R432, R435, R437, R438, R439, R440.) With the device running (the pin
in any state). REF_LOSS holds the die after 1 µs. PSTATE_SWITCH moves a core to the demanded P-state at
the next 240-tick boundary, its cycle count kept, if the voltage allows. VCORE_RAISE stores the voltage
and ends a raise that it reaches; its timeout abandons the raise, sets VR_FAIL and blocks further ones.
BELLOWS_TICK, at the next µs, stores the readings, the refresh rates, the ceiling and the target: P4 at
105 °C, one state slower above the cap, at most one faster and only within the prediction; a sensor at 110
°C, or at 105 °C for 1,000 ticks on end, trips. BLW_CAP takes 600 to 1,800 W. The pin's assertion drops a
raise and counts, its release holds the demand, which then ends. THERMAL_TRIP at 110 °C raises and holds
the device. IDLE_ENTRY enters the next deeper permitted state after its dwell; any wake returns to I0,
counted, after its time, one from I4 that fails a step by a cold boot from stage 2; HIF_WAKE_TOL stores,
and wakes where it excludes the state. -/
def Obligations.PowerGovernorAndIdleStates : Prop :=
  ∀ s : State,
    let raised (c : Instr) := ∃ t, Answers c s t ∧ ErrorRaised s t
    let quiet := (∀ d, (s.peer d).unacked = []) ∧ s.net.remTx = []
    (s.dead = false →
      (∃ t, Answers .refLoss s t ∧ t.bit .clkStatus F.clkStatusRefLoss = true ∧ t.bit .clkStatus F.clkStatusRootLock = false ∧
        t.dead = true ∧ t.now = s.now + usTicks ∧ s.RegsBut t [.clkStatus, .hifAdvice] ∧ t.mem = s.mem ∧ t.cores = s.cores) ∧
      (∀ n : CoreId, let old := s.fld (.clkCorePs n) F.clkCorePsEff
        let new := s.demand n
        let go := new ≠ old ∧ (old < new ∨ psMv new ≤ s.fld .clkStatus F.clkStatusVcoreMeas + 10)
        (¬ go → Answers (.pstateSwitch n) s s) ∧
        (go → ∃ t, Answers (.pstateSwitch n) s t ∧ t.fld (.clkCorePs n) F.clkCorePsEff = new % 8 ∧
          t.now = (s.now / 240 + 1) * 240 ∧ t.cyc n = s.cyc n ∧ t.fld (.clkCorePs n) F.clkCorePsSwitches =
            min (s.fld (.clkCorePs n) F.clkCorePsSwitches + 1) F.clkCorePsSwitches.top ∧
          s.RegsBut t [.clkCorePs n, .clkStatus] ∧ t.mem = s.mem ∧ (new < old → s.RegsBut t [.clkCorePs n]))) ∧
      (∀ mv : Nat, ∃ t, Answers (.vcoreRaise mv) s t ∧ s.RegsBut t [.clkStatus] ∧
        t.fld .clkStatus F.clkStatusVcoreMeas = mv % (F.clkStatusVcoreMeas.top + 1) ∧
        t.power.raise = s.power.raise.filter (fun r => decide (mv + 10 < r.mv)) ∧
        t = { s with regs := t.regs, power := { s.power with raise := t.power.raise } }) ∧
      (s.power.raise = none → Answers .vcoreRaiseTimeout s s) ∧
      (∀ r, s.power.raise = some r → ∃ t, Answers .vcoreRaiseTimeout s t ∧ t.power.raise = none ∧ t.power.block = 1000 ∧
        t.now = max s.now (r.sent + 640 * fabTicks + 20 * usTicks) ∧ t.bit .blwStat F.blwStatVrFail = true ∧
        t.pb = max s.pb r.pb % 8 ∧ s.RegsButErr t [.blwStat] ∧ t.mem = s.mem) ∧
      (∀ (watts : Nat) (temps est : List Nat), let hot := (hottest temps).1
        let cap := s.fld .blwCap F.blwCapCap
        let trips := ∃ i < 64, 110 * 16 ≤ tempOf (temps.getD i 0) ∨ 1000 ≤ (hotRunsOf temps s.power.hotRuns).getD i 0
        ∃ t, Answers (.bellowsTick watts temps est) s t ∧ t.now = (s.now / usTicks + 1) * usTicks ∧ t.mem = s.mem ∧
          (trips → t.power.trip = true) ∧ t.power.hotRuns = hotRunsOf temps s.power.hotRuns ∧
          (∀ i < temps.length, i < 64 → (hotRunsOf temps s.power.hotRuns).getD i 0 =
            if 105 * 16 ≤ tempOf (temps.getD i 0) then s.power.hotRuns.getD i 0 + 1 else 0) ∧
          (¬ trips → t.power.trip = s.power.trip ∧ t.fld .blwStat F.blwStatPkgW = watts % 2 ^ 16 ∧
            t.fld .blwStat F.blwStatCeil = ceiling t.ft hot (cap - watts : Int) cap ∧
            (∀ k : StackId, 52 + k.val < temps.length → (t.bit (.ghStatus k) F.ghStatusRefresh2x = true ↔
              s.bit (.ghStatus k) F.ghStatusRaw = true ∨ 85 * 16 < tempOf (temps.getD (52 + k) 0))) ∧
            (t.pb < s.pb → predictFits s watts cap s.pb t.pb = true) ∧
            (105 * 16 ≤ hot → t.pb = 4) ∧ (hot < 105 * 16 → cap < watts → t.pb = min (s.pb + 1) 4) ∧
            (s.pb ≤ 4 → t.pb ≤ 4 ∧ s.pb ≤ t.pb + 1) ∧ (100 * 16 ≤ hot → s.pb ≤ 4 → s.pb ≤ t.pb) ∧
            (∀ n : CoreId, t.fld (.clkCorePs n) F.clkCorePsEff = s.fld (.clkCorePs n) F.clkCorePsEff) ∧
            (temps.length ≤ 64 → ∀ i < temps.length, t.fld (.blwTemp i) F.blwTempTemp = temps.getD i 0 % 2 ^ 16))) ∧
      (∀ (r : Requester) (v : Word), let c := F.blwCapCap.of v.toNat
        (c < 600 ∨ 1800 < c → raised (.blwCapWrite r v)) ∧
        (600 ≤ c → c ≤ 1800 → ∃ t, Answers (.blwCapWrite r v) s t ∧ t.fld .blwCap F.blwCapCap = c ∧
          s.RegsBut t [.blwCap, .blwStat] ∧ (s.fld .blwCap F.blwCapCap ≤ c → s.OnlyRegs t [.blwCap]) ∧
          (c < s.fld .blwCap F.blwCapCap → t.power.raise = none))) ∧
      (s.power.pin = true ∨ s.power.hold = 0 → Answers .ftHoldExpiry s s) ∧
      (s.power.pin = false → s.power.hold ≠ 0 → ∃ t, Answers .ftHoldExpiry s t ∧ t.power.hold = 0 ∧ t.power.step = 2 ∧
        t.now = max s.now ((s.now / usTicks + s.power.hold) * usTicks) ∧ t.fld .blwStat F.blwStatFt = 0 ∧
        s.RegsBut t [.blwStat, .clkStatus] ∧ t.mem = s.mem) ∧
      (∀ (i : Fin 64) (x : BitVec 16), (tempOf x.toNat < 110 * 16 → Answers (.thermalTrip i x) s s) ∧
        (110 * 16 ≤ tempOf x.toNat → ∃ t, Answers (.thermalTrip i x) s t ∧ t.power.trip = true ∧ t.dead = true ∧
          t.mem = s.mem ∧ t.now = s.now ∧ (quiet → ∀ p : GpId, t.lpState p = lpDown))) ∧
      (∀ st : Fin 5, let go := st.val = s.fld .hifIdle F.hifIdleState + 1 ∧ st.val ≤ s.deepest
        (¬ go → Answers (.idleEntry st) s s) ∧
        (go → ∃ t, Answers (.idleEntry st) s t ∧
          (st.val < 4 ∨ quiet → t.fld .hifIdle F.hifIdleState = st.val) ∧
          t.now = max s.now (s.power.idleSince + idleDwellNs st * fabTicks) + idleEntryNs st * fabTicks ∧
          (st.val ≤ 2 → ∀ a, isEngine a = false → memByte t.mem a = memByte s.mem a) ∧
          (st.val = 1 → t.mem = s.mem) ∧
          (st.val = 4 → t.cores = [] ∧ ∀ a, isOrangery a = true → memByte t.mem a = 0) ∧ (2 ≤ st.val → ∀ a, isEngine a = true → memByte t.mem a = 0))) ∧
      (let i := s.fld .hifIdle F.hifIdleState
       (∀ u e, i = 4 → s.chip.wakeFail = some (u, e) →
         let v := { s with chip := { s.chip with wakeFail := none } }
         ∃ r, ErrorRaised v r ∧ let w := (({ r with power := { r.power with idleSince := r.now } }.setFld
            .hifIdle F.hifIdleState 0).bump .hifIdle F.hifIdleWakes 1).setFld .hifBoot F.hifBootCold 1
          Answers .idleWake s
            (bootEnd e (bootLoad none s.chip.active e ((w.setFld .chipMode F.chipModeValidate 1).msix 197)))) ∧
       ∀ c, c = .hifIdleWake ∨ c = .idleWake ∧ (i ≠ 4 ∨ s.chip.wakeFail = none) → (i = 0 → Answers c s { s with power := { s.power with idleSince := s.now } }) ∧
        (i ≠ 0 → ∃ t, Answers c s t ∧ t.fld .hifIdle F.hifIdleState = 0 ∧ t.now = s.now + wakeTicks i ∧
          t.power.idleSince = t.now ∧ t.fld .hifIdle F.hifIdleWakes =
            min (s.fld .hifIdle F.hifIdleWakes + 1) F.hifIdleWakes.top ∧
          (i < 4 → t.mem = s.mem ∧ s.RegsBut t (.hifIdle :: (List.range 4).map .msixPba)))) ∧
      (∀ v : Word, let t := s.plainWrite .hifWakeTol v.toNat
        t.fld .hifWakeTol F.hifWakeTolTol = F.hifWakeTolTol.of v.toNat ∧ s.OnlyRegs t [.hifWakeTol] ∧
        Answers (.hifWakeTolWrite v) s (if t.permits (t.fld .hifIdle F.hifIdleState) then t else wake t))) ∧
    (∃ t, Answers .fastThrottleAssert s t ∧ t.power.pin = true ∧ t.power.step = 0 ∧ t.mem = s.mem ∧
      (s.dead = true → t = { s with power := { s.power with pin := true, step := 0 } }) ∧
      (s.dead = false → t.now = s.now + 3 * fabTicks ∧ t.power.raise = none ∧ t.fld .blwStat F.blwStatFt = 1 ∧
        t.fld .blwStat F.blwStatCeil = 0 ∧ s.RegsButErr t [.blwStat, .blwCnt] ∧
        t.fld .blwCnt F.blwCntFt = min (s.fld .blwCnt F.blwCntFt + 1) F.blwCntFt.top)) ∧
    (s.power.pin = false → Answers .fastThrottleDeassert s s) ∧
    (s.power.pin = true → let h := s.fld .blwCtl F.blwCtlFtHold
      ∃ t, Answers .fastThrottleDeassert s t ∧ t.power.pin = false ∧ t.power.hold = h ∧ t.mem = s.mem ∧ t.now = s.now ∧
        (h ≠ 0 ∨ s.dead = true → t.regs = s.regs) ∧ s.RegsBut t [.blwStat, .clkStatus])

/-- Boot and its failures, resets, power and rails. (R464, R466, R467, R502, R505, R518, R519, R520, R522.)
BOOT of a device that can boot leaves reset and, with a good image, sites that pass and stacks that train,
becomes READY in service mode; with no good image it ends in recovery (STATE 3, FW_AUTH), a stack that
does not train or lacks spare TSVs, or a stage over its limit, in recovery with its code; it does nothing
on a device that cannot boot. PERST_ASSERT and CHIP_RESET_GO with its key hold the die: work, queues and
transport are gone, the AUX domain stays, the stacks keep their bytes only in self-refresh. FLR of a READY
device drops the cores and the queues and keeps the directory. POWER_LOSS and AUX_RAIL_LOSS drop PWR_GOOD
and all memory; POWER_UP asserts it and clears a trip; a rail that rises out of order is a sequence fault
that holds the device. Not enabled, each leaves the state. -/
def Obligations.BootResetAndRails : Prop :=
  ∀ s : State,
    let gone (t : State) := t.cores = [] ∧ t.hif = {} ∧ t.net = {} ∧ t.commits = [] ∧ t.tsq = [] ∧ t.cevents = [] ∧
      t.ports = [] ∧ t.chip.held = true ∧ t.chip.log = s.chip.log ∧ t.chip.svn = s.chip.svn ∧ t.chip.active = s.chip.active
    let reset (c : Instr) := ∃ t, Answers c s t ∧ gone t ∧ t.now = s.now + usTicks ∧ t.chip.pwrGood = true ∧
      t.chip.rails = s.chip.rails ∧
      (t.chip.refresh = true ↔ (s.chip.refresh = true ∨ 6 ≤ s.fld .hifBoot F.hifBootStage) ∧
        s.fld .hifIdle F.hifIdleState ≠ 4 ∧ ∀ x, s.chip.refLost = some x → s.now + usTicks ≤ x + 32 * msTicks) ∧
      (∀ a, memByte t.mem a = if t.chip.refresh = true ∧ isStack a = true then memByte s.mem a else 0) ∧
      (∀ n < 32, t.word (.coreMap n) = s.word (.coreMap n)) ∧ t.word .siteStat = s.word .siteStat ∧
      t.fld .hifBoot F.hifBootStage = 0
    (∀ e : BootEnv, (s.bootable e = false → Answers (.boot e) s s ∧ ∀ st, Answers (.bootStageTimeout st e) s s) ∧
      (s.bootable e = true → (∀ k ∈ e.ghs, (s.gh k).queues = []) →
        let first := if (leaveReset s).chip.trial then 1 - (leaveReset s).chip.active else (leaveReset s).chip.active
        let good (i : Nat) := imageOk s i = true
        let lack := ∃ k < 8, ∃ c ∈ ((e.tsvs.foldl (fun u t => tsvRepair t.1 t.2 u) s).gh k).tsvs, 4 < c.2
        let ended (c : Instr) (st code : Nat) := ∃ t, Answers c s t ∧ t.fld .hifBoot F.hifBootState = st ∧
          t.fld .hifBoot F.hifBootCode = code ∧ t.chip.held = false ∧ s.now < t.now
        (good first → e.stack = none → ¬ lack → ∃ t, Answers (.boot e) s t ∧ t.ready = true ∧ t.chip.held = false ∧
          t.chip.running = first ∧ t.chip.rung = 0 ∧ t.fld .chipMode F.chipModeValidate = 0 ∧ s.now < t.now ∧
          t.word .chipNode = writeWord (regFields .chipNode) (s.word .chipNode) e.node.toNat % 2 ^ 64) ∧
        (¬ good 0 → ¬ good 1 → s.chip.active < 2 → s.chip.running < 2 → ended (.boot e) 3 ecFwAuth) ∧
        (good first → (leaveReset s).chip.trial = false → e.stack ≠ none ∨ lack → ended (.boot e) 3 ecDetectStack) ∧
        (∀ st : Fin 8, good first → (leaveReset s).chip.trial = false → e.stack = none → ¬ lack → 1 ≤ st.val →
          ended (.bootStageTimeout st e) 3 ecTaskHang))) ∧
    (s.chip.pwrGood = true → s.chip.held = false → reset .perstAssert) ∧
    (s.chip.pwrGood = false ∨ s.chip.held = true → Answers .perstAssert s s) ∧
    (s.dead = false →
      (∀ v : Word, (s.hifServed = false → Answers (.chipResetGo v) s { s with reply := some ⟨0, 1⟩ }) ∧
        (s.hifServed = true → (v.toNat.testBit 0 = false → Answers (.chipResetGo v) s s) ∧
          (v.toNat.testBit 0 = true → F.chipResetKey.of v.toNat ≠ 0xB007 →
            ∃ t, Answers (.chipResetGo v) s t ∧ ErrorRaised s t) ∧
          (v.toNat.testBit 0 = true → F.chipResetKey.of v.toNat = 0xB007 → s.chip.pwrGood = true → reset (.chipResetGo v)) ∧
          (v.toNat.testBit 0 = true → F.chipResetKey.of v.toNat = 0xB007 → s.chip.pwrGood = false → Answers (.chipResetGo v) s s))) ∧
      (s.ready = false → Answers .flr s s) ∧
      (s.ready = true → ∃ t, Answers .flr s (linkProg (pump t)) ∧ t.cores = [] ∧ t.hif.qps = [] ∧ t.hif.jobs = [] ∧
        t.hif.kernels = [] ∧ t.hif.tasks = [] ∧ t.commits = [] ∧ t.cevents = [] ∧ t.chip.held = false ∧
        (∀ a, isCoreMem a = true → memByte t.mem a = 0) ∧ t.ready = true ∧
        (∀ q : QpId, t.word (.hifSqBase q) = s.word (.hifSqBase q) ∧ t.qState q = 0) ∧
        (∀ k : StackId, t.word (.ghDirBase k) = s.word (.ghDirBase k)))) ∧
    (let out (c : Instr) := ∃ t, Answers c s t ∧ gone t ∧ t.chip.pwrGood = false ∧ t.chip.refresh = false ∧
        t.now = s.now + 2 * usTicks ∧ (∀ a, memByte t.mem a = 0) ∧
        (c = .powerLoss → t.chip.rails = s.chip.rails.filter (· < 2)) ∧ (c = .auxRailLoss → t.chip.rails = [])
     out .powerLoss ∧ out .auxRailLoss) ∧
    (s.chip.pwrGood = true → Answers .powerUp s s) ∧
    (s.chip.pwrGood = false → ∃ t, Answers .powerUp s t ∧ t.chip.pwrGood = true ∧ t.power.trip = false ∧
      (t.chip.seqFault = true ↔ s.chip.seqFault = true ∨ ∃ r < 10, r ∉ s.chip.rails) ∧
      t = { s with chip := { s.chip with pwrGood := true, seqFault := t.chip.seqFault }
                   power := { s.power with trip := false } }) ∧
    (∀ r : Nat, (9 < r ∨ r ∈ s.chip.rails → Answers (.railRise r) s s) ∧
      (r ≤ 9 → r ∉ s.chip.rails → ∃ t, Answers (.railRise r) s t ∧ t.chip.rails = s.chip.rails ++ [r] ∧
        (t.chip.seqFault = true ↔ s.chip.seqFault = true ∨ (r = 2 ∧ s.auxOn = false) ∨ (3 ≤ r ∧ r - 1 ∉ s.chip.rails)) ∧
        t.now = s.now + (if r < 2 ∧ t.auxOn = true then 50 * msTicks else 0) ∧
        t = { s with now := t.now, chip := { s.chip with rails := t.chip.rails, seqFault := t.chip.seqFault } }))

/-- Online tests, spare substitution, statistic reports and the repeat of a saturated tile. (R35, R41, R56,
R363, R492, R493, R494, R496, R497.) With the device running. ONLINE_TEST of a core in service, the device
ready and no other test on, marks the core; once no kernel is on it the test begins, closes its windows
and wipes it; the row comes again to end it, 40 ms at P0 later, counts it and records the result: a pass,
or up to four failing columns, bypassed, returns it to service, an SRAM failure takes its site out.
TEST_SWEEP with a period queues every core in service. GH_UNIT_TEST of a stack that is not raw takes 200
µs; a failure makes it raw. SPARE_SUBSTITUTION waits for Colonnade transfers under way, then moves a free
core, CM kept, to the usable spare site named, or out of service when none is left, unless a fenced MXE is
all that ails it. STAT_REPORT raises the slot's maximum to the largest |x - center| of its elements; a
special element sets NAN_SEEN. TILE_SAT_RETRY of a saturated tile raises SHIFT by one, at most three times
and below 7, with SAT_REPEAT, else writes the clamped values with ACC_SAT_FINAL. Else nothing changes. -/
def Obligations.OnlineTestsSparesAndTileRetry : Prop :=
  ∀ s : State, s.dead = false →
    (∀ (n : CoreId) (res : TestResult),
      let own := within (coreBase n) 0x1000000
      let begins (u : State) :=
        let r := (List.range 16).foldl (fun t q => if t.strLive n q then strStop n q t else t) (coreSync n u)
        let w := closeWindows (r.winFields n) r
        (u.kernelOn n = true → Answers (.onlineTest n res) s u) ∧
        (u.kernelOn n = false → ∃ t, Answers (.onlineTest n res) s t ∧ t.now = w.now ∧
          t.chip.testing = some ⟨n, some (w.now + 40 * msTicks * w.div n / 4), r.winFields n⟩ ∧
          t.fld .tstStat F.tstStatState = 2 ∧ bitAt (t.fld .chipMode F.chipModeVcores) n = true ∧
          t.fld (.tstFence n) F.tstFenceMxe = 15 ∧ (∀ a, own a = true → memByte t.mem a = 0) ∧
          (∀ a, own a = false → memByte t.mem a = memByte w.mem a))
      (s.chip.testing = none → s.fld (.coreMap n) F.coreMapState ≠ 0 ∨ s.ready = false → Answers (.onlineTest n res) s s) ∧
      (s.chip.testing = none → s.fld (.coreMap n) F.coreMapState = 0 → s.ready = true →
        let p := dropTasks n ((s.setFld (.coreMap n) F.coreMapState 1).setFld .tstStat F.tstStatState 1)
        begins { p with chip := { p.chip with tests := p.chip.tests.erase n, testing := some ⟨n, none, []⟩ } }) ∧
      (∀ x, s.chip.testing = some x →
        (x.core ≠ n → Answers (.onlineTest n res) s s) ∧
        (x.core = n → x.stop = none → begins s) ∧
        (∀ stop, x.core = n → x.stop = some stop →
          let w := reopenWindows x.wins (testMarks n 0 (s.advance stop))
          let site := w.fld (.coreMap n) F.coreMapSite
          ∃ t, Answers (.onlineTest n res) s t ∧ t.now = w.now ∧ t.mem = w.mem ∧ t.chip.testing = none ∧
            t.fld .tstStat F.tstStatState = 0 ∧ t.fld .tstStat F.tstStatLastCore = n.val ∧
            t.fld .tstStat F.tstStatTested = min (w.fld .tstStat F.tstStatTested + 1) F.tstStatTested.top ∧
            (res = .pass → t.fld (.coreMap n) F.coreMapState = 0 ∧ t.word .siteStat = w.word .siteStat) ∧
            (∀ m cols, res = .columns m cols → (∀ c ∈ cols, (c : Fin 128).val ∈ bypassedOf (t.word (.mxeBypass n m)) ∨
                4 ≤ (bypassedOf (t.word (.mxeBypass n m))).length) ∧
              ((bypassedOf (w.word (.mxeBypass n m)) ++ cols.map Fin.val).dedup.length ≤ 4 →
                t.fld (.coreMap n) F.coreMapState = 0 ∧ t.word .siteStat = w.word .siteStat) ∧
              (4 < (bypassedOf (w.word (.mxeBypass n m)) ++ cols.map Fin.val).dedup.length → w.spareSites = [] →
                t.fld (.coreMap n) F.coreMapState = 0 ∧ bitAt (t.fld (.tstFence n) F.tstFenceMxe) m = true)) ∧
            ((∃ c, res = .sram c) ∨ res = .fail → ∀ k : Fin 36, site = k.val →
              bitAt (t.fld .siteStat F.siteStatFailed) k = true ∧
              t.fld (.coreMap n) F.coreMapState = w.fld (.coreMap n) F.coreMapState))) ∧
      (∀ site : Fin 36,
        let barred := s.coreOut n = true ∨ s.kernelOn n = true ∨ ∃ x, s.chip.testing = some x ∧ x.core = n
        let hold := if n.val ∈ s.chip.ringHold then s.chip.ringHold else n.val :: s.chip.ringHold
        let waits := { s with chip := { s.chip with ringHold := hold } }
        let v := { s with chip := { s.chip with ringHold := s.chip.ringHold.erase n.val } }
        (barred → Answers (.spareSubstitution n site) s s) ∧
        (¬ barred → ringBusy s = true → Answers (.spareSubstitution n site) s waits) ∧
        (¬ barred → ringBusy s = false → v.spareSites ≠ [] → site.val ∉ v.spareSites →
          Answers (.spareSubstitution n site) s v) ∧
        (¬ barred → ringBusy s = false → v.spareSites = [] → v.fencedOnly n = true →
          Answers (.spareSubstitution n site) s v) ∧
        (¬ barred → ringBusy s = false → v.spareSites = [] → v.fencedOnly n = false →
          ∃ t, Answers (.spareSubstitution n site) s t ∧
          t.fld (.coreMap n) F.coreMapState = 2 ∧ tabFind t.hif.tasks n = none ∧ t.mem = s.mem ∧ t.now = s.now ∧
          s.RegsBut t [.coreMap n, .siteStat]) ∧
        (¬ barred → ringBusy s = false → site.val ∈ v.spareSites → let w := cycleWindows n (dropTasks n v)
          ∃ t, Answers (.spareSubstitution n site) s t ∧
          t.fld (.coreMap n) F.coreMapSite = site.val ∧ t.fld (.coreMap n) F.coreMapState = 0 ∧
          (∀ m : MxeId, t.word (.mxeBypass n m) = 0) ∧ t.word (.tstFence n) = 0 ∧
          (∀ a, own a = false ∨ within (coreBase n) cmSize a = true → memByte t.mem a = memByte w.mem a) ∧
          t.hif = w.hif ∧ t.now = w.now ∧ t.fld (.coreMap n) F.coreMapSubst =
            min (w.fld (.coreMap n) F.coreMapSubst + 1) F.coreMapSubst.top))) ∧
    (s.fld .tstSweep F.tstSweepPeriod = 0 → Answers .testSweep s s) ∧
    (s.fld .tstSweep F.tstSweepPeriod ≠ 0 → ∃ t, Answers .testSweep s t ∧
      t.chip.tests = s.chip.tests ++ s.liveCores.filter (fun n => !s.chip.tests.contains n) ∧
      (∀ n ∈ s.liveCores, n ∈ t.chip.tests) ∧ s.RegsBut t ([.hifProgStat 4, .hifProgPos 4] ++ (List.range 4).map .msixPba) ∧
      t = { s with regs := t.regs, msixSent := t.msixSent, chip := { s.chip with tests := t.chip.tests } }) ∧
    (∀ k : StackId, (s.bit (.ghStatus k) F.ghStatusRaw = true → ∀ ok, Answers (.ghUnitTest k ok) s s) ∧
      (s.bit (.ghStatus k) F.ghStatusRaw = false →
        Answers (.ghUnitTest k true) s { s with now := s.now + 200 * usTicks } ∧
        ((∀ e ∈ (s.gh k).queues, e.1 < 16) → ∃ t, Answers (.ghUnitTest k false) s t ∧ t.now = s.now + 200 * usTicks ∧
          t.bit (.ghStatus k) F.ghStatusRaw = true))) ∧
    (∀ (n : SlotId) (xs : List W32), let v := landReports s
      let l := v.latchSlot n
      let vs := xs.map fun x => of32 x.toNat
      let c := statCenter l
      let m := statMax c vs
      (s.reports = [] → v = s) ∧ ∃ t, Answers (.statReport n xs) s t ∧ v.OnlyRegs t [.ssCur n, .ssParam n] ∧
        (∀ d, m = some d → t.bit (.ssCur n) F.ssCurReported = true ∧
          t.fld (.ssCur n) F.ssCurCurAmax = max (v.fld (.ssCur n) F.ssCurCurAmax) d % 2 ^ 32) ∧
        (m = none → t.word (.ssCur n) = v.word (.ssCur n)) ∧
        (t.bit (.ssParam n) F.ssParamNanSeen = true ↔
          v.bit (.ssParam n) F.ssParamNanSeen = true ∨ ∃ x ∈ vs, x.special = true) ∧
        t.fld (.ssParam n) F.ssParamScale = v.fld (.ssParam n) F.ssParamScale ∧
        t.fld (.ssParam n) F.ssParamShift = v.fld (.ssParam n) F.ssParamShift) ∧
    (∀ (n : CoreId) (m : MxeId) (i : Fin 8),
      (tabFind (s.mxe n m).satHold i = none → Answers (.tileSatRetry n m i) s s) ∧
      (∀ h (sl : SlotId), tabFind (s.mxe n m).satHold i = some h → h.slot = sl.val →
        let done := tabGet 0 (s.mxe n m).retries i
        let shift := s.fld (.ssParam h.slot) F.ssParamShift
        ∃ t, Answers (.tileSatRetry n m i) s t ∧ tabFind (t.mxe n m).satHold i = none ∧ t.now = s.now ∧
          (done < 3 → shift < 7 → t.fld (.ssParam h.slot) F.ssParamShift = shift + 1 ∧ t.mem = s.mem ∧
            tabFind (t.mxe n m).retries i = some (done + 1) ∧ s.RegsButErr t [.ssParam h.slot]) ∧
          (3 ≤ done ∨ 7 ≤ shift → s.RegsButErr t [] ∧ tabFind (t.mxe n m).retries i = none ∧
            t.mem = (s.wrOps h.writes).mem)))

/-- A step runs the command at the front of the queue. (95_what_each_step_holds.md.) For every command c and
state s whose queue begins with c, a step of s is exec of c at s with the rest of the queue. This is the
model's block form: commands wait in one queue, first in, first out. -/
def Obligations.StepRunsTheFrontCommand : Prop :=
  ∀ (c : Instr) (s : State) (rest : List Instr),
    step { s with pending := c :: rest } = exec c { s with pending := rest }

/-- A step with no command waiting is one cycle of FABRIC_CLK. (R8, R469, R503.) With an empty queue and the
compute die running, a step answers a next state one FABRIC_CLK cycle (1 ns) later with an empty queue; a
firmware update in progress has been written. With no update, no running kernel, no collective abort and
no halted queue nothing else changes. With the die held nothing passes. That a step on an empty queue is a
clock cycle is the model's choice (assumption 21). -/
def Obligations.EmptyQueueLetsOneCyclePass : Prop :=
  ∀ s : State, s.pending = [] →
    (s.dead = false → ∃ t, step s = .next t ∧ s.now + fabTicks ≤ t.now ∧ t.pending = [] ∧ t.chip.update = none) ∧
    (s.dead = false → s.chip.update = none → s.hif.kernels = [] → s.net.aborts = [] →
      (∀ q ∈ s.hif.qps, q.2.hungAt = none) →
      step s = .next (s.settle { s with now := s.now + fabTicks })) ∧
    (s.dead = true → step s = .next (s.settle s))

/-- Every step answers, keeps both memories canonical, never turns time back, and takes one command. (R4, R8,
R485.) For every state whatever, a step answers a next state, never a fault or a refusal. That state's
device memory and host memory are in canonical form (addresses strictly rising, no byte equal to what an
unlisted address reads as), its time is no earlier, and its queue is the queue without its first command.
That a device fault is a record and not a stop of the model and goes into the ring follows R485. -/
def Obligations.EveryStepKeepsTheStateInOrder : Prop :=
  ∀ s : State, ∃ t, step s = .next t ∧ t.Ordered ∧ s.now ≤ t.now ∧ t.pending = s.pending.tail

/-- The state after reset is in order, with nothing in memory and no command waiting. (R39, R465.) After reset
both memories list nothing and are in canonical form, every byte of device memory reads 0 (the model's
choice for memory that nothing has written, assumption 5), no command waits, no core runs, no commit,
transfer, command or link message is in progress, the boot stage is 0, and the compute die is not held. -/
def Obligations.ResetStateIsInOrder : Prop :=
  State.reset.Ordered ∧ (∀ a, memByte State.reset.mem a = 0) ∧ State.reset.pending = [] ∧ State.reset.dead = false ∧
  State.reset.commits = [] ∧ State.reset.tsq = [] ∧ State.reset.fld .hifBoot F.hifBootStage = 0 ∧
  State.reset.now = 0 ∧
  (∀ n : CoreId, State.reset.core n = {} ∧ State.reset.Settled n ∧ ∀ c : CtxId, State.reset.ctx n c = ctxIdle) ∧
  (∀ k, State.reset.port k = {} ∧ State.reset.gh k = {})

/-- The reset values of the registers that do not reset to 0. (R39, R206, R240, R247, R266, R284, R293, R335,
R487.) After reset: a scale slot has SCALE 1.0, element type INT8, HLEN 16 and everything else 0; a
Glasshouse queue is enabled with weight 4; core memory is in validation mode with WAIT_MAX 256; every
stream queue has QDEPTH 8 and the depths of a core sum to 128; a Colonnade hop takes 4; a stack port's
slot words are 0xFFFF_BA98_7654_3210, its ranking and its watchdog of 65,536 as the register table gives
them; the task watchdog is 1,000; INFO_EN is 1; HIF_Q_CFG weighs 1; core n stands on site n; a command
queue's head and tail, event sets, turnstiles, barriers and both error pointers are 0. -/
def Obligations.RegistersHoldTheirResetValues : Prop :=
  let r := State.reset
  (∀ n : SlotId, r.fld (.ssParam n) F.ssParamScale = 0x3F800000 ∧ r.fld (.ssParam n) F.ssParamEtype = 1 ∧
    r.fld (.ssParam n) F.ssParamHlen = 16 ∧ r.fld (.ssParam n) F.ssParamZp = 0 ∧
    r.fld (.ssParam n) F.ssParamConst = 0 ∧ r.word (.ssCenter n) = 0 ∧ r.word (.ssCur n) = 0) ∧
  (∀ (k : StackId) (q : QId), r.fld (.ghCmdqCtl k q) F.ghCmdqCtlWeight = 4 ∧ r.bit (.ghCmdqCtl k q) F.ghCmdqCtlEn = true) ∧
  (∀ n : CoreId, r.vmode n = true ∧ r.fld (.cmcBgCtl n) F.cmcBgCtlWaitMax = 256 ∧
    r.fld (.strColStat n) F.strColStatHop = 4 ∧ r.fld (.strCfg n) F.strCfgDepthSum = 128 ∧
    r.fld (.scTaskWdog n) F.scTaskWdogLimit = 1000 ∧ r.word (.scEvent n) = 0 ∧ r.fld (.coreMap n) F.coreMapState = 0 ∧
    (∀ q : QId, r.fld (.strQCtl n q) F.strQCtlQdepth = 8 ∧ r.strState n q = 0) ∧
    ∀ c : CtxId, r.word (.tctxPc n c) = 0 ∧ ∀ i, r.sreg n c i = 0 ∧ r.spoison n c i = false) ∧
  (∀ k : StackId, r.fld (.bsCtl k) F.bsCtlWdogLimit = 65536 ∧ r.word (.bsRank k) = 0x76543210a98b ∧
    r.bit (.bsCtl k) F.bsCtlBsFreeze = false ∧
    ∀ i < 4, r.word (.bsSlot k i) = 0xFFFFBA9876543210 ∧ r.word (.bsAct k i) = 0xFFFFBA9876543210) ∧
  (∀ t : TurnId, r.word (.tsCnt t) = 0 ∧ r.word (.tsNotify t) = 0) ∧ (∀ b : BarId, r.word (.barState b) = 0) ∧
  (∀ q : QpId, r.fld (.hifQCfg q) F.hifQCfgWeight = 1 ∧ r.qState q = 0) ∧
  r.bit .errCtl F.errCtlInfoEn = true ∧ r.word .errHead = 0 ∧ r.word .errTail = 0

/-- Every address that names a register is that register's address. (R538, R539, R540.) For every device
address that the register map decodes to a register, encoding that register gives the address back, and
the address is 8-byte aligned and lies in the register space. So no two addresses name one register, no
two registers share an address, and decoding the address of any register of the map gives it back. -/
def Obligations.RegisterMapRoundTrip : Prop :=
  ∀ a : Nat, regAt a ≠ .none → regAddr (regAt a) = a ∧ a % 8 = 0 ∧ 0x020200000000 ≤ a ∧ a < 0x020280000000 ∧
    ∀ b, regAt b = regAt a → b = a

/-- Decoding a slot word that encodes an operation gives the operation back. (R305, R318, R324, R327, R329.)
For every operation of the scalar, matrix, vector, Fife and stream slots with every operand at every value
its field admits, the slot word of the operation is below 2^64, is not the all-zero NOP, and decodes in
its own slot to that operation with that operand. The matrix operations do so in each of the four matrix
slots. -/
def Obligations.SlotWordsRoundTrip : Prop :=
  let good (k : Nat) (o : BOp) := o.word < 2 ^ 64 ∧ o.word ≠ 0 ∧ bopOf k o.word = o
  (∀ (opc : Fin 256) (a : ScArgs), opc ≠ 0 → good 0 (.sc opc a)) ∧
  (∀ (m : MxeId) (o : MxOp), o ≠ .nop → good (m + 1) (.mx m o)) ∧
  (∀ (opc : Fin 256) (a : VxArgs), opc ≠ 0 → good 5 (.vx opc a)) ∧
  (∀ opc off : Nat, opc = 1 ∨ opc = 2 → off < 2 ^ 18 → good 6 (.ff opc off)) ∧
  (∀ (opc : Nat) (a : StArgs), 1 ≤ opc → opc ≤ 5 → good 7 (.st opc a))

/-- What a raised event leaves in the error unit. (R485.) Raising an event writes its record whole into the
error ring at HEAD: the time, the source, code, flags and sequence number, the address, context and peer,
the detail; HEAD advances modulo 1,024, SEQ by one, and vector 192 (fault) or 193 (information) is raised:
its pending bit where masked or in D3hot, else a message. With the ring full the record is dropped,
DROPPED counts it, LAST_DROP takes its code and SEQ still advances. While INFO_EN is 0 an information
event leaves nothing. No other register, no memory and nothing else changes. -/
def Obligations.EventsLeaveOneRecord : Prop :=
  ∀ (s : State) (e : Err),
    let t := s.raise e
    let info := isInfo e.code
    let head := s.fld .errHead F.errHeadHead
    let seq := s.fld .errHead F.errHeadSeq
    let v := if info then 193 else 192
    let full := (head + 1) % 1024 = s.fld .errTail F.errTailTail
    (info = true → s.bit .errCtl F.errCtlInfoEn = false → t = s) ∧
    (info = false ∨ s.bit .errCtl F.errCtlInfoEn = true →
      t.fld .errHead F.errHeadSeq = (seq + 1) % 2 ^ 32 ∧ t = { s with regs := t.regs, msixSent := t.msixSent } ∧
      (full → t.fld .errHead F.errHeadHead = head ∧ t.msixSent = s.msixSent ∧
        s.RegsBut t [.errHead, .errStat] ∧ t.fld .errStat F.errStatLastDrop = e.code % 256 ∧
        t.fld .errStat F.errStatDropped = min (s.fld .errStat F.errStatDropped + 1) (2 ^ 32 - 1)) ∧
      (¬ full → t.fld .errHead F.errHeadHead = (head + 1) % 1024 ∧
        s.RegsBut t (.errHead :: .msixPba (v / 64) :: (List.range 8).map (.errRing head)) ∧
        t.word (.errRing head 0) = s.timeNow ∧
        t.word (.errRing head 1) = e.src % 2 ^ 16 + e.code % 256 * 2 ^ 16 +
          (b2n info + 2 * b2n e.fw) * 2 ^ 24 + seq * 2 ^ 32 ∧
        t.word (.errRing head 2) = e.addr % 2 ^ 64 ∧
        t.word (.errRing head 3) = e.context % 2 ^ 32 + e.peer % 2 ^ 32 * 2 ^ 32 ∧
        (∀ j < 4, t.word (.errRing head (4 + j)) = fieldAt (detailBytes e.detail) (8 * j) 8) ∧
        (if bitAt (s.word (.msixTable (2 * v + 1))) 32 || s.hif.d3
         then bitAt (t.word (.msixPba (v / 64))) (v % 64) = true ∧ t.msixSent = s.msixSent
         else t.msixSent = s.msixSent ++ [v] ∧ t.word (.msixPba (v / 64)) = s.word (.msixPba (v / 64)))))

/-- While the compute die is held, tripped or unclocked, no command of it changes anything. (R420, R435, R467,
R519, R520.) In every state in which the compute die is held in reset, the device has tripped, or REFCLK
is lost, every command but those of the package's rails and pins, of boot, of the sideband and of the test
access port leaves the state as it is, apart from the order every command leaves. -/
def Obligations.HeldDieRunsNoCommand : Prop :=
  ∀ (c : Instr) (s : State), s.dead = true → outsideDie c = false → Answers c s s

/-- The order every command leaves changes nothing that can be read. (R8, R438, R439.) Whatever a command
makes of a state, settling it keeps every register, every byte of device memory and of host memory, every
core, engine, port, queue and link record, the answer and the messages sent. Time becomes the later of
before and after, the queue of commands stays the one before, and only the start of the idle dwell may
move, to the present, while work is in progress before or after. That the dwell starts anew is the model's
reading of R439 (assumption 22). -/
def Obligations.SettlingKeepsWhatReads : Prop :=
  ∀ s t : State, let u := s.settle t
    (∀ r, u.word r = t.word r) ∧ (∀ a, memByte u.mem a = memByte t.mem a) ∧ (∀ a, memByte u.host a = memByte t.host a) ∧
    u = { t with pending := s.pending, now := max s.now t.now, mem := u.mem, host := u.host, power := u.power } ∧
    u.power = { t.power with idleSince := u.power.idleSince } ∧
    (s.working = false → t.working = false → u.power = t.power) ∧
    (s.working = true ∨ t.working = true → u.power.idleSince = u.now)
end

