-- ==== Sys2Proof/Laws/Tab.lean ====
section
/-! SUPPORT. What a sparse table holds after an update, and that every update keeps its indices in rising
order. -/

namespace Sys2Proof.Machine

variable {α : Type}

theorem tabFind_set_same (t : Tab α) (a : Nat) (v : α) : tabFind (tabSet t a v) a = some v := by
  induction t with
  | nil => simp [tabSet, tabFind]
  | cons p t ih =>
    obtain ⟨k, x⟩ := p
    simp only [tabSet]
    split
    · simp [tabFind]
    · split
      · simp [tabFind]
      · next h => simpa [tabFind, h] using ih

theorem tabFind_set_other (t : Tab α) {a b : Nat} (v : α) (h : b ≠ a) :
    tabFind (tabSet t a v) b = tabFind t b := by
  induction t with
  | nil => simp [tabSet, tabFind, Ne.symm h]
  | cons p t ih =>
    obtain ⟨k, x⟩ := p
    simp only [tabSet]
    split
    · simp [tabFind, Ne.symm h]
    · split
      · next hk => subst hk; simp [tabFind, Ne.symm h]
      · simp [tabFind, ih]

theorem tabFind_del_same (t : Tab α) (a : Nat) : tabFind (tabDel t a) a = none := by
  induction t with
  | nil => rfl
  | cons p t ih =>
    obtain ⟨k, x⟩ := p
    by_cases h : k = a <;> simp_all [tabDel, tabFind]

theorem tabFind_del_other (t : Tab α) {a b : Nat} (h : b ≠ a) :
    tabFind (tabDel t a) b = tabFind t b := by
  induction t with
  | nil => rfl
  | cons p t ih =>
    obtain ⟨k, x⟩ := p
    by_cases hk : k = a
    · subst hk; simp_all [tabDel, tabFind, Ne.symm h]
    · simp_all [tabDel, tabFind]

@[simp] theorem tabGet_set_same (d : α) (t : Tab α) (a : Nat) (v : α) :
    tabGet d (tabSet t a v) a = v := by simp [tabGet, tabFind_set_same]

theorem tabGet_set_other (d : α) (t : Tab α) {a b : Nat} (v : α) (h : b ≠ a) :
    tabGet d (tabSet t a v) b = tabGet d t b := by simp [tabGet, tabFind_set_other t v h]

theorem tabGet_set (d : α) (t : Tab α) (a b : Nat) (v : α) :
    tabGet d (tabSet t a v) b = if b = a then v else tabGet d t b := by
  split
  · next h => subst h; exact tabGet_set_same d t b v
  · next h => exact tabGet_set_other d t v h

@[simp] theorem tabGet_del_same (d : α) (t : Tab α) (a : Nat) : tabGet d (tabDel t a) a = d := by
  simp [tabGet, tabFind_del_same]

theorem tabGet_del_other (d : α) (t : Tab α) {a b : Nat} (h : b ≠ a) :
    tabGet d (tabDel t a) b = tabGet d t b := by simp [tabGet, tabFind_del_other t h]

@[simp] theorem tabFind_nil (a : Nat) : tabFind ([] : Tab α) a = none := rfl
@[simp] theorem tabGet_nil (d : α) (a : Nat) : tabGet d ([] : Tab α) a = d := rfl

/-- A lower bound that all indices exceed may be lowered. -/
theorem tabRising_weaken {t : Tab α} {b c : Option Nat} (h : tabRising b t = true)
    (hc : ∀ x, c = some x → ∀ y, b = some y → x ≤ y) (hb : b = none → c = none) :
    tabRising c t = true := by
  cases t with
  | nil => rfl
  | cons p t =>
    obtain ⟨k, x⟩ := p
    simp only [tabRising, Bool.and_eq_true] at h ⊢
    refine ⟨?_, h.2⟩
    cases c with
    | none => rfl
    | some c =>
      cases b with
      | none => exact absurd (hb rfl) (by simp)
      | some b =>
        have := hc c rfl b rfl
        have h1 := h.1
        simp at h1 ⊢
        omega

theorem tabRising_set {t : Tab α} {b : Option Nat} {a : Nat} (v : α)
    (h : tabRising b t = true) (hb : ∀ y, b = some y → y < a) : tabRising b (tabSet t a v) = true := by
  induction t generalizing b with
  | nil => cases b with
    | none => rfl
    | some y => simpa [tabSet, tabRising] using hb y rfl
  | cons p t ih =>
    obtain ⟨k, x⟩ := p
    simp only [tabRising, Bool.and_eq_true] at h
    simp only [tabSet]
    split
    · next hk =>
      simp only [tabRising, Bool.and_eq_true]
      refine ⟨?_, by simpa using hk, h.2⟩
      cases b with
      | none => rfl
      | some y => simpa using hb y rfl
    · split
      · next hk => subst hk; simp only [tabRising, Bool.and_eq_true]; exact h
      · next h1 h2 =>
        simp only [tabRising, Bool.and_eq_true]
        exact ⟨h.1, ih h.2 fun y hy => by cases hy; omega⟩

theorem tabRising_filter {t : Tab α} {b : Option Nat} (p : Nat × α → Bool)
    (h : tabRising b t = true) : tabRising b (t.filter p) = true := by
  induction t generalizing b with
  | nil => rfl
  | cons q t ih =>
    obtain ⟨k, x⟩ := q
    simp only [tabRising, Bool.and_eq_true] at h
    simp only [List.filter]
    split
    · simp only [tabRising, Bool.and_eq_true]; exact ⟨h.1, ih h.2⟩
    · refine ih (tabRising_weaken h.2 (fun x hx y hy => ?_) (by simp))
      cases hy; subst hx
      have := h.1
      simp at this
      omega

theorem tabRising_del {t : Tab α} {b : Option Nat} (a : Nat) (h : tabRising b t = true) :
    tabRising b (tabDel t a) = true := tabRising_filter _ h

end Sys2Proof.Machine
end

