-- ==== Sys2Proof/Laws/Regs.lean ====
section
/-! SUPPORT. Registers and their fields: what a store leaves in the register stored to, in its fields and in
every other register. -/

namespace Sys2Proof.Machine

theorem bitsOf_lt (v hi lo : Nat) : bitsOf v hi lo < 2 ^ (hi - lo + 1) :=
  Nat.mod_lt _ (Nat.two_pow_pos _)

/-- A field read after it is replaced is the value put there. -/
theorem bitsOf_withBits_same (v hi lo x : Nat) (h : lo ≤ hi) :
    bitsOf (withBits v hi lo x) hi lo = x % 2 ^ (hi - lo + 1) := by
  simp only [bitsOf, withBits]
  have e : 2 ^ (hi + 1) = 2 ^ (hi - lo + 1) * 2 ^ lo := by rw [← Nat.pow_add]; congr 1; omega
  have hp := Nat.two_pow_pos lo
  have h2 := Nat.mod_lt v hp
  rw [e, ← Nat.mul_assoc]
  rw [show v / (2 ^ (hi - lo + 1) * 2 ^ lo) * 2 ^ (hi - lo + 1) * 2 ^ lo + x % 2 ^ (hi - lo + 1) * 2 ^ lo + v % 2 ^ lo
    = v % 2 ^ lo + 2 ^ lo * (v / (2 ^ (hi - lo + 1) * 2 ^ lo) * 2 ^ (hi - lo + 1) + x % 2 ^ (hi - lo + 1)) by ring]
  rw [Nat.add_mul_div_left _ _ hp, Nat.div_eq_of_lt h2, Nat.zero_add, Nat.mul_comm, Nat.mul_add_mod,
    Nat.mod_mod]

/-- The bit i of a value with a field replaced. -/
theorem testBit_withBits (v hi lo x i : Nat) (h : lo ≤ hi) :
    (withBits v hi lo x).testBit i =
      if lo ≤ i ∧ i ≤ hi then x.testBit (i - lo) else v.testBit i := by
  have e : 2 ^ (hi + 1) = 2 ^ (hi - lo + 1) * 2 ^ lo := by rw [← Nat.pow_add]; congr 1; omega
  have hv : v % 2 ^ lo < 2 ^ lo := Nat.mod_lt _ (Nat.two_pow_pos _)
  have hx : x % 2 ^ (hi - lo + 1) < 2 ^ (hi - lo + 1) := Nat.mod_lt _ (Nat.two_pow_pos _)
  have hlow : x % 2 ^ (hi - lo + 1) * 2 ^ lo + v % 2 ^ lo < 2 ^ (hi + 1) := by
    rw [e]
    calc _ < x % 2 ^ (hi - lo + 1) * 2 ^ lo + 2 ^ lo := by omega
      _ = (x % 2 ^ (hi - lo + 1) + 1) * 2 ^ lo := by ring
      _ ≤ _ := Nat.mul_le_mul_right _ hx
  simp only [withBits]
  rw [Nat.add_assoc, Nat.mul_comm (v / 2 ^ (hi + 1)), Nat.testBit_two_pow_mul_add _ hlow]
  rw [Nat.mul_comm (x % 2 ^ (hi - lo + 1)), Nat.testBit_two_pow_mul_add _ hv]
  by_cases h1 : i < hi + 1
  · by_cases h2 : i < lo
    · have h3 : ¬ (lo ≤ i ∧ i ≤ hi) := by omega
      simp only [h1, h2, h3, if_true, if_false, Nat.testBit_mod_two_pow, decide_true, Bool.true_and]
    · have h3 : lo ≤ i ∧ i ≤ hi := by omega
      have h4 : i - lo < hi - lo + 1 := by omega
      simp only [h1, h2, h3, h4, if_true, if_false, and_self, Nat.testBit_mod_two_pow, decide_true,
        Bool.true_and]
  · have h4 : ¬ i ≤ hi := by omega
    simp [h1, h4, Nat.testBit_div_two_pow]
    congr 1; omega

theorem testBit_bitsOf (v hi lo i : Nat) :
    (bitsOf v hi lo).testBit i = (decide (i < hi - lo + 1) && v.testBit (i + lo)) := by
  simp [bitsOf, Nat.testBit_mod_two_pow, Nat.testBit_div_two_pow]

/-- A field that the replaced bits do not touch reads as before. -/
theorem bitsOf_withBits_other (v hi lo x hi' lo' : Nat) (h : lo ≤ hi) (h' : lo' ≤ hi')
    (d : hi < lo' ∨ hi' < lo) : bitsOf (withBits v hi lo x) hi' lo' = bitsOf v hi' lo' := by
  apply Nat.eq_of_testBit_eq
  intro i
  rw [testBit_bitsOf, testBit_bitsOf, testBit_withBits _ _ _ _ _ h]
  by_cases hi1 : i < hi' - lo' + 1
  · have : ¬(lo ≤ i + lo' ∧ i + lo' ≤ hi) := by omega
    simp [this]
  · simp [hi1]

theorem withBits_lt {v hi lo x n : Nat} (h : lo ≤ hi) (hn : hi < n) (hv : v < 2 ^ n) :
    withBits v hi lo x < 2 ^ n := by
  apply Nat.lt_pow_two_of_testBit
  intro i hi'
  rw [testBit_withBits _ _ _ _ _ h]
  have : ¬(lo ≤ i ∧ i ≤ hi) := by omega
  simp only [this, if_false]
  exact Nat.testBit_lt_two_pow (lt_of_lt_of_le hv (Nat.pow_le_pow_right (by decide) hi'))

/-- A well-placed field: its bits in order, within the 64 of a register (R4). -/
abbrev Fld.fits (f : Fld) : Prop := f.lo ≤ f.hi ∧ f.hi < 64

theorem State.word_setWord_same (s : State) (r : Reg) (v : Nat) :
    (s.setWord r v).word r = v % 2 ^ 64 := by
  simp [State.word, State.setWord, tabFind_set_same]

theorem State.word_setWord_other (s : State) {r r' : Reg} (v : Nat) (h : regAddr r' ≠ regAddr r) :
    (s.setWord r v).word r' = s.word r' := by
  simp [State.word, State.setWord, tabFind_set_other _ _ h]

theorem State.fld_setWord_other (s : State) {r r' : Reg} (v : Nat) (f : Fld)
    (h : regAddr r' ≠ regAddr r) : (s.setWord r v).fld r' f = s.fld r' f := by
  simp [State.fld, State.word_setWord_other s v h]

theorem State.fld_setFld_other (s : State) {r r' : Reg} (v : Nat) (f f' : Fld)
    (h : regAddr r' ≠ regAddr r) : (s.setFld r f v).fld r' f' = s.fld r' f' :=
  State.fld_setWord_other s _ f' h

theorem bitsOf_mod (v hi lo n : Nat) (h : hi < n) (hl : lo ≤ hi) :
    bitsOf (v % 2 ^ n) hi lo = bitsOf v hi lo := by
  apply Nat.eq_of_testBit_eq
  intro i
  rw [testBit_bitsOf, testBit_bitsOf, Nat.testBit_mod_two_pow]
  by_cases h1 : i < hi - lo + 1
  · have : i + lo < n := by omega
    simp [this]
  · simp [h1]

/-- A field after a store of it. -/
theorem State.fld_setFld_same (s : State) (r : Reg) (f : Fld) (v : Nat) (h : f.fits) :
    (s.setFld r f v).fld r f = v % 2 ^ (f.hi - f.lo + 1) := by
  simp only [State.fld, State.setFld, State.word_setWord_same, Fld.of, Fld.put]
  rw [bitsOf_mod _ _ _ _ h.2 h.1, bitsOf_withBits_same _ _ _ _ h.1]

/-- A field that a store of another leaves alone. -/
theorem State.fld_setFld_disjoint (s : State) (r : Reg) (f g : Fld) (v : Nat) (hf : f.fits)
    (hg : g.fits) (d : f.hi < g.lo ∨ g.hi < f.lo) : (s.setFld r f v).fld r g = s.fld r g := by
  simp only [State.fld, State.setFld, State.word_setWord_same, Fld.of, Fld.put]
  rw [bitsOf_mod _ _ _ _ hg.2 hg.1, bitsOf_withBits_other _ _ _ _ _ _ hf.1 hg.1 d]

/-- A field within its width is stored whole. -/
theorem State.fld_setWord_same (s : State) (r : Reg) (f : Fld) (v : Nat) (h : f.fits) :
    (s.setWord r v).fld r f = f.of v := by
  simp only [State.fld, State.word_setWord_same, Fld.of, bitsOf_mod _ _ _ _ h.2 h.1]

/-- Two fields share no bit. -/
abbrev Fld.apart (f g : Fld) : Prop := f.hi < g.lo ∨ g.hi < f.lo

/-- One register's fields are well placed and share no bit. -/
abbrev fieldsOk (fs : List FldSpec) : Prop :=
  (∀ f ∈ fs, f.fld.fits) ∧ fs.Pairwise fun f g => f.fld.apart g.fld

theorem regFields_ok (r : Reg) : fieldsOk (regFields r) := by
  cases r <;> exact of_decide_eq_true rfl

theorem Fld.of_put_same {f : Fld} (h : f.fits) (w x : Nat) :
    f.of (f.put w x) = x % 2 ^ (f.hi - f.lo + 1) := bitsOf_withBits_same _ _ _ _ h.1

theorem Fld.of_put_apart {f g : Fld} (hf : f.fits) (hg : g.fits) (d : f.apart g) (w x : Nat) :
    g.of (f.put w x) = g.of w := bitsOf_withBits_other _ _ _ _ _ _ hf.1 hg.1 d

/-- What a write of v leaves in a field that held `old` (R10). -/
def Acc.after (a : Acc) (top old v : Nat) : Nat :=
  match a with
  | .rw => v
  | .w1c => old &&& (top - v)
  | .w1s => old ||| v
  | _ => old

/-- One field's part of a write. -/
def writeField (w v : Nat) (f : FldSpec) : Nat :=
  match f.acc with
  | .rw => f.fld.put w (f.fld.of v)
  | .w1c => f.fld.put w (f.fld.of w &&& (f.fld.top - f.fld.of v))
  | .w1s => f.fld.put w (f.fld.of w ||| f.fld.of v)
  | _ => w

theorem writeWord_eq (fs : List FldSpec) (old v : Nat) :
    writeWord fs old v = fs.foldl (fun w f => writeField w v f) old := rfl

theorem Fld.of_lt (f : Fld) (w : Nat) : f.of w < 2 ^ (f.hi - f.lo + 1) := bitsOf_lt _ _ _

theorem writeField_same {f : FldSpec} (h : f.fld.fits) (w v : Nat) :
    f.fld.of (writeField w v f) = f.acc.after f.fld.top (f.fld.of w) (f.fld.of v) := by
  have hw := Fld.of_lt f.fld w
  have hv := Fld.of_lt f.fld v
  unfold writeField Acc.after
  cases f.acc <;> simp only [Fld.of_put_same h]
  · exact Nat.mod_eq_of_lt hv
  · exact Nat.mod_eq_of_lt (lt_of_le_of_lt Nat.and_le_left hw)
  · exact Nat.mod_eq_of_lt (Nat.or_lt_two_pow hw hv)

theorem writeField_apart {f : FldSpec} {g : Fld} (hf : f.fld.fits) (hg : g.fits)
    (d : f.fld.apart g) (w v : Nat) : g.of (writeField w v f) = g.of w := by
  unfold writeField
  cases f.acc <;> simp only [Fld.of_put_apart hf hg d]

theorem writeFields_apart {fs : List FldSpec} {g : Fld} (hg : g.fits) (hfs : ∀ f ∈ fs, f.fld.fits)
    (d : ∀ f ∈ fs, f.fld.apart g) (w v : Nat) :
    g.of (fs.foldl (fun w f => writeField w v f) w) = g.of w := by
  induction fs generalizing w with
  | nil => rfl
  | cons f fs ih =>
    rw [List.foldl_cons, ih (fun x hx => hfs x (by simp [hx])) (fun x hx => d x (by simp [hx])),
      writeField_apart (hfs f (by simp)) hg (d f (by simp))]

/-- Each field after a write, by its access code (R10). -/
theorem of_writeWord {fs : List FldSpec} (h : fieldsOk fs) {f : FldSpec} (hf : f ∈ fs) (old v : Nat) :
    f.fld.of (writeWord fs old v) = f.acc.after f.fld.top (f.fld.of old) (f.fld.of v) := by
  rw [writeWord_eq]
  induction fs generalizing old with
  | nil => cases hf
  | cons g fs ih =>
    obtain ⟨hfit, hd⟩ := h
    rw [List.pairwise_cons] at hd
    rw [List.foldl_cons]
    rcases List.mem_cons.mp hf with rfl | hf
    · rw [writeFields_apart (hfit f (by simp)) (fun x hx => hfit x (by simp [hx]))
        (fun x hx => (hd.1 x hx).symm.imp id id), writeField_same (hfit f (by simp))]
    · have hg := hfit g (by simp)
      have hff := hfit f (by simp [hf])
      rw [ih ⟨fun x hx => hfit x (by simp [hx]), hd.2⟩ hf, writeField_apart hg hff (hd.1 f hf)]

/-- A field after a register write that has no behaviour of its own (R10). -/
theorem State.fld_plainWrite (s : State) (r : Reg) (v : Nat) {f : FldSpec} (hf : f ∈ regFields r) :
    (s.plainWrite r v).fld r f.fld = f.acc.after f.fld.top (s.fld r f.fld) (f.fld.of v) := by
  have hfit := (regFields_ok r).1 f hf
  simp only [State.plainWrite, State.fld, State.word_setWord_same]
  rw [Fld.of, bitsOf_mod _ _ _ _ hfit.2 hfit.1, ← Fld.of, of_writeWord (regFields_ok r) hf]

end Sys2Proof.Machine
end

