-- ==== Sys2Proof/Laws/State.lean ====
section
/-! SUPPORT. Each field of State after each update, true by unfolding, so that no proof unfolds an update. -/

namespace Sys2Proof.Machine

variable (s t : State)

@[simp] theorem State.setWord_now (r : Reg) (v : Nat) : (s.setWord r v).now = s.now := rfl
@[simp] theorem State.setWord_time (r : Reg) (v : Nat) : (s.setWord r v).time = s.time := rfl
@[simp] theorem State.setWord_mem (r : Reg) (v : Nat) : (s.setWord r v).mem = s.mem := rfl
@[simp] theorem State.setWord_sramPoison (r : Reg) (v : Nat) : (s.setWord r v).sramPoison = s.sramPoison := rfl
@[simp] theorem State.setWord_parity (r : Reg) (v : Nat) : (s.setWord r v).parity = s.parity := rfl
@[simp] theorem State.setWord_chk (r : Reg) (v : Nat) : (s.setWord r v).chk = s.chk := rfl
@[simp] theorem State.setWord_host (r : Reg) (v : Nat) : (s.setWord r v).host = s.host := rfl
@[simp] theorem State.setWord_draws (r : Reg) (v : Nat) : (s.setWord r v).draws = s.draws := rfl
@[simp] theorem State.setWord_reply (r : Reg) (v : Nat) : (s.setWord r v).reply = s.reply := rfl
@[simp] theorem State.setWord_msixSent (r : Reg) (v : Nat) : (s.setWord r v).msixSent = s.msixSent := rfl
@[simp] theorem State.setWord_heldLow (r : Reg) (v : Nat) : (s.setWord r v).heldLow = s.heldLow := rfl
@[simp] theorem State.setWord_latchHigh (r : Reg) (v : Nat) : (s.setWord r v).latchHigh = s.latchHigh := rfl
@[simp] theorem State.setWord_commits (r : Reg) (v : Nat) : (s.setWord r v).commits = s.commits := rfl
@[simp] theorem State.setWord_slotNow (r : Reg) (v : Nat) : (s.setWord r v).slotNow = s.slotNow := rfl
@[simp] theorem State.setWord_reports (r : Reg) (v : Nat) : (s.setWord r v).reports = s.reports := rfl
@[simp] theorem State.setWord_cores (r : Reg) (v : Nat) : (s.setWord r v).cores = s.cores := rfl
@[simp] theorem State.setWord_tsq (r : Reg) (v : Nat) : (s.setWord r v).tsq = s.tsq := rfl
@[simp] theorem State.setWord_rotBase (r : Reg) (v : Nat) : (s.setWord r v).rotBase = s.rotBase := rfl
@[simp] theorem State.setWord_tsFree (r : Reg) (v : Nat) : (s.setWord r v).tsFree = s.tsFree := rfl
@[simp] theorem State.setWord_ports (r : Reg) (v : Nat) : (s.setWord r v).ports = s.ports := rfl
@[simp] theorem State.setWord_ghs (r : Reg) (v : Nat) : (s.setWord r v).ghs = s.ghs := rfl
@[simp] theorem State.setWord_cevents (r : Reg) (v : Nat) : (s.setWord r v).cevents = s.cevents := rfl
@[simp] theorem State.setWord_net (r : Reg) (v : Nat) : (s.setWord r v).net = s.net := rfl
@[simp] theorem State.setWord_power (r : Reg) (v : Nat) : (s.setWord r v).power = s.power := rfl
@[simp] theorem State.setWord_hif (r : Reg) (v : Nat) : (s.setWord r v).hif = s.hif := rfl
@[simp] theorem State.setWord_chip (r : Reg) (v : Nat) : (s.setWord r v).chip = s.chip := rfl
@[simp] theorem State.setWord_pending (r : Reg) (v : Nat) : (s.setWord r v).pending = s.pending := rfl
@[simp] theorem State.setWord_regs (r : Reg) (v : Nat) : (s.setWord r v).regs = tabSet s.regs (regAddr r) (BitVec.ofNat 64 v) := rfl

@[simp] theorem State.setFld_now (r : Reg) (f : Fld) (v : Nat) : (s.setFld r f v).now = s.now := rfl
@[simp] theorem State.setFld_time (r : Reg) (f : Fld) (v : Nat) : (s.setFld r f v).time = s.time := rfl
@[simp] theorem State.setFld_mem (r : Reg) (f : Fld) (v : Nat) : (s.setFld r f v).mem = s.mem := rfl
@[simp] theorem State.setFld_sramPoison (r : Reg) (f : Fld) (v : Nat) : (s.setFld r f v).sramPoison = s.sramPoison := rfl
@[simp] theorem State.setFld_parity (r : Reg) (f : Fld) (v : Nat) : (s.setFld r f v).parity = s.parity := rfl
@[simp] theorem State.setFld_chk (r : Reg) (f : Fld) (v : Nat) : (s.setFld r f v).chk = s.chk := rfl
@[simp] theorem State.setFld_host (r : Reg) (f : Fld) (v : Nat) : (s.setFld r f v).host = s.host := rfl
@[simp] theorem State.setFld_draws (r : Reg) (f : Fld) (v : Nat) : (s.setFld r f v).draws = s.draws := rfl
@[simp] theorem State.setFld_reply (r : Reg) (f : Fld) (v : Nat) : (s.setFld r f v).reply = s.reply := rfl
@[simp] theorem State.setFld_msixSent (r : Reg) (f : Fld) (v : Nat) : (s.setFld r f v).msixSent = s.msixSent := rfl
@[simp] theorem State.setFld_heldLow (r : Reg) (f : Fld) (v : Nat) : (s.setFld r f v).heldLow = s.heldLow := rfl
@[simp] theorem State.setFld_latchHigh (r : Reg) (f : Fld) (v : Nat) : (s.setFld r f v).latchHigh = s.latchHigh := rfl
@[simp] theorem State.setFld_commits (r : Reg) (f : Fld) (v : Nat) : (s.setFld r f v).commits = s.commits := rfl
@[simp] theorem State.setFld_slotNow (r : Reg) (f : Fld) (v : Nat) : (s.setFld r f v).slotNow = s.slotNow := rfl
@[simp] theorem State.setFld_reports (r : Reg) (f : Fld) (v : Nat) : (s.setFld r f v).reports = s.reports := rfl
@[simp] theorem State.setFld_cores (r : Reg) (f : Fld) (v : Nat) : (s.setFld r f v).cores = s.cores := rfl
@[simp] theorem State.setFld_tsq (r : Reg) (f : Fld) (v : Nat) : (s.setFld r f v).tsq = s.tsq := rfl
@[simp] theorem State.setFld_rotBase (r : Reg) (f : Fld) (v : Nat) : (s.setFld r f v).rotBase = s.rotBase := rfl
@[simp] theorem State.setFld_tsFree (r : Reg) (f : Fld) (v : Nat) : (s.setFld r f v).tsFree = s.tsFree := rfl
@[simp] theorem State.setFld_ports (r : Reg) (f : Fld) (v : Nat) : (s.setFld r f v).ports = s.ports := rfl
@[simp] theorem State.setFld_ghs (r : Reg) (f : Fld) (v : Nat) : (s.setFld r f v).ghs = s.ghs := rfl
@[simp] theorem State.setFld_cevents (r : Reg) (f : Fld) (v : Nat) : (s.setFld r f v).cevents = s.cevents := rfl
@[simp] theorem State.setFld_net (r : Reg) (f : Fld) (v : Nat) : (s.setFld r f v).net = s.net := rfl
@[simp] theorem State.setFld_power (r : Reg) (f : Fld) (v : Nat) : (s.setFld r f v).power = s.power := rfl
@[simp] theorem State.setFld_hif (r : Reg) (f : Fld) (v : Nat) : (s.setFld r f v).hif = s.hif := rfl
@[simp] theorem State.setFld_chip (r : Reg) (f : Fld) (v : Nat) : (s.setFld r f v).chip = s.chip := rfl
@[simp] theorem State.setFld_pending (r : Reg) (f : Fld) (v : Nat) : (s.setFld r f v).pending = s.pending := rfl
@[simp] theorem State.setFld_regs (r : Reg) (f : Fld) (v : Nat) : (s.setFld r f v).regs = tabSet s.regs (regAddr r) (BitVec.ofNat 64 (f.put (s.word r) v)) := rfl

@[simp] theorem State.bump_now (r : Reg) (f : Fld) (k : Nat) : (s.bump r f k).now = s.now := rfl
@[simp] theorem State.bump_time (r : Reg) (f : Fld) (k : Nat) : (s.bump r f k).time = s.time := rfl
@[simp] theorem State.bump_mem (r : Reg) (f : Fld) (k : Nat) : (s.bump r f k).mem = s.mem := rfl
@[simp] theorem State.bump_sramPoison (r : Reg) (f : Fld) (k : Nat) : (s.bump r f k).sramPoison = s.sramPoison := rfl
@[simp] theorem State.bump_parity (r : Reg) (f : Fld) (k : Nat) : (s.bump r f k).parity = s.parity := rfl
@[simp] theorem State.bump_chk (r : Reg) (f : Fld) (k : Nat) : (s.bump r f k).chk = s.chk := rfl
@[simp] theorem State.bump_host (r : Reg) (f : Fld) (k : Nat) : (s.bump r f k).host = s.host := rfl
@[simp] theorem State.bump_draws (r : Reg) (f : Fld) (k : Nat) : (s.bump r f k).draws = s.draws := rfl
@[simp] theorem State.bump_reply (r : Reg) (f : Fld) (k : Nat) : (s.bump r f k).reply = s.reply := rfl
@[simp] theorem State.bump_msixSent (r : Reg) (f : Fld) (k : Nat) : (s.bump r f k).msixSent = s.msixSent := rfl
@[simp] theorem State.bump_heldLow (r : Reg) (f : Fld) (k : Nat) : (s.bump r f k).heldLow = s.heldLow := rfl
@[simp] theorem State.bump_latchHigh (r : Reg) (f : Fld) (k : Nat) : (s.bump r f k).latchHigh = s.latchHigh := rfl
@[simp] theorem State.bump_commits (r : Reg) (f : Fld) (k : Nat) : (s.bump r f k).commits = s.commits := rfl
@[simp] theorem State.bump_slotNow (r : Reg) (f : Fld) (k : Nat) : (s.bump r f k).slotNow = s.slotNow := rfl
@[simp] theorem State.bump_reports (r : Reg) (f : Fld) (k : Nat) : (s.bump r f k).reports = s.reports := rfl
@[simp] theorem State.bump_cores (r : Reg) (f : Fld) (k : Nat) : (s.bump r f k).cores = s.cores := rfl
@[simp] theorem State.bump_tsq (r : Reg) (f : Fld) (k : Nat) : (s.bump r f k).tsq = s.tsq := rfl
@[simp] theorem State.bump_rotBase (r : Reg) (f : Fld) (k : Nat) : (s.bump r f k).rotBase = s.rotBase := rfl
@[simp] theorem State.bump_tsFree (r : Reg) (f : Fld) (k : Nat) : (s.bump r f k).tsFree = s.tsFree := rfl
@[simp] theorem State.bump_ports (r : Reg) (f : Fld) (k : Nat) : (s.bump r f k).ports = s.ports := rfl
@[simp] theorem State.bump_ghs (r : Reg) (f : Fld) (k : Nat) : (s.bump r f k).ghs = s.ghs := rfl
@[simp] theorem State.bump_cevents (r : Reg) (f : Fld) (k : Nat) : (s.bump r f k).cevents = s.cevents := rfl
@[simp] theorem State.bump_net (r : Reg) (f : Fld) (k : Nat) : (s.bump r f k).net = s.net := rfl
@[simp] theorem State.bump_power (r : Reg) (f : Fld) (k : Nat) : (s.bump r f k).power = s.power := rfl
@[simp] theorem State.bump_hif (r : Reg) (f : Fld) (k : Nat) : (s.bump r f k).hif = s.hif := rfl
@[simp] theorem State.bump_chip (r : Reg) (f : Fld) (k : Nat) : (s.bump r f k).chip = s.chip := rfl
@[simp] theorem State.bump_pending (r : Reg) (f : Fld) (k : Nat) : (s.bump r f k).pending = s.pending := rfl

@[simp] theorem State.plainWrite_now (r : Reg) (v : Nat) : (s.plainWrite r v).now = s.now := rfl
@[simp] theorem State.plainWrite_time (r : Reg) (v : Nat) : (s.plainWrite r v).time = s.time := rfl
@[simp] theorem State.plainWrite_mem (r : Reg) (v : Nat) : (s.plainWrite r v).mem = s.mem := rfl
@[simp] theorem State.plainWrite_sramPoison (r : Reg) (v : Nat) : (s.plainWrite r v).sramPoison = s.sramPoison := rfl
@[simp] theorem State.plainWrite_parity (r : Reg) (v : Nat) : (s.plainWrite r v).parity = s.parity := rfl
@[simp] theorem State.plainWrite_chk (r : Reg) (v : Nat) : (s.plainWrite r v).chk = s.chk := rfl
@[simp] theorem State.plainWrite_host (r : Reg) (v : Nat) : (s.plainWrite r v).host = s.host := rfl
@[simp] theorem State.plainWrite_draws (r : Reg) (v : Nat) : (s.plainWrite r v).draws = s.draws := rfl
@[simp] theorem State.plainWrite_reply (r : Reg) (v : Nat) : (s.plainWrite r v).reply = s.reply := rfl
@[simp] theorem State.plainWrite_msixSent (r : Reg) (v : Nat) : (s.plainWrite r v).msixSent = s.msixSent := rfl
@[simp] theorem State.plainWrite_heldLow (r : Reg) (v : Nat) : (s.plainWrite r v).heldLow = s.heldLow := rfl
@[simp] theorem State.plainWrite_latchHigh (r : Reg) (v : Nat) : (s.plainWrite r v).latchHigh = s.latchHigh := rfl
@[simp] theorem State.plainWrite_commits (r : Reg) (v : Nat) : (s.plainWrite r v).commits = s.commits := rfl
@[simp] theorem State.plainWrite_slotNow (r : Reg) (v : Nat) : (s.plainWrite r v).slotNow = s.slotNow := rfl
@[simp] theorem State.plainWrite_reports (r : Reg) (v : Nat) : (s.plainWrite r v).reports = s.reports := rfl
@[simp] theorem State.plainWrite_cores (r : Reg) (v : Nat) : (s.plainWrite r v).cores = s.cores := rfl
@[simp] theorem State.plainWrite_tsq (r : Reg) (v : Nat) : (s.plainWrite r v).tsq = s.tsq := rfl
@[simp] theorem State.plainWrite_rotBase (r : Reg) (v : Nat) : (s.plainWrite r v).rotBase = s.rotBase := rfl
@[simp] theorem State.plainWrite_tsFree (r : Reg) (v : Nat) : (s.plainWrite r v).tsFree = s.tsFree := rfl
@[simp] theorem State.plainWrite_ports (r : Reg) (v : Nat) : (s.plainWrite r v).ports = s.ports := rfl
@[simp] theorem State.plainWrite_ghs (r : Reg) (v : Nat) : (s.plainWrite r v).ghs = s.ghs := rfl
@[simp] theorem State.plainWrite_cevents (r : Reg) (v : Nat) : (s.plainWrite r v).cevents = s.cevents := rfl
@[simp] theorem State.plainWrite_net (r : Reg) (v : Nat) : (s.plainWrite r v).net = s.net := rfl
@[simp] theorem State.plainWrite_power (r : Reg) (v : Nat) : (s.plainWrite r v).power = s.power := rfl
@[simp] theorem State.plainWrite_hif (r : Reg) (v : Nat) : (s.plainWrite r v).hif = s.hif := rfl
@[simp] theorem State.plainWrite_chip (r : Reg) (v : Nat) : (s.plainWrite r v).chip = s.chip := rfl
@[simp] theorem State.plainWrite_pending (r : Reg) (v : Nat) : (s.plainWrite r v).pending = s.pending := rfl

@[simp] theorem State.setCore_now (n : Nat) (c : Core) : (s.setCore n c).now = s.now := rfl
@[simp] theorem State.setCore_time (n : Nat) (c : Core) : (s.setCore n c).time = s.time := rfl
@[simp] theorem State.setCore_regs (n : Nat) (c : Core) : (s.setCore n c).regs = s.regs := rfl
@[simp] theorem State.setCore_mem (n : Nat) (c : Core) : (s.setCore n c).mem = s.mem := rfl
@[simp] theorem State.setCore_sramPoison (n : Nat) (c : Core) : (s.setCore n c).sramPoison = s.sramPoison := rfl
@[simp] theorem State.setCore_parity (n : Nat) (c : Core) : (s.setCore n c).parity = s.parity := rfl
@[simp] theorem State.setCore_chk (n : Nat) (c : Core) : (s.setCore n c).chk = s.chk := rfl
@[simp] theorem State.setCore_host (n : Nat) (c : Core) : (s.setCore n c).host = s.host := rfl
@[simp] theorem State.setCore_draws (n : Nat) (c : Core) : (s.setCore n c).draws = s.draws := rfl
@[simp] theorem State.setCore_reply (n : Nat) (c : Core) : (s.setCore n c).reply = s.reply := rfl
@[simp] theorem State.setCore_msixSent (n : Nat) (c : Core) : (s.setCore n c).msixSent = s.msixSent := rfl
@[simp] theorem State.setCore_heldLow (n : Nat) (c : Core) : (s.setCore n c).heldLow = s.heldLow := rfl
@[simp] theorem State.setCore_latchHigh (n : Nat) (c : Core) : (s.setCore n c).latchHigh = s.latchHigh := rfl
@[simp] theorem State.setCore_commits (n : Nat) (c : Core) : (s.setCore n c).commits = s.commits := rfl
@[simp] theorem State.setCore_slotNow (n : Nat) (c : Core) : (s.setCore n c).slotNow = s.slotNow := rfl
@[simp] theorem State.setCore_reports (n : Nat) (c : Core) : (s.setCore n c).reports = s.reports := rfl
@[simp] theorem State.setCore_tsq (n : Nat) (c : Core) : (s.setCore n c).tsq = s.tsq := rfl
@[simp] theorem State.setCore_rotBase (n : Nat) (c : Core) : (s.setCore n c).rotBase = s.rotBase := rfl
@[simp] theorem State.setCore_tsFree (n : Nat) (c : Core) : (s.setCore n c).tsFree = s.tsFree := rfl
@[simp] theorem State.setCore_ports (n : Nat) (c : Core) : (s.setCore n c).ports = s.ports := rfl
@[simp] theorem State.setCore_ghs (n : Nat) (c : Core) : (s.setCore n c).ghs = s.ghs := rfl
@[simp] theorem State.setCore_cevents (n : Nat) (c : Core) : (s.setCore n c).cevents = s.cevents := rfl
@[simp] theorem State.setCore_net (n : Nat) (c : Core) : (s.setCore n c).net = s.net := rfl
@[simp] theorem State.setCore_power (n : Nat) (c : Core) : (s.setCore n c).power = s.power := rfl
@[simp] theorem State.setCore_hif (n : Nat) (c : Core) : (s.setCore n c).hif = s.hif := rfl
@[simp] theorem State.setCore_chip (n : Nat) (c : Core) : (s.setCore n c).chip = s.chip := rfl
@[simp] theorem State.setCore_pending (n : Nat) (c : Core) : (s.setCore n c).pending = s.pending := rfl
@[simp] theorem State.setCore_cores (n : Nat) (c : Core) : (s.setCore n c).cores = tabSet s.cores n c := rfl

@[simp] theorem State.modCore_now (n : Nat) (f : Core → Core) : (s.modCore n f).now = s.now := rfl
@[simp] theorem State.modCore_time (n : Nat) (f : Core → Core) : (s.modCore n f).time = s.time := rfl
@[simp] theorem State.modCore_regs (n : Nat) (f : Core → Core) : (s.modCore n f).regs = s.regs := rfl
@[simp] theorem State.modCore_mem (n : Nat) (f : Core → Core) : (s.modCore n f).mem = s.mem := rfl
@[simp] theorem State.modCore_sramPoison (n : Nat) (f : Core → Core) : (s.modCore n f).sramPoison = s.sramPoison := rfl
@[simp] theorem State.modCore_parity (n : Nat) (f : Core → Core) : (s.modCore n f).parity = s.parity := rfl
@[simp] theorem State.modCore_chk (n : Nat) (f : Core → Core) : (s.modCore n f).chk = s.chk := rfl
@[simp] theorem State.modCore_host (n : Nat) (f : Core → Core) : (s.modCore n f).host = s.host := rfl
@[simp] theorem State.modCore_draws (n : Nat) (f : Core → Core) : (s.modCore n f).draws = s.draws := rfl
@[simp] theorem State.modCore_reply (n : Nat) (f : Core → Core) : (s.modCore n f).reply = s.reply := rfl
@[simp] theorem State.modCore_msixSent (n : Nat) (f : Core → Core) : (s.modCore n f).msixSent = s.msixSent := rfl
@[simp] theorem State.modCore_heldLow (n : Nat) (f : Core → Core) : (s.modCore n f).heldLow = s.heldLow := rfl
@[simp] theorem State.modCore_latchHigh (n : Nat) (f : Core → Core) : (s.modCore n f).latchHigh = s.latchHigh := rfl
@[simp] theorem State.modCore_commits (n : Nat) (f : Core → Core) : (s.modCore n f).commits = s.commits := rfl
@[simp] theorem State.modCore_slotNow (n : Nat) (f : Core → Core) : (s.modCore n f).slotNow = s.slotNow := rfl
@[simp] theorem State.modCore_reports (n : Nat) (f : Core → Core) : (s.modCore n f).reports = s.reports := rfl
@[simp] theorem State.modCore_tsq (n : Nat) (f : Core → Core) : (s.modCore n f).tsq = s.tsq := rfl
@[simp] theorem State.modCore_rotBase (n : Nat) (f : Core → Core) : (s.modCore n f).rotBase = s.rotBase := rfl
@[simp] theorem State.modCore_tsFree (n : Nat) (f : Core → Core) : (s.modCore n f).tsFree = s.tsFree := rfl
@[simp] theorem State.modCore_ports (n : Nat) (f : Core → Core) : (s.modCore n f).ports = s.ports := rfl
@[simp] theorem State.modCore_ghs (n : Nat) (f : Core → Core) : (s.modCore n f).ghs = s.ghs := rfl
@[simp] theorem State.modCore_cevents (n : Nat) (f : Core → Core) : (s.modCore n f).cevents = s.cevents := rfl
@[simp] theorem State.modCore_net (n : Nat) (f : Core → Core) : (s.modCore n f).net = s.net := rfl
@[simp] theorem State.modCore_power (n : Nat) (f : Core → Core) : (s.modCore n f).power = s.power := rfl
@[simp] theorem State.modCore_hif (n : Nat) (f : Core → Core) : (s.modCore n f).hif = s.hif := rfl
@[simp] theorem State.modCore_chip (n : Nat) (f : Core → Core) : (s.modCore n f).chip = s.chip := rfl
@[simp] theorem State.modCore_pending (n : Nat) (f : Core → Core) : (s.modCore n f).pending = s.pending := rfl
@[simp] theorem State.modCore_cores (n : Nat) (f : Core → Core) : (s.modCore n f).cores = tabSet s.cores n (f (s.core n)) := rfl

@[simp] theorem State.setMxe_now (n m : Nat) (x : Mxe) : (s.setMxe n m x).now = s.now := rfl
@[simp] theorem State.setMxe_time (n m : Nat) (x : Mxe) : (s.setMxe n m x).time = s.time := rfl
@[simp] theorem State.setMxe_regs (n m : Nat) (x : Mxe) : (s.setMxe n m x).regs = s.regs := rfl
@[simp] theorem State.setMxe_mem (n m : Nat) (x : Mxe) : (s.setMxe n m x).mem = s.mem := rfl
@[simp] theorem State.setMxe_sramPoison (n m : Nat) (x : Mxe) : (s.setMxe n m x).sramPoison = s.sramPoison := rfl
@[simp] theorem State.setMxe_parity (n m : Nat) (x : Mxe) : (s.setMxe n m x).parity = s.parity := rfl
@[simp] theorem State.setMxe_chk (n m : Nat) (x : Mxe) : (s.setMxe n m x).chk = s.chk := rfl
@[simp] theorem State.setMxe_host (n m : Nat) (x : Mxe) : (s.setMxe n m x).host = s.host := rfl
@[simp] theorem State.setMxe_draws (n m : Nat) (x : Mxe) : (s.setMxe n m x).draws = s.draws := rfl
@[simp] theorem State.setMxe_reply (n m : Nat) (x : Mxe) : (s.setMxe n m x).reply = s.reply := rfl
@[simp] theorem State.setMxe_msixSent (n m : Nat) (x : Mxe) : (s.setMxe n m x).msixSent = s.msixSent := rfl
@[simp] theorem State.setMxe_heldLow (n m : Nat) (x : Mxe) : (s.setMxe n m x).heldLow = s.heldLow := rfl
@[simp] theorem State.setMxe_latchHigh (n m : Nat) (x : Mxe) : (s.setMxe n m x).latchHigh = s.latchHigh := rfl
@[simp] theorem State.setMxe_commits (n m : Nat) (x : Mxe) : (s.setMxe n m x).commits = s.commits := rfl
@[simp] theorem State.setMxe_slotNow (n m : Nat) (x : Mxe) : (s.setMxe n m x).slotNow = s.slotNow := rfl
@[simp] theorem State.setMxe_reports (n m : Nat) (x : Mxe) : (s.setMxe n m x).reports = s.reports := rfl
@[simp] theorem State.setMxe_tsq (n m : Nat) (x : Mxe) : (s.setMxe n m x).tsq = s.tsq := rfl
@[simp] theorem State.setMxe_rotBase (n m : Nat) (x : Mxe) : (s.setMxe n m x).rotBase = s.rotBase := rfl
@[simp] theorem State.setMxe_tsFree (n m : Nat) (x : Mxe) : (s.setMxe n m x).tsFree = s.tsFree := rfl
@[simp] theorem State.setMxe_ports (n m : Nat) (x : Mxe) : (s.setMxe n m x).ports = s.ports := rfl
@[simp] theorem State.setMxe_ghs (n m : Nat) (x : Mxe) : (s.setMxe n m x).ghs = s.ghs := rfl
@[simp] theorem State.setMxe_cevents (n m : Nat) (x : Mxe) : (s.setMxe n m x).cevents = s.cevents := rfl
@[simp] theorem State.setMxe_net (n m : Nat) (x : Mxe) : (s.setMxe n m x).net = s.net := rfl
@[simp] theorem State.setMxe_power (n m : Nat) (x : Mxe) : (s.setMxe n m x).power = s.power := rfl
@[simp] theorem State.setMxe_hif (n m : Nat) (x : Mxe) : (s.setMxe n m x).hif = s.hif := rfl
@[simp] theorem State.setMxe_chip (n m : Nat) (x : Mxe) : (s.setMxe n m x).chip = s.chip := rfl
@[simp] theorem State.setMxe_pending (n m : Nat) (x : Mxe) : (s.setMxe n m x).pending = s.pending := rfl

@[simp] theorem State.modMxe_now (n m : Nat) (f : Mxe → Mxe) : (s.modMxe n m f).now = s.now := rfl
@[simp] theorem State.modMxe_time (n m : Nat) (f : Mxe → Mxe) : (s.modMxe n m f).time = s.time := rfl
@[simp] theorem State.modMxe_regs (n m : Nat) (f : Mxe → Mxe) : (s.modMxe n m f).regs = s.regs := rfl
@[simp] theorem State.modMxe_mem (n m : Nat) (f : Mxe → Mxe) : (s.modMxe n m f).mem = s.mem := rfl
@[simp] theorem State.modMxe_sramPoison (n m : Nat) (f : Mxe → Mxe) : (s.modMxe n m f).sramPoison = s.sramPoison := rfl
@[simp] theorem State.modMxe_parity (n m : Nat) (f : Mxe → Mxe) : (s.modMxe n m f).parity = s.parity := rfl
@[simp] theorem State.modMxe_chk (n m : Nat) (f : Mxe → Mxe) : (s.modMxe n m f).chk = s.chk := rfl
@[simp] theorem State.modMxe_host (n m : Nat) (f : Mxe → Mxe) : (s.modMxe n m f).host = s.host := rfl
@[simp] theorem State.modMxe_draws (n m : Nat) (f : Mxe → Mxe) : (s.modMxe n m f).draws = s.draws := rfl
@[simp] theorem State.modMxe_reply (n m : Nat) (f : Mxe → Mxe) : (s.modMxe n m f).reply = s.reply := rfl
@[simp] theorem State.modMxe_msixSent (n m : Nat) (f : Mxe → Mxe) : (s.modMxe n m f).msixSent = s.msixSent := rfl
@[simp] theorem State.modMxe_heldLow (n m : Nat) (f : Mxe → Mxe) : (s.modMxe n m f).heldLow = s.heldLow := rfl
@[simp] theorem State.modMxe_latchHigh (n m : Nat) (f : Mxe → Mxe) : (s.modMxe n m f).latchHigh = s.latchHigh := rfl
@[simp] theorem State.modMxe_commits (n m : Nat) (f : Mxe → Mxe) : (s.modMxe n m f).commits = s.commits := rfl
@[simp] theorem State.modMxe_slotNow (n m : Nat) (f : Mxe → Mxe) : (s.modMxe n m f).slotNow = s.slotNow := rfl
@[simp] theorem State.modMxe_reports (n m : Nat) (f : Mxe → Mxe) : (s.modMxe n m f).reports = s.reports := rfl
@[simp] theorem State.modMxe_tsq (n m : Nat) (f : Mxe → Mxe) : (s.modMxe n m f).tsq = s.tsq := rfl
@[simp] theorem State.modMxe_rotBase (n m : Nat) (f : Mxe → Mxe) : (s.modMxe n m f).rotBase = s.rotBase := rfl
@[simp] theorem State.modMxe_tsFree (n m : Nat) (f : Mxe → Mxe) : (s.modMxe n m f).tsFree = s.tsFree := rfl
@[simp] theorem State.modMxe_ports (n m : Nat) (f : Mxe → Mxe) : (s.modMxe n m f).ports = s.ports := rfl
@[simp] theorem State.modMxe_ghs (n m : Nat) (f : Mxe → Mxe) : (s.modMxe n m f).ghs = s.ghs := rfl
@[simp] theorem State.modMxe_cevents (n m : Nat) (f : Mxe → Mxe) : (s.modMxe n m f).cevents = s.cevents := rfl
@[simp] theorem State.modMxe_net (n m : Nat) (f : Mxe → Mxe) : (s.modMxe n m f).net = s.net := rfl
@[simp] theorem State.modMxe_power (n m : Nat) (f : Mxe → Mxe) : (s.modMxe n m f).power = s.power := rfl
@[simp] theorem State.modMxe_hif (n m : Nat) (f : Mxe → Mxe) : (s.modMxe n m f).hif = s.hif := rfl
@[simp] theorem State.modMxe_chip (n m : Nat) (f : Mxe → Mxe) : (s.modMxe n m f).chip = s.chip := rfl
@[simp] theorem State.modMxe_pending (n m : Nat) (f : Mxe → Mxe) : (s.modMxe n m f).pending = s.pending := rfl

@[simp] theorem State.advance_time (k : Nat) : (s.advance k).time = s.time := rfl
@[simp] theorem State.advance_regs (k : Nat) : (s.advance k).regs = s.regs := rfl
@[simp] theorem State.advance_mem (k : Nat) : (s.advance k).mem = s.mem := rfl
@[simp] theorem State.advance_sramPoison (k : Nat) : (s.advance k).sramPoison = s.sramPoison := rfl
@[simp] theorem State.advance_parity (k : Nat) : (s.advance k).parity = s.parity := rfl
@[simp] theorem State.advance_chk (k : Nat) : (s.advance k).chk = s.chk := rfl
@[simp] theorem State.advance_host (k : Nat) : (s.advance k).host = s.host := rfl
@[simp] theorem State.advance_draws (k : Nat) : (s.advance k).draws = s.draws := rfl
@[simp] theorem State.advance_reply (k : Nat) : (s.advance k).reply = s.reply := rfl
@[simp] theorem State.advance_msixSent (k : Nat) : (s.advance k).msixSent = s.msixSent := rfl
@[simp] theorem State.advance_heldLow (k : Nat) : (s.advance k).heldLow = s.heldLow := rfl
@[simp] theorem State.advance_latchHigh (k : Nat) : (s.advance k).latchHigh = s.latchHigh := rfl
@[simp] theorem State.advance_commits (k : Nat) : (s.advance k).commits = s.commits := rfl
@[simp] theorem State.advance_slotNow (k : Nat) : (s.advance k).slotNow = s.slotNow := rfl
@[simp] theorem State.advance_reports (k : Nat) : (s.advance k).reports = s.reports := rfl
@[simp] theorem State.advance_cores (k : Nat) : (s.advance k).cores = s.cores := rfl
@[simp] theorem State.advance_tsq (k : Nat) : (s.advance k).tsq = s.tsq := rfl
@[simp] theorem State.advance_rotBase (k : Nat) : (s.advance k).rotBase = s.rotBase := rfl
@[simp] theorem State.advance_tsFree (k : Nat) : (s.advance k).tsFree = s.tsFree := rfl
@[simp] theorem State.advance_ports (k : Nat) : (s.advance k).ports = s.ports := rfl
@[simp] theorem State.advance_ghs (k : Nat) : (s.advance k).ghs = s.ghs := rfl
@[simp] theorem State.advance_cevents (k : Nat) : (s.advance k).cevents = s.cevents := rfl
@[simp] theorem State.advance_net (k : Nat) : (s.advance k).net = s.net := rfl
@[simp] theorem State.advance_power (k : Nat) : (s.advance k).power = s.power := rfl
@[simp] theorem State.advance_hif (k : Nat) : (s.advance k).hif = s.hif := rfl
@[simp] theorem State.advance_chip (k : Nat) : (s.advance k).chip = s.chip := rfl
@[simp] theorem State.advance_pending (k : Nat) : (s.advance k).pending = s.pending := rfl
@[simp] theorem State.advance_now (k : Nat) : (s.advance k).now = max s.now k := rfl

@[simp] theorem State.wr_now (a : Nat) (bs : List Byte) : (s.wr a bs).now = s.now := rfl
@[simp] theorem State.wr_time (a : Nat) (bs : List Byte) : (s.wr a bs).time = s.time := rfl
@[simp] theorem State.wr_regs (a : Nat) (bs : List Byte) : (s.wr a bs).regs = s.regs := rfl
@[simp] theorem State.wr_sramPoison (a : Nat) (bs : List Byte) : (s.wr a bs).sramPoison = s.sramPoison := rfl
@[simp] theorem State.wr_parity (a : Nat) (bs : List Byte) : (s.wr a bs).parity = s.parity := rfl
@[simp] theorem State.wr_chk (a : Nat) (bs : List Byte) : (s.wr a bs).chk = s.chk := rfl
@[simp] theorem State.wr_host (a : Nat) (bs : List Byte) : (s.wr a bs).host = s.host := rfl
@[simp] theorem State.wr_draws (a : Nat) (bs : List Byte) : (s.wr a bs).draws = s.draws := rfl
@[simp] theorem State.wr_reply (a : Nat) (bs : List Byte) : (s.wr a bs).reply = s.reply := rfl
@[simp] theorem State.wr_msixSent (a : Nat) (bs : List Byte) : (s.wr a bs).msixSent = s.msixSent := rfl
@[simp] theorem State.wr_heldLow (a : Nat) (bs : List Byte) : (s.wr a bs).heldLow = s.heldLow := rfl
@[simp] theorem State.wr_latchHigh (a : Nat) (bs : List Byte) : (s.wr a bs).latchHigh = s.latchHigh := rfl
@[simp] theorem State.wr_commits (a : Nat) (bs : List Byte) : (s.wr a bs).commits = s.commits := rfl
@[simp] theorem State.wr_slotNow (a : Nat) (bs : List Byte) : (s.wr a bs).slotNow = s.slotNow := rfl
@[simp] theorem State.wr_reports (a : Nat) (bs : List Byte) : (s.wr a bs).reports = s.reports := rfl
@[simp] theorem State.wr_cores (a : Nat) (bs : List Byte) : (s.wr a bs).cores = s.cores := rfl
@[simp] theorem State.wr_tsq (a : Nat) (bs : List Byte) : (s.wr a bs).tsq = s.tsq := rfl
@[simp] theorem State.wr_rotBase (a : Nat) (bs : List Byte) : (s.wr a bs).rotBase = s.rotBase := rfl
@[simp] theorem State.wr_tsFree (a : Nat) (bs : List Byte) : (s.wr a bs).tsFree = s.tsFree := rfl
@[simp] theorem State.wr_ports (a : Nat) (bs : List Byte) : (s.wr a bs).ports = s.ports := rfl
@[simp] theorem State.wr_ghs (a : Nat) (bs : List Byte) : (s.wr a bs).ghs = s.ghs := rfl
@[simp] theorem State.wr_cevents (a : Nat) (bs : List Byte) : (s.wr a bs).cevents = s.cevents := rfl
@[simp] theorem State.wr_net (a : Nat) (bs : List Byte) : (s.wr a bs).net = s.net := rfl
@[simp] theorem State.wr_power (a : Nat) (bs : List Byte) : (s.wr a bs).power = s.power := rfl
@[simp] theorem State.wr_hif (a : Nat) (bs : List Byte) : (s.wr a bs).hif = s.hif := rfl
@[simp] theorem State.wr_chip (a : Nat) (bs : List Byte) : (s.wr a bs).chip = s.chip := rfl
@[simp] theorem State.wr_pending (a : Nat) (bs : List Byte) : (s.wr a bs).pending = s.pending := rfl
@[simp] theorem State.wr_mem (a : Nat) (bs : List Byte) : (s.wr a bs).mem = memWrite s.mem (canon a) bs := rfl

@[simp] theorem State.settle_time : (s.settle t).time = t.time := rfl
@[simp] theorem State.settle_regs : (s.settle t).regs = t.regs := rfl
@[simp] theorem State.settle_sramPoison : (s.settle t).sramPoison = t.sramPoison := rfl
@[simp] theorem State.settle_parity : (s.settle t).parity = t.parity := rfl
@[simp] theorem State.settle_chk : (s.settle t).chk = t.chk := rfl
@[simp] theorem State.settle_draws : (s.settle t).draws = t.draws := rfl
@[simp] theorem State.settle_reply : (s.settle t).reply = t.reply := rfl
@[simp] theorem State.settle_msixSent : (s.settle t).msixSent = t.msixSent := rfl
@[simp] theorem State.settle_heldLow : (s.settle t).heldLow = t.heldLow := rfl
@[simp] theorem State.settle_latchHigh : (s.settle t).latchHigh = t.latchHigh := rfl
@[simp] theorem State.settle_commits : (s.settle t).commits = t.commits := rfl
@[simp] theorem State.settle_slotNow : (s.settle t).slotNow = t.slotNow := rfl
@[simp] theorem State.settle_reports : (s.settle t).reports = t.reports := rfl
@[simp] theorem State.settle_cores : (s.settle t).cores = t.cores := rfl
@[simp] theorem State.settle_tsq : (s.settle t).tsq = t.tsq := rfl
@[simp] theorem State.settle_rotBase : (s.settle t).rotBase = t.rotBase := rfl
@[simp] theorem State.settle_tsFree : (s.settle t).tsFree = t.tsFree := rfl
@[simp] theorem State.settle_ports : (s.settle t).ports = t.ports := rfl
@[simp] theorem State.settle_ghs : (s.settle t).ghs = t.ghs := rfl
@[simp] theorem State.settle_cevents : (s.settle t).cevents = t.cevents := rfl
@[simp] theorem State.settle_net : (s.settle t).net = t.net := rfl
@[simp] theorem State.settle_hif : (s.settle t).hif = t.hif := rfl
@[simp] theorem State.settle_chip : (s.settle t).chip = t.chip := rfl
@[simp] theorem State.settle_pending : (s.settle t).pending = s.pending := rfl
@[simp] theorem State.settle_now : (s.settle t).now = max s.now t.now := rfl
@[simp] theorem State.settle_mem : (s.settle t).mem = memNorm t.mem := rfl
@[simp] theorem State.settle_host : (s.settle t).host = memNorm t.host := rfl
@[simp] theorem State.settle_word (r : Reg) : (s.settle t).word r = t.word r := rfl
@[simp] theorem State.settle_fld (r : Reg) (f : Fld) : (s.settle t).fld r f = t.fld r f := rfl
@[simp] theorem State.settle_bit (r : Reg) (f : Fld) : (s.settle t).bit r f = t.bit r f := rfl
@[simp] theorem State.settle_core (n : Nat) : (s.settle t).core n = t.core n := rfl
@[simp] theorem State.settle_mxe (n m : Nat) : (s.settle t).mxe n m = t.mxe n m := rfl
@[simp] theorem State.word_setCore (n : Nat) (c : Core) (r : Reg) : (s.setCore n c).word r = s.word r := rfl
@[simp] theorem State.word_modCore (n : Nat) (f : Core → Core) (r : Reg) :
    (s.modCore n f).word r = s.word r := rfl
@[simp] theorem State.core_setWord (n : Nat) (r : Reg) (v : Nat) : (s.setWord r v).core n = s.core n := rfl
@[simp] theorem State.core_setFld (n : Nat) (r : Reg) (f : Fld) (v : Nat) :
    (s.setFld r f v).core n = s.core n := rfl

end Sys2Proof.Machine
end

