-- ==== Sys2Proof/Laws/Raise.lean ====
section
/-! SUPPORT. What raising an event can change at all: registers of the error unit and the MSI-X pending bits,
and the list of messages sent. -/

namespace Sys2Proof.Machine

/-- A CSR address that a raised event may write: the error unit, the MSI-X pending bits. -/
abbrev errAddr (a : Nat) : Prop :=
  (0x020250000000 ≤ a ∧ a < 0x020250020000) ∨ (0x020200111000 ≤ a ∧ a < 0x020200111020)

/-- Two states differ at most in registers of the error unit and in messages sent. -/
def ErrOnly (s t : State) : Prop :=
  t = { s with regs := t.regs, msixSent := t.msixSent } ∧
  ∀ a, ¬ errAddr a → tabFind t.regs a = tabFind s.regs a

theorem ErrOnly.refl (s : State) : ErrOnly s s := ⟨rfl, fun _ _ => rfl⟩

theorem ErrOnly.trans {s t u : State} (h : ErrOnly s t) (k : ErrOnly t u) : ErrOnly s u := by
  refine ⟨?_, fun a ha => (k.2 a ha).trans (h.2 a ha)⟩
  have h1 := h.1; have k1 := k.1
  rw [k1, h1]

theorem errOnly_setWord (s : State) {r : Reg} (v : Nat) (h : errAddr (regAddr r)) :
    ErrOnly s (s.setWord r v) :=
  ⟨rfl, fun _ ha => tabFind_set_other _ _ (fun e => ha (e ▸ h))⟩

theorem errOnly_setFld (s : State) {r : Reg} (f : Fld) (v : Nat) (h : errAddr (regAddr r)) :
    ErrOnly s (s.setFld r f v) := errOnly_setWord s _ h

theorem errOnly_msix (s : State) {v : Nat} (h : v < 256) : ErrOnly s (s.msix v) := by
  unfold State.msix
  split
  · exact errOnly_setWord s _ (by simp only [errAddr, regAddr]; omega)
  · exact ⟨rfl, fun _ _ => rfl⟩

theorem errOnly_ringWrite (s : State) {i : Nat} (bs : List Byte) (h : i < 1024) :
    ErrOnly s (s.ringWrite i bs) := by
  unfold State.ringWrite
  have key : ∀ (l : List Nat) (u : State), (∀ w ∈ l, w < 8) → ErrOnly s u →
      ErrOnly s (l.foldl (fun s w => s.setWord (.errRing i w) (fieldAt bs (8 * w) 8)) u) := by
    intro l
    induction l with
    | nil => intro u _ hu; exact hu
    | cons w l ih =>
      intro u hw hu
      rw [List.foldl_cons]
      have := hw w (by simp)
      exact ih _ (fun x hx => hw x (by simp [hx]))
        (hu.trans (errOnly_setWord u _ (by simp only [errAddr, regAddr]; omega)))
  exact key _ _ (by simp) (.refl s)

theorem State.fld_lt (s : State) (r : Reg) (f : Fld) : s.fld r f < 2 ^ (f.hi - f.lo + 1) := bitsOf_lt ..

/-- A raised event changes only the error unit and the messages sent (R485). -/
theorem errOnly_raise (s : State) (e : Err) : ErrOnly s (s.raise e) := by
  have hv : (if isInfo e.code then 193 else 192) < 256 := by split <;> decide
  unfold State.raise
  generalize (if isInfo e.code then 193 else 192) = v at hv ⊢
  dsimp only
  split
  · exact .refl s
  · split
    · exact ((errOnly_setFld s (r := .errHead) _ _ (by decide)).trans
        (errOnly_setFld _ (r := .errStat) _ _ (by decide))).trans
        (errOnly_setFld _ (r := .errStat) _ _ (by decide))
    · have hh : s.fld .errHead F.errHeadHead < 1024 := State.fld_lt ..
      exact (((errOnly_setFld s (r := .errHead) _ _ (by decide)).trans
        (errOnly_ringWrite _ _ hh)).trans
        (errOnly_setFld _ (r := .errHead) _ _ (by decide))).trans (errOnly_msix _ hv)

theorem ErrOnly.word {s t : State} (h : ErrOnly s t) {r : Reg} (hr : ¬ errAddr (regAddr r)) :
    t.word r = s.word r := by simp only [State.word, h.2 _ hr]

theorem ErrOnly.fld {s t : State} (h : ErrOnly s t) {r : Reg} (f : Fld) (hr : ¬ errAddr (regAddr r)) :
    t.fld r f = s.fld r f := by simp only [State.fld, h.word hr]

end Sys2Proof.Machine
end

