-- ==== Sys2Proof/Laws/Mem.lean ====
section
/-! SUPPORT. Memory: a read after a write, what a write leaves alone, and that every memory operation keeps
the canonical form. -/

namespace Sys2Proof.Machine

@[simp] theorem memByte_set_same (m : List Host.Cell) (a : Nat) (b : Byte) :
    memByte (memSet m a b) a = b := by
  unfold memByte memSet
  split
  · next h => rw [h]; exact tabGet_del_same ..
  · exact tabGet_set_same ..

theorem memByte_set_other (m : List Host.Cell) {a x : Nat} (b : Byte) (h : x ≠ a) :
    memByte (memSet m a b) x = memByte m x := by
  unfold memByte memSet
  split
  · exact tabGet_del_other _ _ h
  · exact tabGet_set_other _ _ _ h

/-- A write leaves every byte outside it alone. -/
theorem memByte_write_other (m : List Host.Cell) (a x : Nat) (bs : List Byte)
    (h : x < a ∨ a + bs.length ≤ x) : memByte (memWrite m a bs) x = memByte m x := by
  induction bs generalizing m a with
  | nil => rfl
  | cons b bs ih =>
    simp only [List.length_cons] at h
    rw [memWrite, ih _ _ (by omega), memByte_set_other _ _ (by omega)]

/-- A byte of a write reads as written. -/
theorem memByte_write_same (m : List Host.Cell) (a i : Nat) (bs : List Byte) (h : i < bs.length) :
    memByte (memWrite m a bs) (a + i) = bs[i] := by
  induction bs generalizing m a i with
  | nil => simp at h
  | cons b bs ih =>
    cases i with
    | zero => rw [memWrite, memByte_write_other _ _ _ _ (by omega)]; simp
    | succ i =>
      have := ih (memSet m a b) (a + 1) i (by simpa using h)
      simpa [memWrite, Nat.add_assoc, Nat.add_comm 1 i] using this

/-- A read of the bytes just written gives them. -/
theorem memRead_write (m : List Host.Cell) (a : Nat) (bs : List Byte) :
    memRead (memWrite m a bs) a bs.length = bs := by
  induction bs generalizing m a with
  | nil => rfl
  | cons b bs ih =>
    simp only [List.length_cons, memRead, memWrite]
    rw [ih, memByte_write_other _ _ _ _ (by omega)]; simp

theorem memRead_write_other (m : List Host.Cell) (a x n : Nat) (bs : List Byte)
    (h : x + n ≤ a ∨ a + bs.length ≤ x) : memRead (memWrite m a bs) x n = memRead m x n := by
  induction n generalizing x with
  | zero => rfl
  | succ n ih =>
    simp only [memRead]
    rw [ih _ (by omega), memByte_write_other _ _ _ _ (by omega)]

theorem memWf_set {m : List Host.Cell} (a : Nat) (b : Byte) (h : memWf m = true) :
    memWf (memSet m a b) = true := by
  simp only [memWf, Bool.and_eq_true, List.all_eq_true] at h ⊢
  unfold memSet
  split
  · exact ⟨tabRising_del a h.1, fun c hc => h.2 c (List.mem_of_mem_filter hc)⟩
  · next hb =>
    refine ⟨tabRising_set b h.1 (by simp), fun c hc => ?_⟩
    have mem_set : ∀ (t : List Host.Cell), c ∈ tabSet t a b → c = (a, b) ∨ c ∈ t := by
      intro t
      induction t with
      | nil => intro h; simpa [tabSet] using h
      | cons p t ih =>
        obtain ⟨k, x⟩ := p
        simp only [tabSet]
        split
        · intro h; simpa using h
        · split
          · intro h; simp at h ⊢; rcases h with h | h <;> simp [h]
          · intro h
            simp only [List.mem_cons] at h ⊢
            rcases h with h | h
            · exact .inr (.inl h)
            · rcases ih h with h | h <;> simp [h]
    rcases mem_set m hc with rfl | hm
    · simpa using hb
    · exact h.2 c hm

theorem memWf_write {m : List Host.Cell} (a : Nat) (bs : List Byte) (h : memWf m = true) :
    memWf (memWrite m a bs) = true := by
  induction bs generalizing m a with
  | nil => exact h
  | cons b bs ih => exact ih _ (memWf_set a b h)

theorem memWf_foldr (m : List Host.Cell) :
    memWf (m.foldr (fun c acc => memSet acc c.1 c.2) []) = true := by
  induction m with
  | nil => rfl
  | cons c m ih => exact memWf_set _ _ ih

/-- Whatever list it is given, `memNorm` answers a memory in canonical form. -/
theorem memWf_norm (m : List Host.Cell) : memWf (memNorm m) = true := by
  unfold memNorm
  split
  · assumption
  · exact memWf_foldr m

theorem memByte_foldr (m : List Host.Cell) (a : Nat) :
    memByte (m.foldr (fun c acc => memSet acc c.1 c.2) []) a = memByte m a := by
  induction m with
  | nil => rfl
  | cons c m ih =>
    obtain ⟨k, b⟩ := c
    simp only [List.foldr_cons]
    by_cases h : a = k
    · subst h; rw [memByte_set_same]; simp [memByte, tabGet, tabFind]
    · rw [memByte_set_other _ _ h, ih]; simp [memByte, tabGet, tabFind, Ne.symm h]

/-- The canonical form reads as the list it was made from. -/
@[simp] theorem memByte_norm (m : List Host.Cell) (a : Nat) : memByte (memNorm m) a = memByte m a := by
  unfold memNorm
  split
  · rfl
  · exact memByte_foldr m a

/-- A memory in canonical form is left as it is. -/
@[simp] theorem memNorm_of_wf {m : List Host.Cell} (h : memWf m = true) : memNorm m = m := by
  simp [memNorm, h]

end Sys2Proof.Machine
end

