-- ==== Sys2Proof/Laws/Step.lean ====
section
/-! SUPPORT. What every command and every step can do at all: it answers a next state, settled from the state
it began in; and what the wrappers of the meanings answer. -/

namespace Sys2Proof.Machine

theorem runAlways_eq (f : State → State) (s : State) : runAlways f s = .next (s.settle (f s)) := rfl

/-- A meaning acts when the compute die runs. -/
theorem run_live {f : State → State} {s : State} (h : s.dead = false) :
    run f s = .next (s.settle (f s)) := by simp [run, runAlways, h]

/-- A meaning changes nothing while the compute die runs no command. -/
theorem run_dead {f : State → State} {s : State} (h : s.dead = true) :
    run f s = .next (s.settle s) := by simp [run, runAlways, h]

/-- A command answers one of these and nothing else: a state settled from its own. -/
def Settles (s : State) (o : Host.Outcome State Fault Refusal) : Prop := ∃ t, o = .next (s.settle t)

theorem settles_run (f : State → State) (s : State) : Settles s (run f s) := ⟨_, rfl⟩
theorem settles_runAlways (f : State → State) (s : State) : Settles s (runAlways f s) := ⟨_, rfl⟩

theorem exec_settles (i : Instr) (s : State) : Settles s (exec i s) := by
  cases i <;> exact ⟨_, rfl⟩

/-- The state after a settled command is in order. -/
theorem ordered_settle (s t : State) : (s.settle t).Ordered := ⟨memWf_norm _, memWf_norm _⟩

end Sys2Proof.Machine
end

