-- ==== Sys2Proof/Laws/Frame.lean ====
section
/-! SUPPORT. The frame words of Sys2Proof.Safety: how they pass through register writes, and what a raised
event, a signalled event, a wake and a write of memory leave alone. -/

namespace Sys2Proof.Machine

variable {s t : State} {rs : List Reg} {r : Reg} {f : Fld} {v : Nat}

theorem regsBut_refl (s : State) (rs : List Reg) : s.RegsBut s rs := fun _ _ => rfl
theorem onlyRegs_refl (s : State) (rs : List Reg) : s.OnlyRegs s rs := ⟨fun _ _ => rfl, rfl⟩
theorem memBut_refl (s : State) (ms : List (Nat × Nat)) : s.MemBut s ms := fun _ _ => rfl

theorem regsBut_setWord (h : s.RegsBut t rs) (hr : regAddr r ∈ rs.map regAddr) : s.RegsBut (t.setWord r v) rs := by
  intro a ha
  rw [State.setWord_regs, tabFind_set_other]
  · exact h a ha
  · intro e
    exact ha (e ▸ hr)
theorem onlyRegs_setWord (h : s.OnlyRegs t rs) (hr : regAddr r ∈ rs.map regAddr) : s.OnlyRegs (t.setWord r v) rs :=
  ⟨regsBut_setWord h.1 hr, by simp only [State.setWord]; rw [h.2]⟩
theorem onlyRegs_setFld (h : s.OnlyRegs t rs) (hr : regAddr r ∈ rs.map regAddr) : s.OnlyRegs (t.setFld r f v) rs :=
  onlyRegs_setWord h hr
theorem onlyRegs_plainWrite (h : s.OnlyRegs t rs) (hr : regAddr r ∈ rs.map regAddr) : s.OnlyRegs (t.plainWrite r v) rs :=
  onlyRegs_setWord h hr
theorem onlyRegs_bump (h : s.OnlyRegs t rs) (hr : regAddr r ∈ rs.map regAddr) : s.OnlyRegs (t.bump r f v) rs :=
  onlyRegs_setWord h hr

/-- A register that a frame does not list reads as before. -/
theorem RegsBut.word (h : s.RegsBut t rs) (hr : regAddr r ∉ rs.map regAddr) : t.word r = s.word r := by
  simp only [State.word, h _ hr]

/-- Bytes stored leave every other byte alone. -/
theorem memBut_wr (s : State) (da : Nat) (bs : List Byte) : s.MemBut (s.wr da bs) [(canon da, bs.length)] := by
  intro a ha
  exact memByte_write_other _ _ _ _ (ha (canon da, bs.length) (by simp))

/-- SEQ after a raised fault (R485): it advances by one, the ring full or not. -/
theorem raise_seq (s : State) {e : Err} (h : isInfo e.code = false) :
    (s.raise e).fld .errHead F.errHeadSeq = (s.fld .errHead F.errHeadSeq + 1) % 2 ^ 32 := by
  have ring : ∀ (l : List Nat) (i : Nat) (bs : List Byte) (u : State), i < 1024 → (∀ w ∈ l, w < 8) →
      (l.foldl (fun s w => s.setWord (.errRing i w) (fieldAt bs (8 * w) 8)) u).fld .errHead F.errHeadSeq =
        u.fld .errHead F.errHeadSeq := by
    intro l i bs
    induction l with
    | nil => intro u _ _; rfl
    | cons w l ih =>
      intro u hi hw
      rw [List.foldl_cons, ih _ hi (fun x hx => hw x (by simp [hx]))]
      exact State.fld_setWord_other _ _ _ (by have := hw w (by simp); simp only [regAddr]; omega)
  have hh : s.fld .errHead F.errHeadHead < 1024 := State.fld_lt ..
  unfold State.raise
  simp only [h, Bool.false_and, Bool.false_eq_true, if_false]
  split
  · simp (disch := first | decide | (simp only [regAddr]; omega)) [State.bump, State.fld_setFld_same, State.fld_setFld_other]
    rfl
  · unfold State.msix
    split
    · rw [State.fld_setWord_other _ _ _ (by simp only [regAddr]; omega)]
      simp (disch := first | decide | (simp only [regAddr]; omega)) [State.fld_setFld_disjoint]
      rw [State.ringWrite, ring _ _ _ _ hh (by simp), State.fld_setFld_same _ _ _ _ (by decide)]
      rfl
    · show State.fld _ _ _ = _
      rw [show ∀ u : State, ∀ l, ({ u with msixSent := l } : State).fld .errHead F.errHeadSeq = u.fld .errHead F.errHeadSeq
        from fun _ _ => rfl]
      simp (disch := first | decide | (simp only [regAddr]; omega)) [State.fld_setFld_disjoint]
      rw [State.ringWrite, ring _ _ _ _ hh (by simp), State.fld_setFld_same _ _ _ _ (by decide)]
      rfl

/-- A raised fault is one event, and nothing outside the error unit and the messages sent changes. -/
theorem errorRaised_raise (s : State) {e : Err} (h : isInfo e.code = false) : ErrorRaised s (s.raise e) := by
  have k := errOnly_raise s e
  refine ⟨raise_seq s h, fun a _ h1 h2 => k.2 a ?_, k.1⟩
  simp only [errAddr]; omega

/-- A refused register write raises one fault. -/
theorem errorRaised_conflict (s : State) (src a v : Nat) : ErrorRaised s (s.conflict src a v) :=
  errorRaised_raise s (by rfl)
theorem errorRaised_refuseWrite (s : State) (src a v : Nat) {code : Nat} (h : isInfo code = false) :
    ErrorRaised s (s.refuseWrite src a v code) := errorRaised_raise s h

/-- A signalled event changes its core, the event bits and the event's status word (R314). -/
theorem signal_regs (s : State) (n e : Nat) (g : Sig) : s.RegsBut (s.signal n e g) [.scEvent n, .scEvstat n e] := by
  unfold State.signal
  exact regsBut_setWord (regsBut_setWord (fun _ _ => rfl) (by simp)) (by simp)
theorem signal_rest (s : State) (n e : Nat) (g : Sig) :
    s.signal n e g = { s with regs := (s.signal n e g).regs, cores := (s.signal n e g).cores } := rfl

/-- In I0 a wake only begins a new dwell (R439, R440). -/
theorem wake_awake (h : s.fld .hifIdle F.hifIdleState = 0) :
    wake s = { s with power := { s.power with idleSince := s.now } } := by
  unfold wake
  exact if_pos h

end Sys2Proof.Machine
end

