-- ==== Sys2Proof/Laws/Core.lean ====
section
/-! SUPPORT. The commands of a core: what their wrapper answers in a core in which nothing is due, and how an
operation that decodes and meets no stall issues (R297-R300). -/

namespace Sys2Proof.Machine

variable {s : State} {n c : Nat}

theorem settled_sync (h : s.Settled n) : coreSync n s = s := by
  obtain ⟨h1, h2, h3, h4, h5, h6, _⟩ := h
  simp only [coreSync, h1, h2, h3, h4, h5, h6]
theorem sweep_nil (h : s.hif.kernels = []) : kernelSweep s = s := by
  simp [kernelSweep, h]
/-- A command of a core in which nothing is due, no kernel running, does its meaning and no more. -/
theorem runCore_eq {f : State → State} (hd : s.dead = false) (h : s.Settled n) (hk : (f s).hif.kernels = []) :
    runCore n f s = .next (s.settle (f s)) := by
  simp only [runCore]
  rw [run_live hd, settled_sync h, sweep_nil hk]
/-- A calm context's bundle of one slot issues in this cycle. -/
theorem calm_issue {o : Option BOp} (h : s.Calm n c) : issueSlot n c o s = issueOps n c o.toList s := by
  obtain ⟨h1, h2, h3, h4, h5, h6, h7, h8, h9⟩ := h
  have : toIssue n s = s := by simp only [toIssue, h2, settled_sync h1]
  have hr : (s.core n).running.any (fun x => x != c) = false := by rcases h6 with h | h <;> simp [h]
  unfold issueSlot
  simp [h4, h5, h7, hr, this]
/-- A ready operation issues. -/
theorem ready_issue {o : BOp} (h : s.Ready n c o) : issueSlot n c (some o) s = bundleIssue n c [o] s := by
  obtain ⟨h, hs, hf⟩ := h
  rw [calm_issue h]
  obtain ⟨h1, h2, h3, h4, h5, h6, h7, h8, h9⟩ := h
  simp [issueOps, settleStall, hs, State.stallOff, h8, firstBad, hf, bundleShadow, h3, State.doIf]

/-! What leaves the host interface alone, so that no kernel begins or ends. -/

@[simp] theorem hif_bundleEnd (n c p k : Nat) (s : State) : (bundleEnd n c p k s).hif = s.hif := by
  unfold bundleEnd leaveCore State.doIf State.stallOff
  dsimp only
  repeat' split
  all_goals rfl
@[simp] theorem hif_setSreg (s : State) (n c i v p) : (s.setSreg n c i v p).hif = s.hif := by
  unfold State.setSreg
  split <;> rfl
@[simp] theorem hif_later (s : State) (n c i v p k) : (s.later n c i v p k).hif = s.hif := by
  unfold State.later
  repeat' split
  all_goals first | rfl | exact hif_setSreg ..

end Sys2Proof.Machine
end

