-- ==== Sys2Proof/Laws/Land.lean ====
section
/-! SUPPORT. What landing in core memory can do (R105, R114, R240): it writes bytes and poison, acts in cores, answers
a background read, and counts the cycles in which background accesses waited. Nothing else changes. -/

namespace Sys2Proof.Machine

/-- From s to t only what lands in a core has changed: bytes and their poison, cores, and the answer. -/
def State.Lands (s t : State) : Prop :=
  t = { s with mem := t.mem, sramPoison := t.sramPoison, parity := t.parity, chk := t.chk, cores := t.cores, reply := t.reply }

theorem lands_refl (s : State) : s.Lands s := rfl
theorem lands_trans {s t u : State} (h : s.Lands t) (k : t.Lands u) : s.Lands u := by
  unfold State.Lands at h k ⊢
  rw [k, h]
theorem lands_foldl {α : Type} {f : State → α → State} (h : ∀ (s : State) a, s.Lands (f s a)) (l : List α) (s : State) :
    s.Lands (l.foldl f s) := by
  induction l generalizing s with
  | nil => exact lands_refl s
  | cons a l ih => exact lands_trans (h s a) (ih (f s a))
theorem lands_doIf {f : State → State} (h : ∀ s : State, s.Lands (f s)) (b : Bool) (s : State) : s.Lands (s.doIf b f) := by
  cases b
  · exact lands_refl s
  · exact h s

/-! ### Bytes -/

theorem lands_modCore (s : State) (n : Nat) (f : Core → Core) : s.Lands (s.modCore n f) := rfl
theorem lands_modMxe (s : State) (n m : Nat) (f : Mxe → Mxe) : s.Lands (s.modMxe n m f) := rfl
theorem lands_wr (s : State) (da : Nat) (bs : List Byte) : s.Lands (s.wr da bs) := rfl
theorem lands_setPoison (s : State) (da : Nat) (p : Bool) : s.Lands (s.setPoison da p) := by
  unfold State.setPoison
  dsimp only
  split <;> rfl
theorem lands_wrUnit (s : State) (da : Nat) (bs : List Byte) (p : Bool) : s.Lands (s.wrUnit da bs p) :=
  lands_trans (lands_wr s da bs) (lands_setPoison ..)
theorem lands_wrPart (s : State) (da : Nat) (bs : List Byte) (p : Bool) : s.Lands (s.wrPart da bs p) := by
  unfold State.wrPart
  dsimp only
  split
  · exact lands_wrUnit s da bs true
  · split
    · exact lands_wrUnit s da bs false
    · exact lands_wr s da bs
theorem lands_wrPieces (ps : List Bool) (da : Nat) (bs : List Byte) (s : State) : s.Lands (wrPieces da bs ps s) := by
  induction ps generalizing da bs s with
  | nil => unfold wrPieces; exact lands_refl s
  | cons p ps ih =>
    unfold wrPieces
    dsimp only
    split
    · exact lands_wrPart ..
    · exact lands_trans (lands_wrPart ..) (ih ..)
theorem lands_wrUnits (us : List (List Byte × Bool)) (da : Nat) (s : State) : s.Lands (s.wrUnits da us) := by
  induction us generalizing da s with
  | nil => exact lands_refl s
  | cons u us ih => exact lands_trans (lands_wrUnit s da u.1 u.2) (ih ..)
theorem lands_wrOps (s : State) (ws : List WrOp) : s.Lands (s.wrOps ws) := lands_foldl (fun _ _ => lands_wrUnits ..) ws s

/-! ### Rows of a drain -/

theorem lands_poisonRow (s : State) (r : RowRun) : s.Lands (poisonRow s r).1 := by
  unfold poisonRow
  split
  · exact lands_wr ..
  · exact lands_refl s
theorem lands_stageRow (d : DrainSrc) (st : Stage) (s : State) (r : RowRun) : s.Lands (stageRow d st s r).1 := by
  cases st <;> simp only [stageRow] <;> repeat' split
  all_goals first | exact lands_refl s | exact lands_wr .. | exact lands_poisonRow ..
theorem lands_stagesTo (d : DrainSrc) (sts : List Stage) (k : Nat) (s : State) (r : RowRun) :
    s.Lands (stagesTo d sts k s r).1 := by
  unfold stagesTo
  generalize (sts.take (k + 1)).drop r.next = l
  dsimp only
  generalize r = q
  induction l generalizing s q with
  | nil => exact lands_refl s
  | cons a l ih => exact lands_trans (lands_stageRow d a s q) (ih ..)
theorem lands_drainMoment (n m k : Nat) (e : DrainEv) (s : State) : s.Lands (drainMoment n m k e s) := by
  unfold drainMoment
  split
  · exact lands_refl s
  · next d hd =>
    dsimp only
    split
    · exact lands_doIf (fun s => lands_wrOps ..) _ s
    · generalize h : stagesTo .. = q
      have hl : s.Lands q.1 := h ▸ lands_stagesTo ..
      obtain ⟨s1, r⟩ := q
      have h1 : s.Lands (if d.muted = true then s else s1) := by
        split
        · exact lands_refl s
        · exact hl
      dsimp only
      split
      · exact lands_trans h1 (lands_modMxe ..)
      · exact lands_trans (lands_trans h1 (lands_doIf (fun s => lands_wrOps ..) ..)) (lands_modMxe ..)

/-! ### Moments -/

theorem lands_shadowDone (s : State) (n id : Nat) (w : Bool) (t : Nat) : s.Lands (s.shadowDone n id w t) := by
  unfold State.shadowDone
  split
  · exact lands_modCore ..
  · exact lands_refl s
theorem lands_bgPerform (n : Nat) (b : BgAcc) (s : State) : s.Lands (bgPerform n b s) := by
  unfold bgPerform
  split
  · exact lands_wrPieces ..
  · rfl
theorem lands_act (n : Nat) (s : State) (a : CmMoment) : s.Lands (a.act n s) := by
  cases a with
  | drain m k e => exact lands_drainMoment ..
  | store off bs ps => exact lands_wrPieces ..
  | bg b cyc => exact lands_trans (lands_bgPerform n b s) (lands_shadowDone ..)
  | param _ _ _ => rfl
  | fill _ _ => rfl
  | fife _ _ => rfl
  | regs _ _ => rfl

/-- A core's CM comes up to the present: of registers only CMC_BG_CNT may have counted, and the rest of the state
outside memory, cores and the answer is as it was. -/
theorem landCm_lands (s : State) (n : Nat) :
    State.Lands { s with regs := (s.landCm n).regs } (s.landCm n) ∧
      ∀ a, a ≠ regAddr (.cmcBgCnt n) → tabFind (s.landCm n).regs a = tabFind s.regs a := by
  unfold State.landCm
  dsimp only
  generalize (if (s.core n).bg.isEmpty then _ else _ : BgPlan) = p
  generalize hu : s.doIf _ _ = u
  have hr : (∀ a, a ≠ regAddr (.cmcBgCnt n) → tabFind u.regs a = tabFind s.regs a) ∧
      State.Lands { s with regs := u.regs } u := by
    subst hu
    unfold State.doIf
    repeat' split
    all_goals first
      | exact ⟨fun _ _ => rfl, rfl⟩
      | exact ⟨fun a h => tabFind_set_other _ _ h, rfl⟩
  split
  · exact ⟨hr.2, hr.1⟩
  · generalize List.foldl _ [] _ = ms
    have k := lands_trans (lands_modCore u n (Core.past (s.cyc n))) (lands_foldl (fun s a => lands_act n s a.2) ms _)
    generalize List.foldl _ _ ms = w at k ⊢
    have e : w.regs = u.regs := by
      unfold State.Lands at k
      rw [k]
    rw [e]
    exact ⟨lands_trans hr.2 k, hr.1⟩

/-- What landing leaves of the rest of the state: no time passes, and the host interface, the network, the stacks and
the queue of commands are as they were. -/
theorem landCm_rest (s : State) (n : Nat) :
    (s.landCm n).now = s.now ∧ (s.landCm n).draws = s.draws ∧ (s.landCm n).host = s.host ∧ (s.landCm n).hif = s.hif ∧
    (s.landCm n).net = s.net ∧ (s.landCm n).ghs = s.ghs ∧ (s.landCm n).chip = s.chip ∧ (s.landCm n).power = s.power ∧
    (s.landCm n).pending = s.pending := by
  have h := (landCm_lands s n).1
  rw [h]
  exact ⟨rfl, rfl, rfl, rfl, rfl, rfl, rfl, rfl, rfl⟩
@[simp] theorem hif_landCm (s : State) (n : Nat) : (s.landCm n).hif = s.hif := (landCm_rest s n).2.2.2.1
@[simp] theorem now_landCm (s : State) (n : Nat) : (s.landCm n).now = s.now := (landCm_rest s n).1
@[simp] theorem hif_toCyc (s : State) (n c : Nat) : (s.toCyc n c).hif = s.hif := by
  unfold State.toCyc
  rw [hif_landCm]
  rfl
/-- Time moves on to the cycle, and never back. -/
theorem now_toCyc (s : State) (n c : Nat) : (s.toCyc n c).now = max s.now (s.cycTime n c) := by
  unfold State.toCyc
  rw [now_landCm]
  rfl
/-- A background access to an address outside every core's memory takes no cycle and meets no shadow (R240). -/
theorem bgReach_far {a len : Nat} (h : spaceUnits a len = none) (req : Nat) (w : Bool) (s : State) :
    bgReach req a len w s = (s, false) := by
  unfold bgReach
  rw [h]

end Sys2Proof.Machine
end

