-- ==== Sys2Proof/Tests/WitnessPorts.lean ====
section
/-! SUPPORT. States that meet the hypotheses of the statements about scale slots, stack ports, the Orangery,
turnstiles and chip barriers, clause by clause. -/

namespace Sys2Proof.Tests

-- One theorem at a time: checked side by side they would each wait in a thread of their own.
set_option Elab.async false

open Machine

/-- The state a command answered. -/
def nx : Host.Outcome State Fault Refusal → State
  | .next s => s
  | _ => .reset

/-- The device as it comes from reset. -/
def z : State := .reset

/-! Scale slots: a commit under way, with nothing and with either kind of write held. -/

def committing : State := nx (execSsCommit 3 z)
def heldParam : State := nx (execSsParamWrite 3 77 committing)
def heldCenter : State := nx (execSsCenterWrite 3 77 committing)

/-- SS_PARAM of slot 3 fails its parity. -/
def badSlot : State := { z with parity := { z.parity with ctl := [regAddr (.ssParam 3)] } }

theorem witness_SlotWritesClearAndHold :
    z.dead = false ∧ z.commitOf 3 = none ∧ z.badCtl (.ssParam 3) = false ∧
    badSlot.dead = false ∧ badSlot.badCtl (.ssParam 3) = true ∧
    committing.dead = false ∧ (committing.commitOf 3).any (fun c => c.held == []) ∧
    (heldParam.commitOf 3).any (fun c => c.held == [] ++ [(false, 77)]) ∧
    (heldCenter.commitOf 3).any (fun c => c.held == [] ++ [(true, 77)]) := by decide +kernel
/-- A commit with a reported maximum, one without, and one whose history holds only zeros. -/
def reported : State := ((z.setFld (.ssParam 3) F.ssParamHlen 16).setFld (.ssCur 3) F.ssCurReported 1).setFld (.ssCur 3)
  F.ssCurCurAmax 0x3f800000
/-- A write that reached the slot in the cycle of the commit. -/
def writtenNow : State := nx (execSsParamWrite 3 77 z)
/-- A history whose one entry is a zero. -/
def zeroHist : State := (z.setFld (.ssParam 3) F.ssParamHlen 16).setFld (.ssCenter 3) F.ssCenterCount 1
theorem witness_SlotCommitSetsScale :
    z.dead = false ∧ z.badCtl (.ssParam 3) = false ∧ z.commitOf 3 = none ∧ z.bit (.ssCur 3) F.ssCurReported = false ∧
    (commitComplete 3 (landReports z)).slotNowOf 3 = none ∧
    writtenNow.dead = false ∧ ((commitComplete 3 (landReports writtenNow)).slotNowOf 3).isSome ∧
    (of32 (zeroHist.histMax 3 1)).isZero ∧ zeroHist.fld (.ssParam 3) F.ssParamHlen ≠ 0 ∧
    zeroHist.fld (.ssCenter 3) F.ssCenterCount ≠ 0 ∧
    reported.dead = false ∧ reported.commitOf 3 = none ∧ reported.bit (.ssCur 3) F.ssCurReported = true ∧
    reported.fld (.ssParam 3) F.ssParamHlen ≠ 0 := by decide +kernel

/-! Stack ports: a transfer in flight, with its watchdog on, a port in reset, one with a commit noted. -/

def inFlight : State := nx (execPortArbitrate 2 [3, 5, 11] z)
def portFree : State := nx (execPortTransferDone 2 inFlight)
def frozen : State := z.setFld (.bsCtl 2) F.bsCtlBsFreeze 1
def watched : State := inFlight.setFld (.bsCtl 2) F.bsCtlWdogLimit 100
def unwatched : State := inFlight.setFld (.bsCtl 2) F.bsCtlWdogLimit 0
def portReset : State := nx (execBsPreset 2 inFlight)
def tableNoted : State := nx (execBsCommit .host 2 inFlight)

theorem witness_PortArbitrationGrantsAndHints :
    z.dead = false ∧ ([3, 5, 11] : List (Fin 12)).Nodup ∧ ([] : List (Fin 12)).Nodup ∧
    inFlight.dead = false ∧ (inFlight.port 2).inflight.isSome ∧
    portReset.dead = false ∧ (portReset.port 2).resetEnd.isSome ∧
    frozen.dead = false ∧ frozen.bit (.bsCtl 2) F.bsCtlBsFreeze = true ∧
    z.slotOwner 2 (z.portSlot 2) = 0 := by decide +kernel
theorem witness_PortResetsTablesAndRanking :
    watched.dead = false ∧ (watched.port 2).inflight = some (11, 0) ∧ watched.fld (.bsCtl 2) F.bsCtlWdogLimit ≠ 0 ∧
    (z.port 2).inflight = none ∧ unwatched.fld (.bsCtl 2) F.bsCtlWdogLimit = 0 ∧ (unwatched.port 2).inflight.isSome ∧
    portReset.dead = false ∧ (portReset.port 2).resetEnd.isSome ∧
    z.bit (.bsStat 2) F.bsStatCommitPend = false ∧
    tableNoted.dead = false ∧ tableNoted.bit (.bsStat 2) F.bsStatCommitPend = true ∧
    (tableNoted.port 2).commitAt.isSome ∧
    (∀ p < 12, rankAt 0xba9876543210 p < 12) ∧
    (∀ p < 12, ∀ q < p, rankAt 0xba9876543210 p ≠ rankAt 0xba9876543210 q) ∧
    (∃ p, p < 12 ∧ 12 ≤ rankAt 0xba987654321c p) := by decide +kernel

/-! The control block: an armed turnstile, operations waiting at one, a barrier at the top of its generation
with two waits of core 1, bytes poisoned in the Orangery. -/

def armed : State := (((z.setWord (.tsCnt 7) 0x0000000500000003).setFld (.tsNotify 7) F.tsNotifyArm 1).setFld (.tsNotify 7)
  F.tsNotifyCore 4).setFld (.tsNotify 7) F.tsNotifyEvent 9
def deferred : State := { armed with tsq := [⟨3, 5, .turn 7 2, none, 0⟩, ⟨40, 6, .add 7 3, none, 0⟩, ⟨2, 6, .add 8 3, none, 0⟩] }
def arrived : State := ((z.setWord (.barState 5) 0xFFFFFFFFFFFFFFFF).setFld (.barState 5) F.barStateCount 300).modCore 1
  fun c => { c with waits := [(2, ⟨.barrier 5 0xFFFFFFFF false, 3, true, 0, false⟩), (3, ⟨.barrier 6 1 false, 3, true, 0, false⟩)] }
/-- The same with a wait that has joined, its answer on its way. -/
def joined : State := { arrived with tsq := [⟨1, 0, .arrive 5, some 0xFFFFFFFF, 0⟩] }.modCore 1
  fun c => { c with waits := [(2, ⟨.joining 5, 3, true, 0, false⟩)] }
def orgPoisoned : State := nx (execOrangeryAccess .host 70 0 [1, 2, 3, 4, 5] true true z)

theorem witness_TurnstileTurnAddAndNotify :
    (2 : Nat) < 2 ^ 32 ∧ (2 : Nat) ≠ 0 ∧ armed.fld (.tsCnt 7) F.tsCntValue < armed.fld (.tsCnt 7) F.tsCntLimit ∧
    z.fld (.tsCnt 7) F.tsCntLimit ≤ z.fld (.tsCnt 7) F.tsCntValue ∧ armed.dead = false ∧
    armed.bit (.tsNotify 7) F.tsNotifyArm = true ∧ z.bit (.tsNotify 7) F.tsNotifyArm = false := by decide +kernel
theorem witness_DeferredTurnstileOperationServed :
    z.dead = false ∧ (∀ o ∈ z.tsq, o.res = none → o.kind.target ≠ 7) ∧ deferred.dead = false ∧
    nextTs deferred = some ⟨3, 5, .turn 7 2, none, 0⟩ ∧ deferred.badCtl (.tsCnt 7) = false ∧
    nextTs { deferred with tsq := deferred.tsq.drop 1 } = some ⟨40, 6, .add 7 3, none, 0⟩ ∧
    ({ deferred with parity := { deferred.parity with ctl := [regAddr (.tsCnt 7)] } }).badCtl (.tsCnt 7) = true := by
  decide +kernel
theorem witness_ChipBarrierCountAbortAndReset :
    arrived.dead = false ∧ arrived.fld (.barState 5) F.barStateArrived ≠ 0 ∧
    F.barStateCount.of (1 : Word).toNat ≤ arrived.fld (.barState 5) F.barStateArrived ∧
    tabFind (arrived.core 1).waits 2 = some ⟨.barrier 5 0xFFFFFFFF false, 3, true, 0, false⟩ ∧
    arrived.fld (.barState 5) F.barStateGen = 0xFFFFFFFF ∧
    barPast arrived 5 0xFFFFFFFF = false ∧ barPast arrived 5 0x80000000 = true ∧
    tabFind (joined.core 1).waits 2 = some ⟨.joining 5, 3, true, 0, false⟩ ∧ joined.hasJoined 1 5 0xFFFFFFFF = true ∧
    tabFind (arrived.core 1).waits 3 = some ⟨.barrier 6 1 false, 3, true, 0, false⟩ := by decide +kernel
theorem witness_OrangeryAccessReadsAndWrites :
    orgPoisoned.dead = false ∧ 0x0FFFFFFE + ([1, 2] : List Byte).length ≤ 0x10000000 ∧ 0x0FFFFFFE + 2 ≤ 0x10000000 ∧
    0x10000000 < 0x0FFFFFFE + ([1, 2, 3] : List Byte).length ∧ orgPoisoned.parity.units = [] ∧ orgPoisoned.anyPoison (orgBase + 70) 5 = true ∧
    orgPoisoned.anyPoison (orgBase + 0x0FFFFFFE) 2 = false := by decide +kernel

end Sys2Proof.Tests
end

