-- ==== Sys2Proof/WellFormed.lean ====
section
/-! DEFINITION. Which commands are well formed: what the types of their operands leave open. -/

namespace Sys2Proof

/-- An aligned place of the CSR space (R12, R536). -/
def csrPlace (a size : Nat) : Bool := a % size == 0 && decide (0x020200000000 ≤ a ∧ a < 0x020280000000)
/-- A DATA body has 1 to 64 units of 64 bytes (R382). -/
def DataMsg.ok (d : DataMsg) : Bool :=
  decide (1 ≤ d.units.length ∧ d.units.length ≤ 64) && d.units.all fun u => u.length == 64
/-- Contributions of distinct members, each with a poison bit for every 64 bytes it has begun. -/
def peersOk (ps : List Contribution) : Bool :=
  decide (ps.map Contribution.rank).Nodup && ps.all fun p => p.poison.length == (p.data.length + 63) / 64

/-- A command is well formed. -/
def wellFormed (i : Instr) : Bool :=
  match i with
  | .csrWrite _ a _ => csrPlace a 8
  | .csrUnsupportedAccess a size _ => !((size == 8 || size == 4) && a % size == 0)
  | .atomicHalfWrite _ a _ _ => csrPlace a 8
  | .atomicHalfRead _ a _ => csrPlace a 8
  | .ssCommit _ => true
  | .ssCommitComplete _ => true
  | .ssClear _ => true
  | .ssCenterWrite _ _ => true
  | .ssParamWrite _ _ => true
  | .statReport _ _ => true
  | .tileSatRetry _ _ _ => true
  | .mxeCfgWrite _ _ _ => true
  | .mxeCfgApply _ => true
  | .bundleIssue _ => true
  | .nop _ _ => true
  | .alu _ _ _ => true
  | .alui _ _ _ => true
  | .li _ _ _ => true
  | .ld _ _ _ => true
  | .st _ _ _ => true
  | .ldf _ _ _ => true
  | .stf _ _ _ => true
  | .csrr _ _ _ => true
  | .csrw _ _ _ => true
  | .farOpComplete _ => true
  | .br _ _ _ => true
  | .jr _ _ _ => true
  | .repeat _ _ _ => true
  | .turn _ _ _ => true
  | .tadd _ _ _ => true
  | .turnstileDeferredOp _ => true
  | .tsCntWrite _ _ _ => true
  | .tsNotifyWrite _ _ _ => true
  | .bar _ _ _ => true
  | .barCountWrite _ _ => true
  | .barAbort _ => true
  | .barReset _ => true
  | .evwait _ _ _ => true
  | .waitSatisfied _ _ => true
  | .evset _ _ _ => true
  | .evstat _ _ _ => true
  | .yield _ _ => true
  | .halt _ _ => true
  | .contextDone _ _ => true
  | .gturn _ _ _ => true
  | .gturnResult _ => true
  | .time _ _ _ => true
  | .fencef _ _ => true
  | .fill _ _ _ _ => true
  | .fillComplete _ => true
  | .wload _ _ _ _ => true
  | .weightLoadStart _ _ => true
  | .weightLoadDone _ _ => true
  | .pass _ _ _ _ => true
  | .passFeedStart _ _ misses => misses.all fun x => decide (x.pass = 0)
  | .abftTileRerun _ _ _ => true
  | .columnScan _ _ fails => decide fails.Nodup
  | .mxeBypassWrite _ _ _ _ => true
  | .dummyPass _ _ => true
  | .activityRampDown _ _ => true
  | .spass _ _ _ _ => true
  | .spassComplete _ _ => true
  | .drain _ _ _ _ => true
  | .discard _ _ _ _ => true
  | .drainStart _ _ => true
  | .drainSwap _ _ => true
  | .drainComplete _ _ => true
  | .fmv _ _ _ => true
  | .fdiscard _ _ => true
  | .fmvComplete _ => true
  | .vld _ _ _ => true
  | .vst _ _ _ => true
  | .vadd _ _ _ => true
  | .vsub _ _ _ => true
  | .vmul _ _ _ => true
  | .vfma _ _ _ => true
  | .vmax _ _ _ => true
  | .vmin _ _ _ => true
  | .vunary _ _ _ => true
  | .vcmp _ _ _ => true
  | .vsel _ _ _ => true
  | .vcvt _ _ _ => true
  | .vfunc _ _ _ => true
  | .vdiv _ _ _ => true
  | .vred _ _ _ => true
  | .vbcast _ _ _ => true
  | .vreq _ _ _ => true
  | .vpsum _ _ _ => true
  | .vectorBackgroundDone _ => true
  | .qstart _ _ _ => true
  | .qstop _ _ _ => true
  | .qsetir _ _ _ => true
  | .colon _ _ _ => true
  | .ghpush _ _ _ => true
  | .ghpushAccepted _ => true
  | .ibufWrite _ _ _ _ _ => true
  | .scTctxStart _ _ => true
  | .scTctxStop _ _ => true
  | .scTctxReset _ _ => true
  | .scEventClear _ _ => true
  | .scEventSet _ _ => true
  | .taskWatchdog _ _ => true
  | .handleResolve _ _ _ => true
  | .tileSwitch _ => true
  | .migrationStart _ _ => true
  | .migrationSwitch _ => true
  | .ghDirFlush _ => true
  | .ghDirInval _ => true
  | .ghDirInvalDone _ => true
  | .ghDirBaseWrite _ _ _ => true
  | .ghHeapWrite _ _ _ _ => true
  | .ghCmdqPush _ _ _ ws => ws.ws.length == 8
  | .ghCmdqReset _ _ => true
  | .ghNop _ _ => true
  | .ghGather _ _ => true
  | .scatter _ _ => true
  | .rowGather _ _ => true
  | .embBag _ _ => true
  | .accum _ _ => true
  | .scatterAdd _ _ => true
  | .compact _ _ => true
  | .merge _ _ => true
  | .ghFence _ _ => true
  | .ghFenceRelease _ _ => true
  | .ghCopy _ _ => true
  | .handleWrite _ _ => true
  | .stackRefresh _ _ => true
  | .scrubPass _ => true
  | .rowRepair _ _ _ _ => true
  | .rowRepairDone _ => true
  | .ghHeartbeat _ _ => true
  | .rawStackEmulate _ _ => true
  | .bgAccess _ _ _ len data write => data.bytes.length == (if write then len else 0) && (write || !data.poison)
  | .bgForce _ => true
  | .cmcShadowInv _ _ _ _ => true
  | .cmcLogClr _ => true
  | .modeSample _ => true
  | .orangeryAccess _ _ len data write _ => data.length == if write then len else 0
  | .winLocalWrite _ _ _ => true
  | .strQStart _ _ _ => true
  | .strQStop _ _ _ => true
  | .strQCtlWrite _ _ _ _ => true
  | .streamSet _ _ => true
  | .streamAdd _ _ => true
  | .streamLoop _ _ => true
  | .emit _ _ => true
  | .streamGather _ _ => true
  | .mark _ _ => true
  | .markSatisfied _ _ => true
  | .signal _ _ => true
  | .signalComplete _ _ => true
  | .streamEnd _ _ => true
  | .queueDrained _ _ => true
  | .transferComplete _ _ _ => true
  | .transferFault _ _ _ _ => true
  | .colonnadeStart _ => true
  | .colonnadeSent _ => true
  | .colonnadeDelivered _ _ => true
  | .portArbitrate _ presents => decide presents.Nodup
  | .portTransferDone _ => true
  | .portWatchdog _ => true
  | .portResetEnd _ => true
  | .bsPreset _ => true
  | .bsCommit _ _ => true
  | .bsTableActivate _ => true
  | .bsFreezeWrite _ _ => true
  | .bsRankWrite _ _ _ => true
  | .sqDoorbell _ _ => true
  | .cqDoorbell _ _ => true
  | .dmaDoorbell _ _ => true
  | .sqFetch _ _ => true
  | .wcsNop _ => true
  | .gemm _ _ => true
  | .spgemm _ _ => true
  | .attention _ _ => true
  | .ffnPredicted _ _ => true
  | .piccoloAdapt layer => decide (layer < 256)
  | .embeddingBag _ _ => true
  | .elementwise _ _ => true
  | .reduce _ _ => true
  | .quantize _ _ => true
  | .wcsCopy _ _ => true
  | .pin _ => true
  | .unpin _ => true
  | .launchKernel _ _ => true
  | .kernelTimeout _ => true
  | .wcsFence _ => true
  | .eventSignal _ => true
  | .eventWait _ => true
  | .eventWaitSatisfied _ => true
  | .eventWaitTimeout _ => true
  | .progress _ => true
  | .allReduce _ peers => peersOk peers
  | .reduceScatter _ peers => peersOk peers
  | .allGather _ peers => peersOk peers
  | .allToAll _ peers => peersOk peers
  | .permute _ peers => peersOk peers
  | .reshardExecute _ peers => peersOk peers
  | .collectiveBarrier _ => true
  | .gturnSet _ => true
  | .defineGroup _ => true
  | .stepBoundary _ => true
  | .tileUnitClaim _ _ => true
  | .taskDispatch _ => true
  | .placementInterval _ => true
  | .recompute _ => true
  | .tileRerun _ _ => true
  | .cqEntryPost _ => true
  | .coalTimer _ => true
  | .hifQPost _ _ _ => true
  | .hifQEnable _ => true
  | .hifQDisable _ => true
  | .hifQDrainDone _ => true
  | .hifQAbort _ => true
  | .hifQRestart _ => true
  | .dmaEnable _ _ => true
  | .dmaDescriptor _ _ => true
  | .bar2Access _ len data write _ => data.length == if write then len else 0
  | .hifBar2MapWrite _ _ => true
  | .progStatRead _ => true
  | .d3hotEntry => true
  | .d0Return => true
  | .boot _ => true
  | .bootStageTimeout _ _ => true
  | .perstAssert => true
  | .flr => true
  | .chipResetGo _ => true
  | .fwUpdateStart _ => true
  | .fwUpdateAbort _ => true
  | .fwCommit => true
  | .fwCommitSvn => true
  | .pldmRequest _ => true
  | .pldmCapEffecter _ => true
  | .pldmFwUpdate _ => true
  | .debugUnlock _ => true
  | .extest _ => true
  | .extestPulse => true
  | .idcode => true
  | .samplePreload _ => true
  | .bypass => true
  | .ieee1687Access _ => true
  | .ccHaltStep _ _ => true
  | .jtagMemoryAccess a _ _ => decide (a < 2 ^ 48)
  | .challengeRead => true
  | .tokenWrite _ => true
  | .tapReset => true
  | .gpRetrain _ => true
  | .xpRetrain _ => true
  | .linkTrainingDone _ lanes => decide (lanes ≤ 8)
  | .portRetrainTimer _ => true
  | .peer _ _ => true
  | .heartbeatSend _ => true
  | .heartbeat _ _ => true
  | .heartbeatTimeout _ => true
  | .flitReplay _ _ _ => true
  | .data _ _ d => d.ok
  | .accumWindowVisible _ => true
  | .credReq _ _ _ _ _ => true
  | .credGrant _ _ _ _ _ _ => true
  | .refuse _ _ _ _ _ => true
  | .ack _ _ => true
  | .ackTimer _ => true
  | .credReturn _ _ _ _ => true
  | .cstep _ _ _ _ _ _ _ => true
  | .timeMessage _ _ _ => true
  | .gturnMessage _ _ _ => true
  | .barrierMessage _ _ _ _ _ => true
  | .arp _ _ => true
  | .resendTimer _ => true
  | .ecnRateStep _ => true
  | .creditExpiry _ _ => true
  | .senderCreditRetire _ _ => true
  | .creditWaitTimeout _ _ => true
  | .windowOpen _ _ _ => true
  | .windowClose _ _ => true
  | .windowForce _ _ => true
  | .collectiveStepTimeout _ _ _ => true
  | .collectiveWaitTimeout _ => true
  | .chipNodeWrite _ _ => true
  | .managerHeartbeat ⟨beats, plan, _⟩ =>
    decide (beats.map MgrBeat.dev).Nodup && plan.all fun p => decide (p.micro.Nodup ∧ 0 < p.devices)
  | .timeSlew => true
  | .refLoss => true
  | .pstateSwitch _ => true
  | .vcoreRaise _ => true
  | .vcoreRaiseTimeout => true
  | .bellowsTick _ temps _ => decide (temps.length ≤ 64)
  | .blwCapWrite _ _ => true
  | .clkCorePsWrite _ _ _ => true
  | .fastThrottleAssert => true
  | .fastThrottleDeassert => true
  | .ftHoldExpiry => true
  | .thermalTrip _ _ => true
  | .idleEntry _ => true
  | .idleWake => true
  | .hifIdleWake => true
  | .hifWakeTolWrite _ => true
  | .errTailWrite _ => true
  | .flashLogCopy => true
  | .onlineTest _ _ => true
  | .testSweep => true
  | .tstCoreRequest _ _ => true
  | .tstFenceWrite _ _ _ => true
  | .ghUnitTest _ _ => true
  | .spareSubstitution _ _ => true
  | .chipModeWrite _ _ => true
  | .traceEnable _ _ => true
  | .chipGpioWrite _ _ => true
  | .chipTimerExpiry _ => true
  | .hifAdviceAck => true
  | .powerUp => true
  | .powerLoss => true
  | .auxRailLoss => true
  | .ghCommandComplete _ _ => true
  | .portCtlWrite _ _ _ => true
  | .chipTimerWrite _ _ _ => true
  | .scTctxRegWrite _ _ _ _ _ => true
  | .strQRegWrite _ _ _ _ _ => true
  | .hifQConfigWrite _ _ _ => true
  | .winConfigWrite _ _ _ _ => true
  | .fcsFailure _ => true
  | .railRise rail => decide (rail < 10)

end Sys2Proof
end

