-- ==== Sys2Proof/Tests/Slice0.lean ====
section
/-! SUPPORT. Tests: an ill-formed command for every check of `wellFormed`, and the worked examples of the
spec's chapters, each about one step or one computation. Every expected number is the spec's own. -/

namespace Sys2Proof.Tests

-- One theorem at a time: checked side by side they would each wait in a thread of their own.
set_option Elab.async false

open Machine

/-! An ill-formed command for each check. -/

def badPeers : List Contribution := [⟨1, 1, 0, 0, 0, [], [], []⟩, ⟨1, 1, 0, 0, 0, [], [], []⟩]
def badPoison : List Contribution := [⟨1, 1, 0, 0, 0, [7], [], []⟩]

theorem test_ill_formed_register_accesses :
    wellFormed (.csrWrite .host 0x020200000004 0) = false ∧ wellFormed (.csrWrite .host 0x020280000000 0) = false ∧
    wellFormed (.atomicHalfWrite .host 0x020200000001 true 0) = false ∧
    wellFormed (.atomicHalfRead .host 0x0201FFFFFFF8 true) = false ∧
    wellFormed (.csrUnsupportedAccess 0x020200000008 8 true) = false := by decide
theorem test_ill_formed_engine_commands :
    wellFormed (.passFeedStart 0 0 [⟨1, 0, 0, 1, 0⟩]) = false ∧ wellFormed (.columnScan 0 0 [3, 3]) = false ∧
    wellFormed (.portArbitrate 0 [5, 5]) = false ∧ wellFormed (.ghCmdqPush .host 0 0 ⟨[1], none⟩) = false := by decide
theorem test_ill_formed_lengths :
    wellFormed (.bgAccess 0 .far 0 4 ⟨[1], false⟩ true) = false ∧ wellFormed (.bgAccess 0 .far 0 4 ⟨[1, 2, 3, 4], false⟩ false) = false ∧
    wellFormed (.orangeryAccess .host 0 2 [1] true false) = false ∧ wellFormed (.bar2Access 0 2 [1] true false) = false ∧
    wellFormed (.piccoloAdapt 256) = false ∧ wellFormed (.jtagMemoryAccess (2 ^ 48) 0 true) = false := by decide
theorem test_ill_formed_events :
    wellFormed (.linkTrainingDone (.gp 0) 9) = false ∧ wellFormed (.managerHeartbeat ⟨[⟨1, 0, true⟩, ⟨1, 1, true⟩], none, none⟩) = false ∧
    wellFormed (.managerHeartbeat ⟨[], some ⟨[], 0, [], 0, [], [], 0⟩, none⟩) = false ∧ wellFormed (.bar2Access 0 2 [] true false) = false ∧
    wellFormed (.bellowsTick 0 (List.replicate 65 0) []) = false ∧ wellFormed (.railRise 10) = false ∧
    DataMsg.ok ⟨0, 0, 0, []⟩ = false ∧ DataMsg.ok ⟨0, 0, 0, [[1]]⟩ = false := by decide
theorem test_ill_formed_contributions :
    wellFormed (.allReduce 0 badPeers) = false ∧ wellFormed (.reduceScatter 0 badPoison) = false ∧
    wellFormed (.allGather 0 badPeers) = false ∧ wellFormed (.allToAll 0 badPoison) = false ∧
    wellFormed (.permute 0 badPeers) = false ∧ wellFormed (.reshardExecute 0 badPoison) = false := by decide

/-! Worked examples. -/

/-- Addresses of MXE_BYPASS of MXE2 on core 9 and of GH_BS_CTL of stack 6 (spec/17, after R541). -/
theorem test_register_addresses :
    regAddr (.mxeBypass 9 2) = 0x020210918018 ∧ regAddr (.bsCtl 6) = 0x020226900048 := by decide
/-- MXE_WIDTH with physical column 37 bypassed (spec/03, after R90). -/
theorem test_bypassed_width :
    (csrRead .host (regAddr (.mxeWidth 9 2)) (z.setWord (.mxeBypass 9 2) 0xA5)).1 = 0x00000000027EFEFE := by decide +kernel
/-- The interface of R14: a low-half read latches the high half. -/
def counting : State := z.setWord (.tsCnt 7) 0x00000001FFFFFFFF
theorem test_atomic_half_read_latches :
    let s := nx (execAtomicHalfRead (.cc 0) (regAddr (.tsCnt 7)) false counting)
    let t := nx (execAtomicHalfRead (.cc 0) (regAddr (.tsCnt 7)) true (s.setWord (.tsCnt 7) 0x0000000200000000))
    (s.reply.map Reply.v) = some 0xFFFFFFFF ∧ (t.reply.map Reply.v) = some 0x00000001 := by decide +kernel
/-- The commit of the INT8 slot with CENTER 0.5 (spec/02, after R45). -/
def slotExample : State :=
  let s := (((z.setFld (.ssParam 9) F.ssParamHlen 4).setFld (.ssCenter 9) F.ssCenterCenter 0x3F000000).setFld (.ssCenter 9)
    F.ssCenterHead 4).setFld (.ssCenter 9) F.ssCenterCount 4
  let s := (((s.setHist 9 0 0x40600000).setHist 9 1 0x407E0000).setHist 9 2 0x40300000).setHist 9 3 0x40400000
  (s.setFld (.ssCur 9) F.ssCurCurAmax 0x40500000).setFld (.ssCur 9) F.ssCurReported 1
theorem test_commit_scale_and_zero_point :
    let s := nx (execSsCommitComplete 9 (nx (execSsCommit 9 slotExample)))
    s.fld (.ssParam 9) F.ssParamScale = 0x3D000000 ∧ s.fld (.ssParam 9) F.ssParamZp = 0xF0 ∧
    s.fld (.ssCenter 9) F.ssCenterHead = 5 ∧ s.fld (.ssCenter 9) F.ssCenterCount = 5 := by decide +kernel
/-- Ties round away from zero, in the order of the partials (spec/04, after R129). -/
theorem test_sums_round_ties_away :
    add32 0x3F800000 0x33800000 = 0x3F800001 ∧ add32 0x3F800001 0x33800000 = 0x3F800002 ∧
    add32 0x3F800000 (add32 0x33800000 0x33800000) = 0x3F800001 := by decide +kernel
/-- Lengths of the INT8 weight tile in each format (spec/05, after R142). -/
theorem test_tile_lengths :
    tileLen fmtDense 8 0 2100 = 257 ∧ tileLen fmtRsb 8 40 2100 = 81 ∧ tileLen fmtBbm 8 200 2100 = 53 ∧
    tileLen fmtEbm 8 0 2100 = 66 ∧ tileLen fmtScl 8 0 2100 = 100 ∧ tileLen fmtEbm 16 0 15565 = 520 := by decide
/-- The decisions of slots 20, 21 and 24 (spec/09, after R294). -/
def bandstand (slot : Nat) : State :=
  { (z.setWord (.bsAct 2 1) 0x00002FA12F800000).setWord (.bsAct 2 0) 0xFFFFFFFFFFF0FFFF with now := slot * stackTicks }
theorem test_bandstand_grants_and_hints :
    portGrant (bandstand 20) 2 [0, 2, 8] = some 0 ∧ portHint (bandstand 20) 2 2 = 2 ∧ portHint (bandstand 20) 2 8 = 0 ∧
    portGrant (bandstand 22) 2 [2, 8] = some 8 ∧ portGrant (bandstand 24) 2 [0, 2] = some 0 ∧
    portHint (bandstand 24) 2 2 = 2 ∧ portGrant (bandstand 26) 2 [2] = some 2 := by decide +kernel

/-! The block itself. -/

/-- No row of the table has bits, so no word spells a command; a waiting command runs first. -/
theorem test_no_word_spells_a_command : decodeTableWord 64 0 = none ∧ (z.withFetchWord 64 0) = z := by decide
theorem test_front_command_runs :
    (nx (step { z with pending := [.bsFreezeWrite 3 true, .idcode] })).pending = [.idcode] ∧
    (nx (step { z with pending := [.bsFreezeWrite 3 true, .idcode] })).bit (.bsCtl 3) F.bsCtlBsFreeze = true := by decide +kernel
/-- An empty queue lets a FABRIC_CLK cycle pass. -/
theorem test_empty_queue : (nx (step z)).now = 8 := by decide +kernel

end Sys2Proof.Tests
end

