-- ==== Sys2Proof/Tests/WitnessCore.lean ====
section
/-! SUPPORT. States that meet the hypotheses of the statements about the scalar slot, the bundle, contexts,
events and core memory, clause by clause. They are states of core 1. -/

namespace Sys2Proof.Tests

-- One theorem at a time: checked side by side they would each wait in a thread of their own.
set_option Elab.async false

open Machine

/-- Outside validation mode; context 2 running; with values in s4 to s8, s5 poisoned. -/
def plainMode : State := z.setFld (.cmcStatus 1) F.cmcStatusVmode 0
def running : State := (plainMode.setCtx 1 2 ctxRunning).modCore 1 fun c => { c with running := some 2 }
def rich : State := (((((running.setWord (.tctxReg 1 2 4) 0x20040).setWord (.tctxReg 1 2 5) 0xFFFFFFFFFFFFFF00).setWord
  (.tctxReg 1 2 6) 0x020210100000).setWord (.tctxReg 1 2 7) 5).setWord (.tctxReg 1 2 8) 0xFFFFFFFF).setWord (.tctxPoison 1 2) 0x20
  |>.setWord (.tctxReg 1 2 9) (regAddr (.tsCnt 5))

theorem rich_calm : rich.Calm 1 2 := by
  unfold State.Calm State.Settled
  decide +kernel
theorem running_calm : running.Calm 1 2 := by
  unfold State.Calm State.Settled
  decide +kernel
theorem plainMode_settled : plainMode.Settled 1 := by
  unfold State.Settled
  decide +kernel

/-- Scalar operations that decode in it, one or more of each opcode. -/
def scOps : List BOp := [.sc 0x17 ⟨0, 0, 0, 0, 0⟩, .sc 0x1 ⟨3, 4, 5, 0, 0⟩, .sc 0x1 ⟨3, 4, 5, 15, 0⟩, .sc 0x2 ⟨3, 4, 0, 7, 0xFFFFFFF0⟩,
  .sc 0x3 ⟨31, 0, 0, 0, 0x80000000⟩, .sc 0x3 ⟨31, 0, 0, 1, 0x80000000⟩, .sc 0x4 ⟨3, 0, 0, 7, 0x10⟩, .sc 0x5 ⟨0, 0, 5, 3, 0x10⟩,
  .sc 0x16 ⟨3, 0, 0, 0, 0⟩, .sc 0x11 ⟨0, 4, 0, 0, 0⟩, .sc 0x11 ⟨0, 0, 0, 9, 63⟩, .sc 0x12 ⟨3, 4, 0, 0, 0⟩, .sc 0x12 ⟨3, 0, 0, 8, 63⟩,
  .sc 0xa ⟨0, 4, 5, 0, 5⟩, .sc 0xa ⟨0, 4, 7, 1, 0xFFFFFFFF⟩, .sc 0xb ⟨3, 4, 0, 0, 0⟩, .sc 0xc ⟨0, 0, 0, 0, 65535⟩, .sc 0xc ⟨0, 7, 0, 1, 0⟩,
  .sc 0x10 ⟨3, 4, 0, 0, 0⟩, .sc 0x10 ⟨3, 4, 0, 3, 0⟩, .sc 0x10 ⟨3, 0, 0, 14, 2⟩, .sc 0xf ⟨3, 4, 7, 2, 0⟩, .sc 0xf ⟨3, 4, 8, 10, 0⟩, .sc 0x13 ⟨0, 0, 0, 0, 0⟩,
  .sc 0x14 ⟨0, 0, 0, 0, 0⟩, .sc 0x6 ⟨3, 4, 0, 0, 0⟩, .sc 0x7 ⟨0, 4, 5, 0, 0⟩, .sc 0x8 ⟨3, 6, 0, 0, 0⟩, .sc 0x9 ⟨0, 6, 7, 0, 0⟩,
  .sc 0xd ⟨3, 4, 7, 0, 0⟩, .sc 0xe ⟨0, 4, 7, 0, 0⟩, .sc 0xf ⟨3, 4, 0, 0, 0⟩, .sc 0xf ⟨3, 4, 0, 1, 0⟩, .sc 0x15 ⟨0, 4, 7, 63, 4088⟩, .sc 0x9 ⟨0, 6, 7, 0, 0x40020⟩, .sc 0x8 ⟨3, 9, 0, 0, 0⟩, .sc 0x9 ⟨0, 9, 7, 0, 0⟩]
/-- Each is ready: what ScalarSlotResults, ScalarBranchesAndWaits and ScalarFarOperations suppose of their slots. -/
theorem witness_ScalarSlotResults : rich.dead = false ∧ ∀ o ∈ scOps, rich.Ready 1 2 o :=
  ⟨by decide +kernel, fun o h => ⟨rich_calm,
    (by decide +kernel : ∀ o ∈ scOps, bundleStall rich 1 2 [o] = none ∧ opFault rich 1 2 [o] o = 0) o h⟩⟩
theorem witness_ScalarRegisterAndPcUpdates :
    (31 : Nat) < 32 ∧ (2 ^ 64 - 1 : Nat) < 2 ^ 64 ∧ (31 : Nat) ≠ 0 ∧ (1 : Nat) < 3 ∧ (2 : CtxId).val ∉ (rich.core 1).stops := by
  decide +kernel

/-- Waits of contexts 2 and 3 of core 1; event 2 is set. -/
def evented : State := rich.setWord (.scEvent 1) 0x4
def waitEv (mask : Nat) : Wait := ⟨.events mask false false false, 7, false, 0, false⟩
def waits : State := (evented.setCtx 1 2 ctxWaiting).modCore 1 fun c =>
  { c with waits := [(2, waitEv 0xC), (3, waitEv 1)] }
def waitsFree : State := (evented.setCtx 1 2 ctxWaiting).modCore 1 fun c =>
  { c with waits := [(2, waitEv 0xC)], running := none }
def halted : State := rich.modCore 1 fun c => { c with halted := [(2, 0)] }
theorem witness_ScalarBranchesAndWaits :
    waitHolds evented 1 (.events 0x4 false false false) = true ∧ waitHolds rich 1 (.events 0x4 false false false) = false ∧
    waitHolds evented 1 (.events 0xC true false false) = false ∧
    brTaken 1 (rich.sreg 1 2 4) (rich.sreg 1 2 7) = false ∧ brTaken 0 (rich.sreg 1 2 4) (rich.sreg 1 2 5) = true ∧
    barPast rich (rich.sreg 1 2 4 % 256) (rich.sreg 1 2 8 % 2 ^ 32) = true ∧
    barPast rich (rich.sreg 1 2 4 % 256) (rich.sreg 1 2 7 % 2 ^ 32) = false ∧
    tabFind (waits.core 1).waits 2 = some (waitEv 0xC) ∧ waits.ctx 1 2 = ctxWaiting ∧
    waitHolds waits 1 (waitEv 0xC).kind = true ∧ waitHolds waits 1 (waitEv 1).kind = false ∧
    (waits.core 1).running = some 2 ∧ (waitsFree.core 1).running ≠ some 2 ∧ tabFind (rich.core 1).waits 2 = none ∧
    tabFind (rich.core 1).halted 2 = none ∧ tabFind (halted.core 1).halted 2 = some 0 ∧ ctxBusy halted 1 2 = false ∧
    halted.cycTime 1 0 ≤ halted.now := by decide +kernel
theorem waits_settled : waits.Settled 1 ∧ waitsFree.Settled 1 ∧ halted.Settled 1 := by
  unfold State.Settled
  decide +kernel
/-- Another READY context of the running one's priority lets YIELD switch. -/
theorem witness_yield : let s := rich.setCtx 1 3 ctxReady
    (s.core 1).running = some (2 : CtxId).val ∧ s.ctx 1 3 = ctxReady ∧
    s.fld (.tctxCtl 1 2) F.tctxCtlPrio ≤ s.fld (.tctxCtl 1 3) F.tctxCtlPrio := by decide +kernel

/-- A far operation on its way, of each kind. -/
def farAway (k : FarKind) : State := rich.modCore 1 fun c => { c with far := [⟨2, 7, k, 0⟩] }
theorem witness_ScalarFarOperations :
    (∀ k ∈ [FarKind.ldf 0x40, .stf 0x48 5 false, .csrr 0x020200000000, .csrw (regAddr (.tsCnt 5)) 7, .turn 3 4,
        .tadd 3 4, .arrive 5, .arriveWait 5],
      (farAway k).dead = false ∧ ((farAway k).core 1).far = [⟨2, 7, k, 0⟩] ∧
      farShadow 0x40 false (rich.modCore 1 fun c => { c with far := [] }) = (rich.modCore 1 fun c => { c with far := [] }, false) ∧
      farShadow 0x48 true (rich.modCore 1 fun c => { c with far := [] }) = (rich.modCore 1 fun c => { c with far := [] }, false)) ∧
    (csrWrite (.core 1) (regAddr (.tsCnt 5)) 7 rich).hif.kernels = [] ∧ (rich.core 1).far = [] ∧
    regAt (rich.scAddr 1 2 ⟨0, 6, 7, 0, 0x40020⟩) = .cmcShadowInv (1 : CoreId) ∧
    regAt (rich.scAddr 1 2 ⟨0, 6, 7, 0, 0⟩) ≠ .cmcShadowInv (1 : CoreId) ∧
    0x020210000000 + (1 : CoreId).val * 0x100000 ≤ rich.scAddr 1 2 ⟨3, 6, 0, 0, 0⟩ ∧
    rich.scAddr 1 2 ⟨3, 6, 0, 0, 0⟩ < 0x020210000000 + ((1 : CoreId).val + 1) * 0x100000 ∧
    ¬ 0x020210000000 + (1 : CoreId).val * 0x100000 ≤ rich.scAddr 1 2 ⟨3, 9, 0, 0, 0⟩ := by decide +kernel
theorem farAway_settled : (farAway (.ldf 0x40)).Settled 1 := by
  unfold State.Settled
  decide +kernel
theorem csrTarget : regAt (regAddr (.tsCnt 5)) = .tsCnt 5 := by decide +kernel

/-- Slots whose fields break a rule: a nonzero field that ALU does not use, an address that CSRW cannot
reach; a FAULTED context beside the running one. -/
theorem witness_SlotDecodeFaultStopsContext :
    rich.dead = false ∧ slotRow (.alu 1 2 ⟨1, 1, 1, 1, 1⟩) = some (1, 2, .sc 0x1 ⟨1, 1, 1, 1, 1⟩) ∧
    bundleStall rich 1 2 [.sc 0x1 ⟨1, 1, 1, 1, 1⟩] = none ∧
    opFault rich 1 2 [.sc 0x1 ⟨1, 1, 1, 1, 1⟩] (.sc 0x1 ⟨1, 1, 1, 1, 1⟩) ≠ 0 ∧
    opFault rich 1 2 [.sc 0x1 ⟨1, 1, 1, 1, 1⟩] (.sc 0x1 ⟨1, 1, 1, 1, 1⟩) % 256 < 0x40 ∧
    coreStopped (rich.setCtx 1 3 ctxFaulted) 1 = true := by decide +kernel
theorem faulted_settled : (rich.setCtx 1 3 ctxFaulted).Settled 1 := by
  unfold State.Settled
  decide +kernel

/-- Code of ten bundles: at PC 0 an LI, or nothing; two READY contexts. -/
def coded : State := rich.setFld (.tctxCode 1 2) F.tctxCodeLen 10
def liWord : Nat := 0x0318000000000007
def bundled : State := coded.setWord (.ibuf 1 0) liWord
/-- The same with an FDISCARD beside it; and with a bundle that fails its parity. -/
def bundled2 : State := bundled.setWord (.ibuf 1 6) (2 * 2 ^ 56)
def bundledBad : State := { bundled with parity := { bundled.parity with bundles := [(1, 0)] } }
def twoReady : State := ((plainMode.setCtx 1 1 ctxReady).setCtx 1 3 ctxReady).setFld (.tctxCtl 1 3) F.tctxCtlPrio 3
theorem bundled_calm : bundled.Calm 1 2 ∧ twoReady.Calm 1 2 := by
  unfold State.Calm State.Settled
  decide +kernel
theorem bundled2_calm : bundled2.Calm 1 2 ∧ bundledBad.Calm 1 2 := by
  unfold State.Calm State.Settled
  decide +kernel
theorem witness_BundleIssuesAtThePc :
    bundled.dead = false ∧ (bundled.core 1).running = some (2 : CtxId).val ∧ bundled.ctx 1 2 = ctxRunning ∧
    bundled.inCode 1 2 (bundled.pc 1 2) = true ∧ bundled.parity.bundles = [] ∧
    (let ops := bundleOps fun k => bundled2.word (.ibuf 1 (bundled2.pc 1 2 * 8 + k))
     ops.length = 2 ∧ bundleStall bundled2 1 2 ops = none ∧ ∀ o ∈ ops, opFault bundled2 1 2 ops o = 0) ∧
    ((1 : CoreId).val, bundledBad.pc 1 2) ∈ bundledBad.parity.bundles ∧
    bundledBad.inCode 1 2 (bundledBad.pc 1 2) = true ∧ (2 : CtxId).val ∉ (bundled.core 1).pcOut ∧
    bundled.word (.ibuf 1 (bundled.pc 1 2 * 8 + 0)) ≠ 0 ∧
    (∀ j < 8, j ≠ 0 → bundled.word (.ibuf 1 (bundled.pc 1 2 * 8 + j)) = 0) ∧
    slotRow (.li 1 2 (scOf liWord)) = some (1, 2, bopOf 0 liWord) ∧
    (∀ k < 8, coded.word (.ibuf 1 (coded.pc 1 2 * 8 + k)) = 0) ∧
    rich.inCode 1 2 (rich.pc 1 2) = false ∧
    (plainMode.core 1).running = none ∧ (∀ d : CtxId, plainMode.ctx 1 d ≠ ctxReady) ∧
    (twoReady.core 1).running = none ∧ twoReady.ctx 1 3 = ctxReady := by decide +kernel

/-- Context 2 idle, with and without code; in a REPEAT; waiting past the watchdog's limit. -/
def idle2 : State := (coded.setCtx 1 2 ctxIdle).modCore 1 fun c => { c with running := none }
def repeating : State := rich.modCore 1 fun c => { c with rep := 3 }
def hanging (h : Bool) : State := (waits.setFld (.scTaskWdog 1) F.scTaskWdogLimit 3).modCore 1 fun c =>
  { c with waits := [(2, { waitEv 1 with hung := h })] }
/-- Event 2, reached by a signal in this cycle, and by none. -/
def signalled (c : Nat) : State := evented.modCore 1 fun k => { k with sigs := [(2, ⟨c, 7, true⟩)] }
theorem witness_TaskContext_events :
    bitAt ((signalled 0).word (.scEvent 1)) 2 = true ∧ (0x4 : Word).toNat.testBit 2 = true ∧
    (tabFind ((signalled 0).core 1).sigs 2).any (fun o => o.cyc == (signalled 0).cyc 1) ∧
    (tabFind ((signalled 9).core 1).sigs 2).any (fun o => o.cyc != (signalled 9).cyc 1) ∧
    (rich.core 1).running = some (2 : CtxId).val ∧ (rich.core 1).stall = none := by decide +kernel
theorem witness_TaskContextControls :
    rich.dead = false ∧ rich.ctx 1 2 ≠ ctxIdle ∧ plainMode.ctx 1 2 = ctxIdle ∧ plainMode.inCode 1 2 (plainMode.pc 1 2) = false ∧
    idle2.ctx 1 2 = ctxIdle ∧ idle2.inCode 1 2 (idle2.pc 1 2) = true ∧ (2 : CtxId).val ∉ (idle2.core 1).pcOut ∧
    idle2.ctx 1 2 ∉ [ctxReady, ctxRunning, ctxWaiting] ∧ rich.ctx 1 2 ∈ [ctxReady, ctxRunning, ctxWaiting] ∧
    (repeating.core 1).stall = none ∧ (repeating.core 1).running = some (2 : CtxId).val ∧ (repeating.core 1).rep ≠ 0 ∧
    (rich.core 1).rep = 0 ∧ (rich.setFld (.scTaskWdog 1) F.scTaskWdogLimit 0).fld (.scTaskWdog 1) F.scTaskWdogLimit = 0 ∧
    tabFind ((hanging true).core 1).waits 2 = some { waitEv 1 with hung := true } ∧
    tabFind ((hanging false).core 1).waits 2 = some { waitEv 1 with hung := false } ∧
    (hanging false).fld (.scTaskWdog 1) F.scTaskWdogLimit ≠ 0 := by decide +kernel
theorem context_settled : idle2.Settled 1 ∧ repeating.Settled 1 ∧ (hanging true).Settled 1 ∧ (hanging false).Settled 1 := by
  unfold State.Settled
  decide +kernel

/-- A scheduled access of the present cycle on a sub-bank; a background read that has waited WAIT_MAX
cycles; a core outside validation mode that CHIP_MODE asks into it, and the other way about. -/
def bankBusy : State := plainMode.modCore 1 fun c => { c with sched := [⟨0, 11, 0x40, 8, true, false⟩] }
def bgWaiting : State := { plainMode with now := 1024 }.modCore 1 fun c =>
  { c with bg := [⟨bgReq .far, 0x40, [], [], false, 5, 0, none⟩], bgSeen := 256 }
/-- An engine buffer of a fenced matrix engine. -/
def fencedMxe : State := plainMode.setWord (.tstFence 1) 0xFF
def unvalidated : State := z.setFld .chipMode F.chipModeValidate 0
theorem witness_CoreMemoryBackgroundAndModes :
    cmSize < cmSize - 2 + ([1, 2, 3] : List Byte).length ∧ plainMode.vmode 1 = false ∧
    cmSize - 3 + ([1, 2, 3] : List Byte).length ≤ cmSize ∧ bankTaken (plainMode.core 1).accesses (plainMode.cyc 1) (cmSize - 3) 3 = false ∧
    viewServes plainMode (coreBase 1 + 0x880000) 8 = false ∧ fencedMxe.dead = false ∧
    placeOf (coreBase 1 + 0x880000) = .engine (1 : CoreId) 0 0x80000 ∧
    viewServes fencedMxe (coreBase 1 + 0x880000) 8 = true ∧
    bankTaken (bankBusy.core 1).accesses (bankBusy.cyc 1) 0x40 4 = true ∧ bankBusy.vmode 1 = false ∧ (plainMode.core 1).bg = [] ∧
    (bgWaiting.core 1).bg = [⟨bgReq .far, 0x40, [], [], false, 5, 0, none⟩] ∧
    bgWaiting.cycTime 1 (0 + max 1 (bgWaiting.fld (.cmcBgCtl 1) F.cmcBgCtlWaitMax)) ≤ bgWaiting.now ∧
    bgWaiting.quiet 1 = false ∧ plainMode.quiet 1 = true ∧ plainMode.wantsValid 1 = 1 ∧
    unvalidated.wantsValid 1 = 0 ∧ unvalidated.vmode 1 = true ∧ unvalidated.quiet 1 = true := by decide +kernel
theorem background_settled : bankBusy.Settled 1 ∧ bgWaiting.Settled 1 ∧ unvalidated.Settled 1 := by
  unfold State.Settled
  decide +kernel

end Sys2Proof.Tests
end

