-- ==== Sys2Proof/Tests/WitnessEngines.lean ====
section
/-! SUPPORT. States that meet the hypotheses of the statements about the matrix and vector engines, clause by
clause. They are states of core 1, context 2 running, MXE 0. -/

namespace Sys2Proof.Tests

-- One theorem at a time: checked side by side they would each wait in a thread of their own.
set_option Elab.async false

open Machine

/-- XREG in s9: event 3 enabled, destination unit 0x1000, slot 5; MXE 0 with weights in force and in standby,
a filled WS set 2; accumulator tile 2 open; at CM 512 an FMV descriptor of one vector and no weights, at CM 1,024
one of four rows. -/
def fmvBytes (vf k strips : Nat) : List Byte := [0, 0, 0, 0, BitVec.ofNat 8 vf, BitVec.ofNat 8 k, 0, BitVec.ofNat 8 strips] ++
  List.replicate 13 0 ++ [0x85] ++ List.replicate 10 0
def mxReady : State := (((rich.setWord (.tctxReg 1 2 9) (5 + 0x1000 * 2 ^ 12 + (3 + 64) * 2 ^ 32)).modMxe 1 0 fun x =>
  { x with issValid := true, issStandby := some 1, wsMeta := [(2, {})], tiles := [(2, { st := 1 })] }).wr
  (coreBase 1 + 0x204) [1]).wr (coreBase 1 + 0x400) (fmvBytes 1 4 1)
/-- The same at level 4, and as a gang of two. -/
def atLevel4 : State := (List.range 4).foldl (fun s i => s.setFld (.mxeStatus 1 i) F.mxeStatusLevel 4) mxReady
def ganged : State := atLevel4.setFld (.mxeCfg 1 0) F.mxeCfgGang 1

def passArgs : PassArgs := ⟨0, 4, 2, 0, true, 1, 9, false, 0, true⟩
/-- Matrix and Fife operations that decode in it, with each kind of PASS and a WLOAD of nothing. -/
def mxOps : List BOp := [.mx 0 (.fill ⟨false, 0, 0, 0, 8, 0⟩), .mx 0 (.fill ⟨true, 2, 0, 0, 0, 0⟩), .mx 0 (.wload ⟨2, 16, 0x100⟩),
  .mx 0 (.wload ⟨2, 0, 0⟩), .mx 0 (.pass passArgs), .mx 0 (.pass { passArgs with m := 0, close := false, switch := false }),
  .mx 0 (.pass { passArgs with switch := false }), .mx 0 (.spass ⟨0x200, 4, 4, 3, true, 1, 9, 0⟩), .mx 0 (.drain ⟨2, 1, 9⟩),
  .mx 0 (.discard 2), .ff 1 0x10, .ff 1 0x20, .ff 2 0]

theorem mxReady_calm : mxReady.Calm 1 2 := by
  unfold State.Calm State.Settled
  decide +kernel
theorem witness_MatrixSlotsIssue : mxReady.dead = false ∧ ∀ o ∈ mxOps, mxReady.Ready 1 2 o :=
  ⟨by decide +kernel, fun o h => ⟨mxReady_calm,
    (by decide +kernel : ∀ o ∈ mxOps, bundleStall mxReady 1 2 [o] = none ∧ opFault mxReady 1 2 [o] o = 0) o h⟩⟩
theorem witness_MatrixSlots_operands :
    xregOf (mxReady.sreg 1 2 9) = some ⟨true, 3, 0x1000, 5⟩ ∧ mxReady.level 1 0 < 4 ∧ 4 ≤ atLevel4.level 1 0 ∧
    (mxReady.tileView 1 0 2).isOpen = true ∧ (mxReady.tileView 1 0 3).isOpen = false ∧
    fmvOf (mxReady.cm 1 0x400 32) = fmvOf (fmvBytes 1 4 1) ∧ (fmvOf (fmvBytes 1 4 1)).wsrc = false ∧
    (fmvOf (fmvBytes 1 4 1)).gather = false ∧ (fmvOf (fmvBytes 1 4 1)).k ≠ 0 ∧ (fmvOf (fmvBytes 1 4 1)).strips ≠ 0 ∧
    (mxReady.core 1).fife = [] ∧
    membersOf (ganged.gang 1) 0 = [0, 1] := by decide +kernel

/-- A constant BF16 tile of 4 rows and columns, a constant INT8 tile of 128. -/
def actTile : List Byte := encodeTileZ 0 etBf16 0 4 4 (List.replicate 4 (List.replicate 4 0x3F80))
def weightTile : List Byte := encodeTileZ 1 etInt8 0 128 128 [[3]]
def tiled : State := ((atLevel4.wr (coreBase 1 + 0x1000) weightTile).wr (coreBase 1 + 0x2000) actTile).wr (abBase 1 0) actTile
/-- Two fills on their way, reads still to come; a load queued, and one running; a held MXE_CFG; a mismatched
tile; a queued pass, and one that waits for weights. -/
def fillOp (slot due : Nat) (a : FillArgs) : FillOp := ⟨2, 5, 6, slot, 0, a, due, [(7, a.src.toNat * 64)], []⟩
def filling (a : FillArgs) : State := tiled.modCore 1 fun x => { x with fills := [fillOp 1 10 a, fillOp 2 19 a] }
def loadOp : LoadOp := ⟨2, 3, 2, 16, 0x100, 5, none⟩
def loadQueued : State := tiled.modMxe 1 0 fun x => { x with load := some loadOp, lastLoad := some (1, 40), lastSwitch := some 20 }
def loadRunning : State := tiled.modMxe 1 0 fun x =>
  { x with cur := some { loadOp with n := 128, start := some 7 }, standby := { cols := 4, colsum := [1, 2, -3] } }
def cfgWaiting : State := tiled.modCore 1 fun x => { x with cfgHeld := some 2 }
def mismatched : State := tiled.modMxe 1 0 fun x => { x with tiles := [(3, { st := 1, abft := true })] }
def closing : CloseInfo := ⟨2, List.replicate 8 0, 0x1000, true, 3, 4, 3, []⟩
def feedOp : FeedOp := ⟨false, 2, 5, 0, 2, 3, 0, false, false, 0, false, [], 0, {}, closing, 4, false⟩
def feeding (f : FeedOp) : State := tiled.modMxe 1 0 fun x => { x with feeder := [f], tiles := [(3, { st := 1, ready := 30 })] }
/-- The load waits behind a pass that switches. -/
def loadBehind : State := (feeding { feedOp with switch := true }).modMxe 1 0 fun x => { x with load := some loadOp }
/-- A kernel on the core, whose context 2 runs. -/
def kernelHere : State := { tiled with hif := { tiled.hif with kernels := [⟨0, 1, [], [1], [2], 1, 0, 0, 0⟩] } }

theorem engine_settled : tiled.Settled 1 ∧ (filling ⟨true, 2, 0, 0x40, 0, 0⟩).Settled 1 ∧ loadQueued.Settled 1 ∧
    loadRunning.Settled 1 ∧ cfgWaiting.Settled 1 := by
  unfold State.Settled
  decide +kernel
theorem engine_settled_more : mismatched.Settled 1 ∧ (feeding feedOp).Settled 1 ∧ loadBehind.Settled 1 ∧
    (filling ⟨false, 0, 0, 0x80, 8, 0⟩).Settled 1 := by
  unfold State.Settled
  decide +kernel
/-- Fills: an activation tile into AB; a weight tile, and none, into a WS set. -/
theorem witness_MatrixFills :
    let a : FillArgs := ⟨false, 0, 0, 0x80, 8, 0⟩
    let s := filling a
    s.dead = false ∧ (tiled.core 1).fills = [] ∧ (s.core 1).fills = [] ++ fillOp 1 10 a :: [fillOp 2 19 a] ∧
    s.fillDue 1 (fillOp 1 10 a) ≤ s.fillDue 1 (fillOp 2 19 a) ∧ (s.core 1).bg = [] ∧
    ((s.core 1).moments (s.fillDue 1 (fillOp 1 10 a))).all (fun q => q.2 matches .fill ..) ∧
    (fillOp 1 10 a).due = (fillOp 1 10 a).issue + 3 + ceilDiv a.len.toNat 8 ∧
    (fillOp 1 10 a).reads = ((List.range (ceilDiv a.len.toNat 8)).map fun i => (6 + 1 + i, a.src.toNat * 64 + 512 * i)) ∧
    (a.src.toNat + a.len.toNat) * 64 ≤ cmSize ∧ (a.aboff.toNat + a.len.toNat) * 64 ≤ 0x40000 := by decide +kernel
/-- What a WS fill finds when it is due. -/
def fillFinds (src : BitVec 17) : Option Nat :=
  let s := filling ⟨true, 2, 0, src, 0, 0⟩
  let f := fillOp 1 10 ⟨true, 2, 0, src, 0, 0⟩
  (((s.toCyc 1 (s.fillDue 1 f)).core 1).fills[0]?).map fun g =>
    let o := src.toNat * 64
    fillFault (gotBytes g.got o (min (max ((hdrOf (gotBytes g.got o 64)).len * 64) 64) (cmSize - o))) (cmSize - o) 0
theorem witness_MatrixFills_sets : fillFinds 0x40 = some 0 ∧ (fillFinds 0xC0).any (· ≠ 0) := by decide +kernel
theorem witness_MatrixLoadsAndConfiguration :
    tiled.dead = false ∧ tiled.vmode 1 = false ∧
    (tiled.mxe 1 0).load = none ∧ (loadQueued.mxe 1 0).load = some loadOp ∧ (loadQueued.mxe 1 0).cur = none ∧
    loadOp.n ≤ 128 ∧ loadOp.set = (2 : Fin 4).val ∧ (loadBehind.mxe 1 0).load = some loadOp ∧
    (∃ f ∈ (loadBehind.mxe 1 (leadOf (loadBehind.gang 1) 0)).feeder, f.switch = true ∧ f.issue ≤ loadOp.issue) ∧
    (loadQueued.mxe 1 0).feeder = [] ∧ (tiled.mxe 1 0).cur = none ∧
    (loadRunning.mxe 1 0).cur = some { loadOp with n := 128, start := some 7 } ∧ (loadRunning.mxe 1 0).standby ≠ {} ∧
    (tiled.core 1).cfgHeld = none ∧ (cfgWaiting.core 1).cfgHeld = some 2 ∧ (cfgWaiting.core 1).stall = none ∧
    (∀ i : MxeId, (cfgWaiting.mxe 1 i).held = false) ∧ (loadQueued.mxe 1 0).held = true ∧
    cfgWaiting.gang 1 ≠ F.mxeCfgGang.of (2 : Word).toNat := by decide +kernel
theorem witness_MatrixScan_kernel :
    kernelHere.dead = false ∧ coreSync 1 kernelHere = kernelHere ∧ kernelSweep kernelHere = kernelHere ∧
    kernelHere.kernelOn 1 = true ∧ kernelHere.drained 1 = false := by decide +kernel
theorem witness_MatrixTilesAndLevels :
    ((tiled.mxe 1 0).tile 3).abft = false ∧ ((mismatched.mxe 1 0).tile 3).abft = true ∧
    ([1, 2, 3, 127] : List (Fin 128)).Nodup ∧ ([1, 2, 3, 4, 127] : List (Fin 128)).Nodup ∧ tiled.word (.mxeBypass 1 0) = 0 ∧
    tiled.feederIdle 1 0 = true ∧ (feeding feedOp).feederIdle 1 0 = false ∧ mxReady.level 1 0 = 0 ∧ tiled.level 1 0 ≠ 0 := by
  decide +kernel

/-- A drain at each stage; Fife operations: nothing to do, weights from a stream that has none yet, from CM. -/
def drainOp : DrainOp := { tile := 3, partner := none, info := closing, ready := 20, slot := 0 }
def closingTile : AccTile := { st := 1, closing := true, mt := 2, cols := 4, ready := 10 }
def draining (d : DrainOp) : State := tiled.modMxe 1 0 fun x => { x with drains := [d], tiles := [(3, closingTile), (4, closingTile)] }
/-- A drain of MXE 1 in a gang of two, its lead's still to start; and with a pass ahead of the lead's own. -/
def gangDraining (f : List FeedOp) : State := ((tiled.setFld (.mxeCfg 1 0) F.mxeCfgGang 1).modMxe 1 0 fun x =>
  { x with drains := [drainOp], tiles := [(3, closingTile)], feeder := f }).modMxe 1 1 fun x =>
  { x with drains := [drainOp], tiles := [(3, closingTile)] }
def fifeOp (bs : List Byte) : FifeOp :=
  { ctx := 2, pc := 5, desc := bs, latch := {}, chain := List.replicate 8 0, params := [], issue := 4, amax := [] }
def fifing (o : FifeOp) : State := tiled.modCore 1 fun x => { x with fife := [o] }

theorem drain_settled : (draining drainOp).Settled 1 ∧ (gangDraining []).Settled 1 ∧ (fifing (fifeOp (fmvBytes 1 4 1))).Settled 1 := by
  unfold State.Settled
  decide +kernel
/-- Passes that wait for weights, that find a good and a bad tile, that are checked, and one vector of integers. -/
def intReady : State := ((feeding { feedOp with m := 1 }).modMxe 1 0 fun x =>
  { x with active := { x.active with etype := 1 } }).setFld (.mxeCfg 1 0) F.mxeCfgAbftEn 0
def sparseOp : FeedOp := { feedOp with sparse := true, entries := [0x40 * 2 ^ 32], count := 1 }
theorem witness_MatrixPassesRun :
    (tiled.mxe 1 0).feeder = [] ∧ (feeding feedOp).dead = false ∧ (feeding feedOp).vmode 1 = false ∧
    ((feeding feedOp).mxe 1 0).feeder = feedOp :: [] ∧ feedOp.sparse = false ∧ feedOp.m ≠ 0 ∧
    awaitsLoad (feeding { feedOp with switch := true }) 1 0 { feedOp with switch := true } = true ∧
    awaitsLoad (feeding feedOp) 1 0 feedOp = false ∧
    (let u := (feeding feedOp).toCyc 1 (feedCycle (feeding feedOp) 1 0 feedOp)
     actTileFault (u.abTile 1 0 0) 0x40000 = 0 ∧ actTileFault (u.abTile 1 0 64) (0x40000 - 64 * 64) ≠ 0) ∧
    (((feeding feedOp).mxe 1 0).tile 3).cols ≤ (((feeding feedOp).mxe 1 0).tile 3).fullCols ∧
    (0 + feedOp.m) * (((feeding feedOp).mxe 1 0).tile 3).fullCols ≤ 0x4000 ∧
    (intReady.mxe 1 0).feeder = [{ feedOp with m := 1 }] ∧ intReady.abftEn 1 0 = false ∧
    isIntMode (intReady.mxe 1 0).active.etype = true ∧ membersOf (intReady.gang 1) 0 = [0] ∧
    (intReady.setFld (.mxeCfg 1 0) F.mxeCfgAbftEn 1).isChecked 1 0 closing.chain = true ∧
    closing.evEn = true ∧ closing.event = (3 : Fin 64).val := by decide +kernel
theorem witness_MatrixPassesRun_sparse :
    let s := feeding sparseOp
    let u := s.toCyc 1 (max sparseOp.issue (s.mxe 1 0).feedFree)
    let bad := fun (e : Nat) => let es := [e]
      let et := u.spassType 1 es (s.mxe 1 0).issEtype
      spassBad u 1 0 { sparseOp with entries := es } et (u.positions 1 0 (membersOf (u.gang 1) 0) es)
    sparseOp.sparse = true ∧ sparseOp.m ≠ 0 ∧ sparseOp.count ≠ 0 ∧ sparseOp.close = false ∧
    (s.mxe 1 0).feeder = [sparseOp] ∧ bad (0x40 * 2 ^ 32) = 0 ∧ bad (0xC0 * 2 ^ 32) ≠ 0 ∧
    ({ sparseOp with m := 0, close := true } : FeedOp).close = true ∧ ((s.mxe 1 0).tile 3).st = 1 := by decide +kernel
theorem witness_DrainsAndFifeComplete :
    (draining drainOp).dead = false ∧ (draining drainOp).vmode 1 = false ∧ (tiled.mxe 1 0).drains = [] ∧
    (tiled.mxe 1 0).drains.all DrainOp.started = true ∧ ((draining drainOp).mxe 1 0).drains = drainOp :: [] ∧
    (draining drainOp).gang 1 = 0 ∧ drainOp.started = false ∧ drainOp.swapped = false ∧
    drainWaits (draining drainOp) 1 0 drainOp = false ∧ drainWaits (gangDraining [feedOp]) 1 0 drainOp = true ∧
    (membersOf ((gangDraining []).gang 1) 1).takeWhile (· ≠ (1 : MxeId).val) = [0] ∧
    (∃ e ∈ ((gangDraining []).mxe 1 0).drains, e.started = false ∧ drainOp.same e = true) ∧
    ((gangDraining []).mxe 1 1).drains = [drainOp] ∧
    ({ drainOp with started := true } : DrainOp).started = true ∧ ({ drainOp with swapped := true } : DrainOp).swapped = true ∧
    (tiled.core 1).fife = [] ∧ ((fifing (fifeOp (fmvBytes 1 4 1))).core 1).fife = fifeOp (fmvBytes 1 4 1) :: [] ∧
    (fmvOf (fmvBytes 1 0 0)).k = 0 ∧ (fmvOf (fmvBytes 1 4 1)).k ≠ 0 ∧ (fmvOf (fmvBytes 1 4 1)).strips ≠ 0 ∧
    (fmvOf (fmvBytes 1 4 1)).wsrc = false ∧ (fmvOf (fmvBytes 1 4 1)).en = true ∧
    ({ fifeOp (fmvBytes 1 4 1) with drop := true } : FifeOp).drop = true ∧ (fifeOp (fmvBytes 17 4 1)).reads = [] ∧
    (fmvOf (fmvBytes 17 4 1)).wsrc = true ∧
    (tabGet [] ((fifing (fifeOp (fmvBytes 17 4 1))).core 1).fifeQ 0).length <
      (stripsFrom (fun off len => ((tabGet [] ((fifing (fifeOp (fmvBytes 17 4 1))).core 1).fifeQ 0).drop off).take len) 1 1 0).2 := by
  decide +kernel

/-- Vector operations that decode: one of each, the three types, and the descriptors of VREQ and VPSUM. -/
def vecReady : State := rich.wr (coreBase 1 + 0x44) [4, 0, 1]
def vxArgs (t : BitVec 2) (imm : BitVec 25) : VxArgs := ⟨63, 1, 2, 3, t, 0, imm⟩
def vxOps : List BOp := ([0x1, 0x2, 0x3, 0x4, 0x5, 0x6, 0x7, 0x8, 0x9, 0xa, 0xb, 0xd, 0xe, 0xf, 0x10].flatMap fun k =>
  [.vx k (vxArgs 0 0), .vx k (vxArgs 1 0)]) ++ [.vx 0x3 (vxArgs 2 0), .vx 0xc (vxArgs 0 4), .vx 0xc (vxArgs 0 6), .vx 0x9 (vxArgs 2 1),
  .vx 0x11 (vxArgs 0 2), .vx 0x12 (vxArgs 0 0)]
/-- A background operation has an access in this cycle. -/
def slipping : State := vecReady.modCore 1 fun c => { c with sched := [⟨0, 10, 0x800, 512, false, true⟩] }
theorem vecReady_calm : vecReady.Calm 1 2 := by
  unfold State.Calm State.Settled
  decide +kernel
theorem witness_VectorSlotsIssue : vecReady.dead = false ∧ ∀ o ∈ vxOps, vecReady.Ready 1 2 o :=
  ⟨by decide +kernel, fun o h => ⟨vecReady_calm,
    (by decide +kernel : ∀ o ∈ vxOps, bundleStall vecReady 1 2 [o] = none ∧ opFault vecReady 1 2 [o] o = 0) o h⟩⟩
def vecBackground (en : Bool) : State := plainMode.modCore 1 fun c =>
  { c with vbg := [⟨2, 5, 9, en, 63, [⟨coreBase 1 + 0x100, [1, 2], true⟩], [], false, false, false, 0, 7⟩] }
theorem witness_VectorBackgroundDone : (∀ en, (vecBackground en).Settled 1) ∧ (vecBackground true).vmode 1 = false ∧
    (plainMode.core 1).vbg = [] ∧ ((vecBackground true).core 1).vbg.length = 1 ∧
    (slipping.core 1).sched.any (fun q => q.slip && q.cyc == slipping.cyc 1) ∧
    ¬ (vecReady.core 1).sched.any (fun q => q.slip && q.cyc == vecReady.cyc 1) := by
  unfold State.Settled
  decide +kernel
theorem witness_VectorIntegerLanesSaturate :
    (0x80000000 : Nat) < 2 ^ 32 ∧ sx 32 0x80000000 = -2147483648 ∧ sx 32 0 = 0 ∧ sx 32 1 = 1 ∧ sx 32 0x7FFFFFFF ≠ -2147483648 := by
  decide +kernel

end Sys2Proof.Tests
end

