-- ==== Sys2Proof/Tests/WitnessStreams.lean ====
section
/-! SUPPORT. States that meet the hypotheses of the statements about stream queues, stream instructions and the
Colonnade, clause by clause. They are states of core 1 and its queue 3. -/

namespace Sys2Proof.Tests

-- One theorem at a time: checked side by side they would each wait in a thread of their own.
set_option Elab.async false

open Machine

/-- Words of stream instructions, from the table of R271. -/
def sEnd : Word := 0
def sSet : Word := 0x1000000000000040
def sAdd : Word := 0x2000FFFFFFFFFFC0
def sLoop : Word := 0x3000000200000001
def sEmit : Word := 0x4004000000000000
def sEmitNone : Word := 0x4000000000000000
def sGather : Word := 0x5000000480000008
def sMarkSet : Word := 0x6400000000000002
def sMarkNot : Word := 0x6400000000000003
def sSignal : Word := 0x7000000000000005
def sBad : Word := 0x8000000000000000

/-- Queue 3 of core 1 in a state, with a program, its source in CM at 0x1000 and its destination at 0x2000. -/
def queue (st : Nat) (ws : List Word) : State :=
  let s := ws.zipIdx.foldl (fun s w => s.setWord (.strProg 1 3 w.2) w.1.toNat) evented
  let s := (s.setFld (.strQSrc 1 3) F.strQSrcBase ((coreBase 1 + 0x1000) / 64)).setFld (.strQDst 1 3) F.strQDstBase
    ((coreBase 1 + 0x2000) / 64)
  (s.setFld (.strQStat 1 3) F.strQStatState st).setFld (.strQCtl 1 3) F.strQCtlEvent 6
def withQ (f : StrQ → StrQ) (s : State) : State := s.modStrq 1 3 f
/-- Transfers: within CM, from the Orangery into CM, to another device, to Fife's port. -/
def toCm : Transfer := ⟨4, coreBase 1 + 0x1000, coreBase 1 + 0x2000, false, 2, false⟩
def fromOrg : Transfer := ⟨4, orgBase + 0x40, coreBase 1 + 0x2000, false, 2, false⟩
def toPeer : Transfer := ⟨4, coreBase 1 + 0x1000, 2 ^ 47 + 5 * 2 ^ 35, false, 2, false⟩
def flying (t : Transfer) (st : Nat) : State := withQ (fun x => { x with inflight := [t], nextId := 5 }) (queue st [sSet])
def stArgs : StArgs := ⟨3, 2, 7, 4, 6, 9, true⟩
def pushOp : StOp := ⟨2, 7, 5, 3, 0, 0, 4, 6, 9, true⟩
def pushing : State := (queue strIdle []).modCore 1 fun x => { x with stq := [pushOp] }
def fullGh (s : State) : State := s.modGh 4 fun g => { g with queues := [(0, List.replicate 256 ⟨[], 0, 0, none, [], [], none, none⟩)] }

/-- Colonnade descriptors: two units to cores 4 and 5 with both events, one without LEN, one that is illegal; a
transfer waiting, under way, and sent. -/
def colBytes (mask len : Byte) : List Byte := [mask, 0, 0, 0, 0x10, 0, 0, 0, len, 0, 0, 0, 0x20, 0, 0, 0, 0x83, 0x84] ++ List.replicate 14 0
def colBad : List Byte := List.replicate 31 0 ++ [1]
def colAt (bs : List Byte) : State := plainMode.wr (coreBase 1 + 64) bs
def colUnits : List UnitP := [⟨List.replicate 64 3, false⟩, ⟨List.replicate 64 5, false⟩]
def colT (start : Option Nat) (sent : Bool) : ColTransfer := ⟨colBytes 0x30 2, 0, start, sent, colUnits, [4, 5], 2⟩
def sending (ts : List ColTransfer) : State := (plainMode.setFld (.cmcStatus 4) F.cmcStatusVmode 0).modCore 1 fun x => { x with colon := ts }
/-- Core 3 has a transfer under way that needs the link from core 3. -/
def clashing : State := (sending [colT none false]).modCore 3 fun x => { x with colon := [colT (some 0) false] }

theorem queue_settled : (queue strRunning [sSet, sEnd]).Settled 1 ∧ (queue strIdle [sSet, sEnd]).Settled 1 ∧
    (queue strFaulted [sBad]).Settled 1 ∧ (queue strMark [sMarkSet]).Settled 1 ∧ pushing.Settled 1 ∧
    (flying toCm strRunning).Settled 1 ∧ (flying toPeer strRunning).Settled 1 := by
  unfold State.Settled
  decide +kernel
/-- The stream slot's operations in running and idle states of the queue; a full Glasshouse queue. -/
theorem streamSlot_calm : (queue strRunning [sSet, sEnd]).Calm 1 2 ∧ (queue strIdle [sSet, sEnd]).Calm 1 2 ∧
    (fullGh (queue strIdle [sSet, sEnd])).Calm 1 2 := by
  unfold State.Calm State.Settled
  decide +kernel
theorem witness_streamSlot : ∀ k ∈ [1, 2, 3, 4, 5], (queue strRunning [sSet, sEnd]).Ready 1 2 (.st k stArgs) ∧
    (queue strIdle [sSet, sEnd]).Ready 1 2 (.st k stArgs) ∧ (fullGh (queue strIdle [sSet, sEnd])).Ready 1 2 (.st k stArgs) := by
  have h : ∀ s ∈ [queue strRunning [sSet, sEnd], queue strIdle [sSet, sEnd], fullGh (queue strIdle [sSet, sEnd])],
    ∀ k ∈ [1, 2, 3, 4, 5], bundleStall s 1 2 [.st k stArgs] = none ∧ opFault s 1 2 [.st k stArgs] (.st k stArgs) = 0 := by
    decide +kernel
  obtain ⟨c1, c2, c3⟩ := streamSlot_calm
  exact fun k hk => ⟨⟨c1, h _ (by simp) k hk⟩, ⟨c2, h _ (by simp) k hk⟩, ⟨c3, h _ (by simp) k hk⟩⟩
theorem witness_StreamQueueControl :
    (queue strRunning [sSet, sEnd]).dead = false ∧ (queue strRunning [sSet, sEnd]).coreOut 1 = false ∧
    (queue strRunning [sSet, sEnd]).Reaches (.core 1) (regAddr (.strQCtl 1 3)) ∧
    (∀ x ∈ [StrReg.src, .dst, .ir 2, .prog 31], (queue strIdle [sSet]).Reaches (.core 1) (regAddr (strRegOf 1 3 x))) ∧
    (queue strRunning [sSet, sEnd]).strLive 1 3 = true ∧ (queue strIdle [sSet, sEnd]).strLive 1 3 = false ∧
    (progCheck ((queue strIdle [sSet, sEnd]).strWord 1 3) 32 0 []).code = 0 ∧
    (progCheck ((queue strIdle [sBad]).strWord 1 3) 32 0 []).code ≠ 0 ∧
    depthSum (queue strIdle [sSet]) 1 = 128 ∧ ¬ (64 < 64 ∨ 256 < 128 - max 1 8 + max 1 64) ∧
    F.strQCtlQdepth.of (F.strQCtlQdepth.put 0 64) + F.strQCtlStart.of (F.strQCtlQdepth.put 0 64) + F.strQCtlStop.of (F.strQCtlQdepth.put 0 64) = 64 ∧
    stArgs.q = 3 ∧ (((queue strIdle [sSet]).gh 6).q 0).length < 256 ∧ 256 ≤ (((fullGh (queue strIdle [sSet])).gh 4).q 0).length ∧
    ((queue strIdle [sSet]).core 1).stq = [] ∧ (pushing.core 1).stq = [pushOp] ∧ pushOp.code = 5 ∧
    ((pushing.gh pushOp.stk).q 0).length < 256 ∧ ((flying toCm strRunning).strq 1 3).inflight ≠ [] ∧
    ((withQ (fun x => { x with fault := 0x25 }) (queue strRunning [])).strq 1 3).fault ≠ 0 ∧
    ((withQ (fun x => { x with stopping := true }) (queue strRunning [])).strq 1 3).stopping = true ∧
    (queue strDraining []).strState 1 3 = strDraining := by
  unfold State.Reaches
  decide +kernel
/-- The queue executes its present instruction, of opcode k, in its turn; the state when its turn has come. -/
def goes (s : State) (k : Nat) : Bool := strReady s 1 3 && !strHeld s 1 3 && strOp s 1 3 == k
def turned (s : State) : State :=
  let turn := strTake s 1 3 16 ((s.core 1).strTurn.goOn (max (s.cyc 1) (s.strq 1 3).free))
  ((s.modCore 1 fun c => { c with strTurn := turn }).toCyc 1 turn.cyc).modStrq 1 3 fun y => { y with free := turn.cyc + 1 }
def nothing (s : State) : Bool := ((turned s).strq 1 3).todo.isEmpty && ((turned s).strq 1 3).cut == 0
/-- EMITs through a handle: with a length, and of handle 0. -/
def sEmitLen : Word := 0x4003000000000000
def sEmitTile : Word := 0x4001000000000000
theorem witness_StreamInstructionsExecute_emits :
    (∀ e ∈ [(4, sEmit), (4, sEmitNone), (4, sEmitLen), (4, sEmitTile)], goes (queue strRunning [e.2, sEnd]) e.1 = true) ∧
    nothing (queue strRunning [sEmit, sEnd]) = true ∧ nothing (queue strRunning [sEmitNone, sEnd]) = true ∧
    siSh sEmit.toNat = false ∧ siLen sEmit.toNat ≠ 0 ∧ siLen sEmitNone.toNat = 0 ∧ siSh sEmitLen.toNat = true ∧
    siLen sEmitLen.toNat ≠ 0 ∧ siSh sEmitTile.toNat = true ∧ siLen sEmitTile.toNat = 0 ∧ siDkind sEmitTile.toNat < 2 ∧
    (resolve 0 false (turned (queue strRunning [sEmitTile, sEnd]))).2.1 ≠ 0 ∧
    (let u := turned (queue strRunning [sEmit, sEnd])
     (emitList 1 3 sEmit.toNat u).2.strq 1 3 = u.strq 1 3 ∧ (u.strq 1 3).fault = 0 ∧
     ∀ t ∈ (emitList 1 3 sEmit.toNat u).1, isRemote t.dst = false) := by decide +kernel
/-- A GATHER with two bits of its bitmap set, one whose bitmap lies past the end, one of no length. -/
def sGatherPast : Word := 0x50000004800FFFFF
def gathering (w : Word) : State := (queue strRunning [w, sEnd]).wr (coreBase 1 + 64) [5]
def sGatherLen : Word := 0x5004000480000008
def waitingTodo (w : Word) : State := withQ (fun x => { x with todo := [toCm] }) (queue strRunning [w, sEnd])
theorem witness_StreamInstructionsExecute_gathers :
    (∀ e ∈ [(5, sGather), (5, sGatherPast), (5, sGatherLen)], goes (gathering e.2) e.1 = true) ∧ nothing (gathering sGather) = true ∧
    siLen sGatherLen.toNat ≠ 0 ∧ bitsOf sGatherLen.toNat 43 31 ≠ 0 ∧
    bitsOf sGatherLen.toNat 19 0 * 8 + ceilDiv (bitsOf sGatherLen.toNat 43 31) 8 ≤ cmSize ∧
    (bgReach 12 (coreBase 1 + bitsOf sGatherLen.toNat 19 0 * 8) (ceilDiv (bitsOf sGatherLen.toNat 43 31) 8) false
      (turned (gathering sGatherLen))).2 = false ∧
    (let r := gatherList 1 3 sGatherLen.toNat (turned (gathering sGatherLen))
     (r.2.2.2.strq 1 3).fault = 0 ∧ ∀ t ∈ r.1, isRemote t.dst = false) ∧
    ((gatherList 1 3 sGatherPast.toNat (turned (gathering sGatherPast))).2.2.2.strq 1 3).fault ≠ 0 ∧
    goes (waitingTodo sEmit) 4 = true ∧ goes (waitingTodo sGather) 5 = true ∧
    ((turned (waitingTodo sEmit)).strq 1 3).todo = [toCm] ∧ isRemote toCm.dst = false := by decide +kernel
theorem witness_StreamInstructionsExecute :
    (∀ e ∈ [(1, sSet), (2, sAdd), (3, sLoop), (4, sEmit), (4, sEmitNone), (5, sGather), (6, sMarkSet), (6, sMarkNot), (7, sSignal), (0, sEnd)],
      goes (queue strRunning [e.2, sEnd]) e.1 = true) ∧
    bitAt sAdd.toNat 55 = false ∧ goes (queue strRunning [0x2080000000000000, sEnd]) 2 = true ∧
    ((withQ (fun x => { x with signals := [⟨5, 3⟩] }) (flying toCm strRunning)).strq 1 3).signals = [⟨5, 3⟩] ∧
    strReady (queue strIdle [sSet]) 1 3 = false ∧
    lastBefore ((queue strRunning [sEmitNone, sEnd]).strWord 1 3) ((queue strRunning [sEmitNone, sEnd]).fld (.strQDst 1 3) F.strQDstBase * 64)
      4096 (posNext ((queue strRunning [sEmitNone, sEnd]).strWord 1 3) ((queue strRunning [sEmitNone, sEnd]).strPos 1 3)) = some true ∧
    (let s := queue strRunning [sEmit]; xferFault s (s.fld (.strQSrc 1 3) F.strQSrcBase * 64) 128 (strDest s 1 3 sEmit.toNat 0) = 0 ∧
      strRoom s 1 3 = true ∧ isRemote (strDest s 1 3 sEmit.toNat 0).a = false) ∧
    (let s := queue strRunning [sEmit]; xferFault s (coreBase 1 + cmSize - 64) 128 (strDest s 1 3 sEmit.toNat 0) ≠ 0) ∧
    siLen sGather.toNat = 0 ∧ bitsOf sGather.toNat 19 0 * 8 + ceilDiv (bitsOf sGather.toNat 43 31) 8 ≤ cmSize ∧
    markHolds (queue strRunning [sMarkSet]) 1 3 sMarkSet.toNat = true ∧ markHolds (queue strRunning [sMarkNot]) 1 3 sMarkNot.toNat = false ∧
    (queue strMark [sMarkSet]).strState 1 3 = strMark ∧ markHolds (queue strMark [sMarkSet]) 1 3 sMarkSet.toNat = true ∧
    (∀ t ∈ [toCm], (4 : Nat) ≤ t.id) ∧ ((flying fromOrg strRunning).strq 1 3).inflight = [fromOrg] ∧
    placeOf fromOrg.dst = .cm 1 0x2000 ∧ placeOf fromOrg.src = .orangery 0x40 ∧ 0x2000 + fromOrg.units * 64 ≤ cmSize ∧
    isRemote toPeer.dst = true ∧ (0x25 : Byte).toNat ≠ ecWatchdog ∧ (0x25 : Byte).toNat ≠ 0 ∧ (0x25 : Byte).toNat < 0x40 := by
  decide +kernel

theorem colonnade_settled : (sending [colT (some 0) false]).Settled 1 ∧ clashing.Settled 1 := by
  unfold State.Settled
  decide +kernel
theorem witness_ColonnadeTransfers :
    clashing.dead = false ∧ clashing.vmode 4 = false ∧ (2 : Nat) * 32 + 32 ≤ cmSize ∧
    ((colAt (colBytes 0x30 2)).cm 1 64 32 = colBytes 0x30 2) ∧ colFault colBad ≠ 0 ∧
    colFault (colBytes 0x30 2) = 0 ∧ (colDesc (colBytes 0x30 0)).len = 0 ∧ colFault (colBytes 0x30 0) = 0 ∧
    (colDesc (colBytes 0x30 2)).mask ≠ 0 ∧ (colDesc (colBytes 0x30 2)).len ≠ 0 ∧
    (clashing.core 1).colon = colT none false :: [] ∧ (colT none false).start = none ∧
    (∃ p ∈ allCol clashing, (p.2.start.isSome = true ∨ p.2.arr < (colT none false).arr) ∧ ¬ (p.1 = 1 ∧ p.2 = colT none false) ∧
      colClash clashing 1 (colT none false) p.1 p.2 = true) ∧
    (∀ p ∈ allCol (sending [colT none false]), ¬ (p.2.start.isSome = true ∨ p.2.arr < (colT none false).arr)) ∧
    clashing.vmode 1 = false ∧ (sending [colT none false]).chip.ringHold = [] ∧ clashing.dead = false ∧
    (∀ t ∈ ([colT (some 0) true] : List ColTransfer), t.start = none ∨ t.sent = true) ∧
    (colT (some 0) false).start = some 0 ∧ (colT (some 0) false).left ≠ [] ∧ (4 : CoreId).val ∈ (colT (some 0) false).left ∧
    (6 : CoreId).val ∉ (colT (some 0) false).left ∧ (colT (some 0) false).data.length = (colDesc (colT (some 0) false).desc).len ∧
    (∀ b ∈ (colT (some 0) false).data, b.bs.length = 64) ∧ (colT (some 0) true).sent = true ∧
    bitAt (colDesc (colBytes 0x30 2)).sevent 7 = true ∧ bitAt (colDesc (colBytes 0x30 2)).devent 7 = true := by decide +kernel

end Sys2Proof.Tests
end

