-- ==== Sys2Proof/Tests/WitnessHost.lean ====
section
/-! SUPPORT. States that meet the hypotheses of the statements about registers, queue pairs, DMA, the aperture and
power states of the host interface, clause by clause. -/

namespace Sys2Proof.Tests

-- One theorem at a time: checked side by side they would each wait in a thread of their own.
set_option Elab.async false

open Machine

/-- A READY device outside validation mode in core 1; a core out of service; halves held and latched; raw stacks. -/
def hostOn : State := (plainMode.setFld .hifBoot F.hifBootStage 8).setFld .hifBoot F.hifBootState 1
def outCore : State := hostOn.setFld (.coreMap 0) F.coreMapState 2
def halves (a : Nat) : State := { hostOn with heldLow := [(0, a, 5)], latchHigh := [(0, a, 77)] }
def rawStack : State := hostOn.setFld (.ghStatus 2) F.ghStatusRaw 1

/-- Every register is in the host's reach on a READY device that is awake. -/
theorem hostOn_reaches (r : Requester) (a : Nat) : hostOn.Reaches r a := fun _ =>
  ⟨by unfold wakeFor; split <;> rfl,
   by simp [barServed, (by decide +kernel : hostOn.hifServed = true), (by decide +kernel : hostOn.ready = true)]⟩
theorem hostOn_settled : hostOn.Settled 1 ∧ outCore.Settled 1 := by
  unfold State.Settled
  decide +kernel
theorem witness_CsrAccessesFollowTheAccessCodes :
    csrSettle (regAddr .errTail) hostOn = hostOn ∧ rawHidden hostOn .dispCtl = false ∧
    halfOf hostOn.latchHigh 0 (regAddr .dispCtl) = none ∧
    (regFields .dispCtl).any (fun f => f.acc == .rw && f.fld.lo / 32 == 0 && f.fld.hi / 32 == 0) ∧
    (regFields (.bsWait 2 3)).any (fun f => f.acc == .rc && f.fld.lo / 32 == f.fld.hi / 32) ∧
    hostOn.dead = false ∧ regAt 0x020200000004 = .none ∧ rawHidden rawStack (.ghDirBase 2) = true ∧
    rawHidden hostOn (.ghDirBase 2) = false ∧ csrCore (regAddr (.mxeCfg 0 0)) = some 0 ∧ outCore.coreOut 0 = true ∧
    hostOn.coreOut 0 = false ∧ csrCore (regAddr (.errTail)) = none ∧ plainReg (.dispCtl) = true ∧
    ¬ ((2 = 8 ∧ 16 % 8 = 0) ∨ (2 = 4 ∧ 16 % 4 = 0)) ∧ halfIdx (.cc 2) = some 3 ∧ halfIdx .host = some 0 ∧
    regAtomic (regAt (regAddr (.tsCnt 7))) = true ∧ regAtomic (regAt (regAddr .dispCtl)) = false ∧
    halfOf (halves (regAddr (.tsCnt 7))).heldLow 0 (regAddr (.tsCnt 7)) = some 5 ∧
    halfOf (halves (regAddr (.tsCnt 7))).latchHigh 0 (regAddr (.tsCnt 7)) = some 77 := by decide +kernel

/-- A gang register in use, a live context, validation mode, a fenced MXE. -/
def mxeBusy : State := hostOn.modMxe 1 2 fun x => { x with feeder := [feedOp] }
def liveCtx : State := (hostOn.setCtx 1 2 ctxReady).setWord (.tctxCode 1 2) (F.tctxCodeLen.put (F.tctxCodeBase.put 0 0) 4)
def valMode : State := hostOn.setFld (.cmcStatus 1) F.cmcStatusVmode 1
def fencedHost : State := hostOn.setFld (.tstFence 1) F.tstFenceMxe 1
theorem coreWrites_settled : mxeBusy.Settled 1 ∧ liveCtx.Settled 1 ∧ valMode.Settled 1 ∧ fencedHost.Settled 1 := by
  unfold State.Settled
  decide +kernel
theorem witness_CoreAndTestRegisterWrites :
    F.mxeCfgGang.of (F.mxeCfgGang.put 0 3) = 3 ∧ F.mxeCfgGang.of 0 = 0 ∧ hostOn.mxesIdle 1 = true ∧ mxeBusy.mxesIdle 1 = false ∧
    hostOn.fenced 1 0 = false ∧ fencedHost.fenced 1 0 = true ∧
    liveCtx.ctxLive 1 2 = true ∧ liveCtx.inCode 1 2 3 = true ∧ liveCtx.inCode 1 2 4 = false ∧
    (∀ d : CtxId, hostOn.ctxLive 1 d = true → hostOn.inCode 1 d 3 = false) ∧ hostOn.ctxLive 1 2 = false ∧
    hostOn.vmode 1 = false ∧ valMode.vmode 1 = true ∧ (14352 : BitVec 16).toNat + (0 : BitVec 16).toNat ≤ 14352 ∧
    14352 < (14352 : BitVec 16).toNat + (1 : BitVec 16).toNat ∧
    F.tctxCodeBase.of 0 + F.tctxCodeLen.of (F.tctxCodeLen.put 0 2048) ≤ 2048 ∧
    F.clkCorePsHost.of (F.clkCorePsHost.put 0 4) ≤ 4 ∧ 4 < F.clkCorePsHost.of (F.clkCorePsHost.put 0 5) ∧
    bitAt (1 : Word).toNat 0 = true ∧ F.tstCoreCtlCore.of (1 : Word).toNat = 0 ∧ outCore.coreOut 0 = true ∧ hostOn.coreOut 0 = false ∧
    hostOn.fld (.coreMap 0) F.coreMapState ≠ 1 ∧ 0 ∉ hostOn.chip.tests := by decide +kernel

/-- Queue pair 3: configured, enabled, with two slots rung (an EVENT_SIGNAL and an unknown opcode); a command held and
entries to post; draining; halted; a CQ that is full. DMA channel 2: off and on, with three descriptors rung. -/
def qpSet : State := ((hostOn.setWord (.hifQCfg 3) (F.hifQCfgSqSize.put (F.hifQCfgCqSize.put (F.hifQCfgVec.put 0 5) 4) 16)).setFld
  (.hifSqBase 3) F.hifSqBaseAddr 16).setFld (.hifCqBase 3) F.hifCqBaseAddr 32
def qpOn : State := nx (execHifQEnable 3 qpSet)
def qpRung (op : Nat) : State := nx (execSqDoorbell 3 2 { qpOn with host := memWrite qpOn.host 0x10000 (natLe 8 (op * 2 ^ 56 + 7)) })
def entry3 (intr : Bool) : CqEntry := ⟨7, 0, 0, 3, 0, intr, false⟩
def posting (intr : Bool) (n us : Nat) : State := ((qpOn.setFld (.hifQCfg 3) F.hifQCfgCoalN n).setFld (.hifQCfg 3) F.hifQCfgCoalUs
  us).modQp 3 fun x => { x with out := [entry3 intr] }
def qpIn (st : Nat) (s : State) : State := s.setFld (.hifQStat 3) F.hifQStatState st
def cqAt (t : Nat) (s : State) : State := s.setFld (.hifQStat 3) F.hifQStatCqTail t
def held3 : State := (qpRung 1).modQp 3 fun x => { x with cmds := [{ id := 0, ws := [] }, { id := 1, ws := [], started := true }] }

/-- DMA descriptors: 128 bytes to CM of core 1, from there to the host, of no length, and of a bad format. -/
def dmaDesc (h da len ctl : Nat) : List Byte := natLe 8 h ++ natLe 8 da ++ natLe 4 len ++ natLe 2 9 ++ natLe 1 ctl ++ List.replicate 9 0
def dmaSet : State := ((qpOn.setFld (.dmaCfg 2) F.dmaCfgQp 3).setFld (.dmaBase 2) F.dmaBaseAddr 48)
def dmaWord (size en : Nat) : Word := BitVec.ofNat 64 (F.dmaCfgSize.put (F.dmaCfgQp.put en 3) size)
def dmaOn (d : List Byte) : State :=
  let s := nx (execDmaEnable 2 (dmaWord 8 1) dmaSet)
  nx (execDmaDoorbell 2 1 { s with host := memWrite s.host (48 * 4096) d })

theorem witness_QueuePairControl :
    qpOn.dead = false ∧ z.hifServed = false ∧ qpOn.hifServed = true ∧
    ((wake qpOn).qState 3 ≠ 0 ∧ (hangSweep (wake qpOn)).qState 3 ≠ 0) ∧ (hangSweep (wake hostOn)).qState 3 = 0 ∧
    (3 : W32).toNat < (hangSweep (wake qpOn)).fld (.hifQCfg 3) F.hifQCfgSqSize ∧ qpOn.fld (.hifQCfg 3) F.hifQCfgSqSize ≤ (16 : W32).toNat ∧
    (1 : W32).toNat < (wake (cqAt 2 qpOn)).fld (.hifQCfg 3) F.hifQCfgCqSize ∧
    (1 + 4 - ((wake (cqAt 2 qpOn)).qp 3).cqHead) % 4 ≤ ((wake (cqAt 2 qpOn)).fld (.hifQStat 3) F.hifQStatCqTail + 4 - 0) % 4 ∧
    (2 + 4 - 0) % 4 < (3 + 4 - 0) % 4 ∧ (wake dmaSet).fld (.dmaStat 2) F.dmaStatState = 0 ∧
    (wake (dmaOn (dmaDesc 0 0 0 0))).fld (.dmaStat 2) F.dmaStatState ≠ 0 ∧
    (1 : W32).toNat < (wake (dmaOn (dmaDesc 0 0 0 0))).fld (.dmaCfg 2) F.dmaCfgSize ∧
    qpOn.bit (.hifQCtl 3) F.hifQCtlEn = true ∧ qpSet.bit (.hifQCtl 3) F.hifQCtlEn = false ∧ qpSet.ready = true ∧ qpSet.qState 3 = 0 ∧
    2 ≤ qpSet.fld (.hifQCfg 3) F.hifQCfgSqSize ∧ qpSet.fld (.hifQCfg 3) F.hifQCfgSqSize ≤ 65536 ∧
    2 ≤ qpSet.fld (.hifQCfg 3) F.hifQCfgCqSize ∧ qpSet.fld (.hifQCfg 3) F.hifQCfgCqSize ≤ 65536 ∧
    qpSet.fld (.hifQCfg 3) F.hifQCfgVec ≤ 191 ∧ ¬ 2 ≤ hostOn.fld (.hifQCfg 3) F.hifQCfgSqSize ∧
    (qpIn 3 qpOn).qState 3 = 3 ∧ ((qpIn 3 qpOn).qp 3).cmds = [] ∧ ((qpIn 3 qpOn).qp 3).out = [] ∧ (held3.qp 3).cmds ≠ [] ∧
    (hangSweep (qpIn 2 (qpRung 1))).qState 3 = 2 := by decide +kernel
theorem witness_QueueFetchAndPost :
    (qpRung 1).dead = false ∧ (qpOn.fetchTurn ≠ some (3 : QpId).val) ∧ (qpRung 1).fld .hifIdle F.hifIdleState = 0 ∧
    (qpRung 1).fetchTurn = some (3 : QpId).val ∧ (qpRung 1).ready = true ∧
    knownOp { id := 0, ws := (qpRung 1).slotWords 3 0 } = true ∧ (qpRung 0xff).fetchTurn = some (3 : QpId).val ∧
    knownOp { id := 0, ws := (qpRung 0xff).slotWords 3 0 } = false ∧ ((qpRung 1).qp 3).cmds = [] ∧
    (qpOn.qp 3).out = [] ∧ (∀ b, ((posting b 2 5).qp 3).out = entry3 b :: [] ∧ (posting b 2 5).cqFull 3 = false) ∧
    (posting true 2 5).hif.d3 = false ∧ (posting true 2 5).qState 3 ≠ 0 ∧ (cqAt 3 (posting true 0 0)).cqFull 3 = true ∧
    ¬ ((posting false 2 5).fld (.hifQCfg 3) F.hifQCfgCoalN ≤ ((posting false 2 5).qp 3).since + 1) ∧
    (posting false 1 5).fld (.hifQCfg 3) F.hifQCfgCoalN ≠ 0 ∧
    (posting false 1 5).fld (.hifQCfg 3) F.hifQCfgCoalN ≤ ((posting false 1 5).qp 3).since + 1 ∧
    ((nx (execCqEntryPost 3 (posting false 2 5))).qp 3).firstAt = some 0 ∧
    (nx (execCqEntryPost 3 (posting false 2 5))).fld (.hifQCfg 3) F.hifQCfgCoalUs ≠ 0 ∧ (qpOn.qp 3).firstAt = none ∧
    (let s := (cqAt 3 (posting true 0 0)).modQp 3 fun x => { x with cqHead := 1 };
      s.cqFull 3 = false ∧ s.fld (.hifQCfg 3) F.hifQCfgCqSize ≤ s.fld (.hifQStat 3) F.hifQStatCqTail + 1) := by decide +kernel
theorem witness_DmaApertureAndPowerState :
    let good := dmaDesc 0x1000 (coreBase 1 + 64) 128 0
    dmaSet.dead = false ∧ dmaSet.hifServed = true ∧ z.hifServed = false ∧
    dmaSet.fld (.dmaStat 2) F.dmaStatState = 0 ∧ (dmaWord 8 0).toNat.testBit 0 = false ∧ (dmaWord 8 1).toNat.testBit 0 = true ∧
    dmaSet.ready = true ∧ dmaSet.qState (F.dmaCfgQp.of (dmaWord 8 1).toNat) = 1 ∧ F.dmaCfgSize.of (dmaWord 8 1).toNat = 8 ∧
    ¬ 2 ≤ F.dmaCfgSize.of (dmaWord 1 1).toNat ∧ (dmaOn good).fld (.dmaStat 2) F.dmaStatState = 1 ∧
    (dmaOn good).fld .hifIdle F.hifIdleState = 0 ∧ (dmaOn good).hif.d3 = false ∧
    (dmaOn good).fld (.dmaStat 2) F.dmaStatHead ≠ tabGet 0 (dmaOn good).hif.dmaTail 2 ∧
    memRead (dmaOn good).host (48 * 4096) 32 = good ∧ dmaFault (dmaOn good) good = 0 ∧ bitAt (fieldAt good 22 1) 0 = false ∧
    0x020000000000 ≤ fieldAt good 8 8 ∧ dmaFault (dmaOn good) (dmaDesc 0x1000 0x40 100 0) ≠ 0 ∧
    dmaFault (dmaOn good) (dmaDesc 0 0 0 0) = 0 ∧ (dmaOn good).qState 3 ≠ 0 := by decide +kernel
/-- A descriptor from the device to the host; an engine buffer of a fenced MXE. -/
def dmaOut : List Byte := dmaDesc 0x1000 (coreBase 1 + 64) 128 1
theorem witness_DmaBothWays :
    dmaFault (dmaOn dmaOut) dmaOut = 0 ∧ bitAt (fieldAt dmaOut 22 1) 0 = true ∧
    (bgReach 14 (coreBase 1 + 64) 128 true (dmaOn dmaOut)).2 = false ∧
    memRead (dmaOn dmaOut).host (48 * 4096) 32 = dmaOut ∧ (dmaOn dmaOut).hif.d3 = false ∧
    (dmaOn dmaOut).fld (.dmaStat 2) F.dmaStatState = 1 ∧
    placeOf (coreBase 1 + 0x880000) = .engine (1 : CoreId) 0 0x80000 ∧ (wake fencedHost).fenced 1 0 = true ∧
    (0x80000 : Nat) + 64 ≤ viewEnd 0x80000 ∧ viewServes (wake hostOn) (coreBase 1) 64 = false ∧
    (bgReach 14 (coreBase 1) 64 true (wake hostOn)).2 = false ∧
    (hostOn.scope 0 = false) := by decide +kernel
/-- The aperture: onto CM, onto stack 0 with its directory region, onto registers; a device in recovery; D3hot. -/
def barAt (b : Nat) (s : State) : State := s.setFld .hifBar2Map F.hifBar2MapBase b
def recovering : State := hostOn.setFld .hifBoot F.hifBootState 3
def inD3 : State := { hostOn with hif := { hostOn.hif with d3 := true } }
theorem witness_bar2 :
    (barAt 0x20 hostOn).fld .hifBar2Map F.hifBar2MapBase * 2 ^ 36 = 0x020000000000 ∧ 2 ^ 36 < (2 ^ 36 - 32) + 64 ∧
    hostOn.bar2Open 0x020000000000 = true ∧ recovering.bar2Open 0 = false ∧ recovering.bar2Open 0x020000000000 = true ∧
    (wake hostOn).reach (coreBase 1) 64 = 0 ∧ (wake hostOn).reach 0x020200000000 64 = 2 ∧
    (wake hostOn).reach (0x010000000000 + hostOn.dirBase 0) 64 = 1 ∧
    (2 ^ 47 : Nat).testBit 47 = true ∧ recovering.recovery = true ∧ F.hifBar2MapBase.of (F.hifBar2MapBase.put 0 0x020) = 0x020 ∧
    (F.hifBar2MapBase.put 0 0x020).testBit 47 = false ∧ inD3.hif.d3 = true ∧ hostOn.hif.d3 = false := by decide +kernel

end Sys2Proof.Tests
end

