-- ==== Sys2Proof/Tests/WitnessDevice.lean ====
section
/-! SUPPORT. States that meet the hypotheses of the statements about firmware, management, debug, test port,
timers, queue commands and collectives, clause by clause. -/

namespace Sys2Proof.Tests

-- One theorem at a time: checked side by side they would each wait in a thread of their own.
set_option Elab.async false

open Machine

def chipWith (f : Chip → Chip) (s : State) : State := { s with chip := f s.chip }
/-- AUX rails off; held in reset with AUX on; an update under way; a trial; a token; errors in the ring. -/
def noAux : State := chipWith (fun c => { c with rails := [] }) z
def heldDie : State := chipWith (fun c => { c with held := true }) z
def updating : State := chipWith (fun c => { c with update := some ⟨[1], 3, 4, true⟩ }) hostOn
def trialRun : State := chipWith (fun c => { c with trial := true, running := 1, slotB := some ⟨[1], 3, 4, true⟩ }) hostOn
def imageAt : State := (hostOn.setFld .hifFwSrc F.hifFwSrcAddr (coreBase 1 / 64)).setFld .hifFwCtl F.hifFwCtlLen 64
def errored (k : Nat) : State := (List.range k).foldl (fun s i => s.raise { src := 5, code := 0x23, addr := i }) hostOn
def failed3 : State := hostOn.setFld .dbgStat F.dbgStatFails 3

/-- What an image needs besides the fuse, and a token besides its words, is authenticity, an open constant of the
configuration: where it grants it, the hypotheses hold. -/
theorem witness_goodImage (ws : List Word) (h : Config.authentic ws = true) : (readImage ws 0).good = true := by
  simp [readImage, h]
/-- The token of words for the device in hand: its challenge, its serial number, scopes 0 and 2, key 1. -/
def tokenFor : List Word := [0, 0, BitVec.ofNat 64 (Config.serial % 2 ^ 64), BitVec.ofNat 64 (5 + 2 ^ 32)] ++ List.replicate 16 0
theorem leNat_natLe : ∀ n v : Nat, leNat (natLe n v) = v % 256 ^ n
  | 0, v => by simp [leNat, natLe, Nat.mod_one]
  | n + 1, v => by
    rw [natLe, leNat, leNat_natLe n, Nat.pow_succ, Nat.mul_comm (256 ^ n), Nat.mod_mul]
    simp
/-- Where the configuration holds the token authentic, it passes. -/
theorem witness_goodToken (h : Config.authentic tokenFor = true) : tokenOk hostOn tokenFor = true := by
  have e : fieldAt (tokenBytes tokenFor) 16 8 = Config.serial % 2 ^ 64 := by
    have := leNat_natLe 8 (BitVec.ofNat 64 (Config.serial % 2 ^ 64)).toNat
    rw [BitVec.toNat_ofNat] at this
    exact this.trans (by omega)
  have f : fieldAt (tokenBytes tokenFor) 0 8 = hostOn.word (.dbgChal 0) ∧ fieldAt (tokenBytes tokenFor) 8 8 = hostOn.word (.dbgChal 1) ∧
    fieldAt (tokenBytes tokenFor) 24 4 = 5 ∧ fieldAt (tokenBytes tokenFor) 28 1 = 1 ∧ fieldAt (tokenBytes tokenFor) 29 35 = 0 := by
    decide +kernel
  simp [tokenOk, h, e, f]
theorem witness_FirmwareSidebandAndUnlock :
    hostOn.sideband (some hostOn.chip.sbAddr) = true ∧ hostOn.sideband (some 0x63) = false ∧ hostOn.chip.sbAddr < 128 ∧
    noAux.sideband none = false ∧ hostOn.sideband none = true ∧ heldDie.sideband none = false ∧
    heldDie.sideband (some heldDie.chip.sbAddr) = true ∧
    hostOn.dead = false ∧ hostOn.hifServed = true ∧ z.hifServed = false ∧ heldDie.dead = true ∧ heldDie.auxOn = true ∧ noAux.auxOn = false ∧
    hostOn.auxOn = true ∧ updating.chip.update.isSome = true ∧ hostOn.chip.update = none ∧
    hostOn.reach (hostOn.fld .hifFwSrc F.hifFwSrcAddr * 64) (hostOn.fld .hifFwCtl F.hifFwCtlLen) = 0 ∧
    imageAt.reach (imageAt.fld .hifFwSrc F.hifFwSrcAddr * 64) (imageAt.fld .hifFwCtl F.hifFwCtlLen) = 0 ∧
    (imageAt.setFld .hifFwSrc F.hifFwSrcAddr (0x020200000000 / 64)).reach 0x020200000000 64 ≠ 0 ∧
    trialRun.chip.trial = true ∧ hostOn.chip.trial = false ∧
    (599 : BitVec 16).toNat < 600 ∧ 600 ≤ (600 : BitVec 16).toNat ∧ (1800 : BitVec 16).toNat ≤ 1800 ∧ 1800 < (1801 : BitVec 16).toNat ∧
    (hostOn.fld .blwCap F.blwCapCap ≤ (1800 : BitVec 16).toNat) ∧ (600 : BitVec 16).toNat < hostOn.fld .blwCap F.blwCapCap ∧
    ((wake (errored 3)).fld .errHead F.errHeadHead + 1024 - (wake (errored 3)).fld .errTail F.errTailTail) % 1024 = 3 ∧
    F.errTailTail.of (3 : Word).toNat = 3 ∧ F.errTailTail.of (4 : Word).toNat = 4 ∧
    (z.ready = false ∧ z.recovery = false) ∧ 3 ≤ failed3.fld .dbgStat F.dbgStatFails ∧ (hostOn.ready = true ∧
      hostOn.fld .dbgStat F.dbgStatFails < 3) ∧ tokenOk hostOn [1] = false ∧
    hostOn.fld .hifIdle F.hifIdleState ≠ 4 ∧ (hostOn.setFld .hifIdle F.hifIdleState 4).fld .hifIdle F.hifIdleState = 4 ∧
    (wake hostOn).fld .errMgmt F.errMgmtCursor = (wake hostOn).fld .errHead F.errHeadHead ∧
    (wake (errored 3)).fld .errMgmt F.errMgmtCursor ≠ (wake (errored 3)).fld .errHead F.errHeadHead := by decide +kernel

/-- Debug scopes open; a core under test; GPIO driven; the trace port on; timer 5 running. -/
def unlocked (k : Nat) (s : State) : State := s.setFld .dbgStat F.dbgStatScope k
def testing0 : State := hostOn.setFld (.coreMap 0) F.coreMapState 1
def driven : State := hostOn.setFld .chipGpio F.chipGpioOe 3
def tracing : State := hostOn.setFld .tstTraceCtl F.tstTraceCtlEn 1
def timing : State := (hostOn.setFld (.chipTimer 5) F.chipTimerPeriod 100).setFld (.chipTimer 5) F.chipTimerEn 1
theorem witness_TestPortAndDeviceRegisters :
    noAux.auxOn = false ∧ noAux.dead = false ∧ hostOn.auxOn = true ∧ hostOn.dead = false ∧ hostOn.scope 0 = false ∧
    (∀ i < 4, (unlocked 15 hostOn).scope i = true) ∧ hostOn.scope 2 = false ∧ hostOn.scope 3 = false ∧
    placeOf 0x020200000000 = .csr ∧ placeOf (coreBase 1 + 8) = .cm 1 8 ∧ (coreBase 1 + 8) % 8 = 0 ∧ (coreBase 1 + 4) % 8 ≠ 0 ∧
    z.hifServed = false ∧ testing0.fld (.coreMap 0) F.coreMapState = 1 ∧ (0 : Word).toNat.testBit 32 = false ∧
    (∀ n < 32, hostOn.fld (.coreMap n) F.coreMapState ≠ 1) ∧ tracing.bit .tstTraceCtl F.tstTraceCtlEn = true ∧
    F.chipGpioOe.of (F.chipGpioOe.put 0 1) = 1 ∧ F.chipGpioOe.of 0 = 0 ∧
    (wake driven).fld .chipGpio F.chipGpioOe ≠ 0 ∧ (wake hostOn).scope 1 = false ∧
    (wake (unlocked 15 hostOn)).fld .chipGpio F.chipGpioOe = 0 ∧ (wake (unlocked 15 hostOn)).scope 1 = true ∧
    4 ≤ (5 : Fin 8).val ∧ timing.fld (.chipTimer 5) F.chipTimerPeriod ≠ 0 ∧ timing.bit (.chipTimer 5) F.chipTimerEn = true ∧
    ¬ (hostOn.fld (.chipTimer 5) F.chipTimerPeriod ≠ 0) := by decide +kernel

/-! Commands of submission queues: in queue 3 of a READY device. -/

def wcs (op : Nat) (ws : List Nat) (fl : Nat := 0) : WcsCmd :=
  { id := 4, ws := BitVec.ofNat 64 (op * 2 ^ 56 + 7 * 2 ^ 32 + fl) :: ws.map (BitVec.ofNat 64) ++ List.replicate (7 - ws.length) 0 }
def queued (cs : List WcsCmd) : State := qpOn.modQp 3 fun x => { x with cmds := cs }
/-- A tile that a PIN moves, its copy ended. -/
def pinned17 : PinCopy := ⟨3, 4, 17, 0x010004000000, 0x010004001000, 0⟩
def pinned : State := { queued [wcs 0 []] with hif := { (queued [wcs 0 []]).hif with pins := [pinned17] } }
def waitC (t us : Nat) : WcsCmd := { wcs 0x1a [5, t, us] with started := true }
def before : WcsCmd := { wcs 0 [] with id := 1, started := true }
theorem witness_WcsCommandsThatOrderOthers :
    (∀ o ∈ [0x00, 0x18, 0x19, 0x1a, 0x1b, 0x12], (queued [wcs o []]).nextCmd 3 = some (wcs o []) ∧ (wcs o []).op = o) ∧
    (queued [wcs 0 []]).dead = false ∧ ((queued [wcs 0 []]).qp 3).cmds = [wcs 0 []] ∧ (wcs 0 []).done = false ∧ (wcs 0 []).stepEnd = false ∧
    (queued []).hif.d3 = false ∧ (wcs 0 [] (2 ^ 31)).cevEn = true ∧ (wcs 0 []).cevEn = false ∧ (queued []).nextCmd 3 = none ∧
    (queued [wcs 0x18 []]).allBefore 3 4 = true ∧ (queued [before, wcs 0x18 []]).allBefore 3 4 = false ∧
    (∀ f ∈ (commonFields (wcs 0 [])).1 ++ emptyFrom 1 ++ (commonFields (wcs 0 [])).2, bitsOf ((wcs 0 []).w f.1) f.2.1 f.2.2 = 0) ∧
    (wcs 0 []).trace = false ∧ bitsOf ((wcs 0 [1]).w 1) 63 0 ≠ 0 ∧
    bitAt ((wcs 0x12 [0, 2, 1]).w 3) 0 = true ∧ bitAt ((wcs 0x12 [0, 2, 0]).w 3) 0 = false ∧ 0 + 2 ≤ 2 ^ 24 ∧
    ¬ (bitsOf ((wcs 0x12 [2 ^ 24 - 1, 2, 1]).w 1) 23 0 + bitsOf ((wcs 0x12 [2 ^ 24 - 1, 2, 1]).w 2) 24 0 ≤ 2 ^ 24) ∧
    (((checkPins [0]).run).run (queued [])).1.toOption = none ∧ (((checkPins []).run).run (queued [])).1.toOption = some () ∧
    ((([] : List Nat).mapM (pinOne 3 4)).run.run (queued [])).1.toOption = some [] ∧
    ((([17] : List Nat).mapM (pinOne 3 4)).run.run (queued [])).1.toOption = none ∧ pinned.hif.pins = [pinned17] ∧
    (pinned.gh (pinned17.h % 8)).copying pinned17.da = false ∧ (queued []).hif.pins = [] ∧
    (queued []).waiting? 3 = none ∧ (queued [waitC 0 0]).waiting? 3 = some (waitC 0 0) ∧ (waitC 0 0).w 2 ≤ (queued []).cevent 5 ∧
    (queued [waitC 5 9]).waiting? 3 = some (waitC 5 9) ∧ (queued []).cevent 5 < (waitC 5 9).w 2 ∧ (waitC 5 9).w 3 % 2 ^ 32 ≠ 0 ∧
    (queued [waitC 0 0]).d3Full = false ∧ (queued []).qState 3 = 1 := by decide +kernel

/-- A COPY of raw tensors in the Orangery, one of no rows, one that names a bad descriptor; its job, with a unit to claim,
to run again, claimed, dropped; the same with its core's arrays fenced. -/
def tensor (rows da : Nat) (et : Nat := 4) : List Byte := natLe 4 0 ++ natLe 1 et ++ natLe 1 0 ++ natLe 2 0x4000 ++ natLe 4 rows ++ natLe 4 2 ++ natLe 4 1 ++
  List.replicate 12 0 ++ natLe 8 da ++ List.replicate 24 0
def copies (rows : Nat) : State := ((queued [wcs 0x11 [orgBase, orgBase + 64]]).wr orgBase (tensor rows (orgBase + 0x100000))).wr
  (orgBase + 64) (tensor rows (orgBase + 0x140000))
def job0 : State := nx (execWcsCopy 3 7 (copies 2))
def jobWith (f : Job → Job) : State := { job0 with hif := { job0.hif with jobs := job0.hif.jobs.map fun (j : Nat × Job) => (j.1, f j.2) } }
def claimed : State := nx (execTileUnitClaim 0 0 job0)
/-- The same with a BF16 DENSE tile of two rows and columns at the source, so that the unit runs; with its job gone. -/
def sourced : State := claimed.wr (orgBase + 0x100000) (3 :: List.replicate 15 0 ++ 3 :: List.replicate 15 0 ++
  [64, 0, 1, 0, 2, 2, 2, 0, 0, 0, 1, 0, 1, 2] ++ List.replicate 18 0 ++ [128, 63])
def jobless : State := { claimed with hif := { claimed.hif with jobs := [] } }
def fencedAll (s : State) : State := s.setFld (.tstFence 0) F.tstFenceMxe 15
theorem witness_TensorCommandsAreDistributed :
    (∀ op ∈ [0x01, 0x02, 0x03, 0x04, 0x05, 0x06, 0x07, 0x08, 0x11], (queued [wcs op []]).nextCmd 3 = some (wcs op [])) ∧
    (queued []).nextCmd 3 = none ∧ job0.dead = false ∧ job0.tsBusy 7 = true ∧ (copies 2).tsBusy 7 = false ∧
    (let s := copies 2; ∃ c, s.nextCmd 3 = some c ∧ (((jobDecode 3 7 c).run).run s).1.toOption.any (fun j => j.units != 0)) ∧
    (let s := copies 0; ∃ c, s.nextCmd 3 = some c ∧ (((jobDecode 3 7 c).run).run s).1.toOption.any (fun j => j.units == 0)) ∧
    (let s := queued [wcs 0x11 [5, 64]]; ∃ c, s.nextCmd 3 = some c ∧ (((jobDecode 3 7 c).run).run s).1.toOption = none) := by
  refine ⟨by decide +kernel, by decide +kernel, by decide +kernel, by decide +kernel, by decide +kernel, ⟨_, rfl, ?_⟩, ⟨_, rfl, ?_⟩, ⟨_, rfl, ?_⟩⟩ <;>
    decide +kernel
/-- A GEMM's unit, which works on the arrays. -/
def gemming : State := nx (execTileUnitClaim 0 0 (nx (execGemm 3 7 (((queued [wcs 1 [orgBase, orgBase, orgBase + 64, 2 ^ 51]]).wr orgBase
  (tensor 2 (orgBase + 0x100000))).wr (orgBase + 64) (tensor 2 (orgBase + 0x140000) 5)))))
theorem witness_unitsOfATensorCommand :
    (tabFind job0.hif.jobs 0).isSome ∧ tabFind job0.hif.jobs 1 = none ∧ job0.fld (.coreMap 0) F.coreMapState = 0 ∧
    outCore.fld (.coreMap 0) F.coreMapState ≠ 0 ∧
    ((tabFind (jobWith fun j => { j with retry := [0] }).hif.jobs 0).any fun j => j.retry == [0]) ∧
    ((tabFind job0.hif.jobs 0).any fun j => j.retry == [] && !j.spent.contains 0) ∧
    ((tabFind (jobWith fun j => { j with spent := [0] }).hif.jobs 0).any fun j => j.retry == [] && j.spent.contains 0) ∧
    (turn 7 1 job0).2 ≠ exhausted ∧ (turn 7 1 (turn 7 1 job0).1).2 = exhausted ∧
    job0.pick 0 = none ∧ (claimed.pick 0).any (fun x => (tabFind claimed.hif.jobs x.job).isSome) ∧
    ((fencedAll gemming).pick 0).any (fencedAll gemming).onArrays ∧ (∀ m < 4, (fencedAll gemming).fenced 0 m = true) ∧ claimed.fenced 0 0 = false := by decide +kernel

theorem witness_unitsRunOrFail :
    (sourced.pick 0).any (fun x => (tabFind sourced.hif.jobs x.job).any fun j =>
      (((unitRun 0 none j x.unit).run).run (dropTask 0 x sourced)).1.toOption.isSome) = true ∧
    (claimed.pick 0).any (fun x => (tabFind claimed.hif.jobs x.job).any fun j =>
      (((unitRun 0 none j x.unit).run).run (dropTask 0 x claimed)).1.toOption.isNone) = true ∧
    (jobless.pick 0).any (fun x => (tabFind jobless.hif.jobs x.job).isNone) = true ∧ jobless.dead = false := by decide +kernel

/-- Kernels: a launch on cores 1 and 2 of four bundles, one of none, one whose grant names no context; one running. -/
def grantOf (ctxs : Nat) : List Byte := natLe 4 16 ++ natLe 4 4 ++ List.replicate 18 0 ++ natLe 2 1 ++ natLe 1 ctxs ++ List.replicate 35 0
def launching (len timeout ctxs : Nat) : State := (queued [wcs 0x13 [6, orgBase + 0x1000, len, orgBase + 0x2000, timeout * 65536,
  orgBase + 0x3000]]).wr (orgBase + 0x2000) (grantOf ctxs)
def kernelRuns (timeout : Nat) : State := nx (execLaunchKernel 3 0 (launching 4 timeout 3))
/-- Handle 0 valid and poisoned; the layer table's entry 3 with a full window; placement off. -/
def poisonedTile : State := hostOn.dirWrite 0 ⟨2 ^ 55 + 2 ^ 54, 0, 0, 0⟩
def layerOn (mode tau : Nat) : State := (hostOn.wr (layerDa 0 3) ([0, 3 + 4 * mode + tau * 2 ^ 32, 0, 1, 0, 0, 0, 0].flatMap (natLe 8))).wr
  (counterDa 0 3) (List.replicate 48 1)
def unplaced : State := hostOn.setFld .placeCtl F.placeCtlEn 0
theorem witness_KernelsPlacementAndRecomputation :
    (kernelSweep (queued [])).nextCmd 3 = none ∧ ((kernelSweep (launching 4 0 3)).nextCmd 3).any (fun c => c.op == 0x13) ∧
    ((((launch 3 0 (wcs 0x13 [6, orgBase + 0x1000, 4, orgBase + 0x2000, 0, orgBase + 0x3000])).run).run (launching 4 0 3)).1.toOption = some ()) ∧
    ((((launch 3 0 (wcs 0x13 [6, orgBase + 0x1000, 0, orgBase + 0x2000, 0, orgBase + 0x3000])).run).run (launching 0 0 3)).1.toOption = some ()) ∧
    ((((launch 3 0 (wcs 0x13 [6, orgBase + 0x1000, 4, orgBase + 0x2000, 0, orgBase + 0x3000])).run).run (launching 4 0 0)).1.toOption = none) ∧
    (kernelRuns 0).dead = false ∧ coresOf 6 = [1, 2] ∧ codeFree (launching 4 0 3) [1, 2] 0 4 = true ∧ codeFree (kernelRuns 0) [2] 3 4 = false ∧
    ((kernelSweep (kernelRuns 0)).hif.kernels[0]?).any (fun x => x.timeout == 0) ∧
    ((kernelSweep (kernelRuns 9)).hif.kernels[0]?).any (fun x => x.timeout == 9) ∧ (kernelSweep (kernelRuns 9)).hif.kernels[1]? = none ∧
    (hostOn.dirEnt 0).valid = false ∧ (poisonedTile.dirEnt 0).valid = true ∧ (poisonedTile.dirEnt 0).poison = true ∧
    poisonedTile.hif.recomp = [] ∧
    (∀ e ∈ [(2, 2 ^ 15), (1, 0x3F800000)], let s := layerOn e.1 e.2; let bs := s.rdRange (layerDa 0 3) 64
      s.fld (.picCtl s.picCore) F.picCtlLtBase = 0 ∧ layerFld bs 1 0 0 ≠ 0 ∧ layerFld bs 1 1 1 ≠ 0 ∧ layerFld bs 3 15 0 = 1 ∧
      1 ≤ (countersAt s (counterDa 0 3)).audited - (tabGet {} s.hif.adapted 3).audited ∧ layerFld bs 1 3 2 = e.1) ∧
    hostOn.bit .placeCtl F.placeCtlEn = true ∧ hostOn.ready = true ∧ unplaced.bit .placeCtl F.placeCtlEn = false := by decide +kernel

/-! Collectives: group 8 has devices 0 (this one) and 5; tables in the Orangery. -/

def coll (op group src dst aux : Nat) (w4 : Nat := 0) (w6 : Nat := 0) : WcsCmd :=
  wcs 0x10 [src, dst, 4 + op * 2 ^ 32 + 6 * 2 ^ 40 + 6 * 2 ^ 44 + group * 2 ^ 48, w4, aux, w6]
def started (c : WcsCmd) : WcsCmd := { c with started := true }
def grouped (cs : List WcsCmd) : State := ((((queued cs).modNet fun n => { n with groups := [(8, [0, 5])] }).wr (coreBase 1 + 0x1000)
  ([1, 2, 3, 4].flatMap (natLe 4))).wr (orgBase + 0x40) (natLe 8 (orgBase + 0x200))).wr (orgBase + 0x200) (natLe 2 1 ++ natLe 2 0 ++ natLe 4 0)
def dataColl (op : Nat) (w4 : Nat := 0) (w6 : Nat := 0) : WcsCmd :=
  coll op 8 (coreBase 1 + 0x1000) (coreBase 2 + 0x2000) (if op = 3 ∨ op = 4 then orgBase + 0x40 else 0) w4 w6
def other (v : Nat) : Contribution := ⟨1, 0, 1, v, 4, [10, 20, 30, 40].flatMap (natLe 4), [false], []⟩
def stepEndC : WcsCmd := { wcs 0 [] (2 ^ 55) with started := true, fin := some ⟨0, 0, 5⟩ }
def boundary (rs : List WcsCmd) (slots : List Nat) : State := (grouped [stepEndC]).modQp 3 fun x =>
  { x with reshards := rs.map WcsCmd.ws, slots := slots }
theorem witness_CollectivesMoveData :
    (∀ op ∈ [0, 1, 2, 3, 4], (collOf (dataColl op)).op = op ∧
      let s := grouped [started (dataColl op)]
      (collSweep s).collWaiting 3 = some (started (dataColl op)) ∧
      (collSweep s).joined (collOf (dataColl op)) [other 0] = true ∧ (collSweep s).joined (collOf (dataColl op)) [] = false ∧
      (((allSent (collOf (dataColl op)) [other 0]).run).run s).1.toOption.any (fun xs => (staleOf (collOf (dataColl op)) xs).isNone) = true ∧
      let n := grouped [dataColl op]
      (collSweep n).collWaiting 3 = none ∧ (collSweep n).nextCmd 3 = some (dataColl op) ∧
      (((collDecode 3 (dataColl op)).run).run n).1.toOption = some ()) ∧
    (((allSent (collOf (dataColl 0 (2 ^ 32 + 3))) [other 9]).run).run (grouped [])).1.toOption.any
      (fun xs => (staleOf (collOf (dataColl 0 (2 ^ 32 + 3))) xs).isSome) = true ∧
    (((collDecode 3 (coll 0 9 0x40 0x80 0)).run).run (grouped [])).1.toOption = none ∧ (dataColl 0).op = 0x10 ∧ (grouped []).d3Full = false ∧
    (collOf (dataColl 0)).dst % 64 = 0 ∧ 0x020000000000 ≤ (collOf (dataColl 0)).dst ∧
    (boundary [] []).atBoundary 3 = some stepEndC ∧ (grouped [wcs 0 []]).atBoundary 3 = none ∧
    ((boundary [dataColl 4] [5, 9]).qp 3).reshards = (dataColl 4).ws :: [] ∧
    ((List.range 2).find? fun i => (boundary [dataColl 4] []).entry (collOf (dataColl 4)) 2 i == (boundary [dataColl 4] []).rankIn 8) = some 1 ∧
    (other 0).rank = 1 ∧ staleOf (collOf (dataColl 4 (2 ^ 32 + 3))) [sentOf (other 9)] ≠ none ∧ staleOf (collOf (dataColl 4)) [sentOf (other 9)] = none ∧
    (∀ op ∈ [6, 15], (grouped [coll op 9 (if op = 6 then 5 else 0) (if op = 6 then 7 else 0) 0]).nextCmd 3 ≠ none) ∧
    (((collDecode 3 (coll 6 0 5 7 0)).run).run (grouped [])).1.toOption = some () := by decide +kernel
theorem witness_BarriersBoundariesAndTimeouts :
    (grouped []).net.aborts = [] ∧ abortHits (grouped []) 8 ⟨some 8, 5, 0x2a⟩ = true ∧ abortHits (grouped []) 8 ⟨some 9, 5, 0x2a⟩ = false ∧
    (grouped [started (dataColl 0)]).collWaiting 3 = some (started (dataColl 0)) ∧
    (∀ p : QpId, p ≠ 3 → (grouped [started (dataColl 0)]).collWaiting p = none) ∧
    (collOf (coll 5 8 0 0 0)).op = 5 ∧ (grouped []).barOpen 8 = false ∧
    (((grouped []).modNet fun n => { n with barriers := [⟨8, 0, 5, true⟩, ⟨8, 0, 5, false⟩] }).barOpen 8 = true) ∧ (grouped []).d3Full = false ∧
    (((collDecode 3 (coll 5 8 0 0 0)).run).run (grouped [])).1.toOption = some () ∧
    (((collDecode 3 (coll 5 9 0 0 0)).run).run (grouped [])).1.toOption = none ∧
    stepEndC.fin = some ⟨0, 0, 5⟩ ∧ ((boundary [] []).qp 3).slots = [] ∧ ((stepCommits 3 (boundary [] [5])).qp 3).reshards = [] ∧
    ((stepCommits 3 (boundary [dataColl 4] [5])).qp 3).reshards ≠ [] ∧
    (collSweep (grouped [])).collNow 3 = none ∧ (collSweep (grouped [started (dataColl 0 0 7)])).collNow 3 = some (collOf (dataColl 0 0 7)) ∧
    (collOf (dataColl 0 0 7)).wait ≠ 0 ∧ (collOf (dataColl 0)).wait = 0 ∧ (collOf (coll 6 0 5 7 0)).op = 6 ∧
    (collSweep (boundary [dataColl 4] [])).collWaiting 3 = none ∧ (collSweep (boundary [dataColl 4] [])).collNow 3 = some (collOf (dataColl 4)) := by
  decide +kernel

/-- Micro-batches of queue 3: one with gradients to come, one issued; a re-partition that waits. -/
def batches (issued : Bool) : State := (grouped [dataColl 1]).modNet fun n => { n with micro := [{ q := 3, issued := issued }] }
def dividing : State := (boundary [] []).modNet fun n => { n with place := { n.place with next := some { stages := [7] } } }
theorem witness_MicroBatchesAndPlacement :
    microBusy (collSweep (batches false)) 3 = true ∧ (collSweep (batches false)).collWaiting 3 = none ∧ microBusy (batches true) 3 = false ∧
    ((batches true).net.micro.any fun m => m.q == (3 : QpId).val) = true ∧ ((batches true).net.micro.all fun m => m.issued) = true ∧
    dividing.net.place.next = some { stages := [7] } ∧ dividing.atBoundary 3 = some stepEndC := by decide +kernel

end Sys2Proof.Tests
end

