-- ==== Sys2Proof/Tests/WitnessDir.lean ====
section
/-! SUPPORT. States that meet the hypotheses of the statements about the tile directory, the heaps and the
Glasshouses, clause by clause. -/

namespace Sys2Proof.Tests

-- One theorem at a time: checked side by side they would each wait in a thread of their own.
set_option Elab.async false

open Machine

/-! Handle 17: index 2 of stack 1. -/

/-- The directory of stack 1 on, its heap from 64 MiB to 128 MiB. -/
def dirOn : State := ((z.setFld (.ghDirCtl 1) F.ghDirCtlEn 1).setFld (.ghHeapBase 1) F.ghHeapBaseOffset 1).setFld (.ghHeapLim 1)
  F.ghHeapLimOffset 2
/-- Where the tile lies: 64 MiB into stack 1. -/
def tileDa : Nat := stackBase 1 + 0x4000000
/-- A valid entry of one unit there, as it is cached. -/
def goodEnt : DirEnt := ⟨2 ^ 55 + tileDa / 64, 2 ^ 48, 0, 5⟩
/-- The directory with an entry of handle 17 in its cache, the tile's header agreeing with it. -/
def cached (e : DirEnt) : State := (dirOn.wr (tileDa + 40) [0, 0, 0, 0, 1]).modGh 1 fun g => { g with cache := [(2, e)] }
/-- The same entry stored in the directory with its CRC, not cached. -/
def stored : State :=
  let e := natLe 8 goodEnt.w0 ++ natLe 8 goodEnt.w1 ++ natLe 8 goodEnt.w2
  (dirOn.wr (tileDa + 40) [0, 0, 0, 0, 1]).wr (dirOn.dirAddr 17) (e ++ natLe 4 (crc32 e))

def dirOn0 : State := z.setFld (.ghDirCtl 0) F.ghDirCtlEn 1

theorem witness_HandleResolutionOutcomes :
    z.dead = false ∧ z.bit (.ghDirCtl 1) F.ghDirCtlEn = false ∧
    dirOn0.bit (.ghDirCtl 0) F.ghDirCtlEn = true ∧ dirOn.bit (.ghDirCtl 1) F.ghDirCtlEn = true ∧
    (dirOn.gh 1).inval = none ∧
    tabFind ((cached ⟨0, 0, 0, 0⟩).gh 1).cache 2 = some ⟨0, 0, 0, 0⟩ ∧ (⟨0, 0, 0, 0⟩ : DirEnt).valid = false ∧
    ({ goodEnt with w0 := goodEnt.w0 + 7 * 2 ^ 60 } : DirEnt).valid = true ∧
    5 < ({ goodEnt with w0 := goodEnt.w0 + 7 * 2 ^ 60 } : DirEnt).fmt ∧
    entFault goodEnt = 0 ∧ entFault { goodEnt with w1 := 2 ^ 49 } = 0 ∧
    (cached goodEnt).dead = false ∧ (cached goodEnt).bit (.ghDirCtl 1) F.ghDirCtlEn = true ∧
    ((cached goodEnt).gh 1).inval = none := by decide +kernel
/-- An entry past the last location that is allowed, one with a spare bit set, one in a directory region. -/
def farEnt : DirEnt := { goodEnt with w0 := 2 ^ 55 + 0x020010000000 / 64 }
def spareEnt : DirEnt := { goodEnt with w0 := goodEnt.w0 + 2 ^ 40 }
def regionEnt : DirEnt := { goodEnt with w0 := 2 ^ 55 + dirOn.dirAddr 17 / 64 }
theorem witness_HandleResolution_entries :
    tabFind ((cached farEnt).gh 1).cache 2 = some farEnt ∧ farEnt.valid = true ∧ farEnt.fmt ≤ 5 ∧ farEnt.etype ≤ 6 ∧
    bitsOf farEnt.w0 50 40 = 0 ∧ farEnt.w1 % 2 ^ 36 = 0 ∧ farEnt.w2 % 2 ^ 16 = 0 ∧ 0x020010000000 ≤ farEnt.da ∧
    tabFind ((cached spareEnt).gh 1).cache 2 = some spareEnt ∧ spareEnt.valid = true ∧ bitsOf spareEnt.w0 50 40 ≠ 0 ∧
    tabFind ((cached regionEnt).gh 1).cache 2 = some regionEnt ∧ entFault regionEnt = 0 ∧
    (cached regionEnt).inDir regionEnt.da (regionEnt.len * 64) = true ∧
    tabFind ((cached goodEnt).gh 1).cache 2 = some goodEnt ∧
    (cached goodEnt).inDir goodEnt.da (goodEnt.len * 64) = false := by decide +kernel
/-- A header that agrees with its entry, one that does not; an entry read from its sector, sound and not. -/
theorem witness_HandleResolution_header :
    (hdrOf ((cached goodEnt).rd goodEnt.da 64)).format = goodEnt.fmt ∧
    (hdrOf ((cached goodEnt).rd goodEnt.da 64)).etype = goodEnt.etype ∧
    (hdrOf ((cached goodEnt).rd goodEnt.da 64)).len = goodEnt.len ∧
    (hdrOf ((cached goodEnt).rd goodEnt.da 64)).len ≠ ({ goodEnt with w1 := 2 ^ 49 } : DirEnt).len ∧
    placeOf goodEnt.da = .stack 1 0x4000000 ∧ ((cached goodEnt).gh 1).repair = none ∧
    tabGet 0 (cached goodEnt).chk (canon goodEnt.da / 64) = 0 ∧ tabGet 0 stored.chk (canon goodEnt.da / 64) = 0 ∧
    stored.dead = false ∧ stored.bit (.ghDirCtl 1) F.ghDirCtlEn = true ∧ (stored.gh 1).inval = none ∧
    (stored.gh 1).repair = none ∧ (stored.gh 1).cache = [] ∧ isStack (stored.dirAddr 17) = true ∧
    (stored.dirStored 17).1 = { goodEnt with access := 0 } ∧ stored.inDir goodEnt.da (goodEnt.len * 64) = false ∧
    hdrOf (stored.rd goodEnt.da 64) = hdrOf ((cached goodEnt).rd goodEnt.da 64) ∧
    (dirOn.gh 1).cache = [] ∧ tabGet 0 dirOn.chk (canon (dirOn.dirAddr 17) / 64) = 0 ∧ (dirOn.gh 1).repair = none ∧
    tabFind (stored.gh 1).cache 2 = none ∧ tabGet 0 stored.chk (canon (stored.dirAddr 17) / 64) = 0 ∧
    (stored.dirStored 17).2 = crc32 (stored.rd (stored.dirAddr 17) 24) ∧
    (dirOn.dirStored 17).2 ≠ crc32 (dirOn.rd (dirOn.dirAddr 17) 24) ∧
    entFault (stored.dirStored 17).1 = 0 := by decide +kernel

/-- An invalidation under way. -/
def invalidating : State := nx (execGhDirInval 1 (cached goodEnt))
theorem witness_DirectoryFlushInvalidateAndBounds :
    (cached goodEnt).dead = false ∧ tabFind ((cached goodEnt).gh 1).cache 2 = some goodEnt ∧
    ((cached goodEnt).gh 1).inval = none ∧ invalidating.dead = false ∧ (invalidating.gh 1).inval.isSome ∧
    Requester.isCc (.cc 2) = true ∧ Requester.isCc .host = false ∧
    z.bit (.ghDirCtl 1) F.ghDirCtlEn = false ∧ (cached goodEnt).bit (.ghDirCtl 1) F.ghDirCtlEn = true := by decide +kernel

/-- A switch of handle 17 that waits in queue 3, every field at its top. -/
def switch17 : TileSwitch := ⟨17, tileDa + 6400, 65535, 5, 6, 65535, 4095, true⟩
def switching : State := (cached goodEnt).modGh 1 fun g =>
  { g with queues := [(3, [{ ws := [], seq := 1, arr := 0, start := some 0, switches := [switch17] }])] }
/-- Stack 2 has a heap; a migration to it is under way. -/
def heap2 : State := ((cached goodEnt).setFld (.ghHeapBase 2) F.ghHeapBaseOffset 1).setFld (.ghHeapLim 2) F.ghHeapLimOffset 2
def migrating : State := (cached (goodEnt.set 51 true)).modGh 1 fun g => { g with migs := [(17, tileDa + 6400)] }
theorem witness_TileSwitchAndMigrationUpdateEntry :
    switching.dead = false ∧ tabFind (switching.gh 1).cache 2 = some goodEnt ∧
    ((switching.gh 1).queues.flatMap fun q => q.2.flatMap GhCmd.switches).find? (fun v => v.h == 17) = some switch17 ∧
    goodEnt.migrating = false ∧ switch17.fmt < 16 ∧ switch17.etype < 16 ∧ switch17.da % 64 = 0 ∧ switch17.da < 2 ^ 46 ∧
    switch17.len < 2 ^ 16 ∧ switch17.slot < 2 ^ 12 ∧ switch17.nnz < 2 ^ 16 ∧
    ((cached goodEnt).gh 1).queues = [] ∧ (cached (goodEnt.set 53 true)).movable 17 = false ∧
    heap2.movable 17 = true ∧ (heapAlloc 3 17 goodEnt.len heap2).1 = none ∧
    (heapAlloc 2 17 goodEnt.len heap2).1.isSome ∧ tabGet 0 heap2.chk (canon goodEnt.da / 64) = 0 ∧
    isStack goodEnt.da = true ∧ isStack (goodEnt.da + 64 * goodEnt.len) = true := by decide +kernel
/-- Queue 14 of the home Glasshouse full; the COPY of the migration still there. -/
def heap2Full : State := heap2.setGhQ 1 14 (List.replicate 256 { ws := [], seq := 1, arr := 0 })
def copying : State := migrating.setGhQ 1 14 [{ ws := [0x0A, 0, BitVec.ofNat 64 (tileDa + 6400), 1, 0, 0, 0, 0], seq := 1, arr := 0 }]
theorem witness_Migration_noted :
    ((heap2.gh 1).q 14).length < 256 ∧ 256 ≤ ((heap2Full.gh 1).q 14).length ∧ heap2Full.movable 17 = true ∧
    (heapAlloc 2 17 goodEnt.len heap2Full).1.isSome ∧ heap2.dead = false ∧
    tabFind (migrating.gh 1).migs 17 = some (tileDa + 6400) ∧ (migrating.gh 1).copying (tileDa + 6400) = false ∧
    tabFind (copying.gh 1).migs 17 = some (tileDa + 6400) ∧ (copying.gh 1).copying (tileDa + 6400) = true ∧
    copying.dead = false ∧
    (heap2.gh 1).migs = [] ∧ migrating.dead = false ∧
    (tabFind (migrating.gh 1).cache 2).any DirEnt.migrating ∧
    (tabFind (migrating.gh 1).migs 17).any (fun da => da % 64 == 0 && decide (da < 2 ^ 46)) := by decide +kernel

/-! Queue 12 of Glasshouse 1, the host's. -/

/-- A command with the words given, as it was pushed at time 0. -/
def ghCmd (ws : List Word) : GhCmd := { ws := ws, seq := 0, arr := 0 }
/-- The queue enabled, with these commands. -/
def ghWith (cs : List GhCmd) : State := (z.setFld (.ghCmdqCtl 1 12) F.ghCmdqCtlEn 1).modGh 1 fun g =>
  { g with queues := [(12, cs)], seq := 5 }
/-- Words of a command: opcode, element type, words 1 to 7. -/
def opWords (op et : Nat) (rest : List Nat) : List Word := BitVec.ofNat 64 (op + et * 256) :: rest.map (BitVec.ofNat 64)
def ghBase : Nat := stackBase 1 + 0x8000000
/-- One command of each opcode whose words are in order. -/
def goodWords : List (List Word) := [opWords 0 0 [0, 0, 0, 0, 0, 0, 0],
  opWords 1 0 [ghBase, ghBase + 0x1000, 2 + 2 ^ 32, ghBase + 0x2000, 0, 0, 0],
  opWords 2 0 [ghBase, ghBase + 0x1000, 2 + 2 ^ 32, ghBase + 0x2000, 0, 0, 0],
  opWords 3 0 [16 + 2 ^ 32, ghBase, 2, ghBase + 0x1000, ghBase + 0x2000, 0, 0],
  opWords 4 4 [ghBase, ghBase + 0x1000, ghBase + 0x3000 + 2 ^ 48, 0, 16 * 2 ^ 44, ghBase + 0x4000, 0],
  opWords 5 4 [ghBase, ghBase + 0x1000, 3, 0, 0, 0, 0], opWords 6 4 [ghBase, ghBase + 0x1000, 2 + 2 ^ 32, ghBase + 0x2000, 0, 0, 0],
  opWords 7 4 [0, 0, 0, 0, 0, 0, 0], opWords 8 4 [ghBase, 1, ghBase + 0x1000, ghBase + 0x4000, 4, 0, 0],
  opWords 10 0 [ghBase, ghBase + 0x1000, 3, 0, 0, 0, 0], opWords 11 0 [ghBase, 17, 0, 0, 0, 0, 0]]
def fenceWords : List Word := opWords 9 0 [0xFFFF, 0, 0, 0, 0, 0, 0]

/-- A waiting command whose entry fails its parity; a GATHER out of a directory region. -/
def ghStartBad : State := let s := ghWith [ghCmd fenceWords]; { s with parity := { s.parity with queues := [(1, 0)] } }
def regionWords : List Word := opWords 1 0 [dirOn.dirAddr 17, ghBase + 0x1000, 2 + 2 ^ 32, ghBase + 0x2000, 0, 0, 0]
def ghInRegion : State := (ghWith [ghCmd regionWords]).setFld (.ghDirCtl 1) F.ghDirCtlEn 1
theorem witness_GlasshouseCommandStartsAtItsTurn :
    (ghWith []).dead = false ∧ (∀ w ∈ fenceWords :: goodWords,
      ((ghWith [ghCmd w]).gh 1).q 12 = [ghCmd w] ∧ nextTurn (ghWith [ghCmd w]) 1 64 = some (12, 4) ∧
      ghDecode (ghWith [ghCmd w]) w = 0 ∧ ghInDir (ghWith [ghCmd w]) w = false) ∧
    ([fenceWords] ++ goodWords).map cOpcode = [9, 0, 1, 2, 3, 4, 5, 6, 7, 8, 10, 11] ∧
    ghDecode (ghWith []) (opWords 3 0 [0, 0, 0, 0, 0, 0, 0]) % 256 ≠ 0 ∧ 11 < cOpcode (opWords 12 0 []) ∧
    ghStartBad.parity.queues.contains ((1 : StackId).val, (ghCmd fenceWords).seq) = true ∧
    (ghWith []).parity.queues = [] ∧ nextTurn ghStartBad 1 64 = some (12, 4) ∧ ghStartBad.dead = false ∧
    ghDecode ghInRegion regionWords = 0 ∧ ghInDir ghInRegion regionWords = true ∧
    (ghInRegion.gh 1).q 12 = [ghCmd regionWords] ∧ nextTurn ghInRegion 1 64 = some (12, 4) ∧
    nextTurn ((ghWith [ghCmd fenceWords]).setFld (.ghCmdqCtl 1 12) F.ghCmdqCtlEn 0) 1 64 = none := by decide +kernel

/-- The queue full; a started FENCE at its head, alone and behind a command of queue 3; a head that is done. -/
def ghFull (q : Nat) : State := z.modGh 1 fun g => { g with queues := [(q, List.replicate 256 (ghCmd fenceWords))] }
def fence : GhCmd := { ghCmd fenceWords with start := some 0, seq := 3 }
def ghFenced : State := ghWith [fence, { ghCmd fenceWords with seq := 4 }]
def ghBlocked : State := ghFenced.setGhQ 1 3 [{ ghCmd fenceWords with seq := 2 }]
def ghDoneHead : State := ghWith [{ fence with done := some ⟨0, 0, 0, 700, false, false⟩ }, { ghCmd fenceWords with seq := 4 }]
/-- Three micro-batches, the second to issue next: its gathers done, and stale. -/
def microNet (m : Micro) : State := { z with net := { z.net with micro := [{ q := 0, issued := true }, m, { q := 2 }] } }
theorem witness_GlasshouseQueue_gradients :
    Requester.queue (.cc 2) = some (9 : QId).val ∧ (microNet { q := 1 }).dead = false ∧
    (microNet { q := 1 }).net.micro[1]? = some { q := 1 } ∧
    (microNet { q := 1 }).net.micro[0]?.any Micro.issued = true ∧
    microClear (microNet { q := 1 }) { q := 1 } = true ∧
    microClear (microNet { q := 1, stale := true }) { q := 1, stale := true } = false ∧
    (microNet { q := 1 }).net.micro.length = 3 ∧ (((microNet { q := 1 }).gh 1).q 9).length < 256 ∧
    z.net.micro.length ≤ (0 : Nat) := by decide +kernel
theorem witness_GlasshouseQueuePushResetAndCompletion :
    ghDoneHead.hif.pins = [] ∧ ghFenced.hif.pins = [] ∧
    Requester.queue .host = some (12 : QId).val ∧ ((z.gh 1).q 12).length < 256 ∧ fenceWords.length = 8 ∧
    Requester.queue (.core 3) = some (0 : QId).val ∧ Requester.queue (.gh 1) ≠ some (12 : QId).val ∧
    256 ≤ (((ghFull 12).gh 1).q 12).length ∧ 256 ≤ (((ghFull 0).gh 1).q 0).length ∧ (ghFull 0).dead = false ∧
    (ghFenced.gh 1).q 12 = [fence, { ghCmd fenceWords with seq := 4 }] ∧ fence.start.isSome = true ∧ fence.done = none ∧
    cOpcode fence.ws = 9 ∧ ghFenced.dead = false ∧
    (∃ p, p < 16 ∧ p ≠ 12 ∧ bitAt (cw fence.ws 1) p = true ∧ ∃ x ∈ (ghBlocked.gh 1).q p, x.seq < fence.seq) ∧
    ¬ (∃ p, p < 16 ∧ p ≠ 12 ∧ bitAt (cw fence.ws 1) p = true ∧ ∃ x ∈ (ghFenced.gh 1).q p, x.seq < fence.seq) ∧
    ((ghDoneHead.gh 1).q 12).head?.any (fun c => c.done.isSome && c.switches.isEmpty && c.accum.isEmpty && cCmpl c.ws == 0) ∧
    (ghDoneHead.gh 1).waiting = [] ∧ (z.gh 1).q 12 = [] := by decide +kernel

/-- Rows queued for repair, without a spare, under repair; two misses; raw mode; scrubbing on. -/
def repairing (f : Gh → Gh) : State := z.modGh 1 fun g => f { g with repairQ := [⟨63, 31, 65535⟩, ⟨1, 1, 1⟩] }
def spareless (g : Gh) : Gh := { g with spares := [(63 * 32 + 31, 8)], unspared := (List.range 7).map fun i => ⟨63, 31, i⟩ }
def rawGh (cs : List GhCmd) : State := (ghWith cs).setFld (.ghStatus 1) F.ghStatusRaw 1
def scrubbing : State := z.setFld (.ghScrubCtl 1) F.ghScrubCtlEn 1
theorem witness_StackRefreshScrubRepairAndRawMode :
    (z.setFld (.ghScrubCtl 1) F.ghScrubCtlEn 0).bit (.ghScrubCtl 1) F.ghScrubCtlEn = false ∧
    scrubbing.bit (.ghScrubCtl 1) F.ghScrubCtlEn = true ∧ scrubbing.bit (.ghStatus 1) F.ghStatusRaw = false ∧
    (∀ e ∈ scrubbing.chk, e.2 = poisonSig) ∧ (z.gh 1).repair = none ∧ (rawGh []).dead = false ∧
    (z.setFld (.ghStatus 1) F.ghStatusRefresh2x 1).bit (.ghStatus 1) F.ghStatusRefresh2x = true ∧
    (rawGh []).bit (.ghStatus 1) F.ghStatusRaw = true ∧
    (⟨63, 31, 65535⟩ : RowAt) ∈ ((repairing id).gh 1).repairQ ∧ ((repairing id).gh 1).repair = none ∧
    tabGet 0 ((repairing id).gh 1).spares (63 * 32 + 31) < 8 ∧
    8 ≤ tabGet 0 ((repairing fun g => { g with spares := [(63 * 32 + 31, 8)] }).gh 1).spares (63 * 32 + 31) ∧
    (⟨63, 31, 65535⟩ : RowAt) ∈ ((repairing fun g => { g with unspared := [⟨63, 31, 65535⟩] }).gh 1).unspared ∧
    (⟨63, 31, 65535⟩ : RowAt) ∉ ((repairing spareless).gh 1).unspared ∧
    (((repairing spareless).gh 1).bankRows 63 31).length + 1 = 8 ∧ (((repairing id).gh 1).bankRows 63 31).length + 1 < 8 ∧
    ((repairing fun g => { g with repair := some (⟨1, 1, 1⟩, 77) }).gh 1).repair = some (⟨1, 1, 1⟩, 77) ∧
    (⟨2, 2, 2⟩ : RowAt) ∉ ((repairing id).gh 1).repairQ ∧
    (z.gh 1).misses < 2 ∧ 2 ≤ ((repairing fun g => { g with misses := 2 }).gh 1).misses ∧
    ((repairing fun g => { g with misses := 2 }).gh 1).queues = [] := by decide +kernel
/-- In raw mode: a FENCE at the head, free to end and behind a command of queue 3; a head that has ended; a
queue that is not enabled. -/
def rawFence : State := rawGh [fence]
def rawFenceWaits : State := rawFence.setGhQ 1 3 [{ ghCmd fenceWords with seq := 2 }]
def rawOff : State := rawFence.setFld (.ghCmdqCtl 1 12) F.ghCmdqCtlEn 0
theorem witness_RawStackEmulate_heads :
    (rawFence.gh 1).q 12 = [fence] ∧ rawFence.bit (.ghStatus 1) F.ghStatusRaw = true ∧ fence.buf = none ∧
    cOpcode fence.ws = 9 ∧ ghDecode rawFence fence.ws = 0 ∧ rawFence.ghEn 1 12 = true ∧ fence.done = none ∧
    fenceWaits 1 12 fence rawFence = false ∧ fenceWaits 1 12 fence rawFenceWaits = true ∧
    ghDecode rawFenceWaits fence.ws = 0 ∧ rawFenceWaits.bit (.ghStatus 1) F.ghStatusRaw = true ∧
    (rawFenceWaits.gh 1).q 12 = [fence] ∧ rawOff.ghEn 1 12 = false ∧ (rawOff.gh 1).q 12 = [fence] ∧
    rawOff.bit (.ghStatus 1) F.ghStatusRaw = true ∧ rawFence.parity.queues = [] ∧ rawFence.dead = false := by decide +kernel
theorem witness_RawStackEmulate :
    let w := opWords 5 4 [ghBase, ghBase + 0x1000, 3, 0, 0, 0, 0]
    (rawGh [ghCmd w]).ghEn 1 12 = true ∧ (rawGh [ghCmd w]).parity.queues = [] ∧ (rawGh [ghCmd w]).dead = false ∧
    ((rawGh [ghCmd w]).gh 1).q 12 = [ghCmd w] ∧ (rawGh [ghCmd w]).bit (.ghStatus 1) F.ghStatusRaw = true ∧
    ghDecode (rawGh [ghCmd w]) w = 0 ∧ ghInDir (rawGh [ghCmd w]) w = false ∧
    (ghFunc w { s := rawGh [ghCmd w], k := 1 }).fault = 0 ∧ (ghFunc w { s := rawGh [ghCmd w], k := 1 }).sat = false := by decide +kernel
/-- Sums at and past the ends of INT32. -/
theorem witness_AccumulationOfOneElement :
    accElem 0 etInt32 false 1 0x7FFFFFFF = (0x7FFFFFFF, true, false) ∧
    accElem 0 etInt32 false 0xFFFFFFFF 0x80000000 = (0x80000000, true, false) ∧
    accElem 0 etInt32 false 0xFFFFFFFF 0x7FFFFFFF = (0x7FFFFFFE, false, false) ∧
    combine etInt32 [0x7FFFFFFF, 0x7FFFFFFF, 0x80000000] = (0x7FFFFFFE, false) := by decide +kernel

end Sys2Proof.Tests
end

