-- ==== Sys2Proof/Tests/WitnessSystem.lean ====
section
/-! SUPPORT. States that meet the hypotheses of the statements about links, messages, windows, power, boot,
tests and the machine as a whole, clause by clause. -/

namespace Sys2Proof.Tests

-- One theorem at a time: checked side by side they would each wait in a thread of their own.
set_option Elab.async false

open Machine

/-! Ports 0, 13 (gang) and 16, 19 (scale-out), enabled, in one state; device 5 behind the gang ports. -/

def node (rank gsize role : Nat) (s : State) : State := (((s.setFld .chipNode F.chipNodeIdValid 1).setFld .chipNode F.chipNodeRank
  rank).setFld .chipNode F.chipNodeGsize gsize).setFld .chipNode F.chipNodeRole role
def linked (st : Nat) : State := [0, 13, 16, 19].foldl (fun s k => (s.setFld (if k < 14 then .gpCtl k else .xpCtl (k - 16))
  (if k < 14 then F.gpCtlEn else F.xpCtlEn) 1).setLp k st) (node 1 2 0 hostOn)
def up : State := (linked lpActive).setFld (.gpStatus 0) F.gpStatusPeer 5
def withPort (k : Nat) (f : LinkPort → LinkPort) (s : State) : State := s.modLport k f
def mac : BitVec 128 := BitVec.ofNat 128 (up.word (.xpIp 0 0) + up.word (.xpIp 0 1) * 2 ^ 64)
theorem witness_LinkPortsTrainAndWatch :
    up.dead = false ∧ (up.net.self = [] ∧ (up.peer up.devid).unacked = [] ∧ up.fld (.hifProgStat 2) F.hifProgStatState ≠ 1) ∧
    (hostOn.setFld (.gpCtl 0) F.gpCtlEn 0).portEn 0 = false ∧ up.portEn 13 = true ∧ up.portEn 19 = true ∧ up.chip.pciDown = false ∧
    (chipWith (fun c => { c with pciDown := true }) up).chip.pciDown = true ∧
    (linked lpTraining).lpState 0 = lpTraining ∧ (linked lpTraining).lpState 19 = lpTraining ∧ up.lpState 0 ≠ lpTraining ∧
    (linked lpDown).lpState 0 = lpDown ∧ (linked lpDown).lpState 16 = lpDown ∧ (linked lpDown).portEn 0 = true ∧
    (linked lpIdentify).lpState 0 = lpIdentify ∧ up.lpState 0 ≠ lpIdentify ∧
    (let s := linked lpIdentify
     let m : PeerMsg := { dev := 5, gang := BitVec.ofNat 16 (s.fld .chipNode F.chipNodeGang), rank := 0, gsize := 2, port := 0 }
     m.gang.toNat = s.fld .chipNode F.chipNodeGang ∧ m.gsize.toNat = s.fld .chipNode F.chipNodeGsize ∧
      m.rank.toNat ≠ s.fld .chipNode F.chipNodeRank ∧ (1 : Byte).toNat = s.fld .chipNode F.chipNodeRank) ∧
    (up.lpState 0 = lpActive ∧ up.lpState 13 = lpActive ∧ up.lpState 16 = lpActive ∧ up.lpState 19 = lpActive) ∧
    up.bit .chipNode F.chipNodeIdValid = true ∧ hostOn.bit .chipNode F.chipNodeIdValid = false ∧
    up.fld .chipNode F.chipNodeRank ≠ 0 ∧ (node 0 2 2 up).rootDev = (node 0 2 2 up).devid ∧
    (let s := (node 0 2 0 up).modNet fun n => { n with root := some 7 }
     s.fld .chipNode F.chipNodeRank = 0 ∧ s.rootDev ≠ s.devid) ∧
    (up.modPeer 5 fun p => { p with inGang := true, rank := 0 }).fld (.gpStatus 0) F.gpStatusPeer = 5 ∧
    ((up.peer 5).rank = 0 ∧ up.fld .chipNode F.chipNodeRank ≠ 0) ∧ (up.modPeer 5 fun p => { p with rank := 2 }).lpState 0 = lpActive ∧
    (up.modPeer 5 fun p => { p with rank := 2 }).peer 5 ≠ up.peer 5 ∧
    mac.toNat = up.word (.xpIp 0 0) + up.word (.xpIp 0 1) * 2 ^ 64 ∧ (mac + 1).toNat ≠ up.word (.xpIp 0 0) + up.word (.xpIp 0 1) * 2 ^ 64 ∧
    ((withPort 16 (fun l => { l with detAt := some 5 }) up).lport 16).detAt = some 5 ∧ up.now < 5 + 1000 * usTicks ∧
    (up.lport 16).detAt = none ∧ (up.lport 0).replays < 3 ∧ 3 ≤ ((withPort 0 (fun l => { l with replays := 3 }) up).lport 0).replays ∧
    hostOn.lpState 0 = lpDisabled ∧ F.gpCtlEn.of 1 = 1 ∧ F.gpCtlEn.of 0 = 0 ∧ (linked lpIdentify).lpState 0 ≠ lpActive ∧
    F.xpCtlSpeed.of (F.xpCtlSpeed.put 0 (1 - up.fld (.xpCtl 0) F.xpCtlSpeed)) ≠ up.fld (.xpCtl 0) F.xpCtlSpeed ∧
    F.xpCtlUdpPort.of (up.word (.xpCtl 0)) = up.fld (.xpCtl 0) F.xpCtlUdpPort ∧
    (∀ k ∈ allPorts, hostOn.lpState k = lpDisabled ∨ hostOn.lpState k = lpDown) ∧
    (∃ k ∈ allPorts, up.lpState k ≠ lpDisabled ∧ up.lpState k ≠ lpDown) ∧
    (∀ n ∈ [0, 1, 8, 9], F.chipNodeGsize.of (F.chipNodeGsize.put 0 n) = n) := by decide +kernel

/-! Messages of device 5 to `up`, whose next expected SEQ is 0. -/

def header (d : DevId) (q : W32) (ece ce : Bool) (dst : DevId := 0) (ver : BitVec 4 := 1) (len : Nat := 0) : BwtHeader :=
  { src := d, dst := dst, seq := q, ack := 0, ece := ece, notify := false, ce := ce, ver := ver, length := BitVec.ofNat 16 len }
def tx (q tries first : Nat) : TxMsg := ⟨q, .credReq 1 2 3, false, first, tries, none⟩
def peered (f : Peer → Peer) : State := up.modPeer 5 f
def netted (f : Net → Net) : State := up.modNet f
def remote (d n : Nat) : RemTx := ⟨⟨1, 3, n⟩, d, [⟨0, [⟨[], false⟩], false⟩], 0, 0, 3⟩
theorem witness_MessagesActInOrder :
    up.dead = false ∧ (linked lpDown).lpState 0 ≠ lpActive ∧ hostOn.bit .chipNode F.chipNodeIdValid = false ∧
    (header ⟨up.devid, by decide⟩ 0 false false).src.val = up.devid ∧
    (up.lpState 0 = lpActive ∧ up.bit .chipNode F.chipNodeIdValid = true ∧ (header 5 0 false false).src.val ≠ up.devid) ∧
    (header 5 0 false false 0 2).ver ≠ 1 ∧ (header 5 0 false false 0 1 9).length.toNat ≠ Msg.ack.bytes ∧
    (header 5 0 false false 0 1 Msg.ack.bytes).ver = 1 ∧ (header 5 0 false false 0 1 Msg.ack.bytes).length.toNat = Msg.ack.bytes ∧
    (header 5 0 false false ⟨up.devid, by decide⟩).dst.val = up.devid ∧ (header 7 0 false false 6).dst.val ≠ up.devid ∧
    (wake up).gpTo 6 = [] ∧ (wake up).gpTo 5 = 0 :: [] ∧
    (let b := ackArrive 5 0 (wake up)
     (b.peer 5).rxNext = 0 ∧ seqBefore 0xFFFFFFFF 0 = true ∧ seqBefore 1 0 = false ∧ seqBefore 0x80000000 0 = false ∧
      ∀ y ∈ (b.peer 5).held, y.seq ≠ 1) ∧
    (let b := ackArrive 5 0 up
     ((eceArrive 5 b).bump (.xpCnt 0) F.xpCntEcnCe 1).lpState 16 = lpActive) ∧
    (List.replicate 64 (List.replicate 64 (0 : Byte)) ≠ [] ∧ ∀ u ∈ List.replicate 64 (List.replicate 64 (0 : Byte)), u.length = 64) ∧
    64 < (List.replicate 65 (List.replicate 64 (0 : Byte))).length ∧ ([1] : List Byte).length ≠ 64 ∧
    (up.peer 5).ackSince = none ∧ ((peered fun p => { p with ackSince := some 7 }).peer 5).ackSince = some 7 ∧
    ((peered fun p => { p with inGang := true }).peer 5).inGang = true ∧ (up.peer 5).unacked = [] ∧
    (∀ n ∈ [0, 1, 2], let x := tx 1 n 0
      let s := peered fun p => { p with unacked := [tx 0 n 90, x, tx 2 n 0] }
      (s.peer 5).unacked = [tx 0 n 90] ++ x :: [tx 2 n 0] ∧ (s.peer 5).inGang = false ∧ (∀ y ∈ [tx 0 n 90], x.first < y.first) ∧
        ∀ y ∈ [tx 2 n 0], x.first ≤ y.first) ∧
    (∀ c ∈ up.net.creds, c.dev ≠ 5 ∨ c.token ≠ 1) ∧
    (netted fun n => { n with creds := [⟨7, 1, 5, 0⟩, ⟨5, 1, 5, 0⟩] }).net.creds = [⟨7, 1, 5, 0⟩] ++ ⟨5, 1, 5, 0⟩ :: [] ∧
    (let s := netted fun n => { n with remTx := [remote 1 4, remote 5 5] }
     (s.net.remTx.filter fun x => x.dev == 5 && x.parts != []) = [remote 5 5]) ∧
    (up.win 0).credits = [] ∧
    (let s := netted fun n => { n with wins := [(1023, { credits := [⟨1, 5, 7, true⟩, ⟨1, 5, 7, false⟩] })] }
     (s.win 1023).credits = [⟨1, 5, 7, true⟩] ++ ⟨1, 5, 7, false⟩ :: []) := by decide +kernel

/-! Windows 0, 63 (Virhan's), 64 and 1,023, on 16 KiB of the Orangery; with credits, requests and landings. -/

def windowed (st : Nat) (f : Win → Win := id) : State := [0, 63, 64, 1023].foldl (fun s w => ((((s.setFld (.winLocal w) F.winLocalBase
  (orgBase / 4096)).setFld (.winLocal w) F.winLocalPages 4).setFld (.winCtl w) F.winCtlCredits 2).setFld (.winStat w) F.winStatState st).modWin w f) hostOn
def beats (d : DevId) : List MgrBeat := [⟨d, 1, false⟩, ⟨6, 0, true⟩]
def localTo (base pages : Nat) : Nat := F.winLocalPages.put (F.winLocalBase.put 0 base) pages
theorem witness_WindowsOpenCloseAndManagersWatch :
    (windowed winClosed).dead = false ∧ (0 : WinId).val < 64 ∧ (63 : WinId).val < 64 ∧ ¬ (64 : WinId).val < 64 ∧
    (∀ w ∈ [0, 63, 64, 1023], (windowed winClosed).winState w = winClosed ∧ (windowed winOpen).winState w = winOpen ∧
      (windowed winClosing).winState w = winClosing) ∧
    (let v := localTo (orgBase / 4096) 4
     winRangeOk (windowed winClosed) (F.winLocalBase.of v * 4096) (F.winLocalPages.of v * 4096) = true) ∧
    (let v := localTo (0x020200000000 / 4096) 4
     winRangeOk (windowed winClosed) (F.winLocalBase.of v * 4096) (F.winLocalPages.of v * 4096) = false) ∧
    F.winCtlCredits.of (F.winCtlCredits.put 0 4096) = 4096 ∧ F.winCtlCredits.of (F.winCtlCredits.put 0 4097) = 4097 ∧
    F.winCtlCredits.of (F.winCtlCredits.put 0 4096) ≠ (windowed winOpen).fld (.winCtl 64) F.winCtlCredits ∧
    (let v := F.winCtlCredits.put 0 2
     F.winCtlXbase.of v = (windowed winOpen).fld (.winCtl 64) F.winCtlXbase ∧
      F.winCtlCredits.of v = (windowed winOpen).fld (.winCtl 64) F.winCtlCredits ∧
      winCfgFault 64 (.winCtl 64) (F.winCtlOpen.put v 1) (windowed winClosed) = 0 ∧
      winOpenFault 64 ((windowed winClosed).plainWrite (.winCtl 64) (F.winCtlOpen.put v 1)) = 0 ∧
      winOpenFault 64 ((hostOn).plainWrite (.winCtl 64) (F.winCtlOpen.put v 1)) ≠ 0) ∧
    winCfgFault 64 (.winCtl 64) (F.winCtlOpen.put (F.winCtlCredits.put 0 4097) 1) (windowed winClosed) ≠ 0 ∧
    F.winCtlClose.of (F.winCtlClose.put 0 1) = 1 ∧ F.winCtlForce.of (F.winCtlForce.put 0 1) = 1 ∧
    ((windowed winOpen).win 64).reqs = [] ∧ ((windowed winOpen).win 64).credits = [] ∧
    ((windowed winOpen fun x => { x with credits := [⟨0, 5, 7, false⟩] }).win 64).credits ≠ [] ∧
    (∀ l ∈ ((windowed winOpen).win 64).landings, l.cmds.any (ghHeld (windowed winOpen)) = true) ∧
    (let s := windowed winOpen fun x => { x with landings := [⟨5, 1, 0, 2, true, [], none⟩] }
     (s.win 64).landings = [] ++ ⟨5, 1, 0, 2, true, [], none⟩ :: [] ∧ ([] : List GhRef).any (ghHeld s) = false ∧
      ∀ x ∈ s.net.wins, ∀ l ∈ x.2.landings, l.core = none) ∧
    (let s := windowed winOpen fun x => { x with landings := [⟨5, 1, 0, 2, true, [], some 31⟩] }
     ∀ l ∈ (s.win 64).landings, l.core ≠ none) ∧
    2 ≤ [4, 5, 6].length ∧
    ((beats 7).map fun b => b.dev.val).Nodup ∧ (∀ b ∈ beats 7, b.dev.val ≠ 5) ∧
    ((hostOn.modPeer 7 fun p => { p with misses := 2, role := 1 }).peer 7).misses + 1 = 3 ∧
    hostOn.net.slew = 0 ∧ (hostOn.modNet fun n => { n with slew := -1 }).net.slew ≠ 0 ∧
    (∀ g ∈ (hostOn.core 1).gturns, g.res = none) ∧
    (let s := hostOn.modCore 31 fun c => { c with gturns := [⟨1, 0, 63, 2, 7, none⟩, ⟨2, cmSize - 8, 63, 2, 7, some 9⟩] }
     (s.core 31).gturns = [⟨1, 0, 63, 2, 7, none⟩] ++ ⟨2, cmSize - 8, 63, 2, 7, some 9⟩ :: [] ∧ cmSize - 8 + 8 ≤ cmSize) := by decide +kernel

/-- What a boot may find. -/
def bootEnv : BootEnv := { sites := [3, 35], picks := [], ghs := [2], stack := none, tsvs := [], heapBase := 16, heapLim := 1024, zero := 0, node := 0, testEn := false }
/-! Power: readings in sixteenths of a degree; a raise to 800 mV; the pin; the idle states. -/

def powered (f : Power → Power) : State := { hostOn with power := f hostOn.power }
def coreAt (ps mv : Nat) : State := (hostOn.setFld (.clkCorePs 5) F.clkCorePsEff ps).setFld .clkStatus F.clkStatusVcoreMeas mv
def idleAt (st tol : Nat) : State := ((hostOn.setFld .hifWakeTol F.hifWakeTolTol tol).setFld .hifWakeTol F.hifWakeTolAllowI4 1).setFld .hifIdle
  F.hifIdleState st
/-- No message waits for its acknowledgement and no transfer for credits: nothing that a link going down would fail. -/
theorem witness_quiet : (∀ d, (hostOn.peer d).unacked = []) ∧ hostOn.net.remTx = [] := ⟨fun _ => rfl, rfl⟩
theorem witness_PowerGovernorAndIdleStates :
    hostOn.dead = false ∧ heldDie.dead = true ∧
    (let s := coreAt (hostOn.demand 5) 900; ¬ s.demand 5 ≠ s.fld (.clkCorePs 5) F.clkCorePsEff) ∧
    (let s := (coreAt 1 0).setFld .blwStat F.blwStatPb 3; s.demand 5 ≠ 1 ∧ s.fld (.clkCorePs 5) F.clkCorePsEff = 1 ∧ 1 < s.demand 5) ∧
    (let s := coreAt 4 900; s.demand 5 < 4 ∧ psMv (s.demand 5) ≤ s.fld .clkStatus F.clkStatusVcoreMeas + 10) ∧
    (let s := coreAt 4 600; ¬ psMv (s.demand 5) ≤ s.fld .clkStatus F.clkStatusVcoreMeas + 10) ∧
    hostOn.power.raise = none ∧ (powered fun p => { p with raise := some ⟨1, 800, 500⟩ }).power.raise = some ⟨1, 800, 500⟩ ∧
    (∀ t ∈ [1600, 1680, 1679], (hottest [1000, t]).1 = t) ∧ 1000 ≤ (hotRunsOf [1680] (powered fun p => { p with hotRuns := [999] }).power.hotRuns).getD 0 0 ∧
    (∀ i < 64, ¬ (110 * 16 ≤ tempOf ([1680].getD i 0) ∨ 1000 ≤ (hotRunsOf [1680] hostOn.power.hotRuns).getD i 0)) ∧
    110 * 16 ≤ tempOf ([1760].getD 0 0) ∧ 85 * 16 < tempOf ((List.replicate 60 1361).getD 53 0) ∧ 52 + 7 < (List.replicate 60 1361).length ∧
    hostOn.bit (.ghStatus 7) F.ghStatusRaw = false ∧ hostOn.fld .blwCap F.blwCapCap < 2000 ∧ hostOn.pb ≤ 4 ∧ (List.replicate 64 500).length ≤ 64 ∧
    (∀ c ∈ [599, 600, 1800, 1801], F.blwCapCap.of (F.blwCapCap.put 0 c) = c) ∧ 600 < hostOn.fld .blwCap F.blwCapCap ∧
    hostOn.fld .blwCap F.blwCapCap ≤ 1800 ∧
    (powered fun p => { p with pin := true }).power.pin = true ∧ hostOn.power.hold = 0 ∧ hostOn.power.pin = false ∧
    (powered fun p => { p with hold := 7 }).power.hold ≠ 0 ∧ tempOf 1759 < 110 * 16 ∧ 110 * 16 ≤ tempOf 1760 ∧
    (∀ st ∈ [0, 1, 2, 3], let s := idleAt st 100000000; st + 1 = s.fld .hifIdle F.hifIdleState + 1 ∧ st + 1 ≤ s.deepest) ∧
    ¬ (2 : Nat) = (idleAt 0 100000000).fld .hifIdle F.hifIdleState + 1 ∧
    hostOn.fld .hifIdle F.hifIdleState = 0 ∧ (idleAt 3 100000000).fld .hifIdle F.hifIdleState ≠ 0 ∧
    (idleAt 4 0).fld .hifIdle F.hifIdleState = 4 ∧ (idleAt 4 0).chip.wakeFail = none ∧
    (chipWith (fun c => { c with wakeFail := some (.core 3, bootEnv) }) (idleAt 4 0)).chip.wakeFail = some (.core 3, bootEnv) ∧ (idleAt 3 0).fld .hifIdle F.hifIdleState ≠ 4 ∧
    (let s := (idleAt 3 0).plainWrite .hifWakeTol 0; s.permits (s.fld .hifIdle F.hifIdleState) = false) ∧
    hostOn.permits (hostOn.fld .hifIdle F.hifIdleState) = true ∧
    hostOn.fld .blwCtl F.blwCtlFtHold ≠ 0 ∧ (hostOn.setFld .blwCtl F.blwCtlFtHold 0).fld .blwCtl F.blwCtlFtHold = 0 := by decide +kernel

/-! Boot and resets. What an image needs beyond its fuse is authenticity (`witness_goodImage`). -/

def chipped (f : Chip → Chip) : State := chipWith f z
def noImage : State := chipWith (fun c => { c with slotA := none, slotB := none }) heldDie
/-- An image that is good and no older than the fuses say. -/
def goodSlot : State := chipWith (fun c => { c with slotA := some ⟨[1], 3, 4, true⟩, svn := 3 }) heldDie
/-- Whether some channel of some stack has more failing TSVs than spares. -/
def lacking (e : BootEnv) (s : State) : Bool := (List.range 8).any fun k =>
  ((e.tsvs.foldl (fun u t => tsvRepair t.1 t.2 u) s).gh k).tsvs.any fun c => decide (4 < c.2)
theorem witness_BootResetAndRails :
    hostOn.bootable bootEnv = false ∧ z.bootable { bootEnv with testEn := true } = false ∧ z.bootable bootEnv = true ∧ heldDie.bootable bootEnv = true ∧
    (∀ k ∈ bootEnv.ghs, (z.gh k).queues = []) ∧
    (goodSlot.bootable bootEnv = true ∧ imageOk goodSlot 0 = true ∧ (leaveReset goodSlot).chip.trial = false ∧ (leaveReset goodSlot).chip.active = 0 ∧
      bootEnv.stack = none ∧ lacking bootEnv goodSlot = false ∧
      lacking { bootEnv with tsvs := List.replicate 5 (2, 31) } goodSlot = true ∧ ({ bootEnv with stack := some 7 } : BootEnv).stack = some 7) ∧
    (noImage.bootable bootEnv = true ∧ imageOk noImage 0 = false ∧ imageOk noImage 1 = false ∧ noImage.chip.active < 2 ∧ noImage.chip.running < 2) ∧
    (hostOn.chip.pwrGood = true ∧ hostOn.chip.held = false) ∧ heldDie.chip.held = true ∧ (chipped fun c => { c with pwrGood := false }).chip.pwrGood = false ∧
    (hostOn.setFld .hifBoot F.hifBootStage 6).fld .hifBoot F.hifBootStage = 6 ∧ hostOn.fld .hifIdle F.hifIdleState ≠ 4 ∧
    hostOn.dead = false ∧ z.hifServed = false ∧ hostOn.hifServed = true ∧ (0 : Word).toNat.testBit 0 = false ∧
    (∀ k ∈ [0xB007, 0xB006], F.chipResetKey.of (F.chipResetKey.put 1 k) = k ∧ (F.chipResetKey.put 1 k).testBit 0 = true) ∧
    (chipWith (fun c => { c with pwrGood := false }) hostOn).chip.pwrGood = false ∧
    z.ready = false ∧ hostOn.ready = true ∧ z.chip.pwrGood = true ∧
    (∃ r < 10, r ∉ (chipped fun c => { c with rails := [0, 1] }).chip.rails) ∧ (∀ r < 10, r ∈ z.chip.rails) ∧
    (0 : Nat) ∈ z.chip.rails ∧ (∀ r < 10, r ∉ noAux.chip.rails) := by decide +kernel

def tested (f : Mxe → Mxe) : State := hostOn.modMxe 31 3 f
def testOf (stop : Option Nat) : State := chipWith (fun c => { c with testing := some ⟨31, stop, []⟩ }) hostOn
def satTile : SatHold := ⟨4095, [⟨coreBase 1 + 64, List.replicate 64 7, false⟩]⟩
theorem witness_OnlineTestsSparesAndTileRetry :
    hostOn.dead = false ∧ (hostOn.chip.testing = none ∧ hostOn.fld (.coreMap 31) F.coreMapState = 0 ∧ hostOn.ready = true) ∧ z.ready = false ∧
    (coreSync 31 (testOf none)).kernelOn 31 = false ∧ (kernelRuns 0).kernelOn 1 = true ∧ outCore.fld (.coreMap 0) F.coreMapState ≠ 0 ∧
    (testOf none).chip.testing = some ⟨31, none, []⟩ ∧ (testOf (some 7)).chip.testing = some ⟨31, some 7, []⟩ ∧
    (let w := reopenWindows [] (testMarks 31 0 ((testOf (some 7)).advance 7)); (35 : Fin 36).val ≠ 31 ∧ w.fld (.coreMap 31) F.coreMapSite = 31 ∧
      (bypassedOf (w.word (.mxeBypass 31 3)) ++ ([127] : List (Fin 128)).map Fin.val).dedup.length ≤ 4 ∧
      4 < (bypassedOf (w.word (.mxeBypass 31 3)) ++ ([0, 1, 2, 3, 127] : List (Fin 128)).map Fin.val).dedup.length ∧ w.spareSites ≠ []) ∧
    ((testOf (some 7)).setFld .siteStat F.siteStatFailed 0xF00000000).spareSites = [] ∧
    (hostOn.coreOut 31 = false ∧ hostOn.kernelOn 31 = false) ∧ outCore.coreOut 0 = true ∧ ringBusy hostOn = false ∧
    ringBusy (hostOn.modCore 3 fun c => { c with colon := [⟨List.replicate 64 0, 0, some 5, false, [], [], 0⟩] }) = true ∧
    hostOn.spareSites ≠ [] ∧ 35 ∈ hostOn.spareSites ∧ 0 ∉ hostOn.spareSites ∧
    (hostOn.setFld .siteStat F.siteStatFailed 0xF00000000).spareSites = [] ∧
    (hostOn.setFld .siteStat F.siteStatFailed 0xF00000000).fencedOnly 31 = false ∧
    ((hostOn.setFld .siteStat F.siteStatFailed 0xF00000000).setFld (.tstFence 31) F.tstFenceMxe 8).fencedOnly 31 = true ∧
    hostOn.reports = [] ∧
    hostOn.fld .tstSweep F.tstSweepPeriod ≠ 0 ∧ (hostOn.setFld .tstSweep F.tstSweepPeriod 0).fld .tstSweep F.tstSweepPeriod = 0 ∧
    hostOn.bit (.ghStatus 2) F.ghStatusRaw = false ∧ rawStack.bit (.ghStatus 2) F.ghStatusRaw = true ∧ (∀ e ∈ (hostOn.gh 2).queues, e.1 < 16) ∧
    (let vs := [0x3F800000, 0xC0000000].map of32; statMax (statCenter (hostOn.latchSlot 1)) vs ≠ none ∧ vs.any (·.special) = false) ∧
    statMax (statCenter (hostOn.latchSlot 1)) ([0x7FC00000].map of32) = none ∧ (of32 0x7FC00000).special = true ∧
    tabFind (hostOn.mxe 31 3).satHold 7 = none ∧
    (let s := tested fun x => { x with satHold := [(7, satTile)] }
     tabFind (s.mxe 31 3).satHold 7 = some satTile ∧ satTile.slot < 4096 ∧ tabGet 0 (s.mxe 31 3).retries 7 < 3 ∧
      s.fld (.ssParam 4095) F.ssParamShift < 7 ∧ 7 ≤ (s.setFld (.ssParam 4095) F.ssParamShift 7).fld (.ssParam 4095) F.ssParamShift) ∧
    3 ≤ tabGet 0 ((tested fun x => { x with retries := [(7, 3)] }).mxe 31 3).retries 7 := by decide +kernel

/-! The machine as a whole. -/

theorem witness_EmptyQueueLetsOneCyclePass :
    hostOn.pending = [] ∧ hostOn.dead = false ∧ heldDie.pending = [] ∧ heldDie.dead = true ∧ hostOn.chip.update = none ∧
    hostOn.hif.kernels = [] ∧ hostOn.net.aborts = [] ∧ (∀ q ∈ hostOn.hif.qps, q.2.hungAt = none) := by decide +kernel
theorem witness_HeldDieRunsNoCommand :
    heldDie.dead = true ∧ (chipWith id { z with power := { z.power with trip := true } }).dead = true ∧
    outsideDie (.flr) = false ∧ outsideDie (.gpRetrain 0) = false := by decide +kernel
def fullRing : State := hostOn.setFld .errTail F.errTailTail 1
def unmasked : State := (hostOn.setWord (.msixTable 385) 0).setWord (.msixTable 387) 0
theorem witness_EventsLeaveOneRecord :
    isInfo 0x40 = true ∧ isInfo 0x23 = false ∧
    (hostOn.setWord .errCtl 0).bit .errCtl F.errCtlInfoEn = false ∧ hostOn.bit .errCtl F.errCtlInfoEn = true ∧
    (fullRing.fld .errHead F.errHeadHead + 1) % 1024 = fullRing.fld .errTail F.errTailTail ∧
    ¬ (hostOn.fld .errHead F.errHeadHead + 1) % 1024 = hostOn.fld .errTail F.errTailTail ∧
    bitAt (hostOn.word (.msixTable 385)) 32 = true ∧ bitAt (unmasked.word (.msixTable 385)) 32 = false ∧
    unmasked.hif.d3 = false ∧ inD3.hif.d3 = true := by decide +kernel
theorem witness_RegisterMapRoundTrip :
    regAt 0x020200000000 ≠ .none ∧ regAt (regAddr (.ssCur 4095)) = .ssCur 4095 ∧ regAt (regAddr (.ghDirBase 7)) = .ghDirBase 7 := by decide +kernel
theorem witness_SlotWordsRoundTrip : (255 : Fin 256) ≠ 0 ∧ MxOp.discard 7 ≠ .nop ∧ 2 ^ 18 - 1 < 2 ^ 18 ∧ 1 ≤ 5 := by decide
theorem witness_SettlingKeepsWhatReads :
    hostOn.working = false ∧ (hostOn.modCore 1 fun c => { c with running := some 2 }).working = true := by decide +kernel

end Sys2Proof.Tests
end

section
/-! PROOFS. Every step and settling (O53, O60): a step answers a state settled from the one without the front command,
and settling orders memory, time and the idle dwell. -/

namespace Sys2Proof.Machine

/-- A step takes the front command, if there is one, and answers a settled state. -/
theorem step_settles (s : State) : Settles { s with pending := s.pending.tail } (step s) := by
  unfold step
  cases hp : s.pending with
  | nil =>
    have hs : { s with pending := [].tail } = s := by rw [List.tail_nil, ← hp]
    rw [hs]
    exact settles_run _ s
  | cons c rest => exact exec_settles c _

/-- Settles O53: a step answers a state settled from the one without the front command, and settling orders memory
and time. -/
theorem everyStepKeepsTheStateInOrder : Obligations.EveryStepKeepsTheStateInOrder := by
  intro s
  obtain ⟨t, ht⟩ := step_settles s
  exact ⟨_, ht, ordered_settle _ t, le_max_left .., rfl⟩

/-- Settling leaves the power record alone where nothing works. -/
theorem settle_power_idle {s t : State} (hs : s.working = false) (ht : t.working = false) :
    (s.settle t).power = t.power := by
  simp [State.settle, hs, ht]

/-- Settling starts the dwell anew where work was or is in progress (R439). -/
theorem settle_power_working {s t : State} (h : s.working = true ∨ t.working = true) :
    (s.settle t).power = { t.power with idleSince := (s.settle t).now } := by
  simp [State.settle, h]

/-- Settles O60: settling orders memory without changing a byte of it, and of the power record moves the dwell
only. -/
theorem settlingKeepsWhatReads : Obligations.SettlingKeepsWhatReads := by
  intro s t u
  have hpower : u.power = { t.power with idleSince := u.power.idleSince } := by
    by_cases h : s.working = true ∨ t.working = true
    · simp only [u, settle_power_working h]
    · simp only [not_or, Bool.not_eq_true] at h
      simp only [u, settle_power_idle h.1 h.2]
  exact ⟨State.settle_word s t, memByte_norm t.mem, memByte_norm t.host, rfl, hpower, settle_power_idle,
    fun h => by simp only [u, settle_power_working h]⟩

end Sys2Proof.Machine
end

section
/-! PROOFS. A clock cycle with no command waiting (O52): nothing that runs in it but the cycle itself moves time, and
nothing but the end of an update touches the update in progress. -/

namespace Sys2Proof.Machine

/-- The time of a state and the firmware update in progress in it. -/
def State.clockUpdate (s : State) : Nat × Option Image := (s.now, s.chip.update)

theorem clockUpdate_eq_iff {s : State} {t : Nat} {u : Option Image} :
    s.clockUpdate = (t, u) ↔ s.now = t ∧ s.chip.update = u := Prod.mk_inj

/-- A fold of operations that each keep the time and the update keeps them. -/
theorem clockUpdate_foldl {α : Type} {f : State → α → State} (h : ∀ s a, (f s a).clockUpdate = s.clockUpdate)
    (l : List α) (s : State) : (l.foldl f s).clockUpdate = s.clockUpdate := by
  induction l generalizing s with
  | nil => rfl
  | cons a l ih => rw [List.foldl_cons, ih, h]

theorem clockUpdate_doIf {f : State → State} (h : ∀ s, (f s).clockUpdate = s.clockUpdate) (b : Bool) (s : State) :
    (s.doIf b f).clockUpdate = s.clockUpdate := by
  cases b
  · rfl
  · exact h s

@[simp] theorem clockUpdate_setWord (s : State) (r : Reg) (v : Nat) : (s.setWord r v).clockUpdate = s.clockUpdate := rfl
@[simp] theorem clockUpdate_setFld (s : State) (r : Reg) (f : Fld) (v : Nat) :
    (s.setFld r f v).clockUpdate = s.clockUpdate := rfl
@[simp] theorem clockUpdate_bump (s : State) (r : Reg) (f : Fld) (k : Nat) :
    (s.bump r f k).clockUpdate = s.clockUpdate := rfl
@[simp] theorem clockUpdate_modCore (s : State) (n : Nat) (f : Core → Core) :
    (s.modCore n f).clockUpdate = s.clockUpdate := rfl
@[simp] theorem clockUpdate_modNet (s : State) (f : Net → Net) : (s.modNet f).clockUpdate = s.clockUpdate := rfl
@[simp] theorem clockUpdate_modPeer (s : State) (d : Nat) (f : Peer → Peer) :
    (s.modPeer d f).clockUpdate = s.clockUpdate := rfl
@[simp] theorem clockUpdate_modQp (s : State) (q : Nat) (f : Qp → Qp) :
    (s.modQp q f).clockUpdate = s.clockUpdate := rfl
@[simp] theorem clockUpdate_modCmd (s : State) (q id : Nat) (f : WcsCmd → WcsCmd) :
    (s.modCmd q id f).clockUpdate = s.clockUpdate := rfl
@[simp] theorem clockUpdate_addEvent (e v : Nat) (s : State) : (addEvent e v s).clockUpdate = s.clockUpdate := rfl
@[simp] theorem clockUpdate_sweep (q : Nat) (s : State) : (sweep q s).clockUpdate = s.clockUpdate := rfl

/-! What a command's end does. -/

@[simp] theorem clockUpdate_advise (s : State) (rung code : Nat) :
    (s.advise rung code).clockUpdate = s.clockUpdate := by
  unfold State.advise adviseUp
  dsimp only
  repeat' split
  all_goals rfl

@[simp] theorem clockUpdate_endCmd (q id : Nat) (e : WcsEnd) (s : State) :
    (endCmd q id e s).clockUpdate = s.clockUpdate := by
  unfold endCmd
  split
  · rfl
  · split
    · rfl
    · rw [clockUpdate_sweep, clockUpdate_doIf fun u => clockUpdate_advise u .., clockUpdate_doIf (clockUpdate_addEvent _ _)]
      rfl

@[simp] theorem clockUpdate_finishCmd (q id : Nat) (s : State) : (finishCmd q id s).clockUpdate = s.clockUpdate := by
  unfold finishCmd
  split
  · rfl
  · exact clockUpdate_endCmd ..

/-! Kernels whose contexts have halted. -/

@[simp] theorem clockUpdate_stallOff (s : State) (n : Nat) : (s.stallOff n).clockUpdate = s.clockUpdate := by
  unfold State.stallOff
  dsimp only
  repeat' split
  all_goals rfl

@[simp] theorem clockUpdate_leaveCore (n c : Nat) (s : State) : (leaveCore n c s).clockUpdate = s.clockUpdate := by
  simp [leaveCore, clockUpdate_doIf]

@[simp] theorem clockUpdate_tctxReset (n c : Nat) (s : State) : (tctxReset n c s).clockUpdate = s.clockUpdate := by
  simp [tctxReset, State.setCtx]

/-- How `kernelEnd` ends (R360): once no context of the kernel lives, its grant is given back and its command ends. -/
def kernelRelease (k : Kernel) (s : State) : State :=
  if k.places.any fun p => s.ctxLive p.1 p.2 then s
  else finishCmd k.q k.cmd { s with hif := { s.hif with kernels := s.hif.kernels.filter fun x => x.cmd != k.cmd } }

theorem clockUpdate_kernelRelease (k : Kernel) (s : State) : (kernelRelease k s).clockUpdate = s.clockUpdate := by
  unfold kernelRelease
  split
  · rfl
  · rw [clockUpdate_finishCmd]
    rfl

theorem clockUpdate_kernelEnd (k : Kernel) (s : State) : (kernelEnd k s).clockUpdate = s.clockUpdate := by
  have hreset : ∀ (s : State) (p : Nat × Nat),
      (s.doIf (s.ctx p.1 p.2 == ctxFaulted) (tctxReset p.1 p.2)).clockUpdate = s.clockUpdate :=
    fun s p => clockUpdate_doIf (clockUpdate_tctxReset p.1 p.2) ..
  unfold kernelEnd
  refine (clockUpdate_kernelRelease k _).trans ?_
  split
  · rw [clockUpdate_foldl hreset, clockUpdate_endCmd]
  · rfl

@[simp] theorem clockUpdate_kernelSweep (s : State) : (kernelSweep s).clockUpdate = s.clockUpdate :=
  clockUpdate_foldl (fun s k => clockUpdate_kernelEnd k s) _ s

/-! Queues that hang. -/

@[simp] theorem clockUpdate_hangSweep (s : State) : (hangSweep s).clockUpdate = s.clockUpdate := by
  refine clockUpdate_foldl (fun u q => ?_) _ s
  split
  · split <;> simp
  · rfl

/-! Aborted collectives. -/

theorem clockUpdate_pickRelay (ms : List Nat) (s : State) : (pickRelay ms s).2.clockUpdate = s.clockUpdate := by
  induction ms generalizing s with
  | nil => rfl
  | cons m ms ih =>
    simp only [pickRelay]
    split
    · rfl
    · rw [ih]
      rfl

theorem clockUpdate_route (d : Nat) (s : State) : (route d s).2.clockUpdate = s.clockUpdate := by
  unfold route
  split
  · rfl
  · split
    · split
      · have hr := clockUpdate_pickRelay (s.relays d) s
        split <;> simp_all
      · exact clockUpdate_modPeer ..
    · rfl

theorem clockUpdate_emit (d seq : Nat) (notify : Bool) (m : Msg) (s : State) :
    (emit d seq notify m s).clockUpdate = s.clockUpdate := by
  have hr := clockUpdate_route d s
  unfold emit
  split <;> simp_all

theorem clockUpdate_send (s : State) (d : Nat) (m : Msg) (notify : Bool) :
    (s.send d m notify none).clockUpdate = s.clockUpdate := by
  unfold State.send
  dsimp only
  split
  · split <;> rfl
  · split
    · rfl
    · rw [clockUpdate_emit]
      split <;> rfl

@[simp] theorem clockUpdate_sendAborts (g step code : Nat) (s : State) :
    (sendAborts g step code s).clockUpdate = s.clockUpdate := by
  refine clockUpdate_foldl (fun u d => ?_) _ s
  split
  · rfl
  · exact clockUpdate_send ..

theorem clockUpdate_loseRange (a n : Nat) (s : State) : (loseRange a n s).clockUpdate = s.clockUpdate := by
  cases n with
  | zero => rfl
  | succ n =>
    exact clockUpdate_foldl (f := fun s i => (s.free 512).2.wr _ _) (fun _ _ => rfl) (List.range _) s

@[simp] theorem clockUpdate_collLost (k : Coll) (s : State) : (collLost k s).clockUpdate = s.clockUpdate := by
  unfold collLost
  dsimp only
  split
  · exact clockUpdate_loseRange ..
  · rfl

@[simp] theorem clockUpdate_collSweep (s : State) : (collSweep s).clockUpdate = s.clockUpdate := by
  unfold collSweep
  dsimp only
  rw [clockUpdate_modNet]
  refine clockUpdate_foldl (fun u q => ?_) _ s
  split
  · simp [clockUpdate_doIf]
  · rfl

/-! The cycle. -/

@[simp] theorem clockUpdate_progDone (i pos : Nat) (s : State) : (progDone i pos s).clockUpdate = s.clockUpdate := by
  unfold progDone progState State.msix
  repeat' split
  all_goals rfl

/-- What has been written of a firmware image ends its update (R469); no time passes. -/
theorem clockUpdate_fwFinish (s : State) : (fwFinish s).clockUpdate = (s.now, none) := by
  unfold fwFinish
  split
  · next h => rw [State.clockUpdate, h]
  · rw [clockUpdate_progDone]
    rfl

/-- What one cycle of FABRIC_CLK does to a state in which the compute die runs. -/
def fabCycle (s : State) : State := collSweep (kernelSweep (hangSweep (fwFinish (s.advance (s.now + fabTicks)))))

theorem step_empty {s : State} (hp : s.pending = []) : step s = run fabCycle s := by
  rw [step, hp]
  rfl

/-- A cycle takes 1 ns and leaves no update in progress. -/
theorem clockUpdate_fabCycle (s : State) : (fabCycle s).clockUpdate = (s.now + fabTicks, none) := by
  simp [fabCycle, clockUpdate_fwFinish, State.advance]

theorem fwFinish_none {s : State} (h : s.chip.update = none) : fwFinish s = s := by
  simp [fwFinish, h]

theorem hangSweep_none {s : State} (h : ∀ q ∈ s.hif.qps, q.2.hungAt = none) : hangSweep s = s := by
  refine List.foldlRecOn (motive := (· = s)) _ _ rfl fun u hu q hq => ?_
  rw [h q hq, hu]

theorem collSweep_none {s : State} (h : s.net.aborts = []) : collSweep s = s := by
  have hfold : ∀ f : State → Nat → State, (∀ q, f s q = s) → (List.range 64).foldl f s = s := fun f hf =>
    List.foldlRecOn (motive := (· = s)) _ _ rfl fun u hu q _ => by rw [hu, hf]
  unfold collSweep
  dsimp only
  rw [hfold]
  · rw [State.modNet, h, List.filter_nil, ← h]
  · intro q
    simp [h]

/-- With nothing under way a cycle moves time and nothing else. -/
theorem fabCycle_idle {s : State} (hu : s.chip.update = none) (hk : s.hif.kernels = []) (ha : s.net.aborts = [])
    (hq : ∀ q ∈ s.hif.qps, q.2.hungAt = none) : fabCycle s = { s with now := s.now + fabTicks } := by
  have hadv : s.advance (s.now + fabTicks) = { s with now := s.now + fabTicks } := by simp [State.advance]
  rw [fabCycle, fwFinish_none (s := s.advance _) hu, hangSweep_none (s := s.advance _) hq,
    sweep_nil (s := s.advance _) hk, collSweep_none (s := s.advance _) ha, hadv]

/-- Settles O52: a step with no command waiting is one cycle, and of the time and the update in progress only the
cycle's own parts have a hand in either. -/
theorem emptyQueueLetsOneCyclePass : Obligations.EmptyQueueLetsOneCyclePass := by
  intro s hp
  refine ⟨fun hd => ?_, fun hd hu hk ha hq => ?_, fun hd => ?_⟩
  · obtain ⟨hnow, hupdate⟩ := clockUpdate_eq_iff.mp (clockUpdate_fabCycle s)
    refine ⟨s.settle (fabCycle s), ?_, ?_, ?_, ?_⟩
    · rw [step_empty hp, run_live hd]
    · rw [State.settle_now, hnow]
      exact le_max_right ..
    · rw [State.settle_pending, hp]
    · rw [State.settle_chip, hupdate]
  · rw [step_empty hp, run_live hd, fabCycle_idle hu hk ha hq]
  · rw [step_empty hp, run_dead hd]

end Sys2Proof.Machine
end

section
/-! PROOFS. Register accesses (O33): fields of words and of their halves, folds over the fields of a register, and
what a write and a read of 64 or 32 bits leave. -/

namespace Sys2Proof.Machine

/-! ### Fields of a word, and of its halves -/

/-- The half of a 64-bit word. -/
def wordHalf (hi : Bool) (x : Nat) : Nat := if hi then x / 2 ^ 32 else x % 2 ^ 32

/-- A field lies in one half of its register. -/
def Fld.inHalf (f : Fld) (hi : Bool) : Prop := f.lo / 32 = b2n hi ∧ f.hi / 32 = b2n hi

/-- A field is its bits. -/
theorem Fld.of_congr {f : Fld} {w x : Nat} (h : ∀ i, f.lo ≤ i → i ≤ f.hi → w.testBit i = x.testBit i)
    (hf : f.fits) : f.of w = f.of x := by
  apply Nat.eq_of_testBit_eq
  intro i
  rw [Fld.of, Fld.of, testBit_bitsOf, testBit_bitsOf]
  by_cases hi : i < f.hi - f.lo + 1
  · rw [h (i + f.lo) (by omega) (by have := hf.1; omega)]
  · simp [hi]

/-- A field that does not straddle the halves lies in the half that its first bit names. -/
theorem Fld.inHalf_of_same {f : Fld} (hf : f.fits) (h : f.lo / 32 = f.hi / 32) (hi : Bool) :
    (f.lo / 32 = 1 ↔ hi = true) ∧ f.inHalf hi ∨ ¬ (f.lo / 32 = 1 ↔ hi = true) ∧ f.inHalf (!hi) := by
  obtain ⟨hle, hlt⟩ := hf
  cases hi <;> simp [Fld.inHalf, b2n] <;> omega

theorem testBit_withHalf (hi : Bool) (w x : Nat) {i : Nat} (h : i < 64) :
    (withHalf hi w x).testBit i = if i / 32 = b2n hi then x.testBit i else w.testBit i := by
  cases hi
  · have hc : (0 ≤ i ∧ i ≤ 31) ↔ i / 32 = b2n false := by simp [b2n]; omega
    simp only [withHalf, Bool.false_eq_true, if_false, testBit_withBits _ _ _ _ _ (by decide : 0 ≤ 31), hc, Nat.sub_zero]
  · have hc : (32 ≤ i ∧ i ≤ 63) ↔ i / 32 = b2n true := by simp [b2n]; omega
    simp only [withHalf, if_true, testBit_withBits _ _ _ _ _ (by decide : 32 ≤ 63), hc, Nat.testBit_div_two_pow]
    split
    · next h32 => rw [Nat.sub_add_cancel (hc.mpr h32).1]
    · rfl

/-- A field of the half that is taken is that of the word it is taken from. -/
theorem Fld.of_withHalf_mine {f : Fld} {hi : Bool} (hf : f.fits) (h : f.inHalf hi) (w x : Nat) :
    f.of (withHalf hi w x) = f.of x := by
  obtain ⟨hlo, hhi⟩ := h
  refine Fld.of_congr (fun i h1 h2 => ?_) hf
  rw [testBit_withHalf _ _ _ (lt_of_le_of_lt h2 hf.2), if_pos (by omega)]

/-- A field of the other half stays. -/
theorem Fld.of_withHalf_other {f : Fld} {hi : Bool} (hf : f.fits) (h : f.inHalf (!hi)) (w x : Nat) :
    f.of (withHalf hi w x) = f.of w := by
  obtain ⟨hlo, hhi⟩ := h
  have hne : b2n (!hi) ≠ b2n hi := by cases hi <;> decide
  refine Fld.of_congr (fun i h1 h2 => ?_) hf
  rw [testBit_withHalf _ _ _ (lt_of_le_of_lt h2 hf.2), if_neg (by omega)]

/-- The half that is not taken stays. -/
theorem wordHalf_withHalf_other (hi : Bool) {w : Nat} (hw : w < 2 ^ 64) (x : Nat) :
    wordHalf (!hi) (withHalf hi w x % 2 ^ 64) = wordHalf (!hi) w := by
  cases hi <;> simp [wordHalf, withHalf, withBits] <;> omega

/-! ### Folds over the fields of a register -/

/-- An operation on a word for each field that leaves the bits of the other fields alone. -/
def FieldLocal (op : Nat → FldSpec → Nat) : Prop :=
  ∀ (w : Nat) (g : FldSpec) (f : Fld), g.fld.fits → f.fits → g.fld.apart f → f.of (op w g) = f.of w

theorem FieldLocal.foldl_apart {op : Nat → FldSpec → Nat} (ho : FieldLocal op) {fs : List FldSpec} {f : Fld}
    (hf : f.fits) (hfs : ∀ g ∈ fs, g.fld.fits ∧ g.fld.apart f) (w : Nat) : f.of (fs.foldl op w) = f.of w := by
  induction fs generalizing w with
  | nil => rfl
  | cons g fs ih =>
    obtain ⟨hg, hd⟩ := hfs g (by simp)
    rw [List.foldl_cons, ih (fun x hx => hfs x (by simp [hx])), ho w g f hg hf hd]

/-- A field after the whole fold is as its own operation left it. -/
theorem FieldLocal.foldl_own {op : Nat → FldSpec → Nat} (ho : FieldLocal op) {fs : List FldSpec} (h : fieldsOk fs)
    {f : FldSpec} (hf : f ∈ fs) (w : Nat) :
    ∃ x, f.fld.of x = f.fld.of w ∧ f.fld.of (fs.foldl op w) = f.fld.of (op x f) := by
  induction fs generalizing w with
  | nil => cases hf
  | cons g fs ih =>
    obtain ⟨hfit, hd⟩ := h
    obtain ⟨hg, hd⟩ := List.pairwise_cons.mp hd
    rw [List.foldl_cons]
    rcases List.mem_cons.mp hf with rfl | hf
    · exact ⟨w, rfl, ho.foldl_apart (hfit f (by simp)) (fun x hx => ⟨hfit x (by simp [hx]), (hg x hx).symm⟩) _⟩
    · obtain ⟨x, hx, he⟩ := ih ⟨fun x hx => hfit x (by simp [hx]), hd⟩ hf (op w g)
      exact ⟨x, hx.trans (ho w g f.fld (hfit g (by simp)) (hfit f (by simp [hf])) (hg f hf)), he⟩

/-- What a half write keeps of a register's word: its RW fields. -/
def keepField (w k : Nat) (f : FldSpec) : Nat :=
  match f.acc with
  | .rw => f.fld.put k (f.fld.of w)
  | _ => k

theorem keepField_local (w : Nat) : FieldLocal (keepField w) := by
  intro k g f hg hf hd
  unfold keepField
  split
  · exact Fld.of_put_apart hg hf hd ..
  · rfl

/-- Of the word a half write starts from, RW fields hold what they held and the others 0. -/
theorem of_keepFields {fs : List FldSpec} (h : fieldsOk fs) {f : FldSpec} (hf : f ∈ fs) (w : Nat) :
    f.fld.of (fs.foldl (keepField w) 0) = if f.acc = .rw then f.fld.of w else 0 := by
  obtain ⟨x, hx, he⟩ := (keepField_local w).foldl_own h hf 0
  rw [he]
  unfold keepField
  split
  · next ha => rw [Fld.of_put_same (h.1 f hf), Nat.mod_eq_of_lt (Fld.of_lt ..), if_pos ha]
  · next ha => rw [hx, if_neg ha, Fld.of, bitsOf, Nat.zero_div, Nat.zero_mod]

/-- RC fields are 0 after a read (R10). -/
theorem of_afterRead {fs : List FldSpec} (h : fieldsOk fs) {f : FldSpec} (hf : f ∈ fs) (hrc : f.acc = .rc) (w : Nat) :
    f.fld.of (afterRead fs w) = 0 := by
  have hlocal : FieldLocal fun r f => if f.acc = .rc then f.fld.put r 0 else r := by
    intro w g k hg hk hd
    dsimp only
    split
    · exact Fld.of_put_apart hg hk hd ..
    · rfl
  obtain ⟨x, -, he⟩ := hlocal.foldl_own h hf w
  rw [afterRead, he, if_pos hrc, Fld.of_put_same (h.1 f hf), Nat.zero_mod]

/-! ### Words of registers -/

/-- The reset value of a register with RC fields is a 64-bit word. -/
theorem regReset_lt_of_rc {r : Reg} (h : (regFields r).any (fun f => f.acc == .rc) = true) : regReset r < 2 ^ 64 := by
  cases r <;> cases h <;> exact of_decide_eq_true rfl

theorem State.word_lt_of_rc (s : State) {r : Reg} (h : (regFields r).any (fun f => f.acc == .rc) = true) :
    s.word r < 2 ^ 64 := by
  unfold State.word
  split
  · exact BitVec.isLt _
  · exact regReset_lt_of_rc h

/-! The access codes (R10), one by one. -/

theorem Acc.after_rw {a : Acc} (h : a = .rw) (top old v : Nat) : a.after top old v = v := by
  rw [h]
  rfl
theorem Acc.after_w1c {a : Acc} (h : a = .w1c) (top old v : Nat) : a.after top old v = old &&& (top - v) := by
  rw [h]
  rfl
theorem Acc.after_w1s {a : Acc} (h : a = .w1s) (top old v : Nat) : a.after top old v = old ||| v := by
  rw [h]
  rfl

/-- A write that holds 0 of a W1C or W1S field leaves it (R10). -/
theorem Acc.after_zero {a : Acc} {f : Fld} {old : Nat} (h : old < 2 ^ (f.hi - f.lo + 1)) (ha : a ≠ .rw) :
    a.after f.top old 0 = old := by
  cases a <;> simp_all [Acc.after, Fld.top, Nat.mod_eq_of_lt]

theorem Acc.after_of_not_stored {a : Acc} (h : a = .ro ∨ a = .rc ∨ a = .wo) (top old v : Nat) :
    a.after top old v = old := by
  rcases h with rfl | rfl | rfl <;> rfl

theorem Acc.after_of_not_writable {a : Acc} (h : a.writable = false) (top old v : Nat) : a.after top old v = old := by
  cases a <;> cases h <;> rfl

/-! ### Registers without behaviour of their own -/

theorem csrEffect_plain {reg : Reg} (h : plainReg reg = true) (r : Requester) (v : Nat) (s : State) :
    csrEffect r reg v s = s.plainWrite reg v := by
  cases reg <;> cases h <;> rfl

theorem ne_none_of_plain {reg : Reg} (h : plainReg reg = true) : reg ≠ .none := by
  rintro rfl
  cases h

/-- The 64-bit value whose half is a written half. -/
def halfInPlace (hi : Bool) (v : Nat) : Nat := if hi then v * 2 ^ 32 else v

theorem mergeHalf_plain {reg : Reg} (h : plainReg reg = true) (s : State) (hi : Bool) (v : Nat) :
    mergeHalf s reg hi v = withHalf hi ((regFields reg).foldl (keepField (s.word reg)) 0) (halfInPlace hi v) := by
  have hm : mergeHalf s reg hi v =
      if hi then withBits ((regFields reg).foldl (keepField (s.word reg)) 0) 63 32 v
      else withBits ((regFields reg).foldl (keepField (s.word reg)) 0) 31 0 v := by
    unfold mergeHalf
    split
    · cases h
    · cases h
    · unfold keepField
      rfl
  have hv : v * 2 ^ 32 / 2 ^ 32 = v := Nat.mul_div_cancel v (by decide)
  rw [hm, withHalf, halfInPlace]
  cases hi
  · simp only [Bool.false_eq_true, if_false]
  · simp only [if_true, hv]

/-- A half write of an RW, W1C or W1S field in its half acts by the field's access code (R10, R13). -/
theorem fld_mergeHalf_mine {reg : Reg} (h : plainReg reg = true) (s : State) (hi : Bool) (v : Nat) {f : FldSpec}
    (hf : f ∈ regFields reg) (hm : f.fld.inHalf hi) :
    (s.plainWrite reg (mergeHalf s reg hi v)).fld reg f.fld =
      f.acc.after f.fld.top (s.fld reg f.fld) (f.fld.of (halfInPlace hi v)) := by
  rw [State.fld_plainWrite s reg _ hf, mergeHalf_plain h, Fld.of_withHalf_mine ((regFields_ok reg).1 f hf) hm]

/-- A half write leaves the fields of the other half (R13). -/
theorem fld_mergeHalf_other {reg : Reg} (h : plainReg reg = true) (s : State) (hi : Bool) (v : Nat) {f : FldSpec}
    (hf : f ∈ regFields reg) (hm : f.fld.inHalf (!hi)) :
    (s.plainWrite reg (mergeHalf s reg hi v)).fld reg f.fld = s.fld reg f.fld := by
  have hfit := (regFields_ok reg).1 f hf
  rw [State.fld_plainWrite s reg _ hf, mergeHalf_plain h, Fld.of_withHalf_other hfit hm, of_keepFields (regFields_ok reg) hf]
  split
  · next ha =>
    rw [ha]
    rfl
  · next ha => exact Acc.after_zero (Fld.of_lt ..) ha

/-- A half without a field that a write can act on. -/
theorem not_writable_of_half {fs : List FldSpec} {hi : Bool} (h : halfWritable fs hi = false) {f : FldSpec} (hf : f ∈ fs)
    (hm : f.fld.inHalf hi) : f.acc.writable = false := by
  obtain ⟨hlo, hhi⟩ := hm
  have hin : (if hi then decide (32 ≤ f.fld.hi) else decide (f.fld.lo < 32)) = true := by
    cases hi <;> simp [b2n] at hlo hhi ⊢ <;> omega
  simpa [hin] using List.any_eq_false.mp h f hf

/-- A half write of a register without behaviour of its own, whether or not its half holds a field to write. -/
def plainHalfWrite (reg : Reg) (hi : Bool) (v : Nat) (s : State) : State :=
  s.doIf (halfWritable (regFields reg) hi) (·.plainWrite reg (mergeHalf s reg hi v))

theorem onlyRegs_plainHalfWrite (reg : Reg) (hi : Bool) (v : Nat) (s : State) :
    s.OnlyRegs (plainHalfWrite reg hi v s) [reg] := by
  unfold plainHalfWrite State.doIf
  split
  · exact onlyRegs_plainWrite (onlyRegs_refl ..) (by simp)
  · exact onlyRegs_refl ..

theorem fld_plainHalfWrite_mine {reg : Reg} (h : plainReg reg = true) (s : State) (hi : Bool) (v : Nat) {f : FldSpec}
    (hf : f ∈ regFields reg) (hm : f.fld.inHalf hi) :
    (plainHalfWrite reg hi v s).fld reg f.fld =
      f.acc.after f.fld.top (s.fld reg f.fld) (f.fld.of (halfInPlace hi v)) := by
  unfold plainHalfWrite State.doIf
  split
  · exact fld_mergeHalf_mine h s hi v hf hm
  · next hw => rw [Acc.after_of_not_writable (not_writable_of_half (by simpa using hw) hf hm)]

theorem fld_plainHalfWrite_other {reg : Reg} (h : plainReg reg = true) (s : State) (hi : Bool) (v : Nat) {f : FldSpec}
    (hf : f ∈ regFields reg) (hm : f.fld.inHalf (!hi)) :
    (plainHalfWrite reg hi v s).fld reg f.fld = s.fld reg f.fld := by
  unfold plainHalfWrite State.doIf
  split
  · exact fld_mergeHalf_other h s hi v hf hm
  · rfl

/-! ### What an access of a register does -/

section
variable {s : State} {r : Requester} {a : Nat}

/-- The device runs, and an access of the requester at the address reaches its register with nothing due. -/
structure State.Open (s : State) (r : Requester) (a : Nat) : Prop where
  running : s.dead = false
  reaches : s.Reaches r a
  settled : ∀ n, csrCore a = some n → s.Settled n
  landed : csrCore a = none → csrSettle a s = s

/-- No core out of service has the address. -/
abbrev State.InService (s : State) (a : Nat) : Prop := ∀ n, csrCore a = some n → s.coreOut n = false

/-- A command that accesses a register in reach does its meaning and no more. -/
theorem State.Open.runCsr_eq (h : s.Open r a) (f : State → State) : runCsr r a f s = .next (s.settle (f s)) := by
  have hgate : csrGate r a f s = f s := by
    have hs : (if r == .host then wakeFor a s else s) = s := by
      split
      · next hr => exact (h.reaches (by simpa using hr)).1
      · rfl
    have hb : (r == .host && !barServed s a) = false := by
      by_cases hr : r = .host
      · simp [(h.reaches hr).2]
      · simp [hr]
    unfold csrGate
    dsimp only
    rw [hs, hb]
    cases hc : csrCore a with
    | none => exact congrArg f (h.landed hc)
    | some n => exact congrArg f (settled_sync (h.settled n hc))
  rw [runCsr, run_live h.running, hgate]

theorem rawHidden_heldLow (s : State) (l : List (Nat × Nat × W32)) (reg : Reg) :
    rawHidden { s with heldLow := l } reg = rawHidden s reg := by
  cases reg <;> rfl

/-- An address without a register, or of a register that raw-stack mode hides, takes no write. -/
theorem csrWrite_absent (h : regAt a = .none ∨ rawHidden s (regAt a) = true) (v : Nat) : csrWrite r a v s = s := by
  unfold csrWrite
  exact if_pos h

/-- A write to a core out of service conflicts (R497). -/
theorem csrWrite_out (hn : regAt a ≠ .none) (hh : rawHidden s (regAt a) = false) {n : Nat} (hc : csrCore a = some n)
    (ho : s.coreOut n = true) (v : Nat) : csrWrite r a v s = s.conflict (srcOf 1 n 0) a v := by
  simp [csrWrite, hn, hh, hc, ho]

/-- Another write is the register's own effect. -/
theorem csrWrite_effect (hn : regAt a ≠ .none) (hh : rawHidden s (regAt a) = false) (ho : s.InService a) (v : Nat) :
    csrWrite r a v s = csrEffect r (regAt a) v s := by
  unfold csrWrite
  dsimp only
  rw [if_neg (by simp [hn, hh])]
  split
  · next n hc => rw [ho n hc, if_neg Bool.false_ne_true]
  · rfl

theorem csrWrite_plain (hp : plainReg (regAt a) = true) (hh : rawHidden s (regAt a) = false) (ho : s.InService a) (v : Nat) :
    csrWrite r a v s = s.plainWrite (regAt a) v := by
  rw [csrWrite_effect (ne_none_of_plain hp) hh ho, csrEffect_plain hp]

theorem plainHalf_plain (hp : plainReg (regAt a) = true) (hh : rawHidden s (regAt a) = false) (ho : s.InService a)
    (hi : Bool) (v : Nat) : plainHalf r a hi v s = plainHalfWrite (regAt a) hi v s := by
  unfold plainHalf
  dsimp only
  split
  · next he => rw [he] at hp; cases hp
  · unfold plainHalfWrite State.doIf
    rw [csrWrite_plain hp hh ho]

/-! ### Halves held and latched -/

/-- The half last noted for a requester is the one found. -/
theorem halfOf_noted (l : List (Nat × Nat × W32)) (who a : Nat) (v : W32) :
    halfOf ((l.filter fun h => h.1 != who) ++ [(who, a, v)]) who a = some v := by
  have hnone : (l.filter fun h => h.1 != who).find? (fun h => h.1 == who && h.2.1 == a) = none := by
    simp only [List.find?_eq_none, List.mem_filter]
    rintro x ⟨-, hx⟩
    simp_all
  simp [halfOf, List.find?_append, hnone]

/-! ### Reads -/

/-- A read leaves a register without RC fields alone, progress channels apart. -/
theorem csrRead_rest (hp : ∀ i, regAt a ≠ .hifProgStat i ∧ regAt a ≠ .hifProgPos i) :
    (csrRead r a s).2 = if regAt a = .none ∨ rawHidden s (regAt a) ∨ (csrCore a).any (fun n => s.coreOut n) then s
      else if (regFields (regAt a)).any (fun f => f.acc == .rc) then
        s.setWord (regAt a) (afterRead (regFields (regAt a)) (s.word (regAt a)))
      else s := by
  unfold csrRead
  dsimp only
  split
  · rfl
  · split
    · next he => simp [he, regFields]
    · next he => simp [he, regFields]
    · next i he => exact absurd he (hp i).1
    · next i he => exact absurd he (hp i).2
    · rfl


/-- What a half read leaves of a register with RC fields is the register with its half taken from another word; any
other register, progress channels apart, it leaves alone (R10, R13). -/
theorem csrReadHalf_rest (hp : ∀ i, regAt a ≠ .hifProgStat i ∧ regAt a ≠ .hifProgPos i) (hi : Bool) :
    (csrReadHalf r a hi s).2 =
      if (regFields (regAt a)).any (fun f => f.acc == .rc) then
        (csrRead r a s).2.setWord (regAt a) (withHalf hi (s.word (regAt a)) ((csrRead r a s).2.word (regAt a)))
      else s := by
  unfold csrReadHalf
  dsimp only
  split
  · rfl
  · next hrc =>
    rw [csrRead_rest hp]
    simp [hrc]

theorem onlyRegs_csrReadHalf (hp : ∀ i, regAt a ≠ .hifProgStat i ∧ regAt a ≠ .hifProgPos i) (hi : Bool) :
    s.OnlyRegs (csrReadHalf r a hi s).2 [regAt a] := by
  rw [csrReadHalf_rest hp, csrRead_rest hp]
  split
  · refine onlyRegs_setWord ?_ (by simp)
    split
    · exact onlyRegs_refl ..
    · exact onlyRegs_setWord (onlyRegs_refl ..) (by simp)
  · exact onlyRegs_refl ..

/-- A half read leaves the other half (R13). -/
theorem csrReadHalf_other (hp : ∀ i, regAt a ≠ .hifProgStat i ∧ regAt a ≠ .hifProgPos i) (hi : Bool) :
    wordHalf (!hi) ((csrReadHalf r a hi s).2.word (regAt a)) = wordHalf (!hi) (s.word (regAt a)) := by
  rw [csrReadHalf_rest hp]
  split
  · next hrc => rw [State.word_setWord_same, wordHalf_withHalf_other hi (s.word_lt_of_rc hrc)]
  · rfl

/-- A half read clears the RC fields of its half (R10, R13). -/
theorem csrReadHalf_clears (hp : ∀ i, regAt a ≠ .hifProgStat i ∧ regAt a ≠ .hifProgPos i) {hi : Bool}
    (hn : regAt a ≠ .none) (hh : rawHidden s (regAt a) = false) (ho : s.InService a) {f : FldSpec}
    (hf : f ∈ regFields (regAt a)) (hrc : f.acc = .rc) (hm : f.fld.inHalf hi) :
    (csrReadHalf r a hi s).2.fld (regAt a) f.fld = 0 := by
  have hfit := (regFields_ok (regAt a)).1 f hf
  have hany : (regFields (regAt a)).any (fun f => f.acc == .rc) = true := List.any_eq_true.mpr ⟨f, hf, by simp [hrc]⟩
  have hout : (csrCore a).any (fun n => s.coreOut n) = false := by
    cases hc : csrCore a with
    | none => rfl
    | some n => exact ho n hc
  have hread : (csrRead r a s).2 = s.setWord (regAt a) (afterRead (regFields (regAt a)) (s.word (regAt a))) := by
    rw [csrRead_rest hp, if_neg (by simp [hn, hh, hout]), if_pos hany]
  rw [csrReadHalf_rest hp, if_pos hany, State.fld_setWord_same _ _ _ _ hfit, Fld.of_withHalf_mine hfit hm, hread,
    State.word_setWord_same, Fld.of, bitsOf_mod _ _ _ _ hfit.2 hfit.1]
  exact of_afterRead (regFields_ok _) hf hrc _

/-! ### What the commands answer -/

theorem answers_csrWrite (h : s.Open r a) {v : Word} {t : State} (e : csrWrite r a v.toNat s = t) :
    Answers (.csrWrite r a v) s t := e ▸ h.runCsr_eq _

theorem answers_halfWrite (h : s.Open r a) {hi : Bool} {v : W32} {t : State} (e : halfWrite r a hi v.toNat s = t) :
    Answers (.atomicHalfWrite r a hi v) s t := e ▸ h.runCsr_eq _

theorem answers_halfRead (h : s.Open r a) {hi : Bool} {t : State} (e : halfRead r a hi s = t) :
    Answers (.atomicHalfRead r a hi) s t := e ▸ h.runCsr_eq _

/-- An access of another size or alignment is answered as Unsupported Request (R13). -/
theorem answers_unsupported (hd : s.dead = false) {size : Nat} (w : Bool)
    (h : ¬ ((size = 8 ∧ a % 8 = 0) ∨ (size = 4 ∧ a % 4 = 0))) :
    Answers (.csrUnsupportedAccess a size w) s { s with reply := some ⟨0, 1⟩ } := by
  have hexec : exec (.csrUnsupportedAccess a size w) s =
      run (fun s => if (size = 8 ∧ a % 8 = 0) ∨ (size = 4 ∧ a % 4 = 0) then s else noAnswer 1 s) s := rfl
  rw [Answers, hexec, run_live hd, if_neg h]
  rfl

section
variable {who : Nat} (hw : halfIdx r = some who)
include hw

/-- The low half of an atomic register is held (R14). -/
theorem halfWrite_low (hat : regAtomic (regAt a) = true) (v : Nat) :
    halfWrite r a false v s =
      { s with heldLow := (s.heldLow.filter fun h => h.1 != who) ++ [(who, a, BitVec.ofNat 32 v)] } := by
  simp [halfWrite, hw, hat]

/-- The high half of an atomic register writes both (R14). -/
theorem halfWrite_high (hat : regAtomic (regAt a) = true) {lo : W32} (hl : halfOf s.heldLow who a = some lo) (v : Nat) :
    halfWrite r a true v s = csrWrite r a (v * 2 ^ 32 + lo.toNat) { s with heldLow := dropHalf s.heldLow who a } := by
  simp [halfWrite, hw, hat, hl]

theorem halfWrite_high_effect (hat : regAtomic (regAt a) = true) {lo : W32} (hl : halfOf s.heldLow who a = some lo)
    (hn : regAt a ≠ .none) (hh : rawHidden s (regAt a) = false) (ho : s.InService a) (v : Nat) :
    halfWrite r a true v s =
      csrEffect r (regAt a) (v * 2 ^ 32 + lo.toNat) { s with heldLow := dropHalf s.heldLow who a } := by
  have hh' := (rawHidden_heldLow s (dropHalf s.heldLow who a) (regAt a)).trans hh
  have ho' : State.InService { s with heldLow := dropHalf s.heldLow who a } a := ho
  rw [halfWrite_high hw hat hl, csrWrite_effect hn hh' ho']

/-- A half of another register is written at once (R13). -/
theorem halfWrite_plain (hat : regAtomic (regAt a) = false) (hi : Bool) (v : Nat) :
    halfWrite r a hi v s = plainHalf r a hi v s := by
  simp [halfWrite, hw, hat]

/-- The high half takes the latch (R14). -/
theorem halfRead_latched {h : W32} (hl : halfOf s.latchHigh who a = some h) :
    halfRead r a true s = { s with reply := some ⟨h.toNat, 0⟩, latchHigh := dropHalf s.latchHigh who a } := by
  simp [halfRead, hw, hl]

/-- The low half of an atomic register latches the high half (R14). -/
theorem halfRead_low (hat : regAtomic (regAt a) = true) :
    halfRead r a false s =
      let u := (csrReadHalf r a false s).2
      { u with
        reply := some ⟨(csrRead r a s).1 % 2 ^ 32, 0⟩
        latchHigh := (u.latchHigh.filter fun h => h.1 != who) ++
          [(who, a, BitVec.ofNat 32 ((csrRead r a s).1 / 2 ^ 32))] } := by
  simp [halfRead, hw, hat, csrReadHalf]

/-- A half of another register is read (R13). -/
theorem halfRead_plain (hat : regAtomic (regAt a) = false) {hi : Bool}
    (hl : hi = true → halfOf s.latchHigh who a = none) :
    halfRead r a hi s =
      { (csrReadHalf r a hi s).2 with reply := some ⟨wordHalf hi (csrRead r a s).1, 0⟩ } := by
  cases hi
  · simp [halfRead, hw, hat, csrReadHalf, wordHalf]
  · simp [halfRead, hw, hl rfl, csrReadHalf, wordHalf]

end

/-- A 64-bit write of a register without behaviour of its own, field by field (R10). -/
theorem answers_csrWrite_plain (h : s.Open r a) (hp : plainReg (regAt a) = true)
    (hh : rawHidden s (regAt a) = false) (ho : s.InService a) (v : Word) :
    ∃ t, Answers (.csrWrite r a v) s t ∧ s.OnlyRegs t [regAt a] ∧ ∀ f ∈ regFields (regAt a),
      t.fld (regAt a) f.fld = f.acc.after f.fld.top (s.fld (regAt a) f.fld) (f.fld.of v.toNat) :=
  ⟨_, answers_csrWrite h (csrWrite_plain hp hh ho _), onlyRegs_plainWrite (onlyRegs_refl ..) (by simp),
    fun _ hf => State.fld_plainWrite _ _ _ hf⟩

/-- A half write of a register without behaviour of its own, field by field (R13). -/
theorem answers_halfWrite_plain (h : s.Open r a) {who : Nat} (hw : halfIdx r = some who)
    (hat : regAtomic (regAt a) = false) (hp : plainReg (regAt a) = true) (hh : rawHidden s (regAt a) = false)
    (ho : s.InService a) (hi : Bool) (v : W32) :
    ∃ t, Answers (.atomicHalfWrite r a hi v) s t ∧ s.OnlyRegs t [regAt a] ∧
      ∀ f ∈ regFields (regAt a), f.fld.lo / 32 = f.fld.hi / 32 →
        ((f.fld.lo / 32 = 1 ↔ hi = true) → t.fld (regAt a) f.fld =
          f.acc.after f.fld.top (s.fld (regAt a) f.fld) (f.fld.of (halfInPlace hi v.toNat))) ∧
        (¬ (f.fld.lo / 32 = 1 ↔ hi = true) → t.fld (regAt a) f.fld = s.fld (regAt a) f.fld) := by
  refine ⟨_, answers_halfWrite h ((halfWrite_plain hw hat ..).trans (plainHalf_plain hp hh ho ..)),
    onlyRegs_plainHalfWrite .., fun f hf hsame => ?_⟩
  rcases Fld.inHalf_of_same ((regFields_ok _).1 f hf) hsame hi with ⟨hmine, hm⟩ | ⟨hmine, hm⟩
  · exact ⟨fun _ => fld_plainHalfWrite_mine hp s hi _ hf hm, fun hc => absurd hmine hc⟩
  · exact ⟨fun hc => absurd hc hmine, fun _ => fld_plainHalfWrite_other hp s hi _ hf hm⟩

/-- A low half read of an atomic register (R14). -/
theorem answers_halfRead_low (h : s.Open r a) {who : Nat} (hw : halfIdx r = some who)
    (hat : regAtomic (regAt a) = true) :
    ∃ t, Answers (.atomicHalfRead r a false) s t ∧ t.reply = some ⟨(csrRead r a s).1 % 2 ^ 32, 0⟩ ∧
      halfOf t.latchHigh who a = some (BitVec.ofNat 32 ((csrRead r a s).1 / 2 ^ 32)) ∧
      t = { (csrReadHalf r a false s).2 with reply := t.reply, latchHigh := t.latchHigh } :=
  ⟨_, answers_halfRead h (halfRead_low hw hat), rfl, halfOf_noted .., rfl⟩

end

/-- Settles O33: the access reaches its register with nothing due, and each clause is what the model's access does
to the register's word, field by field. -/
theorem csrAccessesFollowTheAccessCodes : Obligations.CsrAccessesFollowTheAccessCodes := by
  intro s r a hd hr hs hc reg half open_
  have h : s.Open r a := ⟨hd, hr, hs, hc⟩
  refine ⟨fun v hn => answers_csrWrite h (csrWrite_absent hn _), fun v hn hh => ⟨?_, ?_, ?_⟩,
    fun size w hz => answers_unsupported hd w hz, fun who v hw => ⟨?_, ?_, ?_, ?_, ?_, ?_⟩⟩
  · exact fun n hcore hout => answers_csrWrite h (csrWrite_out hn hh hcore hout _)
  · exact fun ho => answers_csrWrite h (csrWrite_effect hn hh ho _)
  · intro ho hp
    obtain ⟨t, ht, honly, hfld⟩ := answers_csrWrite_plain h hp hh ho v
    refine ⟨t, ht, honly, fun f hf => ?_⟩
    rw [hfld f hf]
    refine ⟨fun ha => Acc.after_rw ha .., fun ha => Acc.after_w1c ha .., fun ha => Acc.after_w1s ha .., fun ha => ?_⟩
    exact Acc.after_of_not_stored ha ..
  · exact fun hat => answers_halfWrite h (halfWrite_low hw hat _)
  · intro hat lo hl hh ho hn
    exact answers_halfWrite h (halfWrite_high_effect hw hat hl hn hh ho _)
  · intro hat hp hh ho hi
    obtain ⟨t, ht, honly, hfld⟩ := answers_halfWrite_plain h hw hat hp hh ho hi v
    refine ⟨t, ht, honly, fun f hf hsame => ?_⟩
    obtain ⟨hmine, hother⟩ := hfld f hf hsame
    exact ⟨fun ha hm => (hmine hm).trans (Acc.after_rw ha ..), fun ha hm => (hmine hm).trans (Acc.after_w1c ha ..),
      fun ha hm => (hmine hm).trans (Acc.after_w1s ha ..), hother⟩
  · exact fun hat => answers_halfRead_low h hw hat
  · intro hat hi hl
    refine ⟨answers_halfRead h (halfRead_plain hw hat hl), fun hp => ⟨?_, ?_, ?_⟩⟩
    · exact .inr (onlyRegs_csrReadHalf hp hi)
    · exact csrReadHalf_other hp hi
    · exact fun hn hh ho f hf hrc hlo hhi => csrReadHalf_clears hp hn hh ho hf hrc ⟨hlo, hhi⟩
  · exact fun l hl => answers_halfRead h (halfRead_latched hw hl)

end Sys2Proof.Machine
end

section
/-! PROOFS. Scale slots (O1): which fields a landed statistic, a written SS_PARAM or SS_CENTER and a CLEAR leave alone,
what a commit in progress holds back, and what its end applies. -/

namespace Sys2Proof.Machine

/-- A command that runs with the device running answers its meaning. -/
theorem answers_run {c : Instr} {f : State → State} {s : State} (hd : s.dead = false) (h : exec c s = run f s) :
    Answers c s (f s) := h.trans (run_live hd)

/-- A frame that lists more registers holds too. -/
theorem regsBut_mono {s t : State} {rs rs' : List Reg} (h : s.RegsBut t rs) (hs : rs ⊆ rs') : s.RegsBut t rs' :=
  fun a ha => h a fun hm => ha (List.map_subset regAddr hs hm)

/-! ### The registers of the slots -/

section
variable {i n : Nat}

theorem ssParam_ne_ssCenter : regAddr (.ssParam n) ≠ regAddr (.ssCenter i) := by
  simp only [regAddr]
  omega
theorem ssParam_ne_ssCur : regAddr (.ssParam n) ≠ regAddr (.ssCur i) := by
  simp only [regAddr]
  omega
theorem ssCenter_ne_ssCur : regAddr (.ssCenter n) ≠ regAddr (.ssCur i) := by
  simp only [regAddr]
  omega
theorem ssParam_ne_of_slot_ne (h : n ≠ i) : regAddr (.ssParam n) ≠ regAddr (.ssParam i) := by
  simp only [regAddr]
  omega

end

/-! ### Statistics that land (R41) -/

section
variable {s : State} {r : Reg} {f : Fld}

theorem fld_report (hr : ∀ i, regAddr r ≠ regAddr (.ssCur i)) (i : Nat) (a : Option Nat) :
    (s.report i a).fld r f = s.fld r f := by
  cases a with
  | none => rfl
  | some a => rw [State.report, State.fld_setFld_other _ _ _ _ (hr i), State.fld_setFld_other _ _ _ _ (hr i)]

theorem fld_slotNan_other {i : Nat} (hr : regAddr r ≠ regAddr (.ssParam i)) (seen : Bool) :
    (s.slotNan i seen).fld r f = s.fld r f := by
  cases seen with
  | false => rfl
  | true => exact State.fld_setFld_other s _ _ _ hr

/-- NAN_SEEN of any slot leaves CONST of every slot. -/
theorem const_slotNan (n i : Nat) (seen : Bool) :
    (s.slotNan i seen).fld (.ssParam n) F.ssParamConst = s.fld (.ssParam n) F.ssParamConst := by
  by_cases h : n = i
  · subst h
    cases seen with
    | false => rfl
    | true => exact State.fld_setFld_disjoint s _ _ _ _ (by decide) (by decide) (by decide)
  · exact fld_slotNan_other (ssParam_ne_of_slot_ne h) seen

/-- What every single report leaves alone, those that land leave alone. -/
theorem fld_landReports
    (h : ∀ (t : State) (q : SlotReport), ((t.report q.slot q.amax).slotNan q.slot q.nan).fld r f = t.fld r f) :
    (landReports s).fld r f = s.fld r f := by
  unfold landReports
  split
  · exact List.foldlRecOn (motive := fun t : State => t.fld r f = s.fld r f) _ _ rfl
      fun t ht q _ => (h t q).trans ht
  · rfl

theorem fld_landReports_ssCenter (n : Nat) : (landReports s).fld (.ssCenter n) f = s.fld (.ssCenter n) f :=
  fld_landReports fun _ _ =>
    (fld_slotNan_other ssParam_ne_ssCenter.symm _).trans (fld_report (fun _ => ssCenter_ne_ssCur) ..)

theorem const_landReports (n : Nat) :
    (landReports s).fld (.ssParam n) F.ssParamConst = s.fld (.ssParam n) F.ssParamConst :=
  fld_landReports fun _ _ => (const_slotNan ..).trans (fld_report (fun _ => ssParam_ne_ssCur) ..)

end

/-! ### CLEAR (R39) -/

section
variable (n : Nat) (s : State)

theorem onlyRegs_clearSlot : s.OnlyRegs (clearSlot n s) [.ssCenter n, .ssCur n] :=
  onlyRegs_setWord (onlyRegs_setFld (onlyRegs_setFld (onlyRegs_refl ..) (by simp)) (by simp)) (by simp)

theorem clearSlot_cleared :
    (clearSlot n s).fld (.ssCenter n) F.ssCenterCount = 0 ∧ (clearSlot n s).fld (.ssCenter n) F.ssCenterHead = 0 ∧
    (clearSlot n s).fld (.ssCur n) F.ssCurCurAmax = 0 ∧ (clearSlot n s).fld (.ssCur n) F.ssCurReported = 0 := by
  refine ⟨?_, ?_, State.fld_setWord_same _ _ _ _ (by decide), State.fld_setWord_same _ _ _ _ (by decide)⟩
  · rw [clearSlot, State.fld_setWord_other _ _ _ ssCenter_ne_ssCur,
      State.fld_setFld_disjoint _ _ _ _ _ (by decide) (by decide) (by decide), State.fld_setFld_same _ _ _ _ (by decide),
      Nat.zero_mod]
  · rw [clearSlot, State.fld_setWord_other _ _ _ ssCenter_ne_ssCur, State.fld_setFld_same _ _ _ _ (by decide),
      Nat.zero_mod]

variable {n s} in
/-- A CLEAR keeps the fields of SS_CENTER that share no bit with COUNT and HEAD. -/
theorem fld_clearSlot {f : Fld} (hf : f.fits) (hcount : F.ssCenterCount.apart f) (hhead : F.ssCenterHead.apart f) :
    (clearSlot n s).fld (.ssCenter n) f = s.fld (.ssCenter n) f := by
  rw [clearSlot, State.fld_setWord_other _ _ _ ssCenter_ne_ssCur,
    State.fld_setFld_disjoint _ _ _ _ _ (by decide) hf hhead, State.fld_setFld_disjoint _ _ _ _ _ (by decide) hf hcount]

theorem center_clearSlot :
    (clearSlot n s).fld (.ssCenter n) F.ssCenterCenter = s.fld (.ssCenter n) F.ssCenterCenter :=
  fld_clearSlot (by decide) (by decide) (by decide)

theorem steps_clearSlot :
    (clearSlot n s).fld (.ssCenter n) F.ssCenterSteps = s.fld (.ssCenter n) F.ssCenterSteps :=
  fld_clearSlot (by decide) (by decide) (by decide)

end

/-! ### Writes as they take effect (R39) -/

/-- The fields of SS_PARAM that a write stores. -/
def ssParamStored : List Fld :=
  [F.ssParamScale, F.ssParamZp, F.ssParamShift, F.ssParamEtype, F.ssParamHlen]

section
variable (n : Nat) (v : Word) (s : State)

theorem ssParamStored_rw : ∀ f ∈ ssParamStored, ∃ g ∈ regFields (.ssParam n), g.fld = f ∧ g.acc = .rw :=
  of_decide_eq_true rfl

/-- Each field after a write of SS_PARAM, by its access code (R10). -/
theorem fld_applyParam {f : FldSpec} (hf : f ∈ regFields (.ssParam n)) :
    (applyParam n v s).fld (.ssParam n) f.fld =
      f.acc.after f.fld.top (s.fld (.ssParam n) f.fld) (f.fld.of v.toNat) :=
  State.fld_plainWrite (s.ctlWritten (.ssParam n)) (.ssParam n) v.toNat hf

theorem stored_applyParam {f : Fld} (hf : f ∈ ssParamStored) :
    (applyParam n v s).fld (.ssParam n) f = f.of v.toNat := by
  obtain ⟨g, hg, rfl, hacc⟩ := ssParamStored_rw n f hf
  rw [fld_applyParam n v s hg, Acc.after_rw hacc]

theorem const_applyParam :
    (applyParam n v s).fld (.ssParam n) F.ssParamConst = s.fld (.ssParam n) F.ssParamConst :=
  fld_applyParam n v s (f := ⟨F.ssParamConst, .ro, 0⟩) (by simp [regFields])

/-- NAN_SEEN is cleared by a 1 (R36). -/
theorem nanSeen_applyParam :
    (applyParam n v s).bit (.ssParam n) F.ssParamNanSeen =
      (s.bit (.ssParam n) F.ssParamNanSeen && !v.toNat.testBit 9) := by
  have hafter : (applyParam n v s).fld (.ssParam n) F.ssParamNanSeen =
      s.fld (.ssParam n) F.ssParamNanSeen &&& (1 - F.ssParamNanSeen.of v.toNat) :=
    fld_applyParam n v s (f := ⟨F.ssParamNanSeen, .w1c, 0⟩) (by simp [regFields])
  have hold : s.fld (.ssParam n) F.ssParamNanSeen < 2 := State.fld_lt ..
  have hbit : F.ssParamNanSeen.of v.toNat = (v.toNat.testBit 9).toNat := by
    rw [Nat.toNat_testBit]
    rfl
  rw [State.bit, State.bit, hafter, hbit]
  interval_cases s.fld (.ssParam n) F.ssParamNanSeen <;> cases v.toNat.testBit 9 <;> rfl

theorem badCtl_applyParam : (applyParam n v s).badCtl (.ssParam n) = false := by
  simp [applyParam, State.badCtl, State.ctlWritten]

theorem regsBut_applyParam : s.RegsBut (applyParam n v s) [.ssParam n] :=
  regsBut_setWord (t := s.ctlWritten (.ssParam n)) (fun _ _ => rfl) (by simp)

theorem onlyRegs_applyCenter : s.OnlyRegs (applyCenter n v s) [.ssCenter n, .ssCur n] := by
  obtain ⟨hregs, hrest⟩ := onlyRegs_clearSlot n (s.plainWrite (.ssCenter n) v.toNat)
  refine ⟨fun a ha => (hregs a ha).trans ?_, hrest⟩
  exact regsBut_setWord (regsBut_refl s [.ssCenter n, .ssCur n]) (by simp) a ha

theorem applyCenter_parity : (applyCenter n v s).parity = s.parity := rfl
theorem applyCenter_slotNow : (applyCenter n v s).slotNow = s.slotNow := rfl

theorem center_applyCenter :
    (applyCenter n v s).fld (.ssCenter n) F.ssCenterCenter = F.ssCenterCenter.of v.toNat :=
  (center_clearSlot ..).trans
    (State.fld_plainWrite s (.ssCenter n) v.toNat (f := ⟨F.ssCenterCenter, .rw, 0⟩) (by simp [regFields]))

theorem steps_applyCenter :
    (applyCenter n v s).fld (.ssCenter n) F.ssCenterSteps = s.fld (.ssCenter n) F.ssCenterSteps :=
  (steps_clearSlot ..).trans
    (State.fld_plainWrite s (.ssCenter n) v.toNat (f := ⟨F.ssCenterSteps, .ro, 0⟩) (by simp [regFields]))

end

/-! ### Writes outside and during a commit (R44) -/

section
variable {n : Nat} {s : State}

/-- Outside a commit a write takes effect at once, noted for a commit of the same cycle. -/
theorem slotWrite_free (h : s.commitOf n = none) (center : Bool) (v : Word) :
    slotWrite n center v s =
      if center then applyCenter n v (noteSlotWrite n center v (landReports s))
      else applyParam n v (noteSlotWrite n center v (landReports s)) := by
  simp only [slotWrite, h]

theorem applyParam_noted_rest (n : Nat) (v : Word) (s : State) :
    let t := applyParam n v (noteSlotWrite n false v s)
    t = { s with regs := t.regs, slotNow := t.slotNow, parity := t.parity } := rfl

theorem applyCenter_noted_rest (n : Nat) (v : Word) (s : State) :
    let t := applyCenter n v (noteSlotWrite n true v s)
    t = { s with regs := t.regs, slotNow := t.slotNow } := by
  dsimp only
  rw [applyCenter_slotNow]
  exact (onlyRegs_applyCenter n v (noteSlotWrite n true v s)).2

/-- The commits in progress with one more write held by that of slot n. -/
def holdWrite (n : Nat) (w : Bool × Word) (cs : List CommitRec) : List CommitRec :=
  cs.map fun c => if c.slot == n then { c with held := c.held ++ [w] } else c

/-- During a commit a write is held. -/
theorem slotWrite_committing {c : CommitRec} (h : s.commitOf n = some c) (center : Bool) (v : Word) :
    slotWrite n center v s = { s with commits := holdWrite n (center, v) s.commits } := by
  simp only [slotWrite, h, holdWrite]

theorem commitOf_holdWrite {c : CommitRec} (h : s.commitOf n = some c) (w : Bool × Word) :
    ({ s with commits := holdWrite n w s.commits } : State).commitOf n = some { c with held := c.held ++ [w] } := by
  have hslot : (c.slot == n) = true := List.find?_some (p := fun c : CommitRec => c.slot == n) h
  have hsame : ((fun c : CommitRec => c.slot == n) ∘
      fun c => if c.slot == n then { c with held := c.held ++ [w] } else c) = fun c => c.slot == n := by
    funext c
    simp only [Function.comp]
    split <;> rfl
  have hfind : s.commits.find? (fun c => c.slot == n) = some c := h
  rw [State.commitOf, holdWrite, List.find?_map, hsame, hfind, Option.map_some, if_pos hslot]

end

/-! ### The end of a commit (R44) -/

/-- A held write takes effect. -/
def applyHeld (n : Nat) (s : State) (w : Bool × Word) : State :=
  if w.1 then applyCenter n w.2 s else applyParam n w.2 s

/-- The commit of slot n is over, at its time or later. -/
def endCommit (n ends : Nat) (s : State) : State :=
  { s.advance ends with commits := s.commits.filter fun d => d.slot != n }

/-- Of the registers only the slot's differ, and of the rest only what marks a valid slot. -/
def State.OnlySlot (s t : State) (n : Nat) : Prop :=
  s.RegsBut t [.ssParam n, .ssCenter n, .ssCur n] ∧ t = { s with regs := t.regs, parity := t.parity }

section
variable {n : Nat} {s t : State}

theorem commitComplete_some {c : CommitRec} (h : s.commitOf n = some c) :
    commitComplete n s = c.held.foldl (applyHeld n) (endCommit n c.ends s) := by
  simp only [commitComplete, h]
  rfl

theorem commitOf_endCommit (n ends : Nat) (s : State) : (endCommit n ends s).commitOf n = none := by
  simp [State.commitOf, endCommit]

theorem State.OnlySlot.refl (s : State) (n : Nat) : s.OnlySlot s n := ⟨regsBut_refl _ _, rfl⟩

theorem State.OnlySlot.trans {u : State} (h : s.OnlySlot t n) (k : t.OnlySlot u n) : s.OnlySlot u n := by
  obtain ⟨hregs, hrest⟩ := h
  obtain ⟨kregs, krest⟩ := k
  exact ⟨fun a ha => (kregs a ha).trans (hregs a ha), by rw [krest, hrest]⟩

theorem onlySlot_applyHeld (n : Nat) (s : State) (w : Bool × Word) : s.OnlySlot (applyHeld n s w) n := by
  obtain ⟨center, v⟩ := w
  cases center with
  | false => exact ⟨regsBut_mono (regsBut_applyParam n v s) (by simp), rfl⟩
  | true =>
    obtain ⟨hregs, hrest⟩ := onlyRegs_applyCenter n v s
    refine ⟨regsBut_mono hregs (by simp), ?_⟩
    rw [applyHeld, if_pos rfl, applyCenter_parity]
    exact hrest

/-- Held writes leave everything but their slot alone. -/
theorem onlySlot_foldl (s : State) (ws : List (Bool × Word)) : s.OnlySlot (ws.foldl (applyHeld n) s) n :=
  List.foldlRecOn (motive := fun t => s.OnlySlot t n) ws _ (.refl s n)
    fun t ht w _ => ht.trans (onlySlot_applyHeld n t w)

end

/-! ### Writes of SS_CTRL (R42), and what they do on a slot whose parity has failed (R477) -/

section
variable {n : Nat} {s : State}

theorem slotCtrl_bad (h : s.badCtl (.ssParam n) = true) (v : Nat) : slotCtrl n v s = ctlFail s := if_pos h

theorem slotCtrl_clear (h : s.badCtl (.ssParam n) = false) : slotCtrl n 2 s = clearSlot n (landReports s) := by
  rw [slotCtrl, h]
  rfl

theorem onlyRegs_adviseUp (rung code : Nat) (s : State) : s.OnlyRegs (adviseUp rung code s) [.hifAdvice] := by
  unfold adviseUp
  split
  · exact onlyRegs_setFld (onlyRegs_setFld (onlyRegs_refl ..) (by simp)) (by simp)
  · exact onlyRegs_refl ..

/-- Advice changes its register and the record of what calls for it (R503). -/
theorem advise_keeps (rung code : Nat) (s : State) :
    s.RegsBut (s.advise rung code) [.hifAdvice] ∧
    s.advise rung code = { s with regs := (s.advise rung code).regs, chip := (s.advise rung code).chip } := by
  unfold State.advise
  dsimp only
  split
  · obtain ⟨hregs, hrest⟩ := onlyRegs_adviseUp rung code
      { s with chip := { s.chip with rung1 := s.chip.rung1 ++ [code] } }
    exact ⟨hregs, by rw [hrest]⟩
  · obtain ⟨hregs, hrest⟩ := onlyRegs_adviseUp rung code
      { s with chip := { s.chip with rungs := s.chip.rungs ++ [(rung, code)] } }
    exact ⟨hregs, by rw [hrest]⟩

/-- An operation on an invalid entry raises one event and calls for rung 1 (R477, R503). -/
theorem ctlFail_raises (s : State) :
    s.RegsButErr (ctlFail s) [.hifAdvice] ∧
    ctlFail s = { s with regs := (ctlFail s).regs, msixSent := (ctlFail s).msixSent, chip := (ctlFail s).chip } ∧
    (ctlFail s).fld .errHead F.errHeadSeq = (s.fld .errHead F.errHeadSeq + 1) % 2 ^ 32 := by
  obtain ⟨hseq, hkept, hrest⟩ := errorRaised_raise s (e := sramErr (srcOf 6 0 1) 6) rfl
  obtain ⟨hregs, hchip⟩ := advise_keeps 1 ecDetectSram (s.raise (sramErr (srcOf 6 0 1) 6))
  refine ⟨fun a ha h1 h2 => (hregs a ha).trans (hkept a (by simp) h1 h2), ?_, ?_⟩
  · rw [ctlFail]
    generalize s.raise (sramErr (srcOf 6 0 1) 6) = t at *
    generalize t.advise 1 ecDetectSram = u at *
    rw [hchip, hrest]
  · rw [← hseq]
    exact congrArg F.errHeadSeq.of (RegsBut.word hregs (by decide))

end

/-! ### What the commands answer -/

section
variable {s : State} (hd : s.dead = false) (n : SlotId) (v : Word)
include hd

/-- SS_PARAM written outside a commit. -/
theorem answers_ssParamWrite_free (h : s.commitOf n = none) :
    ∃ t, Answers (.ssParamWrite n v) s t ∧ (landReports s).RegsBut t [.ssParam n] ∧
      t = { landReports s with regs := t.regs, slotNow := t.slotNow, parity := t.parity } ∧
      t.badCtl (.ssParam n) = false ∧
      (∀ f ∈ ssParamStored, t.fld (.ssParam n) f = f.of v.toNat) ∧
      t.fld (.ssParam n) F.ssParamConst = s.fld (.ssParam n) F.ssParamConst ∧
      (t.bit (.ssParam n) F.ssParamNanSeen =
        ((landReports s).bit (.ssParam n) F.ssParamNanSeen && !v.toNat.testBit 9)) := by
  refine ⟨_, answers_run hd rfl, ?_⟩
  rw [slotWrite_free h, if_neg Bool.false_ne_true]
  exact ⟨regsBut_applyParam n v (noteSlotWrite n false v (landReports s)), applyParam_noted_rest .., badCtl_applyParam ..,
    fun _ hf => stored_applyParam _ _ _ hf,
    (const_applyParam ..).trans (const_landReports n.val), nanSeen_applyParam ..⟩

/-- SS_CENTER written outside a commit. -/
theorem answers_ssCenterWrite_free (h : s.commitOf n = none) :
    ∃ t, Answers (.ssCenterWrite n v) s t ∧ (landReports s).RegsBut t [.ssCenter n, .ssCur n] ∧
      t = { landReports s with regs := t.regs, slotNow := t.slotNow } ∧
      t.fld (.ssCenter n) F.ssCenterCenter = F.ssCenterCenter.of v.toNat ∧
      t.fld (.ssCenter n) F.ssCenterCount = 0 ∧ t.fld (.ssCenter n) F.ssCenterHead = 0 ∧
      t.fld (.ssCur n) F.ssCurCurAmax = 0 ∧ t.fld (.ssCur n) F.ssCurReported = 0 ∧
      t.fld (.ssCenter n) F.ssCenterSteps = s.fld (.ssCenter n) F.ssCenterSteps := by
  refine ⟨_, answers_run hd rfl, ?_⟩
  rw [slotWrite_free h, if_pos rfl]
  obtain ⟨hcount, hhead, hamax, hrep⟩ :=
    clearSlot_cleared n ((noteSlotWrite n true v (landReports s)).plainWrite (.ssCenter n) v.toNat)
  exact ⟨(onlyRegs_applyCenter n v (noteSlotWrite n true v (landReports s))).1, applyCenter_noted_rest ..,
    center_applyCenter .., hcount, hhead, hamax, hrep, (steps_applyCenter ..).trans (fld_landReports_ssCenter n.val)⟩

/-- The end of a commit. -/
theorem answers_ssCommitComplete {c : CommitRec} (h : s.commitOf n = some c) :
    ∃ t, Answers (.ssCommitComplete n) s t ∧ t.commitOf n = none ∧ c.ends ≤ t.now ∧
      s.RegsBut t [.ssParam n, .ssCenter n, .ssCur n] ∧
      t = { s with now := t.now, commits := t.commits, regs := t.regs, parity := t.parity } ∧
      (c.held = [] → t.regs = s.regs) ∧
      (∀ ws w, c.held = ws ++ [(false, w)] → ∀ f ∈ ssParamStored, t.fld (.ssParam n) f = f.of w.toNat) ∧
      (∀ ws w, c.held = ws ++ [(true, w)] →
        t.fld (.ssCenter n) F.ssCenterCenter = F.ssCenterCenter.of w.toNat ∧
        t.fld (.ssCenter n) F.ssCenterCount = 0) := by
  refine ⟨_, answers_run hd rfl, ?_⟩
  rw [commitComplete_some h]
  obtain ⟨hregs, hrest⟩ := onlySlot_foldl (n := n) (endCommit n c.ends s) c.held
  refine ⟨?_, ?_, hregs, ?_, fun he => ?_, fun ws w he => ?_, fun ws w he => ?_⟩
  · rw [hrest]
    exact commitOf_endCommit n c.ends s
  · rw [hrest]
    exact le_max_right ..
  · rw [hrest]
    rfl
  · rw [he]
    rfl
  · rw [he, List.foldl_append]
    exact fun _ hf => stored_applyParam _ _ _ hf
  · rw [he, List.foldl_append]
    exact ⟨center_applyCenter .., (clearSlot_cleared ..).1⟩

end

/-- Settles O1: the fields of the slot's registers share no bit and the registers no address, so each clause follows from
what CLEAR, a write and the landing of statistics each store; a commit's end applies the held writes one by one. -/
theorem slotWritesClearAndHold : Obligations.SlotWritesClearAndHold := by
  intro s n v hd
  refine ⟨fun hbad => ?_, fun hok => ?_, fun h => ?_, fun c h => ⟨?_, ?_, ?_⟩⟩
  · refine ⟨ctlFail s, ?_, ?_, ctlFail_raises s⟩
    · exact slotCtrl_bad hbad 2 ▸ answers_run hd rfl
    · exact slotCtrl_bad hbad 1 ▸ answers_run hd rfl
  · obtain ⟨hcount, hhead, hamax, hrep⟩ := clearSlot_cleared n (landReports s)
    exact ⟨_, slotCtrl_clear hok ▸ answers_run hd rfl, onlyRegs_clearSlot .., hcount, hhead, hamax, hrep,
      (center_clearSlot ..).trans (fld_landReports_ssCenter n.val),
      (steps_clearSlot ..).trans (fld_landReports_ssCenter n.val)⟩
  · exact ⟨answers_ssParamWrite_free hd n v h, answers_ssCenterWrite_free hd n v h⟩
  · exact ⟨_, slotWrite_committing h false v ▸ answers_run hd rfl, rfl, commitOf_holdWrite h _⟩
  · exact ⟨_, slotWrite_committing h true v ▸ answers_run hd rfl, rfl, commitOf_holdWrite h _⟩
  · exact answers_ssCommitComplete hd n h

end Sys2Proof.Machine
end

section
/-! PROOFS. Cores and engines: what a core, an engine and a register hold after each change of a core, of an engine or of
a register, and the frame of registers along chains and folds of changes. -/

namespace Sys2Proof.Machine

section
variable (s : State) (n m i : Nat) (f : Core → Core) (g : Mxe → Mxe)

@[simp] theorem State.core_modCore_same : (s.modCore n f).core n = f (s.core n) := tabGet_set_same ..
@[simp] theorem State.mxe_modMxe_same : (s.modMxe n m g).mxe n m = g (s.mxe n m) := by
  simp [State.mxe, State.modMxe, State.setMxe]
theorem State.mxe_modMxe_other {m i : Nat} (h : i ≠ m) : (s.modMxe n m g).mxe n i = s.mxe n i := by
  simp [State.mxe, State.modMxe, State.setMxe, tabGet_set_other _ _ _ h]
@[simp] theorem State.core_modMxe :
    (s.modMxe n m g).core n = { s.core n with mxes := tabSet (s.core n).mxes m (g (s.mxe n m)) } :=
  State.core_modCore_same ..

@[simp] theorem State.fld_modMxe (r : Reg) (b : Fld) : (s.modMxe n m g).fld r b = s.fld r b := rfl

end

/-! ### Frames of registers -/

section
variable {s t u : State} {rs : List Reg} {r : Reg}

theorem regsBut_trans (h : s.RegsBut t rs) (k : t.RegsBut u rs) : s.RegsBut u rs :=
  fun a ha => (k a ha).trans (h a ha)

theorem regsBut_setFld {f : Fld} {v : Nat} (h : s.RegsBut t rs) (hr : regAddr r ∈ rs.map regAddr) :
    s.RegsBut (t.setFld r f v) rs := regsBut_setWord h hr

theorem regsBut_foldl {α : Type} {f : State → α → State} {l : List α}
    (h : ∀ (t : State), ∀ a ∈ l, t.RegsBut (f t a) rs) (s : State) : s.RegsBut (l.foldl f s) rs :=
  List.foldlRecOn (motive := fun t => s.RegsBut t rs) l f (regsBut_refl s rs)
    fun t ht a ha => regsBut_trans ht (h t a ha)

/-- A frame of no register is a frame of any. -/
theorem regsBut_of_regs_eq (h : t.regs = s.regs) : s.RegsBut t rs := fun a _ => by rw [h]

theorem RegsBut.fld (h : s.RegsBut t rs) (f : Fld) (hr : regAddr r ∉ rs.map regAddr) : t.fld r f = s.fld r f := by
  simp only [State.fld, RegsBut.word h hr]

theorem word_of_regs_eq (h : t.regs = s.regs) (r : Reg) : t.word r = s.word r := by
  simp only [State.word, h]

theorem fld_of_regs_eq (h : t.regs = s.regs) (r : Reg) (f : Fld) : t.fld r f = s.fld r f := by
  simp only [State.fld, word_of_regs_eq h]

end

end Sys2Proof.Machine
end

section
/-! PROOFS. Writes of a core's own registers and of the test registers (O34). -/

namespace Sys2Proof.Machine

/-! ### Which register an address of a core is -/

theorem inArr_out {off base cnt stride : Nat} (f : Nat → Reg) (d : Reg)
    (h : off < base ∨ base + cnt * stride ≤ off ∨ (off - base) % stride ≠ 0) : inArr off base cnt stride f d = d := by
  have hc : ¬ (base ≤ off ∧ off < base + cnt * stride ∧ (off - base) % stride = 0) := by omega
  simp only [inArr, arrIdx, hc, if_false, Option.map_none, Option.getD_none]

theorem inArr_at {base cnt stride i : Nat} (f : Nat → Reg) (d : Reg) (hs : 0 < stride) (hi : i < cnt) :
    inArr (base + i * stride) base cnt stride f d = f i := by
  have hlt : i * stride < cnt * stride := Nat.mul_lt_mul_of_pos_right hi hs
  have hc : base ≤ base + i * stride ∧ base + i * stride < base + cnt * stride ∧ (base + i * stride - base) % stride = 0 :=
    ⟨by omega, by omega, by simp⟩
  rw [inArr, arrIdx, if_pos hc, Nat.add_sub_cancel_left, Nat.mul_div_cancel _ hs]
  rfl

theorem inArr2_at {base cnt stride cnt2 stride2 i j : Nat} (f : Nat → Nat → Reg) (d : Reg) (hs : 0 < stride2)
    (hf : cnt2 * stride2 ≤ stride) (hi : i < cnt) (hj : j < cnt2) :
    inArr2 (base + i * stride + j * stride2) base cnt stride cnt2 stride2 f d = f i j := by
  have hin : j * stride2 < cnt2 * stride2 := Nat.mul_lt_mul_of_pos_right hj hs
  have hlt : (i + 1) * stride ≤ cnt * stride := Nat.mul_le_mul_right _ hi
  rw [Nat.add_mul, Nat.one_mul] at hlt
  have hsub : base + i * stride + j * stride2 - base = j * stride2 + stride * i := by rw [Nat.mul_comm stride]; omega
  have hmod : (base + i * stride + j * stride2 - base) % stride = j * stride2 := by
    rw [hsub, Nat.add_mul_mod_self_left, Nat.mod_eq_of_lt (by omega)]
  have hdiv : (base + i * stride + j * stride2 - base) / stride = i := by
    rw [hsub, Nat.add_mul_div_left _ _ (by omega), Nat.div_eq_of_lt (by omega), Nat.zero_add]
  have hc : base ≤ base + i * stride + j * stride2 ∧ base + i * stride + j * stride2 < base + cnt * stride ∧
      (base + i * stride + j * stride2 - base) % stride < cnt2 * stride2 ∧
      (base + i * stride + j * stride2 - base) % stride % stride2 = 0 := by
    refine ⟨by omega, by omega, by omega, ?_⟩
    rw [hmod, Nat.mul_mod_left]
  rw [inArr2, arrIdx2, if_pos hc, hmod, hdiv, Nat.mul_div_cancel _ hs]
  rfl

/-- The register at an address of a core's block. -/
theorem regAt_core {n off : Nat} (hn : n < 32) (ho : off < 0x100000) :
    regAt (0x020210000000 + n * 0x100000 + off) = regAtCore n off := by
  have hd : (0x020210000000 + n * 0x100000 + off - 0x020210000000) / 0x100000 = n := by omega
  have hm : (0x020210000000 + n * 0x100000 + off - 0x020210000000) % 0x100000 = off := by omega
  unfold regAt
  rw [if_neg (by omega), if_neg (by omega), if_neg (by omega), if_neg (by omega), if_neg (by omega), if_neg (by omega),
    if_neg (by omega), if_neg (by omega), if_pos (by omega), hd, hm]

theorem regAtCore_mxe {n m off : Nat} (hm : m < 4) (ho : off < 0x4000) :
    regAtCore n (0x10000 + m * 0x4000 + off) = regAtMxe n m off := by
  have hd : (0x10000 + m * 0x4000 + off - 0x10000) / 0x4000 = m := by omega
  have hr : (0x10000 + m * 0x4000 + off - 0x10000) % 0x4000 = off := by omega
  unfold regAtCore
  rw [if_neg (by omega), if_pos (by omega), hd, hr]

theorem regAt_mxe {n m off : Nat} (hn : n < 32) (hm : m < 4) (ho : off < 0x4000) :
    regAt (0x020210010000 + n * 0x100000 + m * 0x4000 + off) = regAtMxe n m off := by
  rw [show 0x020210010000 + n * 0x100000 + m * 0x4000 + off = 0x020210000000 + n * 0x100000 + (0x10000 + m * 0x4000 + off)
    by omega, regAt_core hn (by omega), regAtCore_mxe hm ho]

section
variable (n : CoreId) (m : MxeId) (c : CtxId)

theorem regAt_mxeCfg : regAt (regAddr (.mxeCfg n 0)) = .mxeCfg n 0 := by
  rw [regAddr, ← Nat.add_zero (_ + _ * 0x4000), regAt_mxe n.isLt (by decide) (by decide)]
  rfl

theorem regAt_mxeBypass : regAt (regAddr (.mxeBypass n m)) = .mxeBypass n m := by
  rw [regAddr, regAt_mxe n.isLt m.isLt (by decide)]
  rfl

theorem regAt_ibuf {i : Nat} (h : i < 16384) : regAt (regAddr (.ibuf n i)) = .ibuf n i := by
  rw [show regAddr (.ibuf n i) = 0x020210000000 + n * 0x100000 + (0x80000 + i * 0x8) by simp only [regAddr]; omega,
    regAt_core n.isLt (by omega)]
  unfold regAtCore
  repeat rw [if_neg (by omega)]
  rw [regAtIbuf, show 0x80000 + i * 8 - 0x80000 = 0 + i * 8 by omega, inArr_at _ _ (by decide) h]

theorem regAt_sc {off : Nat} (h : off < 0x10000) : regAt (0x020210000000 + n * 0x100000 + off) = regAtSc n off := by
  rw [regAt_core n.isLt (by omega), regAtCore, if_pos h]

theorem regAtSc_tctxCode : regAtSc n (0x408 + c * 0x40) = .tctxCode n c := by
  unfold regAtSc
  iterate 5 rw [if_neg (by omega)]
  rw [inArr_out _ _ (by omega)]
  exact inArr_at _ _ (by decide) c.isLt

theorem regAtSc_tctxPc : regAtSc n (0x410 + c * 0x40) = .tctxPc n c := by
  unfold regAtSc
  iterate 5 rw [if_neg (by omega)]
  iterate 2 rw [inArr_out _ _ (by omega)]
  exact inArr_at _ _ (by decide) c.isLt

theorem regAtSc_tctxPoison : regAtSc n (0x420 + c * 0x40) = .tctxPoison n c := by
  unfold regAtSc
  iterate 5 rw [if_neg (by omega)]
  iterate 4 rw [inArr_out _ _ (by omega)]
  exact inArr_at _ _ (by decide) c.isLt

theorem regAtSc_tctxReg {i : Nat} (hi : i < 32) : regAtSc n (0x600 + c * 0x100 + i * 0x8) = .tctxReg n c i := by
  have hc := c.isLt
  unfold regAtSc
  iterate 5 rw [if_neg (by omega)]
  iterate 5 rw [inArr_out _ _ (by omega)]
  exact inArr2_at _ _ (by decide) (by decide) hc hi

/-- The registers of a context other than its control word (R336). -/
theorem regAt_tctx {x : TctxReg} (hx : x ≠ .ctl) : regAt (regAddr (tctxRegOf n c x)) = tctxRegOf n c x := by
  have hc := c.isLt
  cases x with
  | ctl => exact absurd rfl hx
  | code => rw [tctxRegOf, regAddr, Nat.add_assoc (_ + _), regAt_sc n (by omega), regAtSc_tctxCode]
  | pc => rw [tctxRegOf, regAddr, Nat.add_assoc (_ + _), regAt_sc n (by omega), regAtSc_tctxPc]
  | poison => rw [tctxRegOf, regAddr, Nat.add_assoc (_ + _), regAt_sc n (by omega), regAtSc_tctxPoison]
  | reg i =>
    have hi := i.isLt
    rw [tctxRegOf, regAddr, Nat.add_assoc (_ + _), Nat.add_assoc (_ + _), regAt_sc n (by omega), ← Nat.add_assoc,
      regAtSc_tctxReg n c hi]

end
end Sys2Proof.Machine
end

section
/-! PROOFS. The configuration of the engines (R65-R68, R86): what a write of MXE_CFG and of MXE_BYPASS that takes effect
leaves in the engines of its core and in their registers. -/

namespace Sys2Proof.Machine

/-- Under an invariant of a fold, what a member of the list establishes and no other member undoes holds at the end. -/
theorem foldl_establishes_within {α β : Type} {f : β → α → β} {P Q : β → Prop} {l : List α} {a : α} (ha : a ∈ l)
    (hQ : ∀ b, ∀ x ∈ l, Q b → Q (f b x)) (hset : ∀ b, Q b → P (f b a))
    (hkeep : ∀ b, ∀ x ∈ l, Q b → P b → P (f b x)) {b : β} (hb : Q b) : P (l.foldl f b) := by
  induction l generalizing b with
  | nil => cases ha
  | cons x l ih =>
    have hrest : ∀ y ∈ l, y ∈ x :: l := fun y hy => List.mem_cons_of_mem _ hy
    have hx : x ∈ x :: l := List.mem_cons_self ..
    rw [List.foldl_cons]
    by_cases hl : a ∈ l
    · exact ih hl (fun b y hy => hQ b y (hrest y hy)) (fun b y hy => hkeep b y (hrest y hy)) (hQ b x hx hb)
    · obtain rfl : a = x := (List.mem_cons.mp ha).resolve_right hl
      exact (List.foldlRecOn (motive := fun b => Q b ∧ P b) l f ⟨hQ b a hx hb, hset b hb⟩
        fun b h y hy => ⟨hQ b y (hrest y hy) h.1, hkeep b y (hrest y hy) h.1 h.2⟩).2

/-- What a member of a list establishes and no other member undoes holds after the fold. -/
theorem foldl_establishes {α β : Type} {f : β → α → β} {P : β → Prop} {l : List α} {a : α} (ha : a ∈ l)
    (hset : ∀ b, P (f b a)) (hkeep : ∀ b, ∀ x ∈ l, x ≠ a → P b → P (f b x)) (b : β) : P (l.foldl f b) := by
  refine foldl_establishes_within (Q := fun _ => True) ha (fun _ _ _ _ => trivial) (fun b _ => hset b)
    (fun b x hx _ hp => ?_) trivial
  by_cases h : x = a
  · exact h ▸ hset b
  · exact hkeep b x hx h hp

/-! ### What changes the engines of one core alone -/

/-- From s to t registers, memory and the engines of core n may have changed, and nothing else. -/
def State.EngineOnly (s t : State) (n : Nat) : Prop :=
  t = { s with regs := t.regs, mem := t.mem, cores := t.cores } ∧
  t.core n = { s.core n with mxes := (t.core n).mxes }

section
variable {s t u : State} {n : Nat}

theorem engineOnly_refl (s : State) (n : Nat) : s.EngineOnly s n := ⟨rfl, rfl⟩
theorem engineOnly_trans (h : s.EngineOnly t n) (k : t.EngineOnly u n) : s.EngineOnly u n := by
  obtain ⟨h1, h2⟩ := h
  obtain ⟨k1, k2⟩ := k
  exact ⟨by rw [k1, h1], by rw [k2, h2]⟩
theorem engineOnly_foldl {α : Type} {f : State → α → State} (h : ∀ (s : State) a, s.EngineOnly (f s a) n) (l : List α)
    (s : State) : s.EngineOnly (l.foldl f s) n :=
  List.foldlRecOn (motive := fun t => s.EngineOnly t n) l f (engineOnly_refl s n)
    fun t ht a _ => engineOnly_trans ht (h t a)
theorem engineOnly_modMxe (s : State) (n m : Nat) (g : Mxe → Mxe) : s.EngineOnly (s.modMxe n m g) n :=
  ⟨rfl, by rw [State.core_modMxe]⟩
theorem engineOnly_setWord (s : State) (n : Nat) (r : Reg) (v : Nat) : s.EngineOnly (s.setWord r v) n := ⟨rfl, rfl⟩
theorem engineOnly_zero (s : State) (n a len : Nat) : s.EngineOnly (s.zero a len) n := ⟨rfl, rfl⟩

theorem EngineOnly.now (h : s.EngineOnly t n) : t.now = s.now := by rw [h.1]
theorem EngineOnly.hif (h : s.EngineOnly t n) : t.hif = s.hif := by rw [h.1]
theorem EngineOnly.cfgHeld (h : s.EngineOnly t n) : (t.core n).cfgHeld = (s.core n).cfgHeld := by rw [h.2]
theorem EngineOnly.stall (h : s.EngineOnly t n) : (t.core n).stall = (s.core n).stall := by rw [h.2]

end

/-! ### Weights and tiles dropped (R68, R99) -/

section
variable (s : State) (n m : Nat)

theorem regsBut_dropWeights : s.RegsBut (s.dropWeights n m) [.mxeStatus n m] :=
  regsBut_setFld (regsBut_setFld (regsBut_of_regs_eq rfl) (by simp)) (by simp)
@[simp] theorem mxe_dropWeights_same : (s.dropWeights n m).mxe n m = invalidateWeights (s.mxe n m) :=
  State.mxe_modMxe_same ..
theorem mxe_dropWeights_other {n m i : Nat} (h : i ≠ m) : (s.dropWeights n m).mxe n i = s.mxe n i :=
  State.mxe_modMxe_other s n _ h
theorem engineOnly_dropWeights : s.EngineOnly (s.dropWeights n m) n :=
  engineOnly_trans (engineOnly_modMxe s n m invalidateWeights)
    (engineOnly_trans (engineOnly_setWord _ n _ _) (engineOnly_setWord _ n _ _))
theorem wvalid_dropWeights : (s.dropWeights n m).fld (.mxeStatus n m) F.mxeStatusWvalid = 0 := by
  rw [State.dropWeights, State.fld_setFld_disjoint _ _ _ _ _ (by decide) (by decide) (by decide),
    State.fld_setFld_same _ _ _ _ (by decide), Nat.zero_mod]
theorem svalid_dropWeights : (s.dropWeights n m).fld (.mxeStatus n m) F.mxeStatusSvalid = 0 := by
  rw [State.dropWeights, State.fld_setFld_same _ _ _ _ (by decide), Nat.zero_mod]

/-- An engine with a tile freed (R99). -/
def Mxe.freed (x : Mxe) (t : Nat) : Mxe :=
  { x.setTile t {} with stale := x.stale.filter fun e => e.tile != t }

@[simp] theorem mxe_freeTile_same (t : Nat) : (s.freeTile n m t).mxe n m = (s.mxe n m).freed t :=
  State.mxe_modMxe_same s n m (Mxe.freed · t)
theorem mxe_freeTile_other {n m i : Nat} (t : Nat) (h : i ≠ m) : (s.freeTile n m t).mxe n i = s.mxe n i :=
  State.mxe_modMxe_other s n (Mxe.freed · t) h
theorem engineOnly_freeTile (t : Nat) : s.EngineOnly (s.freeTile n m t) n :=
  engineOnly_trans (engineOnly_modMxe s n m (Mxe.freed · t)) (engineOnly_zero _ n _ _)
theorem tile_freed (x : Mxe) (t k : Nat) : (x.freed t).tile k = if k = t then {} else x.tile k := tabGet_set ..

/-- One step of `dropOpen`: a tile that is OPEN is freed. -/
def State.dropTile (s : State) (n m t : Nat) : State := if ((s.mxe n m).tile t).st = 1 then s.freeTile n m t else s

theorem dropOpen_eq : s.dropOpen n m = (List.range 8).foldl (fun s t => s.dropTile n m t) s := rfl

theorem engineOnly_dropTile (t : Nat) : s.EngineOnly (s.dropTile n m t) n := by
  unfold State.dropTile
  split
  · exact engineOnly_freeTile ..
  · exact engineOnly_refl ..
theorem engineOnly_dropOpen : s.EngineOnly (s.dropOpen n m) n :=
  engineOnly_foldl (fun s t => engineOnly_dropTile s n m t) _ s

/-- Of the engine that it acts on, `dropOpen` leaves the weights, of the others everything, and no register differs. -/
theorem dropOpen_keeps :
    (s.dropOpen n m).regs = s.regs ∧ ((s.dropOpen n m).mxe n m).active = (s.mxe n m).active ∧
    ((s.dropOpen n m).mxe n m).standby = (s.mxe n m).standby ∧
    ∀ i, i ≠ m → (s.dropOpen n m).mxe n i = s.mxe n i := by
  rw [dropOpen_eq]
  refine List.foldlRecOn (motive := fun t : State => t.regs = s.regs ∧ (t.mxe n m).active = (s.mxe n m).active ∧
    (t.mxe n m).standby = (s.mxe n m).standby ∧ ∀ i, i ≠ m → t.mxe n i = s.mxe n i) _ _
    ⟨rfl, rfl, rfl, fun _ _ => rfl⟩ fun t ht k _ => ?_
  obtain ⟨hregs, hact, hstand, hother⟩ := ht
  unfold State.dropTile
  split
  · rw [mxe_freeTile_same]
    exact ⟨hregs, hact, hstand, fun i hi => (mxe_freeTile_other t k hi).trans (hother i hi)⟩
  · exact ⟨hregs, hact, hstand, hother⟩

theorem tile_dropTile_same (t : Nat) : (((s.dropTile n m t).mxe n m).tile t).st ≠ 1 := by
  unfold State.dropTile
  split
  · rw [mxe_freeTile_same, tile_freed, if_pos rfl]
    decide
  · assumption

theorem tile_dropOpen {k : Nat} (hk : k < 8) : (((s.dropOpen n m).mxe n m).tile k).st ≠ 1 := by
  rw [dropOpen_eq]
  refine foldl_establishes (P := fun t : State => ((t.mxe n m).tile k).st ≠ 1) (List.mem_range.mpr hk)
    (fun t => tile_dropTile_same t n m k) (fun t j _ hj ht => ?_) s
  unfold State.dropTile
  split
  · rw [mxe_freeTile_same, tile_freed, if_neg (Ne.symm hj)]
    exact ht
  · exact ht

end

/-! ### MXE_CFG takes effect (R68, R99) -/

/-- The write changes what an engine computes: its gang or its transposition. -/
def cfgChanges (old v m : Nat) : Bool :=
  decide (F.mxeCfgGang.of old ≠ F.mxeCfgGang.of v) ||
    bitAt (F.mxeCfgTranspose.of old) m != bitAt (F.mxeCfgTranspose.of v) m

/-- What a write of MXE_CFG does to one engine. -/
def cfgEngine (n : Nat) (ch : Nat → Bool) (s : State) (m : Nat) : State :=
  let s := s.modMxe n m fun x => { x with passNo := 0 }
  if ch m then (s.dropWeights n m).dropOpen n m else s

theorem applyCfg_eq (n v : Nat) (s : State) :
    applyCfg n v s = (List.range 4).foldl (cfgEngine n (cfgChanges (s.word (.mxeCfg n 0)) v))
      (s.plainWrite (.mxeCfg n 0) v) := rfl

section
variable (n : Nat) (ch : Nat → Bool) (s : State) (m : Nat)

theorem engineOnly_cfgEngine : s.EngineOnly (cfgEngine n ch s m) n := by
  unfold cfgEngine
  dsimp only
  split
  · exact engineOnly_trans (engineOnly_modMxe ..) (engineOnly_trans (engineOnly_dropWeights ..) (engineOnly_dropOpen ..))
  · exact engineOnly_modMxe ..

theorem regsBut_cfgEngine : s.RegsBut (cfgEngine n ch s m) [.mxeStatus n m] := by
  unfold cfgEngine
  dsimp only
  split
  · exact regsBut_trans (regsBut_dropWeights (s.modMxe n m _) n m) (regsBut_of_regs_eq (dropOpen_keeps _ n m).1)
  · exact regsBut_of_regs_eq rfl

theorem mxe_cfgEngine_other {i : Nat} (h : i ≠ m) : (cfgEngine n ch s m).mxe n i = s.mxe n i := by
  unfold cfgEngine
  dsimp only
  split
  · rw [(dropOpen_keeps _ n m).2.2.2 i h, mxe_dropWeights_other _ h, State.mxe_modMxe_other _ _ _ h]
  · exact State.mxe_modMxe_other _ _ _ h

/-- An engine that has lost its weights and its OPEN tiles. -/
def State.Emptied (s : State) (n m : Nat) : Prop :=
  (s.mxe n m).active = {} ∧ (s.mxe n m).standby = {} ∧ s.fld (.mxeStatus n m) F.mxeStatusWvalid = 0 ∧
  s.fld (.mxeStatus n m) F.mxeStatusSvalid = 0 ∧ ∀ k < 8, ((s.mxe n m).tile k).st ≠ 1

theorem emptied_cfgEngine_same (h : ch m = true) : (cfgEngine n ch s m).Emptied n m := by
  unfold cfgEngine
  dsimp only
  rw [if_pos h]
  obtain ⟨hregs, hact, hstand, -⟩ := dropOpen_keeps ((s.modMxe n m fun x => { x with passNo := 0 }).dropWeights n m) n m
  refine ⟨?_, ?_, ?_, ?_, fun k hk => tile_dropOpen _ n m hk⟩
  · rw [hact, mxe_dropWeights_same]
    rfl
  · rw [hstand, mxe_dropWeights_same]
    rfl
  · rw [fld_of_regs_eq hregs, wvalid_dropWeights]
  · rw [fld_of_regs_eq hregs, svalid_dropWeights]

theorem emptied_cfgEngine_other {i : Nat} (h : m ≠ i) (he : s.Emptied n i) : (cfgEngine n ch s m).Emptied n i := by
  have hreg : regAddr (.mxeStatus n i) ∉ [Reg.mxeStatus n m].map regAddr := by
    simp only [List.map_cons, List.map_nil, List.mem_singleton, regAddr]
    omega
  have hfld := fun f => RegsBut.fld (regsBut_cfgEngine n ch s m) f hreg
  unfold State.Emptied
  rw [mxe_cfgEngine_other n ch s m (Ne.symm h), hfld, hfld]
  exact he

end

section
variable (n v : Nat) (s : State)

theorem engineOnly_applyCfg : s.EngineOnly (applyCfg n v s) n := by
  rw [applyCfg_eq]
  exact engineOnly_trans (engineOnly_setWord s n _ _) (engineOnly_foldl (engineOnly_cfgEngine n _) _ _)

/-- After the write itself only the status of the engines may differ. -/
theorem regsBut_applyCfg_written :
    (s.plainWrite (.mxeCfg n 0) v).RegsBut (applyCfg n v s) ((List.range 4).map (.mxeStatus n)) := by
  rw [applyCfg_eq]
  refine regsBut_foldl (fun t m hm => regsBut_mono (regsBut_cfgEngine n _ t m) ?_) _
  exact List.cons_subset.mpr ⟨List.mem_map_of_mem hm, List.nil_subset _⟩

theorem regsBut_applyCfg : s.RegsBut (applyCfg n v s) (.mxeCfg n 0 :: (List.range 4).map (.mxeStatus n)) :=
  regsBut_trans (regsBut_setWord (regsBut_refl s _) (by simp))
    (regsBut_mono (regsBut_applyCfg_written n v s) (List.subset_cons_self ..))

theorem word_mxeCfg_applyCfg : (applyCfg n v s).word (.mxeCfg n 0) = (s.plainWrite (.mxeCfg n 0) v).word (.mxeCfg n 0) := by
  refine RegsBut.word (regsBut_applyCfg_written n v s) ?_
  simp only [List.map_map, List.mem_map, List.mem_range, Function.comp, regAddr]
  omega

/-- MXE_CFG holds the fields written (R65). -/
theorem fld_mxeCfg_applyCfg {f : Fld} (h : ⟨f, .rw, 0⟩ ∈ regFields (.mxeCfg n 0) ∨ ⟨f, .rw, 0xf⟩ ∈ regFields (.mxeCfg n 0)) :
    (applyCfg n v s).fld (.mxeCfg n 0) f = f.of v := by
  rw [State.fld, word_mxeCfg_applyCfg]
  rcases h with h | h <;> exact State.fld_plainWrite s _ v h

/-- An engine whose gang or transposition changes is emptied (R68, R99). -/
theorem emptied_applyCfg {i : Nat} (hi : i < 4) (h : cfgChanges (s.word (.mxeCfg n 0)) v i = true) :
    (applyCfg n v s).Emptied n i := by
  rw [applyCfg_eq]
  exact foldl_establishes (P := fun t : State => t.Emptied n i) (List.mem_range.mpr hi)
    (fun t => emptied_cfgEngine_same n _ t i h) (fun t m _ hm ht => emptied_cfgEngine_other n _ t m hm ht) _

end

end Sys2Proof.Machine
end

section
/-! PROOFS. Writes of a core's own registers and of the test registers (O34): the access reaches its register with nothing
due, and each clause is what the register's own write does. -/

namespace Sys2Proof.Machine

/-! ### Stalls (R339) -/

section
variable (s : State) (n c cause : Nat)

/-- A stall that ends counts in the counter of its cause, and nothing else changes but the core's record of it. -/
theorem stallOff_counts : ∃ r, (r = .scStallCnt n ∨ r = .scAccInterlock n ∨ ∃ k, r = .mxeSpfStat n k) ∧
    s.RegsBut (s.stallOff n) [r] ∧ s.stallOff n = { s with regs := (s.stallOff n).regs, cores := (s.stallOff n).cores } ∧
    (s.stallOff n).core n = { s.core n with stall := none } := by
  cases h : (s.core n).stall with
  | none =>
    have he : s.stallOff n = s := by simp only [State.stallOff, h]
    rw [he]
    exact ⟨.scStallCnt n, .inl rfl, regsBut_refl _ _, rfl, by rw [← h]⟩
  | some st =>
    have hb : ∀ (r : Reg) (f : Fld) (k : Nat), let t := (s.modCore n fun x => { x with stall := none }).bump r f k
        s.RegsBut t [r] ∧ t = { s with regs := t.regs, cores := t.cores } ∧ t.core n = { s.core n with stall := none } :=
      fun r f k => ⟨regsBut_setWord (regsBut_of_regs_eq rfl) (by simp), rfl,
        State.core_modCore_same s n fun x => { x with stall := none }⟩
    simp only [State.stallOff, h]
    split
    · exact ⟨_, .inl rfl, hb ..⟩
    · split
      · exact ⟨_, .inl rfl, hb ..⟩
      · split
        · exact ⟨_, .inl rfl, hb ..⟩
        · split
          · exact ⟨_, .inr (.inl rfl), hb ..⟩
          · exact ⟨_, .inr (.inr ⟨_, rfl⟩), hb ..⟩

theorem word_mxeCfg_stallOff : (s.stallOff n).word (.mxeCfg n 0) = s.word (.mxeCfg n 0) := by
  obtain ⟨r, hr, hregs, -, -⟩ := stallOff_counts s n
  refine RegsBut.word hregs ?_
  rcases hr with rfl | rfl | ⟨k, rfl⟩ <;> simp only [List.map_cons, List.map_nil, List.mem_singleton, regAddr] <;> omega

theorem mem_stallOff : (s.stallOff n).mem = s.mem := by
  obtain ⟨r, -, -, hrest, -⟩ := stallOff_counts s n
  rw [hrest]

/-- A stall that begins leaves MXE_CFG, the memory and the held write. -/
theorem stallOn_keeps : (s.stallOn n c cause).word (.mxeCfg n 0) = s.word (.mxeCfg n 0) ∧
    (s.stallOn n c cause).mem = s.mem ∧ ((s.stallOn n c cause).core n).cfgHeld = (s.core n).cfgHeld := by
  obtain ⟨-, -, -, -, hcore⟩ := stallOff_counts s n
  unfold State.stallOn
  split
  · exact ⟨rfl, rfl, rfl⟩
  · dsimp only
    refine ⟨word_mxeCfg_stallOff s n, mem_stallOff s n, ?_⟩
    rw [State.core_modCore_same, hcore]

end

/-! ### MXE_CFG and MXE_BYPASS -/

section
variable {s : State} {n m : Nat} {v : Word}

theorem cfgBad_iff (v : Nat) : cfgBad v = true ↔
    F.mxeCfgGang.of v = 3 ∨ ((F.mxeCfgGang.of v = 1 ∨ F.mxeCfgGang.of v = 2) ∧ F.mxeCfgTranspose.of v ≠ 0) := by
  simp [cfgBad]
  tauto

theorem mxeCfgWrite_bad (h : cfgBad v.toNat = true) (r : Requester) :
    mxeCfgWrite r n v s = s.refuseWrite (srcOf 1 n 1) (regAddr (.mxeCfg n 0)) v.toNat ecDescFormat := if_pos h

theorem mxeCfgWrite_idle (h : cfgBad v.toNat = false) (hi : s.mxesIdle n = true) (r : Requester) :
    mxeCfgWrite r n v s = applyCfg n v.toNat s := by
  rw [mxeCfgWrite, h, hi]
  rfl

/-- While an MXE is busy the write is held; a scalar unit's write then stalls its core (R66). -/
theorem mxeCfgWrite_held (h : cfgBad v.toNat = false) (hi : s.mxesIdle n = false) (r : Requester) :
    let t := mxeCfgWrite r n v s
    (t.core n).cfgHeld = some v ∧ t.word (.mxeCfg n 0) = s.word (.mxeCfg n 0) ∧ t.mem = s.mem ∧
      ((∀ i, r ≠ .core i) → t = s.modCore n fun k => { k with cfgHeld := some v }) := by
  unfold mxeCfgWrite
  rw [h, hi]
  cases r with
  | core i =>
    obtain ⟨hword, hmem, hheld⟩ := stallOn_keeps (s.modCore n fun k => { k with cfgHeld := some v }) n
      (((s.modCore n fun k => { k with cfgHeld := some v }).core n).running.getD 0) stCfgWrite
    exact ⟨hheld.trans (by rw [State.core_modCore_same]), hword, hmem, fun hr => absurd rfl (hr i)⟩
  | host | cc _ | gh _ => exact ⟨by simp, rfl, rfl, fun _ => rfl⟩

theorem mxeBypassWrite_open (h : s.fenced n m = false) (v : Nat) :
    mxeBypassWrite n m v s = s.conflict (srcOf 1 n (m + 1)) (regAddr (.mxeBypass n m)) v := by
  rw [mxeBypassWrite, h]
  rfl

/-- A fenced MXE takes the columns, and loses its weights when they change (R86). -/
theorem mxeBypassWrite_fenced (h : s.fenced n m = true) (v : Nat) :
    let t := mxeBypassWrite n m v s
    t.mem = s.mem ∧ s.RegsBut t [.mxeBypass n m, .mxeStatus n m] ∧
      t.word (.mxeBypass n m) = (s.plainWrite (.mxeBypass n m) v).word (.mxeBypass n m) ∧
      ((∃ x, x ∈ bypassedOf (t.word (.mxeBypass n m)) ∧ x ∉ bypassedOf (s.word (.mxeBypass n m))) →
        (t.mxe n m).active = {} ∧ (t.mxe n m).standby = {}) := by
  have hw : s.RegsBut (s.plainWrite (.mxeBypass n m) v) [.mxeBypass n m, .mxeStatus n m] :=
    regsBut_setWord (regsBut_refl _ _) (by simp)
  unfold mxeBypassWrite
  rw [if_pos h]
  dsimp only
  split
  · next hsame =>
    refine ⟨rfl, hw, rfl, fun ⟨x, hx, hold⟩ => absurd ?_ hold⟩
    obtain ⟨-, hnew⟩ := Bool.and_eq_true_iff.mp hsame
    exact List.contains_iff_mem.mp (List.all_eq_true.mp hnew x hx)
  · refine ⟨rfl, regsBut_trans hw (regsBut_mono (regsBut_dropWeights _ n m) (by simp)), ?_, fun _ => ?_⟩
    · refine RegsBut.word (regsBut_dropWeights _ n m) ?_
      simp only [List.map_cons, List.map_nil, List.mem_singleton, regAddr]
      omega
    · rw [mxe_dropWeights_same]
      exact ⟨rfl, rfl⟩

end

/-! ### The instruction buffer, context registers, the shadow -/

section
variable {s : State} {n c : Nat}

theorem any_ctx {p : Nat → Bool} : (List.range 4).any p = true ↔ ∃ c : CtxId, p c = true := by
  simp only [List.any_eq_true, List.mem_range]
  exact ⟨fun ⟨c, hc, hp⟩ => ⟨⟨c, hc⟩, hp⟩, fun ⟨c, hp⟩ => ⟨c, c.isLt, hp⟩⟩

theorem ibufWrite_code {p : Nat} (h : ∃ d : CtxId, s.ctxLive n d = true ∧ s.inCode n d p = true) (k v : Nat) :
    ibufWrite n p k v s = s.conflict (scSrc n) (regAddr (.ibuf n (p * 8 + k))) v := by
  obtain ⟨d, hlive, hcode⟩ := h
  exact if_pos (any_ctx.mpr ⟨d, by rw [hlive, hcode]; rfl⟩)

theorem ibufWrite_free {p : Nat} (h : ∀ d : CtxId, s.ctxLive n d = true → s.inCode n d p = false) (k v : Nat) :
    ibufWrite n p k v s = { s.setWord (.ibuf n (p * 8 + k)) v with
      parity := { s.parity with bundles := s.parity.bundles.filter (· != (n, p)) } } := by
  refine if_neg fun hany => ?_
  obtain ⟨d, hd⟩ := any_ctx.mp hany
  obtain ⟨hlive, hcode⟩ := Bool.and_eq_true_iff.mp hd
  rw [h d hlive] at hcode
  cases hcode

theorem tctxGuarded_live (h : s.ctxLive n c = true) (reg : Reg) (v : Nat) :
    tctxGuarded n c reg v s = s.conflict (scSrc n) (regAddr reg) v := if_pos h

/-- A write of a register of a context that is not live: of the registers it is the write by access codes. -/
theorem tctxGuarded_store {reg : Reg} {v : Nat} (h : s.ctxLive n c = false)
    (hcode : reg = .tctxCode n c → F.tctxCodeBase.of v + F.tctxCodeLen.of v ≤ 2048) (h0 : reg ≠ .tctxReg n c 0) :
    let t := tctxGuarded n c reg v s
    t.regs = (s.plainWrite reg v).regs ∧ s.RegsBut t [reg] ∧ t = { s with regs := t.regs, cores := t.cores } := by
  have hrange : ¬ (reg = .tctxCode n c ∧ 2048 < F.tctxCodeBase.of v + F.tctxCodeLen.of v) :=
    fun ⟨he, hlt⟩ => absurd (hcode he) (by omega)
  unfold tctxGuarded
  rw [h, if_neg Bool.false_ne_true, if_neg hrange, if_neg h0]
  have hw : s.RegsBut (s.plainWrite reg v) [reg] := regsBut_setWord (regsBut_refl _ _) (by simp)
  unfold State.doIf
  split
  · exact ⟨rfl, hw, rfl⟩
  · exact ⟨rfl, hw, rfl⟩

/-- s0 takes no write (R302). -/
theorem tctxGuarded_zero (h : s.ctxLive n c = false) (v : Nat) : tctxGuarded n c (.tctxReg n c 0) v s = s := by
  unfold tctxGuarded
  rw [h, if_neg Bool.false_ne_true, if_neg (fun h => by cases h.1), if_pos rfl]

/-- One unit of the shadow is no longer VALID. -/
def shadowClear (t first : Nat) (c : Core) (i : Nat) : Core :=
  let e := c.shadowOf (first + i)
  { c with shadow := tabSet c.shadow (first + i) ⟨false, e.uses.filter fun u => decide (t ≤ u.last)⟩ }

theorem valid_shadowClear (t first : Nat) (c : Core) (i u : Nat) :
    ((shadowClear t first c i).shadowOf u).valid = ((c.shadowOf u).valid && !decide (u = first + i)) := by
  simp only [shadowClear, Core.shadowOf, tabGet_set]
  split
  · next h => simp [h]
  · next h => simp [h]

theorem valid_shadowClears (t first k : Nat) (c : Core) (u : Nat) :
    (((List.range k).foldl (shadowClear t first) c).shadowOf u).valid =
      ((c.shadowOf u).valid && !decide (first ≤ u ∧ u < first + k)) := by
  induction k with
  | zero =>
    have hno : ¬ (first ≤ u ∧ u < first + 0) := by omega
    rw [decide_eq_false hno, Bool.not_false, Bool.and_true]
    rfl
  | succ k ih =>
    have hsplit : (first ≤ u ∧ u < first + (k + 1)) ↔ (first ≤ u ∧ u < first + k) ∨ u = first + k := by omega
    rw [List.range_succ, List.foldl_append, List.foldl_cons, List.foldl_nil, valid_shadowClear, ih, Bool.and_assoc,
      ← Bool.not_or, ← Bool.decide_or, decide_eq_decide.mpr hsplit]

theorem shadowInv_service (hv : s.vmode n = false) (first k : Nat) : shadowInv n first k s = s := if_pos hv

theorem shadowInv_valid (hv : s.vmode n = true) {first k : Nat} (hk : first + k ≤ shadowUnits) :
    shadowInv n first k s = s.modCore n fun c => (List.range k).foldl (shadowClear (s.cyc n) first) c := by
  rw [shadowInv, if_neg (by rw [hv]; decide), if_neg (by omega)]
  rfl

theorem shadowInv_past (hv : s.vmode n = true) {first k : Nat} (hk : shadowUnits < first + k) :
    shadowInv n first k s =
      s.refuseWrite (srcOf 1 n 8) (regAddr (.cmcShadowInv n)) (k * 2 ^ 48 + first) ecDescRange := by
  rw [shadowInv, if_neg (by rw [hv]; decide), if_pos hk]

end

/-! ### Test registers -/

section
variable {s : State} {v : Nat}

theorem tstCoreWrite_out (hb : bitAt v 0 = true) (ho : s.coreOut (F.tstCoreCtlCore.of v) = true) :
    tstCoreWrite v s = s.conflict chipSrc (regAddr .tstCoreCtl) v := by
  simp [tstCoreWrite, hb, ho]

theorem tstCoreWrite_asks (hb : bitAt v 0 = true) (ho : s.coreOut (F.tstCoreCtlCore.of v) = false)
    (hst : s.fld (.coreMap (F.tstCoreCtlCore.of v)) F.coreMapState ≠ 1) (hn : F.tstCoreCtlCore.of v ∉ s.chip.tests) :
    let t := tstCoreWrite v s
    t.chip.tests = s.chip.tests ++ [F.tstCoreCtlCore.of v] ∧ s.RegsBut t [.tstCoreCtl] := by
  have hw : (s.plainWrite .tstCoreCtl v).fld (.coreMap (F.tstCoreCtlCore.of v)) F.coreMapState =
      s.fld (.coreMap (F.tstCoreCtlCore.of v)) F.coreMapState :=
    State.fld_setWord_other _ _ _ (by
      have hlt : F.tstCoreCtlCore.of v < 32 := Fld.of_lt ..
      simp only [regAddr]; omega)
  have hcond : (bitAt v 0 && !(s.plainWrite .tstCoreCtl v).chip.tests.contains (F.tstCoreCtlCore.of v) &&
      (s.plainWrite .tstCoreCtl v).fld (.coreMap (F.tstCoreCtlCore.of v)) F.coreMapState != 1) = true := by
    simp [hb, hn, hw, hst]
  unfold tstCoreWrite
  dsimp only
  rw [if_neg (by simp [ho]), State.doIf, if_pos hcond]
  exact ⟨rfl, regsBut_setWord (regsBut_refl _ _) (by simp)⟩

theorem fenced_tstFence {n m : Nat} : (s.plainWrite (.tstFence n) v).fenced n m = bitAt (F.tstFenceMxe.of v) m :=
  congrArg (bitAt · m) (State.fld_plainWrite s (.tstFence n) v (f := ⟨F.tstFenceMxe, .rw, 0⟩) (by simp [regFields]))

end

/-! ### What the commands answer -/

section
variable {s : State} {r : Requester} {n : CoreId} (hd : s.dead = false) (hs : s.Settled n) (ho : s.coreOut n = false)
  (hr : ∀ reg : Reg, s.Reaches r (regAddr reg))

theorem csrCore_of {n : CoreId} {a : Nat} (h : 0x020210000000 + n * 0x100000 ≤ a ∧ a < 0x020210000000 + n * 0x100000 + 0x100000) :
    csrCore a = some n.val := by
  have hn := n.isLt
  rw [csrCore, if_pos (by omega)]
  exact congrArg some (by omega)

include hd hs hr in
/-- An access of a register in the block of core n finds nothing due. -/
theorem open_core {reg : Reg} (h : csrCore (regAddr reg) = some n.val) : s.Open r (regAddr reg) where
  running := hd
  reaches := hr reg
  settled k hk := by
    obtain rfl : n.val = k := Option.some.inj (h.symm.trans hk)
    exact hs
  landed hk := absurd (h.symm.trans hk) (by simp)

include hd hr in
/-- An access of a register outside the blocks of cores that no late operation concerns. -/
theorem open_chip {reg : Reg} (h : csrCore (regAddr reg) = none) (hl : csrSettle (regAddr reg) s = s) :
    s.Open r (regAddr reg) where
  running := hd
  reaches := hr reg
  settled k hk := absurd (h.symm.trans hk) (by simp)
  landed _ := hl

include hd hs hr ho in
/-- A command that writes a register of core n does the register's own effect. -/
theorem answers_coreWrite {c : Instr} {reg : Reg} {v : Nat} (hat : regAt (regAddr reg) = reg)
    (hc : csrCore (regAddr reg) = some n.val) (hn : reg ≠ .none) (hh : rawHidden s reg = false)
    (he : exec c s = runCsr r (regAddr reg) (csrWrite r (regAddr reg) v) s) : Answers c s (csrEffect r reg v s) := by
  have hin : s.InService (regAddr reg) := by
    intro k hk
    obtain rfl : n.val = k := Option.some.inj (hc.symm.trans hk)
    exact ho
  have hw := csrWrite_effect (r := r) (hat.symm ▸ hn) (hat.symm ▸ hh) hin v
  rw [hat] at hw
  rw [Answers, he, (open_core hd hs hr hc).runCsr_eq, hw]

include hd hs hr ho in
theorem answers_mxeCfgWrite (v : Word) : Answers (.mxeCfgWrite r n v) s (mxeCfgWrite r n v s) := by
  have hv : BitVec.ofNat 64 v.toNat = v := by simp
  have h := answers_coreWrite (c := .mxeCfgWrite r n v) hd hs ho hr (regAt_mxeCfg n)
    (csrCore_of (by simp only [regAddr]; omega)) (by simp) rfl rfl
  simpa only [csrEffect, hv] using h

include hd hs hr ho in
theorem answers_mxeBypassWrite (m : MxeId) (v : Word) :
    Answers (.mxeBypassWrite r n m v) s (mxeBypassWrite n m v.toNat s) :=
  answers_coreWrite (c := .mxeBypassWrite r n m v) hd hs ho hr (regAt_mxeBypass n m)
    (csrCore_of (by have := m.isLt; simp only [regAddr]; omega)) (by simp) rfl rfl

include hd hs hr ho in
theorem answers_ibufWrite (p : Fin 2048) (k : Fin 8) (v : Word) :
    Answers (.ibufWrite r n p k v) s (ibufWrite n p k v.toNat s) := by
  have hp := p.isLt
  have hk := k.isLt
  have hdiv : (p.val * 8 + k.val) / 8 = p.val := by omega
  have hmod : (p.val * 8 + k.val) % 8 = k.val := by omega
  have h := answers_coreWrite (c := .ibufWrite r n p k v) hd hs ho hr (regAt_ibuf n (i := p * 8 + k) (by omega))
    (csrCore_of (by simp only [regAddr]; omega)) (by simp) rfl rfl
  simpa only [csrEffect, hdiv, hmod] using h

include hd hs hr ho in
theorem answers_cmcShadowInv (f k : BitVec 16) :
    Answers (.cmcShadowInv r n f k) s (shadowInv n f.toNat k.toNat s) := by
  have he : exec (.cmcShadowInv r n f k) s = runCsr r (regAddr (.cmcShadowInv n))
      (unlessOut n (.cmcShadowInv n) fun s => shadowInv n f.toNat k.toNat s) s := rfl
  have hopen := open_core hd hs hr (reg := .cmcShadowInv n) (csrCore_of (by simp only [regAddr]; omega))
  rw [Answers, he, hopen.runCsr_eq, unlessOut, ho, if_neg Bool.false_ne_true]

include hd hs hr ho in
theorem answers_scTctxRegWrite (c : CtxId) {x : TctxReg} (hx : x ≠ .ctl) (v : Word) :
    Answers (.scTctxRegWrite r n c x v) s (tctxGuarded n c (tctxRegOf n c x) v.toNat s) := by
  have hc := c.isLt
  have hcore : csrCore (regAddr (tctxRegOf n c x)) = some n.val := by
    cases x with
    | reg i =>
      have hi := i.isLt
      exact csrCore_of (by simp only [tctxRegOf, regAddr]; omega)
    | ctl | code | pc | poison => exact csrCore_of (by simp only [tctxRegOf, regAddr]; omega)
  have h := answers_coreWrite (c := .scTctxRegWrite r n c x v) hd hs ho hr (regAt_tctx n c hx) hcore
    (by cases x <;> simp [tctxRegOf]) (by cases x <;> rfl) rfl
  cases x with
  | ctl => exact absurd rfl hx
  | code | pc | poison | reg _ => exact h

include hd hr in
theorem answers_clkCorePsWrite (v : Word) : Answers (.clkCorePsWrite r n v) s (clkCorePsWrite n v.toNat s) := by
  have hn := n.isLt
  have hat : regAt (regAddr (.clkCorePs n)) = .clkCorePs n := by
    rw [show regAddr (.clkCorePs n) = 0x020200300000 + 0x100 + n.val * 0x8 from rfl, regAt, if_neg (by omega),
      if_neg (by omega), if_neg (by omega), if_neg (by omega), if_pos (by omega),
      show 0x020200300000 + 0x100 + n.val * 0x8 - 0x020200300000 = 0x100 + n.val * 0x8 by omega, regAtClk,
      if_neg (by omega)]
    exact inArr_at _ _ (by decide) hn
  have hopen := open_chip hd hr (reg := .clkCorePs n) (if_neg (by simp only [regAddr]; omega)) (by rw [csrSettle, hat])
  have he : exec (.clkCorePsWrite r n v) s = runCsr r (regAddr (.clkCorePs n)) (clkCorePsWrite n v.toNat) s := rfl
  rw [Answers, he, hopen.runCsr_eq]

include hd hr in
theorem answers_tstCoreRequest (v : Word) : Answers (.tstCoreRequest r v) s (tstCoreWrite v.toNat s) := by
  have hopen := open_chip hd hr (reg := .tstCoreCtl) (by decide) rfl
  have he : exec (.tstCoreRequest r v) s = runCsr r (regAddr .tstCoreCtl) (tstCoreWrite v.toNat) s := rfl
  rw [Answers, he, hopen.runCsr_eq]

include hd hr in
theorem answers_tstFenceWrite (v : Word) : Answers (.tstFenceWrite r n v) s (tstFenceWrite r n v.toNat s) := by
  have hn := n.isLt
  have hat : regAt (regAddr (.tstFence n)) = .tstFence n := by
    rw [show regAddr (.tstFence n) = 0x020240000000 + 0x200 + n.val * 0x8 from rfl, regAt]
    iterate 20 rw [if_neg (by omega)]
    rw [if_pos (by omega), show 0x020240000000 + 0x200 + n.val * 0x8 - 0x020240000000 = 0x200 + n.val * 0x8 by omega,
      regAtTst, if_neg (by omega), if_neg (by omega), if_neg (by omega)]
    exact inArr_at _ _ (by decide) hn
  have hopen := open_chip hd hr (reg := .tstFence n) (if_neg (by simp only [regAddr]; omega)) (by rw [csrSettle, hat])
  have he : exec (.tstFenceWrite r n v) s = runCsr r (regAddr (.tstFence n)) (tstFenceWrite r n v.toNat) s := rfl
  rw [Answers, he, hopen.runCsr_eq]

end

/-- Settles O34: every write reaches its register with nothing due, and each clause is one case of the register's own
write. -/
theorem coreAndTestRegisterWrites : Obligations.CoreAndTestRegisterWrites := by
  intro s r n m c hd hs ho hr
  refine ⟨fun v => ⟨fun hb => ?_, fun hb hi => ?_, fun hb hi => ?_⟩, fun v => ⟨fun hf => ?_, fun hf => ?_⟩,
    fun p k v => ⟨fun hl => ?_, fun hl => ?_⟩, fun f k => ⟨fun hv => ?_, fun hv hk => ?_, fun hv hk => ?_⟩,
    fun x v hx => ⟨fun hl => ?_, fun hl h0 hcode => ?_, fun hl => ?_⟩, fun v => ⟨fun hb => ?_, fun hb => ?_⟩,
    fun v => ⟨fun hb hout => ?_, fun hb hin hst hn => ?_⟩, fun v => ⟨fun hh => ?_, fun hh => ?_⟩⟩
  · exact mxeCfgWrite_bad ((cfgBad_iff _).mpr hb) r ▸ answers_mxeCfgWrite hd hs ho hr v
  · have hok := Bool.eq_false_iff.mpr fun h => hb ((cfgBad_iff _).mp h)
    refine ⟨_, mxeCfgWrite_idle hok hi r ▸ answers_mxeCfgWrite hd hs ho hr v, ?_, ?_, ?_, regsBut_applyCfg n _ s⟩
    all_goals exact fld_mxeCfg_applyCfg _ _ _ (by simp [regFields])
  · have hok := Bool.eq_false_iff.mpr fun h => hb ((cfgBad_iff _).mp h)
    exact ⟨_, answers_mxeCfgWrite hd hs ho hr v, mxeCfgWrite_held hok hi r⟩
  · exact mxeBypassWrite_open hf _ ▸ answers_mxeBypassWrite hd hs ho hr m v
  · exact ⟨_, answers_mxeBypassWrite hd hs ho hr m v, mxeBypassWrite_fenced hf _⟩
  · exact ibufWrite_code hl k.val v.toNat ▸ answers_ibufWrite hd hs ho hr p k v
  · refine ⟨_, ibufWrite_free hl k.val v.toNat ▸ answers_ibufWrite hd hs ho hr p k v, ?_, rfl, ?_, ?_⟩
    · exact regsBut_setWord (regsBut_refl s _) (by simp)
    · exact (State.word_setWord_same s _ _).trans (Nat.mod_eq_of_lt v.isLt)
    · simp
  · have h := answers_cmcShadowInv hd hs ho hr f k
    rwa [shadowInv_service hv] at h
  · refine ⟨_, shadowInv_valid hv hk ▸ answers_cmcShadowInv hd hs ho hr f k, rfl, fun u => ?_⟩
    rw [State.core_modCore_same]
    exact valid_shadowClears ..
  · exact shadowInv_past hv hk ▸ answers_cmcShadowInv hd hs ho hr f k
  · exact tctxGuarded_live hl _ _ ▸ answers_scTctxRegWrite hd hs ho hr c hx v
  · refine ⟨_, answers_scTctxRegWrite hd hs ho hr c hx v, tctxGuarded_store hl (fun he => hcode ?_) fun he => h0 ?_⟩
    · cases x <;> cases he
      rfl
    · cases x <;> simp [tctxRegOf] at he
      exact congrArg _ he
  · have h := answers_scTctxRegWrite hd hs ho hr c (x := .reg 0) (by simp) v
    rwa [show tctxRegOf n c (.reg 0) = .tctxReg n c 0 from rfl, tctxGuarded_zero hl] at h
  · exact (if_pos hb : clkCorePsWrite n v.toNat s = _) ▸ answers_clkCorePsWrite hd hr v
  · exact (if_neg (by omega) : clkCorePsWrite n v.toNat s = _) ▸ answers_clkCorePsWrite hd hr v
  · exact tstCoreWrite_out hb hout ▸ answers_tstCoreRequest hd hr v
  · exact ⟨_, answers_tstCoreRequest hd hr v, tstCoreWrite_asks hb hin hst hn⟩
  · exact (if_pos (by simpa using hh) : tstFenceWrite r n v.toNat s = _) ▸ answers_tstFenceWrite hd hr v
  · exact ⟨_, (if_neg (by simpa using hh) : tstFenceWrite r n v.toNat s = _) ▸ answers_tstFenceWrite hd hr v,
      onlyRegs_plainWrite (onlyRegs_refl ..) (by simp), fun i => fenced_tstFence⟩

end Sys2Proof.Machine
end

section
/-! PROOFS. What an operation does before and beside its own effect: the rise of an engine to level 4 (R92, R93), and the
reads it schedules of core memory, with the parity errors that they find (R495). -/

namespace Sys2Proof.Machine

theorem cyc_eq {s t : State} {n : Nat} (hclk : t.word (.clkCorePs n) = s.word (.clkCorePs n)) (hnow : t.now = s.now)
    (hcyc : (t.core n).cycBase = (s.core n).cycBase) (ht : (t.core n).tBase = (s.core n).tBase) : t.cyc n = s.cyc n := by
  simp only [State.cyc, State.div, State.fld, hclk, hnow, hcyc, ht]

theorem cyc_modMxe (s : State) (n m : Nat) (g : Mxe → Mxe) : (s.modMxe n m g).cyc n = s.cyc n := by
  have hcore : ∀ f : Core → Nat, (∀ c l, f { c with mxes := l } = f c) → f ((s.modMxe n m g).core n) = f (s.core n) :=
    fun f hf => by rw [State.core_modMxe, hf]
  exact cyc_eq rfl rfl (hcore _ fun _ _ => rfl) (hcore _ fun _ _ => rfl)

/-! ### The rise to level 4 -/

/-- From s to t an engine of core n rose: time passed in which the core did not cycle, and of its engines the cycle of the
last change of level differs. -/
structure State.Rose (s t : State) (n : Nat) (rs : List Reg) : Prop where
  regs : s.RegsBut t rs
  rest : t = { s with now := t.now, cores := t.cores, regs := t.regs }
  cyc : t.cyc n = s.cyc n
  core : t.core n = { s.core n with tBase := (t.core n).tBase, mxes := (t.core n).mxes }
  mxe : ∀ i, t.mxe n i = { s.mxe n i with levelAt := (t.mxe n i).levelAt }

section
variable {s t u : State} {n : Nat} {rs : List Reg}

theorem rose_refl (s : State) (n : Nat) (rs : List Reg) : s.Rose s n rs := ⟨regsBut_refl s rs, rfl, rfl, rfl, fun _ => rfl⟩

theorem rose_trans (h : s.Rose t n rs) (k : t.Rose u n rs) : s.Rose u n rs where
  regs := regsBut_trans h.regs k.regs
  rest := by rw [k.rest, h.rest]
  cyc := k.cyc.trans h.cyc
  core := by rw [k.core, h.core]
  mxe i := by rw [k.mxe, h.mxe]

theorem rose_foldl {α : Type} {f : State → α → State} {l : List α} (h : ∀ t : State, ∀ a ∈ l, t.Rose (f t a) n rs)
    (s : State) : s.Rose (l.foldl f s) n rs :=
  List.foldlRecOn (motive := fun t => s.Rose t n rs) l f (rose_refl s n rs) fun t ht a ha => rose_trans ht (h t a ha)

/-- Time passes in which no cycle of the core does. -/
theorem rose_freeze (s : State) (n k : Nat) (rs : List Reg) : s.Rose (s.freeze n k) n rs := by
  have hcore : (s.freeze n k).core n = { s.core n with tBase := (s.core n).tBase + k * s.div n } :=
    State.core_modCore_same { s with now := s.now + k * s.div n } n fun c => { c with tBase := c.tBase + k * s.div n }
  have hdiv : (s.freeze n k).div n = s.div n := rfl
  have hnow : (s.freeze n k).now = s.now + k * s.div n := rfl
  refine ⟨regsBut_of_regs_eq rfl, rfl, ?_, by rw [hcore], fun i => by rw [State.mxe, hcore]; rfl⟩
  rw [State.cyc, hdiv, hcore, hnow, Nat.add_sub_add_right]
  rfl

end

/-- An engine set to level l in cycle k. -/
def State.setLevel (s : State) (n l k i : Nat) : State :=
  (s.setFld (.mxeStatus n i) F.mxeStatusLevel l).modMxe n i fun x => { x with levelAt := k }

section
variable (s : State) (n l k i : Nat)

theorem level_setLevel (h : l < 8) : (s.setLevel n l k i).level n i = l := by
  rw [State.level, State.setLevel, State.fld_modMxe, State.fld_setFld_same _ _ _ _ (by decide)]
  exact Nat.mod_eq_of_lt h

theorem level_setLevel_other {i j : Nat} (h : j ≠ i) : (s.setLevel n l k i).level n j = s.level n j :=
  State.fld_setFld_other _ _ _ _ (by simp only [regAddr]; omega)

theorem levelAt_setLevel : ((s.setLevel n l k i).mxe n i).levelAt = k :=
  congrArg Mxe.levelAt (State.mxe_modMxe_same (s.setFld (.mxeStatus n i) F.mxeStatusLevel l) n i
    fun x => { x with levelAt := k })

theorem levelAt_setLevel_other {i j : Nat} (h : j ≠ i) : ((s.setLevel n l k i).mxe n j).levelAt = (s.mxe n j).levelAt :=
  congrArg Mxe.levelAt (State.mxe_modMxe_other (s.setFld (.mxeStatus n i) F.mxeStatusLevel l) n _ h)

theorem regsBut_setLevel {rs : List Reg} (h : .mxeStatus n i ∈ rs) : s.RegsBut (s.setLevel n l k i) rs :=
  regsBut_setFld (regsBut_refl s rs) (List.mem_map_of_mem h)

end

section
variable (s : State) (n : CoreId) (m : Nat)

theorem rose_setWord {r : Reg} (h : regAddr (.clkCorePs n) ≠ regAddr r) (v : Nat) {rs : List Reg} (hr : r ∈ rs) :
    s.Rose (s.setWord r v) n rs :=
  ⟨regsBut_setWord (regsBut_refl s _) (List.mem_map_of_mem hr), rfl,
    cyc_eq (State.word_setWord_other s v h) rfl rfl rfl, rfl, fun _ => rfl⟩

theorem rose_levelAt (k : Nat) (rs : List Reg) : s.Rose (s.modMxe n m fun x => { x with levelAt := k }) n rs := by
  refine ⟨regsBut_of_regs_eq rfl, rfl, cyc_modMxe .., ?_, fun i => ?_⟩
  · rw [State.core_modMxe]
  · by_cases h : i = m
    · rw [h, State.mxe_modMxe_same]
    · rw [State.mxe_modMxe_other _ _ _ h]

theorem rose_setLevel {rs : List Reg} (hr : .mxeStatus n m ∈ rs) (l k : Nat) : s.Rose (s.setLevel n l k m) n rs :=
  rose_trans (rose_setWord s n (by have := n.isLt; simp only [regAddr]; omega) _ hr) (rose_levelAt _ n m _ rs)

/-- What RAMP counts, in the counter of the engine that leads. -/
def State.countRamp (s : State) (n m : Nat) : State :=
  s.bump (.mxeStallCnt n (leadOf (s.gang n) m)) F.mxeStallCntRamp (s.rampCycles n m)

theorem rampCycles_eq_zero : s.rampCycles n m = 0 ↔ 4 ≤ s.level n m := by
  simp only [State.rampCycles]
  omega

theorem rampUp_low (h : s.level n m < 4) :
    rampUp n m s = (membersOf (s.gang n) m).foldl (fun t i => t.setLevel n 4 (t.cyc n) i) (s.countRamp n m) :=
  if_pos (mt (rampCycles_eq_zero s n m).mp (by omega))

theorem rampUp_high (h : 4 ≤ s.level n m) : rampUp n m s = s :=
  if_neg (not_not.mpr ((rampCycles_eq_zero s n m).mpr h))

/-- The engine at level 4, the time that takes gone by. -/
def State.atWork (s : State) (n m : Nat) : State :=
  rampUp n m (if s.rampCycles n m = 0 then s else s.freeze n (s.rampCycles n m))

theorem atWork_high (h : 4 ≤ s.level n m) : s.atWork n m = s := by
  rw [State.atWork, if_pos ((rampCycles_eq_zero s n m).mpr h), rampUp_high s n m h]

theorem atWork_low (h : s.level n m < 4) : s.atWork n m =
    (membersOf (s.gang n) m).foldl (fun t i => t.setLevel n 4 (t.cyc n) i) ((s.freeze n (s.rampCycles n m)).countRamp n m) := by
  rw [State.atWork, if_neg (mt (rampCycles_eq_zero s n m).mp (by omega))]
  exact rampUp_low (s.freeze n (s.rampCycles n m)) n m h

theorem rose_atWork :
    s.Rose (s.atWork n m) n (.mxeStallCnt n (leadOf (s.gang n) m) :: (membersOf (s.gang n) m).map (.mxeStatus n)) := by
  rcases Nat.lt_or_ge (s.level n m) 4 with h | h
  · rw [atWork_low s n m h]
    refine rose_trans (rose_freeze ..) (rose_trans (rose_setWord _ n ?_ _ (List.mem_cons_self ..))
      (rose_foldl (fun t i hi => rose_setLevel t n i (List.mem_cons_of_mem _ (List.mem_map_of_mem hi)) _ _) _))
    have := n.isLt
    simp only [regAddr]
    omega
  · rw [atWork_high s n m h]
    exact rose_refl ..

theorem now_atWork (h : s.level n m < 4) : (s.atWork n m).now = s.now + 16 * (4 - s.level n m) * s.div n := by
  rw [atWork_low s n m h]
  exact List.foldlRecOn (motive := fun t : State => t.now = _) _ _ rfl fun t ht i _ => ht

theorem level_atWork (h : s.level n m < 4) {i : Nat} (hi : i ∈ membersOf (s.gang n) m) : (s.atWork n m).level n i = 4 := by
  rw [atWork_low s n m h]
  exact foldl_establishes (P := fun t : State => t.level n i = 4) hi (fun t => level_setLevel t n 4 _ i (by decide))
    (fun t k _ hk ht => (level_setLevel_other t n 4 _ (Ne.symm hk)).trans ht) _

end

section
variable {s : State} {n : CoreId} {m : Nat}

theorem mem_atWork : (s.atWork n m).mem = s.mem := by rw [(rose_atWork s n m).rest]
theorem hif_atWork : (s.atWork n m).hif = s.hif := by rw [(rose_atWork s n m).rest]

/-- Registers of the core's scalar unit and the configuration of its engines stay as the engine rises. -/
theorem word_atWork {r : Reg} (h : ∀ i, regAddr r ≠ regAddr (.mxeStallCnt n i) ∧ regAddr r ≠ regAddr (.mxeStatus n i)) :
    (s.atWork n m).word r = s.word r := by
  refine RegsBut.word (rose_atWork s n m).regs ?_
  simp only [List.map_cons, List.map_map, List.mem_cons, List.mem_map, not_or, not_exists, not_and]
  exact ⟨(h _).1, fun i _ he => (h i).2 he.symm⟩

theorem pc_atWork (c : CtxId) : (s.atWork n m).pc n c = s.pc n c := by
  have := c.isLt
  rw [State.pc, State.fld, word_atWork fun i => by simp only [regAddr]; omega]
  rfl

theorem gang_atWork : (s.atWork n m).gang n = s.gang n := by
  rw [State.gang, State.fld, word_atWork fun i => by simp only [regAddr]; omega]
  rfl

theorem tileOpen_atWork (i t : Nat) :
    ((s.atWork n m).tileView n i t).isOpen = (s.tileView n i t).isOpen := by
  have h := (rose_atWork s n m).mxe i
  simp only [State.tileView]
  rw [h]
  rfl

theorem setType_atWork (i k : Nat) : (s.atWork n m).setType n i k = s.setType n i k := by
  rw [State.setType, (rose_atWork s n m).mxe i]
  rfl

end
end Sys2Proof.Machine
end

section
/-! PROOFS. The reads an operation schedules of core memory, and the parity errors that they find (R495): with no kernel
running they are counted, and nothing that an operation reads differs. -/

namespace Sys2Proof.Machine

/-- From s to t reads found parity errors, which are counted in registers among rs, and accesses of the memory of core n
were scheduled. -/
structure State.Detected (s t : State) (n : Nat) (rs : List Reg) : Prop where
  regs : s.RegsBut t rs
  now : t.now = s.now
  mem : t.mem = s.mem
  kernels : t.hif.kernels = s.hif.kernels
  core : t.core n = { s.core n with sched := (t.core n).sched }

section
variable {s t u : State} {n : Nat} {rs : List Reg}

theorem detected_refl (s : State) (n : Nat) (rs : List Reg) : s.Detected s n rs :=
  ⟨regsBut_refl s rs, rfl, rfl, rfl, rfl⟩

theorem detected_trans (h : s.Detected t n rs) (k : t.Detected u n rs) : s.Detected u n rs where
  regs := regsBut_trans h.regs k.regs
  now := k.now.trans h.now
  mem := k.mem.trans h.mem
  kernels := k.kernels.trans h.kernels
  core := by rw [k.core, h.core]

/-- Kernels do not begin while reads are scheduled, so each read of a fold may assume that none runs. -/
theorem detected_foldl {α : Type} {f : State → α → State} {l : List α}
    (h : ∀ t : State, t.hif.kernels = [] → ∀ a ∈ l, t.Detected (f t a) n rs) (hs : s.hif.kernels = []) :
    s.Detected (l.foldl f s) n rs :=
  List.foldlRecOn (motive := fun t => s.Detected t n rs) l f (detected_refl s n rs)
    fun t ht a ha => detected_trans ht (h t (ht.kernels.trans hs) a ha)

theorem detected_doIf {f : State → State} (b : Bool) (h : s.Detected (f s) n rs) : s.Detected (s.doIf b f) n rs := by
  cases b
  · exact detected_refl s n rs
  · exact h

theorem detected_countDetections {k : Nat} (hk : .tstSramCnt k ∈ rs) (j : Nat) :
    s.Detected (countDetections k j s) n rs := by
  have hr : s.RegsBut (s.bump (.tstSramCnt k) F.tstSramCntDetections j) rs :=
    regsBut_setFld (regsBut_refl s rs) (List.mem_map_of_mem hk)
  unfold countDetections askTest State.doIf
  dsimp only
  split
  · split <;> exact ⟨hr, rfl, rfl, rfl, rfl⟩
  · exact ⟨hr, rfl, rfl, rfl, rfl⟩

/-- The counter of the parity errors of a unit: of the core that holds it, or of the Orangery (R495). -/
def paritySite (u : Nat) : List Reg :=
  match placeOf (u * 64) with
  | .cm n _ => [.tstSramCnt n]
  | .engine n _ _ => [.tstSramCnt n]
  | .orangery _ => [.tstSramOrg]
  | _ => []

theorem kernelOn_nil (h : s.hif.kernels = []) (k : Nat) : s.kernelOn k = false := by rw [State.kernelOn, h]; rfl

theorem detected_parityRange (h : s.hif.kernels = []) {da len : Nat}
    (hr : ∀ u, da / 64 ≤ u → u * 64 < da + len → paritySite u ⊆ rs) : s.Detected (s.parityRange da len) n rs := by
  refine detected_foldl (fun t ht u hu => ?_) h
  have hu := of_decide_eq_true (List.mem_filter.mp hu).2
  have hsite := hr u hu.1 hu.2
  unfold paritySite at hsite
  split
  · next k _ hp =>
    rw [kernelOn_nil ht]
    rw [hp] at hsite
    exact detected_countDetections (hsite (List.mem_singleton_self _)) 1
  · next k _ _ hp =>
    rw [kernelOn_nil ht]
    rw [hp] at hsite
    exact detected_countDetections (hsite (List.mem_singleton_self _)) 1
  · next hp =>
    rw [hp] at hsite
    exact ⟨regsBut_setFld (regsBut_refl t rs) (List.mem_map_of_mem (hsite (List.mem_singleton_self _))), rfl, rfl, rfl, rfl⟩
  · exact detected_refl t n rs

end

/-- The counters of all parity errors. -/
def parityCounters : List Reg := .tstSramOrg :: (List.range 32).map .tstSramCnt

/-- Core memory and engines are of the 32 cores. -/
theorem core_lt_of_placeOf {da k : Nat} (h : (∃ o, placeOf da = .cm k o) ∨ ∃ m e, placeOf da = .engine k m e) :
    k < 32 := by
  have hlt : da < 0x020120000000 → (da - 0x020100000000) / 0x1000000 < 32 := by omega
  obtain ⟨p, hp, hk⟩ : ∃ p, placeOf da = p ∧ ((∃ o, p = .cm k o) ∨ ∃ m e, p = .engine k m e) := ⟨_, rfl, h⟩
  unfold placeOf at hp
  dsimp only at hp
  repeat' split at hp
  all_goals
    subst hp
    rcases hk with ⟨o, ho⟩ | ⟨m, e, ho⟩
    all_goals cases ho
  all_goals exact hlt (by omega)

theorem paritySite_subset (u : Nat) : paritySite u ⊆ parityCounters := by
  have hcnt : ∀ {k : Nat}, k < 32 → [Reg.tstSramCnt k] ⊆ parityCounters := fun hk =>
    List.cons_subset.mpr ⟨List.mem_cons_of_mem _ (List.mem_map_of_mem (List.mem_range.mpr hk)), List.nil_subset _⟩
  unfold paritySite
  split
  · next h => exact hcnt (core_lt_of_placeOf (.inl ⟨_, h⟩))
  · next h => exact hcnt (core_lt_of_placeOf (.inr ⟨_, _, h⟩))
  · exact List.cons_subset.mpr ⟨List.mem_cons_self .., List.nil_subset _⟩
  · exact List.nil_subset _

theorem parityCounters_high {a : Nat} (h : a < 0x020240000400) : a ∉ parityCounters.map regAddr := by
  simp only [parityCounters, List.map_cons, List.map_map, List.mem_cons, List.mem_map, Function.comp, regAddr, not_or,
    not_exists, not_and]
  exact ⟨by omega, fun i _ => by omega⟩

/-- Reads were scheduled of the memory of core n. -/
abbrev State.Scheduled (s t : State) (n : Nat) : Prop := s.Detected t n parityCounters

section
variable {s t : State} {n : Nat}

theorem scheduled_sched (h : s.hif.kernels = []) (req off len cyc : Nat) (write : Bool) :
    s.Scheduled (s.sched n req off len cyc write) n := by
  refine detected_trans (detected_doIf _ (detected_parityRange h fun u _ _ => paritySite_subset u))
    ⟨regsBut_of_regs_eq rfl, rfl, rfl, rfl, ?_⟩
  rw [State.sched, State.core_modCore_same]

theorem scheduled_schedRange (h : s.hif.kernels = []) (req off len cyc : Nat) (write : Bool) :
    s.Scheduled (s.schedRange n req off len cyc write) n :=
  detected_foldl (fun _ ht _ _ => scheduled_sched ht ..) h

theorem scheduled_schedStages (h : s.hif.kernels = []) (m : Nat) (sts : List Stage) (mt cols fullCols et d0 lat : Nat) :
    s.Scheduled (schedStages n m sts mt cols fullCols et d0 lat s) n := by
  induction sts generalizing s lat with
  | nil => exact detected_refl s n _
  | cons st rest ih =>
    have hrows : ∀ {s : State} {f : State → Nat → State}, s.hif.kernels = [] →
        (∀ t : State, t.hif.kernels = [] → ∀ i, t.Scheduled (f t i) n) → s.Scheduled ((List.range mt).foldl f s) n :=
      fun hs hf => detected_foldl (fun t ht i _ => hf t ht i) hs
    have hstage : ∀ {u : State}, s.Scheduled u n →
        s.Scheduled (schedStages n m rest mt cols fullCols et d0 (lat + stageLatency fullCols et st) u) n :=
      fun hu => detected_trans hu (ih (hu.kernels.trans h) _)
    cases st with
    | bias b => exact hstage (scheduled_schedRange h ..)
    | resid rs f32 rec pitch b =>
      refine hstage (hrows h fun t ht i => ?_)
      have hd : t.Scheduled (t.doIf rs fun s => s.sched n m (rec * 16 + i * 16) 16 (enterAt d0 fullCols et i lat) false) n :=
        detected_doIf _ (scheduled_sched ht ..)
      exact detected_trans hd (scheduled_schedRange (hd.kernels.trans ht) ..)
    | rowstat a b c rec =>
      refine hstage (hrows h fun t ht i => ?_)
      have hd : t.Scheduled (t.sched n m (rec * 16 + i * 16) 16 (enterAt d0 fullCols et i lat) false) n := scheduled_sched ht ..
      exact detected_trans hd (scheduled_sched (hd.kernels.trans ht) ..)
    | _ => exact hstage (detected_refl s n _)

end

section
variable {s t : State} {n : CoreId} (h : s.Scheduled t n)

include h in
/-- Every register but the counters of parity errors reads as before. -/
theorem Scheduled.word {r : Reg} (hr : regAddr r < 0x020240000400) : t.word r = s.word r := by
  exact RegsBut.word h.regs (parityCounters_high hr)

include h in
theorem Scheduled.cyc : t.cyc n = s.cyc n := by
  refine cyc_eq (Scheduled.word h (by have := n.isLt; simp only [regAddr]; omega)) h.now ?_ ?_ <;> rw [h.core]

include h in
theorem Scheduled.pc (c : CtxId) : t.pc n c = s.pc n c := by
  rw [State.pc, State.fld, Scheduled.word h (by have := n.isLt; have := c.isLt; simp only [regAddr]; omega)]
  rfl

include h in
theorem Scheduled.gang : t.gang n = s.gang n := by
  rw [State.gang, State.fld, Scheduled.word h (by have := n.isLt; simp only [regAddr]; omega)]
  rfl

include h in
theorem Scheduled.cm (off len : Nat) : t.cm n off len = s.cm n off len := by
  rw [State.cm, State.rd, h.mem]
  rfl

include h in
theorem Scheduled.mxe (m : Nat) : t.mxe n m = s.mxe n m := by
  rw [State.mxe, h.core]
  rfl

end
end Sys2Proof.Machine
end

section
/-! PROOFS. The operations of the matrix slots and of Fife issue (O25): a ready operation is a bundle of its own, which ends
one cycle later with what the operation does. -/

namespace Sys2Proof.Machine

section
variable {s : State} {n : CoreId} {c : CtxId}

/-- A ready operation other than one of slot 0: the rise it waits for, its effect, and the end of its bundle. -/
theorem bundleIssue_one {o : BOp} (ho : o.slot ≠ 0) : bundleIssue n c [o] s =
    bundleEnd n c (s.pc n c + 1) 1
      (opIssue n c o (s.doIf (bundleRamp s n [o] != 0) fun s => s.freeze n (bundleRamp s n [o]))) := by
  have hrest : [o].filter (fun o => o.slot != 0) = [o] := by simp [ho]
  have hsc : scOp [o] = none := by
    cases o with
    | sc => exact absurd rfl ho
    | _ => rfl
  simp only [bundleIssue, hrest, hsc, List.foldl_cons, List.foldl_nil]

theorem answers_issue {i : Instr} {o : BOp} {t : State} (hd : s.dead = false) (h : s.Ready n c o) (ho : o.slot ≠ 0)
    (he : exec i s = runCore n (issueSlot n c (some o)) s)
    (ht : opIssue n c o (s.doIf (bundleRamp s n [o] != 0) fun s => s.freeze n (bundleRamp s n [o])) = t)
    (hk : t.hif.kernels = []) : Answers i s (bundleEnd n c (s.pc n c + 1) 1 t) := by
  have hi : issueSlot n c (some o) s = bundleEnd n c (s.pc n c + 1) 1 t := by
    rw [ready_issue h, bundleIssue_one ho, ht]
  rw [Answers, he, runCore_eq hd h.1.1, hi]
  rw [hi, hif_bundleEnd]
  exact hk

theorem kernels_of_ready {o : BOp} (h : s.Ready n c o) : s.hif.kernels = [] := by
  obtain ⟨⟨⟨_, _, _, _, _, _, hk⟩, _⟩, _⟩ := h
  exact hk

/-- An operation that waits for level 4 finds its engine there. -/
theorem rampUp_doIf (s : State) (n : CoreId) (m : Nat) :
    rampUp n m (s.doIf (max 0 (s.rampCycles n m) != 0) fun s => s.freeze n (max 0 (s.rampCycles n m))) = s.atWork n m := by
  rw [Nat.zero_max, State.atWork, State.doIf]
  by_cases h : s.rampCycles n m = 0
  · simp [h]
  · simp [h]

end

/-! ### FILL and WLOAD -/

section
variable {s : State} {n : CoreId} {c : CtxId} {m : MxeId}

theorem scheduled_reads (h : s.hif.kernels = []) (req len : Nat) (write : Bool) (reads : List (Nat × Nat)) :
    s.Scheduled (reads.foldl (fun u q => u.sched n req q.2 len q.1 write) s) n :=
  detected_foldl (fun _ ht _ _ => scheduled_sched ht ..) h

theorem fillReads_ab (a : FillArgs) (h : a.dk = false) : s.fillReads n a =
    (List.range (ceilDiv a.len.toNat 8)).map fun i => a.src.toNat * 64 + 512 * i := by
  simp only [State.fillReads, h]
  rfl

theorem fillIssue_eq (h : s.hif.kernels = []) (a : FillArgs) :
    let reads := (s.fillReads n a).zipIdx.map fun q => (s.cyc n + 1 + q.2, q.1)
    fillIssue n c m a s = (reads.foldl (fun u q => u.sched n 8 q.2 512 q.1 false) s).modCore n fun x =>
        { x with fills := x.fills ++ [⟨c, s.pc n c, s.cyc n, m + 1, m, a,
            s.cyc n + if a.dk then 36 + (reads.length - 32) else 3 + ceilDiv a.len.toNat 8, reads, []⟩] } := by
  intro reads
  have hdue : fillCycles a.dk reads.length = if a.dk then 36 + (reads.length - 32) else 3 + ceilDiv a.len.toNat 8 := by
    cases hdk : a.dk with
    | true => rfl
    | false => simp [fillCycles, reads, fillReads_ab a hdk]
  have hpc := Scheduled.pc (scheduled_reads (n := n) h 8 512 false reads) c
  rw [← hdue, ← hpc]
  rfl

theorem answers_fill (hd : s.dead = false) (a : FillArgs) (h : s.Ready n c (.mx m (.fill a))) :
    Answers (.fill n c m a) s (bundleEnd n c (s.pc n c + 1) 1 (fillIssue n c m a s)) := by
  have hk := kernels_of_ready h
  refine answers_issue hd h (by simp [BOp.slot]) rfl rfl ?_
  rw [fillIssue_eq hk]
  exact (scheduled_reads hk ..).kernels.trans hk

/-- What WLOAD leaves, its engine at level 4. -/
theorem wloadIssue_eq (a : WloadArgs) {u : State} (hu : rampUp n m u = s.atWork n m) : wloadIssue n c m a u =
    let r := s.atWork n m
    if a.n.toNat = 0 then r else r.modMxe n m fun x =>
      { x with load := some ⟨c, s.pc n c, a.set.val, a.n.toNat, a.param.toNat, s.cyc n, none⟩,
               issStandby := some (s.setType n m a.set.val) } := by
  simp only [wloadIssue, hu, pc_atWork, (rose_atWork s n m).cyc, setType_atWork]

theorem answers_wload (hd : s.dead = false) (a : WloadArgs) (h : s.Ready n c (.mx m (.wload a))) :
    let r := s.atWork n m
    Answers (.wload n c m a) s (bundleEnd n c (s.pc n c + 1) 1 (if a.n.toNat = 0 then r else r.modMxe n m fun x =>
      { x with load := some ⟨c, s.pc n c, a.set.val, a.n.toNat, a.param.toNat, s.cyc n, none⟩,
               issStandby := some (s.setType n m a.set.val) })) := by
  refine answers_issue hd h (by simp [BOp.slot]) rfl (wloadIssue_eq a (rampUp_doIf s n m)) ?_
  split <;> exact (congrArg Hif.kernels hif_atWork).trans (kernels_of_ready h)

end
end Sys2Proof.Machine
end

section
/-! PROOFS. PASS, SPASS, DRAIN and DISCARD issue (O25): they join the lead's feeder, close or free a tile. -/

namespace Sys2Proof.Machine

section
variable {s : State} {n : CoreId} {c : CtxId} {m : MxeId}

theorem sreg_doIf_freeze (s : State) (n c i k : Nat) (b : Bool) :
    (s.doIf b fun s => s.freeze n k).sreg n c i = s.sreg n c i := by
  cases b <;> rfl

theorem doIf_congr {f g : State → State} (b : Bool) (h : f s = g s) : s.doIf b f = s.doIf b g := by
  cases b
  · rfl
  · exact h

theorem kernels_atWork (h : s.hif.kernels = []) : (s.atWork n m).hif.kernels = [] :=
  (congrArg Hif.kernels hif_atWork).trans h

theorem kernels_foldl {α : Type} {f : State → α → State} (hf : ∀ s a, (f s a).hif = s.hif) (l : List α) {s : State}
    (h : s.hif.kernels = []) : (l.foldl f s).hif.kernels = [] :=
  List.foldlRecOn (motive := fun t : State => t.hif.kernels = []) l f h fun t ht a _ => by rw [hf, ht]

theorem kernels_modMxes (g : Mxe → Mxe) (l : List Nat) (h : s.hif.kernels = []) :
    (l.foldl (fun t i => t.modMxe n i g) s).hif.kernels = [] :=
  kernels_foldl (f := fun t i => t.modMxe n i g) (fun _ _ => rfl) l h

/-! ### PASS -/

/-- A PASS as its lead's feeder takes it, its slot and closing information latched. -/
def passOp (s : State) (n : CoreId) (c : CtxId) (m : MxeId) (a : PassArgs) (q : Xreg) : FeedOp :=
  ⟨false, c, s.pc n c, a.aboff.toNat, a.m.toNat, a.tile.val, a.row0.toNat, a.close, a.kh, a.arow.toNat, a.switch, [], 0,
    (s.atWork n m).latchSlot q.slot, (s.atWork n m).closeInfo n c m a.chain.val q, s.cyc n, false⟩

/-- An operation at the end of a feeder. -/
def State.feed (s : State) (n m : Nat) (op : FeedOp) : State :=
  s.modMxe n m fun x => { x with feeder := x.feeder ++ [op] }

/-- An engine whose standby type is the one of the next PASS (R320). -/
def Mxe.switched (x : Mxe) : Mxe :=
  { x with issEtype := x.issStandby.getD x.issEtype, issValid := true, issStandby := none }

/-- A PASS that feeds and closes nothing. -/
def State.PassIdle (s : State) (n : CoreId) (m : MxeId) (a : PassArgs) : Prop :=
  a.m.toNat = 0 ∧ (a.close = false ∨ (s.tileView n m a.tile.val).isOpen = false)

variable {a : PassArgs} {q : Xreg} {u : State} (hu : rampUp n m u = s.atWork n m)
  (hq : xregOf (u.sreg n c a.xreg.toNat) = some q)
include hu hq

theorem passIssue_idle (hi : s.PassIdle n m a) : passIssue n c m a u =
    if a.close = true ∧ q.evEn = true then (s.atWork n m).signal n q.event {} else s.atWork n m := by
  unfold passIssue
  rw [hq]
  dsimp only
  rw [hu, if_pos (by rw [tileOpen_atWork]; exact hi)]
  cases a.close <;> cases q.evEn <;> rfl

theorem passIssue_feeds (hi : ¬ s.PassIdle n m a) : passIssue n c m a u =
    ((s.atWork n m).feed n m (passOp s n c m a q)).doIf a.switch fun t =>
      (membersOf (s.gang n) m).foldl (fun t i => t.modMxe n i Mxe.switched) t := by
  unfold passIssue
  rw [hq]
  dsimp only
  rw [hu, if_neg (by rw [tileOpen_atWork]; exact hi), pc_atWork, (rose_atWork s n m).cyc]
  exact doIf_congr _ (gang_atWork (s := s) (m := m) ▸ rfl)

end

section
variable {s : State} {n : CoreId} {c : CtxId} {m : MxeId} (hd : s.dead = false)
include hd

theorem answers_pass {a : PassArgs} (h : s.Ready n c (.mx m (.pass a))) {q : Xreg}
    (hq : xregOf (s.sreg n c a.xreg.toNat) = some q) :
    (s.PassIdle n m a → Answers (.pass n c m a) s (bundleEnd n c (s.pc n c + 1) 1
      (if a.close = true ∧ q.evEn = true then (s.atWork n m).signal n q.event {} else s.atWork n m))) ∧
    (¬ s.PassIdle n m a → Answers (.pass n c m a) s (bundleEnd n c (s.pc n c + 1) 1
      (((s.atWork n m).feed n m (passOp s n c m a q)).doIf a.switch fun t =>
        (membersOf (s.gang n) m).foldl (fun t i => t.modMxe n i Mxe.switched) t))) := by
  have hu := rampUp_doIf s n m
  have hk : (s.atWork n m).hif.kernels = [] := kernels_atWork (kernels_of_ready h)
  rw [← sreg_doIf_freeze s n c _ (max 0 (s.rampCycles n m)) (max 0 (s.rampCycles n m) != 0)] at hq
  refine ⟨fun hi => answers_issue hd h (by simp [BOp.slot]) rfl (passIssue_idle hu hq hi) ?_,
    fun hi => answers_issue hd h (by simp [BOp.slot]) rfl (passIssue_feeds hu hq hi) ?_⟩
  · split
    · rw [signal_rest]
      exact hk
    · exact hk
  · cases a.switch
    · exact hk
    · exact kernels_modMxes _ _ hk

end

/-! ### SPASS -/

section
variable {s : State} {n : CoreId} {c : CtxId} {m : MxeId}

theorem spassIssue_eq (hk : s.hif.kernels = []) {a : SpassArgs} {q : Xreg} {w : State} (hw : rampUp n m w = s.atWork n m)
    (hq : xregOf (w.sreg n c a.xreg.toNat) = some q) :
    let es := s.srcList n a
    let u := (s.atWork n m).schedRange n 8 (a.list.toNat * 64) (a.count.toNat * 16) (s.cyc n) false
    spassIssue n c m a w = (membersOf (s.gang n) m).foldl (fun t i => t.modMxe n i fun x =>
        { x with issEtype := s.spassType n es (s.mxe n m).issEtype, issValid := true })
      (u.feed n m ⟨true, c, s.pc n c, 0, a.m.toNat, a.tile.val, a.row0.toNat, a.close, false, 0, false, es,
        a.count.toNat, u.latchSlot q.slot, u.closeInfo n c m a.chain.val q, s.cyc n, false⟩) := by
  intro es u
  have hcyc : (s.atWork n m).cyc n = s.cyc n := (rose_atWork s n m).cyc
  have hcm : ∀ off len, (s.atWork n m).cm n off len = s.cm n off len := fun off len => by
    rw [State.cm, State.rd, mem_atWork]; rfl
  have hes : (s.atWork n m).srcList n a = es := by
    unfold State.srcList State.cmN
    simp only [hcm, es, State.srcList, State.cmN]
  have hu : (s.atWork n m).Scheduled u n := scheduled_schedRange (kernels_atWork hk) ..
  have hmxe : ((s.atWork n m).mxe n m).issEtype = (s.mxe n m).issEtype := by
    rw [(rose_atWork s n m).mxe m]
  have htype : u.spassType n es (u.mxe n m).issEtype = s.spassType n es (s.mxe n m).issEtype := by
    rw [Scheduled.mxe hu, hmxe]
    cases he : es with
    | nil => rfl
    | cons e l => simp only [State.spassType, Scheduled.cm hu, hcm]
  unfold spassIssue
  rw [hq]
  dsimp only
  rw [hw, hcyc, hes, Scheduled.cyc hu, Scheduled.pc hu, htype, hcyc, pc_atWork]
  rw [← gang_atWork (s := s) (m := m), ← Scheduled.gang hu]
  rfl

theorem answers_spass (hd : s.dead = false) {a : SpassArgs} (h : s.Ready n c (.mx m (.spass a))) {q : Xreg}
    (hq : xregOf (s.sreg n c a.xreg.toNat) = some q) :
    let es := s.srcList n a
    let u := (s.atWork n m).schedRange n 8 (a.list.toNat * 64) (a.count.toNat * 16) (s.cyc n) false
    Answers (.spass n c m a) s (bundleEnd n c (s.pc n c + 1) 1
      ((membersOf (s.gang n) m).foldl (fun t i => t.modMxe n i fun x =>
        { x with issEtype := s.spassType n es (s.mxe n m).issEtype, issValid := true })
      (u.feed n m ⟨true, c, s.pc n c, 0, a.m.toNat, a.tile.val, a.row0.toNat, a.close, false, 0, false, es,
        a.count.toNat, u.latchSlot q.slot, u.closeInfo n c m a.chain.val q, s.cyc n, false⟩))) := by
  have hk := kernels_of_ready h
  have hu : (s.atWork n m).Scheduled _ n :=
    scheduled_schedRange (kernels_atWork hk) 8 (a.list.toNat * 64) (a.count.toNat * 16) (s.cyc n) false
  rw [← sreg_doIf_freeze s n c _ (max 0 (s.rampCycles n m)) (max 0 (s.rampCycles n m) != 0)] at hq
  exact answers_issue hd h (by simp [BOp.slot]) rfl (spassIssue_eq hk (rampUp_doIf s n m) hq)
    (kernels_modMxes _ _ (hu.kernels.trans (kernels_atWork hk)))

end

/-! ### DRAIN and DISCARD -/

section
variable {s : State} {n : CoreId} {c : CtxId} {m : MxeId} (hd : s.dead = false)
include hd

theorem answers_drain {a : DrainArgs} (h : s.Ready n c (.mx m (.drain a))) {q : Xreg}
    (hq : xregOf (s.sreg n c a.xreg.toNat) = some q) :
    Answers (.drain n c m a) s (bundleEnd n c (s.pc n c + 1) 1 ((membersOf (s.gang n) m).foldl (fun t i =>
      t.modMxe n i fun x => pushDrain a.tile.val (s.closeInfo n c m a.chain.val q) (s.cyc n) x) s)) := by
  have he : drainIssue n c m a s = (membersOf (s.gang n) m).foldl (fun t i =>
      t.modMxe n i fun x => pushDrain a.tile.val (s.closeInfo n c m a.chain.val q) (t.cyc n) x) s := by
    unfold drainIssue
    rw [hq]
  have hcyc : ∀ l : List Nat, ∀ t : State, t.cyc n = s.cyc n → l.foldl (fun t i =>
      t.modMxe n i fun x => pushDrain a.tile.val (s.closeInfo n c m a.chain.val q) (t.cyc n) x) t =
      l.foldl (fun t i => t.modMxe n i fun x => pushDrain a.tile.val (s.closeInfo n c m a.chain.val q) (s.cyc n) x) t := by
    intro l
    induction l with
    | nil => exact fun _ _ => rfl
    | cons i l ih =>
      intro t ht
      rw [List.foldl_cons, List.foldl_cons, ht]
      exact ih _ ((cyc_modMxe ..).trans ht)
  exact answers_issue hd h (by simp [BOp.slot]) rfl (he.trans (hcyc _ s rfl))
    (kernels_modMxes _ _ (kernels_of_ready h))

theorem answers_discard {t : Fin 8} (h : s.Ready n c (.mx m (.discard t))) :
    Answers (.discard n c m t) s (bundleEnd n c (s.pc n c + 1) 1
      ((membersOf (s.gang n) m).foldl (fun u i => u.dropTile n i t) s)) :=
  answers_issue hd h (by simp [BOp.slot]) rfl rfl (kernels_foldl (fun u i => by
    unfold State.dropTile
    split <;> rfl) _ (kernels_of_ready h))

end
end Sys2Proof.Machine
end

section
/-! PROOFS. FMV and FDISCARD issue (O25): an FMV is queued with what it latches and, where its operands and those of the
FMVs ahead are in core memory, its lane cycles are planned (R328). -/

namespace Sys2Proof.Machine

/-! ### The plan of an FMV -/

section
variable {s : State} {n : CoreId} (h : s.hif.kernels = [])
include h

theorem scheduled_schedStrip (d : FmvDesc) (chain : List Word) (int : Bool) (start cyc i : Nat) :
    s.Scheduled (schedStrip n d chain int start cyc i s) n := by
  have hst := scheduled_schedStages (n := n) h 9 ((stagesOf chain).map (stripStage i)) d.v 128 128
    (outType ((stagesOf chain).map (stripStage i)) int) (fifeEnter start cyc i) 0
  unfold schedStrip
  dsimp only
  refine detected_trans hst ?_
  exact detected_doIf _ (detected_foldl (fun _ ht _ _ => scheduled_sched ht ..) (hst.kernels.trans h))

/-- What an FMV schedules: the reads of its operands and, unless it holds, the accesses of its strips. -/
theorem scheduled_fifeAccesses (rs : List (Nat × Nat)) (d : FmvDesc) (chain : List Word) (int : Bool) (start cyc : Nat) :
    let u := rs.foldl (fun s r => s.sched n 9 r.2 512 r.1 false) s
    s.Scheduled (if d.hold then u else (List.range d.strips).foldl (fun s i => schedStrip n d chain int start cyc i s) u)
      n := by
  intro u
  have hu : s.Scheduled u n := scheduled_reads h ..
  cases d.hold
  · exact detected_trans hu (detected_foldl (fun _ ht _ _ => scheduled_schedStrip ht ..) (hu.kernels.trans h))
  · exact hu

/-- Planning an FMV schedules accesses and changes Fife; an FMV whose lane cycles are known takes them. -/
theorem fifePlan_planned {k : Nat} {o : FifeOp} (ho : (s.core n).fife[k]? = some o) (hst : o.start = none) {start cyc : Nat}
    (ht : s.fifeTimes n o.issue (fmvOf o.desc) (s.fifeIn n o) ((s.core n).fife.take k) = some (start, cyc))
    (hd : ¬ ((fmvOf o.desc).k = 0 ∨ (fmvOf o.desc).strips = 0)) :
    ∃ u, ∃ f : Core → List FifeOp, s.Scheduled u n ∧ fifePlan n k s = u.modCore n fun x =>
      { x with fife := f x, fifeFree := start + (fmvOf o.desc).strips * cyc } := by
  unfold fifePlan
  dsimp only
  rw [ho]
  dsimp only
  rw [if_neg (by rw [hst]; exact Bool.false_ne_true), ht]
  dsimp only
  rw [if_neg hd]
  exact ⟨_, _, scheduled_fifeAccesses h .., rfl⟩

theorem kernels_fifePlan (k : Nat) : (fifePlan n k s).hif.kernels = [] := by
  unfold fifePlan
  dsimp only
  split
  · exact h
  · split
    · exact h
    · split
      · exact h
      · split
        · exact h
        · exact (scheduled_fifeAccesses h ..).kernels.trans h

end

/-! ### An FMV in the queue -/

/-- An FMV as it is queued, its descriptor read. -/
def fmvOp (s u : State) (n : CoreId) (c : CtxId) (off : Nat) : FifeOp :=
  let bs := s.cm n (off * 32) 32
  let d := fmvOf bs
  ⟨c, u.pc n c, bs, u.latchSlot d.slot, u.fifeChain n d.chain,
    (if d.wsrc ∨ d.k = 0 then []
      else (stripsFrom (s.cmUpTo n) (ceilDiv d.k 128) d.strips (d.woff * 64)).1.map Prod.fst), u.cyc n,
    u.amaxLatches (stagesOf (u.fifeChain n d.chain)), false, none, [], [], none⟩

/-- The state with an FMV at the end of Fife's queue, its descriptor read. -/
def State.fmvQueued (s : State) (n : CoreId) (c : CtxId) (off : Nat) : State :=
  let u := s.sched n 9 (off * 32) 32 (s.cyc n) false
  u.modCore n fun x => { x with fife := x.fife ++ [fmvOp s u n c off] }

theorem fmvIssue_last (s : State) (n : CoreId) (c : CtxId) (off : Nat) : fmvIssue n c off s =
    fifePlan n (((s.fmvQueued n c off).core n).fife.length - 1) (s.fmvQueued n c off) := rfl

theorem fmvOp_eq {s u : State} {n : CoreId} (h : s.Scheduled u n) (c : CtxId) (off : Nat) :
    fmvOp s u n c off = { fmvOp s u n c off with pc := s.pc n c, issue := s.cyc n } := by
  rw [← Scheduled.pc h, ← Scheduled.cyc h]
  rfl

section
variable {s : State} {n : CoreId} {c : CtxId} (h : s.hif.kernels = []) (off : Nat)
include h

theorem scheduled_descriptor : s.Scheduled (s.sched n 9 (off * 32) 32 (s.cyc n) false) n := scheduled_sched h ..

theorem core_fmvQueued :
    let u := s.sched n 9 (off * 32) 32 (s.cyc n) false
    (s.fmvQueued n c off).core n =
      { s.core n with sched := (u.core n).sched, fife := (s.core n).fife ++ [fmvOp s u n c off] } := by
  intro u
  rw [State.fmvQueued, State.core_modCore_same, (scheduled_descriptor h off).core]

theorem length_fmvQueued : ((s.fmvQueued n c off).core n).fife.length - 1 = (s.core n).fife.length := by
  rw [core_fmvQueued h off]
  simp

theorem fmvIssue_eq : fmvIssue n c off s = fifePlan n (s.core n).fife.length (s.fmvQueued n c off) := by
  rw [fmvIssue_last, length_fmvQueued h]

theorem kernels_fmvQueued : (s.fmvQueued n c off).hif.kernels = [] := (scheduled_descriptor (n := n) h off).kernels.trans h

theorem kernels_fmvIssue : (fmvIssue n c off s).hif.kernels = [] := by
  rw [fmvIssue_eq h]
  exact kernels_fifePlan (kernels_fmvQueued h off) _

/-- Fed from core memory, with the FMVs ahead fed from core memory, an FMV takes K times V over the lanes for each strip
(R328). -/
theorem fifeFree_fmvIssue :
    let d := fmvOf (s.cm n (off * 32) 32)
    d.wsrc = false → d.gather = false → d.k ≠ 0 → d.strips ≠ 0 → (∀ o ∈ (s.core n).fife, o.start ≠ none) →
    ((fmvIssue n c off s).core n).fifeFree = max (s.cyc n) (s.core n).fifeFree +
      d.strips * ceilDiv (d.k * d.v) (fifeLanes (s.fmvType n d)) ∧
    ((fmvIssue n c off s).core n).stops = (s.core n).stops := by
  intro d hw hg hk hs ha
  have hu := scheduled_descriptor (n := n) h off
  have hcore := core_fmvQueued (n := n) (c := c) h off
  have hat : ((s.fmvQueued n c off).core n).fife[(s.core n).fife.length]? =
      some (fmvOp s (s.sched n 9 (off * 32) 32 (s.cyc n) false) n c off) := by
    rw [hcore]
    exact List.getElem?_concat_length ..
  have htake : ((s.fmvQueued n c off).core n).fife.take (s.core n).fife.length = (s.core n).fife := by
    rw [hcore]
    exact List.take_left' rfl
  have hahead : (s.core n).fife.any (fun p => p.start.isNone) = false := by
    simpa using ha
  have htype : (s.fmvQueued n c off).fmvType n d = s.fmvType n d := congrArg (fun b => (hdrOf b).etype) (Scheduled.cm hu ..)
  have htimes : ∀ x, (s.fmvQueued n c off).fifeTimes n (s.cyc n) d x
      (((s.fmvQueued n c off).core n).fife.take (s.core n).fife.length) =
      some (max (s.cyc n) (s.core n).fifeFree, ceilDiv (d.k * d.v) (fifeLanes (s.fmvType n d))) := fun x => by
    have hfree : ((s.fmvQueued n c off).core n).fifeFree = (s.core n).fifeFree := by rw [hcore]
    rw [htake, State.fifeTimes, hw, hahead, if_neg (by decide), htype, hg, hfree]
    rfl
  have hissue : (fmvOp s (s.sched n 9 (off * 32) 32 (s.cyc n) false) n c off).issue = s.cyc n := Scheduled.cyc hu
  obtain ⟨v, f, hv, he⟩ := fifePlan_planned (kernels_fmvQueued h off) hat rfl (hissue ▸ htimes _) (not_or.mpr ⟨hk, hs⟩)
  rw [fmvIssue_eq h, he, State.core_modCore_same]
  dsimp only
  rw [hissue, hv.core, hcore]
  exact ⟨rfl, rfl⟩

end

/-! ### What the commands answer -/

section
variable {s : State} {n : CoreId} {c : CtxId} (hd : s.dead = false)
include hd

theorem answers_fmv {off : BitVec 18} (h : s.Ready n c (.ff 1 off.toNat)) :
    Answers (.fmv n c off) s (bundleEnd n c (s.pc n c + 1) 1 (fmvIssue n c off.toNat s)) :=
  answers_issue hd h (by simp [BOp.slot]) rfl rfl (kernels_fmvIssue (kernels_of_ready h) _)

theorem answers_fdiscard (h : s.Ready n c (.ff 2 0)) :
    Answers (.fdiscard n c) s (bundleEnd n c (s.pc n c + 1) 1 (s.modCore n fun x =>
      if x.fife = [] then { x with fifeHold := none }
      else { x with fife := x.fife.modify (x.fife.length - 1) fun o => { o with drop := true } })) := by
  have hf : fdiscard n s = s.modCore n fun x =>
      if x.fife = [] then { x with fifeHold := none }
      else { x with fife := x.fife.modify (x.fife.length - 1) fun o => { o with drop := true } } := by
    simp only [fdiscard, List.isEmpty_iff]
  rw [← hf]
  exact answers_issue hd h (by simp [BOp.slot]) rfl rfl (show s.hif.kernels = [] from kernels_of_ready h)

end

/-- The end of a bundle of a context that does not stop leaves Fife. -/
theorem fifeFree_bundleEnd {s : State} {n c p k : Nat} (h : c ∉ (s.core n).stops) :
    ((bundleEnd n c p k s).core n).fifeFree = (s.core n).fifeFree := by
  have hset : (setPcTo n c p s).core n =
      { s.core n with pcOut := if p < 2048 then (s.core n).pcOut.filter (· != c) else c :: (s.core n).pcOut } :=
    State.core_modCore_same ..
  unfold bundleEnd
  dsimp only
  rw [State.core_modCore_same, hset, if_neg (by simpa using h), State.core_modCore_same, hset]

/-- Settles O25: a ready operation issues as a bundle of its own, and each clause is what its slot does. -/
theorem matrixSlotsIssue : Obligations.MatrixSlotsIssue := by
  intro s n c m hd next g r
  have hg : s.Rose r n (.mxeStallCnt n (leadOf (s.gang n) m) :: g.map (.mxeStatus n)) := rose_atWork s n m
  refine ⟨⟨fun hl => atWork_high s n m hl, fun hl => ⟨now_atWork s n m hl, hg.cyc, fun i hi => level_atWork s n m hl hi,
    hg.regs, hg.rest⟩⟩, fun a h => ⟨fun hdk => fillReads_ab a hdk, ?_⟩, fun a h => answers_wload hd a h,
    fun a h q hq => ?_, fun a h q hq => answers_spass hd h hq, fun a h q hq => answers_drain hd h hq,
    fun t h => answers_discard hd h, fun off h => ⟨?_, fun hw hgt hk hs ha => ?_⟩, fun h => answers_fdiscard hd h⟩
  · have hf := answers_fill hd a h
    rwa [fillIssue_eq (kernels_of_ready h)] at hf
  · obtain ⟨hidle, hfeeds⟩ := answers_pass hd h hq
    refine ⟨hidle, fun hi hsw => ?_, fun hi hsw => ?_⟩
    · have hf := hfeeds hi
      rwa [hsw] at hf
    · have hf := hfeeds hi
      rwa [hsw] at hf
  · have hf := answers_fmv hd h
    rw [fmvIssue_eq (kernels_of_ready h), State.fmvQueued, fmvOp_eq (scheduled_descriptor (kernels_of_ready h) _)] at hf
    exact hf
  · obtain ⟨⟨-, -, -, -, -, -, -, -, hstop⟩, -⟩ := id h
    obtain ⟨hfree, hstops⟩ := fifeFree_fmvIssue (c := c) (kernels_of_ready h) off.toNat hw hgt hk hs ha
    refine ⟨_, answers_fmv hd h, ?_⟩
    rw [fifeFree_bundleEnd (by rwa [hstops]), hfree]

end Sys2Proof.Machine
end

section
/-! PROOFS. The columns that an array bypasses (R86) and its scan (R495): failing columns take the free slots of MXE_BYPASS
one by one. -/

namespace Sys2Proof.Machine

/-! ### The slots of MXE_BYPASS -/

/-- Slot i of MXE_BYPASS: enable bit and column. -/
def bypassSlot (w i : Nat) : Nat := w / 2 ^ (8 * i) % 256

/-- The slots in use. -/
def bypassUsed (w : Nat) : List Nat := (List.range 4).filter fun i => bitAt w (8 * i + 7)

/-- Column c put in slot i, which was free. -/
def bypassPut (w c i : Nat) : Nat :=
  w + (128 + c) * 2 ^ (8 * i) - bitsOf w (8 * i + 6) (8 * i) * 2 ^ (8 * i)

theorem bitAt_slot (w i : Nat) : bitAt w (8 * i + 7) = true ↔ 128 ≤ bypassSlot w i := by
  have h : w / 2 ^ (8 * i + 7) = w / 2 ^ (8 * i) / 128 := by rw [pow_add, Nat.div_div_eq_div_mul]; rfl
  simp only [bitAt, bypassSlot, h, beq_iff_eq]
  omega

theorem bitsOf_slot (w i : Nat) : bitsOf w (8 * i + 6) (8 * i) = bypassSlot w i % 128 := by
  have h : 8 * i + 6 - 8 * i + 1 = 7 := by omega
  simp only [bitsOf, bypassSlot, h]
  omega

theorem mem_bypassedOf {w x : Nat} : x ∈ bypassedOf w ↔ ∃ i < 4, bypassSlot w i = 128 + x := by
  simp only [bypassedOf, List.mem_dedup, List.mem_filterMap, List.mem_range, Option.ite_none_right_eq_some,
    Option.some.injEq, bitAt_slot, bitsOf_slot]
  refine exists_congr fun i => and_congr_right fun _ => ?_
  have hlt : bypassSlot w i < 256 := Nat.mod_lt _ (by decide)
  omega

theorem mem_bypassUsed {w i : Nat} : i ∈ bypassUsed w ↔ i < 4 ∧ 128 ≤ bypassSlot w i := by
  simp only [bypassUsed, List.mem_filter, List.mem_range, bitAt_slot]

theorem nodup_bypassedOf (w : Nat) : (bypassedOf w).Nodup := List.nodup_dedup _
theorem nodup_bypassUsed (w : Nat) : (bypassUsed w).Nodup := List.nodup_range.filter _

/-- The column put reads in its slot, and the other slots as before. -/
theorem bypassSlot_put {w c i j : Nat} (hc : c < 128) (hi : i < 4) (hj : j < 4) (hfree : bypassSlot w i < 128) :
    bypassSlot (bypassPut w c i % 2 ^ 64) j = if j = i then 128 + c else bypassSlot w j := by
  rw [bypassPut, bitsOf_slot]
  unfold bypassSlot at *
  rcases (by omega : i = 0 ∨ i = 1 ∨ i = 2 ∨ i = 3) with rfl | rfl | rfl | rfl <;>
    rcases (by omega : j = 0 ∨ j = 1 ∨ j = 2 ∨ j = 3) with rfl | rfl | rfl | rfl <;>
    simp only [Nat.reduceMul, Nat.reducePow, Nat.reduceEqDiff, reduceIte] at * <;> omega

section
variable {w c i : Nat} (hc : c < 128) (hi : i < 4) (hfree : bypassSlot w i < 128)
include hc hi hfree

theorem mem_bypassedOf_put {x : Nat} : x ∈ bypassedOf (bypassPut w c i % 2 ^ 64) ↔ x = c ∨ x ∈ bypassedOf w := by
  simp only [mem_bypassedOf]
  constructor
  · rintro ⟨j, hj, hx⟩
    rw [bypassSlot_put hc hi hj hfree] at hx
    split at hx
    · exact .inl (by omega)
    · exact .inr ⟨j, hj, hx⟩
  · rintro (rfl | ⟨j, hj, hx⟩)
    · exact ⟨i, hi, by rw [bypassSlot_put hc hi hi hfree, if_pos rfl]⟩
    · refine ⟨j, hj, ?_⟩
      rw [bypassSlot_put hc hi hj hfree, if_neg (by rintro rfl; omega), hx]

theorem mem_bypassUsed_put {j : Nat} : j ∈ bypassUsed (bypassPut w c i % 2 ^ 64) ↔ j = i ∨ j ∈ bypassUsed w := by
  simp only [mem_bypassUsed]
  by_cases hj : j < 4
  · rw [bypassSlot_put hc hi hj hfree]
    split
    · simp [*]
    · simp [*]
  · have : j ≠ i := by omega
    simp [*]

/-- Where each slot in use held a column of its own, each does after another column is put in a free slot. -/
theorem bypassUsed_put_length (hused : (bypassUsed w).length = (bypassedOf w).length) (hnew : c ∉ bypassedOf w) :
    (bypassUsed (bypassPut w c i % 2 ^ 64)).length = (bypassedOf (bypassPut w c i % 2 ^ 64)).length := by
  have hi' : i ∉ bypassUsed w := fun h => by
    have := (mem_bypassUsed.mp h).2
    omega
  have hu : (bypassUsed (bypassPut w c i % 2 ^ 64)).Perm (i :: bypassUsed w) :=
    (List.perm_ext_iff_of_nodup (nodup_bypassUsed _) (List.nodup_cons.mpr ⟨hi', nodup_bypassUsed w⟩)).mpr fun j => by
      rw [mem_bypassUsed_put hc hi hfree, List.mem_cons]
  have hb : (bypassedOf (bypassPut w c i % 2 ^ 64)).Perm (c :: bypassedOf w) :=
    (List.perm_ext_iff_of_nodup (nodup_bypassedOf _) (List.nodup_cons.mpr ⟨hnew, nodup_bypassedOf w⟩)).mpr fun x => by
      rw [mem_bypassedOf_put hc hi hfree, List.mem_cons]
  rw [hu.length_eq, hb.length_eq, List.length_cons, List.length_cons, hused]

end

/-! ### Failing columns join the bypassed ones -/

/-- MXE_BYPASS with one column more, where it does not bypass that column and has a free slot. -/
def bypassWith (w c : Nat) : Nat :=
  if (bypassedOf w).contains c then w
  else match (List.range 4).find? fun i => !bitAt w (8 * i + 7) with
    | none => w
    | some i => bypassPut w c i % 2 ^ 64

theorem bypassWith_old {w c : Nat} (h : c ∈ bypassedOf w) : bypassWith w c = w := if_pos (by simpa using h)

/-- The first free slot, or none where all are in use. -/
theorem freeSlot_cases (w : Nat) :
    ((List.range 4).find? (fun i => !bitAt w (8 * i + 7)) = none ∧ (bypassUsed w).length = 4) ∨
    ∃ i < 4, bypassSlot w i < 128 ∧ (List.range 4).find? (fun i => !bitAt w (8 * i + 7)) = some i := by
  cases h : (List.range 4).find? fun i => !bitAt w (8 * i + 7) with
  | none =>
    refine .inl ⟨rfl, ?_⟩
    have hall : ∀ i ∈ List.range 4, bitAt w (8 * i + 7) = true := by simpa using List.find?_eq_none.mp h
    rw [bypassUsed, List.filter_eq_self.mpr hall]
    rfl
  | some i =>
    refine .inr ⟨i, List.mem_range.mp (List.mem_of_find?_eq_some h), ?_, rfl⟩
    have hbit : ¬ bitAt w (8 * i + 7) = true := by simpa using List.find?_some h
    rw [bitAt_slot] at hbit
    omega

section
variable {w c : Nat} (hc : c < 128)
include hc

theorem mem_bypassWith {x : Nat} (h : x ∈ bypassedOf (bypassWith w c)) : x = c ∨ x ∈ bypassedOf w := by
  by_cases hold : c ∈ bypassedOf w
  · rw [bypassWith_old hold] at h
    exact .inr h
  · rw [bypassWith, if_neg (by simpa using hold)] at h
    rcases freeSlot_cases w with ⟨hf, -⟩ | ⟨i, hi, hfree, hf⟩ <;> rw [hf] at h
    · exact .inr h
    · exact (mem_bypassedOf_put hc hi hfree).mp h

/-- With no more than four columns in all a new one finds a free slot. -/
theorem bypassWith_room (hused : (bypassUsed w).length = (bypassedOf w).length)
    (hroom : (c :: bypassedOf w).dedup.length ≤ 4) :
    (bypassUsed (bypassWith w c)).length = (bypassedOf (bypassWith w c)).length ∧
    ∀ x, x ∈ bypassedOf (bypassWith w c) ↔ x = c ∨ x ∈ bypassedOf w := by
  by_cases hold : c ∈ bypassedOf w
  · rw [bypassWith_old hold]
    exact ⟨hused, fun x => ⟨.inr, fun h => h.elim (fun h => h ▸ hold) id⟩⟩
  · rw [bypassWith, if_neg (by simpa using hold)]
    rcases freeSlot_cases w with ⟨-, hfull⟩ | ⟨i, hi, hfree, hf⟩
    · rw [List.dedup_cons_of_notMem hold, (nodup_bypassedOf w).dedup, List.length_cons, ← hused, hfull] at hroom
      omega
    · rw [hf]
      exact ⟨bypassUsed_put_length hc hi hfree hused hold, fun x => mem_bypassedOf_put hc hi hfree⟩

end

section
variable {cs : List Nat} (hcs : ∀ c ∈ cs, c < 128)
include hcs

theorem mem_bypassWiths (w : Nat) {x : Nat} (h : x ∈ bypassedOf (cs.foldl bypassWith w)) : x ∈ bypassedOf w ++ cs := by
  induction cs generalizing w with
  | nil => simpa using h
  | cons c cs ih =>
    rw [List.foldl_cons] at h
    have hrest := ih (fun d hd => hcs d (List.mem_cons_of_mem _ hd)) _ h
    rcases List.mem_append.mp hrest with hx | hx
    · rcases mem_bypassWith (hcs c (List.mem_cons_self ..)) hx with rfl | hx
      · simp
      · simp [hx]
    · simp [hx]

theorem bypassWiths_room (w : Nat) (hused : (bypassUsed w).length = (bypassedOf w).length)
    (hroom : (bypassedOf w ++ cs).dedup.length ≤ 4) : ∀ x ∈ bypassedOf w ++ cs, x ∈ bypassedOf (cs.foldl bypassWith w) := by
  induction cs generalizing w with
  | nil => simp
  | cons c cs ih =>
    have hsub : ∀ l : List Nat, (∀ x ∈ l, x ∈ bypassedOf w ++ c :: cs) → l.dedup.length ≤ 4 := fun l hl =>
      (List.nodup_dedup l).subperm (fun x hx => List.mem_dedup.mpr (hl x (List.mem_dedup.mp hx))) |>.length_le.trans hroom
    obtain ⟨hu, hmem⟩ := bypassWith_room (hcs c (List.mem_cons_self ..)) hused
      (hsub _ fun x hx => by rcases List.mem_cons.mp hx with rfl | hx <;> simp [*])
    have hlist : ∀ x, x ∈ bypassedOf (bypassWith w c) ++ cs ↔ x ∈ bypassedOf w ++ c :: cs := fun x => by
      simp only [List.mem_append, hmem, List.mem_cons]
      tauto
    intro x hx
    exact ih (fun d hd => hcs d (List.mem_cons_of_mem _ hd)) _ hu (hsub _ fun x hx => (hlist x).mp hx) x ((hlist x).mpr hx)

end

end Sys2Proof.Machine
end

section
/-! PROOFS. The scan of an array's columns (R495) as the command does it. -/

namespace Sys2Proof.Machine

/-! ### Frames of registers beside the error unit -/

section
variable {s t u : State} {rs : List Reg}

theorem regsButErr_of_regsBut (h : s.RegsBut t rs) : s.RegsButErr t rs := fun a ha _ _ => h a ha

theorem regsButErr_of_errOnly (h : ErrOnly s t) : s.RegsButErr t rs := fun a _ h1 h2 => h.2 a (by
  simp only [errAddr]
  omega)

theorem regsButErr_trans (h : s.RegsButErr t rs) (k : t.RegsButErr u rs) : s.RegsButErr u rs :=
  fun a ha h1 h2 => (k a ha h1 h2).trans (h a ha h1 h2)

theorem regsButErr_mono {qs : List Reg} (h : s.RegsButErr t rs) (hs : rs ⊆ qs) : s.RegsButErr t qs :=
  fun a ha => h a fun hr => ha (List.map_subset _ hs hr)

theorem RegsButErr.word (h : s.RegsButErr t rs) {r : Reg} (hr : regAddr r ∉ rs.map regAddr) (he : ¬ errAddr (regAddr r)) :
    t.word r = s.word r := by
  simp only [errAddr] at he
  simp only [State.word, h _ hr (by omega) (by omega)]

end

/-! ### Columns bypassed -/

/-- One column joins the bypassed ones of an array (R86). -/
def State.bypassColumn (s : State) (n m c : Nat) : State :=
  let w := s.word (.mxeBypass n m)
  let free := (List.range 4).find? fun i => !bitAt w (8 * i + 7)
  if (bypassedOf w).contains c then s
  else match free with
  | none => s
  | some i =>
    ((s.setWord (.mxeBypass n m) (bypassPut w c i)).dropWeights n m).raise
      { src := srcOf 1 n (m + 1), code := ecColumnBypass, fw := true, detail := [(32, 1, m), (33, 2, c)] }

theorem addBypass_eq (n m : Nat) (cs : List Nat) (s : State) :
    addBypass n m cs s = cs.foldl (fun t c => t.bypassColumn n m c) s := rfl

/-- From s to t columns of an array were bypassed. -/
structure State.Bypassed (s t : State) (n m : Nat) : Prop where
  regs : s.RegsButErr t [.mxeBypass n m, .mxeStatus n m]
  mem : t.mem = s.mem
  now : t.now = s.now
  hif : t.hif = s.hif
  scan : (t.mxe n m).scan = (s.mxe n m).scan

section
variable {s t u : State} {n m : Nat}

theorem bypassed_refl (s : State) (n m : Nat) : s.Bypassed s n m :=
  ⟨regsButErr_of_regsBut (regsBut_refl s _), rfl, rfl, rfl, rfl⟩

theorem bypassed_trans (h : s.Bypassed t n m) (k : t.Bypassed u n m) : s.Bypassed u n m :=
  ⟨regsButErr_trans h.regs k.regs, k.mem.trans h.mem, k.now.trans h.now, k.hif.trans h.hif, k.scan.trans h.scan⟩

theorem bypassed_raise (s : State) (n m : Nat) (e : Err) : s.Bypassed (s.raise e) n m := by
  have h := errOnly_raise s e
  refine ⟨regsButErr_of_errOnly h, ?_, ?_, ?_, ?_⟩ <;> rw [h.1]
  rfl

theorem bypassed_put (s : State) (n m v : Nat) : s.Bypassed ((s.setWord (.mxeBypass n m) v).dropWeights n m) n m where
  regs := regsButErr_of_regsBut (regsBut_trans (regsBut_setWord (r := .mxeBypass n m) (regsBut_refl s _) (by simp))
    (regsBut_mono (regsBut_dropWeights _ n m) (by simp)))
  mem := rfl
  now := rfl
  hif := rfl
  scan := by rw [mxe_dropWeights_same]; rfl

theorem bypassed_column (s : State) (n m c : Nat) : s.Bypassed (s.bypassColumn n m c) n m := by
  unfold State.bypassColumn
  dsimp only
  split
  · exact bypassed_refl s n m
  · split
    · exact bypassed_refl s n m
    · exact bypassed_trans (bypassed_put s n m _) (bypassed_raise _ n m _)

theorem bypassed_addBypass (s : State) (n m : Nat) (cs : List Nat) : s.Bypassed (addBypass n m cs s) n m :=
  List.foldlRecOn (motive := fun t => s.Bypassed t n m) cs _ (bypassed_refl s n m)
    fun _ ht c _ => bypassed_trans ht (bypassed_column _ n m c)

end

section
variable (s : State) (n : CoreId) (m : MxeId)

theorem word_bypassColumn (c : Nat) : (s.bypassColumn n m c).word (.mxeBypass n m) = bypassWith (s.word (.mxeBypass n m)) c := by
  have hn := n.isLt
  have hm := m.isLt
  unfold State.bypassColumn bypassWith
  dsimp only
  by_cases hold : (bypassedOf (s.word (.mxeBypass n m))).contains c = true
  · rw [if_pos hold, if_pos hold]
  · rw [if_neg hold, if_neg hold]
    cases (List.range 4).find? fun i => !bitAt (s.word (.mxeBypass n m)) (8 * i + 7) with
    | none => rfl
    | some i =>
      dsimp only
      rw [(errOnly_raise _ _).word (by simp only [errAddr, regAddr]; omega),
        RegsBut.word (regsBut_dropWeights _ n m) (by simp [regAddr]), State.word_setWord_same]

theorem word_addBypass (cs : List Nat) :
    (addBypass n m cs s).word (.mxeBypass n m) = cs.foldl bypassWith (s.word (.mxeBypass n m)) := by
  rw [addBypass_eq]
  induction cs generalizing s with
  | nil => rfl
  | cons c cs ih => rw [List.foldl_cons, List.foldl_cons, ih, word_bypassColumn]

end

/-! ### The scan -/

/-- A fence set and lifted: of the array's bit the last says, the others stay. -/
theorem fence_bits : ∀ f : Fin 16, ∀ m i : Fin 4,
    bitAt ((f.val ||| 2 ^ m.val) % 16) i = (decide (i = m) || bitAt f i) ∧
    bitAt ((f.val - f.val / 2 ^ m.val % 2 * 2 ^ m.val) % 16) i = (!decide (i = m) && bitAt f i) := by
  decide

section
variable (s : State) (n : CoreId) (m : MxeId)

/-- The scan begins: the array is fenced, and the time of the scan passes. -/
def State.scanned (s : State) (n : CoreId) (m : MxeId) : State :=
  let t := (s.setFld (.tstFence n) F.tstFenceMxe (s.fld (.tstFence n) F.tstFenceMxe ||| 2 ^ m.val)).modMxe n m fun x =>
    { x with scan := false }
  t.advance (t.now + 10240 * t.div n)

theorem regs_scanned : s.RegsButErr (s.scanned n m) [.tstFence n] :=
  regsButErr_of_regsBut (regsBut_setFld (regsBut_refl s _) (by simp))

theorem word_bypass_scanned : (s.scanned n m).word (.mxeBypass n m) = s.word (.mxeBypass n m) := by
  have hn := n.isLt
  have hm := m.isLt
  exact RegsButErr.word (regs_scanned s n m) (by simp [regAddr]; omega) (by simp only [errAddr, regAddr]; omega)

theorem now_scanned : (s.scanned n m).now = s.now + 10240 * s.div n := by
  have hdiv : (s.setFld (.tstFence n) F.tstFenceMxe (s.fld (.tstFence n) F.tstFenceMxe ||| 2 ^ m.val)).div n = s.div n :=
    congrArg psDiv (State.fld_setFld_other s _ _ _ (by have := n.isLt; simp only [regAddr]; omega))
  rw [← hdiv]
  exact max_eq_right (Nat.le_add_right ..)

/-- A scan of an array of a core that no kernel holds (R495). -/
theorem columnScan_eq (h : s.kernelOn n = false) (fails : List Nat) : columnScan n m fails s =
    let f := s.fld (.tstFence n) F.tstFenceMxe
    let t := addBypass n m fails (s.scanned n m)
    if 4 < (bypassedOf (s.word (.mxeBypass n m)) ++ fails).dedup.length then t
    else t.setFld (.tstFence n) F.tstFenceMxe (f - f / 2 ^ m.val % 2 * 2 ^ m.val) := by
  unfold columnScan
  rw [h, Bool.false_and, if_neg Bool.false_ne_true, ← word_bypass_scanned]
  rfl

theorem fenced_scanned (i : MxeId) : (s.scanned n m).fenced n i = (decide (i = m) || s.fenced n i) := by
  have hf : s.fld (.tstFence n) F.tstFenceMxe < 16 := State.fld_lt ..
  have hset : (s.scanned n m).fld (.tstFence n) F.tstFenceMxe = (s.fld (.tstFence n) F.tstFenceMxe ||| 2 ^ m.val) % 16 :=
    State.fld_setFld_same _ _ _ _ (by decide)
  rw [State.fenced, hset, State.fenced]
  exact (fence_bits ⟨_, hf⟩ m i).1

end

/-- The scan of an array of a core that no kernel holds: what it leaves. -/
theorem columnScan_leaves {s : State} {n : CoreId} {m : MxeId} (hk : s.kernelOn n = false) {fails : List Nat} :
    let all := (bypassedOf (s.word (.mxeBypass n m)) ++ fails).dedup
    let t := columnScan n m fails s
    t.now = s.now + 10240 * s.div n ∧ t.mem = s.mem ∧ t.hif = s.hif ∧
    (t.fenced n m = true ↔ 4 < all.length) ∧ (∀ i : MxeId, i ≠ m → t.fenced n i = s.fenced n i) ∧
    s.RegsButErr t [.tstFence n, .mxeBypass n m, .mxeStatus n m] ∧ (t.mxe n m).scan = false ∧
    t.word (.mxeBypass n m) = fails.foldl bypassWith (s.word (.mxeBypass n m)) := by
  intro all t
  have hn := n.isLt
  have hm := m.isLt
  have hb : (s.scanned n m).Bypassed (addBypass n m fails (s.scanned n m)) n m := bypassed_addBypass ..
  have hnow := now_scanned s n m
  have hscan : ((s.scanned n m).mxe n m).scan = false := congrArg Mxe.scan
    (State.mxe_modMxe_same (s.setFld (.tstFence n) F.tstFenceMxe _) n m fun x => { x with scan := false })
  have hword : (addBypass n m fails (s.scanned n m)).word (.mxeBypass n m) =
      fails.foldl bypassWith (s.word (.mxeBypass n m)) := by
    rw [word_addBypass, word_bypass_scanned]
  have hfence : ∀ i, (addBypass n m fails (s.scanned n m)).fenced n i = (s.scanned n m).fenced n i := fun i => by
    rw [State.fenced, State.fld, RegsButErr.word hb.regs (by simp [regAddr]; omega)
      (by simp only [errAddr, regAddr]; omega)]
    rfl
  have hregs : s.RegsButErr (addBypass n m fails (s.scanned n m)) [.tstFence n, .mxeBypass n m, .mxeStatus n m] :=
    regsButErr_trans (regsButErr_mono (regs_scanned s n m) (by simp)) (regsButErr_mono hb.regs (by simp))
  simp only [t, columnScan_eq s n m hk]
  split
  · next h4 =>
    refine ⟨hb.now.trans hnow, hb.mem, hb.hif, ?_, fun i hi => ?_, hregs, hb.scan.trans hscan, hword⟩
    · rw [hfence, fenced_scanned]
      simp [h4, all]
    · rw [hfence, fenced_scanned]
      simp [hi]
  · next h4 =>
    have hset : ∀ i : MxeId, ((addBypass n m fails (s.scanned n m)).setFld (.tstFence n) F.tstFenceMxe
        (s.fld (.tstFence n) F.tstFenceMxe - s.fld (.tstFence n) F.tstFenceMxe / 2 ^ m.val % 2 * 2 ^ m.val)).fenced n i =
        (!decide (i = m) && s.fenced n i) := fun i => by
      have hf : s.fld (.tstFence n) F.tstFenceMxe < 16 := State.fld_lt ..
      rw [State.fenced, State.fld_setFld_same _ _ _ _ (by decide), State.fenced]
      exact (fence_bits ⟨_, hf⟩ m i).2
    refine ⟨hb.now.trans hnow, hb.mem, hb.hif, ?_, fun i hi => ?_, ?_, hb.scan.trans hscan, ?_⟩
    · rw [hset]
      simp [h4, all]
    · rw [hset]
      simp [hi]
    · exact regsButErr_trans hregs (regsButErr_of_regsBut (regsBut_setFld (regsBut_refl _ _) (by simp)))
    · rw [State.setFld, State.word_setWord_other _ _ (by simp only [regAddr]; omega), hword]

end Sys2Proof.Machine
end

section
/-! PROOFS. An engine's idle passes and its fall in activity (R92, R93), the re-run of a tile (R91) and the held
configuration (R66). -/

namespace Sys2Proof.Machine

/-! ### Activity falls -/

section
variable {s : State} {n : CoreId} {m : Nat}

/-- The cycle in which an idle gang falls by a level. -/
def State.fallDue (s : State) (n m : Nat) : Nat :=
  max ((s.mxe n (leadOf (s.gang n) m)).feedFree + s.gapMax) (s.mxe n m).levelAt + 16

theorem rampDown_idle (h : s.feederIdle n m = false ∨ s.level n m = 0) : rampDown n m s = s :=
  if_neg fun ⟨hi, hl⟩ => h.elim (fun h => by rw [h] at hi; cases hi) hl

theorem rampDown_eq (hi : s.feederIdle n m = true) (hl : s.level n m ≠ 0) : rampDown n m s =
    (membersOf ((s.toCyc n (s.fallDue n m)).gang n) m).foldl
      (fun t i => t.setLevel n (s.level n m - 1) (s.fallDue n m) i) (s.toCyc n (s.fallDue n m)) := if_pos ⟨hi, hl⟩

theorem rampDown_leaves (hi : s.feederIdle n m = true) (hl : s.level n m ≠ 0) :
    let t := rampDown n m s
    let u := s.toCyc n (s.fallDue n m)
    let g := membersOf (u.gang n) m
    t.now = u.now ∧ t.mem = u.mem ∧ t.hif = u.hif ∧
    (∀ i ∈ g, t.level n i = s.level n m - 1 ∧ (t.mxe n i).levelAt = s.fallDue n m) ∧ u.RegsBut t (g.map (.mxeStatus n)) := by
  intro t u g
  have hlt : s.level n m < 8 := State.fld_lt ..
  have hrest : t.now = u.now ∧ t.mem = u.mem ∧ t.hif = u.hif := by
    simp only [t, rampDown_eq hi hl]
    exact List.foldlRecOn (motive := fun t : State => t.now = u.now ∧ t.mem = u.mem ∧ t.hif = u.hif) _ _ ⟨rfl, rfl, rfl⟩
      fun _ ht _ _ => ht
  obtain ⟨hnow, hmem, hhif⟩ := hrest
  refine ⟨hnow, hmem, hhif, fun i hg => ?_, ?_⟩
  · simp only [t, rampDown_eq hi hl]
    refine foldl_establishes (P := fun t : State => t.level n i = s.level n m - 1 ∧ (t.mxe n i).levelAt = s.fallDue n m) hg
      (fun t => ⟨level_setLevel t n _ _ i (by omega), levelAt_setLevel t n _ _ i⟩) (fun t k _ hk ht => ?_) u
    rw [level_setLevel_other t n _ _ (Ne.symm hk), levelAt_setLevel_other t n _ _ (Ne.symm hk)]
    exact ht
  · simp only [t, rampDown_eq hi hl]
    exact regsBut_foldl (fun t i hg => regsBut_setLevel t n _ _ i (List.mem_map_of_mem hg)) u

end

/-! ### What only ends the footprints of an operation -/

/-- From s to t only the shadow of core n may differ. -/
def State.ShadowOnly (s t : State) (n : Nat) : Prop :=
  t = { s with cores := t.cores } ∧ t.core n = { s.core n with shadow := (t.core n).shadow }

section
variable {s t u : State} {n : Nat}

theorem shadowOnly_refl (s : State) (n : Nat) : s.ShadowOnly s n := ⟨rfl, rfl⟩
theorem shadowOnly_trans (h : s.ShadowOnly t n) (k : t.ShadowOnly u n) : s.ShadowOnly u n := by
  obtain ⟨h1, h2⟩ := h
  obtain ⟨k1, k2⟩ := k
  exact ⟨by rw [k1, h1], by rw [k2, h2]⟩
theorem shadowOnly_drop (s : State) (n id : Nat) : s.ShadowOnly (s.shadowDrop n id) n := by
  unfold State.shadowDrop
  split
  · exact ⟨rfl, by rw [State.core_modCore_same]⟩
  · exact shadowOnly_refl s n
theorem shadowOnly_done (s : State) (n id : Nat) (w : Bool) (k : Nat) : s.ShadowOnly (s.shadowDone n id w k) n := by
  unfold State.shadowDone
  split
  · exact ⟨rfl, by rw [State.core_modCore_same]⟩
  · exact shadowOnly_refl s n

theorem ShadowOnly.regs (h : s.ShadowOnly t n) : t.regs = s.regs := by rw [h.1]
theorem ShadowOnly.now (h : s.ShadowOnly t n) : t.now = s.now := by rw [h.1]
theorem ShadowOnly.mem (h : s.ShadowOnly t n) : t.mem = s.mem := by rw [h.1]
theorem ShadowOnly.hif (h : s.ShadowOnly t n) : t.hif = s.hif := by rw [h.1]
theorem ShadowOnly.fills (h : s.ShadowOnly t n) : (t.core n).fills = (s.core n).fills := by rw [h.2]
theorem ShadowOnly.mxe (h : s.ShadowOnly t n) (m : Nat) : t.mxe n m = s.mxe n m := by rw [State.mxe, h.2]; rfl

end

/-! ### A tile is re-run -/

theorem tabGet_filter {α : Type} (d : α) (m : Tab α) (p : Nat → Bool) (a : Nat) :
    tabGet d (m.filter fun c => p c.1) a = if p a then tabGet d m a else d := by
  induction m with
  | nil => simp
  | cons c m ih =>
    obtain ⟨k, v⟩ := c
    by_cases hk : k = a
    · subst hk
      by_cases hp : p k <;> simp [hp, tabGet, tabFind] at ih ⊢
      · exact ih
    · by_cases hp : p k <;> simpa [hp, tabGet, tabFind, hk] using ih

theorem memByte_zero (s : State) (a len i : Nat) :
    memByte (s.zero a len).mem i = if a ≤ i ∧ i < a + len then 0 else memByte s.mem i := by
  have h := tabGet_filter (0 : Byte) s.mem (fun k => decide (¬ (a ≤ k ∧ k < a + len))) i
  rw [memByte, State.zero]
  refine h.trans ?_
  by_cases hi : a ≤ i ∧ i < a + len <;> simp [hi, memByte]

/-- An engine whose tile is freed with its drains, its columns to be scanned. -/
def Mxe.rerun (x : Mxe) (k : Nat) : Mxe :=
  { x with drains := x.drains.filter fun d => d.tile ≠ k, scan := true }

/-- The footprints of a tile's drains end. -/
def State.drainsDropped (s : State) (n m k : Nat) : State :=
  ((s.mxe n m).drains.filter fun d => d.tile = k).foldl (fun s d =>
    s.shadowDrop n (drainId d.info.issue (leadOf (s.gang n) m + 1))) s

section
variable {s : State} {n m k : Nat}

theorem shadowOnly_drainsDropped (s : State) (n m k : Nat) : s.ShadowOnly (s.drainsDropped n m k) n :=
  List.foldlRecOn (motive := fun t => s.ShadowOnly t n) _ _ (shadowOnly_refl s n)
    fun _ ht _ _ => shadowOnly_trans ht (shadowOnly_drop ..)

theorem abftTileRerun_of_ok (h : ((s.mxe n m).tile k).abft = false) : abftTileRerun n m k s = s :=
  if_neg (by rw [h]; exact Bool.false_ne_true)

theorem abftTileRerun_of_bad (h : ((s.mxe n m).tile k).abft = true) :
    abftTileRerun n m k s = ((s.drainsDropped n m k).freeTile n m k).modMxe n m (·.rerun k) := if_pos h

/-- A re-run notes at most something in the command of its job. -/
theorem abftRerun_notes (s : State) (n m k : Nat) : ∃ h, h.kernels = (abftTileRerun n m k s).hif.kernels ∧
    abftRerun n m k s = { abftTileRerun n m k s with hif := h } := by
  unfold abftRerun
  dsimp only
  split
  · exact ⟨_, rfl, rfl⟩
  · split
    · unfold State.doIf
      split
      · exact ⟨(noteInfo _ _ _ _ _).hif, rfl, rfl⟩
      · exact ⟨_, rfl, rfl⟩
    · exact ⟨_, rfl, rfl⟩

theorem abftRerun_of_ok (h : ((s.mxe n m).tile k).abft = false) : abftRerun n m k s = s := by
  unfold abftRerun
  dsimp only
  rw [h, if_neg Bool.false_ne_true, abftTileRerun_of_ok h]

/-- A tile of which the check failed is freed with its drains, its bytes 0, and a scan is asked for (R91). -/
theorem abftRerun_of_bad (h : ((s.mxe n m).tile k).abft = true) :
    let t := abftRerun n m k s
    t.regs = s.regs ∧ t.now = s.now ∧ t.hif.kernels = s.hif.kernels ∧ (t.mxe n m).tile k = {} ∧ (t.mxe n m).scan = true ∧
    (t.mxe n m).drains = (s.mxe n m).drains.filter (fun d => d.tile ≠ k) ∧
    t.mem = (s.zero (accBase n m k) 0x10000).mem := by
  intro t
  obtain ⟨f, hf, ht⟩ := abftRerun_notes s n m k
  have hs := shadowOnly_drainsDropped s n m k
  have hregs := ShadowOnly.regs hs
  have hnow := ShadowOnly.now hs
  have hhif := ShadowOnly.hif hs
  have hmem := ShadowOnly.mem hs
  rw [abftTileRerun_of_bad h] at hf ht
  have hmxe : t.mxe n m = ((s.mxe n m).freed k).rerun k := by
    simp only [t, ht]
    exact (State.mxe_modMxe_same ((s.drainsDropped n m k).freeTile n m k) n m (·.rerun k)).trans
      (by rw [mxe_freeTile_same, ShadowOnly.mxe hs])
  refine ⟨?_, ?_, ?_, ?_, ?_, ?_, ?_⟩
  · simp only [t, ht]
    exact hregs
  · simp only [t, ht]
    exact hnow
  · simp only [t, ht]
    exact hf.trans (congrArg Hif.kernels hhif)
  · rw [hmxe]
    exact (tile_freed (s.mxe n m) k k).trans (if_pos rfl)
  · rw [hmxe]
    rfl
  · rw [hmxe]
    rfl
  · simp only [t, ht]
    exact congrArg (List.filter _) hmem

end

/-! ### The held configuration takes effect -/

section
variable {s : State} {n : CoreId}

/-- The cycle of the last result of a core's engines. -/
def State.enginesDone (s : State) (n : Nat) : Nat := (List.range 4).foldl (fun a i => max a (s.mxe n i).busyTill) 0

theorem mxeCfgApply_none (h : (s.core n).cfgHeld = none ∨ ∃ i : MxeId, (s.mxe n i).held = true) :
    mxeCfgApply n s = s := by
  unfold mxeCfgApply
  split
  · rfl
  · next v hv =>
    obtain ⟨i, hi⟩ : ∃ i : MxeId, (s.mxe n i).held = true := h.resolve_left (by rw [hv]; simp)
    refine if_neg fun hall => ?_
    have hno := List.all_eq_true.mp hall i (List.mem_range.mpr i.isLt)
    rw [hi] at hno
    cases hno

/-- The configuration at hand, the engines' results all there. -/
def State.cfgDue (s : State) (n : CoreId) (v : Word) : State :=
  applyCfg n v.toNat ((s.toCyc n (s.enginesDone n)).modCore n fun c => { c with cfgHeld := none })

theorem mxeCfgApply_some {v : Word} (h : (s.core n).cfgHeld = some v) (hi : ∀ i : MxeId, (s.mxe n i).held = false) :
    mxeCfgApply n s = match ((s.cfgDue n v).core n).stall with
      | some st => if st.cause = stCfgWrite then (s.cfgDue n v).stallOff n else s.cfgDue n v
      | none => s.cfgDue n v := by
  unfold mxeCfgApply
  rw [h]
  have hall : ((List.range 4).all fun i => !(s.mxe n i).held) = true :=
    List.all_eq_true.mpr fun i hr => Bool.not_eq_true' _ ▸ hi ⟨i, List.mem_range.mp hr⟩
  exact if_pos hall

theorem cfgChanges_iff (s : State) (n i v : Nat) : cfgChanges (s.word (.mxeCfg n 0)) v i = true ↔
    s.gang n ≠ F.mxeCfgGang.of v ∨ s.transp n i ≠ bitAt (F.mxeCfgTranspose.of v) i := by
  simp only [cfgChanges, Bool.or_eq_true, decide_eq_true_eq, bne_iff_ne]
  rfl

/-- What the configuration leaves, whether or not a stall ends with it. -/
theorem cfgDue_leaves (v : Word) :
    let u := s.toCyc n (s.enginesDone n)
    let t := s.cfgDue n v
    t.now = u.now ∧ t.hif = u.hif ∧ (t.core n).cfgHeld = none ∧ (t.core n).stall = (u.core n).stall ∧
    u.RegsBut t (.mxeCfg n 0 :: (List.range 4).map (.mxeStatus n)) ∧
    t.fld (.mxeCfg n 0) F.mxeCfgGang = F.mxeCfgGang.of v.toNat ∧
    t.fld (.mxeCfg n 0) F.mxeCfgTranspose = F.mxeCfgTranspose.of v.toNat ∧
    ∀ i : MxeId, u.gang n ≠ F.mxeCfgGang.of v.toNat ∨ u.transp n i ≠ bitAt (F.mxeCfgTranspose.of v.toNat) i →
      t.Emptied n i := by
  intro u t
  obtain ⟨w, hw⟩ : ∃ w, w = u.modCore n fun c => { c with cfgHeld := none } := ⟨_, rfl⟩
  have ht : t = applyCfg n v.toNat w := by rw [hw]; rfl
  have hregs : w.regs = u.regs := by rw [hw]; rfl
  have hcore : w.core n = { u.core n with cfgHeld := none } := by rw [hw, State.core_modCore_same]
  have hnow : w.now = u.now := by rw [hw]; rfl
  have hhif : w.hif = u.hif := by rw [hw]; rfl
  have he := engineOnly_applyCfg n v.toNat w
  rw [ht]
  refine ⟨(EngineOnly.now he).trans hnow, (EngineOnly.hif he).trans hhif, ?_, ?_,
    regsBut_trans (regsBut_of_regs_eq hregs) (regsBut_applyCfg n v.toNat w),
    fld_mxeCfg_applyCfg _ _ _ (by simp [regFields]), fld_mxeCfg_applyCfg _ _ _ (by simp [regFields]), fun i hi => ?_⟩
  · rw [EngineOnly.cfgHeld he, hcore]
  · rw [EngineOnly.stall he, hcore]
  · refine emptied_applyCfg n v.toNat w i.isLt ((cfgChanges_iff w n i v.toNat).mpr ?_)
    rw [State.gang, State.transp, fld_of_regs_eq hregs, fld_of_regs_eq hregs]
    exact hi

end

end Sys2Proof.Machine
end

section
/-! PROOFS. Weight loads (R75, R85, R320): a load begins once its array is free and leaves column sums and row count. -/

namespace Sys2Proof.Machine

/-! ### A load ends -/

section
variable (n m : Nat) (ws : WeightSet) (s : State)

/-- Parameter and sum of one column shown in their registers (R75, R85). -/
def showColumn (n m : Nat) (ws : WeightSet) (s : State) (j : Nat) : State :=
  (s.setWord (.mxeWparam n m j) ((ws.params.getD j 0).toNat / 2 ^ 24 * 2 ^ 24)).setWord (.mxeColsum n m j)
    (ux 32 (ws.colsum.getD j 0))

theorem ux_lt (w : Nat) (i : Int) : ux w i < 2 ^ w := by
  have hpos : (0 : Int) < (2 ^ w : Nat) := by positivity
  have h0 := Int.emod_nonneg i hpos.ne'
  have h1 := Int.emod_lt_of_pos i hpos
  rw [ux]
  omega

theorem colsum_showColumn (j : Nat) : (showColumn n m ws s j).word (.mxeColsum n m j) = ux 32 (ws.colsum.getD j 0) := by
  rw [showColumn, State.word_setWord_same]
  exact Nat.mod_eq_of_lt ((ux_lt 32 _).trans (by decide))

theorem colsum_showColumn_other {j k : Nat} (hj : j < 256) (hk : k < 256) (h : k ≠ j) :
    (showColumn n m ws s k).word (.mxeColsum n m j) = s.word (.mxeColsum n m j) := by
  rw [showColumn, State.word_setWord_other _ _ (by simp only [regAddr]; omega),
    State.word_setWord_other _ _ (by simp only [regAddr]; omega)]

/-- All columns shown. -/
def showColumns (n m : Nat) (ws : WeightSet) (s : State) : State := (List.range 256).foldl (showColumn n m ws) s

theorem colsum_showColumns {j : Nat} (hj : j < 256) :
    (showColumns n m ws s).word (.mxeColsum n m j) = ux 32 (ws.colsum.getD j 0) :=
  foldl_establishes (P := fun t : State => t.word (.mxeColsum n m j) = _) (List.mem_range.mpr hj)
    (fun t => colsum_showColumn n m ws t j)
    (fun t _ hk hne ht => (colsum_showColumn_other n m ws t hj (List.mem_range.mp hk) hne).trans ht) s

theorem showColumns_only : showColumns n m ws s = { s with regs := (showColumns n m ws s).regs } :=
  List.foldlRecOn (motive := fun t : State => t = { s with regs := t.regs }) _ _ rfl fun t ht _ _ => by
    rw [showColumn, ht]
    rfl

theorem regsBut_showColumns :
    s.RegsBut (showColumns n m ws s) ((List.range 256).map (.mxeColsum n m) ++ (List.range 256).map (.mxeWparam n m)) :=
  regsBut_foldl (fun t _ hj => regsBut_setWord (regsBut_setWord (regsBut_refl t _)
    (List.mem_map_of_mem (List.mem_append_right _ (List.mem_map_of_mem hj))))
    (List.mem_map_of_mem (List.mem_append_left _ (List.mem_map_of_mem hj)))) s

end

section
variable {s : State} {n m : Nat}

theorem weightLoadDone_none (h : (s.mxe n m).cur = none) : weightLoadDone n m s = s := by
  simp only [weightLoadDone, h]

/-- The set whose columns a load shows: the standby set, or the active one where a switch came in between. -/
def Mxe.shown (x : Mxe) : WeightSet := if x.standby = {} then x.active else x.standby

/-- What the end of a load shows: columns, row count, and SVALID where the set stands by. -/
def loadShown (n m k : Nat) (u : State) : State :=
  ((showColumns n m (u.mxe n m).shown u).setWord (.mxeRowcnt n m) k).doIf (!decide ((u.mxe n m).standby = {})) fun t =>
    t.setFld (.mxeStatus n m) F.mxeStatusSvalid 1

theorem weightLoadDone_some {l : LoadOp} (h : (s.mxe n m).cur = some l) : weightLoadDone n m s =
    (loadShown n m l.n (s.toCyc n (l.start.getD 0 + ceilDiv l.n 4 + 1))).modMxe n m fun x => { x with cur := none } := by
  simp only [weightLoadDone, h, loadShown, Mxe.shown, decide_eq_true_eq]
  rfl

section
variable (n m k : Nat) (u : State)

theorem loadShown_only : loadShown n m k u = { u with regs := (loadShown n m k u).regs } := by
  obtain ⟨rs, h⟩ : ∃ rs, showColumns n m (u.mxe n m).shown u = { u with regs := rs } := ⟨_, showColumns_only ..⟩
  unfold loadShown State.doIf
  rw [h]
  split <;> rfl

theorem regsBut_loadShown_columns : (showColumns n m (u.mxe n m).shown u).RegsBut (loadShown n m k u)
    [.mxeRowcnt n m, .mxeStatus n m] := by
  unfold loadShown State.doIf
  split
  · exact regsBut_setFld (regsBut_setWord (regsBut_refl _ _) (by simp)) (by simp)
  · exact regsBut_setWord (regsBut_refl _ _) (by simp)

theorem rowcnt_loadShown : (loadShown n m k u).word (.mxeRowcnt n m) = k % 2 ^ 64 := by
  unfold loadShown State.doIf
  split
  · exact (State.word_setWord_other _ _ (by simp only [regAddr]; omega)).trans (State.word_setWord_same ..)
  · exact State.word_setWord_same ..

theorem svalid_loadShown (h : (u.mxe n m).standby ≠ {}) :
    (loadShown n m k u).fld (.mxeStatus n m) F.mxeStatusSvalid = 1 := by
  unfold loadShown State.doIf
  rw [if_pos (by simp [h]), State.fld_setFld_same _ _ _ _ (by decide)]
  rfl

theorem colsum_loadShown {j : Nat} (hj : j < 256) :
    (loadShown n m k u).word (.mxeColsum n m j) = ux 32 ((u.mxe n m).shown.colsum.getD j 0) := by
  rw [RegsBut.word (regsBut_loadShown_columns n m k u), colsum_showColumns n m _ u hj]
  simp only [List.map_cons, List.map_nil, List.mem_cons, List.not_mem_nil, or_false, regAddr]
  omega

theorem regsBut_loadShown : u.RegsBut (loadShown n m k u) ([.mxeRowcnt n m, .mxeStatus n m] ++
    (List.range 256).map (.mxeColsum n m) ++ (List.range 256).map (.mxeWparam n m)) := by
  rw [List.append_assoc]
  exact regsBut_trans (regsBut_mono (regsBut_showColumns n m _ u) (List.subset_append_right ..))
    (regsBut_mono (regsBut_loadShown_columns n m k u) (List.subset_append_left ..))

end

theorem weightLoadDone_leaves {l : LoadOp} (h : (s.mxe n m).cur = some l) :
    let u := s.toCyc n (l.start.getD 0 + ceilDiv l.n 4 + 1)
    let t := weightLoadDone n m s
    (t.mxe n m).cur = none ∧ (t.mxe n m).standby = (u.mxe n m).standby ∧
    t.now = u.now ∧ t.mem = u.mem ∧ t.hif = u.hif ∧ t.word (.mxeRowcnt n m) = l.n % 2 ^ 64 ∧
    ((u.mxe n m).standby ≠ {} → t.fld (.mxeStatus n m) F.mxeStatusSvalid = 1) ∧
    (∀ j < 256, t.word (.mxeColsum n m j) = ux 32 ((u.mxe n m).shown.colsum.getD j 0)) ∧
    u.RegsBut t ([.mxeRowcnt n m, .mxeStatus n m] ++ (List.range 256).map (.mxeColsum n m) ++
      (List.range 256).map (.mxeWparam n m)) := by
  intro u t
  obtain ⟨w, hw⟩ : ∃ w, w = loadShown n m l.n u := ⟨_, rfl⟩
  have ht : t = w.modMxe n m fun x => { x with cur := none } := by rw [hw]; exact weightLoadDone_some h
  have honly : w = { u with regs := w.regs } := by rw [hw]; exact loadShown_only n m l.n u
  have hmxe : t.mxe n m = { u.mxe n m with cur := none } := by rw [ht, State.mxe_modMxe_same, honly]; rfl
  have hregs : t.regs = w.regs := by rw [ht]; rfl
  have hword : ∀ r, t.word r = w.word r := word_of_regs_eq hregs
  refine ⟨by rw [hmxe], by rw [hmxe], ?_, ?_, ?_, ?_, fun hs => ?_, fun j hj => ?_, ?_⟩
  · rw [ht, honly]; rfl
  · rw [ht, honly]; rfl
  · rw [ht, honly]; rfl
  · rw [hword, hw]
    exact rowcnt_loadShown n m l.n u
  · rw [fld_of_regs_eq hregs, hw]
    exact svalid_loadShown n m l.n u hs
  · rw [hword, hw]
    exact colsum_loadShown n m l.n u hj
  · refine regsBut_trans (?_ : u.RegsBut w _) (regsBut_of_regs_eq hregs)
    rw [hw]
    exact regsBut_loadShown n m l.n u

/-! ### A load begins -/

/-- The cycle in which a load of an engine begins: past its issue, the load before it and the last switch. -/
def Mxe.loadAt (x : Mxe) (l : LoadOp) : Nat :=
  let prev := match x.lastLoad with
    | some (a, k) => a + ceilDiv k 4
    | none => 0
  let sw := match x.lastSwitch with
    | some t => t + 9
    | none => 0
  max l.issue (max prev sw)

/-- An engine whose load has begun. -/
def Mxe.loadBegun (x : Mxe) (l : LoadOp) (c : Nat) (ws : WeightSet) : Mxe :=
  { x with load := none, cur := some { l with start := some c }, standby := ws, lastLoad := some (c, l.n),
           spans := [1, 2, 3].map fun k => (c + k, l.param * 64 + 512 * k, 64 * k) }

theorem weightLoadStart_none (h : (s.mxe n m).load = none) : weightLoadStart n m s = s := by
  simp only [weightLoadStart, h]

/-- A load waits for a PASS with SWITCH that was issued before it. -/
theorem weightLoadStart_waits {l : LoadOp} (h : (s.mxe n m).load = some l)
    (hw : ∃ f ∈ (s.mxe n (leadOf (s.gang n) m)).feeder, f.switch = true ∧ f.issue ≤ l.issue) :
    weightLoadStart n m s = s := by
  obtain ⟨f, hf, hsw, hle⟩ := hw
  simp only [weightLoadStart, h]
  exact if_pos (List.any_eq_true.mpr ⟨f, hf, by simp [hsw, hle]⟩)

/-- The reads of a load: its parameters, and the buffer lines noted. -/
def State.loadReads (s : State) (n m : Nat) (l : LoadOp) (c : Nat) : State :=
  (s.toCyc n c).schedRange n (4 + m) (l.param * 64) 2048 c false

theorem weightLoadStart_some {l : LoadOp} (h : (s.mxe n m).load = some l) (hcur : (s.mxe n m).cur = none)
    (hw : ∀ f ∈ (s.mxe n (leadOf (s.gang n) m)).feeder, f.switch = true → l.issue < f.issue) :
    let c := (s.mxe n m).loadAt l
    let u := noteReads n m [⟨some l.set, 0, 512, 512, c, 1, ceilDiv l.n 4⟩] (s.loadReads n m l c)
    weightLoadStart n m s = ((u.parityRange (wsBase n m l.set) (l.n * 128)).setFld (.mxeStatus n m) F.mxeStatusSvalid 0).modMxe
      n m fun x => x.loadBegun l c (u.readSet n m l) := by
  have hno : ¬ (s.mxe n (leadOf (s.gang n) m)).feeder.any (fun f => f.switch && decide (f.issue ≤ l.issue)) = true := by
    simp only [List.any_eq_true, Bool.and_eq_true, decide_eq_true_eq]
    rintro ⟨f, hf, hsw, hle⟩
    exact absurd (hw f hf hsw) (by omega)
  simp only [weightLoadStart, h, weightLoadDone_none hcur]
  rw [if_neg hno]
  rfl

theorem readSet_noteReads (s : State) (n m : Nat) (rs : List LineRead) (l : LoadOp) :
    (noteReads n m rs s).readSet n m l = s.readSet n m l := by
  have hmeta : ((noteReads n m rs s).mxe n m).wsMeta = (s.mxe n m).wsMeta := by
    rw [noteReads, State.mxe_modMxe_same]
  unfold State.readSet
  rw [hmeta]
  rfl

end

/-! ### The bytes of a weight set -/

/-- Every unit of a WS set lies in its engine, whose core counts its parity errors. -/
theorem paritySite_ws {n : CoreId} {m : MxeId} {k : Fin 4} {u len : Nat} (hlen : len ≤ 0x4000)
    (hlo : wsBase n m k / 64 ≤ u) (hhi : u * 64 < wsBase n m k + len) : paritySite u ⊆ [.tstSramCnt n] := by
  have hn := n.isLt
  have hm := m.isLt
  have hk := k.isLt
  simp only [wsBase, abBase, coreBase] at hlo hhi
  have hcore : (u * 64 - 0x020100000000) / 0x1000000 = n := by omega
  have hplace : ∃ i e, placeOf (u * 64) = .engine n i e := by
    unfold placeOf
    dsimp only
    rw [if_neg (by omega), if_neg (by omega), if_neg (by omega), if_neg (by omega), if_pos (by omega),
      if_neg (by rw [cmSize]; omega), if_neg (by omega), if_pos (by omega), hcore]
    exact ⟨_, _, rfl⟩
  obtain ⟨i, e, hp⟩ := hplace
  rw [paritySite, hp]
  exact List.Subset.refl _

section
variable {n : CoreId} {m : MxeId}

/-- An engine's load begins, its parameters read. -/
def loadBegin (n : CoreId) (m : MxeId) (l : LoadOp) (c : Nat) (u : State) : State :=
  let v := noteReads n m [⟨some l.set, 0, 512, 512, c, 1, ceilDiv l.n 4⟩] u
  ((v.parityRange (wsBase n m l.set) (l.n * 128)).setFld (.mxeStatus n m) F.mxeStatusSvalid 0).modMxe n m fun x =>
    x.loadBegun l c (u.readSet n m l)

theorem loadBegin_leaves {u : State} (hk : u.hif.kernels = []) {l : LoadOp} {k : Fin 4} (hset : l.set = k.val)
    (hn : l.n ≤ 128) (c : Nat) :
    let t := loadBegin n m l c u
    t.hif.kernels = [] ∧ (∃ x : Mxe, t.mxe n m = x.loadBegun l c (u.readSet n m l)) ∧
    t.fld (.mxeStatus n m) F.mxeStatusSvalid = 0 ∧ u.RegsBut t [.mxeStatus n m, .tstSramCnt n] ∧
    t.mem = u.mem ∧ t.now = u.now := by
  intro t
  have hlen : l.n * 128 ≤ 0x4000 := by omega
  have hd : (noteReads n m [⟨some l.set, 0, 512, 512, c, 1, ceilDiv l.n 4⟩] u).Detected
      ((noteReads n m [⟨some l.set, 0, 512, 512, c, 1, ceilDiv l.n 4⟩] u).parityRange (wsBase n m l.set) (l.n * 128)) n
      [.tstSramCnt n] := by
    rw [hset]
    refine detected_parityRange ?_ fun x hlo hhi => paritySite_ws hlen hlo hhi
    exact hk
  have hregs := regsBut_mono (rs' := [.mxeStatus n m, .tstSramCnt n]) hd.regs (by simp)
  have hmem := hd.mem
  have hnow := hd.now
  have hkern := hd.kernels
  refine ⟨hkern.trans hk, ⟨_, State.mxe_modMxe_same ..⟩, State.fld_setFld_same _ _ _ _ (by decide), ?_, hmem, hnow⟩
  exact regsBut_trans (regsBut_of_regs_eq rfl) (regsBut_trans hregs (regsBut_setFld (regsBut_refl _ _) (by simp)))

end

section
variable {s : State} {n : CoreId} {m : MxeId}

theorem kernels_loadReads (hk : s.hif.kernels = []) (l : LoadOp) (c : Nat) : (s.loadReads n m l c).hif.kernels = [] := by
  have h : (s.toCyc n c).hif.kernels = [] := by rw [hif_toCyc, hk]
  exact (scheduled_schedRange (n := n) h (4 + m) (l.param * 64) 2048 c false).kernels.trans h

theorem weightLoadStart_begins {l : LoadOp} (h : (s.mxe n m).load = some l) (hcur : (s.mxe n m).cur = none)
    (hw : ∀ f ∈ (s.mxe n (leadOf (s.gang n) m)).feeder, f.switch = true → l.issue < f.issue) :
    weightLoadStart n m s =
      loadBegin n m l ((s.mxe n m).loadAt l) (s.loadReads n m l ((s.mxe n m).loadAt l)) := by
  rw [weightLoadStart_some h hcur hw, loadBegin, readSet_noteReads]

end
end Sys2Proof.Machine
end

section
/-! PROOFS. What lands in core memory (R105, R240) does not look at the time, and of the fills in flight it changes the units
that they have read, and nothing more. -/

namespace Sys2Proof.Machine

/-! ### Bytes and their poison -/

/-- The state at another time, with other cores. -/
def State.elsewhere (s : State) (x : Nat) (cs : Tab Core) : State := { s with now := x, cores := cs }

/-- A store of bytes: it looks at neither the time nor the cores, and keeps both. -/
def ByteStore (f : State → State) : Prop := ∀ s x cs, f (s.elsewhere x cs) = (f s).elsewhere x cs

section
variable {f g : State → State}

theorem ByteStore.cores (h : ByteStore f) (s : State) : (f s).cores = s.cores := by
  have he : f s = (f s).elsewhere s.now s.cores := h s s.now s.cores
  rw [he]
  rfl
theorem ByteStore.now (h : ByteStore f) (s : State) : (f s).now = s.now := by
  have he : f s = (f s).elsewhere s.now s.cores := h s s.now s.cores
  rw [he]
  rfl

theorem byteStore_id : ByteStore fun s => s := fun _ _ _ => rfl
theorem byteStore_comp (hf : ByteStore f) (hg : ByteStore g) : ByteStore fun s => g (f s) :=
  fun s x cs => (congrArg g (hf s x cs)).trans (hg (f s) x cs)
theorem byteStore_foldl {α : Type} {f : State → α → State} (h : ∀ a, ByteStore fun s => f s a) (l : List α) :
    ByteStore fun s => l.foldl f s := by
  induction l with
  | nil => exact byteStore_id
  | cons a l ih => exact byteStore_comp (h a) ih
theorem byteStore_doIf (h : ByteStore f) (b : Bool) : ByteStore fun s => s.doIf b f := by
  cases b
  · exact byteStore_id
  · exact h

theorem byteStore_wr (da : Nat) (bs : List Byte) : ByteStore fun s => s.wr da bs := fun _ _ _ => rfl
theorem byteStore_setPoison (da : Nat) (p : Bool) : ByteStore fun s => s.setPoison da p := by
  intro s x cs
  unfold State.setPoison
  dsimp only
  split <;> rfl
theorem byteStore_wrUnit (da : Nat) (bs : List Byte) (p : Bool) : ByteStore fun s => s.wrUnit da bs p :=
  byteStore_comp (byteStore_wr da bs) (byteStore_setPoison da p)
theorem byteStore_wrPart (da : Nat) (bs : List Byte) (p : Bool) : ByteStore fun s => s.wrPart da bs p := by
  unfold State.wrPart
  dsimp only
  split
  · exact byteStore_wrUnit da bs true
  · split
    · exact byteStore_wrUnit da bs false
    · exact byteStore_wr da bs
theorem byteStore_wrPieces (ps : List Bool) (da : Nat) (bs : List Byte) : ByteStore (wrPieces da bs ps) := by
  induction ps generalizing da bs with
  | nil =>
    intro s x cs
    unfold wrPieces
    rfl
  | cons p ps ih =>
    intro s x cs
    cases ps with
    | nil =>
      unfold wrPieces
      exact byteStore_wrPart da _ p s x cs
    | cons q qs =>
      unfold wrPieces
      exact byteStore_comp (byteStore_wrPart da (bs.take (64 - da % 64)) p) (ih _ _) s x cs
theorem byteStore_wrUnits (us : List (List Byte × Bool)) (da : Nat) : ByteStore fun s => s.wrUnits da us := by
  induction us generalizing da with
  | nil => exact byteStore_id
  | cons u us ih => exact byteStore_comp (byteStore_wrUnit da u.1 u.2) (ih (da + 64))
theorem byteStore_wrOps (ws : List WrOp) : ByteStore fun s => s.wrOps ws := fun s x cs =>
  byteStore_foldl (f := fun (s : State) (w : WrOp) => s.wrUnits w.a (unitsOf w.bs w.poison))
    (fun w => byteStore_wrUnits _ w.a) ws s x cs

end

/-! ### Rows of a drain -/

/-- A step of a row: what it stores, and a row that does not depend on time or cores. -/
def RowStep (f : State → RowRun → State × RowRun) : Prop :=
  ∀ s r x cs, f (s.elsewhere x cs) r = ((f s r).1.elsewhere x cs, (f s r).2)

theorem rowStep_stage (d : DrainSrc) (st : Stage) : RowStep (stageRow d st) := by
  intro s r x cs
  cases st with
  | resid rs f32 rec pitch base =>
    have hp : ∀ r, poisonRow (s.elsewhere x cs) r = ((poisonRow s r).1.elsewhere x cs, (poisonRow s r).2) := fun r => by
      unfold poisonRow
      split <;> rfl
    have hif : ∀ (b : Bool) (r : RowRun), (if b = true then poisonRow (s.elsewhere x cs) r else (s.elsewhere x cs, r)) =
        ((if b = true then poisonRow s r else (s, r)).1.elsewhere x cs, (if b = true then poisonRow s r else (s, r)).2) :=
      fun b r => by
        cases b
        · rfl
        · exact hp r
    unfold stageRow
    dsimp only
    exact hif _ _
  | rowstat mode init colBase rec =>
    unfold stageRow
    dsimp only
    split <;> rfl
  | _ => rfl

theorem rowStep_stagesTo (d : DrainSrc) (sts : List Stage) (k : Nat) : RowStep (stagesTo d sts k) := by
  intro s r x cs
  unfold stagesTo
  have hfold : ∀ (l : List Stage) (s : State) (q : RowRun),
      l.foldl (fun p st => stageRow d st p.1 p.2) (s.elsewhere x cs, q) =
        ((l.foldl (fun p st => stageRow d st p.1 p.2) (s, q)).1.elsewhere x cs,
          (l.foldl (fun p st => stageRow d st p.1 p.2) (s, q)).2) := by
    intro l
    induction l with
    | nil => exact fun _ _ => rfl
    | cons st l ih =>
      intro s q
      rw [List.foldl_cons, List.foldl_cons, rowStep_stage d st s q x cs]
      exact ih _ _
  rw [hfold]

theorem byteStore_stagesTo (d : DrainSrc) (sts : List Stage) (k : Nat) (r : RowRun) :
    ByteStore fun s => (stagesTo d sts k s r).1 := fun s x cs =>
  congrArg Prod.fst (rowStep_stagesTo d sts k s r x cs)

/-! ### Moments -/

/-- A fill without what it has read. -/
def FillOp.bare (f : FillOp) : FillOp := { f with got := [] }

/-- The fills of a core in flight, without what they have read. -/
def State.bareFills (s : State) (n : Nat) : List FillOp := (s.core n).fills.map FillOp.bare

/-- The state at another time. -/
def State.att (s : State) (x : Nat) : State := { s with now := x }

/-- Of a core's landing: it does not look at the time, and keeps the fills but for what they have read. -/
structure CoreLanding (n : Nat) (f : State → State) : Prop where
  att : ∀ s x, f (s.att x) = (f s).att x
  fills : ∀ s, (f s).bareFills n = s.bareFills n

section
variable {n : Nat} {f g : State → State}

theorem coreLanding_comp (hf : CoreLanding n f) (hg : CoreLanding n g) : CoreLanding n fun s => g (f s) :=
  ⟨fun s x => (congrArg g (hf.att s x)).trans (hg.att (f s) x), fun s => (hg.fills (f s)).trans (hf.fills s)⟩
theorem coreLanding_foldl {α : Type} {f : State → α → State} (h : ∀ a, CoreLanding n fun s => f s a) (l : List α) :
    CoreLanding n fun s => l.foldl f s := by
  induction l with
  | nil => exact ⟨fun _ _ => rfl, fun _ => rfl⟩
  | cons a l ih => exact coreLanding_comp (h a) ih
theorem coreLanding_of_byteStore (h : ByteStore f) : CoreLanding n f :=
  ⟨fun s x => (h s x s.cores).trans (by rw [← h.cores s]; rfl), fun s => by rw [State.bareFills, State.core, h.cores]; rfl⟩

/-- A landing may choose by what does not depend on the time. -/
theorem coreLanding_choose {α : Type} {sel : State → α} {F : α → State → State} (hsel : ∀ s x, sel (s.att x) = sel s)
    (hF : ∀ a, CoreLanding n (F a)) : CoreLanding n fun s => F (sel s) s :=
  ⟨fun s x => (congrArg (F · (s.att x)) (hsel s x)).trans ((hF (sel s)).att s x), fun s => (hF (sel s)).fills s⟩
theorem coreLanding_ite {p : Prop} [Decidable p] (hf : CoreLanding n f) (hg : CoreLanding n g) :
    CoreLanding n fun s => if p then f s else g s := by
  split
  · exact hf
  · exact hg
theorem coreLanding_modCore {h : Core → Core} (hh : ∀ c, (h c).fills.map FillOp.bare = c.fills.map FillOp.bare) :
    CoreLanding n fun s => s.modCore n h :=
  ⟨fun _ _ => rfl, fun s => by rw [State.bareFills, State.core_modCore_same]; exact hh _⟩
theorem coreLanding_modMxe (m : Nat) (h : Mxe → Mxe) : CoreLanding n fun s => s.modMxe n m h :=
  ⟨fun _ _ => rfl, fun s => by rw [State.bareFills, State.core_modMxe]; rfl⟩

end

/-- Drain k of an engine replaced. -/
def putDrain (n m k : Nat) (d : DrainOp) (s : State) : State := s.modMxe n m fun x => { x with drains := x.drains.set k d }

/-- A row of a drain takes its stages up to one of them, r being the row by then. -/
def drainRow (n m k : Nat) (e : DrainEv) (d : DrainOp) (r0 r : RowRun) (s : State) : State :=
  let s := if d.muted then s else (stagesTo (d.src n) d.stages e.stage s r0).1
  let live := d.live.filter fun r => r.row != e.row
  if e.stage < d.stages.length then putDrain n m k { d with live := r :: live } s
  else
    let st := r.stats
    let rows := d.rows ++ [r.out d.etype]
    putDrain n m k { d with live := live, rows := rows, amax := st.1 ++ d.amax, nanSlots := st.2 ++ d.nanSlots,
                            poison := d.poison || r.poison }
      (s.doIf (!d.muted && outFormat d.stages == 0) fun s =>
        s.wrOps (rowWrites d.etype e.row (r.out d.etype) (coreBase n + d.info.dst * 64) d.tiles))

/-- The row at which a moment of a drain finds it. -/
def rowAt (n : Nat) (e : DrainEv) (d : DrainOp) : RowRun :=
  (d.live.find? fun r => r.row == e.row).getD (rowStart (d.src n) d.stages d.self.cols d.entry e.row)

/-- A moment of a drain that is there. -/
def drainAct (n m k : Nat) (e : DrainEv) (d : DrainOp) (s : State) : State :=
  if d.self.mt ≤ e.row then
    s.doIf (!d.muted) fun s => s.wrOps
      (if outFormat d.stages = 0 then denseEnds d.etype d.rows (coreBase n + d.info.dst * 64) d.tiles
      else drainWrites d.etype (outFormat d.stages) d.rows (coreBase n + d.info.dst * 64) d.tiles)
  else drainRow n m k e d (rowAt n e d) (stagesTo (d.src n) d.stages e.stage s (rowAt n e d)).2 s

theorem drainMoment_eq (n m k : Nat) (e : DrainEv) (s : State) :
    drainMoment n m k e s = ((s.mxe n m).drains[k]?.elim id (drainAct n m k e)) s := by
  unfold drainMoment
  cases (s.mxe n m).drains[k]? <;> rfl

theorem coreLanding_putDrain (n m k : Nat) (d : DrainOp) : CoreLanding n (putDrain n m k d) := coreLanding_modMxe m _

theorem coreLanding_drainRow (n m k : Nat) (e : DrainEv) (d : DrainOp) (r0 r : RowRun) :
    CoreLanding n (drainRow n m k e d r0 r) := by
  refine coreLanding_comp (f := fun s => if d.muted = true then s else (stagesTo (d.src n) d.stages e.stage s r0).1)
    (coreLanding_ite ⟨fun _ _ => rfl, fun _ => rfl⟩ (coreLanding_of_byteStore (byteStore_stagesTo _ _ _ r0)))
    (g := fun s => if e.stage < d.stages.length then putDrain n m k _ s else putDrain n m k _ (s.doIf _ _))
    (coreLanding_ite (coreLanding_putDrain ..) (coreLanding_comp ?_ (coreLanding_putDrain ..)))
  exact coreLanding_of_byteStore (byteStore_doIf (byteStore_wrOps _) _)

theorem coreLanding_drainMoment (n m k : Nat) (e : DrainEv) : CoreLanding n (drainMoment n m k e) := by
  have hact : ∀ o : Option DrainOp, CoreLanding n (o.elim id (drainAct n m k e)) := fun o => by
    cases o with
    | none => exact ⟨fun _ _ => rfl, fun _ => rfl⟩
    | some d =>
      refine coreLanding_ite (coreLanding_of_byteStore (byteStore_doIf (byteStore_wrOps _) _)) ?_
      refine coreLanding_choose (sel := fun s => (stagesTo (d.src n) d.stages e.stage s (rowAt n e d)).2) (fun s x => ?_)
        fun r => coreLanding_drainRow n m k e d (rowAt n e d) r
      have hrow := rowStep_stagesTo (d.src n) d.stages e.stage s (rowAt n e d) x s.cores
      exact (congrArg Prod.snd hrow :)
  have h := coreLanding_choose (sel := fun s => (s.mxe n m).drains[k]?) (fun _ _ => rfl) hact
  exact ⟨fun s x => by rw [drainMoment_eq, drainMoment_eq]; exact h.att s x,
    fun s => by rw [drainMoment_eq]; exact h.fills s⟩

theorem bare_modify (l : List FillOp) (k : Nat) (g : FillOp → FillOp) (hg : ∀ f, (g f).bare = f.bare) :
    (l.modify k g).map FillOp.bare = l.map FillOp.bare := by
  apply List.ext_getElem?
  intro i
  rw [List.getElem?_map, List.getElem?_map, List.getElem?_modify]
  cases l[i]? with
  | none => rfl
  | some f => by_cases h : k = i <;> simp [h, hg]

theorem coreLanding_shadowDone (n id : Nat) (w : Bool) (t : Nat) : CoreLanding n fun s => s.shadowDone n id w t := by
  refine coreLanding_choose (sel := fun s => s.vmode n) (F := fun v s => if v = true then s.modCore n fun c =>
    { c with shadow := c.shadow.map fun e => (e.1, e.2.close id w t) } else s) (fun _ _ => rfl) fun v => ?_
  exact coreLanding_ite (coreLanding_modCore fun _ => rfl) ⟨fun _ _ => rfl, fun _ => rfl⟩

theorem coreLanding_bgPerform (n : Nat) (b : BgAcc) : CoreLanding n (bgPerform n b) := by
  unfold bgPerform
  split
  · exact coreLanding_of_byteStore (byteStore_wrPieces b.poison _ b.data)
  · exact ⟨fun _ _ => rfl, fun _ => rfl⟩

theorem coreLanding_act (n : Nat) (a : CmMoment) : CoreLanding n fun s => a.act n s := by
  cases a with
  | drain m k e => exact coreLanding_drainMoment n m k e
  | store off bs ps => exact coreLanding_of_byteStore (byteStore_wrPieces ps _ bs)
  | bg b cyc => exact coreLanding_comp (coreLanding_bgPerform n b) (coreLanding_shadowDone ..)
  | param m off j =>
    exact coreLanding_choose (sel := fun s => s.paramSpan n off) (F := fun ps s => s.modMxe n m fun x =>
      if x.standby = {} then { x with active := x.active.withParams j ps }
      else { x with standby := x.standby.withParams j ps }) (fun _ _ => rfl) fun ps => coreLanding_modMxe m _
  | fill k off =>
    refine coreLanding_choose (sel := fun s got => wideUnits s n off got) (F := fun us s => s.modCore n fun c =>
      { c with fills := c.fills.modify k fun f => { f with got := us f.got } }) (fun _ _ => rfl) fun us => ?_
    exact coreLanding_modCore fun c => bare_modify c.fills k (fun f => { f with got := us f.got }) fun _ => rfl
  | fife k off =>
    refine coreLanding_choose (sel := fun s got => wideUnits s n off got) (F := fun us s => s.modCore n fun c =>
      { c with fife := c.fife.modify k fun f => { f with got := us f.got } }) (fun _ _ => rfl) fun us => ?_
    exact coreLanding_modCore fun _ => rfl
  | regs k cyc =>
    refine ⟨fun _ _ => rfl, fun s => ?_⟩
    simp only [CmMoment.act, fifeRegs, State.bareFills, State.core_modCore_same]

end Sys2Proof.Machine
end

section
/-! PROOFS. The core memory comes up to the present (R240): what that leaves of the fills in flight, and that it depends on
the cycle of the core only. -/

namespace Sys2Proof.Machine

/-- How the waiting background accesses of a core fare up to a cycle. -/
def Core.bgFare (c : Core) (t : Nat) : BgPlan := if c.bg.isEmpty then { used := [], upTo := 0 } else c.bgPlan t

/-- All that happens to the memory of a core up to a cycle. -/
def Core.happens (c : Core) (t : Nat) : List (Nat × CmMoment) :=
  c.moments t ++ (c.bgFare t).done.map fun q => (q.1, .bg q.2 q.1)

/-- The background accesses performed leave the queue, the cycles they waited are counted. -/
def bgLeave (n t : Nat) (c : Core) (s : State) : State :=
  s.doIf (!c.bg.isEmpty) fun s =>
    (s.modCore n (Core.bgPast t (c.bgFare t))).doIf ((c.bgFare t).waited != 0) fun s =>
      s.bump (.cmcBgCnt n) F.cmcBgCntWaited (c.bgFare t).waited

/-- The moments act in order of their cycles. -/
def actAll (n : Nat) (ms : List (Nat × CmMoment)) (s : State) : State :=
  (ms.foldl (fun l a => momentInsert a l) []).foldl (fun s a => a.2.act n s) s

theorem landCm_eq (s : State) (n : Nat) : s.landCm n =
    if (s.core n).happens (s.cyc n) = [] then bgLeave n (s.cyc n) (s.core n) s
    else actAll n ((s.core n).happens (s.cyc n)) ((bgLeave n (s.cyc n) (s.core n) s).modCore n (Core.past (s.cyc n))) := by
  have h : s.landCm n = match (s.core n).happens (s.cyc n) with
      | [] => bgLeave n (s.cyc n) (s.core n) s
      | ms => actAll n ms ((bgLeave n (s.cyc n) (s.core n) s).modCore n (Core.past (s.cyc n))) := rfl
  rw [h]
  cases (s.core n).happens (s.cyc n) <;> rfl

theorem coreLanding_bgLeave (n t : Nat) (c : Core) : CoreLanding n (bgLeave n t c) := by
  have hcount : CoreLanding n fun s : State => s.doIf ((c.bgFare t).waited != 0) fun s =>
      s.bump (.cmcBgCnt n) F.cmcBgCntWaited (c.bgFare t).waited :=
    coreLanding_ite ⟨fun _ _ => rfl, fun _ => rfl⟩ ⟨fun _ _ => rfl, fun _ => rfl⟩
  exact coreLanding_ite (coreLanding_comp (coreLanding_modCore (h := Core.bgPast t (c.bgFare t)) fun _ => rfl) hcount) ⟨fun _ _ => rfl, fun _ => rfl⟩

theorem coreLanding_actAll (n : Nat) (ms : List (Nat × CmMoment)) : CoreLanding n (actAll n ms) :=
  coreLanding_foldl (f := fun s (a : Nat × CmMoment) => a.2.act n s) (fun a => coreLanding_act n a.2) _

/-- At another time in the same cycle of the core the same lands. -/
theorem landCm_att {s : State} {n x : Nat} (h : (s.att x).cyc n = s.cyc n) : (s.att x).landCm n = (s.landCm n).att x := by
  have hcore : (s.att x).core n = s.core n := rfl
  rw [landCm_eq, landCm_eq, h, hcore, (coreLanding_bgLeave n (s.cyc n) (s.core n)).att]
  split
  · rfl
  · exact (coreLanding_actAll n _).att ((bgLeave n (s.cyc n) (s.core n) s).modCore n (Core.past (s.cyc n))) x

/-! ### Fills in flight -/

/-- A fill with the reads that come after a cycle. -/
def FillOp.left (t : Nat) (f : FillOp) : FillOp := { f with reads := f.reads.filter fun r => decide (t < r.1) }

theorem bareFills_past (s : State) (n t : Nat) :
    (s.modCore n (Core.past t)).bareFills n = (s.bareFills n).map (FillOp.left t) := by
  rw [State.bareFills, State.core_modCore_same, State.bareFills, List.map_map]
  exact (List.map_map ..).trans rfl

/-- Landing takes the reads that have come from the fills in flight; where nothing happens none have. -/
theorem bareFills_landCm (s : State) (n : Nat) :
    ((s.core n).happens (s.cyc n) = [] ∧ (s.landCm n).bareFills n = s.bareFills n) ∨
    (s.landCm n).bareFills n = (s.bareFills n).map (FillOp.left (s.cyc n)) := by
  rw [landCm_eq]
  split
  · next h => exact .inl ⟨h, (coreLanding_bgLeave ..).fills s⟩
  · rw [(coreLanding_actAll n _).fills, bareFills_past, (coreLanding_bgLeave ..).fills]
    exact .inr rfl

theorem mem_fillReads_moments {c : Core} {t k : Nat} {f : FillOp} (hk : c.fills[k]? = some f) {r : Nat × Nat} (hr : r ∈ f.reads)
    (ht : r.1 ≤ t) : (r.1, CmMoment.fill k r.2) ∈ c.moments t := by
  have hz : (f, k) ∈ c.fills.zipIdx := List.mem_zipIdx_iff_getElem?.mpr hk
  have hin : (r.1, CmMoment.fill k r.2) ∈ readsBy t (.fill k) f.reads :=
    List.mem_map_of_mem (f := fun r : Nat × Nat => (r.1, CmMoment.fill k r.2)) (List.mem_filter.mpr ⟨hr, decide_eq_true ht⟩)
  unfold Core.moments
  simp only [List.mem_append]
  exact .inl (.inl (.inr (List.mem_flatMap.mpr ⟨_, hz, hin⟩)))

/-- A core in which nothing is due has no fill with a read that has come. -/
theorem fillReads_after {s : State} {n : Nat} (h : s.landCm n = s) {f : FillOp} (hf : f ∈ (s.core n).fills) :
    ∀ r ∈ f.reads, s.cyc n < r.1 := by
  intro r hr
  rcases bareFills_landCm s n with ⟨hnil, -⟩ | hleft
  · by_contra hle
    obtain ⟨k, hk⟩ := List.mem_iff_getElem?.mp hf
    have hm := mem_fillReads_moments hk hr (Nat.le_of_not_lt hle)
    rw [Core.happens, List.append_eq_nil_iff] at hnil
    rw [hnil.1] at hm
    cases hm
  · rw [h] at hleft
    have hb : f.bare ∈ s.bareFills n := List.mem_map_of_mem hf
    rw [hleft] at hb
    obtain ⟨g, -, hg⟩ := List.mem_map.mp hb
    have hreads : f.reads = g.reads.filter fun r => decide (s.cyc n < r.1) := congrArg FillOp.reads hg.symm
    rw [hreads] at hr
    exact of_decide_eq_true (List.mem_filter.mp hr).2

/-- A fill without its reads, those to come and those that it has. -/
def FillOp.still (f : FillOp) : FillOp := { f with reads := [], got := [] }

theorem stillFills_landCm (s : State) (n : Nat) :
    ((s.landCm n).core n).fills.map FillOp.still = (s.core n).fills.map FillOp.still := by
  have hstill : ∀ t : State, (t.core n).fills.map FillOp.still = (t.bareFills n).map FillOp.still := fun t => by
    rw [State.bareFills, List.map_map]
    rfl
  rw [hstill, hstill]
  rcases bareFills_landCm s n with ⟨-, h⟩ | h
  · rw [h]
  · rw [h, List.map_map]
    rfl

/-- A fill in flight is there after landing, as it was but for its reads. -/
theorem fill_landCm {s : State} {n k : Nat} {f : FillOp} (h : (s.core n).fills[k]? = some f) :
    ∃ f', ((s.landCm n).core n).fills[k]? = some f' ∧ f'.still = f.still := by
  have hget : (((s.landCm n).core n).fills.map FillOp.still)[k]? = some f.still := by
    rw [stillFills_landCm, List.getElem?_map, h]
    rfl
  rw [List.getElem?_map] at hget
  exact Option.map_eq_some_iff.mp hget

end Sys2Proof.Machine
end

section
/-! PROOFS. What a fill has read by the cycle it is due (R319): the units of its source, where nothing else lands. -/

namespace Sys2Proof.Machine

/-! ### The time of a cycle -/

theorem psDiv_pos (p : Nat) : 0 < psDiv p := by
  unfold psDiv
  split <;> decide

/-- A core told to come to a cycle is in it, or was there before. -/
theorem cyc_att_cases (s : State) (n c : Nat) :
    (c ≤ s.cyc n ∧ (s.att (max s.now (s.cycTime n c))).cyc n = s.cyc n) ∨
    (s.att (max s.now (s.cycTime n c))).cyc n = c := by
  have hpos : 0 < s.div n := psDiv_pos _
  have hcyc : ∀ x, (s.att x).cyc n = (s.core n).cycBase + (x - (s.core n).tBase) / s.div n := fun _ => rfl
  have hs : s.cyc n = (s.core n).cycBase + (s.now - (s.core n).tBase) / s.div n := rfl
  rw [hcyc]
  rcases Nat.le_total (s.cycTime n c) s.now with h | h
  · rw [max_eq_left h]
    refine .inl ⟨?_, rfl⟩
    have hle : c - (s.core n).cycBase ≤ (s.now - (s.core n).tBase) / s.div n :=
      (Nat.le_div_iff_mul_le hpos).mpr (Nat.le_sub_of_add_le (by rw [Nat.add_comm]; exact h))
    omega
  · rw [max_eq_right h, State.cycTime, Nat.add_sub_cancel_left, Nat.mul_div_cancel _ hpos]
    rw [State.cycTime] at h
    rcases Nat.lt_or_ge c (s.core n).cycBase with hc | hc
    · have h0 : c - (s.core n).cycBase = 0 := by omega
      rw [h0, Nat.zero_mul, Nat.add_zero] at h
      have hz : s.now - (s.core n).tBase = 0 := by omega
      rw [hz, Nat.zero_div] at hs
      exact .inl ⟨by omega, by omega⟩
    · exact .inr (by omega)

theorem toCyc_eq (s : State) (n c : Nat) : s.toCyc n c = (s.att (max s.now (s.cycTime n c))).landCm n := rfl

theorem le_freeLine (x : Mxe) (set : Option Nat) (lo hi k c : Nat) : c ≤ x.freeLine set lo hi k c := by
  induction k generalizing c with
  | zero => exact Nat.le_refl c
  | succ k ih =>
    unfold Mxe.freeLine
    split
    · exact Nat.le_of_succ_le (ih (c + 1))
    · exact Nat.le_refl c

theorem le_fillEnd (x : Mxe) (set : Option Nat) (ls : List (Nat × Nat)) (c : Nat) : c + ls.length ≤ x.fillEnd set ls c := by
  induction ls generalizing c with
  | nil => exact Nat.le_refl c
  | cons l ls ih =>
    have h := ih (x.freeLine set l.1 l.2 x.readCycles c + 1)
    have hf := le_freeLine x set l.1 l.2 x.readCycles c
    rw [List.length_cons, Mxe.fillEnd]
    omega

/-- Lines read in their turn delay a fill, and nothing hastens it. -/
theorem due_le_fillDue (s : State) (n : Nat) (f : FillOp) : f.due ≤ s.fillDue n f := by
  have h := le_fillEnd (s.mxe n f.m) (if f.args.dk then some f.args.set.val else none) f.lines (f.due - f.lines.length)
  rw [State.fillDue]
  omega

/-! ### Wide reads -/

theorem canon_device {a : Nat} (h : 0x010000000000 ≤ a) : canon a = a := if_neg (by omega)

theorem tabGet_wideUnits (s : State) (n off : Nat) (got : Tab UnitP) (d : UnitP) (i : Nat) :
    tabGet d (wideUnits s n off got) i = if off / 64 ≤ i ∧ i < off / 64 + 8
      then ⟨s.rd (coreBase n + i * 64) 64, s.poisoned (coreBase n + i * 64)⟩ else tabGet d got i := by
  have hfold : ∀ k, tabGet d ((List.range k).foldl (fun g i => tabSet g (off / 64 + i)
      ⟨s.rd (coreBase n + (off / 64 + i) * 64) 64, s.poisoned (coreBase n + (off / 64 + i) * 64)⟩) got) i =
      if off / 64 ≤ i ∧ i < off / 64 + k
      then ⟨s.rd (coreBase n + i * 64) 64, s.poisoned (coreBase n + i * 64)⟩ else tabGet d got i := by
    intro k
    induction k with
    | zero => rw [if_neg (by omega)]; rfl
    | succ k ih =>
      rw [List.range_succ, List.foldl_append, List.foldl_cons, List.foldl_nil, tabGet_set, ih]
      by_cases hi : i = off / 64 + k
      · rw [if_pos hi, if_pos (by omega), hi]
      · rw [if_neg hi]
        by_cases hlt : off / 64 ≤ i ∧ i < off / 64 + k
        · rw [if_pos hlt, if_pos (by omega)]
        · rw [if_neg hlt, if_neg (by omega)]
  exact hfold 8

/-- Fill k of core n has read unit i, with the bytes that memory m holds. -/
def State.hasUnit (s : State) (m : List Host.Cell) (n k i : Nat) : Prop :=
  ∃ f, (s.core n).fills[k]? = some f ∧
    (tabGet ⟨List.replicate 64 0, false⟩ f.got i).bs = memRead m (coreBase n + i * 64) 64

/-- A fill reads 512 bytes. -/
def fillRead (n k off : Nat) (s : State) : State := (CmMoment.fill k off).act n s

theorem core_fillRead (n k off : Nat) (s : State) : (fillRead n k off s).core n =
    { s.core n with fills := (s.core n).fills.modify k fun f => { f with got := wideUnits s n off f.got } } :=
  State.core_modCore_same ..

section
variable {s : State} {n k off i : Nat}

theorem rd_unit (s : State) (n i : Nat) : s.rd (coreBase n + i * 64) 64 = memRead s.mem (coreBase n + i * 64) 64 := by
  rw [State.rd, canon_device (by rw [coreBase]; omega)]

theorem hasUnit_fillRead (hk : ∃ f, (s.core n).fills[k]? = some f) (hi : off / 64 ≤ i ∧ i < off / 64 + 8) :
    (fillRead n k off s).hasUnit s.mem n k i := by
  obtain ⟨f, hf⟩ := hk
  refine ⟨{ f with got := wideUnits s n off f.got }, ?_, ?_⟩
  · rw [core_fillRead, List.getElem?_modify, hf]
    simp
  · rw [tabGet_wideUnits, if_pos hi]
    exact rd_unit s n i

/-- What one fill has read it keeps, whichever fill reads next. -/
theorem hasUnit_fillRead_of {j : Nat} (h : s.hasUnit s.mem n k i) : (fillRead n j off s).hasUnit s.mem n k i := by
  obtain ⟨f, hf, hbs⟩ := h
  rw [State.hasUnit, core_fillRead, List.getElem?_modify, hf]
  by_cases hj : j = k
  · refine ⟨{ f with got := wideUnits s n off f.got }, by simp [hj], ?_⟩
    rw [tabGet_wideUnits]
    split
    · exact rd_unit s n i
    · exact hbs
  · exact ⟨f, by simp [hj], hbs⟩

end

/-! ### Only fills read -/

theorem mem_momentInsert {a b : Nat × CmMoment} {l : List (Nat × CmMoment)} : b ∈ momentInsert a l ↔ b = a ∨ b ∈ l := by
  induction l with
  | nil => simp [momentInsert]
  | cons c l ih =>
    unfold momentInsert
    split
    · simp
    · simp only [List.mem_cons, ih]
      tauto

theorem mem_sorted {b : Nat × CmMoment} {ms acc : List (Nat × CmMoment)} :
    b ∈ ms.foldl (fun l a => momentInsert a l) acc ↔ b ∈ ms ∨ b ∈ acc := by
  induction ms generalizing acc with
  | nil => simp
  | cons a ms ih =>
    rw [List.foldl_cons, ih, mem_momentInsert, List.mem_cons]
    tauto

theorem exists_fill_fillRead {s : State} {n k j off : Nat} (h : ∃ f, (s.core n).fills[k]? = some f) :
    ∃ f, ((fillRead n j off s).core n).fills[k]? = some f := by
  obtain ⟨f, hf⟩ := h
  rw [core_fillRead, List.getElem?_modify, hf]
  by_cases hj : j = k <;> simp [hj]

/-- Where only fills read, memory and registers stay, and a fill has every unit that a read of its own covers. -/
theorem actAll_fills {ms : List (Nat × CmMoment)} (hms : ∀ q ∈ ms, ∃ k off, q.2 = .fill k off) {s : State} {n k : Nat}
    (hk : ∃ f, (s.core n).fills[k]? = some f) :
    (actAll n ms s).mem = s.mem ∧ (actAll n ms s).regs = s.regs ∧
    ∀ c off i, (c, CmMoment.fill k off) ∈ ms → off / 64 ≤ i → i < off / 64 + 8 → (actAll n ms s).hasUnit s.mem n k i := by
  have hkeep : ∀ (t : State), ∀ q ∈ ms.foldl (fun l a => momentInsert a l) [], t.mem = s.mem ∧ t.regs = s.regs ∧
      (∃ f, (t.core n).fills[k]? = some f) → (q.2.act n t).mem = s.mem ∧ (q.2.act n t).regs = s.regs ∧
      ∃ f, ((q.2.act n t).core n).fills[k]? = some f := by
    rintro t q hq ⟨hmem, hregs, hf⟩
    obtain ⟨j, off, hq⟩ := hms q ((mem_sorted.mp hq).resolve_right (by simp))
    rw [hq]
    exact ⟨hmem, hregs, exists_fill_fillRead hf⟩
  have hall := List.foldlRecOn (motive := fun t : State => t.mem = s.mem ∧ t.regs = s.regs ∧
    ∃ f, (t.core n).fills[k]? = some f) _ (fun t (q : Nat × CmMoment) => q.2.act n t) ⟨rfl, rfl, hk⟩
    fun t ht q hq => hkeep t q hq ht
  refine ⟨hall.1, hall.2.1, fun c off i hc hlo hhi => ?_⟩
  refine foldl_establishes_within (Q := fun t : State => t.mem = s.mem ∧ t.regs = s.regs ∧
    ∃ f, (t.core n).fills[k]? = some f) (P := fun t => t.hasUnit s.mem n k i) (mem_sorted.mpr (.inl hc)) hkeep
    (fun t ht => ?_) (fun t q hq ht hp => ?_) ⟨rfl, rfl, hk⟩
  · obtain ⟨hmem, -, hf⟩ := ht
    rw [← hmem]
    exact hasUnit_fillRead hf ⟨hlo, hhi⟩
  · obtain ⟨hmem, -, -⟩ := ht
    obtain ⟨j, o, hq⟩ := hms q ((mem_sorted.mp hq).resolve_right (by simp))
    rw [hq]
    rw [← hmem] at hp ⊢
    exact hasUnit_fillRead_of hp

/-- A fill of an AB as it is issued: its reads, one wide access a cycle (R319). -/
structure FillOp.Copies (f : FillOp) : Prop where
  got : f.got = []
  due : f.due = f.issue + 3 + ceilDiv f.args.len.toNat 8
  reads : f.reads = (List.range (ceilDiv f.args.len.toNat 8)).map fun i =>
    (f.issue + 1 + i, f.args.src.toNat * 64 + 512 * i)

/-- The read of a fill of an AB that covers unit j of its source. -/
theorem FillOp.Copies.read {f : FillOp} (h : f.Copies) {j : Nat} (hj : j < f.args.len.toNat) :
    (f.issue + 1 + j / 8, f.args.src.toNat * 64 + 512 * (j / 8)) ∈ f.reads ∧ f.issue + 1 + j / 8 ≤ f.due := by
  have hlt : j / 8 < ceilDiv f.args.len.toNat 8 := by
    rw [ceilDiv]
    omega
  rw [h.reads, h.due]
  exact ⟨List.mem_map_of_mem (f := fun i => (f.issue + 1 + i, f.args.src.toNat * 64 + 512 * i)) (List.mem_range.mpr hlt),
    by omega⟩

section
variable {s : State} {n k : Nat} {f : FillOp} (hs : s.landCm n = s) (hk : (s.core n).fills[k]? = some f) (hf : f.Copies)
  {c : Nat} (hdue : f.due ≤ c)
include hs hk hf hdue

/-- By the cycle in which a fill of an AB is due, where nothing but fills lands up to then, memory and registers are as they
were, and it has read the units of its source. -/
theorem toCyc_copies (hbg : (s.core n).bg = []) (hms : ∀ q ∈ (s.core n).moments c, ∃ k off, q.2 = .fill k off) :
    (s.toCyc n c).mem = s.mem ∧ (s.toCyc n c).regs = s.regs ∧
    ∀ j < f.args.len.toNat, (s.toCyc n c).hasUnit s.mem n k (f.args.src.toNat + j) := by
  have hmem : f ∈ (s.core n).fills := List.mem_of_getElem? hk
  rw [toCyc_eq]
  rcases cyc_att_cases s n c with ⟨hle, hcyc⟩ | hcyc
  · rw [landCm_att hcyc, hs]
    refine ⟨rfl, rfl, fun j hj => ?_⟩
    obtain ⟨hr, hrd⟩ := hf.read hj
    have hlate := fillReads_after hs hmem _ hr
    dsimp only at hlate
    omega
  · generalize max s.now (s.cycTime n c) = x at hcyc ⊢
    have hfare : ((s.core n).bgFare c).done = [] := by rw [Core.bgFare, hbg]; rfl
    have hleave : bgLeave n c (s.core n) (s.att x) = s.att x := by rw [bgLeave, hbg]; rfl
    have hhap : (s.core n).happens c = (s.core n).moments c := by rw [Core.happens, hfare]; exact List.append_nil _
    have hmom : ∀ j < f.args.len.toNat, (f.issue + 1 + j / 8, CmMoment.fill k (f.args.src.toNat * 64 + 512 * (j / 8))) ∈
        (s.core n).moments c := fun j hj => by
      obtain ⟨hr, hrd⟩ := hf.read hj
      exact mem_fillReads_moments hk hr (hrd.trans hdue)
    have heq : (s.att x).landCm n = if (s.core n).moments c = [] then s.att x
        else actAll n ((s.core n).moments c) ((s.att x).modCore n (Core.past c)) := by
      have hcore : (s.att x).core n = s.core n := rfl
      rw [landCm_eq, hcyc, hcore, hhap, hleave]
    rw [heq]
    split
    · next hnil =>
      refine ⟨rfl, rfl, fun j hj => ?_⟩
      have := hmom j hj
      rw [hnil] at this
      cases this
    · have hpast : ∃ f, (((s.att x).modCore n (Core.past c)).core n).fills[k]? = some f := by
        rw [State.core_modCore_same]
        refine ⟨f.left c, ?_⟩
        rw [show (Core.past c ((s.att x).core n)).fills = (s.core n).fills.map (FillOp.left c) from rfl,
          List.getElem?_map, hk]
        rfl
      obtain ⟨hm, hr, hu⟩ := actAll_fills hms hpast
      refine ⟨hm, hr, fun j hj => hu _ _ _ (hmom j hj) (by omega) (by omega)⟩

end

end Sys2Proof.Machine
end

section
/-! PROOFS. A fill completes (R318, R319): an AB takes its units, a WS set its expanded tile, or is marked invalid. -/

namespace Sys2Proof.Machine

/-! ### The fill that is due first -/

/-- The earlier of two fills, the first where they are due together. -/
def earlier (a : Option (Nat × Nat)) (f : Nat × Nat) : Option (Nat × Nat) :=
  match a with
  | none => some f
  | some b => if f.2 < b.2 then some f else some b

theorem earlier_stays {x : Nat × Nat} {l : List (Nat × Nat)} (h : ∀ b ∈ l, x.2 ≤ b.2) : l.foldl earlier (some x) = some x := by
  induction l with
  | nil => rfl
  | cons b l ih =>
    have hb : earlier (some x) b = some x := if_neg (Nat.not_lt.mpr (h b (List.mem_cons_self ..)))
    rw [List.foldl_cons, hb, ih fun c hc => h c (List.mem_cons_of_mem _ hc)]

theorem earlier_mem {a : Option (Nat × Nat)} {l : List (Nat × Nat)} {y : Nat × Nat} (h : l.foldl earlier a = some y) :
    a = some y ∨ y ∈ l := by
  induction l generalizing a with
  | nil => exact .inl h
  | cons b l ih =>
    rcases ih h with hy | hy
    · cases a with
      | none => exact .inr (List.mem_cons.mpr (.inl (Option.some.inj hy).symm))
      | some c =>
        unfold earlier at hy
        dsimp only at hy
        split at hy
        · exact .inr (List.mem_cons.mpr (.inl (Option.some.inj hy).symm))
        · exact .inl hy
    · exact .inr (List.mem_cons_of_mem _ hy)

theorem earlier_first {x : Nat × Nat} {l r : List (Nat × Nat)} (hl : ∀ b ∈ l, x.2 < b.2) (hr : ∀ b ∈ r, x.2 ≤ b.2) :
    (l ++ x :: r).foldl earlier none = some x := by
  have hx : earlier (l.foldl earlier none) x = some x := by
    cases h : l.foldl earlier none with
    | none => rfl
    | some y => exact if_pos (hl y ((earlier_mem h).resolve_left (by simp)))
  rw [List.foldl_append, List.foldl_cons, hx, earlier_stays hr]

theorem firstFill_eq (s : State) (n : Nat) :
    firstFill s n = ((s.core n).fills.zipIdx.map fun f => (f.2, s.fillDue n f.1)).foldl earlier none := rfl

theorem firstFill_none {s : State} {n : Nat} (h : (s.core n).fills = []) : firstFill s n = none := by
  rw [firstFill_eq, h]
  rfl

theorem firstFill_some {s : State} {n : Nat} {as bs : List FillOp} {f : FillOp} (h : (s.core n).fills = as ++ f :: bs)
    (has : ∀ e ∈ as, s.fillDue n f < s.fillDue n e) (hbs : ∀ e ∈ bs, s.fillDue n f ≤ s.fillDue n e) :
    firstFill s n = some (as.length, s.fillDue n f) := by
  rw [firstFill_eq, h, List.zipIdx_append, List.zipIdx_cons, List.map_append, List.map_cons, Nat.zero_add]
  refine earlier_first (x := (as.length, s.fillDue n f)) ?_ ?_
  · intro b hb
    obtain ⟨q, hq, rfl⟩ := List.mem_map.mp hb
    exact has q.1 (List.fst_mem_of_mem_zipIdx hq)
  · intro b hb
    obtain ⟨q, hq, rfl⟩ := List.mem_map.mp hb
    exact hbs q.1 (List.fst_mem_of_mem_zipIdx hq)

/-! ### Frames of memory -/

section
variable {s t u : State} {ms : List (Nat × Nat)}

theorem memBut_trans (h : s.MemBut t ms) (k : t.MemBut u ms) : s.MemBut u ms := fun a ha => (k a ha).trans (h a ha)
theorem memBut_of_mem_eq (h : t.mem = s.mem) : s.MemBut t ms := fun a _ => by rw [h]
theorem memBut_foldl {α : Type} {f : State → α → State} {l : List α} (h : ∀ t : State, ∀ a ∈ l, t.MemBut (f t a) ms)
    (s : State) : s.MemBut (l.foldl f s) ms :=
  List.foldlRecOn (motive := fun t => s.MemBut t ms) l f (memBut_refl s ms) fun t ht a ha => memBut_trans ht (h t a ha)

/-- Bytes stored within a range leave the rest alone. -/
theorem memBut_wr_within {da a len : Nat} {bs : List Byte} (hdev : 0x010000000000 ≤ da) (hlo : a ≤ da)
    (hhi : da + bs.length ≤ a + len) : s.MemBut (s.wr da bs) [(a, len)] := by
  intro x hx
  have hout := hx (a, len) (List.mem_singleton_self _)
  refine memBut_wr s da bs x fun r hr => ?_
  rw [List.mem_singleton.mp hr, canon_device hdev]
  dsimp only at hout ⊢
  omega

theorem mem_setPoison (s : State) (da : Nat) (p : Bool) : (s.setPoison da p).mem = s.mem := by
  unfold State.setPoison
  dsimp only
  split <;> rfl

end

/-! ### Units copied -/

/-- Unit j of a source put at its place of a destination. -/
def copyUnit (d p : Nat) (vs : Nat → UnitP) (s : State) (j : Nat) : State := s.wrUnit (d + (p + j) * 64) (vs j).bs (vs j).poison

theorem byteStore_copyUnits (d p k : Nat) (vs : Nat → UnitP) : ByteStore fun s => (List.range k).foldl (copyUnit d p vs) s :=
  byteStore_foldl (f := copyUnit d p vs) (fun j => byteStore_wrUnit _ (vs j).bs (vs j).poison) _

theorem lands_copyUnits (d p k : Nat) (vs : Nat → UnitP) (s : State) : s.Lands ((List.range k).foldl (copyUnit d p vs) s) :=
  lands_foldl (fun _ _ => lands_wrUnit ..) _ s

theorem mem_copyUnit (d p : Nat) (vs : Nat → UnitP) (s : State) (j : Nat) (hd : 0x010000000000 ≤ d) :
    (copyUnit d p vs s j).mem = memWrite s.mem (d + (p + j) * 64) (vs j).bs := by
  rw [copyUnit, State.wrUnit, mem_setPoison, State.wr_mem, canon_device (by omega)]

section
variable {d p k : Nat} {vs : Nat → UnitP} (hd : 0x010000000000 ≤ d) (hlen : ∀ j < k, (vs j).bs.length = 64)
include hd hlen

theorem memBut_copyUnits (s : State) : s.MemBut ((List.range k).foldl (copyUnit d p vs) s) [(d + p * 64, k * 64)] := by
  refine memBut_foldl (fun t j hj a ha => ?_) s
  have hj' := List.mem_range.mp hj
  have hout := ha _ (List.mem_singleton_self _)
  dsimp only at hout
  rw [mem_copyUnit d p vs t j hd]
  exact memByte_write_other _ _ _ _ (by rw [hlen j hj']; omega)

/-- A byte of the destination is the byte of its unit. -/
theorem memByte_copyUnits (s : State) {j o : Nat} (hj : j < k) (ho : o < 64) :
    memByte ((List.range k).foldl (copyUnit d p vs) s).mem (d + p * 64 + (j * 64 + o)) = (vs j).bs.getD o 0 := by
  refine foldl_establishes (P := fun t : State => memByte t.mem (d + p * 64 + (j * 64 + o)) = (vs j).bs.getD o 0)
    (List.mem_range.mpr hj) (fun t => ?_) (fun t i hi hne ht => ?_) s
  · have hlt : o < (vs j).bs.length := by rw [hlen j hj]; exact ho
    rw [mem_copyUnit d p vs t j hd, show d + p * 64 + (j * 64 + o) = d + (p + j) * 64 + o by omega,
      memByte_write_same _ _ _ _ hlt, List.getD_eq_getElem _ _ hlt]
  · have hil := hlen i (List.mem_range.mp hi)
    rw [mem_copyUnit d p vs t i hd, memByte_write_other _ _ _ _ (by rw [hil]; omega), ht]

end

/-! ### Rows of a weight set -/

theorem length_natLe (k v : Nat) : (natLe k v).length = k := by
  induction k generalizing v with
  | zero => rfl
  | succ k ih => rw [natLe, List.length_cons, ih]

theorem packVals_bytes {b : Nat} (hb : b ≠ 4) (x : Nat) (xs : List Nat) :
    packVals b (x :: xs) = natLe (b / 8) x ++ packVals b xs := by
  cases xs <;> exact if_neg hb
theorem packVals_nibble (x : Nat) : packVals 4 [x] = natLe 1 (x % 16) := rfl
theorem packVals_nibbles (x y : Nat) (l : List Nat) :
    packVals 4 (x :: y :: l) = natLe 1 (x % 16 + y % 16 * 16) ++ packVals 4 l := rfl

theorem length_packVals_bytes {b : Nat} (hb : b ≠ 4) (l : List Nat) : (packVals b l).length = b / 8 * l.length := by
  induction l with
  | nil => rfl
  | cons x l ih =>
    rw [packVals_bytes hb, List.length_append, length_natLe, ih, List.length_cons, Nat.mul_add, Nat.mul_one, Nat.add_comm]

theorem length_packVals_nibbles : ∀ l : List Nat, (packVals 4 l).length = (l.length + 1) / 2
  | [] => rfl
  | [x] => by rw [packVals_nibble, length_natLe, List.length_singleton]
  | x :: y :: l => by
    rw [packVals_nibbles, List.length_append, length_natLe, length_packVals_nibbles l, List.length_cons,
      List.length_cons]
    omega

/-- Rows of a weight set that a tile fills (R318). -/
def wsRows (h : TileHdr) : Nat := if h.etype = etBf16 then 64 else 128

/-- A row lies in its set. -/
theorem wsRow_within (bs : List Byte) (h : TileHdr) (part : Nat) {r : Nat} (hr : r < wsRows h) :
    (wsRow bs h part r).1 + (wsRow bs h part r).2.length ≤ 0x4000 := by
  have hrows : r < 128 := hr.trans_le (by rw [wsRows]; split <;> decide)
  unfold wsRow
  split
  · dsimp only
    rw [length_packVals_nibbles, tileRow, List.length_map, List.length_range]
    split <;> omega
  · split
    · next hbf =>
      rw [wsRows, if_pos hbf] at hr
      dsimp only
      rw [length_packVals_bytes (by decide), List.length_map, List.length_range]
      omega
    · dsimp only
      rw [length_packVals_bytes (by decide), tileRow, List.length_map, List.length_range]
      omega

/-- The rows of a tile stored in a weight set. -/
def wsStore (n m set : Nat) (bs : List Byte) (h : TileHdr) (part : Nat) (s : State) : State :=
  (List.range (wsRows h)).foldl (fun s r => s.wr (wsBase n m set + (wsRow bs h part r).1) (wsRow bs h part r).2) s

/-- The poison of units of a weight set. -/
def wsMark (n m set : Nat) (us : List Nat) (p : Bool) (s : State) : State :=
  us.foldl (fun s u => s.setPoison (wsBase n m set + u * 64) p) s

theorem byteStore_wsFill (n m set : Nat) (bs : List Byte) (h : TileHdr) (part : Nat) (us : List Nat) (p : Bool) :
    ByteStore fun s => wsMark n m set us p (wsStore n m set bs h part s) :=
  byteStore_comp
    (byteStore_foldl (f := fun (s : State) r => s.wr (wsBase n m set + (wsRow bs h part r).1) (wsRow bs h part r).2)
      (fun _ => byteStore_wr _ _) _)
    (byteStore_foldl (f := fun (s : State) u => s.setPoison (wsBase n m set + u * 64) p) (fun _ => byteStore_setPoison _ p) us)

theorem lands_wsFill (n m set : Nat) (bs : List Byte) (h : TileHdr) (part : Nat) (us : List Nat) (p : Bool) (s : State) :
    s.Lands (wsMark n m set us p (wsStore n m set bs h part s)) :=
  lands_trans (lands_foldl (fun _ _ => lands_wr ..) _ s) (lands_foldl (fun _ _ => lands_setPoison ..) us _)

theorem memBut_wsFill (n m set : Nat) (bs : List Byte) (h : TileHdr) (part : Nat) (us : List Nat) (p : Bool) (s : State) :
    s.MemBut (wsMark n m set us p (wsStore n m set bs h part s)) [(wsBase n m set, 0x4000)] := by
  refine memBut_trans (t := wsStore n m set bs h part s) (memBut_foldl (fun t r hr => ?_) s)
    (memBut_foldl (fun t u _ => memBut_of_mem_eq (mem_setPoison ..)) _)
  have hin := wsRow_within bs h part (List.mem_range.mp hr)
  exact memBut_wr_within (by simp only [wsBase, abBase, coreBase]; omega) (by omega) (by omega)

theorem fillFault_lt (bs : List Byte) (avail part : Nat) : fillFault bs avail part < 0x40 := by
  unfold fillFault tileFault headFault
  dsimp only
  split_ifs <;> decide

end Sys2Proof.Machine
end

section
/-! PROOFS. FILL_COMPLETE (R319): the fill that is due first ends. -/

namespace Sys2Proof.Machine

theorem length_memRead (m : List Host.Cell) (a k : Nat) : (memRead m a k).length = k := by
  induction k generalizing a with
  | zero => rfl
  | succ k ih => rw [memRead, List.length_cons, ih]

theorem getD_memRead (m : List Host.Cell) (a : Nat) {i k : Nat} (h : i < k) :
    (memRead m a k).getD i 0 = memByte m (a + i) := by
  induction k generalizing a i with
  | zero => omega
  | succ k ih =>
    rw [memRead]
    cases i with
    | zero => rfl
    | succ i => rw [List.getD_cons_succ, ih _ (by omega), Nat.add_right_comm, Nat.add_assoc]

/-! ### What a fill leaves -/

/-- The bytes of a tile that a fill has read. -/
def FillOp.tile (f : FillOp) : List Byte :=
  let off := f.args.src.toNat * 64
  gotBytes f.got off (min (max ((hdrOf (gotBytes f.got off 64)).len * 64) 64) (cmSize - off))

/-- The header of that tile. -/
def FillOp.hdr (f : FillOp) : TileHdr := hdrOf (gotBytes f.got (f.args.src.toNat * 64) 64)

/-- What is wrong with that tile. -/
def FillOp.bad (f : FillOp) : Nat := fillFault f.tile (cmSize - f.args.src.toNat * 64) f.args.part.toNat

/-- Meta data of a weight set of an engine replaced. -/
def State.putMeta (s : State) (n m set : Nat) (w : WsMeta) : State :=
  s.modMxe n m fun x => { x with wsMeta := tabSet x.wsMeta set w }

/-- The event of a fill whose tile is not valid. -/
def FillOp.event (f : FillOp) (n : Nat) : Err :=
  { src := srcOf 1 n f.slot, code := f.bad, addr := coreBase n + f.args.src.toNat * 64, context := ctxWord f.pc f.ctx }

theorem Lands.hif {s t : State} (h : s.Lands t) : t.hif = s.hif := by
  unfold State.Lands at h
  rw [h]
theorem Lands.regs {s t : State} (h : s.Lands t) : t.regs = s.regs := by
  unfold State.Lands at h
  rw [h]

section
variable {s : State} {n : Nat} {f : FillOp}

theorem fillDone_ab (h : f.args.dk = false) : fillDone n f s = (List.range f.args.len.toNat).foldl
    (copyUnit (abBase n f.m) f.args.aboff.toNat fun j => tabGet ⟨List.replicate 64 0, false⟩ f.got (f.args.src.toNat + j)) s := by
  unfold fillDone
  dsimp only
  rw [if_neg (by rw [h]; exact Bool.false_ne_true)]
  rfl

theorem fillDone_bad (h : f.args.dk = true) (hb : f.bad ≠ 0) : fillDone n f s =
    (s.putMeta n f.m f.args.set.val { tabGet {} (s.mxe n f.m).wsMeta f.args.set.val with valid := false }).raise
      (f.event n) := by
  unfold fillDone
  dsimp only
  rw [if_pos h]
  exact if_pos hb

theorem fillDone_ws (h : f.args.dk = true) (hb : f.bad = 0) : fillDone n f s =
    (wsMark n f.m f.args.set.val (wsFilled f.hdr.etype f.args.part.toNat)
      (gotPoison f.got (f.args.src.toNat * 64) (f.hdr.len * 64))
      (wsStore n f.m f.args.set.val f.tile f.hdr f.args.part.toNat s)).putMeta n f.m f.args.set.val
      (fillMeta (tabGet {} (s.mxe n f.m).wsMeta f.args.set.val) f.hdr f.args.part.toNat) := by
  unfold fillDone
  dsimp only
  rw [if_pos h]
  exact if_neg (not_not.mpr hb)

/-- Of an engine's fills the end of one leaves those in flight, and no time passes. -/
theorem fillDone_keeps (s : State) (n : Nat) (f : FillOp) :
    (fillDone n f s).now = s.now ∧ (fillDone n f s).hif = s.hif ∧ ((fillDone n f s).core n).fills = (s.core n).fills := by
  have hput : ∀ (t : State) w, ((t.putMeta n f.m f.args.set.val w).core n).fills = (t.core n).fills := fun t w => by
    rw [State.putMeta, State.core_modMxe]
  cases h : f.args.dk with
  | false =>
    rw [fillDone_ab h]
    have hb := byteStore_copyUnits (abBase n f.m) f.args.aboff.toNat f.args.len.toNat fun j =>
      tabGet ⟨List.replicate 64 0, false⟩ f.got (f.args.src.toNat + j)
    refine ⟨hb.now s, ?_, ?_⟩
    · exact Lands.hif (lands_copyUnits _ _ _ _ s)
    · rw [State.core, hb.cores s]
      rfl
  | true =>
    by_cases hb : f.bad = 0
    · rw [fillDone_ws h hb]
      have hs := byteStore_wsFill n f.m f.args.set.val f.tile f.hdr f.args.part.toNat
        (wsFilled f.hdr.etype f.args.part.toNat) (gotPoison f.got (f.args.src.toNat * 64) (f.hdr.len * 64))
      have hl := lands_wsFill n f.m f.args.set.val f.tile f.hdr f.args.part.toNat
        (wsFilled f.hdr.etype f.args.part.toNat) (gotPoison f.got (f.args.src.toNat * 64) (f.hdr.len * 64)) s
      refine ⟨hs.now s, Lands.hif (lands_trans hl (lands_modMxe ..)), (hput _ _).trans ?_⟩
      rw [State.core, hs.cores s]
      rfl
    · rw [fillDone_bad h hb, (errOnly_raise _ _).1]
      exact ⟨rfl, rfl, hput _ _⟩

end

/-! ### The command -/

/-- Fill k of a core is no longer in flight. -/
def State.endFill (s : State) (n k : Nat) : State := s.modCore n fun x => { x with fills := x.fills.eraseIdx k }

theorem fills_endFill (s : State) (n k : Nat) : ((s.endFill n k).core n).fills = (s.core n).fills.eraseIdx k := by
  rw [State.endFill, State.core_modCore_same]
theorem mxe_endFill (s : State) (n k m : Nat) : (s.endFill n k).mxe n m = s.mxe n m := by
  rw [State.mxe, State.endFill, State.core_modCore_same]
  rfl

section
variable {s : State} {n k : Nat}

theorem fillComplete_none (h : (s.core n).fills = []) : fillComplete n s = s := by
  unfold fillComplete
  rw [firstFill_none h]

/-- The fill that is due first ends, and with it its footprint. -/
theorem fillComplete_ends {c : Nat} (h : firstFill s n = some (k, c)) {f : FillOp}
    (hf : ((s.toCyc n c).core n).fills[k]? = some f) :
    (fillDone n f ((s.toCyc n c).endFill n k)).ShadowOnly (fillComplete n s) n := by
  unfold fillComplete
  rw [h]
  dsimp only
  rw [hf]
  dsimp only
  split
  · exact shadowOnly_drop ..
  · exact shadowOnly_done ..

end

section
variable {u t : State} {n k : Nat} {f : FillOp} (ht : (fillDone n f (u.endFill n k)).ShadowOnly t n)
include ht

theorem fill_keeps : t.now = u.now ∧ t.hif = u.hif ∧ (t.core n).fills = (u.core n).fills.eraseIdx k := by
  obtain ⟨hnow, hhif, hfills⟩ := fillDone_keeps (u.endFill n k) n f
  exact ⟨(ShadowOnly.now ht).trans hnow, (ShadowOnly.hif ht).trans hhif,
    (ShadowOnly.fills ht).trans (hfills.trans (fills_endFill u n k))⟩

/-- An AB takes the units that a fill has read (R319). -/
theorem fill_ab (hdk : f.args.dk = false) {m : List Host.Cell}
    (hgot : ∀ j < f.args.len.toNat, (tabGet ⟨List.replicate 64 0, false⟩ f.got (f.args.src.toNat + j)).bs =
      memRead m (coreBase n + (f.args.src.toNat + j) * 64) 64) :
    t.regs = u.regs ∧ u.MemBut t [(abBase n f.m + f.args.aboff.toNat * 64, f.args.len.toNat * 64)] ∧
    ∀ i < f.args.len.toNat * 64, memByte t.mem (abBase n f.m + f.args.aboff.toNat * 64 + i) =
      memByte m (coreBase n + f.args.src.toNat * 64 + i) := by
  have hd : 0x010000000000 ≤ abBase n f.m := by rw [abBase, coreBase]; omega
  have hregs := ShadowOnly.regs ht
  have hmem := ShadowOnly.mem ht
  rw [fillDone_ab hdk] at hregs hmem
  have hlen : ∀ j < f.args.len.toNat,
      (tabGet ⟨List.replicate 64 0, false⟩ f.got (f.args.src.toNat + j)).bs.length = 64 := fun j hj => by
    rw [hgot j hj, length_memRead]
  refine ⟨hregs.trans (Lands.regs (lands_copyUnits ..)), ?_, fun i hi => ?_⟩
  · exact memBut_trans (t := (List.range _).foldl _ (u.endFill n k)) (memBut_copyUnits hd hlen (u.endFill n k))
      (memBut_of_mem_eq hmem)
  · have hsplit : i = i / 64 * 64 + i % 64 := by omega
    rw [hmem, hsplit, memByte_copyUnits hd hlen _ (by omega) (by omega), hgot _ (by omega), getD_memRead _ _ (by omega)]
    congr 1
    omega

/-- A valid tile fills its weight set and sets its type and columns (R318, R319). -/
theorem fill_ws (hdk : f.args.dk = true) (hb : f.bad = 0) :
    t.regs = u.regs ∧ u.MemBut t [(wsBase n f.m f.args.set.val, 0x4000)] ∧
    tabFind (t.mxe n f.m).wsMeta f.args.set.val =
      some (fillMeta (tabGet {} (u.mxe n f.m).wsMeta f.args.set.val) f.hdr f.args.part.toNat) := by
  have hregs := ShadowOnly.regs ht
  have hmem := ShadowOnly.mem ht
  have hmxe := ShadowOnly.mxe ht f.m
  rw [fillDone_ws hdk hb, mxe_endFill] at hregs hmem hmxe
  refine ⟨hregs.trans (Lands.regs (s := u.endFill n k) (lands_trans (lands_wsFill ..) (lands_modMxe ..))), ?_, ?_⟩
  · exact memBut_trans (memBut_wsFill n f.m f.args.set.val f.tile f.hdr f.args.part.toNat _ _ (u.endFill n k))
      (memBut_of_mem_eq hmem)
  · rw [hmxe, State.putMeta, State.mxe_modMxe_same, tabFind_set_same]

/-- A tile that is not valid marks its weight set and raises its fault (R319). -/
theorem fill_bad (hdk : f.args.dk = true) (hb : f.bad ≠ 0) :
    u.RegsButErr t [] ∧ t.mem = u.mem ∧ t.fld .errHead F.errHeadSeq = (u.fld .errHead F.errHeadSeq + 1) % 2 ^ 32 ∧
    ∃ w, tabFind (t.mxe n f.m).wsMeta f.args.set.val = some w ∧ w.valid = false := by
  have hregs := ShadowOnly.regs ht
  have hmem := ShadowOnly.mem ht
  have hmxe := ShadowOnly.mxe ht f.m
  rw [fillDone_bad hdk hb, mxe_endFill] at hregs hmem hmxe
  obtain ⟨w, hw⟩ : ∃ w, w = (u.endFill n k).putMeta n f.m f.args.set.val
    { tabGet {} (u.mxe n f.m).wsMeta f.args.set.val with valid := false } := ⟨_, rfl⟩
  rw [← hw] at hregs hmem hmxe
  have hwregs : w.regs = u.regs := by rw [hw]; rfl
  have hwmem : w.mem = u.mem := by rw [hw]; rfl
  have herr := errOnly_raise w (f.event n)
  have hinfo : isInfo (f.event n).code = false := by
    have hlt := fillFault_lt f.tile (cmSize - f.args.src.toNat * 64) f.args.part.toNat
    exact decide_eq_false (Nat.not_le.mpr hlt)
  refine ⟨?_, ?_, ?_, ?_⟩
  · exact regsButErr_trans (regsButErr_of_regsBut (regsBut_of_regs_eq hwregs))
      (regsButErr_trans (regsButErr_of_errOnly herr) (regsButErr_of_regsBut (regsBut_of_regs_eq hregs)))
  · rw [hmem, herr.1, ← hwmem]
  · rw [fld_of_regs_eq hregs, raise_seq w hinfo, fld_of_regs_eq hwregs]
  · refine ⟨{ tabGet {} (u.mxe n f.m).wsMeta f.args.set.val with valid := false }, ?_, rfl⟩
    have hraise : (w.raise (f.event n)).mxe n f.m = w.mxe n f.m := by rw [herr.1]; rfl
    rw [hmxe, hraise, hw, State.putMeta, State.mxe_modMxe_same, tabFind_set_same]

end

end Sys2Proof.Machine
end

section
/-! PROOFS. Loads, fills and configuration settle their obligation (O26): what each command answers. -/

namespace Sys2Proof.Machine

/-! ### The held configuration, a stall ending with it -/

section
variable {s : State} {n : CoreId}

/-- The end of a stall leaves configuration and status of the engines. -/
theorem fld_stallOff (s : State) {r : Reg} (hr : r = .mxeCfg n 0 ∨ ∃ i : MxeId, r = .mxeStatus n i) (f : Fld) :
    (s.stallOff n).fld r f = s.fld r f := by
  obtain ⟨q, hq, hregs, -, -⟩ := stallOff_counts s n
  refine RegsBut.fld hregs f ?_
  rw [List.map_singleton, List.mem_singleton]
  rcases hr with rfl | ⟨i, rfl⟩ <;> rcases hq with rfl | rfl | ⟨k, rfl⟩ <;> simp only [regAddr] <;> omega

theorem mxe_stallOff (s : State) (i : Nat) : (s.stallOff n).mxe n i = s.mxe n i := by
  obtain ⟨-, -, -, -, hcore⟩ := stallOff_counts s n
  rw [State.mxe, hcore]
  rfl

theorem emptied_stallOff {i : MxeId} (h : s.Emptied n i) : (s.stallOff n).Emptied n i := by
  have hfld := fld_stallOff s (n := n) (.inr ⟨i, rfl⟩)
  unfold State.Emptied
  rw [mxe_stallOff, hfld, hfld]
  exact h

theorem mxeCfgApply_leaves {v : Word} (h : (s.core n).cfgHeld = some v) (hi : ∀ i : MxeId, (s.mxe n i).held = false) :
    let u := s.toCyc n (s.enginesDone n)
    let t := mxeCfgApply n s
    t.hif = u.hif ∧ (t.core n).cfgHeld = none ∧ t.now = u.now ∧
    t.fld (.mxeCfg n 0) F.mxeCfgGang = F.mxeCfgGang.of v.toNat ∧
    t.fld (.mxeCfg n 0) F.mxeCfgTranspose = F.mxeCfgTranspose.of v.toNat ∧
    ((u.core n).stall = none → u.RegsBut t (.mxeCfg n 0 :: (List.range 4).map (.mxeStatus n))) ∧
    (∀ st, (u.core n).stall = some st → st.cause = stCfgWrite → (t.core n).stall = none) ∧
    ∀ i : MxeId, u.gang n ≠ F.mxeCfgGang.of v.toNat ∨ u.transp n i ≠ bitAt (F.mxeCfgTranspose.of v.toNat) i →
      t.Emptied n i := by
  intro u t
  obtain ⟨hnow, hhif, hheld, hstall, hregs, hgang, htr, hempty⟩ := cfgDue_leaves (s := s) (n := n) v
  have ht : t = _ := mxeCfgApply_some h hi
  rw [hstall] at ht
  cases hst : (u.core n).stall with
  | none =>
    rw [show (s.toCyc n (s.enginesDone n)).core n = u.core n from rfl, hst] at ht
    rw [ht]
    exact ⟨hhif, hheld, hnow, hgang, htr, fun _ => hregs, fun _ he => (by cases he), hempty⟩
  | some st =>
    rw [show (s.toCyc n (s.enginesDone n)).core n = u.core n from rfl, hst] at ht
    dsimp only at ht
    split at ht
    · obtain ⟨-, -, -, honly, hcore⟩ := stallOff_counts (s.cfgDue n v) n
      rw [ht]
      refine ⟨?_, ?_, ?_, ?_, ?_, fun he => (by cases he), fun _ _ _ => by rw [hcore], fun i hc => emptied_stallOff (hempty i hc)⟩
      · rw [honly]; exact hhif
      · rw [hcore]; exact hheld
      · rw [honly]; exact hnow
      · rw [fld_stallOff _ (.inl rfl), hgang]
      · rw [fld_stallOff _ (.inl rfl), htr]
    · next hc =>
      rw [ht]
      exact ⟨hhif, hheld, hnow, hgang, htr, fun he => (by cases he),
        fun st' he hc' => absurd (Option.some.inj he ▸ hc') hc, hempty⟩

end

/-! ### What the commands answer -/

section
variable {s : State} {n : CoreId} {m : MxeId}

theorem answers_core {c : Instr} {f : State → State} {t : State} (hd : s.dead = false) (h : s.Settled n)
    (he : exec c s = runCore n f s) (hf : f s = t) (hk : t.hif.kernels = []) : Answers c s t := by
  rw [Answers, he, runCore_eq hd h (by rw [hf]; exact hk), hf]

theorem kernels_of_settled (h : s.Settled n) : s.hif.kernels = [] := by
  obtain ⟨-, -, -, -, -, -, hk⟩ := h
  exact hk

theorem kernels_of_hif {t : State} (h : s.Settled n) (ht : t.hif = s.hif) : t.hif.kernels = [] := by
  rw [ht]
  exact kernels_of_settled h

theorem answers_columnScan_held (hd : s.dead = false) (hsync : coreSync n s = s) (hsweep : kernelSweep s = s)
    (hon : s.kernelOn n = true) (hdr : s.drained n = false) (fails : List (Fin 128)) :
    Answers (.columnScan n m fails) s s := by
  have hscan : columnScan n m (fails.map Fin.val) s = s := if_pos (by rw [hon, hdr]; rfl)
  have he : exec (.columnScan n m fails) s = runCore n (columnScan n m (fails.map Fin.val)) s := rfl
  rw [Answers, he, runCore, run_live hd, hsync, hscan, hsweep]

theorem loadGate_none (h : (s.mxe n m).load = none) : loadGate n m s = s := by
  simp only [loadGate, h, weightLoadStart_none h]

theorem loadGate_waits {l : LoadOp} (h : (s.mxe n m).load = some l)
    (hw : ∃ f ∈ (s.mxe n (leadOf (s.gang n) m)).feeder, f.switch = true ∧ f.issue ≤ l.issue) : loadGate n m s = s := by
  simp [loadGate, weightLoadStart_waits h hw, h]

theorem loadGate_service (h : s.vmode n = false) : loadGate n m s = weightLoadStart n m s := by
  unfold loadGate
  dsimp only
  split
  · rfl
  · exact if_pos (.inl h)

theorem exec_dummyPass : exec (.dummyPass n m) s =
    runCore n (fun s => if s.feederIdle n m then dummyPass n s else s) s := rfl

/-- A pass of an idle feeder is one idle cycle (R92). -/
theorem dummyPass_idle (h : s.feederIdle n m = true) :
    (fun s : State => if s.feederIdle n m then dummyPass n s else s) s = { s with now := s.now + s.div n } := by
  dsimp only
  rw [if_pos h, dummyPass, State.advance, max_eq_right (Nat.le_add_right ..)]

theorem dummyPass_busy (h : s.feederIdle n m = false) :
    (fun s : State => if s.feederIdle n m then dummyPass n s else s) s = s :=
  if_neg (by rw [h]; exact Bool.false_ne_true)

end

/-! ### Fills -/

section
variable {s : State} {n : CoreId} {m : MxeId} (hd : s.dead = false) (h : s.Settled n)
include hd h

theorem answers_fillComplete {as bs : List FillOp} {f : FillOp} (hfills : (s.core n).fills = as ++ f :: bs)
    (has : ∀ e ∈ as, s.fillDue n f < s.fillDue n e) (hbs : ∀ e ∈ bs, s.fillDue n f ≤ s.fillDue n e) :
    let u := s.toCyc n (s.fillDue n f)
    ∃ f' t, (u.core n).fills[as.length]? = some f' ∧ f'.still = f.still ∧ Answers (.fillComplete n) s t ∧
      (fillDone n f' (u.endFill n as.length)).ShadowOnly t n := by
  intro u
  have hk : (s.core n).fills[as.length]? = some f := by rw [hfills]; simp
  obtain ⟨f', hf', hstill⟩ := fill_landCm (s := s.att (max s.now (s.cycTime n (s.fillDue n f)))) (n := n) hk
  have hend := fillComplete_ends (firstFill_some hfills has hbs) hf'
  refine ⟨f', _, hf', hstill, answers_core hd h rfl rfl (kernels_of_hif h ?_), hend⟩
  exact (fill_keeps hend).2.1.trans (hif_toCyc ..)

end

theorem args_of_still {f g : FillOp} (h : f.still = g.still) : f.args = g.args ∧ f.m = g.m := by
  have hargs : f.still.args = g.still.args := by rw [h]
  have hm : f.still.m = g.still.m := by rw [h]
  exact ⟨hargs, hm⟩

/-- Settles O26: each command of the core answers what its meaning leaves, and each clause reads it off. -/
theorem matrixLoadsAndConfiguration : Obligations.MatrixLoadsAndConfiguration := by
  refine ⟨fun s n m fails hd hsync hsweep hon hdr => answers_columnScan_held hd hsync hsweep hon hdr fails,
    fun s n m hd h => ?_⟩
  have hk := kernels_of_settled h
  have same : ∀ {c : Instr} {f : State → State}, exec c s = runCore n f s → f s = s → Answers c s s :=
    fun he hf => answers_core hd h he hf hk
  refine ⟨fun hf => same rfl (fillComplete_none hf), fun as f bs hfills has hbs hm => ?_,
    fun hl => same rfl (loadGate_none hl), fun l hl hw => same rfl (loadGate_waits hl hw),
    fun l hl hcur hv hw k hset hn => ?_, fun hc => same rfl (weightLoadDone_none hc), fun l hc => ?_,
    fun hc => same rfl (mxeCfgApply_none hc), fun v hv hi => ?_, fun k => ⟨fun ha => same rfl (abftRerun_of_ok ha), fun ha => ?_⟩,
    fun fails => ?_, fun hi => ?_, fun hi => ?_, fun hi => same rfl (rampDown_idle hi), fun hi hl => ?_⟩
  · intro u a
    obtain ⟨f', t, hf', hstill, hans, hend⟩ := answers_fillComplete hd h hfills has hbs
    obtain ⟨hargs, hfm⟩ := args_of_still hstill
    have hm' : f'.m = m.val := hfm.trans hm
    obtain ⟨hnow, -, hleft⟩ := fill_keeps hend
    refine ⟨f', t, hf', hargs, hans, hnow, hleft, fun hdk hbg hms hgot hdue hreads _ _ => ?_, fun hdk => ?_⟩
    · have hkf : (s.core n).fills[as.length]? = some f := by rw [hfills]; simp
      obtain ⟨hmem, hregs, hunits⟩ := toCyc_copies h.1 hkf ⟨hgot, hdue, hreads⟩ (due_le_fillDue s n f) hbg hms
      have hread : ∀ j < f'.args.len.toNat, (tabGet ⟨List.replicate 64 0, false⟩ f'.got (f'.args.src.toNat + j)).bs =
          memRead s.mem (coreBase n + (f'.args.src.toNat + j) * 64) 64 := fun j hj => by
        rw [hargs] at hj ⊢
        obtain ⟨g, hg, hbytes⟩ := hunits j hj
        rw [hf'] at hg
        rw [Option.some.inj hg]
        exact hbytes
      obtain ⟨htregs, htmem, htbytes⟩ := fill_ab hend (by rw [hargs]; exact hdk) hread
      rw [hm', hargs] at htmem htbytes
      exact ⟨htregs.trans hregs, memBut_trans (memBut_of_mem_eq hmem) htmem, htbytes⟩
    · have hdk' : f'.args.dk = true := by rw [hargs]; exact hdk
      have hws := fill_ws hend hdk'
      have hbad := fill_bad hend hdk'
      unfold FillOp.bad FillOp.tile FillOp.hdr at hws
      unfold FillOp.bad FillOp.tile at hbad
      rw [hm', hargs] at hws hbad
      exact ⟨hws, hbad⟩
  · intro prev sw s0 u
    have hbegin := weightLoadStart_begins hl hcur hw
    obtain ⟨hkern, ⟨x, hx⟩, hsv, hregs, hmem, hnow⟩ :=
      loadBegin_leaves (kernels_loadReads (n := n) (m := m) hk l ((s.mxe n m).loadAt l)) hset hn ((s.mxe n m).loadAt l)
    refine ⟨_, answers_core hd h rfl ((loadGate_service hv).trans hbegin) hkern, ?_, ?_, ?_, ?_, hsv, ?_,
      regsButErr_of_regsBut hregs, hmem, hnow⟩
    all_goals rw [hx]; rfl
  · intro u ws
    obtain ⟨hcur, hstand, hnow, hmem, hhif, hrow, hsv, hcol, hregs⟩ := weightLoadDone_leaves hc
    exact ⟨_, answers_core hd h rfl rfl (kernels_of_hif h (hhif.trans (hif_toCyc ..))), hcur, hstand, hnow, hmem, hrow,
      hsv, hcol, hregs⟩
  · intro u
    obtain ⟨hhif, hheld, hnow, hgang, htr, hregs, hstall, hempty⟩ := mxeCfgApply_leaves hv hi
    exact ⟨_, answers_core hd h rfl rfl (kernels_of_hif h (hhif.trans (hif_toCyc ..))), hheld, hnow, hgang, htr, hregs,
      hstall, hempty⟩
  · obtain ⟨hregs, hnow, hkern, htile, hscan, hdrains, hmem⟩ := abftRerun_of_bad ha
    refine ⟨_, answers_core hd h rfl rfl (hkern.trans hk), hregs, hnow, htile, hscan, hdrains, fun i hi => ?_, fun a ha => ?_⟩
    · rw [hmem, memByte_zero, if_pos (by omega)]
    · have hout := ha _ (List.mem_singleton_self _)
      dsimp only at hout
      rw [hmem, memByte_zero, if_neg (by omega)]
  · intro w all hused
    have hcols : ∀ c ∈ fails.map Fin.val, c < 128 := fun c hc => by
      obtain ⟨i, -, rfl⟩ := List.mem_map.mp hc
      exact i.isLt
    obtain ⟨hnow, hmem, hhif, hfence, hothers, hregs, hscan, hword⟩ :=
      columnScan_leaves (m := m) (kernelOn_nil hk n) (fails := fails.map Fin.val)
    refine ⟨_, answers_core hd h rfl rfl (kernels_of_hif h hhif), hnow, hmem, hfence, hothers, hregs, hscan,
      fun x hx => ?_, fun hroom x hx => ?_⟩
    · rw [hword] at hx
      exact List.mem_dedup.mpr (mem_bypassWiths hcols w hx)
    · rw [hword]
      exact bypassWiths_room hcols w hused hroom x (List.mem_dedup.mp hx)
  · exact answers_core hd h exec_dummyPass (dummyPass_idle hi) hk
  · exact same exec_dummyPass (dummyPass_busy hi)
  · obtain ⟨hnow, hmem, hhif, hlevel, hregs⟩ := rampDown_leaves hi hl
    exact ⟨_, answers_core hd h rfl rfl (kernels_of_hif h (hhif.trans (hif_toCyc ..))), hnow, hmem, hlevel, hregs⟩

end Sys2Proof.Machine
end

section
/-! PROOFS. Glasshouse records and the places of directory entries (R146, R202): what a record holds after a change,
and where the entries of a stack lie. -/

namespace Sys2Proof.Machine

theorem mem_fst_of_tabFind {α : Type} {t : Tab α} {a : Nat} {v : α} (h : tabFind t a = some v) : a ∈ t.map Prod.fst := by
  induction t with
  | nil => cases h
  | cons p t ih =>
    obtain ⟨k, x⟩ := p
    rw [tabFind] at h
    split at h
    · next hk => exact hk ▸ List.mem_cons_self ..
    · exact List.mem_cons_of_mem _ (ih h)

theorem memBut_mono {s t : State} {ms ms' : List (Nat × Nat)} (h : s.MemBut t ms) (hs : ms ⊆ ms') : s.MemBut t ms' :=
  fun a ha => h a fun r hr => ha r (hs hr)

section
variable (s : State) {n k : Nat}

@[simp] theorem State.gh_modGh_same (k : Nat) (f : Gh → Gh) : (s.modGh k f).gh k = f (s.gh k) := tabGet_set_same ..
theorem State.gh_modGh_other {j : Nat} (f : Gh → Gh) (h : j ≠ k) : (s.modGh k f).gh j = s.gh j := tabGet_set_other _ _ _ h

/-- The entry of index i of a stack lies i entries above the stack's directory base (R146). -/
theorem dirAddr_index (i : Nat) (h : k < 8) : s.dirAddr (i * 8 + k) = stackBase k + s.dirBase k + i * 32 := by
  rw [State.dirAddr, show (i * 8 + k) % 8 = k by omega, show (i * 8 + k) / 8 = i by omega]

theorem dirAddr_device (n : Nat) : 0x010000000000 ≤ s.dirAddr n := by
  simp only [State.dirAddr, stackBase]
  omega

/-- A place in the local view of a stack (R202). -/
theorem placeOf_stackBase {a : Nat} (hk : k < 8) (ha : a < 0x2000000000) : placeOf (stackBase k + a) = .stack k a := by
  rw [placeOf, stackBase, if_neg (by omega), if_pos (by omega), Nat.add_assoc, Nat.add_sub_cancel_left]
  congr 1 <;> omega

/-- An entry of a handle lies in the stack that the handle names: a directory ends within its stack (R146, R163). -/
theorem placeOf_dirAddr (h : n < 2 ^ 24) : ∃ o, placeOf (s.dirAddr n) = .stack (n % 8) o := by
  have hbase : s.fld (.ghDirBase (n % 8)) F.ghDirBaseBase < 2 ^ 11 := State.fld_lt ..
  have hwithin : s.dirBase (n % 8) + n / 8 * 32 < 0x2000000000 := by
    rw [State.dirBase, dirSize]
    omega
  rw [State.dirAddr, Nat.add_assoc]
  exact ⟨_, placeOf_stackBase (Nat.mod_lt _ (by decide)) hwithin⟩

end

end Sys2Proof.Machine
end

section
/-! PROOFS. The directory cache is flushed and invalidated, and its base and the heap bounds are written (O10). -/

namespace Sys2Proof.Machine

/-! ### ACCESS written back (R155) -/

section
variable {s t : State} {k i : Nat} {e : DirEnt}

theorem writeBack_cached (h : tabFind (s.gh k).cache i = some e) :
    writeBack k i s = s.wr (s.dirAddr (i * 8 + k) + 28) (natLe 4 e.access) := by rw [writeBack, h]
theorem writeBack_uncached (h : tabFind (s.gh k).cache i = none) : writeBack k i s = s := by rw [writeBack, h]

theorem writeBack_rest (k i : Nat) (s : State) : writeBack k i s = { s with mem := (writeBack k i s).mem } := by
  cases h : tabFind (s.gh k).cache i with
  | none => rw [writeBack_uncached h]
  | some e => rw [writeBack_cached h]; rfl

@[simp] theorem gh_writeBack (k i j : Nat) (s : State) : (writeBack k i s).gh j = s.gh j := by rw [writeBack_rest]; rfl
@[simp] theorem dirAddr_writeBack (k i n : Nat) (s : State) : (writeBack k i s).dirAddr n = s.dirAddr n := by
  rw [writeBack_rest]; rfl

/-- Where ACCESS of an index of stack k lies. -/
def State.accessPlace (s : State) (k i : Nat) : Nat × Nat := (s.dirAddr (i * 8 + k) + 28, 4)

theorem memBut_writeBack (k i : Nat) (s : State) : s.MemBut (writeBack k i s) [s.accessPlace k i] := by
  cases h : tabFind (s.gh k).cache i with
  | none => rw [writeBack_uncached h]; exact memBut_refl s _
  | some e =>
    rw [writeBack_cached h]
    have hdev := dirAddr_device s (i * 8 + k)
    exact memBut_wr_within (by omega) le_rfl (by rw [length_natLe])

theorem memRead_writeBack_same (h : tabFind (s.gh k).cache i = some e) :
    memRead (writeBack k i s).mem (s.dirAddr (i * 8 + k) + 28) 4 = natLe 4 e.access := by
  have hdev := dirAddr_device s (i * 8 + k)
  have hread := memRead_write s.mem (s.dirAddr (i * 8 + k) + 28) (natLe 4 e.access)
  rw [length_natLe] at hread
  rw [writeBack_cached h, State.wr_mem, canon_device (by omega), hread]

/-- ACCESS of one index is no part of another's entry. -/
theorem memRead_writeBack_other {j : Nat} (hk : k < 8) (h : j ≠ i) (s : State) :
    memRead (writeBack k j s).mem (s.dirAddr (i * 8 + k) + 28) 4 = memRead s.mem (s.dirAddr (i * 8 + k) + 28) 4 := by
  cases hj : tabFind (s.gh k).cache j with
  | none => rw [writeBack_uncached hj]
  | some d =>
    have hdev := dirAddr_device s (j * 8 + k)
    rw [writeBack_cached hj, State.wr_mem, canon_device (by omega)]
    refine memRead_write_other _ _ _ _ _ ?_
    rw [length_natLe, dirAddr_index s i hk, dirAddr_index s j hk]
    omega

/-! ### The whole cache (R163) -/

/-- Every listed index is written back. -/
def writeBacks (k : Nat) (l : List (Nat × DirEnt)) (s : State) : State := l.foldl (fun s e => writeBack k e.1 s) s

theorem writeBacks_rest (k : Nat) (l : List (Nat × DirEnt)) (s : State) :
    writeBacks k l s = { s with mem := (writeBacks k l s).mem } :=
  List.foldlRecOn (motive := fun t : State => t = { s with mem := t.mem }) l _ rfl fun t ht c _ => by
    rw [writeBack_rest, ht]

theorem memBut_writeBacks (k : Nat) (l : List (Nat × DirEnt)) (s : State) :
    s.MemBut (writeBacks k l s) (l.map fun c => s.accessPlace k c.1) := by
  induction l generalizing s with
  | nil => exact memBut_refl s _
  | cons c l ih =>
    have hrest := ih (writeBack k c.1 s)
    simp only [State.accessPlace, dirAddr_writeBack] at hrest
    exact memBut_trans (memBut_mono (memBut_writeBack k c.1 s) (by simp)) (memBut_mono hrest (by simp [State.accessPlace]))

/-- A cached index that is listed, or whose ACCESS stands there already, reads as its ACCESS after. -/
theorem memRead_writeBacks (hk : k < 8) (l : List (Nat × DirEnt)) (s : State) (h : tabFind (s.gh k).cache i = some e)
    (hi : i ∈ l.map Prod.fst ∨ memRead s.mem (s.dirAddr (i * 8 + k) + 28) 4 = natLe 4 e.access) :
    memRead (writeBacks k l s).mem (s.dirAddr (i * 8 + k) + 28) 4 = natLe 4 e.access := by
  induction l generalizing s with
  | nil => exact hi.resolve_left (List.not_mem_nil)
  | cons c l ih =>
    have hnext := ih (writeBack k c.1 s) (by rwa [gh_writeBack])
    rw [dirAddr_writeBack] at hnext
    refine hnext ?_
    by_cases hc : c.1 = i
    · exact .inr (hc ▸ memRead_writeBack_same (hc ▸ h))
    · rw [memRead_writeBack_other hk hc]
      refine hi.imp_left fun hm => ?_
      exact (List.mem_cons.mp hm).resolve_left (Ne.symm hc)

/-- From s to t memory holds ACCESS of every entry cached for stack k, and no other byte has changed. -/
def State.Flushed (s t : State) (k : Nat) : Prop :=
  s.MemBut t ((s.gh k).cache.map fun c => s.accessPlace k c.1) ∧
  ∀ i e, tabFind (s.gh k).cache i = some e → memRead t.mem (s.dirAddr (i * 8 + k) + 28) 4 = natLe 4 e.access

theorem flushed_dirFlush (hk : k < 8) (s : State) : s.Flushed (dirFlush k s) k :=
  ⟨memBut_writeBacks k _ s, fun _ _ h => memRead_writeBacks hk _ s h (.inl (mem_fst_of_tabFind h))⟩

theorem dirFlush_rest (k : Nat) (s : State) : dirFlush k s = { s with mem := (dirFlush k s).mem } := writeBacks_rest ..

/-! ### Invalidation (R164) -/

theorem dirInvalDone_none (h : (s.gh k).inval = none) : dirInvalDone k s = s := by rw [dirInvalDone, h]

theorem dirInvalDone_some {m : Nat} (h : (s.gh k).inval = some m) :
    dirInvalDone k s = (dirFlush k (s.advance m)).modGh k fun g => { g with cache := [], inval := none } := by
  rw [dirInvalDone, h]

/-- The end of an invalidation: a flush, an empty cache, and time at its end. -/
theorem dirInvalDone_leaves {m : Nat} (hk : k < 8) (h : (s.gh k).inval = some m) :
    let t := dirInvalDone k s
    s.Flushed t k ∧ t = { s with mem := t.mem, ghs := t.ghs, now := max s.now m } ∧
    t.gh k = { s.gh k with cache := [], inval := none } ∧ ∀ j, j ≠ k → t.gh j = s.gh j := by
  intro t
  have ht : t = _ := dirInvalDone_some h
  have hrest := dirFlush_rest k (s.advance m)
  rw [ht]
  refine ⟨flushed_dirFlush hk (s.advance m), ?_, ?_, fun j hj => ?_⟩
  · rw [hrest]; rfl
  · rw [State.gh_modGh_same, hrest]; rfl
  · rw [State.gh_modGh_other _ _ hj, hrest]; rfl

end

/-! ### The base and the heap bounds (R163, R218) -/

section
variable {s : State} {k v : Nat} {x : Reg} {r : Requester}

theorem dirBaseWrite_on (h : s.bit (.ghDirCtl k) F.ghDirCtlEn = true) :
    dirBaseWrite k x v s = s.conflict (srcOf 2 k 0) (regAddr x) v := if_pos h
theorem dirBaseWrite_off (h : ¬ s.bit (.ghDirCtl k) F.ghDirCtlEn = true) : dirBaseWrite k x v s = s.plainWrite x v := if_neg h

/-- A heap bound is refused for a directory that is on, or to a requester that is no control core. -/
theorem heapBoundWrite_refused (h : s.bit (.ghDirCtl k) F.ghDirCtlEn = true ∨ Requester.isCc r = false) :
    heapBoundWrite r k x v s = s.conflict (srcOf 2 k 0) (regAddr x) v := by
  unfold heapBoundWrite
  split
  · next hr => exact dirBaseWrite_on (h.resolve_right (by simp [hr]))
  · rfl

theorem heapBoundWrite_off (h : ¬ (s.bit (.ghDirCtl k) F.ghDirCtlEn = true ∨ Requester.isCc r = false)) :
    heapBoundWrite r k x v s = s.plainWrite x v := by
  obtain ⟨hen, hr⟩ := not_or.mp h
  rw [heapBoundWrite, if_pos (Bool.not_eq_false _ ▸ hr), dirBaseWrite_off hen]

/-- A register written by the access codes of its fields, one of them RW. -/
theorem plainWrite_rw (s : State) (v : Nat) {f : FldSpec} (hf : f ∈ regFields x) (hrw : f.acc = .rw) :
    s.OnlyRegs (s.plainWrite x v) [x] ∧ (s.plainWrite x v).fld x f.fld = f.fld.of v :=
  ⟨onlyRegs_plainWrite (onlyRegs_refl s _) (by simp), (s.fld_plainWrite x v hf).trans (Acc.after_rw hrw ..)⟩

end

/-- Settles O10: a flush writes each cached ACCESS to its own place, an invalidation ends with a flush, and the base and
the heap bounds are plain registers while the directory is off. -/
theorem directoryFlushInvalidateAndBounds : Obligations.DirectoryFlushInvalidateAndBounds := by
  intro s k hd place flushed
  have hgh : ∀ (f : Gh → Gh) j, j ≠ k.val → (s.modGh k f).gh j = s.gh j := fun f _ hj => s.gh_modGh_other f hj
  refine ⟨⟨_, answers_run hd rfl, flushed_dirFlush k.isLt s, dirFlush_rest k s⟩,
    ⟨_, answers_run hd rfl, rfl, s.gh_modGh_same .., hgh _⟩, fun h => ?_, fun m hm => ?_, fun r v => ?_, fun r v => ?_⟩
  · have hans : Answers (.ghDirInvalDone k) s (dirInvalDone k s) := answers_run hd rfl
    rwa [dirInvalDone_none h] at hans
  · obtain ⟨hflush, hrest, hown, hothers⟩ := dirInvalDone_leaves k.isLt hm
    exact ⟨_, answers_run hd rfl, hflush, hrest, hown, hothers⟩
  · have hans : Answers (.ghDirBaseWrite r k v) s (dirBaseWrite k (.ghDirBase k) v.toNat s) := answers_run hd rfl
    split
    · next hen => rwa [dirBaseWrite_on hen] at hans
    · next hen =>
      rw [dirBaseWrite_off hen] at hans
      exact ⟨_, hans, plainWrite_rw (f := ⟨F.ghDirBaseBase, .rw, 0x7ff⟩) s v.toNat (List.mem_singleton_self _) rfl⟩
  · have hbase : Answers (.ghHeapWrite r k false v) s (heapBoundWrite r k (.ghHeapBase k) v.toNat s) := answers_run hd rfl
    have hlim : Answers (.ghHeapWrite r k true v) s (heapBoundWrite r k (.ghHeapLim k) v.toNat s) := answers_run hd rfl
    split
    · next href =>
      rw [heapBoundWrite_refused href] at hbase hlim
      exact ⟨hbase, hlim⟩
    · next href =>
      rw [heapBoundWrite_off href] at hbase hlim
      exact ⟨⟨_, hbase, plainWrite_rw (f := ⟨F.ghHeapBaseOffset, .rw, 0⟩) s v.toNat (List.mem_singleton_self _) rfl⟩,
        _, hlim, plainWrite_rw (f := ⟨F.ghHeapLimOffset, .rw, 0⟩) s v.toNat (List.mem_singleton_self _) rfl⟩

end Sys2Proof.Machine
end

section
/-! PROOFS. A directory entry is looked up (R154): a cached entry counts a hit, a sound sector a miss, and what either
leaves of the state. -/

namespace Sys2Proof.Machine

/-! ### Counters -/

/-- A counter after it counts: it stays at all ones (R96). -/
theorem State.fld_bump_same (s : State) (r : Reg) {f : Fld} (h : f.fits) (j : Nat) :
    (s.bump r f j).fld r f = min (s.fld r f + j) f.top := by
  have htop : f.top < 2 ^ (f.hi - f.lo + 1) := Nat.sub_lt (Nat.two_pow_pos _) Nat.one_pos
  rw [State.bump, State.fld_setFld_same _ _ _ _ h, Nat.mod_eq_of_lt (lt_of_le_of_lt (min_le_right ..) htop)]

/-! ### What the directory reads of the state -/

section
variable {s u : State}

/-- No counter of lookups is a directory base. -/
theorem dirBase_of_regsBut {k : Nat} (h : s.RegsBut u [.ghDirStat k]) (j : Nat) : u.dirBase j = s.dirBase j :=
  congrArg (· * dirSize) (RegsBut.fld h _ (by simp [regAddr]; omega))

theorem inDir_congr (h : ∀ j, u.dirBase j = s.dirBase j) (a len : Nat) : u.inDir a len = s.inDir a len := by
  simp only [State.inDir, State.inDirLocal, h]

/-- A unit that reads as it stands: a stack sector with its true code or the poison signature, no row of its stack
under repair; elsewhere a unit whose parity holds (R200, R224, R477). -/
def State.Quiet (s : State) (a : Nat) : Prop :=
  (∀ j o, placeOf a = .stack j o → (s.gh j).repair = none ∧ tabGet 0 s.chk (canon a / 64) ∈ [0, poisonSig]) ∧
  ((∀ j o, placeOf a ≠ .stack j o) → a / 64 ∉ s.parity.units)

theorem bankWait_none {k : Nat} (h : (s.gh k).repair = none) (o : Nat) : s.bankWait k o = s := by rw [State.bankWait, h]

/-- A whole unit whose parity holds tells nothing as it is read. -/
theorem parityRange_unit {a : Nat} (ha : a % 64 = 0) (h : a / 64 ∉ s.parity.units) : s.parityRange a 64 = s := by
  have hnone : (s.parity.units.filter fun u => decide (a / 64 ≤ u ∧ u * 64 < a + 64)) = [] :=
    List.filter_eq_nil_iff.mpr fun u hu hin => by
      have hin := of_decide_eq_true hin
      exact h (show a / 64 = u by omega ▸ hu)
  rw [State.parityRange, hnone, List.foldl_nil]

theorem canon_of_not_stack {a : Nat} (h : ∀ j o, placeOf a ≠ .stack j o) : canon a = a :=
  canon_device (Nat.le_of_not_lt fun hlt => h _ _ (if_pos hlt))

theorem sense_stack {a j o : Nat} (hp : placeOf a = .stack j o) (hr : (s.gh j).repair = none)
    (hc : tabGet 0 s.chk (canon a / 64) ∈ [0, poisonSig]) :
    s.sense a = (⟨s.rd (a / 64 * 64) 64, tabGet 0 s.chk (canon a / 64) == poisonSig⟩, s) := by
  rw [State.sense, hp]
  dsimp only
  rw [bankWait_none hr]
  rcases List.mem_cons.mp hc with h0 | h1
  · rw [h0, if_pos rfl]
    rfl
  · rw [List.mem_singleton.mp h1, if_neg (by decide), if_pos rfl]
    rfl

theorem sense_not_stack {a : Nat} (ha : a % 64 = 0) (hp : ∀ j o, placeOf a ≠ .stack j o) (hu : a / 64 ∉ s.parity.units) :
    s.sense a = (⟨s.rd (a / 64 * 64) 64, s.poisoned a⟩, s) := by
  have hgood : s.badUnit a = false := by
    rw [State.badUnit, canon_of_not_stack hp]
    simpa using hu
  unfold State.sense
  split
  · next j o h => exact absurd h (hp j o)
  · simp only [parityRange_unit ha hu, hgood, Bool.false_eq_true, if_false]
  · rw [parityRange_unit ha hu]

/-- A quiet unit gives its bytes, and reading it changes nothing. -/
theorem sense_quiet {a : Nat} (ha : a % 64 = 0) (h : s.Quiet a) : ∃ p, s.sense a = (⟨s.rd (a / 64 * 64) 64, p⟩, s) := by
  by_cases hp : ∃ j o, placeOf a = .stack j o
  · obtain ⟨j, o, hp⟩ := hp
    obtain ⟨hr, hc⟩ := h.1 j o hp
    exact ⟨_, sense_stack hp hr hc⟩
  · have hp : ∀ j o, placeOf a ≠ .stack j o := fun j o hjo => hp ⟨j, o, hjo⟩
    exact ⟨_, sense_not_stack ha hp (h.2 hp)⟩

end

/-! ### What a lookup leaves -/

/-- From s to u a lookup was counted: registers of the counters of stack k and records of Glasshouses differ. -/
def State.Counted (s u : State) (k : Nat) : Prop :=
  s.RegsBut u [.ghDirStat k] ∧ u = { s with regs := u.regs, ghs := u.ghs }

/-- From s to u index i of stack k was looked up: it is counted in `stat`, and the cache holds entry e for it. -/
structure State.LookedUp (s u : State) (k i : Nat) (e : DirEnt) (stat : Fld) : Prop where
  counted : s.Counted u k
  stat : u.fld (.ghDirStat k) stat = min (s.fld (.ghDirStat k) stat + 1) stat.top
  others : ∀ j, j ≠ k → u.gh j = s.gh j
  own : u.gh k = { s.gh k with cache := (u.gh k).cache }
  entry : tabFind (u.gh k).cache i = some e
  entries : ∀ j, j ≠ i → tabFind (u.gh k).cache j = tabFind (s.gh k).cache j

section
variable {s u : State} {k i : Nat} {e : DirEnt} {stat : Fld}

theorem counted_refl (s : State) (k : Nat) : s.Counted s k := ⟨regsBut_refl s _, rfl⟩
theorem counted_bump (s : State) (k : Nat) (f : Fld) (j : Nat) : s.Counted (s.bump (.ghDirStat k) f j) k :=
  ⟨regsBut_setFld (regsBut_refl s _) (List.mem_singleton_self _), rfl⟩

theorem State.Counted.inDir (h : s.Counted u k) (a len : Nat) : u.inDir a len = s.inDir a len :=
  inDir_congr (dirBase_of_regsBut h.1) a len
theorem State.Counted.rd (h : s.Counted u k) (a len : Nat) : u.rd a len = s.rd a len := by rw [h.2]; rfl
theorem State.Counted.dirAddr (h : s.Counted u k) (n : Nat) : u.dirAddr n = s.dirAddr n := by
  simp only [State.dirAddr, dirBase_of_regsBut h.1]

/-- A lookup leaves what is under repair, check codes and parity. -/
theorem State.LookedUp.quiet (h : s.LookedUp u k i e stat) {a : Nat} (hq : s.Quiet a) : u.Quiet a := by
  have hrest := h.counted.2
  have hchk : u.chk = s.chk := by rw [hrest]
  have hpar : u.parity = s.parity := by rw [hrest]
  have hrep : ∀ j, (u.gh j).repair = (s.gh j).repair := fun j => by
    by_cases hj : j = k
    · rw [hj, h.own]
    · rw [h.others j hj]
  simpa only [State.Quiet, hchk, hpar, hrep] using hq

/-- A cached entry: a hit. -/
theorem lookedUp_bump (hfit : stat.fits) (h : tabFind (s.gh k).cache i = some e) :
    s.LookedUp (s.bump (.ghDirStat k) stat 1) k i e stat :=
  ⟨counted_bump s k stat 1, s.fld_bump_same _ hfit 1, fun _ _ => rfl, rfl, h, fun _ _ => rfl⟩

/-- An entry that takes its place in the cache. -/
theorem lookedUp_bump_cached (hfit : stat.fits) (e : DirEnt) : s.LookedUp ((s.bump (.ghDirStat k) stat 1).modGh k
    fun g => { g with cache := tabSet g.cache i e }) k i e stat where
  counted := ⟨(counted_bump s k stat 1).1, rfl⟩
  stat := s.fld_bump_same _ hfit 1
  others _ hj := State.gh_modGh_other _ _ hj
  own := by rw [State.gh_modGh_same]; rfl
  entry := by rw [State.gh_modGh_same]; exact tabFind_set_same ..
  entries j hj := by rw [State.gh_modGh_same]; exact tabFind_set_other _ _ hj

/-- ACCESS of the entry that was looked up counts (R152). -/
theorem lookedUp_dirCount {n : Nat} (h : s.LookedUp u (n % 8) (n / 8) e stat) :
    s.LookedUp (dirCount n e u) (n % 8) (n / 8) { e with access := min (e.access + 1) 0xFFFFFFFF } stat where
  counted := ⟨h.counted.1, by rw [h.counted.2]; rfl⟩
  stat := h.stat
  others j hj := (State.gh_modGh_other _ _ hj).trans (h.others j hj)
  own := by rw [dirCount, State.gh_modGh_same, h.own]
  entry := by rw [dirCount, State.gh_modGh_same]; exact tabFind_set_same ..
  entries j hj := by
    rw [dirCount, State.gh_modGh_same]
    exact (tabFind_set_other _ _ hj).trans (h.entries j hj)

end

/-! ### The lookup -/

section
variable {s : State} {n : Nat}

theorem dirLookup_cached {e : DirEnt} (hi : (s.gh (n % 8)).inval = none) (h : tabFind (s.gh (n % 8)).cache (n / 8) = some e) :
    dirLookup n s = (e, 0, s.bump (.ghDirStat (n % 8)) F.ghDirStatHits 1) := by
  rw [dirLookup, dirInvalDone_none hi, h]

/-- The state in which a miss is counted, as its entry is read from the directory. -/
abbrev State.missed (s : State) (n : Nat) : State := s.bump (.ghDirStat (n % 8)) F.ghDirStatMisses 1

theorem dirAddr_missed (s : State) (n : Nat) : (s.missed n).dirAddr n = s.dirAddr n :=
  (counted_bump s (n % 8) F.ghDirStatMisses 1).dirAddr n

theorem rd_missed (s : State) (n a len : Nat) : (s.missed n).rd a len = s.rd a len :=
  (counted_bump s (n % 8) F.ghDirStatMisses 1).rd a len

theorem dirStored_missed (s : State) (n : Nat) : (s.missed n).dirStored n = s.dirStored n := by
  simp only [State.dirStored, rd_missed, dirAddr_missed]
  rfl

/-- A sector that holds its true code is no poison, and no repair delays its read. -/
theorem sense_missed (hn : n < 2 ^ 24) (hr : (s.gh (n % 8)).repair = none)
    (hc : tabGet 0 s.chk (canon (s.dirAddr n) / 64) = 0) :
    (s.missed n).sense (s.dirAddr n) = (⟨s.rd (s.dirAddr n / 64 * 64) 64, false⟩, s.missed n) := by
  obtain ⟨o, ho⟩ := placeOf_dirAddr s hn
  have h := sense_stack (s := s.missed n) ho hr (by rw [State.bump_chk, hc]; exact List.mem_cons_self ..)
  rw [State.bump_chk, hc] at h
  exact h

/-- An entry that is not cached is read from its sector; with its CRC it enters the cache. -/
theorem dirLookup_missed {e : DirEnt} {crc : Nat} {bs : List Byte} (hi : (s.gh (n % 8)).inval = none)
    (hnone : tabFind (s.gh (n % 8)).cache (n / 8) = none)
    (hs : (s.missed n).sense (s.dirAddr n) = (⟨bs, false⟩, s.missed n)) (he : (s.missed n).dirStored n = (e, crc)) :
    dirLookup n s = if crc ≠ crc32 (s.rd (s.dirAddr n) 24) then (e, 0x02, s.missed n)
      else (e, 0, (dirEvict (n % 8) (n / 8) (s.missed n)).modGh (n % 8) fun g =>
        { g with cache := tabSet g.cache (n / 8) e }) := by
  rw [dirLookup, dirInvalDone_none hi, hnone]
  extract_lets m
  -- The kernel would evaluate the read of the sector to compare two forms of `m`, so `m` loses its value first.
  have hm : m = s.missed n := rfl
  clear_value m
  rw [hm, dirAddr_missed, hs]
  dsimp only
  rw [he, dirAddr_missed, rd_missed]
  exact if_neg Bool.false_ne_true

/-- A set with room evicts nothing. -/
theorem dirEvict_room {k i : Nat} (h : ((s.gh k).cache.filter fun c => cacheSet c.1 == cacheSet i).length < 16) :
    dirEvict k i s = s := by
  unfold dirEvict
  dsimp only
  split
  · rfl
  · exact if_pos (.inl h)

section
variable (hn : n < 2 ^ 24) (hi : (s.gh (n % 8)).inval = none) (hnone : tabFind (s.gh (n % 8)).cache (n / 8) = none)
  (hr : (s.gh (n % 8)).repair = none) (hc : tabGet 0 s.chk (canon (s.dirAddr n) / 64) = 0)
include hn hi hnone hr hc

/-- An entry whose CRC fails is not cached. -/
theorem dirLookup_unsound (h : (s.dirStored n).2 ≠ crc32 (s.rd (s.dirAddr n) 24)) :
    dirLookup n s = ((s.dirStored n).1, 0x02, s.missed n) :=
  (dirLookup_missed (e := (s.dirStored n).1) (crc := (s.dirStored n).2) hi hnone (sense_missed hn hr hc)
    (dirStored_missed s n)).trans (if_pos h)

/-- A sound entry takes its place in a set that has room. -/
theorem dirLookup_sound (h : (s.dirStored n).2 = crc32 (s.rd (s.dirAddr n) 24))
    (hroom : ((s.gh (n % 8)).cache.filter fun c => cacheSet c.1 == cacheSet (n / 8)).length < 16) :
    dirLookup n s = ((s.dirStored n).1, 0, (s.missed n).modGh (n % 8) fun g =>
      { g with cache := tabSet g.cache (n / 8) (s.dirStored n).1 }) := by
  rw [dirLookup_missed (e := (s.dirStored n).1) (crc := (s.dirStored n).2) hi hnone (sense_missed hn hr hc)
    (dirStored_missed s n), if_neg (not_not.mpr h), dirEvict_room (s := s.missed n) hroom]

end

end

end Sys2Proof.Machine
end

section
/-! PROOFS. HANDLE_RESOLVE (O9): the first check that an entry fails gives the cause, and what an answer and a failure
leave (R148, R151, R152, R153). -/

namespace Sys2Proof.Machine

/-! ### The checks of an entry (R153) -/

/-- A reserved code or a reserved bit of an entry (R149). -/
abbrev DirEnt.reserved (e : DirEnt) : Prop :=
  5 < e.fmt ∨ 6 < e.etype ∨ (bitsOf e.w0 50 40 ≠ 0 ∨ e.w1 % 2 ^ 36 ≠ 0 ∨ e.w2 % 2 ^ 16 ≠ 0)

/-- The cause that a resolution has found before it reads the tile's header: c is that of the lookup. -/
def State.earlyCause (s : State) (e : DirEnt) (c : Nat) : Nat :=
  let c := if c ≠ 0 then c else entFault e
  if c = 0 ∧ s.inDir e.da (e.len * 64) then 0x06 else c

section
variable {s : State} {e : DirEnt}

theorem entFault_invalid (h : e.valid = false) : entFault e = 0x01 := if_pos h
theorem entFault_reserved (hv : e.valid = true) (h : e.reserved) : entFault e = 0x05 := by
  rw [entFault, if_neg (by simp [hv]), if_pos h]
theorem entFault_range (hv : e.valid = true) (hr : ¬ e.reserved) (h : 0x020010000000 ≤ e.da) : entFault e = 0x03 := by
  rw [entFault, if_neg (by simp [hv]), if_neg hr, if_pos (show locOk e.da = false from decide_eq_false (Nat.not_lt.mpr h))]

theorem earlyCause_lookup {c : Nat} (h : c ≠ 0) : s.earlyCause e c = c := by
  simp only [State.earlyCause, if_pos h, h, false_and, if_false]
theorem earlyCause_entry {c : Nat} (h : entFault e = c) (hc : c ≠ 0) : s.earlyCause e 0 = c := by
  simp [State.earlyCause, h, hc]
theorem earlyCause_inDir (h : entFault e = 0) (hd : s.inDir e.da (e.len * 64) = true) : s.earlyCause e 0 = 0x06 := by
  simp [State.earlyCause, h, hd]
theorem earlyCause_none (h : entFault e = 0) (hd : s.inDir e.da (e.len * 64) = false) : s.earlyCause e 0 = 0 := by
  simp [State.earlyCause, h, hd]

end

/-- A tile header in bytes differs from the entry that names the tile (R153). -/
abbrev DirEnt.differs (e : DirEnt) (bs : List Byte) : Prop :=
  (hdrOf bs).format ≠ e.fmt ∨ (hdrOf bs).etype ≠ e.etype ∨ (hdrOf bs).len ≠ e.len

theorem not_differs_iff {e : DirEnt} {bs : List Byte} : ¬ e.differs bs ↔
    (hdrOf bs).format = e.fmt ∧ (hdrOf bs).etype = e.etype ∧ (hdrOf bs).len = e.len := by
  simp only [not_or, ne_eq, not_not]

/-! ### A resolution, by what its lookup answers -/

section
variable {s u : State} {n c : Nat} {w : Bool} {e : DirEnt}

theorem resolve_off (h : s.bit (.ghDirCtl (n % 8)) F.ghDirCtlEn = false) :
    resolve n w s = (⟨0, 0, 0, 0⟩, 0x07, dirFail n 0x07 s) := by
  rw [resolve, h]
  rfl

variable (hen : s.bit (.ghDirCtl (n % 8)) F.ghDirCtlEn = true)
include hen

theorem resolve_write_zero (hw : w = true) (hn : n = 0) : resolve n w s = (⟨0, 0, 0, 0⟩, 0x06, dirFail n 0x06 s) := by
  subst hw hn
  rw [resolve, hen]
  rfl

variable (hz : ¬ (w = true ∧ n = 0)) (hl : dirLookup n s = (e, c, u))
include hz hl

/-- A resolution after its lookup: x is the cause before the header is read, q what is read as the header, if any, and
y the cause in the end. -/
theorem resolve_of_lookup {x y : Nat} {q : UnitP × State} (hx : u.earlyCause e c = x)
    (hq : (if x = 0 ∧ w = false then u.sense e.da else (⟨[], false⟩, u)) = q)
    (hy : (if x = 0 ∧ w = false ∧ e.differs q.1.bs then 0x04 else x) = y) :
    resolve n w s = if y ≠ 0 then (e, y, dirFail n y q.2) else (e, 0, dirCount n e q.2) := by
  have hnz : (w && n == 0) = false := by
    rw [Bool.eq_false_iff]
    simpa using hz
  subst hx hq hy
  rw [resolve, hen, if_neg (by decide), hnz, if_neg (by decide), hl]
  rfl

/-- A cause found before the header is read. -/
theorem resolve_early {x : Nat} (hx : u.earlyCause e c = x) (h : x ≠ 0) : resolve n w s = (e, x, dirFail n x u) :=
  (resolve_of_lookup hen hz hl hx (if_neg fun hc => h hc.1) (if_neg fun hc => h hc.1)).trans (if_pos h)

variable (hx : u.earlyCause e c = 0)
include hx

/-- A write reads no header (R153). -/
theorem resolve_write (hw : w = true) : resolve n w s = (e, 0, dirCount n e u) := by
  have hread : w ≠ false := by simp [hw]
  exact resolve_of_lookup hen hz hl hx (if_neg fun hc => hread hc.2) (if_neg fun hc => hread hc.2.1)

/-- A read compares the header. -/
theorem resolve_read {bs : List Byte} {p : Bool} (hw : w = false) (hs : u.sense e.da = (⟨bs, p⟩, u)) :
    resolve n w s = if e.differs bs then (e, 0x04, dirFail n 0x04 u) else (e, 0, dirCount n e u) := by
  have outcome := fun y => resolve_of_lookup (y := y) hen hz hl hx ((if_pos ⟨rfl, hw⟩).trans hs)
  split
  · next h => exact outcome 0x04 (if_pos ⟨rfl, hw, h⟩)
  · next h => exact outcome 0 (if_neg fun hc => h hc.2.2)

end

/-! ### What a failure leaves (R153) -/

/-- GH_DIR_ERR notes a failed resolution. -/
def State.noteFailure (s : State) (n c : Nat) : State :=
  (s.setFld (.ghDirErr (n % 8)) F.ghDirErrHandle n).setFld (.ghDirErr (n % 8)) F.ghDirErrCause c

section
variable (s : State) {n c : Nat}

/-- A failure but that of a poisoned sector is noted and raises its event. -/
theorem dirFail_eq (n : Nat) (h : c ≠ 0x09) : dirFail n c s =
    (s.noteFailure n c).raise { src := srcOf 2 (n % 8) 0, code := ecTileDir, detail := [(32, 3, n), (35, 1, c)] } :=
  if_neg (by simpa using h)

theorem fld_handle_noteFailure (h : n < 2 ^ 24) (c : Nat) :
    (s.noteFailure n c).fld (.ghDirErr (n % 8)) F.ghDirErrHandle = n := by
  rw [State.noteFailure, State.fld_setFld_disjoint _ _ _ _ _ (by decide) (by decide) (by decide),
    State.fld_setFld_same _ _ _ _ (by decide)]
  exact Nat.mod_eq_of_lt h

theorem fld_cause_noteFailure (n : Nat) (h : c < 2 ^ 8) :
    (s.noteFailure n c).fld (.ghDirErr (n % 8)) F.ghDirErrCause = c := by
  rw [State.noteFailure, State.fld_setFld_same _ _ _ _ (by decide)]
  exact Nat.mod_eq_of_lt h

theorem regsBut_noteFailure (n c : Nat) : s.RegsBut (s.noteFailure n c) [.ghDirErr (n % 8)] :=
  regsBut_setFld (regsBut_setFld (regsBut_refl s _) (List.mem_singleton_self _)) (List.mem_singleton_self _)

/-- What the registers of a failed resolution hold, and what it leaves alone. -/
structure State.Failed (s t : State) (n c : Nat) : Prop where
  handle : t.fld (.ghDirErr (n % 8)) F.ghDirErrHandle = n
  cause : t.fld (.ghDirErr (n % 8)) F.ghDirErrCause = c
  seq : t.fld .errHead F.errHeadSeq = (s.fld .errHead F.errHeadSeq + 1) % 2 ^ 32
  regs : s.RegsButErr t [.ghDirErr (n % 8), .ghDirStat (n % 8)]
  rest : t = { s with regs := t.regs, ghs := t.ghs, msixSent := t.msixSent }

/-- A failure after a lookup that was counted, or with none. -/
theorem failed_dirFail {u : State} (hu : s.Counted u (n % 8)) (hn : n < 2 ^ 24) (hc : c < 0x09) :
    s.Failed (dirFail n c u) n c := by
  rw [dirFail_eq u n (Nat.ne_of_lt hc)]
  obtain ⟨hregs, hrest⟩ := hu
  have hnote := regsBut_noteFailure u n c
  have hclear : ¬ errAddr (regAddr (.ghDirErr (n % 8))) := by
    simp only [errAddr, regAddr]
    omega
  have hraise := errorRaised_raise (u.noteFailure n c)
    (e := { src := srcOf 2 (n % 8) 0, code := ecTileDir, detail := [(32, 3, n), (35, 1, c)] }) rfl
  obtain ⟨hseq, hbut, hsame⟩ := hraise
  refine ⟨?_, ?_, ?_, ?_, ?_⟩
  · rw [(errOnly_raise ..).fld _ hclear, fld_handle_noteFailure u hn]
  · rw [(errOnly_raise ..).fld _ hclear, fld_cause_noteFailure u n (by omega)]
  · rw [hseq, RegsBut.fld hnote _ (by simp [regAddr]; omega), RegsBut.fld hregs _ (by simp [regAddr]; omega)]
  · exact regsButErr_trans (regsButErr_of_regsBut (regsBut_trans (regsBut_mono hregs (by simp)) (regsBut_mono hnote (by simp))))
      (regsButErr_mono hbut (by simp))
  · rw [hsame, State.noteFailure, hrest]
    rfl

end

/-! ### What the command answers -/

section
variable {s u : State} {r : Requester} {h : BitVec 24} {w : Bool} {e : DirEnt} {c : Nat} {stat : Fld}

/-- HANDLE_RESOLVE answers the tile's location and whether the resolution failed. -/
theorem answers_resolve (hd : s.dead = false) (hr : resolve h.toNat w s = (e, c, u)) :
    Answers (.handleResolve r h w) s { u with reply := some ⟨e.da, b2n (c != 0)⟩ } := by
  have hexec : exec (.handleResolve r h w) s = execHandleResolve r h w s := rfl
  rw [Answers, hexec, execHandleResolve, run_live hd, hr]

/-- HANDLE_RESOLVE fails with a cause. -/
def State.ResolveFails (s : State) (r : Requester) (h : BitVec 24) (w : Bool) (c : Nat) : Prop :=
  ∃ t, Answers (.handleResolve r h w) s t ∧ (∃ y, t.reply = some y ∧ y.kind = 1) ∧
    t.fld (.ghDirErr (h.toNat % 8)) F.ghDirErrHandle = h.toNat ∧
    t.fld (.ghDirErr (h.toNat % 8)) F.ghDirErrCause = c ∧
    t.fld .errHead F.errHeadSeq = (s.fld .errHead F.errHeadSeq + 1) % 2 ^ 32 ∧
    s.RegsButErr t [.ghDirErr (h.toNat % 8), .ghDirStat (h.toNat % 8)] ∧
    t = { s with regs := t.regs, ghs := t.ghs, reply := t.reply, msixSent := t.msixSent }

/-- HANDLE_RESOLVE answers the location of entry e, whose lookup it counts in `stat`. -/
def State.ResolveAnswers (s : State) (r : Requester) (h : BitVec 24) (w : Bool) (e : DirEnt) (stat : Fld) : Prop :=
  ∃ t, Answers (.handleResolve r h w) s t ∧ t.reply = some ⟨e.da, 0⟩ ∧
    t.fld (.ghDirStat (h.toNat % 8)) stat = min (s.fld (.ghDirStat (h.toNat % 8)) stat + 1) stat.top ∧
    s.RegsBut t [.ghDirStat (h.toNat % 8)] ∧ t = { s with regs := t.regs, ghs := t.ghs, reply := t.reply } ∧
    (∀ j, j ≠ h.toNat % 8 → t.gh j = s.gh j) ∧
    t.gh (h.toNat % 8) = { s.gh (h.toNat % 8) with cache := (t.gh (h.toNat % 8)).cache } ∧
    tabFind (t.gh (h.toNat % 8)).cache (h.toNat / 8) = some { e with access := min (e.access + 1) 0xFFFFFFFF } ∧
    ∀ j, j ≠ h.toNat / 8 → tabFind (t.gh (h.toNat % 8)).cache j = tabFind (s.gh (h.toNat % 8)).cache j

variable (hd : s.dead = false)
include hd

theorem resolveFails_of_dirFail (hr : resolve h.toNat w s = (e, c, dirFail h.toNat c u))
    (hu : s.Counted u (h.toNat % 8)) (h0 : c ≠ 0) (h9 : c < 0x09) : s.ResolveFails r h w c := by
  obtain ⟨hhandle, hcause, hseq, hregs, hrest⟩ := failed_dirFail s hu h.isLt h9
  refine ⟨_, answers_resolve hd hr, ⟨_, rfl, ?_⟩, hhandle, hcause, hseq, hregs, ?_⟩
  · simp [b2n, h0]
  · rw [hrest]

theorem resolveAnswers_of_dirCount (hr : resolve h.toNat w s = (e, 0, dirCount h.toNat e u))
    (hu : s.LookedUp u (h.toNat % 8) (h.toNat / 8) e stat) : s.ResolveAnswers r h w e stat := by
  obtain ⟨⟨hregs, hrest⟩, hstat, hothers, hown, hentry, hentries⟩ := lookedUp_dirCount hu
  exact ⟨_, answers_resolve hd hr, rfl, hstat, hregs, by rw [hrest], hothers, hown, hentry, hentries⟩

variable (hen : s.bit (.ghDirCtl (h.toNat % 8)) F.ghDirCtlEn = true) (hz : ¬ (w = true ∧ h.toNat = 0))
include hen hz

/-- A lookup that answers an entry which fails a check. -/
theorem resolveFails_early {x : Nat} (hl : dirLookup h.toNat s = (e, c, u)) (hu : s.Counted u (h.toNat % 8))
    (hx : u.earlyCause e c = x) (h0 : x ≠ 0) (h9 : x < 0x09) : s.ResolveFails r h w x :=
  resolveFails_of_dirFail hd (resolve_early hen hz hl hx h0) hu h0 h9

variable (hl : dirLookup h.toNat s = (e, 0, u)) (hu : s.LookedUp u (h.toNat % 8) (h.toNat / 8) e stat)
  (hf : entFault e = 0) (hin : s.inDir e.da (e.len * 64) = false)
include hl hu hf hin

omit hd in
/-- The header of a quiet tile as a resolution reads it. -/
theorem resolve_header (hw : w = false) (hq : s.Quiet e.da) : resolve h.toNat w s =
    if e.differs (s.rd (e.da / 64 * 64) 64) then (e, 0x04, dirFail h.toNat 0x04 u) else (e, 0, dirCount h.toNat e u) := by
  obtain ⟨p, hs⟩ := sense_quiet (Nat.mul_mod_left ..) (hu.quiet hq)
  rw [hu.counted.rd] at hs
  exact resolve_read hen hz hl (earlyCause_none hf ((hu.counted.inDir ..).trans hin)) hw hs

theorem resolveFails_header (hw : w = false) (hq : s.Quiet e.da) (ha : e.differs (s.rd (e.da / 64 * 64) 64)) :
    s.ResolveFails r h w 0x04 :=
  resolveFails_of_dirFail hd ((resolve_header hen hz hl hu hf hin hw hq).trans (if_pos ha)) hu.counted (by decide)
    (by decide)

theorem resolveAnswers_of_checks (ha : w = false → s.Quiet e.da ∧ ¬ e.differs (s.rd (e.da / 64 * 64) 64)) :
    s.ResolveAnswers r h w e stat := by
  refine resolveAnswers_of_dirCount hd ?_ hu
  cases w with
  | true => exact resolve_write hen hz hl (earlyCause_none hf ((hu.counted.inDir ..).trans hin)) rfl
  | false =>
    obtain ⟨hq, ha⟩ := ha rfl
    exact (resolve_header hen hz hl hu hf hin rfl hq).trans (if_neg ha)

end

/-- Settles O9: what the lookup answers decides the outcome, and each outcome leaves its own registers. -/
theorem handleResolutionOutcomes : Obligations.HandleResolutionOutcomes := by
  intro s r h w hd k i en fails quiet header after
  have hquiet : ∀ a, quiet a → s.Quiet a := by
    intro a hq
    constructor
    · intro j o hp
      simpa only [quiet, hp] using hq
    · intro hp hmem
      dsimp only [quiet] at hq
      split at hq
      · next j o hjo => exact hp j o hjo
      · exact hq hmem
  have hdiffers : ∀ e : DirEnt, ¬ header e → e.differs (s.rd (e.da / 64 * 64) 64) := fun e hno =>
    not_not.mp fun h => hno (not_differs_iff.mp h)
  have hzero : h = 0 ↔ h.toNat = 0 := by
    rw [← BitVec.toNat_inj]
    rfl
  refine ⟨fun hoff => ?_, fun hen hw h0 => ?_, fun hen hz hi => ⟨fun e he => ?_, fun hnone hr hc => ?_⟩⟩
  · exact resolveFails_of_dirFail hd (resolve_off hoff) (counted_refl s k) (by decide) (by decide)
  · exact resolveFails_of_dirFail hd (resolve_write_zero hen hw (hzero.mp h0)) (counted_refl s k) (by decide) (by decide)
  · rw [hzero] at hz
    have hl := dirLookup_cached hi he
    have hu := lookedUp_bump (stat := F.ghDirStatHits) (by decide) he
    have entry : ∀ {c}, entFault e = c → c ≠ 0 → c < 0x09 → fails c := fun hc h0 h9 =>
      resolveFails_early hd hen hz hl hu.counted (earlyCause_entry hc h0) h0 h9
    refine ⟨fun hv => entry (entFault_invalid hv) (by decide) (by decide),
      fun hv hres => entry (entFault_reserved hv hres) (by decide) (by decide),
      fun hv hres hda => entry (entFault_range hv hres hda) (by decide) (by decide), fun hf hin => ?_, fun hf hin => ⟨?_, ?_⟩⟩
    · exact resolveFails_early hd hen hz hl hu.counted (earlyCause_inDir hf ((hu.counted.inDir ..).trans hin)) (by decide)
        (by decide)
    · exact fun hw hq ha => resolveFails_header hd hen hz hl hu hf hin hw (hquiet _ hq) (hdiffers e ha)
    · exact fun ha => resolveAnswers_of_checks hd hen hz hl hu hf hin fun hw => (ha hw).imp (hquiet _) not_differs_iff.mpr
  · intro hstack e sound
    rw [hzero] at hz
    refine ⟨fun hbad => ?_, fun hsound hroom hf hin ha => ?_⟩
    · exact resolveFails_early hd hen hz (dirLookup_unsound h.isLt hi hnone hr hc hbad) (counted_bump ..)
        (earlyCause_lookup (by decide)) (by decide) (by decide)
    · exact resolveAnswers_of_checks hd hen hz (dirLookup_sound h.isLt hi hnone hr hc hsound hroom)
        (lookedUp_bump_cached (by decide) e) hf hin fun hw => (ha hw).imp (hquiet _) not_differs_iff.mpr

end Sys2Proof.Machine
end

section
/-! PROOFS. Tensor commands (O41): the start of a command and its decode into a job, the claims of its units, and the
dispatch and re-run of the tasks that the units become. -/

namespace Sys2Proof.Machine

/-! ### A command starts (R344, R347, R354) -/

section
variable {s : State} {q ts op : Nat} {c : WcsCmd} {ok : WcsCmd → Bool} {f : WcsCmd → State → State}

theorem startNext_none (h : s.nextCmd q = none) : startNext q ok f s = s := by rw [startNext, h]

theorem startNext_other (h : s.nextCmd q = some c) (hok : ok c = false) : startNext q ok f s = s := by
  rw [startNext, h]
  exact if_neg (by simp [hok])

theorem startNext_next (h : s.nextCmd q = some c) (hok : ok c = true) :
    startNext q ok f s = f c (markStarted q c.id (wake s)) := by
  rw [startNext, h]
  exact if_pos hok

/-- No command starts on a turnstile that serves a job. -/
theorem tensorStart_idle (h : s.nextCmd q = none ∨ s.tsBusy ts = true) : tensorStart op q ts s = s := by
  cases hc : s.nextCmd q with
  | none => exact startNext_none hc
  | some c => exact startNext_other hc (by simp [h.resolve_left (by simp [hc])])

theorem tensorStart_other (h : s.nextCmd q = some c) (hop : c.op ≠ op) : tensorStart op q ts s = s :=
  startNext_other h (by simp [hop])

theorem tensorStart_failed {e : Fail} {v : State} (h : s.nextCmd q = some c) (hop : c.op = op) (hfree : s.tsBusy ts = false)
    (hdec : ((jobDecode q ts c).run).run (markStarted q c.id (wake s)) = (.error e, v)) :
    tensorStart op q ts s = failWith q c.id e v := by
  rw [tensorStart, startNext_next h (by simp [hop, hfree]), hdec]

theorem tensorStart_decoded {j : Job} {v : State} (h : s.nextCmd q = some c) (hop : c.op = op) (hfree : s.tsBusy ts = false)
    (hdec : ((jobDecode q ts c).run).run (markStarted q c.id (wake s)) = (.ok j, v)) :
    tensorStart op q ts s = jobStart q c j v := by
  rw [tensorStart, startNext_next h (by simp [hop, hfree]), hdec]

variable {cmd : Instr}

/-- Each tensor command starts the command of its opcode. -/
theorem exec_tensor {q : QpId} {ts : Fin 1024} (h : (cmd, op) ∈ [(Instr.gemm q ts, 0x01), (.spgemm q ts, 0x02),
    (.attention q ts, 0x03), (.ffnPredicted q ts, 0x04), (.embeddingBag q ts, 0x05), (.elementwise q ts, 0x06),
    (.reduce q ts, 0x07), (.quantize q ts, 0x08), (.wcsCopy q ts, 0x11)]) (s : State) :
    exec cmd s = run (tensorStart op q ts) s := by
  simp only [List.mem_cons, List.not_mem_nil, or_false] at h
  obtain h | h | h | h | h | h | h | h | h := h <;> cases h <;> rfl

end

/-! ### A decoded command becomes a job (R353, R354, R359) -/

section
variable {w : State} {q : Nat} {c : WcsCmd} {j : Job}

/-- A decoded command has its slots bound and its plan record written. -/
def State.jobBound (v : State) (q : Nat) (c : WcsCmd) (j : Job) : State :=
  let b := v.modCmd q c.id fun c => { c with slots := boundSlots (j.descs.map descOf) j.epi }
  if c.trace then b.putUnits (c.w 7) [⟨j.record b, false⟩] else b

/-- `t` is `w` with one job more, its turnstile set to the job's units. -/
structure State.JobAdded (w t : State) (j : Job) : Prop where
  next : t.hif.nextJob = w.hif.nextJob + 1
  value : t.fld (.tsCnt j.ts) F.tsCntValue = 0
  limit : t.fld (.tsCnt j.ts) F.tsCntLimit = j.units % 2 ^ 32
  regs : w.RegsBut t [.tsCnt j.ts]
  others : ∀ k, k ≠ w.hif.nextJob → tabFind t.hif.jobs k = tabFind w.hif.jobs k
  own : ∃ i, tabFind t.hif.jobs w.hif.nextJob = some { j with ins := i } ∧ (j.recomp = false → i = j.ins)
  rest : t = { w with regs := t.regs, hif := { w.hif with jobs := t.hif.jobs, nextJob := t.hif.nextJob } }

theorem jobStart_empty (v : State) (h : j.units = 0) : jobStart q c j v = finishCmd q c.id (v.jobBound q c j) := if_pos h

/-- The turnstile of a job, bound to as many units. -/
def State.bindTurnstile (w : State) (ts units : Nat) : State :=
  (w.setFld (.tsCnt ts) F.tsCntValue 0).setFld (.tsCnt ts) F.tsCntLimit units

/-- One job more, under the next number. -/
def State.addJob (w : State) (j : Job) : State :=
  { w with hif := { w.hif with jobs := tabSet w.hif.jobs w.hif.nextJob j, nextJob := w.hif.nextJob + 1 } }

theorem jobStart_units (v : State) (h : j.units ≠ 0) : jobStart q c j v =
    let u := (v.jobBound q c j).bindTurnstile j.ts j.units
    u.addJob (if j.recomp then { j with ins := inputsOf u c j } else j) := if_neg h

/-- Only a command that writes a recomputable tensor keeps the versions of its inputs. -/
theorem jobAdded_addJob (i : List (Nat × Nat)) :
    w.JobAdded ((w.bindTurnstile j.ts j.units).addJob (if j.recomp then { j with ins := i } else j)) j where
  next := rfl
  value := (State.fld_setFld_disjoint _ _ F.tsCntLimit F.tsCntValue _ (by decide) (by decide) (by decide)).trans
    (State.fld_setFld_same _ _ F.tsCntValue _ (by decide))
  limit := State.fld_setFld_same _ _ F.tsCntLimit _ (by decide)
  regs := regsBut_setFld (regsBut_setFld (regsBut_refl w _) (by simp)) (by simp)
  others := fun _ hk => tabFind_set_other _ _ hk
  own := by
    refine ⟨if j.recomp then i else j.ins, (tabFind_set_same ..).trans ?_, fun h => by simp [h]⟩
    cases j.recomp <;> rfl
  rest := rfl

theorem jobAdded_jobStart (v : State) (h : j.units ≠ 0) : (v.jobBound q c j).JobAdded (jobStart q c j v) j := by
  rw [jobStart_units v h]
  exact jobAdded_addJob _

end

/-! ### Claims (R354) -/

section
variable {s u : State} {n k : Nat} {j : Job}

/-- `t` is `u` with the units `us` of job k, which read `j`, as tasks of core n, and the job now `j2`. -/
structure State.TasksAdded (u t : State) (n : CoreId) (k : Nat) (j j2 : Job) (us : List Nat) : Prop where
  job : tabFind t.hif.jobs k = some j2
  own : tabGet [] t.hif.tasks n = tabGet [] u.hif.tasks n ++
    us.map (fun i => ⟨k, i, !(j.op == 4 && i == 1), j.cls i, u.now⟩)
  others : ∀ m : CoreId, m ≠ n → tabGet [] t.hif.tasks m = tabGet [] u.hif.tasks m
  rest : t = { u with hif := { u.hif with jobs := t.hif.jobs, tasks := t.hif.tasks } }

theorem tasksAdded_addTasks (u : State) (n : CoreId) (k : Nat) (j j2 : Job) (us : List Nat) :
    u.TasksAdded (addTasks n k j us (u.setJob k j2)) n k j j2 us where
  job := tabFind_set_same ..
  own := tabGet_set_same ..
  others := fun _ hm => tabGet_set_other _ _ _ (Fin.val_ne_of_ne hm)
  rest := rfl

/-- No job of that number, or a core out of service: no claim. -/
theorem tileUnitClaim_idle (h : tabFind s.hif.jobs k = none ∨ s.fld (.coreMap n) F.coreMapState ≠ 0) :
    tileUnitClaim n k s = s := by
  rw [tileUnitClaim]
  cases hj : tabFind s.hif.jobs k with
  | none => rfl
  | some j => exact if_pos (h.resolve_left (by simp [hj]))

variable (hj : tabFind s.hif.jobs k = some j) (hin : s.fld (.coreMap n) F.coreMapState = 0)
include hj hin

/-- The retry list comes before the turnstile. -/
theorem tileUnitClaim_retry {i : Nat} {r : List Nat} (h : j.retry = i :: r) :
    tileUnitClaim n k s = addTasks n k j [i] (s.setJob k { j with retry := r }) := by
  simp only [tileUnitClaim, hj, hin, h, ne_eq, not_true_eq_false, if_false]

variable (hr : j.retry = [])
include hr

theorem tileUnitClaim_spent (h : n ∈ j.spent) : tileUnitClaim n k s = s := by
  simp only [tileUnitClaim, hj, hin, hr, ne_eq, not_true_eq_false, if_false, List.contains_iff_mem.mpr h, if_true]

/-- A core that the turnstile has not exhausted takes a TURN. -/
theorem tileUnitClaim_turn {v : Word} (h : n ∉ j.spent) (ht : turn j.ts (claimAmount j n) s.tsSettle = (u, v)) :
    tileUnitClaim n k s = if v = exhausted then u.setJob k { j with spent := j.spent ++ [n] }
      else addTasks n k j ((List.range (min (claimAmount j n) (j.units - v.toNat))).map (v.toNat + ·))
        (u.setJob k { j with last := tabSet j.last n v.toNat }) := by
  simp only [tileUnitClaim, hj, hin, hr, ht, ne_eq, not_true_eq_false, if_false, List.contains_iff_mem, h]

end

/-! ### The task that a core runs next (R367, R406) -/

section
variable {s : State} {n : Nat} {x : Task}

/-- The oldest of some tasks is one of them. -/
theorem mem_of_oldest {l : List Task} (h : oldest l = some x) : x ∈ l := by
  suffices hany : ∀ y ∈ oldest l, y ∈ l from hany x h
  refine List.foldlRecOn (motive := fun a : Option Task => ∀ y ∈ a, y ∈ l) l _ (by simp) fun a ha t ht y hy => ?_
  cases a with
  | none => exact Option.mem_some.mp hy ▸ ht
  | some b =>
    dsimp only at hy
    split at hy
    · exact Option.mem_some.mp hy ▸ ht
    · exact ha y hy

/-- Every choice of R367 is among the tasks whose micro-batch may run. -/
theorem mayRun_of_pick (h : s.pick n = some x) : s.mayRun x = true := by
  suffices hmem : x ∈ (tabGet [] s.hif.tasks n).filter s.mayRun from (List.mem_filter.mp hmem).2
  simp only [State.pick, Option.or_eq_some_iff] at h
  obtain (h | ⟨-, h⟩) | ⟨-, h⟩ := h
  · exact List.mem_of_mem_filter (mem_of_oldest h)
  · exact List.mem_of_mem_filter (List.mem_of_mem_filter (mem_of_oldest h))
  · exact List.mem_of_mem_filter (mem_of_oldest h)

theorem microRuns_of_pick {j : Job} (h : s.pick n = some x) (hj : tabFind s.hif.jobs x.job = some j) :
    microRuns s j.q = true := by
  have hmay := mayRun_of_pick h
  rwa [State.mayRun, hj, Option.all_some] at hmay

end

/-! ### A unit runs (R354) -/

section
variable {s v : State} {k : Nat} {j : Job} {act : Job → Act Job}

theorem runUnit_none (h : tabFind s.hif.jobs k = none) : runUnit k act s = s := by rw [runUnit, h]

theorem runUnit_ok {j2 : Job} (h : tabFind s.hif.jobs k = some j) (ha : ((act j).run).run s = (.ok j2, v)) :
    runUnit k act s = unitDone k j2 v := by simp only [runUnit, h, ha]

theorem runUnit_error {f : Fail} (h : tabFind s.hif.jobs k = some j) (ha : ((act j).run).run s = (.error f, v)) :
    runUnit k act s = dropJob k (failWith j.q j.cmd f v) := by simp only [runUnit, h, ha]

end

/-! ### Dispatch (R194, R366, R367) -/

section
variable {s : State} {n : Nat} {x : Task}

/-- The task works on the arrays, and every array of its core is fenced. -/
def State.fencedOff (s : State) (n : Nat) (x : Task) : Prop := s.onArrays x = true ∧ ∀ m < 4, s.fenced n m = true

/-- The task leaves its core's list; the audits that it passes are counted. -/
def State.dispatched (s : State) (n : Nat) (x : Task) : State :=
  let u := dropTask n x s
  let audits := (tabGet [] u.hif.tasks n).filter fun y => !y.prio
  if x.prio ∧ s.onArrays x then u.bump (.picStat n) F.picStatDeferred audits.length else u

/-- A dispatch leaves the jobs. -/
theorem jobs_dispatched (s : State) (n : Nat) (x : Task) : (s.dispatched n x).hif.jobs = s.hif.jobs := by
  rw [State.dispatched]
  split <;> rfl

theorem taskDispatch_none (h : s.pick n = none) : taskDispatch n s = s := by simp only [taskDispatch, h, ite_self]

theorem taskDispatch_out (h : s.fld (.coreMap n) F.coreMapState ≠ 0) : taskDispatch n s = s := if_pos h

variable (hx : s.pick n = some x)
include hx

/-- A task of a core in service returns its unit or runs it. -/
theorem taskDispatch_next (hin : s.fld (.coreMap n) F.coreMapState = 0) : taskDispatch n s =
    if (s.onArrays x && (List.range 4).all (s.fenced n)) = true then retryTask n x s
    else runUnit x.job (fun j => unitRun n none j x.unit) (s.dispatched n x) := by
  have harrays : (dropTask n x s).onArrays x = s.onArrays x := rfl
  simp only [taskDispatch, hin, hx, harrays, State.doIf, State.dispatched, Bool.and_eq_true, ne_eq, not_true_eq_false, if_false]

theorem taskDispatch_fenced (hin : s.fld (.coreMap n) F.coreMapState = 0) (h : s.fencedOff n x) :
    taskDispatch n s = retryTask n x s := by
  obtain ⟨harrays, hall⟩ := h
  exact (taskDispatch_next hx hin).trans (if_pos (by simpa [harrays] using hall))

theorem taskDispatch_runs (hin : s.fld (.coreMap n) F.coreMapState = 0) (h : ¬ s.fencedOff n x) :
    taskDispatch n s = runUnit x.job (fun j => unitRun n none j x.unit) (s.dispatched n x) :=
  (taskDispatch_next hx hin).trans (if_neg (by simpa [State.fencedOff] using h))

end

/-! ### Re-runs (R478) -/

section
variable {s : State} {n : Nat} {x : Task}

theorem tileRerun_none (b : Bool) (h : s.pick n = none) : tileRerun n b s = s := by rw [tileRerun, h]

/-- The record of a unit whose re-runs failed: core memory, two re-runs. -/
def rerunErr (n : Nat) : Err := { src := srcOf 1 n 8, code := ecDetectSram, fw := true, detail := [(32, 1, 1), (33, 1, 2)] }

/-- The command of a job takes the poison of a unit whose re-runs failed. -/
def State.tainted (s : State) (n : Nat) (j : Job) : State :=
  (countDetections n 3 s).modCmd j.q j.cmd fun c => { c with
    taint := true, poison := true, info := if c.info = 0 then ecDetectSram + 256 * (rerunErr n).word else c.info }

variable (hx : s.pick n = some x)
include hx

theorem tileRerun_repaired : tileRerun n true s = countDetections n 1 (retryTask n x s) := by
  simp only [tileRerun, hx, if_true]

theorem tileRerun_jobless (h : tabFind s.hif.jobs x.job = none) : tileRerun n false s = s := by
  simp only [tileRerun, hx, h, Bool.false_eq_true, if_false]

theorem tileRerun_failed {j : Job} (h : tabFind s.hif.jobs x.job = some j) : tileRerun n false s =
    (runUnit x.job (fun j => unitTainted n j x.unit) (((dropTask n x s).raise (rerunErr n)).tainted n j)).modCmd j.q j.cmd
      fun c => { c with taint := false } := by
  simp only [tileRerun, hx, h, Bool.false_eq_true, if_false]
  rfl

end

/-! ### What the commands answer -/

section
variable {s : State} {n : CoreId} (hd : s.dead = false)
include hd

theorem answers_tileUnitClaim {t : State} {k : Nat} (h : tileUnitClaim n k s = t) : Answers (.tileUnitClaim n k) s t :=
  h ▸ answers_run hd rfl

theorem answers_taskDispatch {t : State} (h : taskDispatch n s = t) : Answers (.taskDispatch n) s t :=
  h ▸ answers_run hd rfl

theorem answers_tileRerun {t : State} {b : Bool} (h : tileRerun n b s = t) : Answers (.tileRerun n b) s t :=
  h ▸ answers_run hd rfl

/-- A claim that leaves more tasks on the core. -/
theorem answers_claimed {u : State} {k : Nat} {j j2 : Job} {us : List Nat}
    (h : tileUnitClaim n k s = addTasks n k j us (u.setJob k j2)) :
    ∃ t, Answers (.tileUnitClaim n k) s t ∧ u.TasksAdded t n k j j2 us :=
  ⟨_, answers_tileUnitClaim hd h, tasksAdded_addTasks ..⟩

end

/-- Settles O41: a tensor command starts, fails or becomes a job by its decode, and each claim, dispatch and re-run is
one case of its meaning. -/
theorem tensorCommandsAreDistributed : Obligations.TensorCommandsAreDistributed := by
  intro s hd
  refine ⟨fun q ts cmd op hop => ?_, fun n k => ⟨fun h => answers_tileUnitClaim hd (tileUnitClaim_idle h), fun j hj hin => ?_⟩,
    fun n => ⟨fun h => ⟨answers_taskDispatch hd (taskDispatch_none h), fun b => answers_tileRerun hd (tileRerun_none b h)⟩,
      fun h => answers_taskDispatch hd (taskDispatch_out h), fun x hx => ?_⟩⟩
  · have hans : ∀ t, tensorStart op q ts s = t → Answers cmd s t := fun t h => h ▸ answers_run hd (exec_tensor hop s)
    refine ⟨fun h => hans s (tensorStart_idle h), fun c hc h => hans s (tensorStart_other hc h), fun c hc hcop hfree => ?_⟩
    refine ⟨fun f v hf => hans _ (tensorStart_failed hc hcop hfree hf), fun j v hok => ?_⟩
    have hstart : tensorStart op q ts s = jobStart q c j v := tensorStart_decoded hc hcop hfree hok
    refine ⟨fun h0 => hans _ (hstart.trans (jobStart_empty v h0)), fun h0 => ?_⟩
    obtain ⟨hnum, hvalue, hlimit, hregs, hothers, hown, hrest⟩ := jobAdded_jobStart (q := q) (c := c) v h0
    exact ⟨_, hans _ hstart, hnum, hvalue, hlimit, hregs, hothers, hown, hrest⟩
  · intro adds
    have hadds : ∀ {u : State} {us : List Nat} {j2 : Job},
        tileUnitClaim n k s = addTasks n k j us (u.setJob k j2) → adds u us j2 := by
      intro u us j2 h
      obtain ⟨t, ht, hjob, hown, hothers, hrest⟩ := answers_claimed hd h
      exact ⟨t, ht, hjob, hown, hothers, hrest⟩
    refine ⟨fun i r hr => hadds (tileUnitClaim_retry hj hin hr),
      fun hr hs => answers_tileUnitClaim hd (tileUnitClaim_spent hj hin hr hs), fun hr hs => ?_⟩
    intro a
    cases ht : turn j.ts a s.tsSettle with
    | mk u v =>
      have hturn := tileUnitClaim_turn hj hin hr hs ht
      exact ⟨fun hv => answers_tileUnitClaim hd (hturn.trans (if_pos hv)), fun hv => hadds (hturn.trans (if_neg hv))⟩
  · refine ⟨fun j hj => microRuns_of_pick hx hj, fun hin => ⟨fun hf => answers_taskDispatch hd (taskDispatch_fenced hx hin hf),
      fun hf hj => ?_, fun j hf hj => ?_⟩, answers_tileRerun hd (tileRerun_repaired hx),
      fun hj => answers_tileRerun hd (tileRerun_jobless hx hj), fun j hj => ?_⟩
    · rw [← jobs_dispatched s n x] at hj
      exact answers_taskDispatch hd ((taskDispatch_runs hx hin hf).trans (runUnit_none hj))
    · rw [← jobs_dispatched s n x] at hj
      exact ⟨fun j2 v hok => answers_taskDispatch hd ((taskDispatch_runs hx hin hf).trans (runUnit_ok hj hok)),
        fun f v hfail => answers_taskDispatch hd ((taskDispatch_runs hx hin hf).trans (runUnit_error hj hfail))⟩
    · exact ⟨_, (rerunErr n).word, errorRaised_raise _ rfl, answers_tileRerun hd (tileRerun_failed hx hj)⟩

end Sys2Proof.Machine
end

section
/-! PROOFS. One element of ACCUM and one key of MERGE (O15): two's complement words of 32 bits and their integers, and
the exact result clamped once. -/

namespace Sys2Proof.Machine

/-! ### INT32 words and their integers -/

theorem sx32_range (n : Nat) : -2 ^ 31 ≤ sx 32 n ∧ sx 32 n ≤ 2 ^ 31 - 1 := by
  simp only [sx]
  split <;> omega

theorem sx32_ux {i : Int} (hlo : -2 ^ 31 ≤ i) (hhi : i ≤ 2 ^ 31 - 1) : sx 32 (ux 32 i) = i := by
  have hm : (i % (2 ^ 32 : Nat)).toNat % 2 ^ 32 = (i % 2 ^ 32).toNat := by omega
  simp only [sx, ux, hm]
  split <;> omega

theorem satI32_eq (i : Int) : satI32 i = max (-2 ^ 31) (min (2 ^ 31 - 1) i) := rfl

/-- A clamped value is held whole by its word. -/
theorem sx32_ux_satI32 (i : Int) : sx 32 (ux 32 (satI32 i)) = satI32 i :=
  sx32_ux (by rw [satI32_eq]; omega) (by rw [satI32_eq]; omega)

/-- Clamping leaves a value of the INT32 range alone. -/
theorem satI32_of_range {i : Int} (hlo : -2 ^ 31 ≤ i) (hhi : i ≤ 2 ^ 31 - 1) : satI32 i = i := by
  rw [satI32_eq]; omega

/-- The flag of a clamp is set exactly when it changed the value. -/
theorem satI32_flag (i : Int) : (satI32 i != i) = true ↔ i ≠ satI32 i := by
  rw [bne_iff_ne, ne_comm]

/-! ### One element, one key -/

/-- The exact result of ACCUM's function on two integers (R215). -/
def accExact (func : Nat) (d c : Int) : Int := if func = 0 then d + c else if func = 1 then max d c else min d c

theorem accElem_int32 (func c d : Nat) : accElem func etInt32 false c d =
    (ux 32 (satI32 (accExact func (sx 32 d) (sx 32 c))),
      satI32 (accExact func (sx 32 d) (sx 32 c)) != accExact func (sx 32 d) (sx 32 c), false) := by
  simp [accElem, accExact]

/-- The larger and the smaller of two INT32 values need no clamp. -/
theorem satI32_accExact {func : Nat} (h : func ≠ 0) (d c : Nat) :
    satI32 (accExact func (sx 32 d) (sx 32 c)) = accExact func (sx 32 d) (sx 32 c) := by
  have hd := sx32_range d
  have hc := sx32_range c
  refine satI32_of_range ?_ ?_ <;> simp only [accExact, if_neg h] <;> split <;> omega

theorem combine_int32 (v : Nat) (vs : List Nat) : combine etInt32 (v :: vs) =
    (ux 32 (satI32 ((v :: vs).map (sx 32)).sum), satI32 ((v :: vs).map (sx 32)).sum != ((v :: vs).map (sx 32)).sum) := by
  have hsum : vs.foldl (fun a w => a + sx 32 w) (sx 32 v) = ((v :: vs).map (sx 32)).sum := by
    rw [List.sum_eq_foldl, List.map_cons, List.foldl_cons, Int.zero_add, List.foldl_map]
  simp only [combine, if_true, hsum]

/-- Settles O15: the exact result is clamped once, and the word of a clamped value reads as that value. -/
theorem accumulationOfOneElement : Obligations.AccumulationOfOneElement := by
  refine ⟨fun func c d _ _ _ => ?_, fun func c d _ => ?_, fun func c d _ => ?_, fun v vs _ _ => ?_⟩
  · refine ⟨_, _, accElem_int32 func c d, ux_lt .., sx32_ux_satI32 _, satI32_flag _, fun h => ?_⟩
    rw [satI32_accExact h, bne_self_eq_false]
  · simp [accElem, etFp32, etInt32, etBf16]
  · simp [accElem, etInt32, etBf16]
  · exact ⟨_, _, combine_int32 v vs, sx32_ux_satI32 _, satI32_flag _⟩

end Sys2Proof.Machine
end

section
/-! PROOFS. The queues of a Glasshouse (R204-R206, R222): what a change of one queue leaves of the others, and what a
push, a reset, the release of a fence and the end of a command do to theirs. -/

namespace Sys2Proof.Machine

/-- From s to t only the record of Glasshouse k has changed, and of its queues at most q. -/
def State.QueueOnly (s t : State) (k q : Nat) : Prop :=
  t = { s with ghs := t.ghs } ∧ (∀ j, j ≠ k → t.gh j = s.gh j) ∧ ∀ p, p ≠ q → (t.gh k).q p = (s.gh k).q p

section
variable {s t u : State} {k q : Nat}

/-! ### Records -/

theorem gh_of_ghs_eq (h : t.ghs = s.ghs) (j : Nat) : t.gh j = s.gh j := by rw [State.gh, h, State.gh]

theorem gh_bump (r : Reg) (f : Fld) (v j : Nat) : (s.bump r f v).gh j = s.gh j := gh_of_ghs_eq (State.bump_ghs ..) j
theorem gh_setFld (r : Reg) (f : Fld) (v j : Nat) : (s.setFld r f v).gh j = s.gh j := gh_of_ghs_eq (State.setFld_ghs ..) j

/-! ### One queue changes -/

theorem State.queue_setGhQ_same (s : State) (k q : Nat) (cs : List GhCmd) : ((s.setGhQ k q cs).gh k).q q = cs := by
  rw [State.setGhQ, State.gh_modGh_same]
  exact tabGet_set_same ..

theorem queueOnly_setGhQ (s : State) (k q : Nat) (cs : List GhCmd) : s.QueueOnly (s.setGhQ k q cs) k q := by
  refine ⟨rfl, fun j hj => s.gh_modGh_other _ hj, fun p hp => ?_⟩
  rw [State.setGhQ, State.gh_modGh_same]
  exact tabGet_set_other _ _ _ hp

/-- A change of the record that keeps its queues. -/
theorem queueOnly_modGh {f : Gh → Gh} (h : (f (s.gh k)).queues = (s.gh k).queues) : s.QueueOnly (s.modGh k f) k q := by
  refine ⟨rfl, fun j hj => s.gh_modGh_other _ hj, fun p _ => ?_⟩
  rw [State.gh_modGh_same, Gh.q, h, Gh.q]

theorem queueOnly_refl (s : State) (k q : Nat) : s.QueueOnly s k q := ⟨rfl, fun _ _ => rfl, fun _ _ => rfl⟩

theorem queueOnly_trans (h : s.QueueOnly t k q) (h' : t.QueueOnly u k q) : s.QueueOnly u k q := by
  obtain ⟨hrest, hghs, hqs⟩ := h
  obtain ⟨hrest', hghs', hqs'⟩ := h'
  refine ⟨?_, fun j hj => (hghs' j hj).trans (hghs j hj), fun p hp => (hqs' p hp).trans (hqs p hp)⟩
  rw [hrest', hrest]

/-- The end of a turn takes the credit and nothing else (R206). -/
theorem turnEnds_cases (k : Nat) (s : State) : turnEnds k s = s ∨ turnEnds k s = s.modGh k fun g => { g with credit := 0 } := by
  unfold turnEnds
  dsimp only
  split
  · exact .inr rfl
  · exact .inl rfl

theorem turnEnds_keeps (k : Nat) (s : State) :
    ((turnEnds k s).gh k).queues = (s.gh k).queues ∧ ((turnEnds k s).gh k).waiting = (s.gh k).waiting := by
  rcases turnEnds_cases k s with h | h <;> rw [h]
  · exact ⟨rfl, rfl⟩
  · rw [State.gh_modGh_same]
    exact ⟨rfl, rfl⟩

theorem queueOnly_turnEnds (s : State) (k q : Nat) : s.QueueOnly (turnEnds k s) k q := by
  rcases turnEnds_cases k s with h | h <;> rw [h]
  · exact queueOnly_refl s k q
  · exact queueOnly_modGh rfl

/-! ### Pushes (R205) -/

section
variable {r : Requester} {ws : List Word}

theorem ghAccept_eq (hws : ws.length = 8) (s : State) : ghAccept k q ws s =
    (s.modGh k fun g => { g with seq := g.seq + 1 }).setGhQ k q
      ((s.gh k).q q ++ [{ ws := ws, seq := (s.gh k).seq, arr := s.now }]) := by
  have hwords : ((List.range 8).map fun i => ws.getD i 0) = ws := by
    refine List.ext_getElem (by simp [hws]) fun i hi _ => ?_
    have : i < ws.length := by simpa [hws] using hi
    simp [this]
  simp only [ghAccept, hwords]

/-- A command of eight words joins its queue, with the next sequence number. -/
theorem ghAccept_leaves (hws : ws.length = 8) (s : State) : let t := ghAccept k q ws s
    s.QueueOnly t k q ∧ (t.gh k).q q = (s.gh k).q q ++ [{ ws := ws, seq := (s.gh k).seq, arr := s.now }] ∧
    (t.gh k).seq = (s.gh k).seq + 1 := by
  rw [ghAccept_eq hws]
  refine ⟨queueOnly_trans (queueOnly_modGh rfl) (queueOnly_setGhQ ..), State.queue_setGhQ_same .., ?_⟩
  rw [State.setGhQ, State.gh_modGh_same, State.gh_modGh_same]

theorem ghPush_refused (h : Requester.queue r ≠ some q) : ghPush r k q ws s =
    s.raise { src := srcOf 2 k 0, code := ecDescFormat, detail := [(32, 8, (ws.getD 0 0).toNat)] } := if_pos h

theorem ghPush_room (h : Requester.queue r = some q) (hroom : ((s.gh k).q q).length < 256) :
    ghPush r k q ws s = ghAccept k q ws s := by
  rw [ghPush, if_neg (not_not_intro h), if_neg (by omega), ghPushFabric, if_neg (by omega)]

theorem ghPush_host_full (h : Requester.queue .host = some q) (hfull : 256 ≤ ((s.gh k).q q).length) : ghPush .host k q ws s =
    (s.setFld (.ghCmdqStat k q) F.ghCmdqStatOverflow 1).raise
      { src := srcOf 2 k 0, code := ecDescRange, detail := [(32, 8, (ws.getD 0 0).toNat)] } := by
  rw [ghPush, if_neg (not_not_intro h), if_pos ⟨rfl, hfull⟩]

theorem ghPush_fabric_full (h : Requester.queue r = some q) (hr : r ≠ .host) (hfull : 256 ≤ ((s.gh k).q q).length) :
    ghPush r k q ws s = s.modGh k fun g => { g with waiting := g.waiting ++ [⟨q, none, ws⟩] } := by
  rw [ghPush, if_neg (not_not_intro h), if_neg fun hf => hr hf.1, ghPushFabric, if_pos hfull]

/-- The host's push to a full queue sets OVERFLOW and raises one event. -/
theorem ghPush_host_full_leaves (hk : k < 8) (h : Requester.queue .host = some q) (hfull : 256 ≤ ((s.gh k).q q).length) :
    let t := ghPush .host k q ws s
    t.ghs = s.ghs ∧ t.bit (.ghCmdqStat k q) F.ghCmdqStatOverflow = true ∧ s.RegsButErr t [.ghCmdqStat k q] ∧
    t.fld .errHead F.errHeadSeq = (s.fld .errHead F.errHeadSeq + 1) % 2 ^ 32 ∧ t.mem = s.mem := by
  intro t
  obtain rfl : q = 12 := by simpa [Requester.queue] using h.symm
  have ht : t = _ := ghPush_host_full h hfull
  have herr := errOnly_raise (s.setFld (.ghCmdqStat k 12) F.ghCmdqStatOverflow 1)
    { src := srcOf 2 k 0, code := ecDescRange, detail := [(32, 8, (ws.getD 0 0).toNat)] }
  rw [← ht] at herr
  have haddr : ¬ errAddr (regAddr (.ghCmdqStat k 12)) := by simp only [errAddr, regAddr]; omega
  refine ⟨by rw [herr.1]; rfl, ?_, ?_, ?_, by rw [herr.1]; rfl⟩
  · rw [State.bit, herr.fld _ haddr, State.fld_setFld_same _ _ _ _ (by decide)]
    rfl
  · exact regsButErr_trans (regsButErr_of_regsBut (regsBut_setFld (regsBut_refl s _) (by simp))) (regsButErr_of_errOnly herr)
  · rw [ht, raise_seq _ (by rfl), State.fld_setFld_other _ _ _ _ (by simp only [regAddr]; omega)]

end

/-! ### Resets and fences (R206, R222) -/

theorem fenceWaits_iff {c : GhCmd} : fenceWaits k q c s = true ↔
    ∃ p < 16, p ≠ q ∧ bitAt (cw c.ws 1) p = true ∧ ∃ x ∈ (s.gh k).q p, x.seq < c.seq := by
  simp only [fenceWaits, List.any_eq_true, List.mem_range, Bool.and_eq_true, bne_iff_ne, decide_eq_true_eq]
  exact exists_congr fun p => and_congr_right fun _ => by rw [and_assoc, and_left_comm]

section
variable {c : GhCmd} {rest : List GhCmd}

theorem ghFenceRelease_waits (hq : (s.gh k).q q = c :: rest) (hw : fenceWaits k q c s = true) : ghFenceRelease k q s = s := by
  simp [ghFenceRelease, hq, hw]

theorem ghFenceRelease_ends (hq : (s.gh k).q q = c :: rest) (hstart : c.start.isSome = true) (hdone : c.done = none)
    (hop : cOpcode c.ws = 9) (hw : fenceWaits k q c s = false) :
    ghFenceRelease k q s = (turnEnds k s).setGhQ k q ({ c with done := some (fenceDone s.now) } :: rest) := by
  have hstart' : c.start ≠ none := Option.isSome_iff_ne_none.mp hstart
  simp [ghFenceRelease, hq, hstart', hdone, hop, hw]

/-! ### The end of a command (R206, R210) -/

theorem ghComplete_none (h : (s.gh k).q q = []) : ghComplete k q s = s := by rw [ghComplete, h]
theorem ghComplete_running (h : (s.gh k).q q = c :: rest) (hdone : c.done = none) : ghComplete k q s = s := by
  simp only [ghComplete, h, hdone]
theorem ghComplete_done {d : GhDone} (h : (s.gh k).q q = c :: rest) (hdone : c.done = some d) :
    ghComplete k q s = ghFinish k q c d (s.advance d.ready) := by
  simp only [ghComplete, h, hdone]

theorem ghDrainWaiting_none (h : (s.gh k).waiting = []) : ghDrainWaiting k s = s := by rw [ghDrainWaiting, h]; rfl

theorem ghAction_none {d : GhDone} (h : cCmpl c.ws = 0) : ghAction k c.ws d s = s := by
  rw [ghAction, h]
  rfl

theorem copyLost_none {d : GhDone} {ws : List Word} (h : ¬ (q = 14 ∧ 3 ≤ d.status)) : copyLost k q ws d s = s := if_neg h

/-- A head without switches, accumulations, completion action or failed copy leaves, counted, and nobody waits for
its entry. -/
theorem ghFinish_plain {d : GhDone} (hsw : c.switches = []) (hacc : c.accum = []) (hact : cCmpl c.ws = 0)
    (hcopy : ¬ (q = 14 ∧ 3 ≤ d.status)) (hwait : (s.gh k).waiting = []) : ghFinish k q c d s =
      ((turnEnds k s).bump (.ghCmdqStat k q) F.ghCmdqStatCompleted 1).setGhQ k q
        (((s.gh k).q q).filter fun x => x.seq != c.seq) := by
  obtain ⟨hqs, hws⟩ := turnEnds_keeps k s
  have hq : ((turnEnds k s).gh k).q q = (s.gh k).q q := by rw [Gh.q, hqs, Gh.q]
  have hfold : (turnEnds k s).doIf (decide (d.status < 3)) (fun s => [].foldl (fun s h => bumpVersion h s) s) = turnEnds k s := by
    unfold State.doIf
    split <;> rfl
  rw [ghFinish, hsw, hacc, List.foldl_nil, hfold, ghAction_none hact, copyLost_none hcopy]
  refine (ghDrainWaiting_none ?_).trans (congrArg _ (congrArg _ hq))
  rw [State.setGhQ, State.gh_modGh_same]
  exact hws.trans hwait

/-- What such an end leaves: the queue without the command, and COMPLETED one more. -/
theorem ghFinish_plain_leaves {d : GhDone} (hsw : c.switches = []) (hacc : c.accum = []) (hact : cCmpl c.ws = 0)
    (hcopy : ¬ (q = 14 ∧ 3 ≤ d.status)) (hwait : (s.gh k).waiting = []) : let t := ghFinish k q c d s
    (∀ j, j ≠ k → t.gh j = s.gh j) ∧ (∀ p, p ≠ q → (t.gh k).q p = (s.gh k).q p) ∧
    (t.gh k).q q = ((s.gh k).q q).filter (fun x => x.seq != c.seq) ∧
    t.fld (.ghCmdqStat k q) F.ghCmdqStatCompleted =
      min (s.fld (.ghCmdqStat k q) F.ghCmdqStatCompleted + 1) F.ghCmdqStatCompleted.top ∧
    s.RegsBut t [.ghCmdqStat k q] ∧ t = { s with ghs := t.ghs, regs := t.regs } := by
  intro t
  have ht : t = _ := ghFinish_plain hsw hacc hact hcopy hwait
  obtain ⟨hrest, hghs, hqs⟩ := queueOnly_turnEnds s k q
  have hregs : (turnEnds k s).regs = s.regs := by rw [hrest]
  obtain ⟨-, hghs', hqs'⟩ := queueOnly_setGhQ ((turnEnds k s).bump (.ghCmdqStat k q) F.ghCmdqStatCompleted 1) k q
    (((s.gh k).q q).filter fun x => x.seq != c.seq)
  rw [ht]
  refine ⟨fun j hj => (hghs' j hj).trans (hghs j hj), fun p hp => (hqs' p hp).trans (hqs p hp), State.queue_setGhQ_same ..,
    ?_, ?_, ?_⟩
  · exact (State.fld_bump_same _ _ (by decide) 1).trans (by rw [fld_of_regs_eq hregs])
  · exact regsBut_setWord (regsBut_of_regs_eq hregs) (by simp)
  · rw [hrest]; rfl

end

end

end Sys2Proof.Machine
end

section
/-! PROOFS. The gradient ACCUMs of micro-batches (R405, R410): one that waits joins those held for its micro-batch, one
whose turn has come is pushed at once. -/

namespace Sys2Proof.Machine

section
variable {s u : State} {i j k q : Nat} {m : Micro} {ws : List Word}

/-! ### One micro-batch changes -/

theorem micro_modMicro (s : State) (i : Nat) (f : Micro → Micro) (b : Nat) :
    (s.modMicro i f).net.micro[b]? = s.net.micro[b]?.map fun m => if b = i then f m else m := by
  simp only [State.modMicro, List.getElem?_map, List.getElem?_zipIdx, Option.map_map]
  congr 1
  funext m
  simp

theorem micro_modMicro_same (f : Micro → Micro) (h : s.net.micro[i]? = some m) :
    (s.modMicro i f).net.micro[i]? = some (f m) := by
  rw [micro_modMicro, h, Option.map_some, if_pos rfl]

theorem micro_modMicro_other (f : Micro → Micro) (h : j ≠ i) : (s.modMicro i f).net.micro[j]? = s.net.micro[j]? := by
  simp [micro_modMicro, h]

theorem length_modMicro (s : State) (i : Nat) (f : Micro → Micro) : (s.modMicro i f).net.micro.length = s.net.micro.length := by
  simp [State.modMicro]

theorem modMicro_rest (s : State) (i : Nat) (f : Micro → Micro) :
    s.modMicro i f = { s with net := { s.net with micro := (s.modMicro i f).net.micro } } := rfl

/-- A change that leaves the micro-batch as it is leaves the state. -/
theorem modMicro_eq_self {f : Micro → Micro} (h : s.net.micro[i]? = some m) (hf : f m = m) : s.modMicro i f = s := by
  have hmicro : (s.modMicro i f).net.micro = s.net.micro := by
    refine List.ext_getElem? fun b => ?_
    by_cases hb : b = i
    · rw [hb, micro_modMicro_same f h, hf, h]
    · exact micro_modMicro_other f hb
  rw [modMicro_rest, hmicro]

/-! ### The micro-batch whose turn it is -/

/-- The turn is at micro-batch j: it has yet to issue, and every earlier one has. -/
def State.microTurn (s : State) (j : Nat) (m : Micro) : Prop :=
  s.net.micro[j]? = some m ∧ m.issued = false ∧ ∀ b < j, ∀ y, s.net.micro[b]? = some y → y.issued = true

theorem findIdx_of_microTurn (h : s.microTurn j m) : s.net.micro.findIdx? (fun m => !m.issued) = some j := by
  obtain ⟨hj, hopen, hearlier⟩ := h
  obtain ⟨hlt, hm⟩ := List.getElem?_eq_some_iff.mp hj
  refine List.findIdx?_eq_some_iff_getElem.mpr ⟨hlt, by simp [hm, hopen], fun b hb => ?_⟩
  simp [hearlier b hb _ (List.getElem?_eq_getElem (hb.trans hlt))]

/-- A micro-batch changes that is not the one whose turn it is. -/
theorem microTurn_modMicro_other {f : Micro → Micro} (h : s.microTurn j m) (hi : j < i) : (s.modMicro i f).microTurn j m := by
  obtain ⟨hj, hopen, hearlier⟩ := h
  refine ⟨(micro_modMicro_other f (by omega)).trans hj, hopen, fun b hb y hy => hearlier b hb y ?_⟩
  rwa [micro_modMicro_other f (by omega)] at hy

/-- The one whose turn it is changes, and has still to issue. -/
theorem microTurn_modMicro_same {f : Micro → Micro} (h : s.microTurn j m) (hf : (f m).issued = false) :
    (s.modMicro j f).microTurn j (f m) := by
  obtain ⟨hj, -, hearlier⟩ := h
  refine ⟨micro_modMicro_same f hj, hf, fun b hb y hy => hearlier b hb y ?_⟩
  rwa [micro_modMicro_other f (by omega)] at hy

theorem microGo_held (h : s.microTurn j m) (hclear : microClear s m = false) : microGo s = s := by
  rw [microGo, microFlush, findIdx_of_microTurn h]
  simp only [h.1, hclear, Bool.false_eq_true, if_false]

/-- The gradients held for a micro-batch are issued. -/
def Micro.issue (m : Micro) : Micro := { m with held := [], issued := m.closed }

/-- The commands held for a micro-batch are pushed. -/
def State.pushHeld (s : State) (m : Micro) : State := m.held.foldl (fun s a => ghPush a.r a.k a.q a.ws s) s

theorem microGo_issues (h : s.microTurn j m) (hclear : microClear s m = true) : microGo s = if m.closed then
    microFlush s.net.micro.length ((s.pushHeld m).modMicro j Micro.issue) else (s.pushHeld m).modMicro j Micro.issue := by
  rw [microGo, microFlush, findIdx_of_microTurn h]
  simp only [h.1, hclear, if_true]
  rfl

/-- Once every micro-batch has issued, none has a turn. -/
theorem microFlush_done (h : ∀ (b : Nat) (y : Micro), s.net.micro[b]? = some y → y.issued = true) (n : Nat) :
    microFlush n s = s := by
  have hnone : s.net.micro.findIdx? (fun m => !m.issued) = none :=
    List.findIdx?_eq_none_iff.mpr fun y hy => by
      obtain ⟨b, hb⟩ := List.mem_iff_getElem?.mp hy
      simp [h b y hb]
  cases n with
  | zero => rfl
  | succ n => rw [microFlush, hnone]

theorem Micro.issue_idle (hheld : m.held = []) (hclosed : m.closed = false) (hopen : m.issued = false) : m.issue = m := by
  cases m
  simp_all [Micro.issue]

/-- A turn with nothing held, its last gradient yet to come, changes nothing. -/
theorem microGo_idle (h : s.microTurn j m) (hheld : m.held = []) (hclosed : m.closed = false) : microGo s = s := by
  cases hclear : microClear s m with
  | false => exact microGo_held h hclear
  | true =>
    have hpush : s.pushHeld m = s := by rw [State.pushHeld, hheld, List.foldl_nil]
    rw [microGo_issues h hclear, if_neg (by simp [hclosed]), hpush]
    exact modMicro_eq_self h.1 (Micro.issue_idle hheld hclosed h.2.1)

/-! ### Pushes -/

theorem microPush_plain {r : Requester} {g : Option Gradient}
    (h : ∀ i x, r = .cc i → g = some x → s.net.micro.length ≤ x.micro) : microPush r k q ws g s = ghPush r k q ws s := by
  cases r with
  | cc i =>
    cases g with
    | none => rfl
    | some x => exact if_neg (Nat.not_lt.mpr (h i x rfl rfl))
  | _ => rfl

/-- A gradient joins those held for its micro-batch. -/
def Micro.hold (a : HeldPush) (last : Bool) (m : Micro) : Micro := { m with held := m.held ++ [a], closed := last }

theorem microPush_gradient {c : Fin 4} {x : Gradient} (h : x.micro < s.net.micro.length) :
    microPush (.cc c) k q ws (some x) s = microGo (s.modMicro x.micro (Micro.hold ⟨.cc c, k, q, ws⟩ x.last)) := if_pos h

/-- A gradient of a later micro-batch waits with it. -/
theorem microPush_waits {c : Fin 4} {x : Gradient} (h : s.microTurn j m) (hj : j < x.micro) (hx : x.micro < s.net.micro.length)
    (hm : microClear s m = false ∨ m.held = [] ∧ m.closed = false) :
    microPush (.cc c) k q ws (some x) s = s.modMicro x.micro (Micro.hold ⟨.cc c, k, q, ws⟩ x.last) := by
  rw [microPush_gradient hx]
  have hturn := microTurn_modMicro_other (f := Micro.hold ⟨.cc c, k, q, ws⟩ x.last) h hj
  rcases hm with hclear | ⟨hheld, hclosed⟩
  · exact microGo_held hturn hclear
  · exact microGo_idle hturn hheld hclosed

/-- The first gradient of the micro-batch whose turn it is, its gathers done, is pushed at once. -/
theorem microPush_issues {c : Fin 4} {x : Gradient} (h : s.microTurn x.micro m)
    (hlast : x.last = false ∨ x.micro + 1 = s.net.micro.length) (hclear : microClear s m = true) (hheld : m.held = [])
    (hqueue : Requester.queue (.cc c) = some q) (hroom : ((s.gh k).q q).length < 256) :
    microPush (.cc c) k q ws (some x) s = (ghAccept k q ws
      (s.modMicro x.micro (Micro.hold ⟨.cc c, k, q, ws⟩ x.last))).modMicro x.micro Micro.issue := by
  have hlt := (List.getElem?_eq_some_iff.mp h.1).1
  have hturn := microTurn_modMicro_same (f := Micro.hold ⟨.cc c, k, q, ws⟩ x.last) h h.2.1
  have hpush : (s.modMicro x.micro (Micro.hold ⟨.cc c, k, q, ws⟩ x.last)).pushHeld (m.hold ⟨.cc c, k, q, ws⟩ x.last) =
      ghAccept k q ws (s.modMicro x.micro (Micro.hold ⟨.cc c, k, q, ws⟩ x.last)) := by
    rw [State.pushHeld, Micro.hold, hheld]
    exact ghPush_room hqueue hroom
  rw [microPush_gradient hlt, microGo_issues hturn hclear, hpush]
  have hlength : (ghAccept k q ws (s.modMicro x.micro (Micro.hold ⟨.cc c, k, q, ws⟩ x.last))).net.micro.length =
    s.net.micro.length := length_modMicro ..
  have hturn' : (ghAccept k q ws (s.modMicro x.micro (Micro.hold ⟨.cc c, k, q, ws⟩ x.last))).microTurn x.micro _ := hturn
  generalize ghAccept k q ws _ = u at hlength hturn'
  split
  · next hclosed =>
    refine microFlush_done (fun b y hy => ?_) _
    rcases lt_trichotomy b x.micro with hb | rfl | hb
    · rw [micro_modMicro_other _ (by omega)] at hy
      exact hturn'.2.2 b hb y hy
    · rw [micro_modMicro_same _ hturn'.1] at hy
      exact Option.some.inj hy ▸ hclosed
    · have hend : x.micro + 1 = s.net.micro.length := hlast.resolve_left (by simpa [Micro.hold] using hclosed)
      have hb' := (List.getElem?_eq_some_iff.mp hy).1
      rw [length_modMicro, hlength] at hb'
      omega
  · rfl

/-- What it leaves: the command in its queue, and of the micro-batch what remains to come. -/
theorem microPush_issues_leaves {c : Fin 4} {x : Gradient} (h : s.microTurn x.micro m)
    (hlast : x.last = false ∨ x.micro + 1 = s.net.micro.length) (hclear : microClear s m = true) (hheld : m.held = [])
    (hqueue : Requester.queue (.cc c) = some q) (hroom : ((s.gh k).q q).length < 256) (hws : ws.length = 8) :
    let t := microPush (.cc c) k q ws (some x) s
    t = { s with ghs := t.ghs, net := { s.net with micro := t.net.micro } } ∧ (∀ j, j ≠ k → t.gh j = s.gh j) ∧
    (∀ p, p ≠ q → (t.gh k).q p = (s.gh k).q p) ∧
    (t.gh k).q q = (s.gh k).q q ++ [{ ws := ws, seq := (s.gh k).seq, arr := s.now }] ∧
    (∀ b, b ≠ x.micro → t.net.micro[b]? = s.net.micro[b]?) ∧
    t.net.micro[x.micro]? = some { m with closed := x.last, issued := x.last } := by
  rw [microPush_issues h hlast hclear hheld hqueue hroom]
  obtain ⟨⟨hrest, hghs, hqs⟩, hq, -⟩ := ghAccept_leaves (k := k) (q := q) hws
    (s.modMicro x.micro (Micro.hold ⟨.cc c, k, q, ws⟩ x.last))
  generalize ghAccept k q ws _ = u at hrest hghs hqs hq
  have hnet : u.net = (s.modMicro x.micro (Micro.hold ⟨.cc c, k, q, ws⟩ x.last)).net := by rw [hrest]
  refine ⟨?_, hghs, hqs, hq, fun b hb => ?_, ?_⟩
  · rw [modMicro_rest, hrest]
    rfl
  · rw [micro_modMicro_other _ hb, hnet, micro_modMicro_other _ hb]
  · rw [micro_modMicro_same _ (hnet ▸ micro_modMicro_same _ h.1), Micro.issue, Micro.hold, hheld]

end

/-- Without a PIN in progress no copy is waited for. -/
theorem pinSweep_none {s : State} (h : s.hif.pins = []) : pinSweep s = s := by rw [pinSweep, h]; rfl

/-- Settles O12: a push is refused, counted as an overflow, kept waiting or accepted by its requester and the room; a
gradient is held or issued by its turn; a reset, a fence's release and an end change their queue. -/
theorem glasshouseQueuePushResetAndCompletion : Obligations.GlasshouseQueuePushResetAndCompletion := by
  intro s k q hd held same plain
  have hpush : ∀ (r : Requester) (ws : List Word) (g : Option Gradient),
      Answers (.ghCmdqPush r k q ⟨ws, g⟩) s (microPush r k q ws g s) := fun _ _ _ => answers_run hd rfl
  have hplain : ∀ {r : Requester} {ws : List Word} {g : Option Gradient} {t : State}, plain r g → ghPush r k q ws s = t →
      Answers (.ghCmdqPush r k q ⟨ws, g⟩) s t := fun hp ht => ht ▸ microPush_plain hp ▸ hpush ..
  have hcomplete : ∀ {t : State}, s.hif.pins = [] → ghComplete k q s = t → t.hif = s.hif →
      Answers (.ghCommandComplete k q) s t := fun hpins ht hhif => by
    have hans : Answers (.ghCommandComplete k q) s (pinSweep (ghComplete k q s)) :=
      answers_run (f := fun s => pinSweep (ghComplete k q s)) hd rfl
    rwa [ht, pinSweep_none (hhif ▸ hpins)] at hans
  refine ⟨fun r ws g hp hws hqueue hroom => ?_, fun r ws g hp hqueue => hplain hp (ghPush_refused hqueue),
    fun ws g hq hfull => ?_, fun r ws g hp hr hqueue hfull => ?_,
    fun i ws x j m hj hopen hearlier => ⟨?_, ?_⟩, ?_, ?_, ?_, ?_, ?_⟩
  · obtain ⟨⟨hrest, hghs, hqs⟩, hq, hseq⟩ := ghAccept_leaves (k := k) (q := q) hws s
    exact ⟨_, hplain hp (ghPush_room hqueue hroom), hrest, ⟨hghs, hqs⟩, hq, hseq⟩
  · exact ⟨_, hplain (fun _ _ h => by cases h) rfl, ghPush_host_full_leaves k.isLt (congrArg some hq.symm) hfull⟩
  · exact ⟨_, hplain hp (ghPush_fabric_full hqueue hr hfull), rfl, ⟨fun j hj => s.gh_modGh_other _ hj, fun p _ => by
      rw [State.gh_modGh_same]; rfl⟩, s.gh_modGh_same ..⟩
  · intro hlt hx hm
    refine ⟨_, hpush .., ?_⟩
    rw [microPush_waits ⟨hj, hopen, hearlier⟩ hlt hx hm]
    exact ⟨modMicro_rest .., length_modMicro .., fun b hb => micro_modMicro_other _ hb, fun y hy => micro_modMicro_same _ hy⟩
  · rintro rfl hlast hclear hheld hws hqueue hroom
    obtain ⟨hrest, hghs, hqs, hq, hothers, hown⟩ :=
      microPush_issues_leaves ⟨hj, hopen, hearlier⟩ hlast hclear hheld hqueue hroom hws
    exact ⟨_, hpush .., hrest, ⟨hghs, hqs⟩, hq, hothers, hown⟩
  · obtain ⟨hrest, hghs, hqs⟩ := queueOnly_setGhQ s k q (((s.gh k).q q).map fun c => if c.start.isNone
      then { c with start := some s.now, done := some (ghAborted s.now) } else c)
    exact ⟨_, answers_run hd rfl, hrest, ⟨hghs, hqs⟩, State.queue_setGhQ_same ..⟩
  · intro c rest hheld hstart hdone hop waits
    have hans : Answers (.ghFenceRelease k q) s (ghFenceRelease k q s) := answers_run hd rfl
    refine ⟨fun hw => ?_, fun hw => ?_⟩
    · rwa [ghFenceRelease_waits hheld (fenceWaits_iff.mpr hw)] at hans
    · rw [ghFenceRelease_ends hheld hstart hdone hop (Bool.eq_false_iff.mpr fun h => hw (fenceWaits_iff.mp h))] at hans
      obtain ⟨hrest, hghs, hqs⟩ := queueOnly_trans (queueOnly_turnEnds s k q) (queueOnly_setGhQ ..)
      exact ⟨_, hans, hrest, ⟨hghs, hqs⟩, State.queue_setGhQ_same ..⟩
  · intro hpins hnone
    exact hcomplete hpins (ghComplete_none hnone) rfl
  · intro c rest hpins hheld hdone
    exact hcomplete hpins (ghComplete_running hheld hdone) rfl
  · intro c rest d hpins hheld hdone hsw hacc hact hcopy hwait hseq
    obtain ⟨hghs, hqs, hq, hcount, hregs, hrest⟩ :=
      ghFinish_plain_leaves (s := s.advance d.ready) (k := k) hsw hacc hact hcopy hwait
    have hrests : rest.filter (fun x => x.seq != c.seq) = rest := List.filter_eq_self.mpr fun x hx => by simp [hseq x hx]
    refine ⟨_, hcomplete hpins (ghComplete_done hheld hdone) (by rw [hrest]; rfl), ⟨hghs, hqs⟩, ?_, hcount, hregs, hrest⟩
    rw [hq, show ((s.advance d.ready).gh k).q q = c :: rest from hheld, List.filter_cons_of_neg (by simp), hrests]

end Sys2Proof.Machine
end

section
/-! PROOFS. Progress channels and advice (R461, R503): what a channel that moves on and advice that rises leave alone. -/

namespace Sys2Proof.Machine

/-- From s to t only the registers of progress channel i have changed, and what the change of its state sends. -/
def State.ProgOnly (s t : State) (i : Nat) : Prop :=
  t = { s with regs := t.regs, msixSent := t.msixSent } ∧ s.RegsButErr t [.hifProgStat i, .hifProgPos i]

section
variable {s t u : State} {i : Nat}

theorem progOnly_trans (h : s.ProgOnly t i) (h' : t.ProgOnly u i) : s.ProgOnly u i :=
  ⟨by rw [h'.1, h.1], regsButErr_trans h.2 h'.2⟩

theorem progOnly_setWord (s : State) (r : Reg) (v : Nat) (hr : r = .hifProgStat i ∨ r = .hifProgPos i) :
    s.ProgOnly (s.setWord r v) i :=
  ⟨rfl, regsButErr_of_regsBut (regsBut_setWord (regsBut_refl s _) (by rcases hr with rfl | rfl <;> simp))⟩

theorem progOnly_stat (s : State) (i : Nat) (f : Fld) (v : Nat) : s.ProgOnly (s.setFld (.hifProgStat i) f v) i :=
  progOnly_setWord s _ _ (.inl rfl)
theorem progOnly_pos (s : State) (i v : Nat) : s.ProgOnly (s.setWord (.hifProgPos i) v) i :=
  progOnly_setWord s _ _ (.inr rfl)
theorem progOnly_msix (s : State) (i : Nat) {v : Nat} (h : v < 256) : s.ProgOnly (s.msix v) i :=
  ⟨(errOnly_msix s h).1, regsButErr_of_errOnly (errOnly_msix s h)⟩

theorem progOnly_progState (s : State) (i st : Nat) : s.ProgOnly (progState i st s) i := by
  unfold progState
  split
  · exact ⟨rfl, fun _ _ _ _ => rfl⟩
  · exact progOnly_trans (progOnly_stat ..) (progOnly_msix _ i (by decide))

theorem progOnly_progStart (s : State) (i : Nat) : s.ProgOnly (progStart i s) i :=
  progOnly_trans (progOnly_trans (progOnly_trans (progOnly_stat ..) (progOnly_stat ..)) (progOnly_pos ..)) (progOnly_progState ..)

theorem progOnly_progAt (s : State) (i pct pos : Nat) : s.ProgOnly (progAt i pct pos s) i :=
  progOnly_trans (progOnly_stat ..) (progOnly_pos ..)

theorem progOnly_progDone (s : State) (i pos : Nat) : s.ProgOnly (progDone i pos s) i :=
  progOnly_trans (progOnly_trans (progOnly_progAt ..) (progOnly_stat ..)) (progOnly_progState ..)

/-- The scrubber's progress is that of channel 3. -/
theorem progOnly_scrubProgress (s : State) : s.ProgOnly (scrubProgress s) 3 := by
  have hstart : s.ProgOnly (if s.fld (.hifProgStat 3) F.hifProgStatState = 1 then s else progStart 3 s) 3 := by
    split
    · exact ⟨rfl, fun _ _ _ _ => rfl⟩
    · exact progOnly_progStart s 3
  unfold scrubProgress
  dsimp only
  generalize (if s.fld (.hifProgStat 3) F.hifProgStatState = 1 then s else progStart 3 s) = u at hstart ⊢
  split
  · exact progOnly_trans hstart (progOnly_progDone ..)
  · exact progOnly_trans hstart (progOnly_progAt ..)

theorem onlyRegs_trans {rs : List Reg} (h : s.OnlyRegs t rs) (h' : t.OnlyRegs u rs) : s.OnlyRegs u rs :=
  ⟨regsBut_trans h.1 h'.1, by rw [h'.2, h.2]⟩

/-- Advice rises to a rung and never falls. -/
theorem adviseUp_leaves (s : State) {rung : Nat} (h : rung < 8) (code : Nat) : let t := adviseUp rung code s
    s.OnlyRegs t [.hifAdvice] ∧ t.fld .hifAdvice F.hifAdviceAdvice = max (s.fld .hifAdvice F.hifAdviceAdvice) rung ∧
    t.fld .hifAdvice F.hifAdviceRepairPending = s.fld .hifAdvice F.hifAdviceRepairPending := by
  intro t
  by_cases hlow : s.fld .hifAdvice F.hifAdviceAdvice < rung
  · have ht : t = _ := if_pos hlow
    rw [ht]
    refine ⟨onlyRegs_setFld (onlyRegs_setFld (onlyRegs_refl s _) (by simp)) (by simp), ?_, ?_⟩
    · rw [State.fld_setFld_disjoint _ _ _ _ _ (by decide) (by decide) (by decide), State.fld_setFld_same _ _ _ _ (by decide),
        max_eq_right hlow.le]
      exact Nat.mod_eq_of_lt h
    · rw [State.fld_setFld_disjoint _ _ _ _ _ (by decide) (by decide) (by decide),
        State.fld_setFld_disjoint _ _ _ _ _ (by decide) (by decide) (by decide)]
  · have ht : t = _ := if_neg hlow
    rw [ht]
    exact ⟨onlyRegs_refl s _, (max_eq_left (not_lt.mp hlow)).symm, rfl⟩

end

end Sys2Proof.Machine
end

section
/-! PROOFS. Refresh, scrubbing, row repair, heartbeats and raw-stack mode of a Glasshouse (R226-R231). -/

namespace Sys2Proof.Machine

section
variable {s : State} {k : Nat}

/-! ### Scrubbing (R227) -/

theorem scrubPass_off (h : s.bit (.ghScrubCtl k) F.ghScrubCtlEn = false ∨ s.bit (.ghStatus k) F.ghStatusRaw = true) :
    scrubPass k s = s := if_pos h

/-- When the next pass ends. -/
def State.scrubAt (s : State) (k : Nat) : Nat :=
  (s.gh k).lastScrub + max 1 (s.fld (.ghScrubCtl k) F.ghScrubCtlPeriod) * 3600 * 1000000 * usTicks

/-- A pass is noted in the record of its Glasshouse and counted as a command of queue 15. -/
def State.scrubbed (s : State) (k : Nat) : State :=
  (s.bump (.ghCmdqStat k 15) F.ghCmdqStatCompleted 1).modGh k fun g => { g with lastScrub := s.now, seq := g.seq + 1 }

/-- With every check code sound or the signature, a pass goes through no sector. -/
theorem scrubPass_sound (hen : s.bit (.ghScrubCtl k) F.ghScrubCtlEn = true) (hraw : s.bit (.ghStatus k) F.ghStatusRaw = false)
    (hchk : ∀ e ∈ s.chk, e.2 = poisonSig) : scrubPass k s = scrubProgress ((s.advance (s.scrubAt k)).scrubbed k) := by
  have hnone : ∀ p : Nat × W32 → Bool, (s.chk.filter fun e => e.2 != poisonSig && p e) = [] := fun p =>
    List.filter_eq_nil_iff.mpr fun e he => by simp [hchk e he]
  have hgo : ¬ (s.bit (.ghScrubCtl k) F.ghScrubCtlEn = false ∨ s.bit (.ghStatus k) F.ghStatusRaw = true) := by simp [hen, hraw]
  rw [scrubPass, if_neg hgo]
  simp only [State.advance_chk, hnone, List.map_nil, List.filter_nil, List.append_nil, List.foldl_nil]
  rw [State.scrubAt]
  generalize (s.gh k).lastScrub + max 1 (s.fld (.ghScrubCtl k) F.ghScrubCtlPeriod) * 3600 * 1000000 * usTicks = T
  rfl

/-! Frames in sequence, and after time has passed, for states of which nothing else is known: checked for the states of a
pass itself they would compare its registers and its time number by number. -/

theorem rest_trans {t u : State} (hu : u = { s with ghs := u.ghs, regs := u.regs })
    (ht : t = { u with regs := t.regs, msixSent := t.msixSent }) :
    t = { s with ghs := t.ghs, regs := t.regs, msixSent := t.msixSent } := by rw [ht, hu]

theorem rest_of_advance {t : State} {T : Nat}
    (h : t = { s.advance T with ghs := t.ghs, regs := t.regs, msixSent := t.msixSent }) :
    t = { s with now := t.now, ghs := t.ghs, regs := t.regs, msixSent := t.msixSent } ∧ t.now = max s.now T := by
  rw [h]
  exact ⟨rfl, rfl⟩

theorem scrubbed_rest (s : State) (k : Nat) :
    s.scrubbed k = { s with ghs := (s.scrubbed k).ghs, regs := (s.scrubbed k).regs } := rfl

/-- From s to t a pass of Glasshouse k is noted and counted, and of the registers else only channel 3's may have moved. -/
def State.PassNoted (s t : State) (k : Nat) : Prop :=
  (∀ j, j ≠ k → t.gh j = s.gh j) ∧ t.gh k = { s.gh k with lastScrub := t.now, seq := (s.gh k).seq + 1 } ∧
  s.RegsButErr t [.ghCmdqStat k 15, .hifProgStat 3, .hifProgPos 3] ∧
  t.fld (.ghCmdqStat k 15) F.ghCmdqStatCompleted =
    min (s.fld (.ghCmdqStat k 15) F.ghCmdqStatCompleted + 1) F.ghCmdqStatCompleted.top

theorem scrubbed_leaves (hk : k < 8) (s : State) : let t := scrubProgress (s.scrubbed k)
    s.PassNoted t k ∧ t = { s with ghs := t.ghs, regs := t.regs, msixSent := t.msixSent } := by
  obtain ⟨hrest, hregs⟩ := progOnly_scrubProgress (s.scrubbed k)
  generalize scrubProgress (s.scrubbed k) = t at hrest hregs
  have hghs : ∀ j, t.gh j = (s.scrubbed k).gh j := gh_of_ghs_eq (by rw [hrest])
  have hnow : t.now = s.now := by rw [hrest]; rfl
  have hcount : s.RegsBut (s.scrubbed k) [.ghCmdqStat k 15] := regsBut_setWord (regsBut_refl s _) (by simp)
  have hword : t.word (.ghCmdqStat k 15) = (s.scrubbed k).word (.ghCmdqStat k 15) :=
    RegsButErr.word hregs (by simp [regAddr]; omega) (by simp only [errAddr, regAddr]; omega)
  refine ⟨⟨fun j hj => (hghs j).trans (State.gh_modGh_other _ _ hj), ?_, ?_, ?_⟩, rest_trans (scrubbed_rest s k) hrest⟩
  · rw [hghs, hnow]
    exact State.gh_modGh_same ..
  · exact regsButErr_trans (regsButErr_mono (regsButErr_of_regsBut hcount) (by simp)) (regsButErr_mono hregs (by simp))
  · rw [State.fld, hword]
    exact State.fld_bump_same s (.ghCmdqStat k 15) (by decide) 1

/-- A pass that ends at the time T. -/
theorem scrubbedAt_leaves (hk : k < 8) (s : State) (T : Nat) : let t := scrubProgress ((s.advance T).scrubbed k)
    s.PassNoted t k ∧ t = { s with now := t.now, ghs := t.ghs, regs := t.regs, msixSent := t.msixSent } ∧
    t.now = max s.now T := by
  obtain ⟨hpass, hrest⟩ := scrubbed_leaves hk (s.advance T)
  exact ⟨hpass, rest_of_advance hrest⟩

/-! ### Row repair (R228) -/

section
variable {r : RowAt}

theorem rowRepair_none (h : r ∉ (s.gh k).repairQ ∨ (s.gh k).repair.isSome ∨ s.bit (.ghStatus k) F.ghStatusRaw = true) :
    rowRepair k r s = s := if_pos (by simpa using h)

/-- A queued row may be repaired while no other is and the stack is not raw. -/
def State.mayRepair (s : State) (k : Nat) (r : RowAt) : Prop :=
  r ∈ (s.gh k).repairQ ∧ (s.gh k).repair = none ∧ s.bit (.ghStatus k) F.ghStatusRaw = false

theorem rowRepair_queued (h : s.mayRepair k r) : rowRepair k r s =
    if 8 ≤ tabGet 0 (s.gh k).spares (r.pc * 32 + r.bank) then s.doIf (!(s.gh k).unspared.contains r) (leaveRow k r)
    else (ownStart k s).modGh k fun g => { g with repair := some (r, s.now) } := by
  obtain ⟨hq, hrep, hraw⟩ := h
  exact if_neg (by simp [hq, hrep, hraw])

theorem rowRepair_left (h : s.mayRepair k r) (hspare : 8 ≤ tabGet 0 (s.gh k).spares (r.pc * 32 + r.bank))
    (hleft : r ∈ (s.gh k).unspared) : rowRepair k r s = s := by
  rw [rowRepair_queued h, if_pos hspare, State.doIf, if_neg (by simpa using hleft)]

theorem rowRepair_leavesRow (h : s.mayRepair k r) (hspare : 8 ≤ tabGet 0 (s.gh k).spares (r.pc * 32 + r.bank))
    (hleft : r ∉ (s.gh k).unspared) : rowRepair k r s = leaveRow k r s := by
  rw [rowRepair_queued h, if_pos hspare, State.doIf, if_pos (by simpa using hleft)]

theorem rowRepair_starts (h : s.mayRepair k r) (hspare : tabGet 0 (s.gh k).spares (r.pc * 32 + r.bank) < 8) :
    rowRepair k r s = (ownStart k s).modGh k fun g => { g with repair := some (r, s.now) } := by
  rw [rowRepair_queued h, if_neg (by omega)]

/-- A repair that starts is a command of queue 15. -/
theorem repairStart_leaves (s : State) (k : Nat) (r : RowAt) :
    let t := (ownStart k s).modGh k fun g => { g with repair := some (r, s.now) }
    s.QueueOnly t k 15 ∧
    t.gh k = { s.gh k with repair := some (r, s.now), seq := (s.gh k).seq + 1, queues := (t.gh k).queues } ∧
    (t.gh k).q 15 = (s.gh k).q 15 ++ [{ ws := List.replicate 8 0, seq := (s.gh k).seq, arr := s.now, start := some s.now }] := by
  refine ⟨queueOnly_trans (queueOnly_trans (queueOnly_modGh rfl) (queueOnly_setGhQ ..)) (queueOnly_modGh rfl), ?_, ?_⟩
  · simp only [ownStart, State.setGhQ, State.gh_modGh_same]
  · rw [State.gh_modGh_same]
    exact State.queue_setGhQ_same ..

/-- A row is noted as left mapped, and counted. -/
def State.leftRow (s : State) (k : Nat) (r : RowAt) : State :=
  (s.modGh k fun g => { g with unspared := g.unspared ++ [r] }).bump (.ghRepairStat k) F.ghRepairStatUnrepaired 1

theorem gh_leftRow (s : State) (k : Nat) (r : RowAt) :
    (s.leftRow k r).gh k = { s.gh k with unspared := (s.gh k).unspared ++ [r] } := by
  rw [State.leftRow, gh_bump, State.gh_modGh_same]

theorem leftRow_leaves (s : State) (k : Nat) (r : RowAt) : let t := s.leftRow k r
    t = { s with ghs := t.ghs, regs := t.regs } ∧ (∀ j, j ≠ k → t.gh j = s.gh j) ∧ s.RegsBut t [.ghRepairStat k] ∧
    t.fld (.ghRepairStat k) F.ghRepairStatUnrepaired =
      min (s.fld (.ghRepairStat k) F.ghRepairStatUnrepaired + 1) F.ghRepairStatUnrepaired.top :=
  ⟨rfl, fun j hj => (gh_bump ..).trans (s.gh_modGh_other _ hj), regsBut_setWord (regsBut_refl s _) (by simp),
    State.fld_bump_same (s.modGh k fun g => { g with unspared := g.unspared ++ [r] }) _ (by decide) 1⟩

theorem bankRows_leftRow (s : State) (k : Nat) (r : RowAt) :
    (((s.leftRow k r).gh k).bankRows r.pc r.bank).length = ((s.gh k).bankRows r.pc r.bank).length + 1 := by
  rw [gh_leftRow, Gh.bankRows, List.filter_append, List.length_append]
  simp [Gh.bankRows]

theorem leaveRow_few (h : ((s.gh k).bankRows r.pc r.bank).length + 1 < 8) : leaveRow k r s = s.leftRow k r :=
  if_neg (by
    rw [decide_eq_true_eq, not_le]
    exact (bankRows_leftRow s k r).trans_lt h)

theorem leaveRow_many (h : 8 ≤ ((s.gh k).bankRows r.pc r.bank).length + 1) :
    leaveRow k r s = adviseUp 3 0 ((s.leftRow k r).setFld .hifAdvice F.hifAdviceRepairPending 1) :=
  if_pos (by
    rw [decide_eq_true_eq]
    exact h.trans (bankRows_leftRow s k r).ge)

/-- The eighth row left mapped in a bank asks for the bank's repair, at rung 3 (R503). -/
theorem adviseRepair_leaves (s : State) : let t := adviseUp 3 0 (s.setFld .hifAdvice F.hifAdviceRepairPending 1)
    s.OnlyRegs t [.hifAdvice] ∧ t.bit .hifAdvice F.hifAdviceRepairPending = true ∧
    t.fld .hifAdvice F.hifAdviceAdvice = max (s.fld .hifAdvice F.hifAdviceAdvice) 3 := by
  intro t
  obtain ⟨hregs, hadvice, hpending⟩ := adviseUp_leaves (s.setFld .hifAdvice F.hifAdviceRepairPending 1) (rung := 3) (by decide) 0
  have hset : s.OnlyRegs (s.setFld .hifAdvice F.hifAdviceRepairPending 1) [.hifAdvice] :=
    onlyRegs_setFld (onlyRegs_refl s _) (by simp)
  refine ⟨onlyRegs_trans hset hregs, ?_, ?_⟩
  · rw [State.bit, hpending, State.fld_setFld_same _ _ _ _ (by decide)]
    rfl
  · rw [hadvice, State.fld_setFld_disjoint _ _ _ _ _ (by decide) (by decide) (by decide)]

theorem leaveRow_leaves (hk : k < 8) : let t := leaveRow k r s
    let more := ((s.gh k).bankRows r.pc r.bank).length + 1
    t = { s with ghs := t.ghs, regs := t.regs } ∧ (∀ j, j ≠ k → t.gh j = s.gh j) ∧
    t.gh k = { s.gh k with unspared := (s.gh k).unspared ++ [r] } ∧ s.RegsBut t [.ghRepairStat k, .hifAdvice] ∧
    t.fld (.ghRepairStat k) F.ghRepairStatUnrepaired =
      min (s.fld (.ghRepairStat k) F.ghRepairStatUnrepaired + 1) F.ghRepairStatUnrepaired.top ∧
    (more < 8 → t.word .hifAdvice = s.word .hifAdvice) ∧
    (8 ≤ more → t.bit .hifAdvice F.hifAdviceRepairPending = true ∧
      t.fld .hifAdvice F.hifAdviceAdvice = max (s.fld .hifAdvice F.hifAdviceAdvice) 3) := by
  intro t more
  obtain ⟨hrest, hghs, hregs, hcount⟩ := leftRow_leaves s k r
  have hadvice : regAddr .hifAdvice ∉ [Reg.ghRepairStat k].map regAddr := by simp [regAddr]; omega
  by_cases hmore : 8 ≤ more
  · have ht : t = _ := leaveRow_many hmore
    obtain ⟨⟨hregs', hrest'⟩, hpending, hrung⟩ := adviseRepair_leaves (s.leftRow k r)
    rw [← ht] at hregs' hrest' hpending hrung
    have hghs' : ∀ j, t.gh j = (s.leftRow k r).gh j := gh_of_ghs_eq (by rw [hrest'])
    refine ⟨?_, fun j hj => (hghs' j).trans (hghs j hj), (hghs' k).trans (gh_leftRow s k r),
      regsBut_trans (regsBut_mono hregs (by simp)) (regsBut_mono hregs' (by simp)), ?_, fun h => absurd hmore (by omega),
      fun _ => ⟨hpending, ?_⟩⟩
    · generalize s.leftRow k r = u at hrest hrest'
      rw [hrest', hrest]
    · rw [RegsBut.fld hregs' _ (by simp [regAddr]; omega), hcount]
    · rw [hrung, RegsBut.fld hregs _ hadvice]
  · have ht : t = s.leftRow k r := leaveRow_few (by omega)
    rw [ht]
    exact ⟨hrest, hghs, gh_leftRow s k r, regsBut_mono hregs (by simp), hcount, fun _ => RegsBut.word hregs hadvice,
      fun h => absurd h hmore⟩

/-! ### The end of a repair -/

theorem rowRepairDone_none (h : (s.gh k).repair = none) : rowRepairDone k s = s := by rw [rowRepairDone, h]

/-- The record of a Glasshouse once a row of it has been repaired. -/
def Gh.rowRepaired (g : Gh) (r : RowAt) : Gh :=
  { g with repair := none, repairQ := g.repairQ.erase r, remapped := g.remapped ++ [r],
           spares := tabMod 0 g.spares (r.pc * 32 + r.bank) (· + 1) }

/-- A row's repair is noted in the record and in the counters. -/
def State.noteRepair (s : State) (k : Nat) (r : RowAt) : State :=
  let u := (s.modGh k fun g => g.rowRepaired r).bump (.ghRepairStat k) F.ghRepairStatRowsUsed 1
  u.setFld (.ghRepairStat k) F.ghRepairStatQueued (u.gh k).repairQ.length

theorem noteRepair_leaves (s : State) (k : Nat) (r : RowAt) : let t := s.noteRepair k r
    t = { s with ghs := t.ghs, regs := t.regs } ∧ (∀ j, j ≠ k → t.gh j = s.gh j) ∧ t.gh k = (s.gh k).rowRepaired r ∧
    s.RegsBut t [.ghRepairStat k] ∧ t.fld (.ghRepairStat k) F.ghRepairStatRowsUsed =
      min (s.fld (.ghRepairStat k) F.ghRepairStatRowsUsed + 1) F.ghRepairStatRowsUsed.top := by
  refine ⟨rfl, fun j hj => ?_, ?_, regsBut_setWord (regsBut_setWord (regsBut_refl s _) (by simp)) (by simp), ?_⟩
  · rw [State.noteRepair, gh_setFld, gh_bump, State.gh_modGh_other _ _ hj]
  · rw [State.noteRepair, gh_setFld, gh_bump, State.gh_modGh_same]
  · rw [State.noteRepair, State.fld_setFld_disjoint _ _ _ _ _ (by decide) (by decide) (by decide),
      State.fld_bump_same _ _ (by decide)]
    rfl

/-- The oldest command of queue 15 ends, and is counted. -/
theorem ownEnd_leaves (s : State) (k : Nat) : let t := ownEnd k s
    t = { s with ghs := t.ghs, regs := t.regs } ∧ (∀ j, j ≠ k → t.gh j = s.gh j) ∧
    t.gh k = { s.gh k with queues := tabSet (s.gh k).queues 15 ((s.gh k).q 15).tail } ∧ s.RegsBut t [.ghCmdqStat k 15] := by
  refine ⟨rfl, fun j hj => ?_, ?_, regsBut_setWord (regsBut_refl s _) (by simp)⟩
  · rw [ownEnd, gh_bump, State.setGhQ, State.gh_modGh_other _ _ hj]
  · rw [ownEnd, gh_bump, State.setGhQ, State.gh_modGh_same]

theorem rowRepairDone_some {t : Nat} (h : (s.gh k).repair = some (r, t)) :
    rowRepairDone k s = ownEnd k ((s.advance (t + 2000 * fabTicks)).noteRepair k r) := by
  rw [rowRepairDone, h]
  rfl

/-- The record once the repair's command has left queue 15 too. -/
def Gh.repairEnd (g : Gh) (r : RowAt) : Gh := { g.rowRepaired r with queues := tabSet g.queues 15 (g.q 15).tail }

theorem repairEnd_parts (g : Gh) (r : RowAt) :
    (g.repairEnd r).q 15 = (g.q 15).tail ∧ (∀ p, p ≠ 15 → (g.repairEnd r).q p = g.q p) ∧ (g.repairEnd r).repair = none ∧
    (g.repairEnd r).repairQ = g.repairQ.erase r ∧ (g.repairEnd r).remapped = g.remapped ++ [r] ∧
    tabGet 0 (g.repairEnd r).spares (r.pc * 32 + r.bank) = tabGet 0 g.spares (r.pc * 32 + r.bank) + 1 :=
  ⟨tabGet_set_same .., fun _ hp => tabGet_set_other _ _ _ hp, rfl, rfl, rfl, tabGet_set_same ..⟩

theorem repairEnd_leaves (s : State) (k : Nat) (r : RowAt) : let t := ownEnd k (s.noteRepair k r)
    t = { s with ghs := t.ghs, regs := t.regs } ∧ (∀ j, j ≠ k → t.gh j = s.gh j) ∧
    s.RegsBut t [.ghRepairStat k, .ghCmdqStat k 15] ∧
    t.gh k = (s.gh k).repairEnd r ∧ t.fld (.ghRepairStat k) F.ghRepairStatRowsUsed =
      min (s.fld (.ghRepairStat k) F.ghRepairStatRowsUsed + 1) F.ghRepairStatRowsUsed.top := by
  obtain ⟨hrest, hghs, hgh, hregs, hused⟩ := noteRepair_leaves s k r
  generalize s.noteRepair k r = u at hrest hghs hgh hregs hused
  obtain ⟨hrest', hghs', hgh', hregs'⟩ := ownEnd_leaves u k
  generalize ownEnd k u = t at hrest' hghs' hgh' hregs'
  refine ⟨by rw [hrest', hrest], fun j hj => (hghs' j hj).trans (hghs j hj),
    regsBut_trans (regsBut_mono hregs (by simp)) (regsBut_mono hregs' (by simp)), ?_, ?_⟩
  · rw [hgh', hgh]
    rfl
  · rw [RegsBut.fld hregs' _ (by simp [regAddr]), hused]

end

/-! ### Heartbeats (R229, R230) -/

theorem advance_later (s : State) (n : Nat) : s.advance (s.now + n) = { s with now := s.now + n } := by
  rw [State.advance, max_eq_right (Nat.le_add_right ..)]

theorem ghHeartbeat_answered (k : Nat) (s : State) :
    ghHeartbeat k true s = (s.advance (s.now + 10 * usTicks)).modGh k fun g => { g with misses := 0 } := rfl

/-- A heartbeat is missed. -/
def State.missedBeat (s : State) (k : Nat) : State := s.modGh k fun g => { g with misses := (s.gh k).misses + 1 }

theorem gh_missedBeat (s : State) (k : Nat) : (s.missedBeat k).gh k = { s.gh k with misses := (s.gh k).misses + 1 } :=
  s.gh_modGh_same ..

theorem ghHeartbeat_missed (h : (s.gh k).misses < 2) :
    ghHeartbeat k false s = (s.advance (s.now + 10 * usTicks)).missedBeat k :=
  if_neg (by
    rw [decide_eq_true_eq]
    exact not_le.mpr (Nat.succ_lt_succ h))

theorem ghHeartbeat_third (h : 2 ≤ (s.gh k).misses) :
    ghHeartbeat k false s = rawStack k 0 ((s.advance (s.now + 10 * usTicks)).missedBeat k) :=
  if_pos (by
    rw [decide_eq_true_eq]
    exact Nat.succ_le_succ h)

/-- RAW and REFRESH_2X read 1, and no repair goes on. -/
def State.declaredRaw (s : State) (k : Nat) : State :=
  ((s.setFld (.ghStatus k) F.ghStatusRaw 1).setFld (.ghStatus k) F.ghStatusRefresh2x 1).modGh k fun g => { g with repair := none }

theorem gh_declaredRaw (s : State) (k : Nat) : (s.declaredRaw k).gh k = { s.gh k with repair := none } := by
  rw [State.declaredRaw, State.gh_modGh_same, gh_setFld, gh_setFld]

theorem regsBut_declaredRaw (s : State) (k : Nat) : s.RegsBut (s.declaredRaw k) [.ghStatus k] :=
  regsBut_setWord (regsBut_setWord (regsBut_refl s _) (by simp)) (by simp)

theorem raw_declaredRaw (s : State) (k : Nat) : (s.declaredRaw k).fld (.ghStatus k) F.ghStatusRaw = 1 :=
  (State.fld_setFld_disjoint _ _ _ _ _ (by decide) (by decide) (by decide)).trans (State.fld_setFld_same _ _ _ _ (by decide))

theorem refresh2x_declaredRaw (s : State) (k : Nat) : (s.declaredRaw k).fld (.ghStatus k) F.ghStatusRefresh2x = 1 :=
  State.fld_setFld_same _ _ _ _ (by decide)

/-- A Glasshouse with no command held is declared failed with one event. -/
theorem rawStack_idle (hraw : s.bit (.ghStatus k) F.ghStatusRaw = false) (hq : (s.gh k).queues = []) (cause : Nat) :
    rawStack k cause s = (s.declaredRaw k).raise
      { src := srcOf 2 k 0, code := ecRawStack, fw := true, detail := [(32, 1, k), (33, 1, cause)] } := by
  have hidle : ((s.declaredRaw k).gh k).queues = [] := by rw [gh_declaredRaw, hq]
  rw [State.declaredRaw] at hidle
  rw [rawStack, if_neg (by simp [hraw])]
  simp only [hidle, List.foldl_nil, State.declaredRaw]

theorem rawStack_leaves (hk : k < 8) (hraw : s.bit (.ghStatus k) F.ghStatusRaw = false) (hq : (s.gh k).queues = [])
    (cause : Nat) :
    let t := rawStack k cause s
    s.RegsButErr t [.ghStatus k] ∧ t.bit (.ghStatus k) F.ghStatusRaw = true ∧ t.bit (.ghStatus k) F.ghStatusRefresh2x = true ∧
    (t.gh k).repair = none ∧ t.mem = s.mem ∧ t.now = s.now := by
  rw [rawStack_idle hraw hq]
  have herr := errOnly_raise (s.declaredRaw k)
    { src := srcOf 2 k 0, code := ecRawStack, fw := true, detail := [(32, 1, k), (33, 1, cause)] }
  generalize (s.declaredRaw k).raise _ = t at herr
  have haddr : ¬ errAddr (regAddr (.ghStatus k)) := by simp only [errAddr, regAddr]; omega
  have hghs : t.ghs = (s.declaredRaw k).ghs := by rw [herr.1]
  refine ⟨regsButErr_trans (regsButErr_of_regsBut (regsBut_declaredRaw s k)) (regsButErr_of_errOnly herr), ?_, ?_, ?_,
    by rw [herr.1]; rfl, by rw [herr.1]; rfl⟩
  · rw [State.bit, herr.fld _ haddr, raw_declaredRaw]
    rfl
  · rw [State.bit, herr.fld _ haddr, refresh2x_declaredRaw]
    rfl
  · rw [gh_of_ghs_eq hghs, gh_declaredRaw]

/-- The third heartbeat missed declares a Glasshouse failed. -/
theorem ghHeartbeat_third_leaves (hk : k < 8) (hmiss : 2 ≤ (s.gh k).misses) (hraw : s.bit (.ghStatus k) F.ghStatusRaw = false)
    (hq : (s.gh k).queues = []) : let t := ghHeartbeat k false s
    s.RegsButErr t [.ghStatus k] ∧ t.bit (.ghStatus k) F.ghStatusRaw = true ∧ t.bit (.ghStatus k) F.ghStatusRefresh2x = true ∧
    (t.gh k).repair = none ∧ t.mem = s.mem ∧ t.now = s.now + 10 * usTicks := by
  rw [ghHeartbeat_third hmiss, advance_later]
  exact rawStack_leaves (s := { s with now := s.now + 10 * usTicks }.missedBeat k) hk hraw
    ((congrArg Gh.queues (gh_missedBeat ..)).trans hq) 0

/-! ### Raw-stack mode (R231) -/

section
variable {q : Nat} {c : GhCmd} {rest : List GhCmd}

theorem rawEmulate_none (h : s.bit (.ghStatus k) F.ghStatusRaw = false ∨ (s.gh k).q q = []) : rawEmulate k q s = s := by
  unfold rawEmulate
  split
  · rfl
  · next hq => rw [if_pos (h.resolve_right (by simp [hq]))]

theorem rawEmulate_done {d : GhDone} (hraw : s.bit (.ghStatus k) F.ghStatusRaw = true) (hq : (s.gh k).q q = c :: rest)
    (hdone : c.done = some d) : rawEmulate k q s = ghFinish k q c d (s.advance d.ready) := by
  simp only [rawEmulate, hq, hraw, hdone, Bool.true_eq_false, if_false]

theorem isFence_iff : c.isFence s = true ↔ c.buf = none ∧ cOpcode c.ws = 9 ∧ ghDecode s c.ws = 0 := by
  simp [GhCmd.isFence, and_assoc]

theorem rawEmulate_waits (hraw : s.bit (.ghStatus k) F.ghStatusRaw = true) (hq : (s.gh k).q q = c :: rest) (hdone : c.done = none)
    (hw : s.ghEn k q = false ∨ c.isFence s = true ∧ fenceWaits k q c s = true) : rawEmulate k q s = s := by
  simp only [rawEmulate, hq, hraw, hdone, Bool.true_eq_false, if_false, Bool.and_eq_true, if_pos hw]

/-- The head of an enabled queue that is no waiting fence runs and completes. -/
theorem rawEmulate_runs (hraw : s.bit (.ghStatus k) F.ghStatusRaw = true) (hq : (s.gh k).q q = c :: rest) (hdone : c.done = none)
    (hen : s.ghEn k q = true) (hw : c.isFence s = true → fenceWaits k q c s = false) {r : GhRun} (hr : c.perform k s = r) :
    rawEmulate k q s = ghFinish k q { c with switches := r.switches, accum := r.accum } r.done r.s := by
  have hgo : ¬ (s.ghEn k q = false ∨ (c.isFence s && fenceWaits k q c s) = true) := by
    rw [hen, Bool.and_eq_true]
    rintro (h | ⟨hf, hw'⟩)
    · cases h
    · rw [hw hf] at hw'
      cases hw'
  simp only [rawEmulate, hq, hraw, hdone, Bool.true_eq_false, if_false, if_neg hgo, hr]

theorem perform_fence (hpar : s.parity.queues.contains (k, c.seq) = false) (h : c.isFence s = true) :
    c.perform k s = { s := s, k := k } := by
  obtain ⟨hbuf, -⟩ := isFence_iff.mp h
  rw [GhCmd.perform, if_neg (by rw [hpar]; exact Bool.false_ne_true), hbuf]
  exact if_pos h

theorem perform_function (hpar : s.parity.queues.contains (k, c.seq) = false) (hbuf : c.buf = none) (h : ¬ c.isFence s = true) :
    c.perform k s = ghExecute k c.ws s := by
  rw [GhCmd.perform, if_neg (by rw [hpar]; exact Bool.false_ne_true), hbuf]
  exact if_neg h

/-- Words in order run their function; with no fault and nothing saturated no event follows it. -/
theorem ghExecute_function {ws : List Word} (hdec : ghDecode s ws = 0) (hin : ghInDir s ws = false) {r : GhRun}
    (hr : ghFunc ws { s := s, k := k } = r) (hfault : r.fault = 0) (hsat : r.sat = false) :
    ghExecute k ws s = { r with code := firstEvent s r.s 0 false } := by
  simp [ghExecute, hdec, hin, hr, hfault, hsat, State.doIf]

end

end

/-! ### What the commands answer -/

section
variable {s : State} {k : StackId} {q : QId} {c : GhCmd} {rest : List GhCmd}

theorem answers_rawStackEmulate (hd : s.dead = false) {t : State} (h : rawEmulate k q s = t) :
    Answers (.rawStackEmulate k q) s t :=
  h ▸ answers_run hd rfl

/-- In raw mode the head of an enabled queue answers as its start and completion would (R231). -/
theorem answers_raw_fence (hd : s.dead = false) (hraw : s.bit (.ghStatus k) F.ghStatusRaw = true) (hq : (s.gh k).q q = c :: rest)
    (hdone : c.done = none) (hen : s.ghEn k q = true) (hpar : s.parity.queues.contains (k.val, c.seq) = false)
    (hf : c.isFence s = true) (hw : fenceWaits k q c s = false) :
    Answers (.rawStackEmulate k q) s (ghFinish k q { c with switches := [], accum := [] } (fenceDone s.now) s) :=
  answers_rawStackEmulate hd (rawEmulate_runs hraw hq hdone hen (fun _ => hw) (perform_fence hpar hf))

theorem answers_raw_function (hd : s.dead = false) (hraw : s.bit (.ghStatus k) F.ghStatusRaw = true)
    (hq : (s.gh k).q q = c :: rest) (hdone : c.done = none) (hen : s.ghEn k q = true)
    (hpar : s.parity.queues.contains (k.val, c.seq) = false) (hbuf : c.buf = none) (hdec : ghDecode s c.ws = 0)
    (hf : ¬ c.isFence s = true) (hin : ghInDir s c.ws = false) {r : GhRun} (hr : ghFunc c.ws { s := s, k := k } = r)
    (hfault : r.fault = 0) (hsat : r.sat = false) :
    Answers (.rawStackEmulate k q) s (ghFinish k q { c with switches := r.switches, accum := r.accum }
      { status := if r.poison then 2 else if r.info then 1 else 0, code := firstEvent s r.s 0 false, count := r.count,
        ready := r.s.now + 6 * fabTicks, nan := r.info } r.s) := by
  have hperform : c.perform k s = { r with code := firstEvent s r.s 0 false } :=
    (perform_function hpar hbuf hf).trans (ghExecute_function hdec hin hr hfault hsat)
  have hans := answers_rawStackEmulate hd (rawEmulate_runs hraw hq hdone hen (fun h => absurd h hf) hperform)
  simpa only [GhRun.done, GhRun.status, hfault, hsat, ne_eq, not_true_eq_false, if_false, Bool.or_false,
    Bool.false_and] using hans

theorem answers_rowRepair (hd : s.dead = false) {pc : Fin 64} {bank : Fin 32} {row : BitVec 16} {t : State}
    (h : rowRepair k ⟨pc, bank, row.toNat⟩ s = t) : Answers (.rowRepair k pc bank row) s t :=
  h ▸ answers_run (f := rowRepair k ⟨pc, bank, row.toNat⟩) hd rfl

end

/-- Settles O14: each command of the stack's upkeep changes its own part of the record, and in raw mode the head of a
queue ends as it would have. -/
theorem stackRefreshScrubRepairAndRawMode : Obligations.StackRefreshScrubRepairAndRawMode := by
  intro s k hd g raw others
  have hothers : ∀ {u : State} (f : Gh → Gh), u.ghs = s.ghs → others (u.modGh k f) := fun f hu j hj =>
    (State.gh_modGh_other _ f hj).trans (gh_of_ghs_eq hu j)
  have hscrub : Answers (.scrubPass k) s (scrubPass k s) := answers_run hd rfl
  have hdone : Answers (.rowRepairDone k) s (rowRepairDone k s) := answers_run hd rfl
  have hbeat : ∀ b, Answers (.ghHeartbeat k b) s (ghHeartbeat k b s) := fun _ => answers_run hd rfl
  refine ⟨fun pc => ?_, fun hoff => ?_, fun hen hraw hchk => ?_, fun pc bank row => ?_, fun hnone => ?_, fun r t0 hrep => ?_, ?_,
    fun hfew => ?_, fun hmiss hraw hq => ?_, fun q => ⟨fun hnone => ?_, fun c rest hraw hq => ?_⟩⟩
  · exact ⟨_, answers_run hd rfl, rfl, hothers _ rfl, rfl, State.gh_modGh_same ..⟩
  · rwa [scrubPass_off hoff] at hscrub
  · rw [scrubPass_sound hen hraw hchk] at hscrub
    obtain ⟨⟨hghs, hgh, hregs, hcount⟩, hrest, hnow⟩ := scrubbedAt_leaves k.isLt s (s.scrubAt k)
    exact ⟨_, hscrub, hghs, hrest, hregs, hcount, hnow, hgh⟩
  · intro r
    refine ⟨fun hnone => answers_rowRepair hd (rowRepair_none hnone), fun hq hrep hraw => ?_⟩
    have hmay : s.mayRepair k r := ⟨hq, hrep, hraw⟩
    refine ⟨fun hspare => ⟨fun hleft => answers_rowRepair hd (rowRepair_left hmay hspare hleft), fun hleft => ?_⟩,
      fun hspare => ?_⟩
    · obtain ⟨hrest, hghs, hgh, hregs, hcount, hfew, hmany⟩ := leaveRow_leaves (s := s) (r := r) k.isLt
      exact ⟨_, answers_rowRepair hd (rowRepair_leavesRow hmay hspare hleft), hrest, hghs, hgh, hregs, hcount, hfew, hmany⟩
    · obtain ⟨⟨hrest, hghs, hqs⟩, hgh, hq15⟩ := repairStart_leaves s k r
      exact ⟨_, answers_rowRepair hd (rowRepair_starts hmay hspare), hrest, hghs, hgh, hqs, hq15⟩
  · rwa [rowRepairDone_none hnone] at hdone
  · rw [rowRepairDone_some hrep] at hdone
    obtain ⟨hrest, hghs, hregs, hgh, hused⟩ := repairEnd_leaves (s.advance (t0 + 2000 * fabTicks)) k r
    generalize ownEnd _ _ = t at hdone hrest hghs hregs hgh hused
    have hnow : t.now = max s.now (t0 + 2000 * fabTicks) := by rw [hrest, State.advance_now]
    obtain ⟨hq15, hqs, hnone, hqueued, hremapped, hspares⟩ := hgh ▸ repairEnd_parts ((s.advance (t0 + 2000 * fabTicks)).gh k) r
    exact ⟨t, hdone, hghs, by rw [hrest, State.advance], hnow, hregs, hq15, hqs, hnone, hqueued, hremapped, hspares, hused⟩
  · have hans := hbeat true
    rw [ghHeartbeat_answered, advance_later] at hans
    exact ⟨_, hans, rfl, hothers _ rfl, State.gh_modGh_same ..⟩
  · have hans := hbeat false
    rw [ghHeartbeat_missed hfew, advance_later] at hans
    exact ⟨_, hans, hothers _ rfl, rfl, State.gh_modGh_same ..⟩
  · have hans := hbeat false
    exact ⟨_, hans, ghHeartbeat_third_leaves k.isLt hmiss hraw hq⟩
  · exact answers_rawStackEmulate hd (rawEmulate_none hnone)
  · intro fence
    refine ⟨fun d hdone => answers_rawStackEmulate hd (rawEmulate_done hraw hq hdone), fun hdone hw => ?_,
      fun hdone hen hpar hbuf hdec => ⟨fun hf hw => ?_, fun hf hin hfault hsat => ?_⟩⟩
    · exact answers_rawStackEmulate hd (rawEmulate_waits hraw hq hdone (hw.imp_right (And.imp_left isFence_iff.mpr)))
    · exact answers_raw_fence hd hraw hq hdone hen hpar (isFence_iff.mpr hf) hw
    · exact answers_raw_function hd hraw hq hdone hen hpar hbuf hdec (mt isFence_iff.mp hf) hin rfl hfault hsat

end Sys2Proof.Machine
end

section
/-! PROOFS. Turnstiles (O5): what a signalled event leaves in its core, and a change of a turnstile with the notify that
follows it. -/

namespace Sys2Proof.Machine

theorem bitAt_eq_testBit (v i : Nat) : bitAt v i = v.testBit i := by
  rw [bitAt, Nat.testBit_eq_decide_div_mod_eq, beq_eq_decide]

/-! ### A signalled event (R314) -/

section
variable {s : State} {n e : Nat} {g : Sig}

theorem scEvent_ne_scEvstat (he : e < 64) : regAddr (.scEvent n) ≠ regAddr (.scEvstat n e) := by
  simp only [regAddr]
  omega

theorem word_scEvent_signal (he : e < 64) :
    (s.signal n e g).word (.scEvent n) = (s.word (.scEvent n) ||| 2 ^ e) % 2 ^ 64 := by
  unfold State.signal
  rw [State.word_setWord_other _ _ (scEvent_ne_scEvstat he), State.word_setWord_same, State.word_modCore]

theorem bitAt_signal_same (he : e < 64) : bitAt ((s.signal n e g).word (.scEvent n)) e = true := by
  rw [bitAt_eq_testBit, word_scEvent_signal he, Nat.testBit_mod_two_pow, Nat.testBit_or, Nat.testBit_two_pow_self]
  simp [he]

theorem word_lt (s : State) {r : Reg} (hr : regReset r < 2 ^ 64) : s.word r < 2 ^ 64 := by
  unfold State.word
  split
  · exact BitVec.isLt _
  · exact hr

theorem bitAt_signal_other (he : e < 64) {i : Nat} (hi : i ≠ e) :
    bitAt ((s.signal n e g).word (.scEvent n)) i = bitAt (s.word (.scEvent n)) i := by
  have hw : s.word (.scEvent n) < 2 ^ 64 := word_lt s (show 0 < 2 ^ 64 by decide)
  rw [bitAt_eq_testBit, bitAt_eq_testBit, word_scEvent_signal he,
    Nat.mod_eq_of_lt (Nat.or_lt_two_pow hw (Nat.pow_lt_pow_right (by decide) he)), Nat.testBit_or,
    Nat.testBit_two_pow_of_ne (Ne.symm hi), Bool.or_false]

theorem core_signal_other {m : Nat} (hm : m ≠ n) : (s.signal n e g).core m = s.core m := tabGet_set_other _ _ _ hm

end

/-! ### Notify (R255) -/

/-- A turnstile was changed and the change notified: its VALUE, its LIMIT and the target of its event are these. An armed
turnstile whose VALUE has come to LIMIT has disarmed and signalled the event; no other signals, and ARM is as given. -/
def State.TurnstileLeft (s : State) (i : TurnId) (v l : Nat) (arm : Bool) (core event : Nat) (t : State) : Prop :=
  t.fld (.tsCnt i) F.tsCntValue = v ∧ t.fld (.tsCnt i) F.tsCntLimit = l ∧
  t.fld (.tsNotify i) F.tsNotifyCore = core ∧ t.fld (.tsNotify i) F.tsNotifyEvent = event ∧
  t = { s with regs := t.regs, cores := t.cores, parity := t.parity } ∧
  if arm = true ∧ l ≤ v then
    s.RegsBut t [.tsCnt i, .tsNotify i, .scEvent core, .scEvstat core event] ∧
    t.bit (.tsNotify i) F.tsNotifyArm = false ∧ bitAt (t.word (.scEvent core)) event = true ∧
    (∀ e, e ≠ event → bitAt (t.word (.scEvent core)) e = bitAt (s.word (.scEvent core)) e) ∧
    (∀ n, n ≠ core → t.core n = s.core n)
  else s.RegsBut t [.tsCnt i, .tsNotify i] ∧ t.bit (.tsNotify i) F.tsNotifyArm = arm ∧ t.cores = s.cores

section
variable {s u : State} {i : TurnId}

theorem tsCnt_ne_tsNotify : regAddr (.tsCnt i) ≠ regAddr (.tsNotify i) := by
  simp only [regAddr]
  omega

/-- The event that a turnstile signals has registers of a core, none of the control block's. -/
theorem tsRegs_apart_event {n e : Nat} {r : Reg} (hr : r = .tsCnt i ∨ r = .tsNotify i) :
    regAddr r ∉ [Reg.scEvent n, .scEvstat n e].map regAddr := by
  have := i.isLt
  rcases hr with rfl | rfl <;> simp [regAddr] <;> omega

/-- The event of a turnstile that notifies. -/
theorem notify_eq (i : Nat) (u : State) : notify i u =
    if u.bit (.tsNotify i) F.tsNotifyArm = true ∧ u.fld (.tsCnt i) F.tsCntLimit ≤ u.fld (.tsCnt i) F.tsCntValue then
      (u.setFld (.tsNotify i) F.tsNotifyArm 0).signal (u.fld (.tsNotify i) F.tsNotifyCore) (u.fld (.tsNotify i) F.tsNotifyEvent) {}
    else u := by
  simp only [notify, Bool.and_eq_true, decide_eq_true_eq]

theorem fld_notify_tsCnt (f : Fld) : (notify i u).fld (.tsCnt i) f = u.fld (.tsCnt i) f := by
  rw [notify_eq]
  split
  · exact (RegsBut.fld (signal_regs _ _ _ _) f (tsRegs_apart_event (.inl rfl))).trans
      (State.fld_setFld_other _ _ _ _ tsCnt_ne_tsNotify)
  · rfl

theorem fld_notify_tsNotify {f : Fld} (hf : f.fits) (harm : F.tsNotifyArm.apart f) :
    (notify i u).fld (.tsNotify i) f = u.fld (.tsNotify i) f := by
  rw [notify_eq]
  split
  · exact (RegsBut.fld (signal_regs _ _ _ _) f (tsRegs_apart_event (.inr rfl))).trans
      (State.fld_setFld_disjoint _ _ _ _ _ (by decide) hf harm)
  · rfl

theorem exhausted_notify :
    (notify i u).fld (.tsNotify i) F.tsNotifyExhausted = u.fld (.tsNotify i) F.tsNotifyExhausted :=
  fld_notify_tsNotify (by decide) (by decide)

/-- A turnstile that a change leaves like this, notified. -/
theorem turnstileLeft_notify (hu : u = { s with regs := u.regs, parity := u.parity })
    (hr : s.RegsBut u [.tsCnt i, .tsNotify i]) :
    s.TurnstileLeft i (u.fld (.tsCnt i) F.tsCntValue) (u.fld (.tsCnt i) F.tsCntLimit) (u.bit (.tsNotify i) F.tsNotifyArm)
      (u.fld (.tsNotify i) F.tsNotifyCore) (u.fld (.tsNotify i) F.tsNotifyEvent) (notify i u) := by
  refine ⟨fld_notify_tsCnt _, fld_notify_tsCnt _, fld_notify_tsNotify (by decide) (by decide),
    fld_notify_tsNotify (by decide) (by decide), ?_, ?_⟩
  · rw [notify_eq]
    split
    · rw [signal_rest, hu]
      rfl
    · rw [hu]
  · rw [notify_eq]
    have hevent : u.fld (.tsNotify i) F.tsNotifyEvent < 64 := State.fld_lt ..
    generalize u.fld (.tsNotify i) F.tsNotifyEvent = event at hevent ⊢
    generalize u.fld (.tsNotify i) F.tsNotifyCore = core
    have harm : s.RegsBut (u.setFld (.tsNotify i) F.tsNotifyArm 0) [.tsCnt i, .tsNotify i] := regsBut_setFld hr (by simp)
    have hcores : u.cores = s.cores := by rw [hu]
    split
    · have hword : (u.setFld (.tsNotify i) F.tsNotifyArm 0).word (.scEvent core) = s.word (.scEvent core) :=
        RegsBut.word harm (by have := i.isLt; simp [regAddr]; omega)
      refine ⟨regsBut_trans (regsBut_mono harm (by simp)) (regsBut_mono (signal_regs _ _ _ _) (by simp)), ?_,
        bitAt_signal_same hevent, fun e he => (bitAt_signal_other hevent he).trans (by rw [hword]), fun n hn => ?_⟩
      · rw [State.bit, RegsBut.fld (signal_regs _ _ _ _) _ (tsRegs_apart_event (.inr rfl)),
          State.fld_setFld_same _ _ _ _ (by decide)]
        rfl
      · rw [core_signal_other hn, State.core_setFld, State.core, hcores, State.core]
    · exact ⟨hr, rfl, hcores⟩

/-- A change of VALUE, notified. -/
theorem turnstileLeft_value {v : Nat} (hv : v < 2 ^ 32) :
    s.TurnstileLeft i v (s.fld (.tsCnt i) F.tsCntLimit) (s.bit (.tsNotify i) F.tsNotifyArm)
      (s.fld (.tsNotify i) F.tsNotifyCore) (s.fld (.tsNotify i) F.tsNotifyEvent)
      (notify i (s.setFld (.tsCnt i) F.tsCntValue v)) ∧
    (notify i (s.setFld (.tsCnt i) F.tsCntValue v)).fld (.tsNotify i) F.tsNotifyExhausted =
      s.fld (.tsNotify i) F.tsNotifyExhausted := by
  have h := turnstileLeft_notify (i := i) (u := s.setFld (.tsCnt i) F.tsCntValue v) rfl (regsBut_setFld (regsBut_refl _ _) (by simp))
  have hvalue : (s.setFld (.tsCnt i) F.tsCntValue v).fld (.tsCnt i) F.tsCntValue = v :=
    (State.fld_setFld_same _ _ _ _ (by decide)).trans (Nat.mod_eq_of_lt hv)
  have hlimit : (s.setFld (.tsCnt i) F.tsCntValue v).fld (.tsCnt i) F.tsCntLimit = s.fld (.tsCnt i) F.tsCntLimit :=
    State.fld_setFld_disjoint _ _ _ _ _ (by decide) (by decide) (by decide)
  have hnotify (f : Fld) : (s.setFld (.tsCnt i) F.tsCntValue v).fld (.tsNotify i) f = s.fld (.tsNotify i) f :=
    State.fld_setFld_other _ _ _ _ tsCnt_ne_tsNotify.symm
  simp only [hvalue, hlimit, hnotify, State.bit] at h
  exact ⟨h, exhausted_notify.trans (hnotify _)⟩

end

/-! ### TURN and ADD (R255) -/

section
variable {s : State} {i : TurnId} {n : Nat}

theorem turn_zero : turn i 0 s = (s, BitVec.ofNat 64 (s.fld (.tsCnt i) F.tsCntValue)) := rfl
theorem turn_exhausted (hn : n ≠ 0) (h : s.fld (.tsCnt i) F.tsCntLimit ≤ s.fld (.tsCnt i) F.tsCntValue) :
    turn i n s = (s.bump (.tsNotify i) F.tsNotifyExhausted 1, exhausted) := (if_neg hn).trans (if_pos h)
theorem turn_takes (hn : n ≠ 0) (h : s.fld (.tsCnt i) F.tsCntValue < s.fld (.tsCnt i) F.tsCntLimit) :
    turn i n s = (notify i (s.setFld (.tsCnt i) F.tsCntValue
      (min (s.fld (.tsCnt i) F.tsCntValue + n) (s.fld (.tsCnt i) F.tsCntLimit))),
      BitVec.ofNat 64 (s.fld (.tsCnt i) F.tsCntValue)) := (if_neg hn).trans (if_neg (Nat.not_le.mpr h))

theorem exhausted_counts :
    let t := s.bump (.tsNotify i) F.tsNotifyExhausted 1
    s.OnlyRegs t [.tsNotify i] ∧
    t.fld (.tsNotify i) F.tsNotifyExhausted = min (s.fld (.tsNotify i) F.tsNotifyExhausted + 1) (2 ^ 32 - 1) ∧
    t.bit (.tsNotify i) F.tsNotifyArm = s.bit (.tsNotify i) F.tsNotifyArm := by
  refine ⟨onlyRegs_bump (onlyRegs_refl ..) (by simp), ?_, ?_⟩
  · rw [State.bump, State.fld_setFld_same _ _ _ _ (by decide)]
    exact Nat.mod_eq_of_lt (lt_of_le_of_lt (Nat.min_le_right ..) (by decide))
  · rw [State.bit, State.bump, State.fld_setFld_disjoint _ _ _ _ _ (by decide) (by decide) (by decide), State.bit]

end

/-! ### Writes of TS_CNT and TS_NOTIFY (R254) -/

section
variable {s : State} {i : TurnId} (v : Nat)

theorem tsCntWrite_leaves :
    (tsCntWrite i v s).badCtl (.tsCnt i) = false ∧
    s.TurnstileLeft i (F.tsCntValue.of v) (F.tsCntLimit.of v) (s.bit (.tsNotify i) F.tsNotifyArm)
      (s.fld (.tsNotify i) F.tsNotifyCore) (s.fld (.tsNotify i) F.tsNotifyEvent) (tsCntWrite i v s) ∧
    (tsCntWrite i v s).fld (.tsNotify i) F.tsNotifyExhausted = s.fld (.tsNotify i) F.tsNotifyExhausted := by
  let u := (s.ctlWritten (.tsCnt i)).plainWrite (.tsCnt i) v
  have h := turnstileLeft_notify (s := s) (i := i) (u := u) rfl
    (regsBut_setWord (regsBut_of_regs_eq (s := s) (t := s.ctlWritten (.tsCnt i)) rfl) (by simp))
  have hfld {f : FldSpec} (hf : f ∈ regFields (.tsCnt i)) (hrw : f.acc = .rw) : u.fld (.tsCnt i) f.fld = f.fld.of v := by
    rw [State.fld_plainWrite _ _ _ hf, Acc.after_rw hrw]
  have hvalue : u.fld (.tsCnt i) F.tsCntValue = F.tsCntValue.of v := hfld (f := ⟨F.tsCntValue, .rw, 0⟩) (by simp [regFields]) rfl
  have hlimit : u.fld (.tsCnt i) F.tsCntLimit = F.tsCntLimit.of v := hfld (f := ⟨F.tsCntLimit, .rw, 0⟩) (by simp [regFields]) rfl
  have hnotify (f : Fld) : u.fld (.tsNotify i) f = s.fld (.tsNotify i) f :=
    State.fld_setWord_other _ _ _ tsCnt_ne_tsNotify.symm
  simp only [hvalue, hlimit, hnotify, State.bit] at h
  refine ⟨?_, h, exhausted_notify.trans (hnotify _)⟩
  have hparity : (notify i u).parity = u.parity := by
    rw [notify_eq]
    split <;> rfl
  show (notify i u).badCtl (.tsCnt i) = false
  rw [State.badCtl, hparity]
  simp [u, State.ctlWritten]

theorem tsNotifyWrite_leaves :
    s.TurnstileLeft i (s.fld (.tsCnt i) F.tsCntValue) (s.fld (.tsCnt i) F.tsCntLimit) (F.tsNotifyArm.of v != 0)
      (F.tsNotifyCore.of v) (F.tsNotifyEvent.of v) (tsNotifyWrite i v s) ∧
    (tsNotifyWrite i v s).fld (.tsNotify i) F.tsNotifyExhausted = s.fld (.tsNotify i) F.tsNotifyExhausted := by
  let u := s.plainWrite (.tsNotify i) v
  have h := turnstileLeft_notify (s := s) (i := i) (u := u) rfl (regsBut_setWord (regsBut_refl _ _) (by simp))
  have hfld {f : FldSpec} (hf : f ∈ regFields (.tsNotify i)) (hrw : f.acc = .rw) :
      u.fld (.tsNotify i) f.fld = f.fld.of v := by
    rw [State.fld_plainWrite _ _ _ hf, Acc.after_rw hrw]
  have harm : u.fld (.tsNotify i) F.tsNotifyArm = F.tsNotifyArm.of v :=
    hfld (f := ⟨F.tsNotifyArm, .rw, 0⟩) (by simp [regFields]) rfl
  have hcore : u.fld (.tsNotify i) F.tsNotifyCore = F.tsNotifyCore.of v :=
    hfld (f := ⟨F.tsNotifyCore, .rw, 0⟩) (by simp [regFields]) rfl
  have hevent : u.fld (.tsNotify i) F.tsNotifyEvent = F.tsNotifyEvent.of v :=
    hfld (f := ⟨F.tsNotifyEvent, .rw, 0⟩) (by simp [regFields]) rfl
  have hcnt (f : Fld) : u.fld (.tsCnt i) f = s.fld (.tsCnt i) f := State.fld_setWord_other _ _ _ tsCnt_ne_tsNotify
  have hkept : u.fld (.tsNotify i) F.tsNotifyExhausted = s.fld (.tsNotify i) F.tsNotifyExhausted :=
    State.fld_plainWrite s (.tsNotify i) v (f := ⟨F.tsNotifyExhausted, .rc, 0⟩) (by simp [regFields])
  simp only [harm, hcore, hevent, hcnt, State.bit] at h
  exact ⟨h, exhausted_notify.trans hkept⟩

end

/-- Settles O5: every change of a turnstile ends with its notify, which signals where an armed VALUE has come to LIMIT. -/
theorem turnstileTurnAddAndNotify : Obligations.TurnstileTurnAddAndNotify := by
  intro s0 s i hs value limit target notified arm core event count
  have hvalue : value s < 2 ^ 32 := State.fld_lt ..
  have hlimit : limit s < 2 ^ 32 := State.fld_lt ..
  refine ⟨fun n _ => ⟨fun hn => ?_, fun hn hfull => ?_, fun hn hroom => ?_, ?_⟩, fun r v hd => ⟨?_, ?_⟩⟩
  · rw [hn]
    exact turn_zero
  · exact ⟨_, turn_exhausted hn hfull, exhausted_counts⟩
  · exact ⟨_, turn_takes hn hroom, turnstileLeft_value (lt_of_le_of_lt (Nat.min_le_right ..) hlimit)⟩
  · exact turnstileLeft_value (Nat.mod_lt _ (by decide))
  · subst hs
    exact ⟨_, answers_run (f := fun s => tsCntWrite i v.toNat s.tsSettle) hd rfl, tsCntWrite_leaves _⟩
  · subst hs
    exact ⟨_, answers_run (f := fun s => tsNotifyWrite i v.toNat s.tsSettle) hd rfl, tsNotifyWrite_leaves _⟩

end Sys2Proof.Machine
end

section
/-! PROOFS. The order of service at the Orangery's control block (O6): which operation is next, and what serving it leaves. -/

namespace Sys2Proof.Machine

/-! ### The operation that is next (R256) -/

/-- The operation waits, and none of its service comes before it. -/
def State.FirstOfService (s : State) (o : TsOp) : Prop :=
  o.res = none ∧ ∀ p ∈ s.tsq, p.res = none → p.kind.cls = o.kind.cls → o.kind.cls ≠ none → o.key s ≤ p.key s

section
variable {s : State} {o : TsOp}

theorem tsFirst_cases (s : State) (a : Option TsOp) (o : TsOp) : tsFirst s a o = some o ∨ tsFirst s a o = a := by
  cases a with
  | none => exact .inl rfl
  | some b =>
    unfold tsFirst
    dsimp only
    split
    · exact .inl rfl
    · exact .inr rfl

/-- The earliest of some operations is one of them. -/
theorem mem_of_tsFirst {l : List TsOp} {a : Option TsOp} (h : l.foldl (tsFirst s) a = some o) : o ∈ l ∨ a = some o := by
  induction l generalizing a with
  | nil => exact .inr h
  | cons p l ih =>
    rcases ih h with hmem | hp
    · exact .inl (List.mem_cons_of_mem p hmem)
    · rcases tsFirst_cases s a p with hq | hq
      · rw [hq] at hp
        exact .inl (Option.some_inj.mp hp ▸ List.mem_cons_self)
      · exact .inr (hq ▸ hp)

theorem nextTs_first (h : nextTs s = some o) : o ∈ s.tsq ∧ s.FirstOfService o := by
  have hmem := (mem_of_tsFirst h).resolve_right (by simp)
  rw [List.mem_filter, Bool.and_eq_true, Option.isNone_iff_eq_none, List.all_eq_true] at hmem
  obtain ⟨hin, hwaits, hfirst⟩ := hmem
  refine ⟨hin, hwaits, fun p hp hnone hcls hsome => Nat.le_of_not_lt fun hlt => ?_⟩
  have hno := hfirst p hp
  simp [hnone, hcls, Option.isSome_iff_ne_none.mpr hsome, hlt] at hno

end

/-! ### Service (R256) -/

section
variable {s : State} {o : TsOp}

theorem tsq_signal (s : State) (n e : Nat) (g : Sig) : (s.signal n e g).tsq = s.tsq := rfl
theorem tsq_notify (i : Nat) (s : State) : (notify i s).tsq = s.tsq := by
  rw [notify_eq]
  split <;> rfl
theorem tsq_turn (i n : Nat) (s : State) : (turn i n s).1.tsq = s.tsq := by
  unfold turn
  dsimp only
  split
  · rfl
  · split
    · rfl
    · exact tsq_notify ..
theorem tsq_ctlFail (s : State) : (ctlFail s).tsq = s.tsq := by
  rw [(ctlFail_raises s).2.1]

/-- An operation on a sound entry does what its kind says, one on an entry that fails its parity fails (R477). -/
theorem tsAct_turn (i n : Nat) (s : State) : let r := tsAct (.turn i n) s
    if s.badCtl (.tsCnt i) then r.1 = ((ctlFail s).free 64).2 else turn i n s = (r.1, r.2) := by
  cases h : s.badCtl (.tsCnt i) <;> simp [tsAct, TsKind.reg, h]
theorem tsAct_add (i n : Nat) (s : State) : let r := tsAct (.add i n) s
    if s.badCtl (.tsCnt i) then r.1 = ((ctlFail s).free 64).2 else turnAdd i n s = r.1 := by
  cases h : s.badCtl (.tsCnt i) <;> simp [tsAct, TsKind.reg, h]

theorem tsq_tsAct_turn (i n : Nat) (s : State) : (tsAct (.turn i n) s).1.tsq = s.tsq := by
  have h := tsAct_turn i n s
  dsimp only at h
  split at h
  · rw [h]
    exact tsq_ctlFail s
  · rw [← congrArg Prod.fst h, tsq_turn]
theorem tsq_tsAct_add (i n : Nat) (s : State) : (tsAct (.add i n) s).1.tsq = s.tsq := by
  have h := tsAct_add i n s
  dsimp only at h
  split at h
  · rw [h]
    exact tsq_ctlFail s
  · rw [← h]
    exact tsq_notify ..

/-- The state in the cycle in which an operation is served. -/
def State.atTurn (s : State) (o : TsOp) : State := { s with now := s.turnAt o * fabTicks }

/-- What stays of the queue when an operation has been served with a result. -/
def servedQueue (s : State) (o : TsOp) (l : List TsOp) (w : Word) : List TsOp :=
  if o.req < 37 then l.modify (l.idxOf o) fun p => { p with res := some w, svc := s.turnAt o } else l.erase o

theorem serveTs_eq {c : Nat} (hc : o.kind.cls = some c) : serveTs o s =
    let r := tsAct o.kind (s.atTurn o)
    { r.1 with now := max s.now r.1.now, tsFree := tabSet r.1.tsFree c (s.turnAt o + 1),
               tsq := servedQueue s o r.1.tsq r.2 } := by
  rw [serveTs, hc]
  rfl

/-- What a served operation leaves beside its effect: its service is taken in this cycle, and its result is noted. -/
theorem served_leaves {c : Nat} (hc : o.kind.cls = some c) (hq : (tsAct o.kind (s.atTurn o)).1.tsq = s.tsq) (k : Nat) :
    let r := tsAct o.kind (s.atTurn o)
    let t := (serveTs o s).advance k
    t = { r.1 with tsq := t.tsq, tsFree := t.tsFree, now := t.now } ∧ tabGet 0 t.tsFree c = s.turnAt o + 1 ∧
    (o.req < 37 → t.tsq = s.tsq.modify (s.tsq.idxOf o) fun p => { p with res := some r.2, svc := s.turnAt o }) ∧
    (37 ≤ o.req → t.tsq = s.tsq.erase o) := by
  rw [serveTs_eq hc, ← hq]
  exact ⟨rfl, tabGet_set_same .., fun h => if_pos h, fun h => if_neg (Nat.not_lt.mpr h)⟩

theorem cls_of_target {k : TsKind} {i : TurnId} (h : k.target = i) :
    (∃ n, k = .turn i n) ∨ ∃ n, k = .add i n := by
  cases k with
  | turn t n => exact .inl ⟨n, by rw [← h]; rfl⟩
  | add t n => exact .inr ⟨n, by rw [← h]; rfl⟩
  | arrive b => exact absurd h (by have := i.isLt; simp only [TsKind.target]; omega)

/-- The turnstile's own operation is next: it is served, and time comes to its cycle. -/
theorem tsDeferred_next {i : TurnId} (h : nextTs s = some o) (hi : o.kind.target = i) :
    tsDeferred i s = (serveTs o s).advance (s.turnAt o * fabTicks) := by
  obtain ⟨hmem, hnone, -⟩ := nextTs_first h
  have hany : (s.tsq.any fun o => o.res.isNone && o.kind.target == i.val) = true :=
    List.any_eq_true.mpr ⟨o, hmem, by simp [hnone, hi]⟩
  obtain ⟨k, hk⟩ := Nat.exists_eq_succ_of_ne_zero (List.length_pos_of_mem hmem).ne'
  rw [tsDeferred, if_pos hany, hk, serveUntil, h]
  simp [hi]

theorem tsDeferred_none {i : TurnId} (h : ∀ o ∈ s.tsq, o.res = none → o.kind.target ≠ i) : tsDeferred i s = s := by
  refine if_neg fun hany => ?_
  obtain ⟨o, ho, hw⟩ := List.any_eq_true.mp hany
  rw [Bool.and_eq_true, Option.isNone_iff_eq_none, beq_iff_eq] at hw
  exact h o ho hw.1 hw.2

end

/-- Settles O6: the control block serves the first operation of its service as its kind says. -/
theorem deferredTurnstileOperationServed : Obligations.DeferredTurnstileOperationServed := by
  intro s i hd
  have hans : Answers (.turnstileDeferredOp i) s (tsDeferred i s) := answers_run hd rfl
  refine ⟨fun h => ?_, fun o h => nextTs_first h, fun o h hi => ⟨_, tsDeferred_next h hi ▸ hans, ?_⟩⟩
  · rwa [tsDeferred_none h] at hans
  refine ⟨le_max_right .., ?_⟩
  rcases cls_of_target hi with ⟨n, hk⟩ | ⟨n, hk⟩
  all_goals refine ⟨(tsAct o.kind (s.atTurn o)).1, (tsAct o.kind (s.atTurn o)).2, fun m hm => ?_, fun m hm => ?_, ?_⟩
  · rw [hm]
    exact tsAct_turn i m (s.atTurn o)
  · cases hk.symm.trans hm
  · exact served_leaves (by rw [hk]; rfl) (by rw [hk]; exact tsq_tsAct_turn ..) _
  · cases hk.symm.trans hm
  · rw [hm]
    exact tsAct_add i m (s.atTurn o)
  · exact served_leaves (by rw [hk]; rfl) (by rw [hk]; exact tsq_tsAct_add ..) _

end Sys2Proof.Machine
end

section
/-! PROOFS. Chip barriers (O7): what a release leaves in the barrier's register, and which waits an abort ends. -/

namespace Sys2Proof.Machine

theorem tabFind_map {α β : Type} (f : Nat → α → β) (t : Tab α) (a : Nat) :
    tabFind (t.map fun p => (p.1, f p.1 p.2)) a = (tabFind t a).map (f a) := by
  induction t with
  | nil => rfl
  | cons p t ih =>
    obtain ⟨k, v⟩ := p
    simp only [List.map_cons, tabFind]
    split
    · next h => rw [h, Option.map_some]
    · exact ih

/-! ### The barrier's register (R257, R258) -/

section
variable {s : State} {b : BarId}

theorem badCtl_of_parity_eq {t : State} (h : t.parity = s.parity) (r : Reg) : t.badCtl r = s.badCtl r := by
  rw [State.badCtl, h, State.badCtl]

/-- A release advances GEN, zeroes ARRIVED and keeps COUNT. -/
theorem barRelease_leaves : let t := barRelease b s
    s.OnlyRegs t [.barState b] ∧
    t.fld (.barState b) F.barStateGen = (s.fld (.barState b) F.barStateGen + 1) % 2 ^ 32 ∧
    t.fld (.barState b) F.barStateArrived = 0 ∧
    t.fld (.barState b) F.barStateCount = s.fld (.barState b) F.barStateCount := by
  refine ⟨onlyRegs_setFld (onlyRegs_setFld (onlyRegs_refl s _) (by simp)) (by simp), ?_, ?_, ?_⟩
  · rw [barRelease, State.fld_setFld_disjoint _ _ _ _ _ (by decide) (by decide) (by decide),
      State.fld_setFld_same _ _ _ _ (by decide)]
    rfl
  · rw [barRelease, State.fld_setFld_same _ _ _ _ (by decide), Nat.zero_mod]
  · rw [barRelease, State.fld_setFld_disjoint _ _ _ _ _ (by decide) (by decide) (by decide),
      State.fld_setFld_disjoint _ _ _ _ _ (by decide) (by decide) (by decide)]

theorem parity_barRelease : (barRelease b s).parity = s.parity := by
  rw [barRelease, State.setFld_parity, State.setFld_parity]

/-- A write of BAR_STATE as it stands in the register: COUNT is stored, and GEN and ARRIVED are not written. -/
theorem barCount_stored (v : Nat) : let t := (s.ctlWritten (.barState b)).plainWrite (.barState b) v
    t.fld (.barState b) F.barStateGen = s.fld (.barState b) F.barStateGen ∧
    t.fld (.barState b) F.barStateArrived = s.fld (.barState b) F.barStateArrived ∧
    t.fld (.barState b) F.barStateCount = F.barStateCount.of v := by
  have hkept {f : FldSpec} (hf : f ∈ regFields (.barState b)) (hro : f.acc.writable = false) :
      ((s.ctlWritten (.barState b)).plainWrite (.barState b) v).fld (.barState b) f.fld = s.fld (.barState b) f.fld := by
    rw [State.fld_plainWrite _ _ _ hf, Acc.after_of_not_writable hro]
    exact fld_of_regs_eq rfl ..
  refine ⟨hkept (f := ⟨F.barStateGen, .ro, 0⟩) (by simp [regFields]) rfl,
    hkept (f := ⟨F.barStateArrived, .ro, 0⟩) (by simp [regFields]) rfl, ?_⟩
  exact (State.fld_plainWrite _ _ v (f := ⟨F.barStateCount, .rw, 0⟩) (by simp [regFields])).trans (Acc.after_rw rfl ..)

theorem barCountWrite_leaves (v : Nat) : let t := barCountWrite b v s
    let arrived := s.fld (.barState b) F.barStateArrived
    s.RegsBut t [.barState b] ∧ t = { s with regs := t.regs, parity := t.parity } ∧ t.badCtl (.barState b) = false ∧
    t.fld (.barState b) F.barStateCount = F.barStateCount.of v ∧
    if arrived ≠ 0 ∧ F.barStateCount.of v ≤ arrived then
      t.fld (.barState b) F.barStateGen = (s.fld (.barState b) F.barStateGen + 1) % 2 ^ 32 ∧
      t.fld (.barState b) F.barStateArrived = 0
    else t.fld (.barState b) F.barStateGen = s.fld (.barState b) F.barStateGen ∧
      t.fld (.barState b) F.barStateArrived = arrived := by
  obtain ⟨hgen, harrived, hcount⟩ := barCount_stored (s := s) (b := b) v
  have hregs : s.RegsBut ((s.ctlWritten (.barState b)).plainWrite (.barState b) v) [.barState b] :=
    regsBut_setWord (regsBut_of_regs_eq rfl) (by simp)
  have hvalid : ((s.ctlWritten (.barState b)).plainWrite (.barState b) v).badCtl (.barState b) = false := by
    simp [State.badCtl, State.ctlWritten]
  have hrest : (s.ctlWritten (.barState b)).plainWrite (.barState b) v = { s with
      regs := ((s.ctlWritten (.barState b)).plainWrite (.barState b) v).regs
      parity := ((s.ctlWritten (.barState b)).plainWrite (.barState b) v).parity } := rfl
  unfold barCountWrite
  dsimp only
  rw [harrived, hcount]
  generalize (s.ctlWritten (.barState b)).plainWrite (.barState b) v = u at *
  split
  · obtain ⟨⟨hbut, honly⟩, hgen', harrived', hcount'⟩ := barRelease_leaves (s := u) (b := b)
    refine ⟨regsBut_trans hregs hbut, by rw [honly, hrest],
      (badCtl_of_parity_eq parity_barRelease _).trans hvalid, hcount'.trans hcount, hgen'.trans (by rw [hgen]), harrived'⟩
  · exact ⟨hregs, hrest, hvalid, hcount, hgen, harrived⟩

end

/-! ### Waits ended by an abort (R257) -/

section
variable {s : State} {b : BarId}

/-- The waits of a core after an abort. -/
def State.abortedWaits (s : State) (b n : Nat) (ws : Tab Wait) : Tab Wait :=
  let g := s.fld (.barState b) F.barStateGen
  ws.map fun w => (w.1, abortWait s b g (s.hasJoined n b g) w.2)

theorem core_barAbort (n : Nat) :
    (barAbort b s).core n = { s.core n with waits := s.abortedWaits b n (s.core n).waits } := by
  have hcores := tabFind_map (fun n (c : Core) => { c with waits := s.abortedWaits b n c.waits }) s.cores n
  rw [State.core, tabGet, State.core, tabGet]
  refine (congrArg (fun c => Option.getD c {}) hcores).trans ?_
  cases tabFind s.cores n <;> rfl

theorem tabFind_abortedWaits {n c : Nat} {ws : Tab Wait} {w : Wait} (h : tabFind ws c = some w) :
    tabFind (s.abortedWaits b n ws) c = some (abortWait s b (s.fld (.barState b) F.barStateGen)
      (s.hasJoined n b (s.fld (.barState b) F.barStateGen)) w) := by
  rw [State.abortedWaits, tabFind_map fun _ w => abortWait s b _ _ w, h, Option.map_some]

variable {g : Nat} {joined : Bool} {w : Wait}

theorem abortWait_barrier {g' : Nat} {x : Bool} (h : w.kind = .barrier b g' x) :
    abortWait s b g joined w = if barPast s b g' then w else { w with kind := .barrier b g' true } := by
  cases hp : barPast s b g' <;> simp [abortWait, h, hp]

theorem abortWait_joining (h : w.kind = .joining b) :
    abortWait s b g joined w = if joined then { w with kind := .barrier b g true } else w := by
  rw [abortWait, h]
  simp

theorem abortWait_other (hb : ∀ g' x, w.kind ≠ .barrier b g' x) (hj : w.kind ≠ .joining b) :
    abortWait s b g joined w = w := by
  unfold abortWait
  split
  · next b' g' x hk => exact if_neg fun ⟨he, _⟩ => hb g' x (he ▸ hk)
  · next b' hk => exact if_neg fun ⟨he, _⟩ => hj (he ▸ hk)
  · rfl

end

/-- Settles O7: a release is one write of the barrier's register, and an abort ends the waits that it names. -/
theorem chipBarrierCountAbortAndReset : Obligations.ChipBarrierCountAbortAndReset := by
  intro s0 s b hd hs gen arrived count
  subst hs
  refine ⟨fun v => ⟨_, answers_run (f := fun s => barCountWrite b v.toNat s.tsSettle) hd rfl, barCountWrite_leaves _⟩,
    ⟨_, answers_run (f := fun s => barAbort b s.tsSettle) hd rfl, ?_⟩,
    ⟨_, answers_run (f := fun s => barReset b s.tsSettle) hd rfl, ?_⟩⟩
  · generalize s0.tsSettle = s at *
    obtain ⟨⟨hbut, -⟩, hgen, harrived, hcount⟩ := barRelease_leaves (s := { s with cores := (barAbort b s).cores }) (b := b)
    refine ⟨hbut, rfl, hgen, harrived, hcount, fun n => ?_⟩
    rw [core_barAbort]
    refine ⟨rfl, by rw [State.abortedWaits, List.map_map]; rfl, fun c w hw => ?_⟩
    rw [tabFind_abortedWaits hw]
    exact ⟨fun g x hk => congrArg some (abortWait_barrier hk), fun hk => congrArg some (abortWait_joining hk),
      fun hb hj => congrArg some (abortWait_other hb hj)⟩
  · refine ⟨onlyRegs_setFld (onlyRegs_refl _ _) (by simp), ?_, ?_, ?_⟩
    · exact State.fld_setFld_disjoint _ _ _ _ _ (by decide) (by decide) (by decide)
    · exact (State.fld_setFld_same _ _ _ _ (by decide)).trans (Nat.zero_mod _)
    · exact State.fld_setFld_disjoint _ _ _ _ _ (by decide) (by decide) (by decide)

end Sys2Proof.Machine
end

section
/-! PROOFS. Bytes written unit by unit to the SRAMs, and reads and writes of the Orangery (O8): a write leaves its bytes and
poisons the units that it touches, a read tells nothing but what units that fail their parity make known. -/

namespace Sys2Proof.Machine

/-! ### Bytes written unit by unit (R201, R252) -/

theorem memWrite_append (m : List Host.Cell) (a : Nat) (xs ys : List Byte) :
    memWrite m a (xs ++ ys) = memWrite (memWrite m a xs) (a + xs.length) ys := by
  induction xs generalizing m a with
  | nil => rfl
  | cons x xs ih =>
    rw [List.cons_append, memWrite, ih, memWrite, List.length_cons, Nat.add_assoc, Nat.add_comm 1]

/-- What is past a piece is written where the piece ends. -/
theorem memWrite_take_drop (m : List Host.Cell) (a k : Nat) (bs : List Byte) :
    memWrite (memWrite m a (bs.take k)) (a + k) (bs.drop k) = memWrite m a bs := by
  by_cases h : k ≤ bs.length
  · conv_rhs => rw [← List.take_append_drop k bs, memWrite_append, List.length_take_of_le h]
  · rw [List.drop_of_length_le (by omega), List.take_of_length_le (by omega)]
    rfl

/-- An address of the on-die memories, whose poison is a bit of each unit (R252). -/
abbrev sramAddr (a : Nat) : Prop := 0x020000000000 ≤ a

theorem canon_sram {a : Nat} (h : sramAddr a) : canon a = a := canon_device (Nat.le_trans (by decide) h)

/-- From s to t bytes of the on-die memories and their poison differ, and nothing else. -/
def State.SramOnly (s t : State) : Prop :=
  t = { s with mem := t.mem, sramPoison := t.sramPoison, parity := t.parity }

section
variable {s t u : State} {da a : Nat}

theorem sramOnly_refl (s : State) : s.SramOnly s := rfl
theorem sramOnly_trans (h : s.SramOnly t) (k : t.SramOnly u) : s.SramOnly u := by
  unfold State.SramOnly at h k ⊢
  rw [k, h]

theorem wrPieces_cons (bs : List Byte) (p : Bool) (ps : List Bool) (s : State) :
    wrPieces da bs (p :: ps) s =
      wrPieces (da + (64 - da % 64)) (bs.drop (64 - da % 64)) ps (s.wrPart da (bs.take (64 - da % 64)) p) := by
  cases ps with
  | nil => simp only [wrPieces]
  | cons q qs => simp only [wrPieces]

theorem mem_wrPart (bs : List Byte) (p : Bool) : (s.wrPart da bs p).mem = memWrite s.mem (canon da) bs := by
  unfold State.wrPart
  dsimp only
  split
  · exact mem_setPoison ..
  · split
    · exact mem_setPoison ..
    · rfl

section
variable (h : sramAddr da)
include h

theorem isStack_sram : isStack da = false := decide_eq_false (Nat.not_lt.mpr h)

theorem setPoison_sram (s : State) (p : Bool) : s.setPoison da p = { s with
    sramPoison := if p then tabSet s.sramPoison (da / 64) true else tabDel s.sramPoison (da / 64)
    parity := { s.parity with units := s.parity.units.filter (· != da / 64) } } := by
  simp only [State.setPoison, isStack_sram h, canon_sram h, Bool.false_eq_true, if_false]

theorem poisoned_sram (s : State) :
    s.poisoned da = (tabGet false s.sramPoison (da / 64) || s.parity.units.contains (da / 64)) := by
  simp only [State.poisoned, isStack_sram h, canon_sram h, Bool.false_eq_true, if_false]

/-- Poisoning a unit leaves the poison of every other. -/
theorem poisoned_setPoison (ha : sramAddr a) :
    (s.setPoison da true).poisoned a = (decide (a / 64 = da / 64) || s.poisoned a) := by
  rw [setPoison_sram h, poisoned_sram ha, poisoned_sram ha]
  by_cases hu : a / 64 = da / 64
  · simp [hu]
  · rw [if_pos rfl, tabGet_set_other _ _ _ hu, decide_eq_false hu, Bool.false_or]
    congr 1
    rw [Bool.eq_iff_iff, List.contains_iff_mem, List.contains_iff_mem]
    simp [hu]

theorem sramOnly_wrPart (s : State) (bs : List Byte) (p : Bool) : s.SramOnly (s.wrPart da bs p) := by
  unfold State.wrPart
  simp only [setPoison_sram h]
  split
  · rfl
  · split <;> rfl

theorem sramOnly_wrPieces (bs : List Byte) (ps : List Bool) (s : State) : s.SramOnly (wrPieces da bs ps s) := by
  induction ps generalizing da bs s with
  | nil => rw [wrPieces]; exact sramOnly_refl s
  | cons p ps ih =>
    rw [wrPieces_cons]
    exact sramOnly_trans (sramOnly_wrPart h s _ p) (ih (Nat.le_add_right_of_le h) ..)

/-- Pieces for every unit that the bytes touch write them all. -/
theorem mem_wrPieces (bs : List Byte) (ps : List Bool) (s : State) (hps : da % 64 + bs.length ≤ 64 * ps.length) :
    (wrPieces da bs ps s).mem = memWrite s.mem da bs := by
  induction ps generalizing da bs s with
  | nil =>
    rw [List.length_nil] at hps
    rw [List.length_eq_zero_iff.mp (show bs.length = 0 by omega), wrPieces]
    rfl
  | cons p ps ih =>
    rw [List.length_cons] at hps
    rw [wrPieces_cons, ih (Nat.le_add_right_of_le h) _ _ (by rw [List.length_drop]; omega), mem_wrPart, canon_sram h,
      memWrite_take_drop]

theorem poisoned_wrPieces (ha : sramAddr a) (bs : List Byte) (k : Nat) (s : State) (hin : s.poisoned a = true ∨
      (da ≤ a ∧ a < da / 64 * 64 + 64 * k)) : (wrPieces da bs (List.replicate k true) s).poisoned a = true := by
  induction k generalizing da bs s with
  | zero => 
    rw [List.replicate_zero, wrPieces]
    exact hin.resolve_right (by omega)
  | succ k ih =>
    rw [List.replicate_succ, wrPieces_cons]
    refine ih (Nat.le_add_right_of_le h) _ _ ?_
    have hpart : (s.wrPart da (bs.take (64 - da % 64)) true).poisoned a = (decide (a / 64 = da / 64) || s.poisoned a) :=
      poisoned_setPoison h ha
    rw [hpart, Bool.or_eq_true, decide_eq_true_eq]
    rcases hin with hp | hin
    · exact .inl (.inr hp)
    · by_cases hu : a / 64 = da / 64
      · exact .inl (.inl hu)
      · exact .inr (by omega)

end

/-- A write of bytes, with a piece for each unit that they touch: the bytes are there, every other byte is as it was,
and with poison every unit that they touch is poisoned. -/
theorem wrPieces_leaves (h : sramAddr da) (bs : List Byte) (p : Bool) (s : State) :
    let t := wrPieces da bs (List.replicate (ceilDiv (da % 64 + bs.length) 64) p) s
    s.SramOnly t ∧ memRead t.mem da bs.length = bs ∧ s.MemBut t [(da, bs.length)] ∧
    (p = true → ∀ a, da ≤ a → a < da + bs.length → t.poisoned a = true) := by
  have hmem := mem_wrPieces h bs (List.replicate (ceilDiv (da % 64 + bs.length) 64) p) s
    (by rw [List.length_replicate, ceilDiv]; omega)
  refine ⟨sramOnly_wrPieces h .., ?_, fun a ha => ?_, ?_⟩
  · rw [hmem, memRead_write]
  · rw [hmem]
    exact memByte_write_other _ _ _ _ (ha _ (List.mem_singleton_self _))
  · rintro rfl a hlo hhi
    exact poisoned_wrPieces h (Nat.le_trans h hlo) _ _ _ (.inr ⟨hlo, by rw [ceilDiv]; omega⟩)

end

/-! ### The Orangery (R250-R252) -/

section
variable {s : State} {off : Nat}

theorem sram_orangery (off : Nat) : sramAddr (orgBase + off) := Nat.le_add_right ..

theorem placeOf_orangery (h : off < 0x10000000) : placeOf (orgBase + off) = .orangery off := by
  have hbase : orgBase = 0x020000000000 := rfl
  rw [placeOf, if_neg (by omega), if_neg (by omega), if_pos (by omega), Nat.add_sub_cancel_left]

/-- Units of the Orangery whose parity holds tell nothing as they are read. -/
theorem senseN_orangery (k : Nat) (ho : off % 64 = 0) (hin : off + 64 * k ≤ 0x10000000)
    (hu : ∀ u ∈ s.parity.units, u * 64 + 64 ≤ orgBase + off ∨ orgBase + off + 64 * k ≤ u * 64) :
    (s.senseN (orgBase + off) k).2 = s := by
  induction k generalizing off with
  | zero => rfl
  | succ k ih =>
    have hplace : ∀ j o, placeOf (orgBase + off) ≠ .stack j o := by
      rw [placeOf_orangery (by omega)]
      simp
    have hgood : (orgBase + off) / 64 ∉ s.parity.units := fun hmem => by
      have := hu _ hmem
      unfold orgBase at this
      omega
    have hrest := ih (off := off + 64) (by omega) (by omega) fun u hmem => by have := hu u hmem; omega
    rw [← Nat.add_assoc] at hrest
    rw [State.senseN, sense_not_stack (by unfold orgBase; omega) hplace hgood]
    exact hrest

theorem orangeryAccess_write (data : List Byte) (len : Nat) (p : Bool) (h : off + data.length ≤ 0x10000000) :
    orangeryAccess off len data true p s =
      wrPieces (orgBase + off) data (List.replicate (ceilDiv ((orgBase + off) % 64 + data.length) 64) p) s := by
  have hmod : (orgBase + off) % 64 = off % 64 := by unfold orgBase; omega
  rw [hmod]
  exact (if_neg (Nat.not_lt.mpr h)).trans (if_pos rfl)

theorem orangeryAccess_read (data : List Byte) {len : Nat} (p : Bool) (h : off + len ≤ 0x10000000) :
    orangeryAccess off len data false p s =
      { (s.senseN (orgBase + off / 64 * 64) (if len = 0 then 0 else ceilDiv (off % 64 + len) 64)).2 with
        reply := some ⟨s.rdN (orgBase + off) len, b2n (s.anyPoison (orgBase + off) len) * 3⟩ } :=
  (if_neg (Nat.not_lt.mpr h)).trans (if_neg (by simp))

theorem orangeryAccess_past (data : List Byte) {len : Nat} {w p : Bool}
    (h : 0x10000000 < off + (if w then data.length else len)) : orangeryAccess off len data w p s =
      s.raise { src := srcOf 6 (orgSlice off) 0, code := ecDescRange, addr := orgBase + off } := if_pos h

end

/-- Settles O8: a write of the Orangery is one of its pieces, a read answers the bytes and tells what fails its parity. -/
theorem orangeryAccessReadsAndWrites : Obligations.OrangeryAccessReadsAndWrites := by
  intro s r off len data poison hd
  have hans : ∀ w, Answers (.orangeryAccess r off len data w poison) s (orangeryAccess off len data w poison s) :=
    fun _ => answers_run hd rfl
  refine ⟨fun h => ⟨_, hans true, ?_⟩, fun h => ⟨_, hans false, ?_⟩, fun w h => orangeryAccess_past data h ▸ hans w⟩
  · rw [orangeryAccess_write data len poison h]
    obtain ⟨honly, hread, hbut, hpoison⟩ := wrPieces_leaves (sram_orangery off) data poison s
    exact ⟨honly, hread, hbut, fun hp a hlo hhi => hpoison hp _ (by omega) (by omega)⟩
  · rw [orangeryAccess_read data poison h]
    refine ⟨rfl, fun hunits => ?_, _, rfl, ?_, ?_⟩
    · rw [senseN_orangery _ (by omega) (by unfold ceilDiv; split <;> omega) fun u hu => ?_]
      have := hunits u hu
      have hbase : orgBase % 64 = 0 := rfl
      unfold ceilDiv
      split <;> omega
    · show leNat (s.rd (orgBase + off) len) = _
      rw [State.rd, canon_sram (sram_orangery off)]
    · cases s.anyPoison (orgBase + off) len <;> rfl

end Sys2Proof.Machine
end

section
/-! PROOFS. Background accesses to core memory, the conflict log and the sampling of the mode (O24). -/

namespace Sys2Proof.Machine

/-! ### Places of a core's slot (R235) -/

section
variable {s : State} {n : CoreId} {off : Nat}

theorem sram_core (n off : Nat) : sramAddr (coreBase n + off) := by
  unfold sramAddr coreBase
  omega

theorem placeOf_cm (h : off < cmSize) : placeOf (coreBase n + off) = .cm n off := by
  have hn := n.isLt
  have hcm : cmSize = 0x600000 := rfl
  have hbase : coreBase n + off = 0x020100000000 + (n * 0x1000000 + off) := by rw [coreBase, Nat.add_assoc]
  have ho : (n * 0x1000000 + off) % 0x1000000 = off := by omega
  have hc : (n * 0x1000000 + off) / 0x1000000 = n := by omega
  rw [placeOf, if_neg (by omega), if_neg (by omega), if_neg (by omega), if_neg (by omega), if_pos (by omega)]
  simp only [hbase, Nat.add_sub_cancel_left, ho, hc, if_pos h]

/-- The debug view serves nothing of core memory. -/
theorem viewServes_cm (h : off ≤ cmSize) (len : Nat) : viewServes s (coreBase n + off) len = false := by
  rcases Nat.lt_or_eq_of_le h with h | rfl
  · rw [viewServes, placeOf_cm h]
  · have hend : placeOf (coreBase n + cmSize) = .hole := by
      revert n
      decide
    rw [viewServes, hend]

end

/-! ### Cycles of core memory that are taken (R240) -/

/-- From s to t core n has noted or forgotten cycles that background accesses took, and nothing else has changed. -/
def State.UsedOnly (s t : State) (n : Nat) : Prop :=
  t = { s with cores := t.cores } ∧ t.core n = { s.core n with bgUsed := (t.core n).bgUsed } ∧ ∀ m, m ≠ n → t.core m = s.core m

section
variable {s t u : State} {n : Nat}

theorem State.core_modCore_other {m : Nat} (h : m ≠ n) (f : Core → Core) : (s.modCore n f).core m = s.core m :=
  tabGet_set_other _ _ _ h

theorem usedOnly_trans (h : s.UsedOnly t n) (k : t.UsedOnly u n) : s.UsedOnly u n := by
  obtain ⟨h1, h2, h3⟩ := h
  obtain ⟨k1, k2, k3⟩ := k
  exact ⟨by rw [k1, h1], by rw [k2, h2], fun m hm => (k3 m hm).trans (h3 m hm)⟩

theorem usedOnly_modCore (f : List Sched → List Sched) :
    s.UsedOnly (s.modCore n fun c => { c with bgUsed := f c.bgUsed }) n :=
  ⟨rfl, by rw [State.core_modCore_same], fun _ hm => State.core_modCore_other hm _⟩

theorem UsedOnly.regs (h : s.UsedOnly t n) : t.regs = s.regs := by rw [h.1]
theorem UsedOnly.hif (h : s.UsedOnly t n) : t.hif = s.hif := by rw [h.1]
theorem UsedOnly.cyc (h : s.UsedOnly t n) : t.cyc n = s.cyc n := by
  rw [State.cyc, State.cyc, State.div, State.div, fld_of_regs_eq (UsedOnly.regs h), h.2.1, h.1]

theorem vmode_of_regs_eq (h : t.regs = s.regs) : t.vmode n = s.vmode n := by
  rw [State.vmode, State.bit, fld_of_regs_eq h, State.vmode, State.bit]

/-- The cycles taken before the present one are forgotten, and no others. -/
theorem bgTidy_leaves (s : State) (n : Nat) : s.UsedOnly (bgTidy n s) n ∧
    ((bgTidy n s).core n).bgUsed = (s.core n).bgUsed.filter fun a => decide (s.cyc n ≤ a.cyc) := by
  unfold bgTidy State.doIf
  dsimp only
  split
  · exact ⟨usedOnly_modCore fun l => l.filter fun a => decide (s.cyc n ≤ a.cyc), by rw [State.core_modCore_same]⟩
  · next h =>
    refine ⟨⟨rfl, rfl, fun _ _ => rfl⟩, (List.filter_eq_self.mpr fun a ha => ?_).symm⟩
    simp only [List.any_eq_true, decide_eq_true_eq, not_exists, not_and, Nat.not_lt] at h
    exact decide_eq_true (h a ha)

/-- The cycle of a background access is marked. -/
theorem usedOnly_marked (b : BgAcc) : s.UsedOnly (bgMark n b.req b.off b.size (s.cyc n) b.write (bgTidy n s)) n :=
  usedOnly_trans (bgTidy_leaves s n).1 (usedOnly_modCore fun l => l ++ [bgUse b.req b.off b.size (s.cyc n) b.write])

/-- A cycle that is forgotten is no cycle of the present. -/
theorem bankTaken_tidy (off len : Nat) :
    bankTaken ((bgTidy n s).core n).accesses (s.cyc n) off len = bankTaken (s.core n).accesses (s.cyc n) off len := by
  obtain ⟨⟨-, hcore, -⟩, hused⟩ := bgTidy_leaves s n
  rw [Core.accesses, hused, hcore, Core.accesses, bankTaken, bankTaken, List.any_append, List.any_append, List.any_filter]
  congr 1
  congr 1
  funext a
  by_cases h : a.cyc = s.cyc n
  · simp [h]
  · simp [h]

end

/-! ### An access arrives in service mode (R240) -/

/-- Nothing of the present cycle, and no waiting access, needs a sub-bank of a range. -/
def State.BanksClear (s : State) (n off len : Nat) : Prop :=
  bankTaken (s.core n).accesses (s.cyc n) off len = false ∧
  ∀ b ∈ (s.core n).bg, ∀ x ∈ banksOf b.off b.size, x ∉ banksOf off len

section
variable {s : State} {n : Nat} (hv : s.vmode n = false)
include hv

theorem bgShadow_service (req id last : Nat) (us : List Nat) (w : Bool) : bgShadow n req id last us w s = (s, false) := by
  simp [bgShadow, hv]
theorem shadowDone_service (id : Nat) (w : Bool) (t : Nat) : s.shadowDone n id w t = s := by
  simp [State.shadowDone, hv]

theorem bgArrive_clear {b : BgAcc} (h : s.BanksClear n b.off b.size) :
    bgArrive n b s = (bgPerform n b (bgMark n b.req b.off b.size (s.cyc n) b.write (bgTidy n s)), false) := by
  obtain ⟨htidy, -⟩ := bgTidy_leaves s n
  have hbg : ((bgTidy n s).core n).bg = (s.core n).bg := by rw [htidy.2.1]
  have hfree : ((s.core n).bg.any fun w => (banksOf w.off w.size).any fun x => (banksOf b.off b.size).contains x) = false := by
    simpa using h.2
  simp only [bgArrive, bgShadow_service hv, Bool.false_eq_true, if_false, hbg, hfree, UsedOnly.cyc htidy, bankTaken_tidy, h.1,
    Bool.or_false]
  rw [shadowDone_service]
  rw [vmode_of_regs_eq (s := s)]
  · exact hv
  · exact (Lands.regs (lands_bgPerform n b _)).trans (UsedOnly.regs (usedOnly_marked b))

theorem bgArrive_waits {b : BgAcc} (h : ¬ s.BanksClear n b.off b.size) :
    bgArrive n b s = ((bgTidy n s).modCore n fun c => { c with bg := c.bg ++ [b] }, false) := by
  obtain ⟨htidy, -⟩ := bgTidy_leaves s n
  have hbg : ((bgTidy n s).core n).bg = (s.core n).bg := by rw [htidy.2.1]
  have hbusy : (((s.core n).bg.any fun w => (banksOf w.off w.size).any fun x => (banksOf b.off b.size).contains x) ||
      bankTaken (s.core n).accesses (s.cyc n) b.off b.size) = true := by
    by_contra hno
    rw [Bool.not_eq_true, Bool.or_eq_false_iff] at hno
    exact h ⟨hno.2, by simpa using hno.1⟩
  simp only [bgArrive, bgShadow_service hv, Bool.false_eq_true, if_false, hbg, UsedOnly.cyc htidy, bankTaken_tidy, hbusy, if_true]

end

/-! ### BG_ACCESS (R238, R240) -/

/-- The access that a background unit asks for. -/
def bgAsked (s : State) (n : Nat) (u : BgUnit) (off len : Nat) (d : List Byte) (w p : Bool) : BgAcc :=
  ⟨bgReq u, off, d, List.replicate (ceilDiv (off % 64 + if w then d.length else len) 64) p, w, len, s.cyc n, none⟩

section
variable {s : State} {n : CoreId} {u : BgUnit} {off len : Nat} {d : List Byte} {w p : Bool}

theorem sync_of_settled (h : s.Settled n) : s.syncCore n = s := by
  obtain ⟨-, -, -, -, -, hsync, -⟩ := h
  exact hsync
theorem landed_of_settled (h : s.Settled n) : s.landCm n = s := h.1

theorem slotAccess_bg (h : u = .debug → off < 0x1000000 →
      viewServes s (coreBase n + off) (if w then d.length else len) = false) :
    slotAccess n u off len d w p s = bgAccess n u off len d w p s := by
  refine if_neg ?_
  rintro ⟨hu, ho, hview⟩
  rw [h hu ho] at hview
  cases hview

theorem slotAccess_past (hs : s.Settled n) (hpast : cmSize < off + (if w then d.length else len))
    (h : u = .debug → off < 0x1000000 → viewServes s (coreBase n + off) (if w then d.length else len) = false) :
    slotAccess n u off len d w p s = s.raise { src := srcOf 1 n 8, code := ecDescRange, addr := coreBase n + off } := by
  rw [slotAccess_bg h, bgAccess, sync_of_settled hs]
  exact if_pos hpast

theorem slotAccess_within (hs : s.Settled n) (hin : off + (if w then d.length else len) ≤ cmSize) :
    slotAccess n u off len d w p s = (bgArrive n (bgAsked s n u off len d w p) s).1 := by
  rw [slotAccess_bg fun _ _ => viewServes_cm (by omega) _, bgAccess, sync_of_settled hs]
  exact if_neg (Nat.not_lt.mpr hin)

theorem slotAccess_view (hs : s.Settled n) {m o : Nat} (ho : off < 0x1000000)
    (hplace : placeOf (coreBase n + off) = .engine n m o) (hview : viewServes s (coreBase n + off) len = true) :
    slotAccess n .debug off len d false p s = { s with reply := some ⟨leNat (viewRead s n m o len),
      b2n (decide (o < 0x80000) && (List.range (ceilDiv ((coreBase n + off) % 64 + len) 64)).any fun i =>
        s.poisoned (coreBase n + off + 64 * i)) * 3⟩ } := by
  rw [slotAccess, if_pos ⟨rfl, ho, hview⟩, viewAccess, hplace]
  dsimp only
  rw [landed_of_settled hs]
  rfl

theorem cmN_eq (s : State) (n off len : Nat) : s.cmN n off len = leNat (memRead s.mem (coreBase n + off) len) := by
  rw [State.cmN, State.cm, State.rd, canon_sram (sram_core n off)]

end

/-! ### What the commands leave -/

section
variable {s t u : State} {n : CoreId}

/-- Core n aside, which only notes the cycle, a write leaves its bytes and their poison. -/
theorem bgPerform_write (hu : s.UsedOnly u n) {b : BgAcc} {p : Bool} (hw : b.write = true)
    (hps : b.poison = List.replicate (ceilDiv (b.off % 64 + b.data.length) 64) p) (ht : t = bgPerform n b u) :
    (∀ m, m ≠ n.val → t.core m = s.core m) ∧
    t = { s with mem := t.mem, sramPoison := t.sramPoison, parity := t.parity, cores := t.cores } ∧
    t.core n = { s.core n with bgUsed := (t.core n).bgUsed } ∧
    memRead t.mem (coreBase n + b.off) b.data.length = b.data ∧ s.MemBut t [(coreBase n + b.off, b.data.length)] ∧
    (p = true → ∀ a, b.off ≤ a → a < b.off + b.data.length → t.poisoned (coreBase n + a) = true) := by
  have hmod : (coreBase n + b.off) % 64 = b.off % 64 := by unfold coreBase; omega
  obtain ⟨honly, hread, hbut, hpoison⟩ := wrPieces_leaves (sram_core n b.off) b.data p u
  rw [hmod, ← hps] at honly hread hbut hpoison
  rw [bgPerform, if_pos hw] at ht
  rw [← ht] at honly hread hbut hpoison
  obtain ⟨hrest, hcore, hothers⟩ := hu
  have hcores : ∀ m, t.core m = u.core m := fun m => by rw [honly]; rfl
  refine ⟨fun m hm => (hcores m).trans (hothers m hm), by rw [honly, hrest], by rw [hcores, hcore], hread, ?_,
    fun hp a hlo hhi => hpoison hp _ (by omega) (by omega)⟩
  exact memBut_trans (memBut_of_mem_eq (by rw [hrest])) hbut

/-- Core n aside, which only notes the cycle, a read changes the answer alone. -/
theorem bgPerform_read (hu : s.UsedOnly u n) {b : BgAcc} (hw : b.write = false) (ht : t = bgPerform n b u) :
    (∀ m, m ≠ n.val → t.core m = s.core m) ∧ t = { s with reply := t.reply, cores := t.cores } ∧
    t.core n = { s.core n with bgUsed := (t.core n).bgUsed } ∧
    t.reply = some ⟨leNat (memRead s.mem (coreBase n + b.off) b.len), 3 * b2n (s.cmPoison n b.off b.len)⟩ := by
  rw [bgPerform, if_neg (by rw [hw]; simp), cmN_eq] at ht
  obtain ⟨hrest, hcore, hothers⟩ := hu
  have hcores : ∀ m, t.core m = u.core m := fun m => by rw [ht]; rfl
  refine ⟨fun m hm => (hcores m).trans (hothers m hm), by rw [ht, hrest], by rw [hcores, hcore], ?_⟩
  rw [ht, hrest]
  rfl

/-- An access that waits joins the others. -/
theorem bgWaits_leaves (hu : s.UsedOnly u n) {b : BgAcc} (ht : t = u.modCore n fun c => { c with bg := c.bg ++ [b] }) :
    (∀ m, m ≠ n.val → t.core m = s.core m) ∧ t = { s with cores := t.cores } ∧
    t.core n = { s.core n with bgUsed := (t.core n).bgUsed, bg := (s.core n).bg ++ [b] } := by
  obtain ⟨hrest, hcore, hothers⟩ := hu
  subst ht
  refine ⟨fun m hm => (State.core_modCore_other hm _).trans (hothers m hm), ?_, ?_⟩
  · rw [hrest]
    rfl
  · rw [State.core_modCore_same, hcore]

/-- BG_FORCE on a read whose time has come (R240). -/
theorem bgForce_read (hs : s.Settled n) (hv : s.vmode n = false) {b : BgAcc} {rest : List BgAcc}
    (hb : (s.core n).bg = b :: rest) (hw : b.write = false) (hdue : s.cycTime n (b.since + s.waitMax n) ≤ s.now) :
    bgForce n s = bgForced n { s.modCore n (fun c => { c with bg := c.bg.drop 1 }) with
      reply := some ⟨leNat (memRead s.mem (coreBase n + b.off) b.len), 3 * b2n (s.cmPoison n b.off b.len)⟩ } := by
  have hnow : s.toCyc n (b.since + s.waitMax n) = s := by
    rw [State.toCyc, State.advance, max_eq_left hdue]
    exact landed_of_settled hs
  have hperform : bgPerform n b (s.modCore n fun c => { c with bg := c.bg.drop 1 }) =
      { s.modCore n (fun c => { c with bg := c.bg.drop 1 }) with
        reply := some ⟨leNat (memRead s.mem (coreBase n + b.off) b.len), 3 * b2n (s.cmPoison n b.off b.len)⟩ } := by
    rw [bgPerform, if_neg (by rw [hw]; simp), cmN_eq]
    rfl
  rw [bgForce, hb]
  dsimp only
  rw [hnow, if_pos (by rw [hb]; rfl), hperform, shadowDone_service]
  exact (vmode_of_regs_eq (s := s) rfl).trans hv

/-- A forced access stalls the core for one cycle and is counted. -/
theorem bgForced_leaves (s : State) (n : Nat) : let t := bgForced n s
    (t.core n).bg = (s.core n).bg ∧ t.now = s.now + s.div n ∧ t.reply = s.reply ∧
    t.fld (.cmcBgCnt n) F.cmcBgCntForced = min (s.fld (.cmcBgCnt n) F.cmcBgCntForced + 1) F.cmcBgCntForced.top ∧
    s.RegsBut t [.cmcBgCnt n] ∧ t.mem = s.mem ∧ t.hif = s.hif := by
  refine ⟨?_, ?_, rfl, ?_, regsBut_setWord (regsBut_of_regs_eq rfl) (by simp), rfl, rfl⟩
  · rw [bgForced, State.bump, State.core_setFld, State.freeze, State.core_modCore_same]
    rfl
  · show s.now + 1 * s.div n = _
    rw [Nat.one_mul]
  · rw [bgForced, State.bump, State.fld_setFld_same _ _ _ _ (by decide)]
    exact Nat.mod_eq_of_lt (lt_of_le_of_lt (Nat.min_le_right ..) (by decide))

end

/-! ### The conflict log and the mode (R247, R248) -/

section
variable {s : State} {n : CoreId}

theorem cmcConfLog_ne {i j : Nat} (h : i ≠ j) : regAddr (.cmcConfLog n i) ≠ regAddr (.cmcConfLog n j) := by
  simp only [regAddr]
  omega
theorem cmcStatus_ne_cmcConfLog (i : Nat) : regAddr (.cmcStatus n) ≠ regAddr (.cmcConfLog n i) := by
  simp only [regAddr]
  omega

/-- The entries of the log set to 0. -/
def logZeroed (n : Nat) (s : State) : State := (List.range 8).foldl (fun s i => s.setWord (.cmcConfLog n i) 0) s

theorem onlyRegs_logZeroed : s.OnlyRegs (logZeroed n s) ((List.range 8).map (.cmcConfLog n)) :=
  List.foldlRecOn (motive := fun t => s.OnlyRegs t ((List.range 8).map (.cmcConfLog n))) _ _ (onlyRegs_refl s _)
    fun _ ht _ hi => onlyRegs_setWord ht (List.mem_map_of_mem (List.mem_map_of_mem hi))

theorem word_logZeroed {i : Nat} (hi : i < 8) : (logZeroed n s).word (.cmcConfLog n i) = 0 :=
  foldl_establishes (P := fun t : State => t.word (.cmcConfLog n i) = 0) (List.mem_range.mpr hi)
    (fun t => State.word_setWord_same t _ _)
    (fun t _ _ hne ht => (State.word_setWord_other t _ (cmcConfLog_ne (Ne.symm hne))).trans ht) s

theorem logClr_leaves : let t := logClr n s
    s.OnlyRegs t (.cmcStatus n :: (List.range 8).map (.cmcConfLog n)) ∧ t.fld (.cmcStatus n) F.cmcStatusLogged = 0 ∧
    (∀ i < 8, t.word (.cmcConfLog n i) = 0) ∧ t.vmode n = s.vmode n := by
  obtain ⟨hregs, hrest⟩ := onlyRegs_logZeroed (s := s) (n := n)
  refine ⟨onlyRegs_setFld ⟨regsBut_mono hregs (List.subset_cons_self ..), hrest⟩ (by simp),
    (State.fld_setFld_same _ _ _ _ (by decide)).trans (Nat.zero_mod _), fun i hi => ?_, ?_⟩
  · exact (State.word_setWord_other _ _ (cmcStatus_ne_cmcConfLog i).symm).trans (word_logZeroed hi)
  · have hstat : (logZeroed n s).fld (.cmcStatus n) F.cmcStatusVmode = s.fld (.cmcStatus n) F.cmcStatusVmode :=
      RegsBut.fld hregs _ (by simp [fun i => (cmcStatus_ne_cmcConfLog (n := n) i).symm])
    have hkept : (logClr n s).fld (.cmcStatus n) F.cmcStatusVmode = (logZeroed n s).fld (.cmcStatus n) F.cmcStatusVmode :=
      State.fld_setFld_disjoint _ _ _ _ _ (by decide) (by decide) (by decide)
    rw [State.vmode, State.bit, hkept, hstat, State.vmode, State.bit]

theorem modeSample_busy (hs : s.Settled n) (h : s.quiet n = false) : modeSample n s = s := by
  rw [modeSample, landed_of_settled hs, sync_of_settled hs]
  simp only [h, Bool.false_eq_true, if_false]

/-- The core enters validation mode: every unit of its shadow is VALID (R245). -/
def State.enterValid (s : State) (n : Nat) : State :=
  s.doIf (s.wantsValid n = 1 && !s.vmode n) fun s => s.modCore n fun c => { c with valid := true, shadow := [] }

theorem modeSample_quiet (hs : s.Settled n) (h : s.quiet n = true) : modeSample n s =
    ((s.enterValid n).setFld (.cmcStatus n) F.cmcStatusVmode (s.wantsValid n)).setFld (.cmcStatus n) F.cmcStatusPending 0 := by
  rw [modeSample, landed_of_settled hs, sync_of_settled hs]
  exact if_pos h

theorem wantsValid_lt (s : State) (n : Nat) : s.wantsValid n < 2 := by
  rw [State.wantsValid, b2n]
  split <;> decide

theorem modeSample_leaves (hs : s.Settled n) (h : s.quiet n = true) : let t := modeSample n s
    s.RegsBut t [.cmcStatus n] ∧ t = { s with regs := t.regs, cores := t.cores } ∧ t.fld (.cmcStatus n) F.cmcStatusPending = 0 ∧
    (t.vmode n = true ↔ s.wantsValid n = 1) ∧
    (s.wantsValid n = 1 → s.vmode n = false → t.core n = { s.core n with valid := true, shadow := [] }) ∧
    (s.wantsValid n = 0 ∨ s.vmode n = true → t.core n = s.core n) := by
  have hrest : s.enterValid n = { s with cores := (s.enterValid n).cores } := by
    unfold State.enterValid State.doIf
    split <;> rfl
  have hcore : (modeSample n s).core n = (s.enterValid n).core n := by rw [modeSample_quiet hs h]; rfl
  rw [modeSample_quiet hs h] at *
  refine ⟨regsBut_setFld (regsBut_setFld (regsBut_of_regs_eq (by rw [hrest])) (by simp)) (by simp), ?_,
    (State.fld_setFld_same _ _ _ _ (by decide)).trans (Nat.zero_mod _), ?_, fun hw hv => ?_, fun hno => ?_⟩
  · rw [hrest]
    rfl
  · have hlt := wantsValid_lt s n
    rw [State.vmode, State.bit, State.fld_setFld_disjoint _ _ _ _ _ (by decide) (by decide) (by decide),
      State.fld_setFld_same _ _ _ _ (by decide)]
    have hmod : s.wantsValid n % 2 ^ (F.cmcStatusVmode.hi - F.cmcStatusVmode.lo + 1) = s.wantsValid n := Nat.mod_eq_of_lt hlt
    rw [hmod, bne_iff_ne]
    omega
  · rw [hcore, State.enterValid, State.doIf, if_pos (by simp [hw, hv])]
    exact State.core_modCore_same ..
  · rw [hcore, State.enterValid]
    have hstay : (decide (s.wantsValid n = 1) && !s.vmode n) = false := by
      rcases hno with h0 | hv
      · simp [h0]
      · simp [hv]
    rw [hstay]
    rfl

end

/-- Settles O24: an access past core memory is refused or the debug view's, one within it is performed at once or waits,
and the mode is sampled when nothing touches core memory. -/
theorem coreMemoryBackgroundAndModes : Obligations.CoreMemoryBackgroundAndModes := by
  intro s n hd hs
  have haccess : ∀ {u off len d w p t}, slotAccess n u off len d w p s = t → t.hif = s.hif →
      Answers (.bgAccess n u off len ⟨d, p⟩ w) s t := fun ht hk => answers_core hd hs rfl ht (kernels_of_hif hs hk)
  refine ⟨fun u off len d w p hpast hview => ?_, fun off len m o d p ho hplace hview => ?_, fun u off len d w p hv => ?_,
    fun hbg => ?_, fun b rest hb hw hv hdue => ?_, ?_, fun hq => ?_, fun hq => ?_⟩
  · exact haccess (slotAccess_past hs hpast hview) (by rw [(errOnly_raise s _).1])
  · exact ⟨_, haccess (slotAccess_view hs ho hplace hview) rfl, rfl, _, rfl, rfl⟩
  · intro l clear same
    refine ⟨fun hin hclear hw => ?_, fun hin hclear hw => ?_, fun hin hbusy => ?_⟩
    · subst hw
      have harrive := bgArrive_clear hv (b := bgAsked s n u off len d true p) hclear
      obtain ⟨hsame, hrest, hleft⟩ := bgPerform_write (p := p) (b := bgAsked s n u off len d true p) (usedOnly_marked _) rfl rfl rfl
      exact ⟨_, haccess ((slotAccess_within hs hin).trans (congrArg Prod.fst harrive)) (by rw [hrest]), hsame, hrest, hleft⟩
    · subst hw
      have harrive := bgArrive_clear hv (b := bgAsked s n u off len d false p) hclear
      obtain ⟨hsame, hrest, hleft⟩ := bgPerform_read (b := bgAsked s n u off len d false p) (usedOnly_marked _) rfl rfl
      exact ⟨_, haccess ((slotAccess_within hs hin).trans (congrArg Prod.fst harrive)) (by rw [hrest]), hsame, hrest, hleft⟩
    · have harrive := bgArrive_waits hv (b := bgAsked s n u off len d w p) (by cases w <;> exact hbusy)
      obtain ⟨hsame, hrest, hleft⟩ := bgWaits_leaves (b := bgAsked s n u off len d w p) (bgTidy_leaves s n).1 rfl
      exact ⟨_, haccess ((slotAccess_within hs hin).trans (congrArg Prod.fst harrive)) (by rw [hrest]), hsame, hrest, hleft⟩
  · exact answers_core hd hs rfl (by rw [bgForce, hbg]) (kernels_of_settled hs)
  · obtain ⟨hleft, hnow, hreply, hcount, hregs, hmem, hhif⟩ := bgForced_leaves
      { s.modCore n (fun c => { c with bg := c.bg.drop 1 }) with
        reply := some ⟨leNat (memRead s.mem (coreBase n + b.off) b.len), 3 * b2n (s.cmPoison n b.off b.len)⟩ } n
    refine ⟨_, answers_core hd hs rfl (bgForce_read hs hv hb hw hdue) (kernels_of_hif hs hhif), hleft.trans ?_, hnow, hreply,
      hcount, hregs, hmem⟩
    show ((s.modCore n fun c => { c with bg := c.bg.drop 1 }).core n).bg = rest
    rw [State.core_modCore_same, hb]
    rfl
  · exact ⟨_, answers_core hd hs rfl rfl (kernels_of_hif hs (by rw [(logClr_leaves (s := s) (n := n)).1.2])), logClr_leaves⟩
  · exact answers_core hd hs rfl (modeSample_busy hs hq) (kernels_of_settled hs)
  · have hleft := modeSample_leaves hs hq
    exact ⟨_, answers_core hd hs rfl rfl (kernels_of_hif hs (by rw [hleft.2.1])), hleft⟩

end Sys2Proof.Machine
end

section
/-! PROOFS. Far operations (O20): an STF in flight to an address off an 8-byte boundary, which none that issues has (R307),
stores the bytes of the first unit alone as it completes. -/

namespace Sys2Proof.Machine

/-- A store of eight bytes of ones that core 0 has on its way to the last four bytes of a unit of the Orangery. -/
def acrossUnits : FarOp := ⟨0, 0, .stf (orgBase + 60) (BitVec.allOnes 64) false, 0⟩
/-- The device after reset, with that store on its way. -/
def storeAcross : State := State.reset.modCore 0 fun c => { c with far := [acrossUnits] }
/-- The store has left the core's list. -/
def storeTaken : State := storeAcross.modCore 0 fun c => { c with far := [] }

theorem storeAcross_running : storeAcross.dead = false := by decide +kernel
theorem storeAcross_settled : storeAcross.Settled 0 := by
  unfold State.Settled
  decide +kernel
theorem farShadow_storeTaken : farShadow (orgBase + 60) true storeTaken = (storeTaken, false) := by decide +kernel

/-- Only the four bytes of the first unit are stored. -/
theorem memRead_storeAcross : memRead (rmwPieces true (orgBase + 60) (natLe 8 (BitVec.allOnes 64).toNat) [false] storeTaken).mem
    (canon (orgBase + 60)) 8 = [255, 255, 255, 255, 0, 0, 0, 0] := by decide +kernel

/-- Refutes O20: the clause on STF asks for all eight bytes at any address, and an address off an 8-byte boundary can put
some of them past the unit that the store writes. -/
theorem not_scalarFarOperations : ¬ Obligations.ScalarFarOperations := by
  intro h
  obtain ⟨-, -, -, -, -, -, -, -, -, -, hcompletes⟩ := h storeAcross 0 0 ⟨0, 0, 0, 0, 0⟩ storeAcross_running
  obtain ⟨-, hstore, -⟩ := hcompletes storeAcross_settled acrossUnits [] rfl
  obtain ⟨-, hbytes⟩ := hstore _ _ _ rfl farShadow_storeTaken
  have hread : memRead _ _ 8 = [255, 255, 255, 255, 0, 0, 0, 0] := memRead_storeAcross
  exact absurd (hread.symm.trans hbytes) (by decide)

end Sys2Proof.Machine
end

section
/-! PROOFS. Global turnstile results (O47): a result that reaches a unit of core memory that fails its parity is counted
as a detection (R477), and the clause on GTURN_RESULT leaves no room for the count. -/

namespace Sys2Proof.Machine

/-- The result 0 of a request of core 0, to be written at the start of its core memory with event 0. -/
def resultZero : GturnReq := ⟨0, 0, 0, 0, 0, some 0⟩
/-- The device in service mode on core 0, with that result back and its unit of core memory failing parity. -/
def resultOnBadUnit : State :=
  let s := (State.reset.setFld (.cmcStatus 0) F.cmcStatusVmode 0).modCore 0 fun c => { c with gturns := [resultZero] }
  { s with parity := { s.parity with units := [coreBase 0 / 64] } }
/-- The request has left the core's list. -/
def resultTaken : State := resultOnBadUnit.modCore 0 fun c => { c with gturns := [] }
/-- The result is checked against the shadow rules. -/
def resultReached : State := (bgReach 14 (coreBase 0) 8 true resultTaken).1

theorem resultOnBadUnit_running : resultOnBadUnit.dead = false := by decide +kernel
theorem gturns_resultOnBadUnit : (resultOnBadUnit.core 0).gturns = [resultZero] := by decide +kernel
theorem bgReach_resultTaken : bgReach 14 (coreBase 0) 8 true resultTaken = (resultReached, false) :=
  Prod.ext rfl (by decide +kernel)

/-- The write of the result counts a detection in TST_SRAM_CNT. -/
theorem sramCnt_gturnResult : tabFind (gturnResult 0 resultOnBadUnit).regs (regAddr (.tstSramCnt 0)) ≠
    tabFind resultReached.regs (regAddr (.tstSramCnt 0)) := by decide +kernel

/-- GTURN_RESULT leaves the registers that `gturnResult` leaves. -/
theorem regs_of_answers_gturnResult {n : CoreId} {s t : State} (hrun : s.dead = false)
    (h : Answers (.gturnResult n) s t) : t.regs = (gturnResult n s).regs := by
  have hruns : Answers (.gturnResult n) s (gturnResult n s) := answers_run hrun rfl
  have hsame : s.settle t = s.settle (gturnResult n s) := Host.Outcome.next.inj (Eq.trans (Eq.symm h) hruns)
  simpa using congrArg State.regs hsame

theorem tstSramCnt_notMem_signalled : regAddr (.tstSramCnt 0) ∉ [Reg.scEvent 0, .scEvstat 0 0].map regAddr := by
  decide +kernel

/-- Refutes O47: with its unit of core memory failing parity, the write of the result counts a detection in TST_SRAM_CNT,
which is none of the registers that the clause on GTURN_RESULT lets change. -/
theorem not_windowsOpenCloseAndManagersWatch : ¬ Obligations.WindowsOpenCloseAndManagersWatch := by
  intro h
  obtain ⟨-, -, -, -, -, -, -, hresult⟩ := h resultOnBadUnit resultOnBadUnit_running
  obtain ⟨-, hwritten⟩ := hresult 0
  obtain ⟨-, hlands⟩ := hwritten [] resultZero [] 0 gturns_resultOnBadUnit (by simp) rfl
  obtain ⟨t, hanswers, -, -, -, hregs⟩ := hlands ⟨0, by decide⟩ 0 (congrArg Prod.snd bgReach_resultTaken) rfl rfl
  have hcnt := hregs _ tstSramCnt_notMem_signalled
  rw [regs_of_answers_gturnResult resultOnBadUnit_running hanswers] at hcnt
  exact sramCnt_gturnResult hcnt

end Sys2Proof.Machine
end

section
/-! PROOFS. Stream queues (O30): a queue that waits to signal an event past the 64 of its core, which no SIGNAL names (R271),
finds the status word of that event at its own STR_Q_CTL, and signals another completion event than the one it had. -/

namespace Sys2Proof.Machine

/-- Two states that a command answers are settled alike. -/
theorem settle_eq_of_answers {c : Instr} {s t u : State} (h : Answers c s t) (h' : Answers c s u) : s.settle t = s.settle u :=
  Host.Outcome.next.inj (Eq.trans (Eq.symm h) h')

/-- The event number whose status word would have the address of STR_Q_CTL of queue 0: a core's 64 end long before. -/
def eventAtCtl : Nat := (regAddr (.strQCtl 0 0) - regAddr (.scEvstat 0 0)) / 8
/-- Queue 0 of core 0 after reset, RUNNING and stopping, with completion event 32 and a SIGNAL of that number waiting. -/
def stoppingQueue : State :=
  ((State.reset.setFld (.strQStat 0 0) F.strQStatState strRunning).setFld (.strQCtl 0 0) F.strQCtlEvent 32).modStrq 0 0
    fun x => { x with stopping := true, signals := [⟨eventAtCtl, 0⟩] }

theorem stoppingQueue_running : stoppingQueue.dead = false := by decide +kernel
theorem stoppingQueue_inService : stoppingQueue.coreOut 0 = false := by decide +kernel
theorem stoppingQueue_settled : stoppingQueue.Settled 0 := by
  unfold State.Settled
  decide +kernel
theorem stoppingQueue_live : stoppingQueue.strLive 0 0 = true := by decide +kernel
theorem event_stoppingQueue : stoppingQueue.fld (.strQCtl 0 0) F.strQCtlEvent = 32 := by decide +kernel

/-- The queue ends without its completion event. -/
theorem scEvent_queueDrained : bitAt ((queueDrained 0 0 stoppingQueue).word (.scEvent 0)) 32 = false := by decide +kernel

theorem answers_queueDrained_stoppingQueue : Answers (.queueDrained 0 0) stoppingQueue (queueDrained 0 0 stoppingQueue) :=
  answers_core stoppingQueue_running stoppingQueue_settled rfl rfl (by decide +kernel)

/-- Refutes O30: QUEUE_DRAINED is to signal the completion event that the queue had, and the status word of a waiting
SIGNAL's event past the 64 of the core overwrites that number first. -/
theorem not_streamQueueControl : ¬ Obligations.StreamQueueControl := by
  intro h
  obtain ⟨-, -, -, -, -, -, -, -, -, -, hdrained⟩ := h stoppingQueue 0 0 0 (.core 0) stoppingQueue_running stoppingQueue_settled
    stoppingQueue_inService (by rintro ⟨⟩)
  obtain ⟨-, hstopped, -⟩ := hdrained rfl stoppingQueue_live
  obtain ⟨t, hanswers, -, ⟨htold, -⟩, -⟩ := hstopped rfl rfl
  have hword : t.word (.scEvent 0) = (queueDrained 0 0 stoppingQueue).word (.scEvent 0) := by
    simpa using congrArg (·.word (.scEvent 0)) (settle_eq_of_answers hanswers answers_queueDrained_stoppingQueue)
  change bitAt (t.word (.scEvent 0)) (stoppingQueue.fld (.strQCtl 0 0) F.strQCtlEvent) = true at htold
  rw [event_stoppingQueue, hword, scEvent_queueDrained] at htold
  cases htold

end Sys2Proof.Machine
end

section
/-! PROOFS. The Colonnade (O32): a waiting transfer whose source lies past its core's memory, which no request leaves waiting
(R281), reads the memory of the next core, and that core's shadow can suppress the read. -/

namespace Sys2Proof.Machine

/-- A descriptor of one unit for core 1, read 2^18 units above the core's memory: at the start of the next core's. -/
def strayDesc : List Byte := [2, 0, 0, 0, 0, 0, 4, 0, 1] ++ List.replicate 23 0
/-- A transfer of that descriptor, waiting. -/
def strayTransfer : ColTransfer := ⟨strayDesc, 0, none, false, [], [1], 0⟩
/-- The device with core 0 in service mode and the others in validation mode, as after reset, and that transfer of core 0. -/
def strayWaits : State :=
  (State.reset.setFld (.cmcStatus 0) F.cmcStatusVmode 0).modCore 0 fun c => { c with colon := [strayTransfer] }

theorem strayWaits_running : strayWaits.dead = false := by decide +kernel
theorem strayWaits_service : strayWaits.vmode 0 = false := by decide +kernel
theorem strayWaits_settled : strayWaits.Settled 0 := by
  unfold State.Settled
  decide +kernel
theorem colon_strayWaits : (strayWaits.core 0).colon = [strayTransfer] := by decide +kernel
theorem allCol_strayWaits : allCol strayWaits = [(0, strayTransfer)] := by decide +kernel

/-- No other transfer is there to clash, and no substitution waits. -/
theorem strayWaits_noClash : ¬ ((∃ p ∈ allCol strayWaits, (p.2.start.isSome = true ∨ p.2.arr < strayTransfer.arr) ∧
    ¬ (p.1 = (0 : CoreId).val ∧ p.2 = strayTransfer) ∧ colClash strayWaits (0 : CoreId) strayTransfer p.1 p.2 = true) ∨
    strayWaits.chip.ringHold ≠ []) := by
  rintro (⟨p, hp, -, hother, -⟩ | hhold)
  · rw [allCol_strayWaits, List.mem_singleton] at hp
    exact hother (hp ▸ ⟨rfl, rfl⟩)
  · exact hhold rfl

/-- The start of the transfer ends it: its read is suppressed. -/
theorem colon_colonnadeStart : ((colonnadeStart 0 strayWaits).core 0).colon = [] := by decide +kernel

theorem answers_colonnadeStart_strayWaits : Answers (.colonnadeStart 0) strayWaits (colonnadeStart 0 strayWaits) :=
  answers_core strayWaits_running strayWaits_settled rfl rfl (by decide +kernel)

/-- Refutes O32: a transfer that meets no clash is to be under way after COLONNADE_START, whatever its source, and one whose
read the shadow of another core suppresses is given up. -/
theorem not_colonnadeTransfers : ¬ Obligations.ColonnadeTransfers := by
  intro h
  obtain ⟨-, -, hstart, -⟩ := h strayWaits 0 0 strayWaits_running strayWaits_settled strayWaits_service strayWaits_service
  obtain ⟨-, hgoes⟩ := hstart strayTransfer [] colon_strayWaits rfl (by simp)
  obtain ⟨u, hanswers, -, -, hcolon, -⟩ := hgoes strayWaits_noClash
  have hcore : u.core 0 = (colonnadeStart 0 strayWaits).core 0 := by
    simpa using congrArg (·.core 0) (settle_eq_of_answers hanswers answers_colonnadeStart_strayWaits)
  have hnone : (u.core 0).colon = [] := hcore ▸ colon_colonnadeStart
  exact absurd (hcolon.symm.trans hnone) (by simp)

end Sys2Proof.Machine
end

section
/-! PROOFS. The records of the stack ports (R288-R293): what a change of one port's record leaves, and the fields of its
status register. -/

namespace Sys2Proof.Machine

section
variable {s t : State} {j k : Nat}

@[simp] theorem State.port_modPort_same (s : State) (k : Nat) (f : Port → Port) : (s.modPort k f).port k = f (s.port k) :=
  tabGet_set_same ..
theorem State.port_modPort_other (s : State) (f : Port → Port) (h : j ≠ k) : (s.modPort k f).port j = s.port j :=
  tabGet_set_other _ _ _ h
@[simp] theorem State.port_setFld (s : State) (r : Reg) (f : Fld) (v j : Nat) : (s.setFld r f v).port j = s.port j := rfl
@[simp] theorem State.port_plainWrite (s : State) (r : Reg) (v j : Nat) : (s.plainWrite r v).port j = s.port j := rfl
@[simp] theorem State.word_modPort (s : State) (k : Nat) (f : Port → Port) (r : Reg) : (s.modPort k f).word r = s.word r := rfl
@[simp] theorem State.fld_modPort (s : State) (k : Nat) (f : Port → Port) (r : Reg) (g : Fld) :
    (s.modPort k f).fld r g = s.fld r g := rfl

theorem port_of_ports_eq (h : t.ports = s.ports) (j : Nat) : t.port j = s.port j := by rw [State.port, h, State.port]

/-- A port's cycles depend on the time and on its frame alone. -/
theorem portCyc_congr (hnow : t.now = s.now) (hframe : (t.port k).frame = (s.port k).frame) : t.portCyc k = s.portCyc k := by
  rw [State.portCyc, hnow, hframe, State.portCyc]

/-- A one-bit field after a store of it. -/
theorem bit_setFld_same (s : State) (r : Reg) {f : Fld} (h : f.fits) (v : Nat) :
    (s.setFld r f v).bit r f = (v % 2 ^ (f.hi - f.lo + 1) != 0) := by rw [State.bit, State.fld_setFld_same _ _ _ _ h]

/-- A port's record changes and its status register tells of it. -/
theorem notedPort_leaves (s : State) (k : Nat) (f : Port → Port) (g : Fld) (v : Nat) :
    let t := (s.modPort k f).setFld (.bsStat k) g v
    s.RegsBut t [.bsStat k] ∧ t = { s with regs := t.regs, ports := t.ports } ∧ t.port k = f (s.port k) ∧
    ∀ j, j ≠ k → t.port j = s.port j :=
  ⟨regsBut_setFld (regsBut_of_regs_eq rfl) (by simp), rfl, by rw [State.port_setFld, State.port_modPort_same],
    fun j hj => by rw [State.port_setFld, State.port_modPort_other s f hj]⟩

end

/-! ### The end of a transfer and a reset (R290) -/

section
variable {s : State} {k : Nat}

theorem portDone_leaves (s : State) (k : Nat) : let t := portDone k s
    s.RegsBut t [.bsStat k] ∧ t = { s with regs := t.regs, ports := t.ports } ∧
    t.port k = { s.port k with inflight := none } ∧ (∀ j, j ≠ k → t.port j = s.port j) ∧
    t.fld (.bsStat k) F.bsStatInflight = 0 := by
  obtain ⟨hregs, hrest, hport, hothers⟩ := notedPort_leaves s k (fun p => { p with inflight := none }) F.bsStatInflight 0
  exact ⟨hregs, hrest, hport, hothers, State.fld_setFld_same _ _ _ _ (by decide)⟩

theorem portReset_leaves (s : State) (k : Nat) : let t := portReset k s
    s.RegsBut t [.bsStat k] ∧ t = { s with regs := t.regs, ports := t.ports } ∧
    t.port k = { s.port k with inflight := none, resetEnd := some (s.now + 1024 * fabTicks) } ∧
    (∀ j, j ≠ k → t.port j = s.port j) ∧
    t.fld (.bsStat k) F.bsStatInflight = 0 ∧ t.fld (.bsStat k) F.bsStatResetting = 1 := by
  obtain ⟨hregs, -, hport, hothers, hdone⟩ := portDone_leaves s k
  obtain ⟨hregs', -, hport', hothers'⟩ := notedPort_leaves (portDone k s) k
    (fun p => { p with resetEnd := some (s.now + 1024 * fabTicks) }) F.bsStatResetting 1
  refine ⟨regsBut_trans hregs hregs', rfl, hport'.trans (by rw [hport]), fun j hj => (hothers' j hj).trans (hothers j hj), ?_,
    State.fld_setFld_same _ _ _ _ (by decide)⟩
  exact (State.fld_setFld_disjoint _ _ _ _ _ (by decide) (by decide) (by decide)).trans hdone

/-- A reset keeps the other fields of the status register: its counters stay. -/
theorem fld_bsStat_portReset {f : Fld} (hf : f.fits) (hi : F.bsStatInflight.apart f) (hr : F.bsStatResetting.apart f) :
    (portReset k s).fld (.bsStat k) f = s.fld (.bsStat k) f := by
  rw [portReset, State.fld_setFld_disjoint _ _ _ _ _ (by decide) hf hr, State.fld_modPort, portDone,
    State.fld_setFld_disjoint _ _ _ _ _ (by decide) hf hi, State.fld_modPort]

theorem portResetEnd_some {e : Nat} (h : (s.port k).resetEnd = some e) : let t := portResetEnd k s
    s.RegsBut t [.bsStat k] ∧ t = { s with regs := t.regs, ports := t.ports, now := max s.now e } ∧
    t.port k = { s.port k with resetEnd := none, frame := max s.now e } ∧ t.portSlot k = 0 ∧
    (∀ j, j ≠ k → t.port j = s.port j) ∧ t.fld (.bsStat k) F.bsStatResetting = 0 := by
  have heq : portResetEnd k s = ((s.advance e).modPort k fun p => { p with resetEnd := none, frame := max s.now e }).setFld
      (.bsStat k) F.bsStatResetting 0 := by
    rw [portResetEnd, h]
    rfl
  obtain ⟨hregs, hrest, hport, hothers⟩ := notedPort_leaves (s.advance e) k
    (fun p => { p with resetEnd := none, frame := max s.now e }) F.bsStatResetting 0
  rw [heq]
  refine ⟨hregs, hrest, hport, ?_, hothers, State.fld_setFld_same _ _ _ _ (by decide)⟩
  rw [State.portSlot, State.portCyc, hport, State.setFld_now]
  show (max s.now e - max s.now e) / stackTicks % 64 = 0
  rw [Nat.sub_self, Nat.zero_div, Nat.zero_mod]

/-! ### The watchdog (R290) -/

theorem portWatchdog_idle (h : (s.port k).inflight = none ∨ s.fld (.bsCtl k) F.bsCtlWdogLimit = 0) : portWatchdog k s = s := by
  unfold portWatchdog
  dsimp only
  split
  · rfl
  · next r t0 hflight => exact if_pos (h.resolve_left (by rw [hflight]; simp))

/-- The watchdog's count is reached: LAST_WD and WD_COUNT tell of it. -/
def watchdogNoted (k r t0 : Nat) (s : State) : State :=
  ((s.advance (t0 + s.fld (.bsCtl k) F.bsCtlWdogLimit * fabTicks)).setFld (.bsStat k) F.bsStatLastWd r).bump
    (.bsStat k) F.bsStatWdCount 1
def watchdogErr (k r : Nat) : Err := { src := srcOf 3 k 0, code := ecWatchdog, detail := [(32, 1, k), (33, 1, r)] }

theorem portWatchdog_fires {r t0 : Nat} (h : (s.port k).inflight = some (r, t0)) (hlim : s.fld (.bsCtl k) F.bsCtlWdogLimit ≠ 0) :
    portWatchdog k s = portReset k ((watchdogNoted k r t0 s).raise (watchdogErr k r)) := by
  rw [portWatchdog, h]
  exact if_neg hlim

theorem watchdogNoted_leaves (k r t0 : Nat) (s : State) : let u := watchdogNoted k r t0 s
    s.RegsBut u [.bsStat k] ∧ u = { s with regs := u.regs, now := u.now } ∧
    u.now = max s.now (t0 + s.fld (.bsCtl k) F.bsCtlWdogLimit * fabTicks) ∧ u.fld (.bsStat k) F.bsStatLastWd = r % 16 ∧
    u.fld (.bsStat k) F.bsStatWdCount = min (s.fld (.bsStat k) F.bsStatWdCount + 1) (2 ^ 16 - 1) := by
  refine ⟨regsBut_setFld (regsBut_setFld (regsBut_of_regs_eq rfl) (by simp)) (by simp), rfl, rfl, ?_, ?_⟩
  · exact (State.fld_setFld_disjoint _ _ _ _ _ (by decide) (by decide) (by decide)).trans
      (State.fld_setFld_same _ _ _ _ (by decide))
  · rw [watchdogNoted, State.fld_bump_same _ _ (by decide), State.fld_setFld_disjoint _ _ _ _ _ (by decide) (by decide) (by decide)]
    rfl

end

/-- The registers of a port lie outside the error unit. -/
theorem bsStat_not_errAddr (k : StackId) : ¬ errAddr (regAddr (.bsStat k)) := by
  simp only [errAddr, regAddr]
  omega
theorem errHead_ne_bsStat (k : StackId) : regAddr .errHead ≠ regAddr (.bsStat k) := by
  simp only [regAddr]
  omega

theorem portWatchdog_leaves {s : State} {k : StackId} {r t0 : Nat} (h : (s.port k).inflight = some (r, t0))
    (hlim : s.fld (.bsCtl k) F.bsCtlWdogLimit ≠ 0) : let t := portWatchdog k s
    s.RegsButErr t [.bsStat k] ∧
    t = { s with regs := t.regs, ports := t.ports, now := t.now, msixSent := t.msixSent } ∧
    t.now = max s.now (t0 + s.fld (.bsCtl k) F.bsCtlWdogLimit * fabTicks) ∧
    t.port k = { s.port k with inflight := none, resetEnd := some (t.now + 1024 * fabTicks) } ∧
    (∀ j, j ≠ k.val → t.port j = s.port j) ∧
    t.fld .errHead F.errHeadSeq = (s.fld .errHead F.errHeadSeq + 1) % 2 ^ 32 ∧
    t.fld (.bsStat k) F.bsStatLastWd = r % 16 ∧
    t.fld (.bsStat k) F.bsStatWdCount = min (s.fld (.bsStat k) F.bsStatWdCount + 1) (2 ^ 16 - 1) ∧
    t.fld (.bsStat k) F.bsStatInflight = 0 ∧ t.fld (.bsStat k) F.bsStatResetting = 1 := by
  intro t
  obtain ⟨hnoted, hnotedRest, hnow, hlast, hcount⟩ := watchdogNoted_leaves k r t0 s
  have ht : t = _ := portWatchdog_fires h hlim
  generalize watchdogNoted k r t0 s = u at *
  have hraise := errOnly_raise u (watchdogErr k r)
  have hseq := raise_seq u (e := watchdogErr k r) rfl
  have hkept : ∀ f : Fld, (u.raise (watchdogErr k r)).fld (.bsStat k) f = u.fld (.bsStat k) f := fun f =>
    ErrOnly.fld hraise f (bsStat_not_errAddr k)
  generalize u.raise (watchdogErr k r) = v at *
  obtain ⟨hraiseRest, hraiseRegs⟩ := hraise
  obtain ⟨hregs, hrest, hport, hothers, hflight, hresetting⟩ := portReset_leaves v k
  have hports : ∀ j, v.port j = s.port j := port_of_ports_eq (by rw [hraiseRest, hnotedRest])
  have hvnow : v.now = u.now := by rw [hraiseRest]
  rw [← ht] at hregs hrest hport hothers hflight hresetting
  have htnow : t.now = u.now := by rw [hrest, hvnow]
  refine ⟨?_, ?_, htnow.trans hnow, ?_, fun j hj => (hothers j hj).trans (hports j), ?_, ?_, ?_, hflight, hresetting⟩
  · exact regsButErr_trans (regsButErr_of_regsBut hnoted)
      (regsButErr_trans (regsButErr_of_errOnly ⟨hraiseRest, hraiseRegs⟩) (regsButErr_of_regsBut hregs))
  · rw [hrest, hraiseRest, hnotedRest]
  · rw [hport, hports, hvnow, htnow]
  · rw [RegsBut.fld hregs _ (by simpa using errHead_ne_bsStat k), hseq, RegsBut.fld hnoted _ (by simpa using errHead_ne_bsStat k)]
  · rw [ht, fld_bsStat_portReset (by decide) (by decide) (by decide), hkept, hlast]
  · rw [ht, fld_bsStat_portReset (by decide) (by decide) (by decide), hkept, hcount]

/-! ### The pending table (R293) -/

section
variable {s : State} {k : Nat}

theorem bsCommit_pending (h : s.bit (.bsStat k) F.bsStatCommitPend = true) : bsCommit k s = s := if_pos h

theorem bsCommit_noted (h : s.bit (.bsStat k) F.bsStatCommitPend = false) : let t := bsCommit k s
    s.RegsBut t [.bsStat k] ∧ t = { s with regs := t.regs, ports := t.ports } ∧
    t.port k = { s.port k with commitAt := some s.now } ∧ (∀ j, j ≠ k → t.port j = s.port j) ∧
    t.bit (.bsStat k) F.bsStatCommitPend = true := by
  rw [bsCommit, h, if_neg Bool.false_ne_true]
  obtain ⟨hregs, hrest, hport, hothers⟩ := notedPort_leaves s k (fun p => { p with commitAt := some s.now }) F.bsStatCommitPend 1
  exact ⟨hregs, hrest, hport, hothers, bit_setFld_same _ _ (by decide) 1⟩

/-- The pending table copied to the active one. -/
def tableCopied (k : Nat) (s : State) : State := (List.range 4).foldl (fun s i => s.setWord (.bsAct k i) (s.word (.bsSlot k i))) s

theorem bsSlot_ne_bsAct {i : Nat} (hi : i < 4) (j : Nat) : regAddr (.bsSlot k i) ≠ regAddr (.bsAct k j) := by
  simp only [regAddr]
  omega
theorem bsAct_ne {i j : Nat} (h : i ≠ j) : regAddr (.bsAct k i) ≠ regAddr (.bsAct k j) := by
  simp only [regAddr]
  omega
theorem bsStat_ne_bsAct {i : Nat} (hi : i < 4) : regAddr (.bsAct k i) ≠ regAddr (.bsStat k) := by
  simp only [regAddr]
  omega

theorem word_bsSlot_lt (s : State) (k i : Nat) : s.word (.bsSlot k i) < 2 ^ 64 := word_lt s (by decide : 0xffffba9876543210 < 2 ^ 64)

theorem onlyRegs_tableCopied (k : Nat) (s : State) : s.OnlyRegs (tableCopied k s) ((List.range 4).map (.bsAct k)) :=
  List.foldlRecOn (motive := fun t => s.OnlyRegs t ((List.range 4).map (.bsAct k))) _ _ (onlyRegs_refl s _)
    fun _ ht _ hi => onlyRegs_setWord ht (List.mem_map_of_mem (List.mem_map_of_mem hi))

theorem word_tableCopied {i : Nat} (hi : i < 4) : (tableCopied k s).word (.bsAct k i) = s.word (.bsSlot k i) := by
  refine foldl_establishes_within (Q := fun t : State => ∀ j < 4, t.word (.bsSlot k j) = s.word (.bsSlot k j))
    (P := fun t : State => t.word (.bsAct k i) = s.word (.bsSlot k i)) (List.mem_range.mpr hi)
    (fun t j _ ht m hm => ?_) (fun t ht => ?_) (fun t j hj ht hset => ?_) fun _ _ => rfl
  · exact (State.word_setWord_other _ _ (bsSlot_ne_bsAct hm j)).trans (ht m hm)
  · rw [State.word_setWord_same, ht i hi, Nat.mod_eq_of_lt (word_bsSlot_lt s k i)]
  · by_cases h : i = j
    · subst h
      rw [State.word_setWord_same, ht i hi, Nat.mod_eq_of_lt (word_bsSlot_lt s k i)]
    · exact (State.word_setWord_other _ _ (bsAct_ne h)).trans hset

/-- The start of the first frame after a time. -/
def Port.nextFrame (p : Port) (c : Nat) : Nat := if c < p.frame then p.frame else p.frame + 256 * ((c - p.frame) / 256 + 1)

theorem bsActivate_some {c : Nat} (h : (s.port k).commitAt = some c) : let t := bsActivate k s
    s.RegsBut t ([.bsStat k] ++ (List.range 4).map (.bsAct k)) ∧
    t = { s with regs := t.regs, ports := t.ports, now := t.now } ∧ t.now = max s.now ((s.port k).nextFrame c) ∧
    t.port k = { s.port k with commitAt := none } ∧ (∀ j, j ≠ k → t.port j = s.port j) ∧
    t.bit (.bsStat k) F.bsStatCommitPend = false ∧ ∀ i < 4, t.word (.bsAct k i) = s.word (.bsSlot k i) := by
  have heq : bsActivate k s = ((tableCopied k (s.advance ((s.port k).nextFrame c))).modPort k
      fun p => { p with commitAt := none }).setFld (.bsStat k) F.bsStatCommitPend 0 := by
    rw [bsActivate, h]
    rfl
  obtain ⟨hcopied, hcopiedRest⟩ := onlyRegs_tableCopied k (s.advance ((s.port k).nextFrame c))
  have hact := fun i (hi : i < 4) => word_tableCopied (s := s.advance ((s.port k).nextFrame c)) (k := k) hi
  rw [heq]
  generalize tableCopied k (s.advance ((s.port k).nextFrame c)) = u at *
  have hports : ∀ j, u.port j = s.port j := port_of_ports_eq (by rw [hcopiedRest]; rfl)
  obtain ⟨hregs, hrest, hport, hothers⟩ := notedPort_leaves u k (fun p => { p with commitAt := none }) F.bsStatCommitPend 0
  refine ⟨regsBut_trans (regsBut_mono hcopied (List.subset_append_right ..)) (regsBut_mono hregs (List.subset_append_left ..)),
    ?_, ?_, by rw [hport, hports], fun j hj => (hothers j hj).trans (hports j), bit_setFld_same _ _ (by decide) 0,
    fun i hi => ?_⟩
  · rw [hcopiedRest]
    rfl
  · rw [hcopiedRest]
    rfl
  · rw [State.setFld, State.word_setWord_other _ _ (bsStat_ne_bsAct hi), State.word_modPort, hact i hi]
    rfl

/-! ### Freeze and ranking (R291, R293) -/

theorem bsFreeze_leaves (s : State) (k : Nat) (b : Bool) : let t := bsFreeze k b s
    s.OnlyRegs t [.bsCtl k] ∧ t.bit (.bsCtl k) F.bsCtlBsFreeze = b ∧
    t.fld (.bsCtl k) F.bsCtlWdogLimit = s.fld (.bsCtl k) F.bsCtlWdogLimit := by
  refine ⟨onlyRegs_setFld (onlyRegs_refl ..) (by simp), ?_, State.fld_setFld_disjoint _ _ _ _ _ (by decide) (by decide) (by decide)⟩
  rw [bsFreeze, bit_setFld_same _ _ (by decide)]
  cases b <;> rfl

/-- The length of a list without its duplicates: it is the list's own where there are none. -/
theorem length_eraseDups (l : List Nat) : l.eraseDups.length ≤ l.length ∧ (l.eraseDups.length = l.length ↔ l.Nodup) := by
  induction l using List.reverseRecOn with
  | nil => simp
  | append_singleton l a ih =>
    obtain ⟨hle, hiff⟩ := ih
    rw [List.eraseDups_append, List.length_append, List.length_append, ← List.concat_eq_append, List.nodup_concat, ← hiff]
    by_cases ha : a ∈ l
    · have hgone : ([a].removeAll l).eraseDups.length = 0 := by simp [List.removeAll, ha]
      simp only [hgone, List.length_singleton]
      exact ⟨by omega, by constructor <;> intro h <;> simp_all⟩
    · have hstays : ([a].removeAll l).eraseDups.length = 1 := by simp [List.removeAll, ha, List.eraseDups_cons]
      simp only [hstays, List.length_singleton]
      exact ⟨by omega, by simp [ha]⟩

/-- The codes of a ranking. -/
def rankCodes (v : Nat) : List Nat := (List.range 12).map (rankAt v)

/-- A ranking that names a code of 12 or more, or one twice, is none (R293). -/
theorem rankCodes_bad_iff (v : Nat) :
    ((rankCodes v).any (fun c => decide (11 < c)) || (rankCodes v).eraseDups.length != 12) = true ↔
      (∃ p < 12, 12 ≤ rankAt v p) ∨ ∃ p < 12, ∃ q < p, rankAt v p = rankAt v q := by
  have hcode : (rankCodes v).any (fun c => decide (11 < c)) = true ↔ ∃ p < 12, 12 ≤ rankAt v p := by
    simp only [rankCodes, List.any_map, List.any_eq_true, List.mem_range, Function.comp_apply, decide_eq_true_eq]
    rfl
  have hlen : (rankCodes v).eraseDups.length = 12 ↔ (rankCodes v).Nodup := (length_eraseDups (rankCodes v)).2
  have hdup : (rankCodes v).eraseDups.length ≠ 12 ↔ ∃ p < 12, ∃ q < p, rankAt v p = rankAt v q := by
    rw [Ne, hlen, rankCodes, List.nodup_map_iff_inj_on List.nodup_range]
    constructor
    · intro h
      push Not at h
      obtain ⟨p, hp, q, hq, he, hne⟩ := h
      rw [List.mem_range] at hp hq
      rcases Nat.lt_or_gt_of_ne hne with hlt | hlt
      · exact ⟨q, hq, p, hlt, he.symm⟩
      · exact ⟨p, hp, q, hlt, he⟩
    · rintro ⟨p, hp, q, hq, he⟩ h
      exact absurd (h p (List.mem_range.mpr hp) q (List.mem_range.mpr (hq.trans hp)) he) (Nat.ne_of_gt hq)
  rw [Bool.or_eq_true, bne_iff_ne, hcode, hdup]

/-- The twelve codes of a ranking lie in its 48 bits. -/
theorem rankAt_order {p : Nat} (hp : p < 12) (w : Nat) : rankAt (F.bsRankOrder.of w) p = rankAt w p := by
  have hsplit : (2 : Nat) ^ 48 = 16 ^ p * 16 ^ (12 - p) := by
    rw [← Nat.pow_add, Nat.add_sub_cancel' (Nat.le_of_lt hp)]
    rfl
  have hdvd : 16 ∣ 16 ^ (12 - p) := dvd_pow_self 16 (by omega)
  rw [Fld.of, bitsOf, rankAt, rankAt]
  show w / 2 ^ 0 % 2 ^ 48 / 16 ^ p % 16 = w / 16 ^ p % 16
  rw [Nat.pow_zero, Nat.div_one, hsplit, Nat.mod_mul_right_div_self, Nat.mod_mod_of_dvd _ hdvd]

theorem bsRankWrite_bad {v : Nat} (h : (∃ p < 12, 12 ≤ rankAt v p) ∨ ∃ p < 12, ∃ q < p, rankAt v p = rankAt v q) :
    bsRankWrite k v s = s.refuseWrite (srcOf 3 k 0) (regAddr (.bsRank k)) v ecDescFormat :=
  if_pos ((rankCodes_bad_iff v).mpr h)

/-- A ranking is stored, and until the end of this cycle the one before decides (R293). -/
theorem bsRankWrite_good {v : Nat} (hcode : ∀ p < 12, rankAt v p < 12) (hdistinct : ∀ p < 12, ∀ q < p, rankAt v p ≠ rankAt v q) :
    let t := bsRankWrite k v s
    s.RegsBut t [.bsRank k] ∧ t = { s with regs := t.regs, ports := t.ports } ∧ (∀ j, j ≠ k → t.port j = s.port j) ∧
    (∀ p < 12, rankAt (t.word (.bsRank k)) p = rankAt v p) ∧ t.ranking k = s.ranking k := by
  have heq : bsRankWrite k v s =
      (s.modPort k fun p => { p with rankOld := some (s.portCyc k, s.ranking k) }).plainWrite (.bsRank k) v := by
    refine if_neg fun hbad => ?_
    rcases (rankCodes_bad_iff v).mp hbad with ⟨p, hp, hge⟩ | ⟨p, hp, q, hq, he⟩
    · exact absurd (hcode p hp) (Nat.not_lt.mpr hge)
    · exact hdistinct p hp q hq he
  intro t
  have ht : t = _ := heq
  have hport : t.port k = { s.port k with rankOld := some (s.portCyc k, s.ranking k) } := by
    rw [ht, State.port_plainWrite, State.port_modPort_same]
  refine ⟨?_, ?_, fun j hj => ?_, fun p hp => ?_, ?_⟩
  · rw [ht]
    exact regsBut_setWord (regsBut_of_regs_eq rfl) (by simp)
  · rw [ht]
    rfl
  · rw [ht, State.port_plainWrite, State.port_modPort_other s _ hj]
  · have horder : t.fld (.bsRank k) F.bsRankOrder = F.bsRankOrder.of v := by
      rw [ht]
      exact State.fld_plainWrite _ (.bsRank k) v (f := ⟨F.bsRankOrder, .rw, _⟩) (List.mem_singleton_self _)
    rw [← rankAt_order hp (t.word (.bsRank k)), ← rankAt_order hp v]
    exact congrArg (rankAt · p) horder
  · have hcyc : t.portCyc k = s.portCyc k := portCyc_congr (by rw [ht]; rfl) (by rw [hport])
    rw [State.ranking, hport]
    exact if_pos hcyc.symm

end

/-- Settles O4: each command of a port changes its record, its status or its ranking, and of the rest nothing but the time. -/
theorem portResetsTablesAndRanking : Obligations.PortResetsTablesAndRanking := by
  intro s k hd
  have hruns : ∀ {c f t}, exec c s = run f s → f s = t → Answers c s t := fun he hf => hf ▸ answers_run hd he
  refine ⟨⟨_, hruns rfl rfl, portDone_leaves s k⟩, fun r t0 h hlim => ⟨_, hruns rfl rfl, portWatchdog_leaves h hlim⟩,
    fun h => hruns rfl (portWatchdog_idle h), ⟨_, hruns rfl rfl, portReset_leaves s k⟩,
    fun e h => ⟨_, hruns rfl rfl, portResetEnd_some h⟩, fun r h => ⟨_, hruns rfl rfl, bsCommit_noted h⟩,
    fun r h => hruns rfl (bsCommit_pending h), fun c h => ⟨_, hruns rfl rfl, bsActivate_some h⟩,
    fun b => ⟨_, hruns rfl rfl, bsFreeze_leaves s k b⟩, fun r v hcode hdistinct => ⟨_, hruns rfl rfl, bsRankWrite_good hcode hdistinct⟩,
    fun r v h => hruns rfl (bsRankWrite_bad h)⟩

end Sys2Proof.Machine
end

section
/-! PROOFS. The arbitration of a stack port (R288-R291): which requester is granted, what each loser is told, and what the
granted one leaves. -/

namespace Sys2Proof.Machine

section
variable {s t : State} {k : Nat}

/-! ### Slots, hints and the grant -/

/-- Ownership of slots depends on the active table alone. -/
theorem slotOwner_congr (h : ∀ i, t.word (.bsAct k (i % 64 / 16)) = s.word (.bsAct k (i % 64 / 16))) (i : Nat) :
    t.slotOwner k i = s.slotOwner k i := by rw [State.slotOwner, h, State.slotOwner]

/-- A hint is the distance to the next slot that the loser owns, 63 while frozen or where it owns none (R289). -/
theorem portHint_spec (s : State) (k r : Nat) :
    if s.bit (.bsCtl k) F.bsCtlBsFreeze then portHint s k r = 63
    else (portHint s k r < 63 → s.slotOwner k (s.portSlot k + 1 + portHint s k r) = r) ∧ portHint s k r ≤ 63 ∧
      ∀ i < portHint s k r, s.slotOwner k (s.portSlot k + 1 + i) ≠ r := by
  unfold portHint
  split
  · rfl
  · cases hfind : (List.range 63).find? fun h => s.slotOwner k (s.portSlot k + 1 + h) == r with
    | none =>
      have hnone := List.find?_range_eq_none.mp hfind
      exact ⟨fun h => absurd h (Nat.lt_irrefl _), Nat.le_refl _, fun i hi => by simpa using hnone i hi⟩
    | some h =>
      obtain ⟨hown, hlt, hfirst⟩ := List.find?_range_eq_some.mp hfind
      exact ⟨fun _ => by simpa using hown, Nat.le_of_lt (List.mem_range.mp hlt), fun i hi => by simpa using hfirst i hi⟩

/-- The decision of a cycle: no grant while a transfer is in flight, the port resets or is frozen (R288, R290, R291). -/
def portDecision (s : State) (k : Nat) (ps : List Nat) : Option Nat :=
  if (s.port k).inflight.isSome || (s.port k).resetEnd.isSome || s.bit (.bsCtl k) F.bsCtlBsFreeze then none
  else portGrant s k ps

theorem portDecision_held {ps : List Nat}
    (h : (s.port k).inflight.isSome = true ∨ (s.port k).resetEnd.isSome = true ∨ s.bit (.bsCtl k) F.bsCtlBsFreeze = true) :
    portDecision s k ps = none := if_pos (by simpa [or_assoc] using h)

section
variable {ps : List Nat} (hfree : ¬ ((s.port k).inflight.isSome = true ∨ (s.port k).resetEnd.isSome = true ∨
  s.bit (.bsCtl k) F.bsCtlBsFreeze = true))
include hfree

theorem portDecision_owner (h : s.slotOwner k (s.portSlot k) ∈ ps) :
    portDecision s k ps = some (s.slotOwner k (s.portSlot k)) :=
  (if_neg (by simpa [or_assoc] using hfree)).trans (if_pos (by simpa using h))

theorem portDecision_ranked (h : s.slotOwner k (s.portSlot k) ∉ ps) :
    portDecision s k ps = ((List.range 12).find? fun p => ps.contains (rankAt (s.ranking k) p)).map (rankAt (s.ranking k)) := by
  rw [portDecision, if_neg (by simpa [or_assoc] using hfree), portGrant, if_neg (by simpa using h), List.find?_map]
  rfl

theorem portDecision_first (h : s.slotOwner k (s.portSlot k) ∉ ps) {p : Nat} (hp : p < 12) (hin : rankAt (s.ranking k) p ∈ ps)
    (hfirst : ∀ q < p, rankAt (s.ranking k) q ∉ ps) : portDecision s k ps = some (rankAt (s.ranking k) p) := by
  have hfind : ((List.range 12).find? fun p => ps.contains (rankAt (s.ranking k) p)) = some p :=
    List.find?_range_eq_some.mpr ⟨by simpa using hin, List.mem_range.mpr hp, fun q hq => by simpa using hfirst q hq⟩
  rw [portDecision_ranked hfree h, hfind]
  rfl

theorem portDecision_nobody (h : s.slotOwner k (s.portSlot k) ∉ ps) (hnone : ∀ p < 12, rankAt (s.ranking k) p ∉ ps) :
    portDecision s k ps = none := by
  have hfind : ((List.range 12).find? fun p => ps.contains (rankAt (s.ranking k) p)) = none :=
    List.find?_range_eq_none.mpr fun p hp => by simpa using hnone p hp
  rw [portDecision_ranked hfree h, hfind]
  rfl

end

/-- Only a requester that presents is granted. -/
theorem mem_of_portDecision {ps : List Nat} {r : Nat} (h : portDecision s k ps = some r) : r ∈ ps := by
  unfold portDecision at h
  split at h
  · cases h
  · unfold portGrant at h
    dsimp only at h
    split at h
    · next hown => exact Option.some.inj h ▸ by simpa using hown
    · simpa using List.find?_some h

/-! ### The losers of a cycle (R289, R294) -/

/-- A requester loses a cycle: it has waited one more, and is told how far its next slot is. -/
def portLose (k : Nat) (s : State) (r : Nat) : State :=
  (s.bump (.bsWait k r) F.bsWaitWaitcyc 1).modPort k fun p =>
    { p with hints := tabSet p.hints r (portHint s k r), waits := tabMod 0 p.waits r (· + 1) }

theorem bsWait_ne {i j : Nat} (h : i ≠ j) : regAddr (.bsWait k i) ≠ regAddr (.bsWait k j) := by
  simp only [regAddr]
  omega

/-- From s to t the requesters of a list, each once, have lost a cycle. -/
structure PortLost (k : Nat) (s t : State) (l : List Nat) : Prop where
  regs : s.RegsBut t (l.map (.bsWait k))
  rest : t = { s with regs := t.regs, ports := t.ports }
  others : ∀ j, j ≠ k → t.port j = s.port j
  record : t.port k = { s.port k with hints := (t.port k).hints, waits := (t.port k).waits }
  waits : ∀ r, tabGet 0 (t.port k).waits r = tabGet 0 (s.port k).waits r + if r ∈ l then 1 else 0
  counted : ∀ r ∈ l, t.fld (.bsWait k r) F.bsWaitWaitcyc = min (s.fld (.bsWait k r) F.bsWaitWaitcyc + 1) (2 ^ 32 - 1)
  hinted : ∀ r ∈ l, tabFind (t.port k).hints r = some (portHint s k r)

end

section
variable {s t : State} {k : StackId} {l : List Nat} {r : Nat}

theorem PortLost.now (h : PortLost k s t l) : t.now = s.now := by rw [h.rest]
theorem PortLost.portCyc (h : PortLost k s t l) : t.portCyc k = s.portCyc k := portCyc_congr h.now (by rw [h.record])
theorem PortLost.word (h : PortLost k s t l) {x : Reg} (hx : ∀ r ∈ l, regAddr x ≠ regAddr (.bsWait k r)) : t.word x = s.word x :=
  RegsBut.word h.regs (by simpa [eq_comm] using hx)

/-- What has happened to the losers so far does not change a hint. -/
theorem PortLost.hint (h : PortLost k s t l) (r : Nat) : portHint t k r = portHint s k r := by
  have hslot : t.portSlot k = s.portSlot k := by rw [State.portSlot, h.portCyc, State.portSlot]
  have hfreeze : t.bit (.bsCtl k) F.bsCtlBsFreeze = s.bit (.bsCtl k) F.bsCtlBsFreeze := by
    rw [State.bit, State.fld, h.word fun q hq => ?_, State.bit, State.fld]
    simp only [regAddr]
    omega
  have howner : t.slotOwner k = s.slotOwner k := funext <| slotOwner_congr fun i => h.word fun q hq => by
    simp only [regAddr]
    omega
  rw [portHint, hfreeze, hslot, howner, portHint]

theorem PortLost.lose (h : PortLost k s t l) (hr : r ∉ l) : PortLost k s (portLose k t r) (l ++ [r]) := by
  have hport : (portLose k t r).port k = { t.port k with
      hints := tabSet (t.port k).hints r (portHint t k r), waits := tabMod 0 (t.port k).waits r (· + 1) } :=
    State.port_modPort_same ..
  have hne : ∀ q ∈ l, q ≠ r := fun q hq he => hr (he ▸ hq)
  refine ⟨?_, ?_, fun j hj => ?_, ?_, fun q => ?_, fun q hq => ?_, fun q hq => ?_⟩
  · exact regsBut_setFld (regsBut_mono h.regs (by simp)) (by simp)
  · rw [portLose, h.rest]
    rfl
  · exact (State.port_modPort_other _ _ hj).trans (h.others j hj)
  · rw [hport, h.record]
  · rw [hport, tabMod, tabGet_set]
    by_cases he : q = r
    · subst he
      simp [h.waits, hr]
    · simp [he, h.waits]
  · rw [portLose, State.fld_modPort]
    rcases List.mem_append.mp hq with hq | hq
    · rw [State.bump, State.fld_setFld_other _ _ _ _ (bsWait_ne (hne q hq)), h.counted q hq]
    · obtain rfl := List.mem_singleton.mp hq
      have hkept : t.word (.bsWait k q) = s.word (.bsWait k q) := h.word fun p hp => bsWait_ne (hne p hp).symm
      rw [State.fld_bump_same _ _ (by decide), State.fld, hkept]
      rfl
  · rw [hport]
    rcases List.mem_append.mp hq with hq | hq
    · rw [tabFind_set_other _ _ (hne q hq), h.hinted q hq]
    · obtain rfl := List.mem_singleton.mp hq
      rw [tabFind_set_same, h.hint]

theorem portLost_foldl (s : State) (k : StackId) (l : List Nat) (hnodup : l.Nodup) : PortLost k s (l.foldl (portLose k) s) l := by
  induction l using List.reverseRecOn with
  | nil => exact ⟨fun _ _ => rfl, rfl, fun _ _ => rfl, rfl, fun _ => by simp, by simp, by simp⟩
  | append_singleton l r ih =>
    obtain ⟨hr, hdistinct⟩ := (List.nodup_concat l r).mp (List.concat_eq_append ▸ hnodup)
    rw [List.foldl_concat]
    exact (ih hdistinct).lose hr

/-! ### The granted requester (R288, R294) -/

/-- The register that counts a grant in an owned slot or in a free one. -/
def grantCount (own r : Nat) : Fld := if r = own then F.bsGrantsOwned else F.bsGrantsFree

/-- A requester is granted: its transfer is in flight from now, and its wait is over. -/
def portTake (k own r : Nat) (s : State) : State :=
  let t := s.bump (.bsGrants k r) (grantCount own r) 1
  ((t.setFld (.bsWait k r) F.bsWaitMaxwait
      (min (max (tabGet 0 (s.port k).waits r) (t.fld (.bsWait k r) F.bsWaitMaxwait)) F.bsWaitMaxwait.top)).setFld
    (.bsStat k) F.bsStatInflight 1).modPort k fun p => { p with inflight := some (r, s.now), waits := tabDel p.waits r }

theorem portTake_leaves (s : State) (k : StackId) (own : Nat) {r : Nat} (hr : r < 12) : let t := portTake k own r s
    s.RegsBut t [.bsStat k, .bsWait k r, .bsGrants k r] ∧ t = { s with regs := t.regs, ports := t.ports } ∧
    t.port k = { s.port k with inflight := some (r, s.now), waits := tabDel (s.port k).waits r } ∧
    (∀ j, j ≠ k.val → t.port j = s.port j) ∧ t.fld (.bsStat k) F.bsStatInflight = 1 ∧
    t.fld (.bsWait k r) F.bsWaitMaxwait =
      min (max (tabGet 0 (s.port k).waits r) (s.fld (.bsWait k r) F.bsWaitMaxwait)) (2 ^ 32 - 1) ∧
    t.fld (.bsGrants k r) (grantCount own r) = min (s.fld (.bsGrants k r) (grantCount own r) + 1) (2 ^ 32 - 1) := by
  have hfits : (grantCount own r).fits ∧ (grantCount own r).top = 2 ^ 32 - 1 := by
    unfold grantCount
    split <;> decide
  have hws : regAddr (.bsWait k r) ≠ regAddr (.bsStat k) := by simp only [regAddr]; omega
  have hgs : regAddr (.bsGrants k r) ≠ regAddr (.bsStat k) := by simp only [regAddr]; omega
  have hgw : regAddr (.bsGrants k r) ≠ regAddr (.bsWait k r) := by simp only [regAddr]; omega
  refine ⟨?_, rfl, State.port_modPort_same .., fun j hj => State.port_modPort_other _ _ hj, ?_, ?_, ?_⟩
  · exact regsBut_setFld (regsBut_setFld (regsBut_setFld (regsBut_of_regs_eq rfl) (by simp)) (by simp)) (by simp)
  · exact State.fld_setFld_same _ _ _ _ (by decide)
  · rw [portTake, State.fld_modPort, State.fld_setFld_other _ _ _ _ hws, State.fld_setFld_same _ _ _ _ (by decide),
      State.bump, State.fld_setFld_other _ _ _ _ hgw.symm]
    exact Nat.mod_eq_of_lt (lt_of_le_of_lt (min_le_right ..) (by decide))
  · rw [portTake, State.fld_modPort, State.fld_setFld_other _ _ _ _ hgs, State.fld_setFld_other _ _ _ _ hgw,
      State.fld_bump_same _ _ hfits.1, hfits.2]

/-! ### A cycle -/

/-- The requesters that present and are not granted. -/
def portLosers (ps : List Nat) (g : Option Nat) : List Nat := ps.filter fun r => some r != g

theorem mem_portLosers {ps : List Nat} {g : Option Nat} {r : Nat} : r ∈ portLosers ps g ↔ r ∈ ps ∧ some r ≠ g := by
  simp [portLosers]

/-- The decision of a cycle takes effect. -/
def portGranted (k : Nat) (ps : List Nat) (g : Option Nat) (s : State) : State :=
  g.elim ((portLosers ps g).foldl (portLose k) s) fun r =>
    portTake k (s.slotOwner k (s.portSlot k)) r ((portLosers ps g).foldl (portLose k) s)

theorem portArbitrate_eq (k : Nat) (ps : List Nat) (s : State) :
    portArbitrate k ps s = let t := portGranted k ps (portDecision s k ps) s
      t.advance ((t.port k).frame + stackTicks * (t.portCyc k + 1)) := by
  unfold portArbitrate portGranted portDecision
  dsimp only
  generalize (if (s.port k).inflight.isSome || (s.port k).resetEnd.isSome || s.bit (.bsCtl k) F.bsCtlBsFreeze then none
    else portGrant s k ps) = g
  cases g with
  | none => rfl
  | some r =>
    dsimp only [Option.elim, portTake, grantCount]
    split <;> rfl

/-- What a cycle leaves that grants g or nobody. -/
structure PortCycle (s t : State) (k : StackId) (ps : List Nat) (g : Option Nat) : Prop where
  lost : ∀ r, r ∈ ps → some r ≠ g →
    t.fld (.bsWait k r) F.bsWaitWaitcyc = min (s.fld (.bsWait k r) F.bsWaitWaitcyc + 1) (2 ^ 32 - 1) ∧
    tabGet 0 (t.port k).waits r = tabGet 0 (s.port k).waits r + 1 ∧ tabFind (t.port k).hints r = some (portHint s k r)
  granted : ∀ r, g = some r → (t.port k).inflight = some (r, s.now) ∧ t.fld (.bsStat k) F.bsStatInflight = 1 ∧
    t.fld (.bsWait k r) F.bsWaitMaxwait =
      min (max (tabGet 0 (s.port k).waits r) (s.fld (.bsWait k r) F.bsWaitMaxwait)) (2 ^ 32 - 1) ∧
    tabFind (t.port k).waits r = none ∧
    t.fld (.bsGrants k r) (grantCount (s.slotOwner k (s.portSlot k)) r) =
      min (s.fld (.bsGrants k r) (grantCount (s.slotOwner k (s.portSlot k)) r) + 1) (2 ^ 32 - 1)
  nobody : g = none → (t.port k).inflight = (s.port k).inflight ∧ t.word (.bsStat k) = s.word (.bsStat k)

/-- The registers that a cycle of a port may change. -/
def portRegs (k : Nat) : List Reg := [.bsStat k] ++ (List.range 12).map (.bsWait k) ++ (List.range 12).map (.bsGrants k)

theorem bsWait_mem_portRegs {k r : Nat} (h : r < 12) : Reg.bsWait k r ∈ portRegs k := by simp [portRegs, h]
theorem bsGrants_mem_portRegs {k r : Nat} (h : r < 12) : Reg.bsGrants k r ∈ portRegs k := by simp [portRegs, h]

variable {ps : List Nat} {g : Option Nat}

theorem portGranted_leaves (s : State) (k : StackId) (hps : ∀ r ∈ ps, r < 12) (hnodup : ps.Nodup) (hg : ∀ r, g = some r → r < 12) :
    let t := portGranted k ps g s
    s.RegsBut t (portRegs k) ∧ t = { s with regs := t.regs, ports := t.ports } ∧ (∀ j, j ≠ k.val → t.port j = s.port j) ∧
    (t.port k).frame = (s.port k).frame ∧ PortCycle s t k ps g := by
  have hlost := portLost_foldl s k (portLosers ps g) (hnodup.filter _)
  have hlostRegs : s.RegsBut _ (portRegs k) := regsBut_mono hlost.regs fun x hx => by
    obtain ⟨r, hr, rfl⟩ := List.mem_map.mp hx
    exact bsWait_mem_portRegs (hps r (mem_portLosers.mp hr).1)
  cases g with
  | none =>
    refine ⟨hlostRegs, hlost.rest, hlost.others, by rw [portGranted, Option.elim, hlost.record], fun r hr hne => ?_, nofun, fun _ => ?_⟩
    · have hin := mem_portLosers.mpr ⟨hr, hne⟩
      exact ⟨hlost.counted r hin, (hlost.waits r).trans (by rw [if_pos hin]), hlost.hinted r hin⟩
    · refine ⟨by rw [portGranted, Option.elim, hlost.record], hlost.word fun r _ => ?_⟩
      simp only [regAddr]
      omega
  | some r =>
    have hr := hg r rfl
    have hout : r ∉ portLosers ps (some r) := fun h => (mem_portLosers.mp h).2 rfl
    obtain ⟨hregs, hrest, hport, hothers, hstat, hmax, hcount⟩ :=
      portTake_leaves ((portLosers ps (some r)).foldl (portLose k) s) k (s.slotOwner k (s.portSlot k)) hr
    have ht : portGranted k ps (some r) s = portTake k (s.slotOwner k (s.portSlot k)) r
      ((portLosers ps (some r)).foldl (portLose k) s) := rfl
    rw [← ht] at hregs hrest hport hothers hstat hmax hcount
    generalize portGranted k ps (some r) s = t at *
    generalize (portLosers ps (some r)).foldl (portLose k) s = u at *
    refine ⟨?_, ?_, fun j hj => (hothers j hj).trans (hlost.others j hj), by rw [hport, hlost.record], fun q hq hne => ?_,
      fun _ he => ?_, nofun⟩
    · exact regsBut_trans hlostRegs (regsBut_mono hregs (by
        simp only [List.cons_subset, bsWait_mem_portRegs hr, bsGrants_mem_portRegs hr]
        simp [portRegs]))
    · rw [hrest, hlost.rest]
    · have hin := mem_portLosers.mpr ⟨hq, hne⟩
      have hqr : q ≠ r := fun h => hne (h ▸ rfl)
      have hq12 := hps q hq
      have hkept : t.fld (.bsWait k q) F.bsWaitWaitcyc = u.fld (.bsWait k q) F.bsWaitWaitcyc := RegsBut.fld hregs _ (by
        simp only [List.map_cons, List.map_nil, List.mem_cons, List.not_mem_nil, or_false, regAddr]
        omega)
      rw [hkept, hport]
      exact ⟨hlost.counted q hin, (tabGet_del_other _ _ hqr).trans ((hlost.waits q).trans (by rw [if_pos hin])), hlost.hinted q hin⟩
    · obtain rfl := Option.some.inj he
      have hwait : ∀ f, u.fld (.bsWait k r) f = s.fld (.bsWait k r) f := fun f => congrArg f.of
        (hlost.word fun q hq => bsWait_ne fun h => hout (h ▸ hq))
      have hgrants : ∀ f, u.fld (.bsGrants k r) f = s.fld (.bsGrants k r) f := fun f => congrArg f.of
        (hlost.word fun q hq => by
          have hq12 := hps q (mem_portLosers.mp hq).1
          simp only [regAddr]
          omega)
      rw [hwait, hlost.waits, if_neg hout] at hmax
      rw [hgrants] at hcount
      rw [hport, hlost.now]
      exact ⟨rfl, hstat, hmax, tabFind_del_same .., hcount⟩

end

/-- Settles O3: the decision falls by the slot's owner, else by the ranking, and each cycle leaves what its grant says. -/
theorem portArbitrationGrantsAndHints : Obligations.PortArbitrationGrantsAndHints := by
  intro s k fs hd hnodup
  have hlt : ∀ r ∈ fs.map Fin.val, r < 12 := fun r hr => by
    obtain ⟨f, -, rfl⟩ := List.mem_map.mp hr
    exact f.isLt
  have hgrant : ∀ r, portDecision s k (fs.map Fin.val) = some r → r < 12 := fun r h => hlt r (mem_of_portDecision h)
  obtain ⟨hregs, hrest, hothers, hframe, hcycle⟩ :=
    portGranted_leaves s k hlt (hnodup.map Fin.val_injective) hgrant
  have hnow : (portGranted k (fs.map Fin.val) (portDecision s k (fs.map Fin.val)) s).now = s.now := by rw [hrest]
  refine ⟨_, answers_run hd rfl, ?_⟩
  rw [portArbitrate_eq]
  generalize hg : portDecision s k (fs.map Fin.val) = g at *
  generalize portGranted k (fs.map Fin.val) g s = t at *
  refine ⟨hregs, ?_, hothers, ?_, ?_⟩
  · rw [hrest]
    rfl
  · rw [State.advance_now, hnow, hframe, portCyc_congr hnow hframe]
  · intro present owner grant
    have hg' : grant g := by
      refine ⟨fun r hr hne => ?_, fun r hr => ?_, hcycle.nobody⟩
      · obtain ⟨hcounted, hwaits, hhint⟩ := hcycle.lost r hr hne
        exact ⟨hcounted, hwaits, _, hhint, portHint_spec s k r⟩
      · obtain ⟨hflight, hstat, hmax, hwaits, hcount⟩ := hcycle.granted r hr
        refine ⟨hflight, hstat, hmax, hwaits, ?_⟩
        split
        · next h => rwa [grantCount, if_pos h] at hcount
        · next h => rwa [grantCount, if_neg h] at hcount
    have hdecided : ∀ {g'}, portDecision s k (fs.map Fin.val) = g' → grant g' := fun h => h ▸ hg ▸ hg'
    split
    · next h => exact hdecided (portDecision_held h)
    · next hfree =>
      split
      · next h => exact hdecided (portDecision_owner hfree h)
      · next h => exact ⟨fun p hp hin hfirst => hdecided (portDecision_first hfree h hp hin hfirst),
          fun hnone => hdecided (portDecision_nobody hfree h hnone)⟩

end Sys2Proof.Machine
end

section
/-! PROOFS. Slot words (O57): each field of an operation's slot word stands apart from the others, so its bits are its
operand, its reserved bits are 0 and its highest byte is the opcode. -/

namespace Sys2Proof.Machine

/-! ### Operands from their bits -/

theorem ofNat_of_bits {k v : Nat} {x : BitVec k} (h : v = x.toNat) : BitVec.ofNat k v = x := by
  rw [h, BitVec.ofNat_toNat, BitVec.setWidth_eq]
theorem finOfNat_of_bits {k v : Nat} [NeZero k] {x : Fin k} (h : v = x.val) : Fin.ofNat k v = x := by
  rw [h]
  exact Fin.ofNat_val_eq_self x
theorem bitAt_of_b2n {w i : Nat} {b : Bool} (h : bitsOf w i i = b2n b) : bitAt w i = b := by
  have hi : w / 2 ^ i % 2 = b2n b := by simpa only [bitsOf, Nat.sub_self, Nat.zero_add, Nat.pow_one] using h
  rw [bitAt, hi]
  cases b <;> rfl
theorem b2n_lt_two (b : Bool) : b2n b < 2 := by cases b <;> decide

/-! ### Scalar and vector slots (R305, R324) -/

theorem scOf_scWord (opc : Nat) (a : ScArgs) : scOf (scWord opc a) = a := by
  obtain ⟨rd, rs1, rs2, fn, imm⟩ := a
  simp only [scOf, scWord, bitsOf, ScArgs.mk.injEq]
  refine ⟨ofNat_of_bits ?_, ofNat_of_bits ?_, ofNat_of_bits ?_, ofNat_of_bits ?_, ofNat_of_bits ?_⟩ <;> omega
theorem scWord_opcode (opc : Nat) (a : ScArgs) : scWord opc a / 2 ^ 56 = opc := by
  simp only [scWord]
  omega
theorem vxOf_vxWord (opc : Nat) (a : VxArgs) : vxOf (vxWord opc a) = a := by
  obtain ⟨vd, va, vb, vc, t, rs, imm⟩ := a
  simp only [vxOf, vxWord, bitsOf, VxArgs.mk.injEq]
  refine ⟨ofNat_of_bits ?_, ofNat_of_bits ?_, ofNat_of_bits ?_, ofNat_of_bits ?_, ofNat_of_bits ?_, ofNat_of_bits ?_,
    ofNat_of_bits ?_⟩ <;> omega
theorem vxWord_opcode (opc : Nat) (a : VxArgs) : vxWord opc a / 2 ^ 56 = opc := by
  simp only [vxWord]
  omega

/-! ### Stream slots (R329) -/

theorem stOf_stWord (opc : Nat) (a : StArgs) : stOf (stWord opc a) = a := by
  obtain ⟨q, ir, rs, stk, off, event, en⟩ := a
  have hen := b2n_lt_two en
  simp only [stOf, stWord, StArgs.mk.injEq]
  refine ⟨finOfNat_of_bits ?_, finOfNat_of_bits ?_, ofNat_of_bits ?_, finOfNat_of_bits ?_, ofNat_of_bits ?_,
    finOfNat_of_bits ?_, bitAt_of_b2n ?_⟩ <;> simp only [bitsOf] <;> omega
theorem stWord_opcode (opc : Nat) (a : StArgs) : stWord opc a / 2 ^ 56 = opc := by
  have hen := b2n_lt_two a.en
  simp only [stWord]
  omega
theorem stWord_reserved (opc : Nat) (a : StArgs) : bitsOf (stWord opc a) 16 0 = 0 := by
  simp only [stWord, bitsOf]
  omega

/-! ### Matrix slots (R318) -/

/-- The opcode of a matrix operation. -/
def MxOp.opcode : MxOp → Nat
  | .nop => 0
  | .fill _ => 1
  | .wload _ => 2
  | .pass _ => 3
  | .spass _ => 4
  | .drain _ => 5
  | .discard _ => 6

theorem mxWord_opcode (o : MxOp) : mxWord o / 2 ^ 56 = o.opcode := by
  cases o with
  | nop => rfl
  | fill a =>
    have hdk := b2n_lt_two a.dk
    simp only [mxWord, MxOp.opcode]
    omega
  | wload a =>
    simp only [mxWord, MxOp.opcode]
    omega
  | pass a =>
    have hclose := b2n_lt_two a.close
    have hkh := b2n_lt_two a.kh
    have hswitch := b2n_lt_two a.switch
    simp only [mxWord, MxOp.opcode]
    omega
  | spass a =>
    have hclose := b2n_lt_two a.close
    simp only [mxWord, MxOp.opcode]
    omega
  | drain a =>
    simp only [mxWord, MxOp.opcode]
    omega
  | discard t =>
    simp only [mxWord, MxOp.opcode]
    omega

/-- The highest byte of a word is the opcode above its other bits. -/
theorem bitsOf_opcode {w opc : Nat} (h : w / 2 ^ 56 = opc) (hlt : opc < 256) : bitsOf w 63 56 = opc := by
  rw [bitsOf, h]
  exact Nat.mod_eq_of_lt hlt

theorem MxOp.opcode_lt (o : MxOp) : o.opcode < 256 := by
  cases o <;> simp only [MxOp.opcode] <;> omega
theorem mxWord_top (o : MxOp) : bitsOf (mxWord o) 63 56 = o.opcode := bitsOf_opcode (mxWord_opcode o) o.opcode_lt

/-! Each matrix operation decodes from its word: the reserved bits are 0, the others are its operands. -/

theorem mxOf_fill (a : FillArgs) : mxOf (mxWord (.fill a)) = some (.fill a) := by
  obtain ⟨dk, set, aboff, src, len, part⟩ := a
  have hdk := b2n_lt_two dk
  have hz : bitsOf (mxWord (.fill ⟨dk, set, aboff, src, len, part⟩)) 5 0 = 0 := by
    simp only [mxWord, bitsOf]
    omega
  simp only [mxOf, mxWord_top, MxOp.opcode, hz, beq_self_eq_true, if_true, Option.some.injEq, MxOp.fill.injEq,
    FillArgs.mk.injEq]
  refine ⟨bitAt_of_b2n ?_, finOfNat_of_bits ?_, ofNat_of_bits ?_, ofNat_of_bits ?_, ofNat_of_bits ?_,
    ofNat_of_bits ?_⟩ <;> simp only [mxWord, bitsOf] <;> omega
theorem mxOf_wload (a : WloadArgs) : mxOf (mxWord (.wload a)) = some (.wload a) := by
  obtain ⟨set, n, param⟩ := a
  have hz : bitsOf (mxWord (.wload ⟨set, n, param⟩)) 28 0 = 0 := by
    simp only [mxWord, bitsOf]
    omega
  simp only [mxOf, mxWord_top, MxOp.opcode, hz, beq_self_eq_true, if_true, Option.some.injEq, MxOp.wload.injEq,
    WloadArgs.mk.injEq]
  refine ⟨finOfNat_of_bits ?_, ofNat_of_bits ?_, ofNat_of_bits ?_⟩ <;> simp only [mxWord, bitsOf] <;> omega
theorem mxOf_pass (a : PassArgs) : mxOf (mxWord (.pass a)) = some (.pass a) := by
  obtain ⟨aboff, m, tile, row0, close, chain, xreg, kh, arow, switch⟩ := a
  have hclose := b2n_lt_two close
  have hkh := b2n_lt_two kh
  have hswitch := b2n_lt_two switch
  have hz : bitsOf (mxWord (.pass ⟨aboff, m, tile, row0, close, chain, xreg, kh, arow, switch⟩)) 6 0 = 0 := by
    simp only [mxWord, bitsOf]
    omega
  simp only [mxOf, mxWord_top, MxOp.opcode, hz, beq_self_eq_true, if_true, Option.some.injEq, MxOp.pass.injEq,
    PassArgs.mk.injEq]
  refine ⟨ofNat_of_bits ?_, ofNat_of_bits ?_, finOfNat_of_bits ?_, ofNat_of_bits ?_, bitAt_of_b2n ?_,
    finOfNat_of_bits ?_, ofNat_of_bits ?_, bitAt_of_b2n ?_, ofNat_of_bits ?_, bitAt_of_b2n ?_⟩ <;>
    simp only [mxWord, bitsOf] <;> omega
theorem mxOf_spass (a : SpassArgs) : mxOf (mxWord (.spass a)) = some (.spass a) := by
  obtain ⟨list, count, m, tile, close, chain, xreg, row0⟩ := a
  have hclose := b2n_lt_two close
  have hz : bitsOf (mxWord (.spass ⟨list, count, m, tile, close, chain, xreg, row0⟩)) 1 0 = 0 := by
    simp only [mxWord, bitsOf]
    omega
  simp only [mxOf, mxWord_top, MxOp.opcode, hz, beq_self_eq_true, if_true, Option.some.injEq, MxOp.spass.injEq,
    SpassArgs.mk.injEq]
  refine ⟨ofNat_of_bits ?_, ofNat_of_bits ?_, ofNat_of_bits ?_, finOfNat_of_bits ?_, bitAt_of_b2n ?_,
    finOfNat_of_bits ?_, ofNat_of_bits ?_, ofNat_of_bits ?_⟩ <;> simp only [mxWord, bitsOf] <;> omega
theorem mxOf_drain (a : DrainArgs) : mxOf (mxWord (.drain a)) = some (.drain a) := by
  obtain ⟨tile, chain, xreg⟩ := a
  have hz : bitsOf (mxWord (.drain ⟨tile, chain, xreg⟩)) 55 35 = 0 ∧
      bitsOf (mxWord (.drain ⟨tile, chain, xreg⟩)) 31 23 = 0 ∧ bitsOf (mxWord (.drain ⟨tile, chain, xreg⟩)) 15 0 = 0 := by
    simp only [mxWord, bitsOf]
    omega
  simp only [mxOf, mxWord_top, MxOp.opcode, hz, beq_self_eq_true, and_self, if_true, Option.some.injEq, MxOp.drain.injEq,
    DrainArgs.mk.injEq]
  refine ⟨finOfNat_of_bits ?_, finOfNat_of_bits ?_, ofNat_of_bits ?_⟩ <;> simp only [mxWord, bitsOf] <;> omega
theorem mxOf_discard (t : Fin 8) : mxOf (mxWord (.discard t)) = some (.discard t) := by
  have hz : bitsOf (mxWord (.discard t)) 55 35 = 0 ∧ bitsOf (mxWord (.discard t)) 31 0 = 0 := by
    simp only [mxWord, bitsOf]
    omega
  simp only [mxOf, mxWord_top, MxOp.opcode, hz, beq_self_eq_true, and_self, if_true, Option.some.injEq, MxOp.discard.injEq]
  refine finOfNat_of_bits ?_
  simp only [mxWord, bitsOf]
  omega

theorem mxOf_mxWord (o : MxOp) : mxOf (mxWord o) = some o := by
  cases o with
  | nop => rfl
  | fill a => exact mxOf_fill a
  | wload a => exact mxOf_wload a
  | pass a => exact mxOf_pass a
  | spass a => exact mxOf_spass a
  | drain a => exact mxOf_drain a
  | discard t => exact mxOf_discard t

/-! ### The decoder of a slot -/

/-- A word whose highest byte is an opcode other than 0 is a 64-bit word other than the NOP's. -/
theorem word_of_opcode {w opc : Nat} (h : w / 2 ^ 56 = opc) (hlt : opc < 256) (hne : opc ≠ 0) : w < 2 ^ 64 ∧ w ≠ 0 := by
  omega

theorem bopOf_sc {opc : Nat} (hlt : opc < 256) (a : ScArgs) : bopOf 0 (scWord opc a) = .sc opc a := by
  simp only [bopOf, if_true, bitsOf_opcode (scWord_opcode opc a) hlt, scOf_scWord]
theorem bopOf_mx (m : MxeId) (o : MxOp) : bopOf (m + 1) (mxWord o) = .mx m o := by
  have hm : (m : Nat) + 1 ≤ 4 := m.isLt
  simp only [bopOf, Nat.add_one_ne_zero, if_false, hm, if_true, mxOf_mxWord, Nat.add_sub_cancel]
theorem bopOf_vx {opc : Nat} (hlt : opc < 256) (a : VxArgs) : bopOf 5 (vxWord opc a) = .vx opc a := by
  simp [bopOf, bitsOf_opcode (vxWord_opcode opc a) hlt, vxOf_vxWord]
theorem bopOf_st {opc : Nat} (hlo : 1 ≤ opc) (hhi : opc ≤ 5) (a : StArgs) : bopOf 7 (stWord opc a) = .st opc a := by
  have hopc : ¬ (opc = 0 ∨ 5 < opc) := by omega
  simp [bopOf, bitsOf_opcode (stWord_opcode opc a) (by omega), hopc, stWord_reserved, stOf_stWord]

/-- A Fife operation's word (R327). -/
theorem bopOf_ff {opc off : Nat} (hopc : opc = 1 ∨ opc = 2) (hoff : off < 2 ^ 18) :
    bopOf 6 (opc * 2 ^ 56 + off * 2 ^ 38) = .ff opc off := by
  have hop : bitsOf (opc * 2 ^ 56 + off * 2 ^ 38) 63 56 = opc := by
    simp only [bitsOf]
    omega
  have hz : bitsOf (opc * 2 ^ 56 + off * 2 ^ 38) 37 0 = 0 := by
    simp only [bitsOf]
    omega
  have hfield : bitsOf (opc * 2 ^ 56 + off * 2 ^ 38) 55 38 = off := by
    simp only [bitsOf]
    omega
  have hvalid : ¬ (opc = 0 ∨ 2 < opc) := by omega
  simp only [bopOf, hop, hz, hfield, hvalid]
  rfl

/-- Settles O57: each slot's decoder gives back the operation of the word, whose highest byte is its opcode. -/
theorem slotWordsRoundTrip : Obligations.SlotWordsRoundTrip := by
  refine ⟨fun opc a hne => ?_, fun m o hne => ?_, fun opc a hne => ?_, fun opc off hopc hoff => ?_, fun opc a hlo hhi => ?_⟩
  · obtain ⟨hlt, h0⟩ := word_of_opcode (scWord_opcode opc a) opc.isLt (Fin.val_ne_zero_iff.mpr hne)
    exact ⟨hlt, h0, bopOf_sc opc.isLt a⟩
  · obtain ⟨hlt, h0⟩ := word_of_opcode (mxWord_opcode o) o.opcode_lt (by
      cases o with
      | nop => exact absurd rfl hne
      | _ => exact Nat.succ_ne_zero _)
    exact ⟨hlt, h0, bopOf_mx m o⟩
  · obtain ⟨hlt, h0⟩ := word_of_opcode (vxWord_opcode opc a) opc.isLt (Fin.val_ne_zero_iff.mpr hne)
    exact ⟨hlt, h0, bopOf_vx opc.isLt a⟩
  · have hword : BOp.word (.ff opc off) < 2 ^ 64 ∧ BOp.word (.ff opc off) ≠ 0 := by
      simp only [BOp.word]
      omega
    exact ⟨hword.1, hword.2, bopOf_ff hopc hoff⟩
  · obtain ⟨hlt, h0⟩ := word_of_opcode (stWord_opcode opc a) (by omega) (by omega)
    exact ⟨hlt, h0, bopOf_st hlo hhi a⟩

end Sys2Proof.Machine
end

section
/-! PROOFS. The scalar ALU and the branch conditions (O17) are operations on 64-bit words. -/

namespace Sys2Proof.Machine

/-! ### Words and their values -/

/-- The signed value of a word. -/
theorem sint_toNat (x : Word) : sint x.toNat = x.toInt := by
  rw [sint, sx, BitVec.toInt, Nat.mod_eq_of_lt x.isLt]
  rfl
theorem ofNat_ux (i : Int) : BitVec.ofNat 64 (ux 64 i) = BitVec.ofInt 64 i := by
  apply BitVec.eq_of_toNat_eq
  simp only [BitVec.toNat_ofNat, BitVec.toNat_ofInt, ux]
  omega
/-- Only the low 64 bits of a result count. -/
theorem ofNat_mod (v : Nat) : BitVec.ofNat 64 (v % 2 ^ 64) = BitVec.ofNat 64 v :=
  BitVec.eq_of_toNat_eq (by simp only [BitVec.toNat_ofNat, Nat.mod_mod])
theorem ofNat_toNat_word (x : Word) : BitVec.ofNat 64 x.toNat = x := by
  rw [BitVec.ofNat_toNat, BitVec.setWidth_eq]
/-- A word chosen by its value is the chosen word. -/
theorem ofNat_ite (p : Prop) [Decidable p] (x y : Word) :
    BitVec.ofNat 64 (if p then x.toNat else y.toNat) = if p then x else y := by
  rw [apply_ite (BitVec.ofNat 64), ofNat_toNat_word, ofNat_toNat_word]
/-- A truth value as a word. -/
theorem ofNat_truth (p : Prop) [Decidable p] : BitVec.ofNat 64 (b2n (decide p)) = if p then 1 else 0 := by
  by_cases h : p
  · rw [if_pos h, decide_eq_true h]; rfl
  · rw [if_neg h, decide_eq_false h]; rfl

/-! ### The operations (R305) -/

theorem aluOp_lt (op x y : Nat) : aluOp op x y < 2 ^ 64 := Nat.mod_lt _ (Nat.two_pow_pos 64)

section
variable (x y : Word)

theorem aluOp_sum : BitVec.ofNat 64 (aluOp 0 x.toNat y.toNat) = x + y := by
  simp only [aluOp]
  rw [ofNat_mod, BitVec.ofNat_add, ofNat_toNat_word, ofNat_toNat_word]
theorem aluOp_difference : BitVec.ofNat 64 (aluOp 1 x.toNat y.toNat) = x - y := by
  apply BitVec.eq_of_toNat_eq
  simp only [aluOp, BitVec.toNat_ofNat, BitVec.toNat_sub]
  omega
theorem aluOp_and : BitVec.ofNat 64 (aluOp 2 x.toNat y.toNat) = x &&& y := by
  simp only [aluOp]
  rw [ofNat_mod, ← BitVec.toNat_and, ofNat_toNat_word]
theorem aluOp_or : BitVec.ofNat 64 (aluOp 3 x.toNat y.toNat) = x ||| y := by
  simp only [aluOp]
  rw [ofNat_mod, ← BitVec.toNat_or, ofNat_toNat_word]
theorem aluOp_xor : BitVec.ofNat 64 (aluOp 4 x.toNat y.toNat) = x ^^^ y := by
  simp only [aluOp]
  rw [ofNat_mod, ← BitVec.toNat_xor, ofNat_toNat_word]
theorem aluOp_shiftLeft : BitVec.ofNat 64 (aluOp 5 x.toNat y.toNat) = x <<< (y.toNat % 64) := by
  apply BitVec.eq_of_toNat_eq
  simp only [aluOp, BitVec.toNat_ofNat, BitVec.toNat_shiftLeft, Nat.shiftLeft_eq, Nat.mod_mod]
theorem aluOp_shiftRight : BitVec.ofNat 64 (aluOp 6 x.toNat y.toNat) = x >>> (y.toNat % 64) := by
  simp only [aluOp]
  rw [ofNat_mod, ← Nat.shiftRight_eq_div_pow, ← BitVec.toNat_ushiftRight, ofNat_toNat_word]
theorem aluOp_sshiftRight : BitVec.ofNat 64 (aluOp 7 x.toNat y.toNat) = x.sshiftRight (y.toNat % 64) := by
  simp only [aluOp]
  rw [ofNat_mod, ofNat_ux, sint_toNat, BitVec.sshiftRight, Int.shiftRight_eq_div_pow]
  rfl
theorem aluOp_signedMin : BitVec.ofNat 64 (aluOp 8 x.toNat y.toNat) = if x.toInt ≤ y.toInt then x else y := by
  simp only [aluOp, sint_toNat]
  rw [ofNat_mod, ofNat_ite]
theorem aluOp_signedMax : BitVec.ofNat 64 (aluOp 9 x.toNat y.toNat) = if x.toInt ≤ y.toInt then y else x := by
  simp only [aluOp, sint_toNat]
  rw [ofNat_mod, ofNat_ite]
theorem aluOp_min : BitVec.ofNat 64 (aluOp 10 x.toNat y.toNat) = if x.toNat ≤ y.toNat then x else y := by
  simp only [aluOp, Nat.min_def]
  rw [ofNat_mod, ofNat_ite]
theorem aluOp_max : BitVec.ofNat 64 (aluOp 11 x.toNat y.toNat) = if x.toNat ≤ y.toNat then y else x := by
  simp only [aluOp, Nat.max_def]
  rw [ofNat_mod, ofNat_ite]
theorem aluOp_signedLess : BitVec.ofNat 64 (aluOp 12 x.toNat y.toNat) = if x.toInt < y.toInt then 1 else 0 := by
  simp only [aluOp, sint_toNat]
  rw [ofNat_mod, ofNat_truth]
theorem aluOp_less : BitVec.ofNat 64 (aluOp 13 x.toNat y.toNat) = if x.toNat < y.toNat then 1 else 0 := by
  simp only [aluOp]
  rw [ofNat_mod, ofNat_truth]
theorem aluOp_equal : BitVec.ofNat 64 (aluOp 14 x.toNat y.toNat) = if x = y then 1 else 0 := by
  simp only [aluOp, BitVec.toNat_inj]
  rw [ofNat_mod, ofNat_truth]
theorem aluOp_product : BitVec.ofNat 64 (aluOp 15 x.toNat y.toNat) = x * y := by
  simp only [aluOp]
  rw [ofNat_mod, BitVec.ofNat_mul, ofNat_toNat_word, ofNat_toNat_word]

/-! ### The branch conditions (R309) -/

theorem brTaken_equal : brTaken 1 x.toNat y.toNat = true ↔ x = y := by
  simp only [brTaken, beq_iff_eq, BitVec.toNat_inj]
theorem brTaken_notEqual : brTaken 2 x.toNat y.toNat = true ↔ x ≠ y := by
  simp only [brTaken, bne_iff_ne, ne_eq, BitVec.toNat_inj]
theorem brTaken_signedLess : brTaken 3 x.toNat y.toNat = true ↔ x.toInt < y.toInt := by
  simp only [brTaken, sint_toNat, decide_eq_true_eq]
theorem brTaken_signedGreaterEqual : brTaken 4 x.toNat y.toNat = true ↔ y.toInt ≤ x.toInt := by
  simp only [brTaken, sint_toNat, decide_eq_true_eq]
theorem brTaken_less : brTaken 5 x.toNat y.toNat = true ↔ x.toNat < y.toNat := decide_eq_true_iff
theorem brTaken_greaterEqual : brTaken 6 x.toNat y.toNat = true ↔ y.toNat ≤ x.toNat := decide_eq_true_iff

end

/-- Settles O17: each operation's value, cut to 64 bits, is the word operation's, and each condition compares the words. -/
theorem aluAndBranchMeanings : Obligations.AluAndBranchMeanings := fun x y =>
  ⟨fun k => aluOp_lt k _ _, aluOp_sum x y, aluOp_difference x y, aluOp_and x y, aluOp_or x y, aluOp_xor x y,
    aluOp_shiftLeft x y, aluOp_shiftRight x y, aluOp_sshiftRight x y, aluOp_signedMin x y, aluOp_signedMax x y,
    aluOp_min x y, aluOp_max x y, aluOp_signedLess x y, aluOp_less x y, aluOp_equal x y, aluOp_product x y,
    rfl, brTaken_equal x y, brTaken_notEqual x y, brTaken_signedLess x y, brTaken_signedGreaterEqual x y,
    brTaken_less x y, brTaken_greaterEqual x y⟩

end Sys2Proof.Machine
end

section
/-! PROOFS. INT32 lanes of the vector unit (O29): a lane's value is an integer, an order of integers and a quotient by 1
pass through the exact numbers unchanged, and a result outside the range is clamped. -/

namespace Sys2Proof.Machine

/-! ### Integers among the exact numbers -/

theorem mantAt_int (i : Int) : mantAt (decide (i < 0)) i.natAbs 0 (min 0 0) = i := by
  have h1 : pow2 (0 - min 0 0) = 1 := rfl
  simp only [mantAt, h1, decide_eq_true_eq]
  split <;> omega
theorem fpLt_ofInt (i j : Int) : fpLt (ofInt i) (ofInt j) = decide (i < j) := by
  simp only [fpLt, ofInt, mantAt_int]
  split
  · next h =>
    subst h
    by_cases hi : i < 0 <;> simp [hi]
  · rfl
theorem isZero_ofInt (i : Int) : (ofInt i).isZero = decide (i = 0) := by
  rw [Bool.eq_iff_iff, decide_eq_true_iff]
  exact beq_iff_eq.trans Int.natAbs_eq_zero
theorem isNan_ofInt (i : Int) : (ofInt i).isNan = false := rfl
theorem fpEq_ofInt (i j : Int) : fpEq (ofInt i) (ofInt j) = decide (i = j) := by
  simp only [fpEq, isNan_ofInt, isZero_ofInt, fpLt_ofInt]
  rw [Bool.eq_iff_iff]
  simp
  omega
theorem fpLtIeee_ofInt (i j : Int) : fpLtIeee (ofInt i) (ofInt j) = decide (i < j) := by
  rw [fpLtIeee, fpLt_ofInt, isZero_ofInt, isZero_ofInt, Bool.eq_iff_iff]
  simp
  omega
/-- The quotient of an integer by 1 is the integer, clamped. -/
theorem quotToInt_one (lo hi i : Int) : quotToInt lo hi (fpDiv (ofInt i) (ofInt 1)) = clampInt lo hi i := by
  have hr : rnaDiv (i.natAbs * pow2 (0 - 0)) (1 * pow2 (-(0 - 0))) = i.natAbs := by
    simp only [rnaDiv, pow2]
    simp
    omega
  have hq : fpDiv (ofInt i) (ofInt 1) = .ratio (decide (i < 0) != false) i.natAbs 1 (0 - 0) := rfl
  rw [hq, quotToInt, hr]
  refine congrArg (clampInt lo hi) ?_
  simp only [Bool.bne_false, decide_eq_true_eq]
  split <;> omega

/-! ### Lanes (R325) -/

section
variable {a b : Nat}

/-- A result of the signed operations: the exact value clamped to 32 bits, and whether it was clamped. -/
theorem vSat_clamps (x : Int) : sx 32 (vSat x).1 = max (-2147483648) (min 2147483647 x) ∧ (vSat x).1 < 2 ^ 32 ∧
    ((vSat x).2 = true ↔ x < -2147483648 ∨ 2147483647 < x) := by
  refine ⟨sx32_ux_satI32 x, ux_lt 32 _, ?_⟩
  rw [vSat, satI32_flag, satI32_eq]
  omega

theorem vArith_int (op : Nat) : vArith op 2 a b =
    vSat (if op = 3 then sx 32 a + sx 32 b else if op = 4 then sx 32 a - sx 32 b else sx 32 a * sx 32 b) := rfl
theorem vVal_int : vVal 2 a = ofInt (sx 32 a) := rfl

theorem vMax_int : sx 32 (vMinMax false 2 a b) = max (sx 32 a) (sx 32 b) := by
  have ha := sx32_range a
  have hb := sx32_range b
  exact sx32_ux (i := max (sx 32 a) (sx 32 b)) (by omega) (by omega)
theorem vMin_int : sx 32 (vMinMax true 2 a b) = min (sx 32 a) (sx 32 b) := by
  have ha := sx32_range a
  have hb := sx32_range b
  exact sx32_ux (i := min (sx 32 a) (sx 32 b)) (by omega) (by omega)

theorem vAbs_int (fr : Nat) (h : sx 32 a ≠ -2147483648) : sx 32 (vUnary 0 2 a fr) = max (sx 32 a) (- sx 32 a) := by
  have ha := sx32_range a
  have hv : vUnary 0 2 a fr = ux 32 ((sx 32 a).natAbs : Int) := by
    simp [vUnary, vInt, i32Min, h]
  rw [hv, sx32_ux (by omega) (by omega)]
  omega
theorem vNeg_int (fr : Nat) (h : sx 32 a ≠ -2147483648) : sx 32 (vUnary 1 2 a fr) = - sx 32 a := by
  have ha := sx32_range a
  have hv : vUnary 1 2 a fr = ux 32 (- sx 32 a) := by
    simp [vUnary, vInt, i32Min, h]
  rw [hv, sx32_ux (by omega) (by omega)]
theorem vUnary_lowest {k : Nat} (hk : k ≠ 2) (fr : Nat) (h : sx 32 a = -2147483648) : vUnary k 2 a fr = fr := by
  simp [vUnary, vInt, i32Min, h, hk]

theorem vDiv_zero (fr : Nat) (h : sx 32 b = 0) : vDiv 2 a b fr = fr := by
  simp [vDiv, vInt, h]
theorem vDiv_one (fr : Nat) (h : sx 32 b = 1) : sx 32 (vDiv 2 a b fr) = sx 32 a := by
  have ha := sx32_range a
  have hv : vDiv 2 a b fr = ux 32 (satI32 (sx 32 a)) := by
    simp [vDiv, vInt, h, quotToInt_one, satI32]
  rw [hv, sx32_ux_satI32, satI32_of_range (by omega) (by omega)]

end

/-- Settles O29: each lane operation is the integers' own, clamped or free where the result is no INT32. -/
theorem vectorIntegerLanesSaturate : Obligations.VectorIntegerLanesSaturate := by
  intro a b fr _ _ v sat
  refine ⟨vSat_clamps _, vSat_clamps _, vSat_clamps _, vMax_int, vMin_int, ?_, ?_, ?_, ?_, ?_, ?_, rfl,
    fun h => ⟨vAbs_int fr h, vNeg_int fr h⟩, fun h => ⟨vUnary_lowest (by decide) fr h, vUnary_lowest (by decide) fr h⟩,
    vDiv_zero fr, vDiv_one fr⟩
  all_goals simp only [vRel, vVal_int, fpEq_ofInt, fpLtIeee_ofInt, v]
  all_goals simp
  all_goals omega

end Sys2Proof.Machine
end

section
/-! PROOFS. Scalar registers and the PC (O16): what a write of a scalar register, a result on its way and the end of a
bundle leave. -/

namespace Sys2Proof.Machine

section
variable (s : State) (n c : Nat)

/-! ### A write of a scalar register (R302, R303) -/

@[simp] theorem sreg_zero : s.sreg n c 0 = 0 := rfl
@[simp] theorem spoison_zero : s.spoison n c 0 = false := rfl
@[simp] theorem setSreg_zero (v : Nat) (p : Bool) : s.setSreg n c 0 v p = s := rfl
@[simp] theorem later_zero (v k : Nat) (p : Bool) : s.later n c 0 v p k = s := rfl

theorem tctxReg_ne_tctxPoison {c i : Nat} (hi : i < 32) : regAddr (.tctxReg n c i) ≠ regAddr (.tctxPoison n c) := by
  simp only [regAddr]
  omega
theorem tctxReg_ne_tctxReg {i j : Nat} (h : i ≠ j) : regAddr (.tctxReg n c i) ≠ regAddr (.tctxReg n c j) := by
  simp only [regAddr]
  omega

section
variable {s n c} {i v : Nat} {p : Bool}

theorem setSreg_eq (hi : i ≠ 0) : s.setSreg n c i v p = (s.setWord (.tctxReg n c i) v).setWord (.tctxPoison n c)
    (withBits (s.word (.tctxPoison n c)) i i (b2n p)) := if_neg hi
theorem onlyRegs_setSreg : s.OnlyRegs (s.setSreg n c i v p) [.tctxReg n c i, .tctxPoison n c] := by
  unfold State.setSreg
  split
  · exact onlyRegs_refl ..
  · exact onlyRegs_setWord (onlyRegs_setWord (onlyRegs_refl ..) (by simp)) (by simp)

theorem sreg_setSreg_same (h0 : i ≠ 0) (hi : i < 32) : (s.setSreg n c i v p).sreg n c i = v % 2 ^ 64 := by
  rw [State.sreg, if_neg h0, setSreg_eq h0, State.word_setWord_other _ _ (tctxReg_ne_tctxPoison n hi),
    State.word_setWord_same]
theorem sreg_setSreg_other {j : Nat} (hj : j < 32) (hne : j ≠ i) : (s.setSreg n c i v p).sreg n c j = s.sreg n c j := by
  unfold State.sreg
  split
  · rfl
  · refine RegsBut.word onlyRegs_setSreg.1 ?_
    simp [tctxReg_ne_tctxReg n c hne, tctxReg_ne_tctxPoison n hj]

/-- The poison bit of each register after a write of one. -/
theorem bitAt_poison_setSreg (h0 : i ≠ 0) (hi : i < 32) {j : Nat} (hj : j < 32) :
    bitAt ((s.setSreg n c i v p).word (.tctxPoison n c)) j = if j = i then p else bitAt (s.word (.tctxPoison n c)) j := by
  have hj64 : j < 64 := by omega
  rw [setSreg_eq h0, State.word_setWord_same, bitAt_eq_testBit, Nat.testBit_mod_two_pow, testBit_withBits _ _ _ _ _ le_rfl,
    bitAt_eq_testBit]
  by_cases h : j = i
  · subst h
    cases p <;> simp [hj64, b2n]
  · have hout : ¬ (i ≤ j ∧ j ≤ i) := by omega
    simp only [hj64, hout, h, decide_true, Bool.true_and, if_false]
theorem spoison_setSreg_same (h0 : i ≠ 0) (hi : i < 32) : (s.setSreg n c i v p).spoison n c i = p := by
  rw [State.spoison, bitAt_poison_setSreg h0 hi hi, if_pos rfl, bne_iff_ne.mpr h0, Bool.true_and]
theorem spoison_setSreg_other (h0 : i ≠ 0) (hi : i < 32) {j : Nat} (hj : j < 32) (hne : j ≠ i) :
    (s.setSreg n c i v p).spoison n c j = s.spoison n c j := by
  rw [State.spoison, bitAt_poison_setSreg h0 hi hj, if_neg hne, State.spoison]

/-! ### A result on its way (R302, R337) -/

/-- A result of more than one cycle is on its way until its cycle. -/
theorem later_eq {k : Nat} (h0 : i ≠ 0) (hk : 1 < k) : s.later n c i v p k = s.modCore n fun x =>
    { x with slow := x.slow ++ [.reg (s.cyc n + k) c i (BitVec.ofNat 64 v) p] } := by
  rw [State.later, if_neg h0, if_neg (by omega)]
theorem regBusy_later {k : Nat} (h0 : i ≠ 0) (hk : 1 < k) : (s.later n c i v p k).regBusy n c i = true := by
  have hcyc : (s.later n c i v p k).cyc n = s.cyc n := by
    rw [later_eq h0 hk]
    exact cyc_eq rfl rfl (by rw [State.core_modCore_same]) (by rw [State.core_modCore_same])
  rw [State.regBusy, hcyc, later_eq h0 hk, State.core_modCore_same]
  have hk0 : 0 < k := by omega
  simp [h0, SlowOp.writes, hk0]

/-! ### The end of a bundle (R309, R332) -/

section
variable {k : Nat} (h : c ∉ (s.core n).stops)
include h

/-- Without a STOP that waits for it, the end of a bundle moves the PC and holds the core. -/
theorem bundleEnd_eq : bundleEnd n c v k s =
    (setPcTo n c v s).modCore n fun x => { x with notBefore := s.cyc n + k } := by
  unfold bundleEnd
  dsimp only
  rw [if_neg]
  simpa [setPcTo] using h
theorem core_bundleEnd : (bundleEnd n c v k s).core n = { s.core n with
    pcOut := if v < 2048 then (s.core n).pcOut.filter (· != c) else c :: (s.core n).pcOut, notBefore := s.cyc n + k } := by
  rw [bundleEnd_eq h, State.core_modCore_same, setPcTo, State.core_modCore_same, State.core_setFld]
theorem core_bundleEnd_other {m : Nat} (hm : m ≠ n) : (bundleEnd n c v k s).core m = s.core m := by
  rw [bundleEnd_eq h, State.core_modCore_other hm, setPcTo, State.core_modCore_other hm, State.core_setFld]
theorem pc_bundleEnd : (bundleEnd n c v k s).pc n c = v % 2048 := by
  rw [bundleEnd_eq h]
  exact (State.fld_setFld_same s _ _ _ (by decide)).trans (Nat.mod_mod ..)
theorem regsBut_bundleEnd : s.RegsBut (bundleEnd n c v k s) [.tctxPc n c] := by
  rw [bundleEnd_eq h]
  exact regsBut_setWord (t := s) (fun _ _ => rfl) (by simp)
theorem bundleEnd_rest : bundleEnd n c v k s = { s with
    regs := (bundleEnd n c v k s).regs, cores := (bundleEnd n c v k s).cores } := by
  rw [bundleEnd_eq h]
  rfl
/-- The core notes whether the context's PC lies outside the instruction buffer. -/
theorem pcOut_bundleEnd : ((bundleEnd n c v k s).core n).pcOut.contains c = decide (2048 ≤ v) := by
  rw [core_bundleEnd h]
  by_cases hv : v < 2048
  · simp [hv]
  · simp [hv, Nat.le_of_not_lt hv]

end
end
end

/-- Settles O16: each clause reads off what the update leaves in its register, its poison bit or its core. -/
theorem scalarRegisterAndPcUpdates : Obligations.ScalarRegisterAndPcUpdates := by
  intro s n c rd v k p hrd hv
  refine ⟨⟨rfl, rfl, rfl, rfl⟩, fun h0 => ?_, fun h0 hk => ?_, fun h => ?_⟩
  · refine ⟨onlyRegs_setSreg, (sreg_setSreg_same h0 hrd).trans (Nat.mod_eq_of_lt hv), spoison_setSreg_same h0 hrd,
      fun i hi hne => ⟨sreg_setSreg_other hi hne, spoison_setSreg_other h0 hrd hi hne⟩⟩
  · refine ⟨?_, ?_, fun m hm => ?_, ?_, regBusy_later h0 hk⟩ <;> rw [later_eq h0 hk]
    · rfl
    · rfl
    · exact State.core_modCore_other hm _
    · exact State.core_modCore_same ..
  · refine ⟨regsBut_bundleEnd h, bundleEnd_rest h, pc_bundleEnd h, fun m hm => core_bundleEnd_other h hm,
      pcOut_bundleEnd h, ?_⟩
    rw [core_bundleEnd h]

end Sys2Proof.Machine
end

section
/-! PROOFS. Events of a core (R314): which events and status words a set, a clear and a clear that keeps the signals of its own
cycle leave. -/

namespace Sys2Proof.Machine

/-! ### Words as sets of bits -/

/-- The word whose bits below 64 are those of p. -/
def bitWord (p : Nat → Bool) (k : Nat) : Nat := ((List.range k).filter p).foldl (fun a e => a + 2 ^ e) 0

theorem bitWord_succ (p : Nat → Bool) (k : Nat) : bitWord p (k + 1) = bitWord p k + if p k then 2 ^ k else 0 := by
  cases h : p k <;> simp [bitWord, List.range_succ, List.filter_append, h]
theorem bitWord_lt (p : Nat → Bool) (k : Nat) : bitWord p k < 2 ^ k := by
  induction k with
  | zero => exact Nat.one_pos
  | succ k ih =>
    rw [bitWord_succ]
    split <;> omega
theorem testBit_bitWord (p : Nat → Bool) (k i : Nat) : (bitWord p k).testBit i = (decide (i < k) && p i) := by
  induction k with
  | zero => simp [bitWord]
  | succ k ih =>
    have hlt := bitWord_lt p k
    rw [bitWord_succ]
    by_cases hik : i = k
    · subst hik
      cases hp : p i
      · simp [ih]
      · simp [Nat.add_comm _ (2 ^ i), Nat.testBit_two_pow_add_eq, ih]
    · have hsplit : (bitWord p k + if p k then 2 ^ k else 0).testBit i = (bitWord p k).testBit i := by
        split
        · by_cases hi : i < k
          · rw [Nat.add_comm, Nat.testBit_two_pow_add_gt hi]
          · rw [Nat.testBit_lt_two_pow (x := bitWord p k) (lt_of_lt_of_le hlt (Nat.pow_le_pow_right (by decide) (by omega)))]
            refine Nat.testBit_lt_two_pow (lt_of_lt_of_le (b := 2 ^ (k + 1)) (by omega) (Nat.pow_le_pow_right (by decide) (by omega)))
        · rw [Nat.add_zero]
      have hdec : decide (i < k) = decide (i < k + 1) := decide_eq_decide.mpr (by omega)
      rw [hsplit, ih, hdec]
/-- The bits of a word without some of them. -/
theorem bitWord_sub (p q : Nat → Bool) (k : Nat) : bitWord p k - bitWord (fun e => p e && q e) k = bitWord (fun e => p e && !q e) k := by
  have hsum : bitWord p k = bitWord (fun e => p e && q e) k + bitWord (fun e => p e && !q e) k := by
    induction k with
    | zero => rfl
    | succ k ih =>
      rw [bitWord_succ, bitWord_succ, bitWord_succ, ih]
      cases p k <;> cases q k <;> simp <;> omega
  omega
theorem mod_eq_bitWord (v : Nat) : v % 2 ^ 64 = bitWord (bitAt v) 64 := by
  apply Nat.eq_of_testBit_eq
  intro i
  rw [testBit_bitWord, Nat.testBit_mod_two_pow, bitAt_eq_testBit]
/-- The bits of a word that a mask does not name. -/
theorem testBit_and_not (w v : Nat) {i : Nat} (hi : i < 64) :
    (w &&& (2 ^ 64 - 1 - v % 2 ^ 64)).testBit i = (w.testBit i && !v.testBit i) := by
  have hsub : 2 ^ 64 - 1 - v % 2 ^ 64 = 2 ^ 64 - (v % 2 ^ 64 + 1) := by omega
  rw [hsub, Nat.testBit_and, Nat.testBit_two_pow_sub_succ (Nat.mod_lt _ (Nat.two_pow_pos 64)), Nat.testBit_mod_two_pow]
  simp [hi]

/-! ### Status words (R314) -/

/-- The registers of a core's events. -/
def eventRegs (n : Nat) : List Reg := .scEvent n :: (List.range 64).map (.scEvstat n)

theorem scEvent_mem_eventRegs (n : Nat) : regAddr (.scEvent n) ∈ (eventRegs n).map regAddr :=
  List.mem_map_of_mem (List.mem_cons_self ..)
theorem scEvstat_mem_eventRegs {n e : Nat} (he : e < 64) : regAddr (.scEvstat n e) ∈ (eventRegs n).map regAddr :=
  List.mem_map_of_mem (List.mem_cons_of_mem _ (List.mem_map_of_mem (List.mem_range.mpr he)))
theorem scEvstat_ne {n e i : Nat} (h : i ≠ e) : regAddr (.scEvstat n i) ≠ regAddr (.scEvstat n e) := by
  simp only [regAddr]
  omega

/-- The status words of a list of events stored. -/
def State.setEvstats (s : State) (n : Nat) (l : List Nat) (v : Nat → Nat) : State :=
  l.foldl (fun s e => s.setWord (.scEvstat n e) (v e)) s

section
variable {s : State} {n : Nat} {l : List Nat} {v : Nat → Nat}

theorem onlyRegs_setEvstats (hl : ∀ e ∈ l, e < 64) : s.OnlyRegs (s.setEvstats n l v) (eventRegs n) :=
  List.foldlRecOn (motive := fun t => s.OnlyRegs t (eventRegs n)) l _ (onlyRegs_refl ..)
    fun _ ht e he => onlyRegs_setWord ht (scEvstat_mem_eventRegs (hl e he))
theorem word_scEvent_setEvstats (hl : ∀ e ∈ l, e < 64) : (s.setEvstats n l v).word (.scEvent n) = s.word (.scEvent n) :=
  List.foldlRecOn (motive := fun t : State => t.word (.scEvent n) = s.word (.scEvent n)) l _ rfl
    fun _ ht e he => (State.word_setWord_other _ _ (scEvent_ne_scEvstat (hl e he))).trans ht
theorem word_setEvstats_mem {e : Nat} (he : e ∈ l) : (s.setEvstats n l v).word (.scEvstat n e) = v e % 2 ^ 64 :=
  foldl_establishes (P := fun t : State => t.word (.scEvstat n e) = v e % 2 ^ 64) he
    (fun t => State.word_setWord_same t ..)
    (fun _ _ _ hne ht => (State.word_setWord_other _ _ (scEvstat_ne hne.symm)).trans ht) s
theorem word_setEvstats_notMem {e : Nat} (he : e ∉ l) : (s.setEvstats n l v).word (.scEvstat n e) = s.word (.scEvstat n e) :=
  List.foldlRecOn (motive := fun t : State => t.word (.scEvstat n e) = s.word (.scEvstat n e)) l _ rfl
    fun _ ht _ hi => (State.word_setWord_other _ _ (scEvstat_ne (ne_of_mem_of_not_mem hi he).symm)).trans ht
theorem core_setEvstats (m : Nat) : (s.setEvstats n l v).core m = s.core m :=
  List.foldlRecOn (motive := fun t : State => t.core m = s.core m) l _ rfl fun _ ht _ _ => ht
/-- Storing status words changes no core, so a value may be read from the core on the way. -/
theorem setEvstats_eq (g : Core → Nat → Nat) : l.foldl (fun s e => s.setWord (.scEvstat n e) (g (s.core n) e)) s =
    s.setEvstats n l (g (s.core n)) := by
  induction l generalizing s with
  | nil => rfl
  | cons e l ih => exact ih

end

/-! ### A clear (R314) -/

section
variable (s : State) (n mask : Nat)

theorem clearEvents_eq : s.clearEvents n mask =
    let u := s.setEvstats n ((List.range 64).filter (bitAt mask)) (fun _ => 0)
    u.setWord (.scEvent n) (u.word (.scEvent n) &&& (2 ^ 64 - 1 - mask % 2 ^ 64)) := by
  rw [State.clearEvents, State.setEvstats, List.foldl_filter]

/-- An event of the mask that a signal reaches in the cycle of its clear: it keeps that signal, unless the signal is what
the clearing EVWAIT waited for. -/
def State.keepsSignal (wait : Bool) (e : Nat) : Bool :=
  bitAt (s.word (.scEvent n)) e &&
    (tabFind (s.core n).sigs e).any fun o => decide (o.cyc = s.cyc n) && (o.wasSet || !wait)
/-- The events that a clear leaves. -/
def State.keptEvents (wait : Bool) : List Nat :=
  (List.range 64).filter fun e => bitAt mask e && s.keepsSignal n wait e

theorem clearNow_eq (wait : Bool) : s.clearNow n mask wait =
    (s.clearEvents n (bitWord (fun e => bitAt mask e && !s.keepsSignal n wait e) 64)).setEvstats n (s.keptEvents n mask wait)
      fun e => ((tabFind (s.core n).sigs e).map SigNow.status).getD 0 := by
  have hcleared : mask % 2 ^ 64 - (s.keptEvents n mask wait).foldl (fun a e => a + 2 ^ e) 0 =
      bitWord (fun e => bitAt mask e && !s.keepsSignal n wait e) 64 := by
    rw [mod_eq_bitWord]
    exact bitWord_sub (bitAt mask) (s.keepsSignal n wait) 64
  have hcore : ∀ v, (s.clearEvents n v).core n = s.core n := fun v => by
    rw [clearEvents_eq, State.core_setWord, core_setEvstats]
  rw [← hcleared, ← hcore, ← setEvstats_eq fun k e => ((tabFind k.sigs e).map SigNow.status).getD 0]
  simp only [State.clearNow, State.keptEvents, State.keepsSignal, Bool.and_assoc]

end

section
variable {s : State} {n mask : Nat} {wait : Bool}

theorem onlyRegs_clearEvents : s.OnlyRegs (s.clearEvents n mask) (eventRegs n) := by
  rw [clearEvents_eq]
  exact onlyRegs_setWord (onlyRegs_setEvstats fun e he => List.mem_range.mp (List.mem_of_mem_filter he)) (scEvent_mem_eventRegs n)
theorem keptEvents_lt : ∀ e ∈ s.keptEvents n mask wait, e < 64 :=
  fun _ he => List.mem_range.mp (List.mem_of_mem_filter he)
theorem onlyRegs_clearNow : s.OnlyRegs (s.clearNow n mask wait) (eventRegs n) := by
  rw [clearNow_eq]
  exact onlyRegs_trans onlyRegs_clearEvents (onlyRegs_setEvstats keptEvents_lt)

variable {e : Nat} (he : e < 64)
include he

theorem bitAt_clearEvents :
    bitAt ((s.clearEvents n mask).word (.scEvent n)) e = (bitAt (s.word (.scEvent n)) e && !bitAt mask e) := by
  rw [clearEvents_eq, State.word_setWord_same,
    word_scEvent_setEvstats fun e he => List.mem_range.mp (List.mem_of_mem_filter he)]
  simp only [bitAt_eq_testBit, Nat.testBit_mod_two_pow, testBit_and_not _ _ he, he, decide_true, Bool.true_and]
theorem evstat_clearEvents (hm : bitAt mask e = true) : (s.clearEvents n mask).word (.scEvstat n e) = 0 := by
  rw [clearEvents_eq, State.word_setWord_other _ _ (scEvent_ne_scEvstat he).symm,
    word_setEvstats_mem (List.mem_filter.mpr ⟨List.mem_range.mpr he, hm⟩), Nat.zero_mod]
theorem evstat_clearEvents_other (hm : bitAt mask e = false) :
    (s.clearEvents n mask).word (.scEvstat n e) = s.word (.scEvstat n e) := by
  rw [clearEvents_eq, State.word_setWord_other _ _ (scEvent_ne_scEvstat he).symm, word_setEvstats_notMem]
  simp [hm]

theorem bitAt_bitWord (p : Nat → Bool) : bitAt (bitWord p 64) e = p e := by
  rw [bitAt_eq_testBit, testBit_bitWord, decide_eq_true he, Bool.true_and]
theorem mem_keptEvents : e ∈ s.keptEvents n mask wait ↔ bitAt mask e = true ∧ s.keepsSignal n wait e = true := by
  simp [State.keptEvents, he]

/-- An event stays set unless the mask names it and no signal of this cycle keeps it. -/
theorem bitAt_clearNow : bitAt ((s.clearNow n mask wait).word (.scEvent n)) e =
    (bitAt (s.word (.scEvent n)) e && !(bitAt mask e && !s.keepsSignal n wait e)) := by
  rw [clearNow_eq, word_scEvent_setEvstats keptEvents_lt, bitAt_clearEvents he, bitAt_bitWord he]
theorem evstat_clearNow_other (hm : bitAt mask e = false) :
    (s.clearNow n mask wait).word (.scEvstat n e) = s.word (.scEvstat n e) := by
  rw [clearNow_eq, word_setEvstats_notMem (by simp [mem_keptEvents he, hm]),
    evstat_clearEvents_other he (by rw [bitAt_bitWord he, hm, Bool.false_and])]
theorem evstat_clearNow_cleared (hm : bitAt mask e = true) (hk : s.keepsSignal n wait e = false) :
    (s.clearNow n mask wait).word (.scEvstat n e) = 0 := by
  rw [clearNow_eq, word_setEvstats_notMem (by simp [mem_keptEvents he, hk]),
    evstat_clearEvents he (by rw [bitAt_bitWord he, hm, hk]; rfl)]
theorem evstat_clearNow_kept (hm : bitAt mask e = true) (hk : s.keepsSignal n wait e = true) {o : SigNow}
    (ho : tabFind (s.core n).sigs e = some o) : (s.clearNow n mask wait).word (.scEvstat n e) = o.status % 2 ^ 64 := by
  rw [clearNow_eq, word_setEvstats_mem ((mem_keptEvents he).mpr ⟨hm, hk⟩), ho]
  rfl

end

/-! ### A set (R314) -/

section
variable {s : State} {n : Nat}

/-- The events of a list signalled with status OK. -/
def State.signalAll (s : State) (n : Nat) (l : List Nat) : State := l.foldl (fun s e => s.signal n e {}) s

theorem eventSet_eq (mask : Nat) : eventSet n mask s = s.signalAll n ((List.range 64).filter (bitAt mask)) := by
  rw [State.signalAll, List.foldl_filter]
  rfl

variable {l : List Nat}

theorem signalAll_rest : s.signalAll n l = { s with regs := (s.signalAll n l).regs, cores := (s.signalAll n l).cores } :=
  List.foldlRecOn (motive := fun t : State => t = { s with regs := t.regs, cores := t.cores }) l _ rfl
    fun t ht e _ => by rw [signal_rest, ht]
theorem core_signalAll_other {m : Nat} (hm : m ≠ n) : (s.signalAll n l).core m = s.core m :=
  List.foldlRecOn (motive := fun t : State => t.core m = s.core m) l _ rfl
    fun _ ht _ _ => (core_signal_other hm).trans ht
theorem regsBut_signalAll (hl : ∀ e ∈ l, e < 64) : s.RegsBut (s.signalAll n l) (eventRegs n) :=
  List.foldlRecOn (motive := fun t : State => s.RegsBut t (eventRegs n)) l _ (regsBut_refl s _) fun t ht e he =>
    regsBut_trans ht (regsBut_mono (signal_regs t n e {}) (by
      simp [eventRegs, hl e he]))
theorem evstat_signalAll {e : Nat} (he : e < 64) (hm : e ∉ l) :
    (s.signalAll n l).word (.scEvstat n e) = s.word (.scEvstat n e) :=
  List.foldlRecOn (motive := fun t : State => t.word (.scEvstat n e) = s.word (.scEvstat n e)) l _ rfl fun t ht i hi =>
    (RegsBut.word (signal_regs t n i {}) (by
      simp [(scEvent_ne_scEvstat he).symm, scEvstat_ne (ne_of_mem_of_not_mem hi hm).symm])).trans ht
theorem bitAt_signalAll {e : Nat} (hl : ∀ e ∈ l, e < 64) :
    bitAt ((s.signalAll n l).word (.scEvent n)) e = (bitAt (s.word (.scEvent n)) e || decide (e ∈ l)) := by
  induction l generalizing s with
  | nil => simp [State.signalAll]
  | cons i l ih =>
    have hi : i < 64 := hl i (List.mem_cons_self ..)
    have hrest : (s.signalAll n (i :: l)) = (s.signal n i {}).signalAll n l := rfl
    rw [hrest, ih fun e he => hl e (List.mem_cons_of_mem _ he)]
    by_cases h : e = i
    · subst h
      simp [bitAt_signal_same hi]
    · simp [bitAt_signal_other hi h, h]

end

/-! ### What neither touches -/

@[simp] theorem hif_clearNow (s : State) (n mask : Nat) (wait : Bool) : (s.clearNow n mask wait).hif = s.hif := by
  rw [(onlyRegs_clearNow (s := s)).2]
@[simp] theorem hif_eventSet (n mask : Nat) (s : State) : (eventSet n mask s).hif = s.hif := by
  rw [eventSet_eq, signalAll_rest]

end Sys2Proof.Machine
end

section
/-! PROOFS. Context controls (O23): START, STOP and RESET of a task context, clears and sets of core events, the task
watchdog. -/

namespace Sys2Proof.Machine

section
variable {s : State} {n c : Nat}

/-! ### The state of a context (R331) -/

theorem ctx_setCtx (st : Nat) (h : st < 8) : (s.setCtx n c st).ctx n c = st :=
  (State.fld_setFld_same s _ _ _ (by decide)).trans (Nat.mod_eq_of_lt h)
theorem regsBut_setCtx (st : Nat) : s.RegsBut (s.setCtx n c st) [.tctxStat n c] :=
  regsBut_setWord (regsBut_refl s _) (by simp)
theorem ctxLive_iff : s.ctxLive n c = true ↔ s.ctx n c ∈ [ctxReady, ctxRunning, ctxWaiting] := by
  simp [State.ctxLive, or_assoc]

/-- A core that a context leaves: it runs no more, waits no more, and no STOP of it waits. -/
def Core.left (x : Core) (c : Nat) : Core :=
  { x with
    running := if x.running = some c then none else x.running
    rep := if x.running = some c then 0 else x.rep
    waits := tabDel x.waits c
    stops := x.stops.filter (· != c) }
theorem leaveCore_eq (h : (s.core n).stall = none) : leaveCore n c s = s.modCore n fun x => x.left c := by
  simp [leaveCore, State.doIf, h, Core.left, State.modCore]
theorem running_left (x : Core) (c : Nat) : (x.left c).running ≠ some c := by
  unfold Core.left
  dsimp only
  split
  · exact fun h => nomatch h
  · assumption

/-! ### START, STOP and RESET (R336) -/

/-- A context that is IDLE and leaves its core. -/
def State.idled (s : State) (n c : Nat) : State := leaveCore n c (s.setCtx n c ctxIdle)

theorem tctxStart_refused (h : s.ctx n c ≠ ctxIdle) : tctxStart n c s = s.conflict (scSrc n) (regAddr (.tctxCtl n c)) 1 :=
  if_pos h
theorem tctxStart_outside (h : s.ctx n c = ctxIdle) (hpc : s.inCode n c (s.pc n c) = false ∨ c ∈ (s.core n).pcOut) :
    tctxStart n c s = s.refuseWrite (scSrc n) (regAddr (.tctxCtl n c)) 1 ecDescRange := by
  rw [tctxStart, if_neg (not_not.mpr h), if_pos (by simpa using hpc)]
theorem tctxStart_starts (h : s.ctx n c = ctxIdle) (hpc : s.inCode n c (s.pc n c) = true) (hout : c ∉ (s.core n).pcOut) :
    tctxStart n c s = s.setCtx n c ctxReady := by
  rw [tctxStart, if_neg (not_not.mpr h), if_neg (by simp [hpc, hout])]

theorem tctxStop_other (h : s.ctx n c ∉ [ctxReady, ctxRunning, ctxWaiting]) : tctxStop n c s = s :=
  if_neg (mt ctxLive_iff.mp h)
theorem tctxStop_repeat (h : s.ctx n c ∈ [ctxReady, ctxRunning, ctxWaiting]) (hrun : (s.core n).running = some c)
    (hrep : (s.core n).rep ≠ 0) : tctxStop n c s = s.modCore n fun x => { x with stops := c :: x.stops } := by
  rw [tctxStop, if_pos (ctxLive_iff.mpr h), if_pos ⟨hrun, hrep⟩]
theorem tctxStop_stops (h : s.ctx n c ∈ [ctxReady, ctxRunning, ctxWaiting])
    (hb : (s.core n).running ≠ some c ∨ (s.core n).rep = 0) : tctxStop n c s = s.idled n c := by
  rw [tctxStop, if_pos (ctxLive_iff.mpr h), if_neg (by
    rintro ⟨hrun, hrep⟩
    exact hb.elim (· hrun) hrep)]
  rfl

section
variable (h : (s.core n).stall = none)
include h

theorem idled_eq : s.idled n c = (s.setCtx n c ctxIdle).modCore n fun x => x.left c := leaveCore_eq h
theorem core_idled : (s.idled n c).core n = (s.core n).left c := by
  rw [idled_eq h, State.core_modCore_same]
  rfl
theorem core_idled_other {m : Nat} (hm : m ≠ n) : (s.idled n c).core m = s.core m := by
  rw [idled_eq h, State.core_modCore_other hm]
  rfl
theorem regsBut_idled : s.RegsBut (s.idled n c) [.tctxStat n c] := by
  rw [idled_eq h]
  exact regsBut_setCtx ctxIdle
theorem idled_rest : s.idled n c = { s with regs := (s.idled n c).regs, cores := (s.idled n c).cores } := by
  rw [idled_eq h]
  rfl
theorem ctx_idled : (s.idled n c).ctx n c = ctxIdle := by
  rw [idled_eq h]
  exact ctx_setCtx ctxIdle (by decide)

end

/-- What RESET does beside making the context IDLE. -/
theorem tctxReset_eq : tctxReset n c s =
    ((((s.idled n c).setFld (.tctxPc n c) F.tctxPcPc ((s.idled n c).fld (.tctxCode n c) F.tctxCodeBase)).modCore n
      fun x => { x with pcOut := x.pcOut.filter (· != c) }).setWord (.tctxPoison n c) 0) := rfl

section
variable (h : (s.core n).stall = none)
include h

theorem core_tctxReset : (tctxReset n c s).core n =
    { (s.core n).left c with pcOut := (s.core n).pcOut.filter (· != c) } := by
  rw [tctxReset_eq, State.core_setWord, State.core_modCore_same, State.core_setFld, core_idled h]
  rfl
theorem core_tctxReset_other {m : Nat} (hm : m ≠ n) : (tctxReset n c s).core m = s.core m := by
  rw [tctxReset_eq, State.core_setWord, State.core_modCore_other hm, State.core_setFld, core_idled_other h hm]
theorem regsBut_tctxReset : s.RegsBut (tctxReset n c s) [.tctxStat n c, .tctxPc n c, .tctxPoison n c] := by
  rw [tctxReset_eq]
  refine regsBut_setWord (t := State.modCore _ _ _) (regsBut_setWord (t := s.idled n c) ?_ (by simp)) (by simp)
  exact regsBut_mono (regsBut_idled h) (by simp)
theorem tctxReset_rest : tctxReset n c s = { s with regs := (tctxReset n c s).regs, cores := (tctxReset n c s).cores } := by
  rw [tctxReset_eq, idled_eq h]
  rfl
theorem ctx_tctxReset : (tctxReset n c s).ctx n c = ctxIdle := by
  rw [tctxReset_eq, State.ctx, State.fld_setWord_other _ _ _ (by simp only [regAddr]; omega)]
  exact (State.fld_setFld_other _ _ _ _ (by simp only [regAddr]; omega)).trans (ctx_idled h)
theorem pc_tctxReset : (tctxReset n c s).pc n c = s.fld (.tctxCode n c) F.tctxCodeBase := by
  have hbase : (s.idled n c).fld (.tctxCode n c) F.tctxCodeBase = s.fld (.tctxCode n c) F.tctxCodeBase :=
    RegsBut.fld (regsBut_idled h) _ (by simp only [List.map_cons, List.map_nil, List.mem_singleton, regAddr]; omega)
  rw [tctxReset_eq, State.pc, State.fld_setWord_other _ _ _ (by simp only [regAddr]; omega), hbase]
  exact (State.fld_setFld_same _ _ _ _ (by decide)).trans (Nat.mod_eq_of_lt (State.fld_lt ..))
omit h in
theorem spoison_tctxReset (i : Nat) : (tctxReset n c s).spoison n c i = false := by
  rw [tctxReset_eq, State.spoison, State.word_setWord_same]
  simp [bitAt]

end

/-! ### The task watchdog (R335) -/

/-- The watchdog's limit in root ticks. -/
def State.hangTicks (s : State) (n : Nat) : Nat := s.fld (.scTaskWdog n) F.scTaskWdogLimit * 1000 * fabTicks
/-- The limit of a wait has passed, and that is noted. -/
def State.hungNoted (s : State) (n c : Nat) (w : Wait) : State :=
  (s.advance (w.since + s.hangTicks n)).modCore n fun x => { x with waits := tabSet x.waits c { w with hung := true } }

theorem hangTicks_eq_zero : s.hangTicks n = 0 ↔ s.fld (.scTaskWdog n) F.scTaskWdogLimit = 0 := by
  simp [State.hangTicks, fabTicks]
theorem taskWatchdog_off (h : s.fld (.scTaskWdog n) F.scTaskWdogLimit = 0) : taskWatchdog n c s = s :=
  if_pos (hangTicks_eq_zero.mpr h)
theorem taskWatchdog_reported {w : Wait} (hw : tabFind (s.core n).waits c = some w) (h : w.hung = true) :
    taskWatchdog n c s = s := by
  unfold taskWatchdog
  dsimp only
  rw [hw]
  simp [h]
theorem taskWatchdog_fires {w : Wait} (hw : tabFind (s.core n).waits c = some w) (h : w.hung = false)
    (hlim : s.fld (.scTaskWdog n) F.scTaskWdogLimit ≠ 0) : ∃ cause, taskWatchdog n c s =
      taskHang n c cause w.since (s.hungNoted n c w) := by
  have hticks := mt hangTicks_eq_zero.mp hlim
  unfold State.hangTicks at hticks
  unfold taskWatchdog
  dsimp only
  rw [hw, if_neg hticks]
  simp only [h]
  exact ⟨_, rfl⟩

/-- The report of a hang is one error event. -/
theorem errorRaised_taskHang (s : State) (n c cause since : Nat) : ErrorRaised s (taskHang n c cause since s) :=
  errorRaised_raise s rfl

end

section
variable {s : State} {n : CoreId} {c : CtxId}

theorem taskWatchdog_leaves {w : Wait} (hw : tabFind (s.core n).waits c = some w) (h : w.hung = false)
    (hlim : s.fld (.scTaskWdog n) F.scTaskWdogLimit ≠ 0) : let t := taskWatchdog n c s
    (∀ m, m ≠ n.val → t.core m = s.core m) ∧
    t.now = max s.now (w.since + s.fld (.scTaskWdog n) F.scTaskWdogLimit * 1000 * fabTicks) ∧
    tabFind (t.core n).waits c = some { w with hung := true } ∧ s.RegsButErr t [] ∧
    t.fld .errHead F.errHeadSeq = (s.fld .errHead F.errHeadSeq + 1) % 2 ^ 32 ∧ t.mem = s.mem ∧ t.hif = s.hif := by
  intro t
  obtain ⟨cause, hfire⟩ := taskWatchdog_fires hw h hlim
  obtain ⟨hseq, hregs, hrest⟩ := errorRaised_taskHang (s.hungNoted n c w) n c cause w.since
  have ht : t = taskHang n c cause w.since (s.hungNoted n c w) := hfire
  rw [← ht] at hseq hregs hrest
  have hcore : ∀ m, t.core m = (s.hungNoted n c w).core m := fun m => by rw [hrest]; rfl
  refine ⟨fun m hm => (hcore m).trans (State.core_modCore_other hm _), ?_, ?_, hregs, hseq, ?_, ?_⟩
  · rw [hrest]
    rfl
  · rw [hcore, State.hungNoted, State.core_modCore_same]
    exact tabFind_set_same ..
  · rw [hrest]
    rfl
  · rw [hrest]
    rfl

end

/-! ### What the commands answer -/

section
variable {s : State} {n : CoreId} (hd : s.dead = false) (hs : s.Settled n)
include hd hs

theorem answers_scEventClear (mask : Word) : Answers (.scEventClear n mask) s (s.clearNow n mask.toNat false) :=
  answers_core (f := fun s => s.clearNow n mask.toNat false) hd hs rfl rfl (kernels_of_hif hs (hif_clearNow ..))
theorem answers_scEventSet (mask : Word) :
    Answers (.scEventSet n mask) s (s.signalAll n ((List.range 64).filter (bitAt mask.toNat))) :=
  answers_core (f := eventSet n mask.toNat) hd hs rfl (eventSet_eq _) (kernels_of_hif hs (by rw [signalAll_rest]))

end

/-- Settles O23: nothing is due, so each command answers what its meaning leaves. -/
theorem taskContextControls : Obligations.TaskContextControls := by
  intro s n c hd hs same
  have hk := kernels_of_settled hs
  refine ⟨fun h => ?_, fun h hpc => ?_, fun h hpc hout => ?_, fun h => ?_, fun h hstall => ⟨fun hrun hrep => ?_, fun hb => ?_⟩,
    fun hstall => ?_, fun mask => ?_, fun mask => ?_, fun h => ?_, fun w hw hlim => ⟨fun h => ?_, fun h => ?_⟩⟩
  · refine answers_core hd hs rfl (tctxStart_refused h) (kernels_of_hif hs ?_)
    rw [(errorRaised_conflict s _ _ _).2.2]
  · refine answers_core hd hs rfl (tctxStart_outside h hpc) (kernels_of_hif hs ?_)
    rw [(errorRaised_refuseWrite s _ _ _ rfl).2.2]
  · exact ⟨_, answers_core hd hs rfl (tctxStart_starts h hpc hout) hk, onlyRegs_setFld (onlyRegs_refl s _) (by simp),
      ctx_setCtx ctxReady (by decide)⟩
  · exact answers_core hd hs rfl (tctxStop_other h) hk
  · exact ⟨_, answers_core hd hs rfl (tctxStop_repeat h hrun hrep) hk, rfl, by rw [State.core_modCore_same]⟩
  · refine ⟨_, answers_core hd hs rfl (tctxStop_stops h hb) (kernels_of_hif hs (by rw [idled_rest hstall])),
      fun m hm => core_idled_other hstall hm, regsBut_idled hstall, idled_rest hstall, ctx_idled hstall, ?_, ?_⟩ <;>
      rw [core_idled hstall]
    · exact running_left _ _
    · exact tabFind_del_same ..
  · refine ⟨_, answers_core hd hs rfl rfl (kernels_of_hif hs (by rw [tctxReset_rest hstall])),
      fun m hm => core_tctxReset_other hstall hm, regsBut_tctxReset hstall, tctxReset_rest hstall, ctx_tctxReset hstall,
      pc_tctxReset hstall, spoison_tctxReset, ?_⟩
    rw [core_tctxReset hstall]
    exact running_left _ _
  · refine ⟨_, answers_scEventClear hd hs mask, onlyRegs_clearNow, fun e he => ?_⟩
    rw [← bitAt_eq_testBit]
    intro set
    refine ⟨fun hm => ⟨?_, evstat_clearNow_other he hm⟩, fun o hm hset ho hcyc => ?_, fun hm hno => ?_⟩
    · rw [bitAt_clearNow he, hm, Bool.false_and, Bool.not_false, Bool.and_true]
    · have hkeep : s.keepsSignal n false e = true := by
        simp only [State.keepsSignal, ho]
        simp [show bitAt (s.word (.scEvent n)) e = true from hset, hcyc]
      refine ⟨?_, evstat_clearNow_kept he hm hkeep ho⟩
      rw [bitAt_clearNow he, hkeep, Bool.not_true, Bool.and_false, Bool.not_false, Bool.and_true]
      exact hset
    · have hkeep : s.keepsSignal n false e = false := by
        simp only [State.keepsSignal, Bool.and_eq_false_iff, Option.any_eq_false]
        exact .inr fun o ho => by simp [hno o ho]
      refine ⟨?_, evstat_clearNow_cleared he hm hkeep⟩
      rw [bitAt_clearNow he, hm, hkeep, Bool.not_false, Bool.and_true, Bool.not_true, Bool.and_false]
  · have hlt : ∀ e ∈ (List.range 64).filter (bitAt mask.toNat), e < 64 :=
      fun e he => List.mem_range.mp (List.mem_of_mem_filter he)
    refine ⟨_, answers_scEventSet hd hs mask, fun m hm => core_signalAll_other hm, regsBut_signalAll hlt, signalAll_rest,
      fun e he => ⟨?_, fun hm => evstat_signalAll he ?_⟩⟩
    · rw [bitAt_signalAll hlt, ← bitAt_eq_testBit mask.toNat]
      simp [he]
    · simp [bitAt_eq_testBit, hm]
  · exact answers_core hd hs rfl (taskWatchdog_off h) hk
  · exact answers_core hd hs rfl (taskWatchdog_reported hw h) hk
  · obtain ⟨hcores, hnow, hwaits, hregs, hseq, hmem, hhif⟩ := taskWatchdog_leaves hw h hlim
    exact ⟨_, answers_core hd hs rfl rfl (kernels_of_hif hs hhif), hcores, hnow, hwaits, hregs, hseq, hmem⟩

end Sys2Proof.Machine
end

section
/-! PROOFS. The scalar slot (O18): a ready scalar operation issues as a bundle of its own, and leaves its result. -/

namespace Sys2Proof.Machine

section
variable {s : State} {n : CoreId} {c : CtxId} {a : ScArgs} {opc : Nat}

/-! ### Issue (R297) -/

theorem settled_of_ready {o : BOp} (h : s.Ready n c o) : s.Settled n := by
  obtain ⟨⟨hs, _⟩, _⟩ := h
  exact hs

/-- A scalar operation other than REPEAT, alone in its bundle, acts and ends the bundle. -/
theorem bundleIssue_sc (h : opc ≠ 0x0C) : bundleIssue n c [.sc opc a] s = scIssue n c opc a s s := by
  simp [bundleIssue, scOp, BOp.slot, bundleRamp, State.doIf, h]

/-- An operation that neither branches nor waits nor leaves the core: its effect, then the next bundle. -/
theorem scIssue_next (htgt : scTarget opc n c a s = none) (hwait : scWait opc n c a s = none) (hy : opc ≠ 0x13)
    (hh : opc ≠ 0x14) : scIssue n c opc a s s = bundleEnd n c (s.pc n c + 1) 1 (scEffect opc n c a s) := by
  simp only [scIssue, htgt, hwait, if_neg hy, if_neg hh]

/-- A command of a scalar slot answers what its operation leaves. -/
theorem answers_sc {i : Instr} {t : State} (hd : s.dead = false) (h : s.Ready n c (.sc opc a)) (hopc : opc ≠ 0x0C)
    (he : exec i s = runCore n (issueSlot n c (some (.sc opc a))) s) (ht : scIssue n c opc a s s = t)
    (hk : t.hif.kernels = []) : Answers i s t :=
  answers_core hd (settled_of_ready h) he (by rw [ready_issue h, bundleIssue_sc hopc, ht]) hk

/-- The operations that go on at the next bundle one cycle later. -/
def plainSc (opc : Nat) : Bool := decide (opc ∉ [0x0A, 0x0B, 0x0C, 0x0F, 0x10, 0x13, 0x14])

theorem scIssue_plain (h : plainSc opc = true) :
    scIssue n c opc a s s = bundleEnd n c (s.pc n c + 1) 1 (scEffect opc n c a s) := by
  simp only [plainSc, List.mem_cons, List.not_mem_nil, not_or, decide_eq_true_eq, or_false] at h
  obtain ⟨hbr, hjr, -, hbar, hev, hy, hh⟩ := h
  exact scIssue_next (by simp [scTarget, hbr, hjr]) (by simp [scWait, hbar, hev]) hy hh

theorem answers_scPlain {i : Instr} {t : State} (hd : s.dead = false) (h : s.Ready n c (.sc opc a))
    (hp : plainSc opc = true) (he : exec i s = runCore n (issueSlot n c (some (.sc opc a))) s)
    (ht : scEffect opc n c a s = t) (hk : t.hif.kernels = []) : Answers i s (bundleEnd n c (s.pc n c + 1) 1 t) := by
  refine answers_sc hd h ?_ he ((scIssue_plain hp).trans (by rw [ht])) ((congrArg Hif.kernels (hif_bundleEnd ..)).trans hk)
  rintro rfl
  exact absurd hp (by decide)

/-- A bundle of NOPs (R298). -/
theorem answers_nop (hd : s.dead = false) (h : s.Calm n c) : Answers (.nop n c) s (bundleEnd n c (s.pc n c + 1) 1 s) := by
  have hissue := calm_issue (o := none) h
  obtain ⟨hs, -, hv, -, -, -, -, hstall, -⟩ := h
  refine answers_core (f := issueSlot n c none) hd hs rfl (hissue.trans ?_)
    ((congrArg Hif.kernels (hif_bundleEnd ..)).trans (kernels_of_settled hs))
  have hnone : bundleStall s n c [] = none := by simp [bundleStall, cfgStall, hstall]
  simp only [issueOps, settleStall, Option.toList_none, hnone, State.stallOff, hstall, firstBad, List.findSome?_nil,
    bundleShadow, hv, State.doIf]
  rfl

end

/-! ### Effects (R305, R306, R314) -/

section
variable {s : State} {n : CoreId} {c : CtxId} {a : ScArgs}

theorem tctxReg_low (n : CoreId) (c : CtxId) (i : Nat) (hi : i < 32) : regAddr (.tctxReg n c i) < 0x020240000400 := by
  have := n.isLt
  have := c.isLt
  simp only [regAddr]
  omega

theorem sreg_scheduled {t : State} (h : s.Scheduled t n) {i : Nat} (hi : i < 32) : t.sreg n c i = s.sreg n c i := by
  rw [State.sreg, State.sreg, Scheduled.word h (tctxReg_low n c i hi)]
theorem spoison_scheduled {t : State} (h : s.Scheduled t n) (i : Nat) : t.spoison n c i = s.spoison n c i := by
  rw [State.spoison, State.spoison, Scheduled.word h (by
    have := n.isLt
    have := c.isLt
    simp only [regAddr]
    omega)]

theorem kernels_sched (hk : s.hif.kernels = []) (req off len cyc : Nat) (write : Bool) :
    (s.sched n req off len cyc write).hif.kernels = [] :=
  (scheduled_sched (n := n) hk req off len cyc write).kernels.trans hk

/-- A store's bytes and poison are those of its register before it (R306). -/
theorem scStore_eq (hk : s.hif.kernels = []) : scStore n c a s =
    let sz := 2 ^ (a.fn.toNat % 4)
    let o := s.scAddr n c a
    (s.sched n 11 o sz (s.cyc n) true).modCore n fun k => { k with slow := k.slow ++
      [.cmw (s.cyc n + 2) o (natLe sz (s.sreg n c a.rs2.toNat)) [s.spoison n c a.rs2.toNat] true] } := by
  have hsched := scheduled_sched (n := n) hk 11 (s.scAddr n c a) (2 ^ (a.fn.toNat % 4)) (s.cyc n) true
  simp only [scStore]
  rw [Scheduled.cyc hsched, sreg_scheduled hsched a.rs2.isLt, spoison_scheduled hsched]

end

/-- Settles O18: each operation issues alone, and its effect is its result. -/
theorem scalarSlotResults : Obligations.ScalarSlotResults := by
  intro s n c a hd rd fn x y px py next o sz
  refine ⟨answers_nop hd, fun h => ?_, fun h => ?_, fun h => ?_, fun h => ?_, fun h => ?_, fun h => ?_, fun h => ?_,
    fun h => ?_, fun h => ?_⟩
  · exact answers_scPlain hd h rfl rfl rfl (kernels_of_ready h)
  · exact answers_scPlain hd h rfl rfl rfl (kernels_of_hif (settled_of_ready h) (hif_later ..))
  · refine answers_scPlain hd h rfl rfl ?_ (kernels_of_hif (settled_of_ready h) (hif_later ..))
    simp only [scEffect, scAlu, Bool.or_false]
    rfl
  · refine answers_scPlain hd h rfl rfl (by simp only [scEffect, scLi, bitAt_eq_testBit]; rfl) ?_
    split <;> exact kernels_of_hif (settled_of_ready h) (hif_setSreg ..)
  · refine answers_scPlain hd h rfl rfl (by simp only [scEffect, scLoad, bitAt_eq_testBit]; rfl) ?_
    exact (congrArg Hif.kernels (hif_later ..)).trans (kernels_sched (kernels_of_ready h) ..)
  · exact answers_scPlain hd h rfl rfl (scStore_eq (kernels_of_ready h))
      (kernels_sched (kernels_of_ready h) 11 o sz (s.cyc n) true)
  · exact answers_scPlain hd h rfl rfl rfl (kernels_of_hif (settled_of_ready h) (hif_later ..))
  · refine answers_scPlain hd h rfl rfl (by simp only [scEffect, scEvset, bitAt_eq_testBit]; rfl) ?_
    split
    · exact kernels_of_hif (settled_of_ready h) (hif_clearNow ..)
    · exact kernels_of_hif (settled_of_ready h) (hif_eventSet ..)
  · exact answers_scPlain hd h rfl rfl (by simp only [scEffect, scEvstat, bitAt_eq_testBit]; rfl)
      (kernels_of_hif (settled_of_ready h) (hif_setSreg ..))

end Sys2Proof.Machine
end

section
/-! PROOFS. Branches and waits of the scalar slot (O19): where a context goes on, how a wait begins and ends, YIELD, HALT and
the end of a halted context. -/

namespace Sys2Proof.Machine

section
variable {s : State} {n : CoreId} {c : CtxId} {a : ScArgs}

/-- No STOP waits for the end of a ready bundle. -/
theorem stops_of_ready {o : BOp} (h : s.Ready n c o) : c.val ∉ (s.core n).stops := by
  obtain ⟨⟨-, -, -, -, -, -, -, -, h⟩, -⟩ := h
  exact h
theorem stall_of_ready {o : BOp} (h : s.Ready n c o) : (s.core n).stall = none := by
  obtain ⟨⟨-, -, -, -, -, -, -, h, -⟩, -⟩ := h
  exact h
theorem running_of_ready {o : BOp} (h : s.Ready n c o) : (s.core n).running = none ∨ (s.core n).running = some c.val := by
  obtain ⟨⟨-, -, -, -, -, h, -⟩, -⟩ := h
  exact h
theorem rep_of_ready {o : BOp} (h : s.Ready n c o) : (s.core n).rep = 0 := by
  obtain ⟨⟨-, -, -, -, -, -, h, -⟩, -⟩ := h
  exact h

/-! ### Branches and REPEAT (R309, R310) -/

/-- An operation that goes on at a target. -/
theorem scIssue_branch {opc p : Nat} (htgt : scTarget opc n c a s = some p) (hwait : scWait opc n c a s = none)
    (hy : opc ≠ 0x13) (hh : opc ≠ 0x14) : scIssue n c opc a s s = bundleEnd n c p 2 (scEffect opc n c a s) := by
  simp only [scIssue, htgt, hwait, if_neg hy, if_neg hh]

theorem scIssue_br : scIssue n c 0x0A a s s =
    if brTaken (a.fn.toNat % 8) (s.sreg n c a.rs1.toNat) (s.sreg n c a.rs2.toNat)
    then bundleEnd n c (add64 (s.pc n c) (immSx a.imm)) 2 s else bundleEnd n c (s.pc n c + 1) 1 s := by
  split
  · next h => exact scIssue_branch (by simp [scTarget, h]) rfl (by decide) (by decide)
  · next h => exact scIssue_next (by simp [scTarget, h]) rfl (by decide) (by decide)
theorem scIssue_jr : scIssue n c 0x0B a s s =
    bundleEnd n c (s.sreg n c a.rs1.toNat) 2 (s.setSreg n c a.rd.toNat (s.pc n c + 1) false) :=
  scIssue_branch rfl rfl (by decide) (by decide)

/-- A REPEAT alone in its bundle (R310). -/
theorem bundleIssue_repeat (h : (s.core n).rep = 0) : bundleIssue n c [.sc 0x0C a] s =
    bundleEnd n c (s.pc n c + 1) (max 1 (repeatCount s n c a)) s := by
  simp [bundleIssue, scOp, BOp.slot, h]

/-! ### Waits at issue (R312, R315) -/

/-- An operation that waits begins its wait at the end of its bundle. -/
theorem scIssue_wait {opc : Nat} {w : Wait} (htgt : scTarget opc n c a s = none) (hwait : scWait opc n c a s = some w)
    (heff : scEffect opc n c a s = s) (hy : opc ≠ 0x13) (hh : opc ≠ 0x14) :
    scIssue n c opc a s s = beginWait n c w (bundleEnd n c (s.pc n c + 1) 1 s) := by
  simp only [scIssue, htgt, hwait, heff, if_neg hy, if_neg hh]

theorem beginWait_holds {w : Wait} (h : waitHolds s n w.kind = true) : beginWait n c w s = waitDone n c w s := if_pos h
theorem beginWait_waits {w : Wait} (h : waitHolds s n w.kind = false) : beginWait n c w s =
    (s.setCtx n c ctxWaiting).modCore n fun x => { x with waits := tabSet x.waits c w } := if_neg (by rw [h]; decide)

theorem waitHolds_events (mask : Nat) (all clr single : Bool) : waitHolds s n (.events mask all clr single) = true ↔
    if all then s.word (.scEvent n) &&& mask = mask else s.word (.scEvent n) &&& mask ≠ 0 := by
  cases all <;> simp [waitHolds, State.waitHits]

/-- The single event of a mask. -/
theorem find_bit {k : Nat} (h : k < 64) : ((List.range 64).find? (bitAt (2 ^ k))).getD 0 = k := by
  have hfind : (List.range 64).find? (bitAt (2 ^ k)) = some k := List.find?_range_eq_some.mpr
    ⟨by rw [bitAt_eq_testBit, Nat.testBit_two_pow_self], List.mem_range.mpr h, fun j hj => by
      rw [bitAt_eq_testBit, Nat.testBit_two_pow_of_ne (by omega)]
      rfl⟩
  rw [hfind]
  rfl

/-- What a satisfied EVWAIT leaves (R315). -/
theorem waitDone_events (mask : Nat) (all clr single : Bool) (rd since : Nat) (sw hung : Bool) :
    waitDone n c ⟨.events mask all clr single, rd, sw, since, hung⟩ s =
      (if clr then s.clearNow n (s.word (.scEvent n) &&& mask) true else s).setSreg n c rd
        (if single then s.word (.scEvstat n (((List.range 64).find? (bitAt mask)).getD 0)) else s.word (.scEvent n) &&& mask)
        false := rfl
/-- The events that are set, in the register of a wait that keeps them. -/
theorem sreg_waitDone_events {w : Wait} {mask : Nat} {all single : Bool} (hk : w.kind = .events mask all false single)
    (hpos : w.rd ≠ 0) (hlt : w.rd < 32) (hone : single = false) :
    (waitDone n c w s).sreg n c w.rd = s.word (.scEvent n) &&& mask := by
  obtain ⟨kind, rd, sw, since, hung⟩ := w
  subst hk hone
  rw [waitDone_events]
  have hbound : s.word (.scEvent n) &&& mask < 2 ^ 64 :=
    Nat.lt_of_le_of_lt Nat.and_le_left (word_lt s (show 0 < 2 ^ 64 by decide))
  exact (sreg_setSreg_same hpos hlt).trans (Nat.mod_eq_of_lt hbound)
/-- What a satisfied wait at a barrier leaves (R312). -/
theorem waitDone_barrier (b g rd since : Nat) (sw hung : Bool) :
    waitDone n c ⟨.barrier b g false, rd, sw, since, hung⟩ s =
      s.setSreg n c rd (s.fld (.barState b) F.barStateGen % 2 ^ 32) false := by
  have hgen : s.fld (.barState b) F.barStateGen < 2 ^ 32 := State.fld_lt ..
  rw [Nat.mod_eq_of_lt hgen]
  rfl

/-- The end of a wait changes registers alone. -/
theorem waitDone_rest (w : Wait) : waitDone n c w s = { s with regs := (waitDone n c w s).regs } := by
  have hset : ∀ (t : State) (v : Nat), t = { s with regs := t.regs } →
      t.setSreg n c w.rd v false = { s with regs := (t.setSreg n c w.rd v false).regs } := fun t v ht => by
    rw [onlyRegs_setSreg.2, ht]
  unfold waitDone State.doIf
  split
  · dsimp only
    split
    · exact hset _ _ onlyRegs_clearNow.2
    · exact hset _ _ rfl
  · exact hset _ _ rfl
  · rfl
  · exact hset _ _ rfl

/-- A wait at a barrier, at issue. -/
theorem beginWait_barrier (b g rd since : Nat) (sw hung : Bool) :
    beginWait n c ⟨.barrier b g false, rd, sw, since, hung⟩ s =
      if barPast s b g then s.setSreg n c rd (s.fld (.barState b) F.barStateGen % 2 ^ 32) false
      else (s.setCtx n c ctxWaiting).modCore n fun x =>
        { x with waits := tabSet x.waits c ⟨.barrier b g false, rd, sw, since, hung⟩ } := by
  have hholds : waitHolds s n (.barrier b g false) = barPast s b g := by simp only [waitHolds, Bool.false_or]
  split
  · next hp => exact (beginWait_holds (hholds.trans hp)).trans (waitDone_barrier ..)
  · next hp => exact beginWait_waits (hholds.trans (Bool.eq_false_iff.mpr hp))

theorem hif_waitDone (w : Wait) : (waitDone n c w s).hif = s.hif := by
  rw [waitDone_rest]
theorem hif_beginWait (w : Wait) : (beginWait n c w s).hif = s.hif := by
  unfold beginWait
  split
  · exact hif_waitDone w
  · rfl

/-- The mask of an EVWAIT: one event, or a register. -/
def evMask (s : State) (n : CoreId) (c : CtxId) (a : ScArgs) : Nat :=
  if a.fn.toNat.testBit 3 then 2 ^ (a.imm.toNat % 64) else s.sreg n c a.rs1.toNat
/-- The wait of an EVWAIT. -/
def evWait (s : State) (n : CoreId) (c : CtxId) (a : ScArgs) : Wait :=
  ⟨.events (evMask s n c a) (a.fn.toNat.testBit 0) (a.fn.toNat.testBit 1) (a.fn.toNat.testBit 3), a.rd.toNat,
    a.fn.toNat.testBit 2, s.now, false⟩

theorem scIssue_evwait : scIssue n c 0x10 a s s = beginWait n c (evWait s n c a) (bundleEnd n c (s.pc n c + 1) 1 s) :=
  scIssue_wait rfl (by simp only [evWait, evMask, ← bitAt_eq_testBit]; rfl) rfl (by decide) (by decide)
/-- The status word of the single event, or the mask of the events that are set. -/
theorem waitDone_evWait (u : State) : waitDone n c (evWait s n c a) u =
    (if a.fn.toNat.testBit 1 then u.clearNow n (u.word (.scEvent n) &&& evMask s n c a) true else u).setSreg n c a.rd.toNat
      (if a.fn.toNat.testBit 3 then u.word (.scEvstat n (a.imm.toNat % 64)) else u.word (.scEvent n) &&& evMask s n c a)
      false := by
  rw [evWait, waitDone_events]
  by_cases hone : a.fn.toNat.testBit 3
  · rw [if_pos hone, if_pos hone, evMask, if_pos hone, find_bit (Nat.mod_lt _ (by decide))]
  · rw [if_neg hone, if_neg hone]

/-- A BAR that waits (FN 2). -/
theorem scIssue_barWait (h : a.fn.toNat % 4 = 2) :
    scIssue n c 0x0F a s s = beginWait n c ⟨.barrier (s.sreg n c a.rs1.toNat % 256) (s.sreg n c a.rs2.toNat % 2 ^ 32) false,
      a.rd.toNat, a.fn.toNat.testBit 3, s.now, false⟩ (bundleEnd n c (s.pc n c + 1) 1 s) :=
  scIssue_wait rfl (by simp [scWait, h, bitAt_eq_testBit]) (by simp [scEffect, h]) (by decide) (by decide)

/-! ### YIELD and HALT (R332, R334) -/

theorem scIssue_yield : scIssue n c 0x13 a s s = yieldCore n c (bundleEnd n c (s.pc n c + 1) 1 s) := rfl
theorem scIssue_halt : scIssue n c 0x14 a s s = halt n c (bundleEnd n c (s.pc n c + 1) 1 s) := rfl

/-- The state and priority of each context at the end of a bundle are as before. -/
theorem ctx_bundleEnd {p k : Nat} (h : c.val ∉ (s.core n).stops) (d : CtxId) : (bundleEnd n c p k s).ctx n d = s.ctx n d :=
  RegsBut.fld (regsBut_bundleEnd h) _ (by simp only [List.map_cons, List.map_nil, List.mem_singleton, regAddr]; omega)
theorem prio_bundleEnd {p k : Nat} (h : c.val ∉ (s.core n).stops) (d : CtxId) :
    (bundleEnd n c p k s).fld (.tctxCtl n d) F.tctxCtlPrio = s.fld (.tctxCtl n d) F.tctxCtlPrio :=
  RegsBut.fld (regsBut_bundleEnd h) _ (by simp only [List.map_cons, List.map_nil, List.mem_singleton, regAddr]; omega)

/-- YIELD gives the core up to a READY context of at least the same priority. -/
theorem yieldCore_eq : yieldCore n c s = if (s.core n).running = some c.val ∧
      (∃ d : CtxId, d ≠ c ∧ s.ctx n d = ctxReady ∧ s.fld (.tctxCtl n c) F.tctxCtlPrio ≤ s.fld (.tctxCtl n d) F.tctxCtlPrio)
    then (s.setCtx n c ctxReady).modCore n fun k => { k with running := none } else s := by
  unfold yieldCore
  dsimp only
  refine if_congr (and_congr_right fun _ => any_ctx.trans (exists_congr fun d => ?_)) rfl rfl
  simp [Fin.ext_iff, and_assoc]

theorem halt_eq : halt n c s = (s.idled n c).modCore n fun x => { x with halted := tabSet x.halted c (lastLanding x) } := rfl

section
variable (h : (s.core n).stall = none)
include h

theorem core_halt : (halt n c s).core n =
    { (s.core n).left c with halted := tabSet (s.core n).halted c (lastLanding (s.core n)) } := by
  rw [halt_eq, State.core_modCore_same, core_idled h]
  rfl
theorem core_halt_other {m : Nat} (hm : m ≠ n) : (halt n c s).core m = s.core m := by
  rw [halt_eq, State.core_modCore_other hm, core_idled_other h hm]
theorem regsBut_halt : s.RegsBut (halt n c s) [.tctxStat n c] := regsBut_idled h
theorem halt_rest : halt n c s = { s with regs := (halt n c s).regs, cores := (halt n c s).cores } := by
  rw [halt_eq, idled_eq h]
  rfl
theorem ctx_halt : (halt n c s).ctx n c = ctxIdle := ctx_idled h

end

/-- What HALT leaves at the end of its bundle. -/
theorem halt_leaves (hs : c.val ∉ (s.core n).stops) (hstall : (s.core n).stall = none)
    (hrun : (s.core n).running = none ∨ (s.core n).running = some c.val) :
    let t := halt n c (bundleEnd n c (s.pc n c + 1) 1 s)
    t.ctx n c = ctxIdle ∧ s.RegsBut t [.tctxPc n c, .tctxStat n c] ∧ t.pc n c = (s.pc n c + 1) % 2048 ∧
    t = { s with regs := t.regs, cores := t.cores } ∧ (t.core n).running = none ∧
    tabFind (t.core n).waits c = none ∧ tabFind (t.core n).halted c = some (lastLanding (s.core n)) ∧
    ∀ m, m ≠ n.val → t.core m = s.core m := by
  have hcore := core_bundleEnd (v := s.pc n c + 1) (k := 1) hs
  have hothers : ∀ m, m ≠ n.val → (bundleEnd n c (s.pc n c + 1) 1 s).core m = s.core m :=
    fun m hm => core_bundleEnd_other hs hm
  have hregs := regsBut_bundleEnd (v := s.pc n c + 1) (k := 1) hs
  have hpc := pc_bundleEnd (v := s.pc n c + 1) (k := 1) hs
  have hrest := bundleEnd_rest (v := s.pc n c + 1) (k := 1) hs
  generalize bundleEnd n c (s.pc n c + 1) 1 s = u at *
  have hu : (u.core n).stall = none := by rw [hcore]; exact hstall
  have hhalt := halt_rest (c := c) hu
  refine ⟨ctx_halt hu, regsBut_trans (regsBut_mono hregs (by simp)) (regsBut_mono (regsBut_halt hu) (by simp)), ?_, ?_, ?_,
    ?_, ?_, fun m hm => (core_halt_other hu hm).trans (hothers m hm)⟩
  · exact (RegsBut.fld (regsBut_halt hu) _ (by
      simp only [List.map_cons, List.map_nil, List.mem_singleton, regAddr]; omega)).trans hpc
  · rw [hhalt, hrest]
  · rw [core_halt hu, hcore]
    rcases hrun with h | h <;> simp [Core.left, h]
  · rw [core_halt hu]
    exact tabFind_del_same ..
  · rw [core_halt hu, hcore]
    exact tabFind_set_same ..

/-! ### The ends of waits and halts (R315, R334) -/

theorem waitSatisfied_none (h : tabFind (s.core n).waits c = none) : waitSatisfied n c s = s := by
  rw [waitSatisfied, h]
theorem waitSatisfied_waits {w : Wait} (hw : tabFind (s.core n).waits c = some w) (h : waitHolds s n w.kind = false) :
    waitSatisfied n c s = s := by
  simp only [waitSatisfied, hw, h]
  simp
/-- The end of a wait leaves the clock of its core alone, wherever its result goes. -/
theorem cyc_waitDone (w : Wait) : (waitDone n c w s).cyc n = s.cyc n := by
  have hset : ∀ (t : State) (v : Nat), t.word (.clkCorePs n) = s.word (.clkCorePs n) →
      (t.setSreg n c w.rd v false).word (.clkCorePs n) = s.word (.clkCorePs n) := fun t v ht =>
    (RegsBut.word onlyRegs_setSreg.1 (by
      have := n.isLt
      simp only [List.map_cons, List.map_nil, List.mem_cons, List.not_mem_nil, or_false, regAddr]
      omega)).trans ht
  have hclear : ∀ mask, (s.clearNow n mask true).word (.clkCorePs n) = s.word (.clkCorePs n) := fun mask =>
    RegsBut.word onlyRegs_clearNow.1 (by
      have := n.isLt
      simp only [eventRegs, List.map_cons, List.map_map, List.mem_cons, List.mem_map, Function.comp, regAddr, not_or,
        not_exists, not_and]
      exact ⟨by omega, fun e _ => by omega⟩)
  have hclk : (waitDone n c w s).word (.clkCorePs n) = s.word (.clkCorePs n) := by
    unfold waitDone State.doIf
    split
    · dsimp only
      split
      · exact hset _ _ (hclear _)
      · exact hset _ _ rfl
    · exact hset _ _ rfl
    · rfl
    · exact hset _ _ rfl
  have hrest := waitDone_rest (s := s) (n := n) (c := c) w
  refine cyc_eq hclk ?_ ?_ ?_ <;> rw [hrest] <;> rfl

/-- The context waits no more, and the result of its wait is there. -/
def State.waitOver (s : State) (n c : Nat) (w : Wait) : State :=
  (waitDone n c w s).modCore n fun x => { x with waits := tabDel x.waits c }

theorem core_waitOver (w : Wait) : (s.waitOver n c w).core n = { s.core n with waits := tabDel (s.core n).waits c } := by
  rw [State.waitOver, State.core_modCore_same, waitDone_rest]
  rfl
theorem cyc_waitOver (w : Wait) : (s.waitOver n c w).cyc n = s.cyc n := by
  calc (s.waitOver n c w).cyc n = (waitDone n c w s).cyc n :=
        cyc_eq rfl rfl (by rw [State.waitOver, State.core_modCore_same]) (by rw [State.waitOver, State.core_modCore_same])
    _ = s.cyc n := cyc_waitDone w
theorem hif_waitOver (w : Wait) : (s.waitOver n c w).hif = s.hif := by
  rw [State.waitOver, State.modCore_hif, waitDone_rest]
theorem sreg_setCtx (st : Nat) {i : Nat} (hi : i < 32) : (s.setCtx n c st).sreg n c i = s.sreg n c i := by
  rw [State.sreg, RegsBut.word (regsBut_setCtx st) (by
    simp only [List.map_cons, List.map_nil, List.mem_singleton, regAddr]
    omega)]
  rfl

section
variable {w : Wait} (hw : tabFind (s.core n).waits c = some w) (hctx : s.ctx n c = ctxWaiting)
  (hh : waitHolds s n w.kind = true)
include hw hctx hh

/-- On its own core a context whose wait ends runs on in the next cycle. -/
theorem waitSatisfied_runs (h : (s.core n).running = some c.val) : waitSatisfied n c s =
    ((s.waitOver n c w).setCtx n c ctxRunning).modCore n fun x => { x with notBefore := max x.notBefore (s.cyc n + 1) } := by
  have hrun : ((s.waitOver n c w).core n).running = some c.val := by rw [core_waitOver]; exact h
  rw [← cyc_waitOver (c := c) w]
  simp only [waitSatisfied, hw, hctx, hh, and_self, if_true]
  exact if_pos hrun
/-- Elsewhere it becomes READY. -/
theorem waitSatisfied_readies (h : (s.core n).running ≠ some c.val) : waitSatisfied n c s =
    (s.waitOver n c w).setCtx n c ctxReady := by
  have hrun : ((s.waitOver n c w).core n).running ≠ some c.val := by rw [core_waitOver]; exact h
  simp only [waitSatisfied, hw, hctx, hh, and_self, if_true]
  exact if_neg hrun

/-- What the end of a wait leaves. -/
theorem waitSatisfied_leaves : let t := waitSatisfied n c s
    t.hif = s.hif ∧ tabFind (t.core n).waits c = none ∧
    ((s.core n).running = some c.val → t.ctx n c = ctxRunning ∧ s.cyc n + 1 ≤ (t.core n).notBefore) ∧
    ((s.core n).running ≠ some c.val → t.ctx n c = ctxReady) ∧
    ∀ i < 32, t.sreg n c i = (waitDone n c w s).sreg n c i := by
  intro t
  by_cases h : (s.core n).running = some c.val
  · have ht : t = _ := waitSatisfied_runs hw hctx hh h
    rw [ht]
    refine ⟨hif_waitOver w, ?_, fun _ => ⟨ctx_setCtx ctxRunning (by decide), ?_⟩, fun hne => absurd h hne,
      fun i hi => sreg_setCtx ctxRunning hi⟩ <;>
      rw [State.core_modCore_same]
    · rw [State.setCtx, State.core_setFld, core_waitOver]
      exact tabFind_del_same ..
    · exact le_max_right ..
  · have ht : t = _ := waitSatisfied_readies hw hctx hh h
    rw [ht]
    refine ⟨hif_waitOver w, ?_, fun hrun => absurd hrun h, fun _ => ctx_setCtx ctxReady (by decide),
      fun i hi => sreg_setCtx ctxReady hi⟩
    rw [State.setCtx, State.core_setFld, core_waitOver]
    exact tabFind_del_same ..

end

theorem contextDone_none (h : tabFind (s.core n).halted c = none) : contextDone n c s = s := by
  rw [contextDone, h]

theorem toCyc_past {d : Nat} (hs : s.Settled n) (h : s.cycTime n d ≤ s.now) : s.toCyc n d = s := by
  rw [State.toCyc, State.advance, max_eq_left h]
  exact hs.1
theorem contextDone_done {d : Nat} (hs : s.Settled n) (hh : tabFind (s.core n).halted c = some d)
    (hb : ctxBusy s n c = false) (hd : s.cycTime n d ≤ s.now) : contextDone n c s =
      let v := s.modCore n fun k => { k with halted := tabDel k.halted c }
      if s.bit (.tctxCtl n c) F.tctxCtlDoneEn then v.signal n (s.fld (.tctxCtl n c) F.tctxCtlDoneEv) {} else v := by
  simp only [contextDone, hh, hb, toCyc_past hs hd]
  rfl

end

/-- Settles O19: where a branch goes on, what a wait leaves that is satisfied at issue and what it records if not, and how
waits and halts end. -/
theorem scalarBranchesAndWaits : Obligations.ScalarBranchesAndWaits := by
  intro s n c a hd rd fn x y u prio
  refine ⟨fun h => ?br, fun h => ?jr, fun h => ?rep, fun h => ?evwait, fun h hfn => ?bar, fun h => ?yield, fun h => ?halt,
    fun hs w hw => ⟨fun hctx hh => ?ends, fun hh => ?waits⟩, fun hs h => ?none, fun hs h => ?running,
    fun hs d hh hb hdue => ?done⟩
  case br =>
    refine answers_sc hd h (by decide) rfl scIssue_br (kernels_of_hif (settled_of_ready h) ?_)
    split <;> exact hif_bundleEnd ..
  case jr =>
    exact answers_sc hd h (by decide) rfl scIssue_jr
      (kernels_of_hif (settled_of_ready h) ((hif_bundleEnd ..).trans (hif_setSreg ..)))
  case rep =>
    refine answers_core hd (settled_of_ready h) rfl
      ((ready_issue h).trans ((bundleIssue_repeat (rep_of_ready h)).trans ?_))
      (kernels_of_hif (settled_of_ready h) (hif_bundleEnd ..))
    rw [repeatCount, bitAt_eq_testBit]
  case evwait =>
    intro mask hits w
    have hans : Answers (.evwait n c a) s (beginWait n c w u) := answers_sc hd h (by decide) rfl scIssue_evwait
      (kernels_of_hif (settled_of_ready h) ((hif_beginWait w).trans (hif_bundleEnd ..)))
    refine ⟨waitHolds_events .., fun hh => ⟨_, beginWait_holds hh ▸ hans, fun hclr => ?_, fun hclr => ?_⟩, fun hh =>
      beginWait_waits hh ▸ hans⟩
    · exact (waitDone_evWait u).trans (by rw [if_neg (Bool.eq_false_iff.mp hclr)]; rfl)
    · exact (waitDone_evWait u).trans (by rw [if_pos hclr]; rfl)
  case bar =>
    intro w
    have hans : Answers (.bar n c a) s (beginWait n c w u) := answers_sc hd h (by decide) rfl (scIssue_barWait hfn)
      (kernels_of_hif (settled_of_ready h) ((hif_beginWait w).trans (hif_bundleEnd ..)))
    rw [beginWait_barrier] at hans
    exact hans
  case yield =>
    refine answers_sc hd h (by decide) rfl (scIssue_yield.trans (yieldCore_eq.trans ?_))
      (kernels_of_hif (settled_of_ready h) ?_)
    · have hst := stops_of_ready h
      simp only [core_bundleEnd hst, ctx_bundleEnd hst, prio_bundleEnd hst]
      rfl
    · split <;> exact hif_bundleEnd ..
  case halt =>
    have hleaves := halt_leaves (stops_of_ready h) (stall_of_ready h) (running_of_ready h)
    obtain ⟨-, -, -, hrest, -⟩ := id hleaves
    refine ⟨_, answers_sc hd h (by decide) rfl scIssue_halt (kernels_of_hif (settled_of_ready h) ?_), hleaves⟩
    rw [hrest]
  case ends =>
    obtain ⟨hhif, hwaits, hrun, hready, hregs⟩ := waitSatisfied_leaves hw hctx hh
    refine ⟨_, answers_core hd hs rfl rfl (kernels_of_hif hs hhif), hwaits, hrun, hready,
      fun mask all single hk hpos hlt hone => ?_⟩
    rw [hregs _ hlt]
    exact sreg_waitDone_events hk hpos hlt hone
  case waits => exact answers_core hd hs rfl (waitSatisfied_waits hw hh) (kernels_of_settled hs)
  case none => exact answers_core hd hs rfl (waitSatisfied_none h) (kernels_of_settled hs)
  case running => exact answers_core hd hs rfl (contextDone_none h) (kernels_of_settled hs)
  case done =>
    refine answers_core hd hs rfl (contextDone_done hs hh hb hdue) (kernels_of_hif hs ?_)
    split
    · rw [signal_rest]
      rfl
    · rfl

end Sys2Proof.Machine
end

section
/-! PROOFS. Decode faults of the slots (O21): a context that faults stops its core, and leaves the rest alone. -/

namespace Sys2Proof.Machine

/-! ### The slot rows (R296) -/

/-- Every slot row issues its operation alone in a bundle. -/
theorem exec_slotRow {i : Instr} {n : CoreId} {c : CtxId} {o : BOp} (h : slotRow i = some (n, c, o)) (s : State) :
    exec i s = runCore n (issueSlot n c (some o)) s := by
  unfold slotRow at h
  split at h <;> cases h <;> rfl
/-- The eight slots. -/
theorem slot_lt_of_slotRow {i : Instr} {n : CoreId} {c : CtxId} {o : BOp} (h : slotRow i = some (n, c, o)) : o.slot < 8 := by
  have hmx : ∀ m : Fin 4, m.val + 1 < 8 := by decide
  unfold slotRow at h
  split at h <;> cases h <;> simp [BOp.slot]
  all_goals exact hmx _

/-! ### A context that faults (R300) -/

section
variable {s : State} {n : CoreId} {c : CtxId} {slot code : Nat}

theorem regsBut_markFault : s.RegsBut (s.markFault n c slot code) [.tctxStat n c] :=
  have hstat : regAddr (.tctxStat n c) ∈ [Reg.tctxStat n c].map regAddr := List.mem_singleton_self _
  regsBut_setFld (regsBut_setFld (regsBut_setFld (regsBut_setFld (regsBut_refl s _) hstat) hstat) hstat) hstat
theorem markFault_rest : s.markFault n c slot code =
    { s with regs := (s.markFault n c slot code).regs, cores := (s.markFault n c slot code).cores } := rfl

theorem core_markFault : (s.markFault n c slot code).core n =
    { s.core n with
      running := if (s.core n).running = some c.val then none else (s.core n).running, stall := none, rep := 0 } := by
  simp only [State.markFault, State.core_modCore_same, State.core_setFld, State.setCtx]
  rfl
theorem core_markFault_other {m : Nat} (h : m ≠ n) : (s.markFault n c slot code).core m = s.core m := by
  simp only [State.markFault, State.core_modCore_other h, State.core_setFld, State.setCtx]

/-- The status register of a context that faults, field by field. -/
theorem word_stat_markFault : (s.markFault n c slot code).word (.tctxStat n c) =
    ((((s.setFld (.tctxStat n c) F.tctxStatState ctxFaulted).setFld (.tctxStat n c) F.tctxStatCode code).setFld
      (.tctxStat n c) F.tctxStatFslot slot).setFld (.tctxStat n c) F.tctxStatFpc (s.pc n c)).word (.tctxStat n c) := rfl

theorem ctx_markFault : (s.markFault n c slot code).ctx n c = ctxFaulted := by
  rw [State.ctx, State.fld, word_stat_markFault]
  refine (State.fld_setFld_disjoint _ _ _ _ _ (by decide) (by decide) (by decide)).trans ?_
  refine (State.fld_setFld_disjoint _ _ _ _ _ (by decide) (by decide) (by decide)).trans ?_
  refine (State.fld_setFld_disjoint _ _ _ _ _ (by decide) (by decide) (by decide)).trans ?_
  rw [State.fld_setFld_same _ _ _ _ (by decide)]
  decide
theorem code_markFault (h : code < 256) : (s.markFault n c slot code).fld (.tctxStat n c) F.tctxStatCode = code := by
  rw [State.fld, word_stat_markFault]
  refine (State.fld_setFld_disjoint _ _ _ _ _ (by decide) (by decide) (by decide)).trans ?_
  refine (State.fld_setFld_disjoint _ _ _ _ _ (by decide) (by decide) (by decide)).trans ?_
  rw [State.fld_setFld_same _ _ _ _ (by decide)]
  exact Nat.mod_eq_of_lt h
theorem fslot_markFault (h : slot < 8) : (s.markFault n c slot code).fld (.tctxStat n c) F.tctxStatFslot = slot := by
  rw [State.fld, word_stat_markFault]
  refine (State.fld_setFld_disjoint _ _ _ _ _ (by decide) (by decide) (by decide)).trans ?_
  rw [State.fld_setFld_same _ _ _ _ (by decide)]
  exact Nat.mod_eq_of_lt h
theorem fpc_markFault : (s.markFault n c slot code).fld (.tctxStat n c) F.tctxStatFpc = s.pc n c := by
  have hpc : s.pc n c < 2 ^ 11 := State.fld_lt ..
  rw [State.fld, word_stat_markFault]
  refine (State.fld_setFld_same _ _ _ _ (by decide)).trans ?_
  exact Nat.mod_eq_of_lt hpc

/-- The event of a fault. -/
theorem errOnly_faultCtx (d : List (Nat × Nat × Nat)) :
    ErrOnly (s.markFault n c slot code) (s.faultCtx n c slot code d) := errOnly_raise _ _
theorem regsButErr_faultCtx (d : List (Nat × Nat × Nat)) :
    s.RegsButErr (s.faultCtx n c slot code d) [.tctxStat n c] :=
  regsButErr_trans (regsButErr_of_regsBut regsBut_markFault) (regsButErr_of_errOnly (errOnly_faultCtx d))
theorem faultCtx_rest (d : List (Nat × Nat × Nat)) : s.faultCtx n c slot code d =
    { s with regs := (s.faultCtx n c slot code d).regs, cores := (s.faultCtx n c slot code d).cores,
             msixSent := (s.faultCtx n c slot code d).msixSent } := by
  obtain ⟨hraise, -⟩ := errOnly_faultCtx (s := s) (n := n) (c := c) (slot := slot) (code := code) d
  have hcores : (s.faultCtx n c slot code d).cores = (s.markFault n c slot code).cores := by
    rw [hraise]
  rw [hcores]
  exact hraise
theorem hif_faultCtx (d : List (Nat × Nat × Nat)) : (s.faultCtx n c slot code d).hif = s.hif := by
  rw [faultCtx_rest]
theorem core_faultCtx (d : List (Nat × Nat × Nat)) (m : Nat) :
    (s.faultCtx n c slot code d).core m = (s.markFault n c slot code).core m := by
  obtain ⟨hraise, -⟩ := errOnly_faultCtx (s := s) (n := n) (c := c) (slot := slot) (code := code) d
  rw [hraise]
  rfl
theorem fld_stat_faultCtx (d : List (Nat × Nat × Nat)) (f : Fld) :
    (s.faultCtx n c slot code d).fld (.tctxStat n c) f = (s.markFault n c slot code).fld (.tctxStat n c) f :=
  (errOnly_faultCtx d).fld f (by
    have := n.isLt
    have := c.isLt
    simp only [errAddr, regAddr]
    omega)
/-- One event, when the fault is not for information. -/
theorem seq_faultCtx (d : List (Nat × Nat × Nat)) (h : code < 0x40) :
    (s.faultCtx n c slot code d).fld .errHead F.errHeadSeq = (s.fld .errHead F.errHeadSeq + 1) % 2 ^ 32 := by
  have hinfo : isInfo code = false := decide_eq_false (Nat.not_le_of_lt h)
  have hseq : (s.markFault n c slot code).fld .errHead F.errHeadSeq = s.fld .errHead F.errHeadSeq :=
    RegsBut.fld regsBut_markFault _ (by
      have := n.isLt
      have := c.isLt
      simp only [List.map_cons, List.map_nil, List.mem_singleton, regAddr]
      omega)
  exact (raise_seq _ hinfo).trans (by rw [hseq])

/-! ### Issue (R300, R332) -/

/-- An operation that fails decode alone in its bundle. -/
theorem issueSlot_bad {o : BOp} (h : s.Calm n c) (hst : bundleStall s n c [o] = none) (hf : opFault s n c [o] o ≠ 0) :
    issueSlot n c (some o) s = s.faultCtx n c o.slot (opFault s n c [o] o % 256) (decodeDetail o (opFault s n c [o] o)) := by
  rw [calm_issue h]
  obtain ⟨-, -, -, -, -, -, -, hstall, -⟩ := h
  simp [issueOps, settleStall, hst, State.stallOff, hstall, firstBad, hf]

theorem issueSlot_stopped (h : coreStopped s n = true) (o : Option BOp) : issueSlot n c o s = s := if_pos (.inl h)
theorem issueBundle_stopped (h : coreStopped s n = true) : issueBundle n s = s := if_pos h

end

/-- Settles O21: a slot row whose operation fails decode marks its context and raises the event of the fault. -/
theorem slotDecodeFaultStopsContext : Obligations.SlotDecodeFaultStopsContext := by
  intro s i n c o hd hrow
  refine ⟨fun hcalm hst hf => ?bad, fun hs hstop => ?stopped⟩
  case bad =>
    have hissue := issueSlot_bad hcalm hst hf
    generalize opFault s n c [o] o = f at hissue
    obtain ⟨hs, -, -, -, -, hrun, hrep, hstall, -⟩ := hcalm
    have hcode : f % 256 < 256 := Nat.mod_lt f (by decide)
    have hregs := regsButErr_faultCtx (s := s) (n := n) (c := c) (slot := o.slot) (code := f % 256) (decodeDetail o f)
    refine ⟨_, answers_core hd hs (exec_slotRow hrow s) hissue (kernels_of_hif hs (hif_faultCtx _)),
      (fld_stat_faultCtx ..).trans ctx_markFault, (fld_stat_faultCtx ..).trans (code_markFault hcode),
      (fld_stat_faultCtx ..).trans (fslot_markFault (slot_lt_of_slotRow hrow)), (fld_stat_faultCtx ..).trans fpc_markFault, ?pc,
      hregs, seq_faultCtx _, faultCtx_rest _, fun m hm => (core_faultCtx _ m).trans (core_markFault_other hm),
      (core_faultCtx _ n).trans (core_markFault.trans ?core)⟩
    case pc =>
      have hword := RegsButErr.word hregs (r := .tctxPc n c) (by
        simp only [List.map_cons, List.map_nil, List.mem_singleton, regAddr]
        omega) (by
        have := n.isLt
        have := c.isLt
        simp only [errAddr, regAddr]
        omega)
      rw [State.pc, State.fld, hword]
      rfl
    case core =>
      rw [← hstall, ← hrep]
      rcases hrun with h | h <;> simp [h]
  case stopped =>
    exact ⟨answers_core hd hs (exec_slotRow hrow s) (issueSlot_stopped hstop _) (kernels_of_settled hs),
      answers_core hd hs rfl (issueBundle_stopped hstop) (kernels_of_settled hs)⟩

end Sys2Proof.Machine
end

section
/-! PROOFS. Work of a command that may fail (R341, R344): how its steps follow one another, what the check of a
command's fields decides, and how a failure completes the command. -/

namespace Sys2Proof.Machine

/-! ### One step after another -/

section
variable {α β : Type} {a : Act α} {k : α → Act β} {x : α} {f : Fail} {s t : State} {q id : Nat}

theorem failWhen_false (f : Fail) (s : State) : ((failWhen false f).run).run s = (.ok (), s) := rfl
theorem failWhen_true (f : Fail) (s : State) : ((failWhen true f).run).run s = (.error f, s) := rfl

theorem bind_run_ok (h : (a.run).run s = (.ok x, t)) : ((a >>= k).run).run s = ((k x).run).run t := by
  simp only [ExceptT.run_bind, StateT.run_bind, h]
  rfl

theorem bind_run_error (h : (a.run).run s = (.error f, t)) : ((a >>= k).run).run s = (.error f, t) := by
  simp only [ExceptT.run_bind, StateT.run_bind, h]
  rfl

theorem runAct_error {a : Act Unit} (h : (a.run).run s = (.error f, t)) : runAct q id a s = failWith q id f t := by
  rw [runAct, h]

/-- A step that succeeds leaves the rest of the work. -/
theorem runAct_bind_ok {k : α → Act Unit} (h : (a.run).run s = (.ok x, t)) :
    runAct q id (a >>= k) s = runAct q id (k x) t := by rw [runAct, bind_run_ok h, runAct]

/-- A step that fails ends the work. -/
theorem runAct_bind_error {k : α → Act Unit} (h : (a.run).run s = (.error f, t)) :
    runAct q id (a >>= k) s = failWith q id f t := runAct_error (bind_run_error h)

theorem runAct_act (g : State → State) (s : State) : runAct q id (act fun s => ((), g s)) s = g s := rfl

end

/-! ### Failures that decode finds (R488) -/

section
variable {s : State} {q id : Nat} {f : Fail}

/-- The codes of a decode failure: a field out of form, one out of range, a DA in a directory region. -/
abbrev decodeCode (code : Nat) : Prop := code = ecDescFormat ∨ code = ecDescRange ∨ code = ecTileDir

/-- A failure of decode has a record of one of these codes, which is yet to be raised. -/
def Fail.OfDecode (f : Fail) : Prop := ∃ e : Err, f = recFail e ∧ decodeCode e.code

theorem ofDecode_decFail {code : Nat} (h : decodeCode code) (word idx low : Nat) :
    (decFail q code word idx low).OfDecode := ⟨_, rfl, h⟩

theorem ofDecode_reachFail (s : State) (da len : Nat) (h : f.OfDecode) : (reachFail s da len f).OfDecode := by
  obtain ⟨e, rfl, he⟩ := h
  rw [reachFail, recFail]
  dsimp only
  split
  · exact ⟨_, rfl, .inr (.inr rfl)⟩
  · exact ⟨_, rfl, he⟩

theorem not_isInfo_of_decodeCode {code : Nat} (h : decodeCode code) : isInfo code = false := by
  rcases h with rfl | rfl | rfl <;> rfl

/-- A decode failure raises one event and completes the command with status 3. -/
theorem failWith_ofDecode (h : f.OfDecode) : ∃ e code detail, ErrorRaised s e ∧ decodeCode code ∧
    failWith q id f s = endCmd q id ⟨3, code, detail⟩ e := by
  obtain ⟨e, rfl, he⟩ := h
  exact ⟨s.raise e, e.code, e.word, errorRaised_raise s (not_isInfo_of_decodeCode he), he, rfl⟩

end

/-! ### The check of a command's fields (R341, R344) -/

section
variable {s : State} {q : Nat} {c : WcsCmd} {fs : List WField}

/-- The reserved fields of a command hold 0, and TRACE_DA names memory. -/
def WcsCmd.Clean (c : WcsCmd) (s : State) (fs : List WField) : Prop :=
  (∀ f ∈ (commonFields c).1 ++ fs ++ (commonFields c).2, bitsOf (c.w f.1) f.2.1 f.2.2 = 0) ∧
    (c.trace = true → daOk s (c.w 7) 64 = true)

theorem checkFields_of_field {f : WField}
    (h : ((commonFields c).1 ++ fs ++ (commonFields c).2).find? (fun f => bitsOf (c.w f.1) f.2.1 f.2.2 ≠ 0) =
      some f) :
    ((checkFields q c fs).run).run s = (.error (decFail q ecDescFormat (c.w f.1) f.1 f.2.2), s) := by
  simp only [checkFields, h]
  exact bind_run_error (k := fun _ => _) rfl

theorem checkFields_of_fields
    (h : ((commonFields c).1 ++ fs ++ (commonFields c).2).find? (fun f => bitsOf (c.w f.1) f.2.1 f.2.2 ≠ 0) = none) :
    ((checkFields q c fs).run).run s = ((failWhen (c.trace && !daOk s (c.w 7) 64)
      (reachFail s (c.w 7) 64 (decFail q ecDescRange (c.w 7) 7 6))).run).run s := by
  simp only [checkFields, h]
  exact bind_run_ok (k := fun _ => _) rfl

theorem checkFields_clean (h : c.Clean s fs) : ((checkFields q c fs).run).run s = (.ok (), s) := by
  obtain ⟨hfields, htrace⟩ := h
  rw [checkFields_of_fields (List.find?_eq_none.mpr fun f hf => by simp [hfields f hf])]
  cases ht : c.trace with
  | false => rfl
  | true =>
    rw [htrace ht]
    rfl

/-- A field that is not clean fails the check, which changes nothing. -/
theorem checkFields_not_clean (h : ¬ c.Clean s fs) :
    ∃ f : Fail, f.OfDecode ∧ ((checkFields q c fs).run).run s = (.error f, s) := by
  cases hfind : ((commonFields c).1 ++ fs ++ (commonFields c).2).find? fun f => bitsOf (c.w f.1) f.2.1 f.2.2 ≠ 0 with
  | some f => exact ⟨_, ofDecode_decFail (.inl rfl) _ _ _, checkFields_of_field hfind⟩
  | none =>
    have hfields : ∀ f ∈ (commonFields c).1 ++ fs ++ (commonFields c).2, bitsOf (c.w f.1) f.2.1 f.2.2 = 0 :=
      fun f hf => by simpa using List.find?_eq_none.mp hfind f hf
    have htrace : (c.trace && !daOk s (c.w 7) 64) = true := by
      simpa using (not_and.mp h hfields)
    exact ⟨_, ofDecode_reachFail s _ _ (ofDecode_decFail (.inr (.inl rfl)) _ _ _),
      (checkFields_of_fields hfind).trans (by rw [htrace, failWhen_true])⟩

end

end Sys2Proof.Machine
end

section
/-! PROOFS. The end of a command (R342, R347, R456): what it changes at all, and what it leaves of a command that is
alone in its queue. -/

namespace Sys2Proof.Machine

section
variable {s t u : State} {q : Nat}

@[simp] theorem State.qp_setQp_same (s : State) (q : Nat) (x : Qp) : (s.setQp q x).qp q = x := tabGet_set_same ..
theorem State.qp_setQp_other {p : Nat} (s : State) (x : Qp) (h : p ≠ q) : (s.setQp q x).qp p = s.qp p :=
  tabGet_set_other _ _ _ h
@[simp] theorem State.qp_modQp_same (s : State) (q : Nat) (f : Qp → Qp) : (s.modQp q f).qp q = f (s.qp q) :=
  s.qp_setQp_same q _

/-- From `s` to `t` only the record of queue q, command events and the advice changed. -/
structure State.PairOnly (s t : State) (q : Nat) : Prop where
  regs : s.RegsBut t [.hifAdvice]
  others : ∀ p, p ≠ q → t.qp p = s.qp p
  rest : t = { s with
    regs := t.regs, hif := { s.hif with qps := t.hif.qps }, cevents := t.cevents, chip := t.chip }

theorem pairOnly_refl (s : State) (q : Nat) : s.PairOnly s q := ⟨regsBut_refl s _, fun _ _ => rfl, rfl⟩

theorem pairOnly_trans (h : s.PairOnly t q) (k : t.PairOnly u q) : s.PairOnly u q where
  regs := regsBut_trans h.regs k.regs
  others p hp := (k.others p hp).trans (h.others p hp)
  rest := by rw [k.rest, h.rest]

theorem pairOnly_setQp (s : State) (q : Nat) (x : Qp) : s.PairOnly (s.setQp q x) q :=
  ⟨fun _ _ => rfl, fun _ hp => s.qp_setQp_other x hp, rfl⟩

theorem pairOnly_sweep (s : State) (q : Nat) : s.PairOnly (sweep q s) q := pairOnly_setQp s q _

theorem pairOnly_addEvent (s : State) (e v : Nat) : s.PairOnly (addEvent e v s) q :=
  ⟨fun _ _ => rfl, fun _ _ => rfl, rfl⟩

theorem pairOnly_advise (s : State) (rung code : Nat) : s.PairOnly (s.advise rung code) q := by
  obtain ⟨hregs, hrest⟩ := advise_keeps rung code s
  exact ⟨hregs, fun p _ => by rw [hrest]; rfl, by rw [hrest]⟩

theorem pairOnly_doIf {f : State → State} (b : Bool) (h : s.PairOnly (f s) q) : s.PairOnly (s.doIf b f) q := by
  cases b
  · exact pairOnly_refl s q
  · exact h

/-- What the end of a command does to its queue's record, before the queue's head is swept. -/
def State.marked (s : State) (q id : Nat) (e : WcsEnd) (c : WcsCmd) : State :=
  (s.modCmd q id fun c => { c with fin := some e, started := true }).modQp q fun x =>
    { x with slots := x.slots ++ c.slots.filter fun n => !x.slots.contains n }

theorem pairOnly_marked (s : State) (q id : Nat) (e : WcsEnd) (c : WcsCmd) : s.PairOnly (s.marked q id e c) q :=
  pairOnly_trans (pairOnly_setQp s q _) (pairOnly_setQp _ q _)

theorem endCmd_ends {id : Nat} {c : WcsCmd} (e : WcsEnd) (h : s.cmd? q id = some c) (hc : c.done = false) :
    endCmd q id e s = sweep q ((((s.marked q id e c).doIf c.cevEn (addEvent c.cevent 1)).doIf
      ((e.status == 2 || e.status == 3) && rung1Codes.contains e.code) (·.advise 1 e.code))) := by
  rw [endCmd, h]
  simp only [hc]
  rfl

/-- A command that ends without a failure calls for no advice. -/
theorem endCmd_quiet {id : Nat} {c : WcsCmd} {e : WcsEnd} (h : s.cmd? q id = some c) (hc : c.done = false)
    (he : e.status < 2) : endCmd q id e s = sweep q ((s.marked q id e c).doIf c.cevEn (addEvent c.cevent 1)) := by
  have hquiet : (e.status == 2 || e.status == 3) = false := by
    simp only [Bool.or_eq_false_iff, beq_eq_false_iff_ne]
    omega
  rw [endCmd_ends e h hc, hquiet]
  rfl

theorem pairOnly_endCmd (s : State) (q id : Nat) (e : WcsEnd) : s.PairOnly (endCmd q id e s) q := by
  cases h : s.cmd? q id with
  | none =>
    rw [endCmd, h]
    exact pairOnly_refl s q
  | some c =>
    cases hc : c.done with
    | true =>
      rw [endCmd, h]
      simp only [hc, if_true]
      exact pairOnly_refl s q
    | false =>
      rw [endCmd_ends e h hc]
      have hevent := pairOnly_trans (pairOnly_marked s q id e c)
        (pairOnly_doIf c.cevEn (pairOnly_addEvent _ c.cevent 1))
      exact pairOnly_trans (pairOnly_trans hevent (pairOnly_doIf _ (pairOnly_advise ..))) (pairOnly_sweep ..)

end

/-! ### A command alone in its queue -/

section
variable {s : State} {q : Nat} {c : WcsCmd} {e : WcsEnd}

/-- A completed command alone in its queue leaves, unless it closes a step. -/
theorem sweep_alone (hcs : (s.qp q).cmds = [c]) (hfin : c.fin = some e) (hstep : c.stepEnd = false)
    (hd3 : s.hif.d3 = false) : sweep q s = s.modQp q fun x => { x with cmds := [], out := x.out ++ entryOf q c e } := by
  have htake : takeDone q 1 [c] = (entryOf q c e, []) := by simp [takeDone, hfin, hstep]
  simp only [sweep, hcs, hd3, Bool.false_eq_true, if_false, List.length_singleton, htake]
  rfl

/-- The end of a command that is alone in its queue, without a failure. -/
structure State.EndedAlone (s t : State) (q : Nat) (c : WcsCmd) (e : WcsEnd) : Prop where
  cmds : (t.qp q).cmds = []
  out : (t.qp q).out = (s.qp q).out ++ entryOf q c e
  event : c.cevEn = true → t.cevent c.cevent = (s.cevent c.cevent + 1) % 2 ^ 64
  noEvent : c.cevEn = false → t.cevents = s.cevents
  rest : t = { s with hif := t.hif, cevents := t.cevents }

theorem cevent_addEvent (s : State) (e v : Nat) : (addEvent e v s).cevent e = (s.cevent e + v) % 2 ^ 64 := by
  simp only [State.cevent, addEvent, tabGet_set_same, BitVec.toNat_add, BitVec.toNat_ofNat, Nat.add_mod_mod]

/-- The mark on a command alone in its queue, which it leaves alone. -/
theorem qp_marked_alone (hcs : (s.qp q).cmds = [c]) :
    ((s.marked q c.id e c).qp q).cmds = [{ c with fin := some e, started := true }] ∧
    ((s.marked q c.id e c).qp q).out = (s.qp q).out := by
  simp [State.marked, State.modCmd, hcs]

/-- What the mark and the command's event leave, its queue's head swept. -/
theorem endedAlone_sweep {t : State} (hcs : (s.qp q).cmds = [c]) (hstep : c.stepEnd = false)
    (hd3 : s.hif.d3 = false) (hhif : t.hif = (s.marked q c.id e c).hif)
    (hevent : c.cevEn = true → t.cevent c.cevent = (s.cevent c.cevent + 1) % 2 ^ 64)
    (hno : c.cevEn = false → t.cevents = s.cevents) (hrest : t = { s with hif := t.hif, cevents := t.cevents }) :
    s.EndedAlone (sweep q t) q c e := by
  obtain ⟨hcmds, hout⟩ := qp_marked_alone (e := e) hcs
  have hqp : t.qp q = (s.marked q c.id e c).qp q := by rw [State.qp, State.qp, hhif]
  have hroom : t.hif.d3 = false := by rw [hhif]; exact hd3
  rw [← hqp] at hcmds hout
  rw [sweep_alone hcmds rfl hstep hroom]
  refine ⟨by rw [State.qp_modQp_same], ?out, hevent, hno, ?rest⟩
  case out =>
    rw [State.qp_modQp_same, hout]
    rfl
  case rest =>
    rw [hrest]
    rfl

theorem endedAlone_endCmd (hcs : (s.qp q).cmds = [c]) (hc : c.done = false) (hstep : c.stepEnd = false)
    (hd3 : s.hif.d3 = false) (he : e.status < 2) : s.EndedAlone (endCmd q c.id e s) q c e := by
  have hfind : s.cmd? q c.id = some c := by simp [State.cmd?, hcs]
  rw [endCmd_quiet hfind hc he]
  cases hev : c.cevEn with
  | true =>
    exact endedAlone_sweep hcs hstep hd3 rfl (fun _ => cevent_addEvent (s.marked q c.id e c) c.cevent 1)
      (fun h => absurd (hev.symm.trans h) nofun) rfl
  | false =>
    exact endedAlone_sweep hcs hstep hd3 rfl (fun h => absurd (hev.symm.trans h) nofun) (fun _ => rfl) rfl

end

end Sys2Proof.Machine
end

section
/-! PROOFS. The copies of tiles that PINs wait for (R160, R358): reading and storing units leaves them, and so does the
end of one copy. -/

namespace Sys2Proof.Machine

section
variable (s : State)

theorem pins_foldl {α : Type} {f : State → α → State} (h : ∀ s a, (f s a).hif.pins = s.hif.pins) (l : List α)
    (s : State) : (l.foldl f s).hif.pins = s.hif.pins :=
  List.foldlRecOn (motive := fun t => t.hif.pins = s.hif.pins) l f rfl fun t ht a _ => (h t a).trans ht

theorem pins_doIf {f : State → State} (h : ∀ s, (f s).hif.pins = s.hif.pins) (b : Bool) :
    (s.doIf b f).hif.pins = s.hif.pins := by
  cases b
  · rfl
  · exact h s

@[simp] theorem pins_modGh (k : Nat) (f : Gh → Gh) : (s.modGh k f).hif.pins = s.hif.pins := rfl
@[simp] theorem pins_dirWrite (h : Nat) (e : DirEnt) : (s.dirWrite h e).hif.pins = s.hif.pins := rfl
@[simp] theorem pins_bump (r : Reg) (f : Fld) (v : Nat) : (s.bump r f v).hif.pins = s.hif.pins := rfl

@[simp] theorem pins_raise (e : Err) : (s.raise e).hif.pins = s.hif.pins := by rw [(errOnly_raise s e).1]

@[simp] theorem pins_heapFree (da : Nat) : (heapFree da s).hif.pins = s.hif.pins := by
  unfold heapFree
  split <;> rfl

@[simp] theorem pins_dropMig (h : Nat) : (dropMig h s).hif.pins = s.hif.pins := by
  unfold dropMig
  split
  · rfl
  · exact pins_heapFree s _

/-- A migration that is given up is counted, and not tried again in this interval (R159). -/
def State.noteAbandoned (s : State) (h : Nat) : State :=
  { s.bump .placeStat F.placeStatAbandoned 1 with hif := { s.hif with abandoned := s.hif.abandoned ++ [h] } }

@[simp] theorem pins_noteAbandoned (h : Nat) : (s.noteAbandoned h).hif.pins = s.hif.pins := rfl

theorem abandonMig_eq (h : Nat) : abandonMig h s = if (s.dirEnt h).migrating
    then ((dropMig h s).dirWrite h ((s.dirEnt h).set 51 false)).noteAbandoned h else s := rfl

@[simp] theorem pins_abandonMig (h : Nat) : (abandonMig h s).hif.pins = s.hif.pins := by
  rw [abandonMig_eq]
  split
  · rw [pins_noteAbandoned, pins_dirWrite, pins_dropMig]
  · rfl

/-! ### Units read and stored (R200, R201, R224, R225, R477) -/

@[simp] theorem pins_countDetections (n k : Nat) : (countDetections n k s).hif.pins = s.hif.pins := by
  unfold countDetections askTest State.doIf
  dsimp only
  split
  · split <;> rfl
  · rfl

@[simp] theorem pins_parityRange (da len : Nat) : (s.parityRange da len).hif.pins = s.hif.pins := by
  refine pins_foldl (fun s u => ?_) _ s
  split
  · rw [pins_countDetections, pins_doIf _ fun s => pins_raise s _]
  · rw [pins_countDetections, pins_doIf _ fun s => pins_raise s _]
  · rfl
  · rfl

@[simp] theorem pins_bankWait (k o : Nat) : (s.bankWait k o).hif.pins = s.hif.pins := by
  unfold State.bankWait
  split
  · split <;> rfl
  · rfl

@[simp] theorem pins_poisonTile (h : Nat) : (s.poisonTile h).hif.pins = s.hif.pins := pins_dirWrite ..

@[simp] theorem pins_detectStack (k o cause : Nat) (queued : Bool) (tile : Option Nat) :
    (s.detectStack k o cause queued tile).hif.pins = s.hif.pins := pins_raise ..

@[simp] theorem pins_sectorBad (k o : Nat) : (sectorBad k o s).hif.pins = s.hif.pins := by
  have hqueued : ∀ (b : Bool) (r : RowAt) (u : State), (u.doIf b fun s => (s.modGh k fun g => { g with
      repairQ := g.repairQ ++ [r] }).bump (.ghRepairStat k) F.ghRepairStatQueued 1).hif.pins = u.hif.pins :=
    fun b r u => pins_doIf u (fun s => by rw [pins_bump, pins_modGh]) b
  unfold sectorBad
  dsimp only
  split
  · rw [pins_detectStack, pins_poisonTile, hqueued, pins_bump]
  · rw [pins_detectStack, hqueued, pins_bump]

@[simp] theorem pins_sense (da : Nat) : (s.sense da).2.hif.pins = s.hif.pins := by
  unfold State.sense
  dsimp only
  split
  · split
    · exact pins_bankWait ..
    · split
      · exact pins_bankWait ..
      · split
        · exact (pins_sectorBad ..).trans (pins_bankWait ..)
        · rw [pins_bump]
          exact pins_bankWait ..
  · split
    · rw [pins_poisonTile, pins_parityRange]
    · exact pins_parityRange ..
  · exact pins_parityRange ..

theorem pins_arrive (write : Bool) (da : Nat) (u : UnitP) : (s.arrive write da u).2.hif.pins = s.hif.pins := by
  unfold State.arrive
  split
  · dsimp only
    split
    · rfl
    · split
      · rfl
      · exact pins_raise ..
  · rfl

theorem pins_fetchN (da k : Nat) : (s.fetchN da k).2.hif.pins = s.hif.pins := by
  induction k generalizing s da with
  | zero => rfl
  | succ k ih => exact (ih ..).trans ((pins_arrive ..).trans (pins_sense ..))

@[simp] theorem pins_wrUnit (da : Nat) (bs : List Byte) (p : Bool) : (s.wrUnit da bs p).hif.pins = s.hif.pins := by
  unfold State.wrUnit State.setPoison
  dsimp only
  split <;> rfl

@[simp] theorem pins_putUnits (da : Nat) (us : List UnitP) : (s.putUnits da us).hif.pins = s.hif.pins := by
  induction us generalizing s da with
  | nil => rfl
  | cons u us ih => exact (ih ..).trans ((pins_wrUnit ..).trans (pins_arrive ..))

/-! ### The end of a copy -/

/-- The end of one copy leaves the others to come. -/
theorem pins_pinDone (p : PinCopy) : (pinDone p s).hif.pins = s.hif.pins := by
  unfold pinDone
  dsimp only
  split
  · rw [pins_heapFree, pins_abandonMig]
  · rw [pins_dirWrite, pins_heapFree]
    split
    · exact pins_abandonMig ..
    · exact (pins_putUnits ..).trans ((pins_fetchN ..).trans (pins_abandonMig ..))

end

section
variable {s : State} {p : PinCopy}

theorem pinEnd_done (h : s.hif.pins = []) (q id : Nat) : pinEnd q id s = finishCmd q id s := by simp [pinEnd, h]

theorem pinSweep_nil (h : s.hif.pins = []) : pinSweep s = s := by rw [pinSweep, h, List.foldl_nil]

/-- With the last copy of a PIN the command completes (R358). -/
theorem pinSweep_last (h : s.hif.pins = [p]) (hcopied : (s.gh (p.h % 8)).copying p.da = false) :
    pinSweep s = finishCmd p.q p.cmd { pinDone p s with hif := { (pinDone p s).hif with pins := [] } } := by
  have hpins : (pinDone p s).hif.pins.erase p = [] := by rw [pins_pinDone, h, List.erase_cons_head]
  simp only [pinSweep, h, List.foldl_cons, List.foldl_nil, hcopied, Bool.false_eq_true, if_false, hpins]
  exact pinEnd_done rfl ..

end

end Sys2Proof.Machine
end

section
/-! PROOFS. Commands of a queue that order others (O40): what a command that only checks its fields answers, PIN, and
the EVENT_WAIT that blocks its queue. -/

namespace Sys2Proof.Machine

/-! ### A command that checks its fields and acts (R344, R347) -/

section
variable {s : State} {q : Nat} {c : WcsCmd} {cmd : Instr}

/-- A command fails at decode: one event is raised at `v`, and the command completes with status 3. -/
def State.FailsDecode (s v : State) (cmd : Instr) (q id : Nat) : Prop := ∃ e code detail, ErrorRaised v e ∧
  decodeCode code ∧ Answers cmd s (endCmd q id ⟨3, code, detail⟩ e)

theorem failsDecode_of_failWith {v : State} {id : Nat} {f : Fail} (hf : f.OfDecode)
    (h : Answers cmd s (failWith q id f v)) : s.FailsDecode v cmd q id := by
  obtain ⟨e, code, detail, hraised, hcode, heq⟩ := failWith_ofDecode (s := v) (q := q) (id := id) hf
  exact ⟨e, code, detail, hraised, hcode, heq ▸ h⟩

theorem answers_congr {t u : State} (h : Answers cmd s t) (htu : t = u) : Answers cmd s u := htu ▸ h

/-- What `cmd` answers when command c is the next of queue q: nothing unless c is meant; else `r`, or a failure at
decode. -/
structure State.WcsRow (s : State) (q : Nat) (c : WcsCmd) (cmd : Instr) (meant : Prop) (fs : List WField) (r : State) :
    Prop where
  other : ¬ meant → Answers cmd s s
  clean : meant → c.Clean (markStarted q c.id (wake s)) fs → Answers cmd s r
  failed : meant → ¬ c.Clean (markStarted q c.id (wake s)) fs →
    s.FailsDecode (markStarted q c.id (wake s)) cmd q c.id

theorem wcsRow_start {meant : Prop} {ok : WcsCmd → Bool} {fs : WcsCmd → List WField}
    {g : WcsCmd → State → State}
    (hc : s.nextCmd q = some c) (hok : ok c = true ↔ meant)
    (h : Answers cmd s (startNext q ok (fun c s => runAct q c.id (do
      checkFields q c (fs c)
      act fun s => ((), g c s)) s) s)) :
    s.WcsRow q c cmd meant (fs c) (g c (markStarted q c.id (wake s))) where
  other hno := by
    rwa [startNext_other hc (Bool.not_eq_true _ ▸ mt hok.mp hno)] at h
  clean hmeant hclean := by
    rwa [startNext_next hc (hok.mpr hmeant), runAct_bind_ok (checkFields_clean hclean), runAct_act] at h
  failed hmeant hclean := by
    obtain ⟨f, hf, hcheck⟩ := checkFields_not_clean (q := q) hclean
    rw [startNext_next hc (hok.mpr hmeant), runAct_bind_error hcheck] at h
    exact failsDecode_of_failWith hf h

end

/-! ### PIN (R160, R358) -/

section
variable {s : State} {q : Nat} {c : WcsCmd} {set : Bool}

/-- The reserved fields of a PIN's own words. -/
abbrev pinFields : List WField := [(1, 63, 24), (2, 63, 25), (3, 63, 1)] ++ emptyFrom 4
/-- FIRST and COUNT of a PIN. -/
abbrev WcsCmd.pinFirst (c : WcsCmd) : Nat := bitsOf (c.w 1) 23 0
abbrev WcsCmd.pinCount (c : WcsCmd) : Nat := bitsOf (c.w 2) 24 0
/-- The handles that a PIN names. -/
abbrev WcsCmd.pinHandles (c : WcsCmd) : List Nat := (List.range c.pinCount).map (c.pinFirst + ·)

/-- What a PIN does once its fields are checked: it checks every entry, then pins or unpins them. -/
def pinEntries (q id : Nat) (set : Bool) (hs : List Nat) : Act Unit := do
  checkPins hs
  if set then
    let _ ← hs.mapM (pinOne q id)
    pure ()
  else act fun s => ((), hs.foldl (fun s h => s.dirWrite h ((s.dirEnt h).set 53 false)) s)
  act fun s => ((), pinSweep (pinEnd q id s))

theorem pin_other (hc : s.nextCmd q = some c) (h : c.op ≠ 0x12 ∨ bitAt (c.w 3) 0 ≠ set) : pin q set s = s :=
  startNext_other hc (by simpa only [Bool.and_eq_false_iff, beq_eq_false_iff_ne] using h)

variable (hc : s.nextCmd q = some c) (hop : c.op = 0x12) (hset : bitAt (c.w 3) 0 = set)
include hc hop hset

theorem pin_next : pin q set s = runAct q c.id (do
    checkFields q c pinFields
    failWhen (decide (2 ^ 24 < c.pinCount ∨ 2 ^ 24 < c.pinFirst + c.pinCount)) (decFail q ecDescRange (c.w 2) 2 0)
    pinEntries q c.id set c.pinHandles) (markStarted q c.id (wake s)) :=
  startNext_next hc (by simp [hop, hset])

theorem pin_bad (h : ¬ (c.Clean (markStarted q c.id (wake s)) pinFields ∧ c.pinFirst + c.pinCount ≤ 2 ^ 24)) :
    ∃ f : Fail, f.OfDecode ∧ pin q set s = failWith q c.id f (markStarted q c.id (wake s)) := by
  rw [pin_next hc hop hset]
  by_cases hclean : c.Clean (markStarted q c.id (wake s)) pinFields
  · have hrange : (decide (2 ^ 24 < c.pinCount ∨ 2 ^ 24 < c.pinFirst + c.pinCount)) = true :=
      decide_eq_true (.inr (not_le.mp fun hle => h ⟨hclean, hle⟩))
    rw [runAct_bind_ok (checkFields_clean hclean), hrange, runAct_bind_error (failWhen_true ..)]
    exact ⟨_, ofDecode_decFail (.inr (.inl rfl)) _ _ _, rfl⟩
  · obtain ⟨f, hf, hcheck⟩ := checkFields_not_clean (q := q) hclean
    exact ⟨f, hf, runAct_bind_error hcheck⟩

variable (hclean : c.Clean (markStarted q c.id (wake s)) pinFields) (hle : c.pinFirst + c.pinCount ≤ 2 ^ 24)
include hclean hle

theorem pin_checked :
    pin q set s = runAct q c.id (pinEntries q c.id set c.pinHandles) (markStarted q c.id (wake s)) := by
  have hrange : (decide (2 ^ 24 < c.pinCount ∨ 2 ^ 24 < c.pinFirst + c.pinCount)) = false :=
    decide_eq_false (by omega)
  rw [pin_next hc hop hset, runAct_bind_ok (checkFields_clean hclean), hrange, runAct_bind_ok (failWhen_false ..)]

end

section
variable {u v w : State} {q id : Nat} {hs : List Nat} {f : Fail}

theorem pinEntries_bad {set : Bool} (h : ((checkPins hs).run).run u = (.error f, v)) :
    runAct q id (pinEntries q id set hs) u = failWith q id f v := runAct_bind_error h

variable {set : Bool} (h : ((checkPins hs).run).run u = (.ok (), v))
include h

/-- An UNPIN clears PINNED in every entry. -/
theorem pinEntries_unpin (hset : set = false) : runAct q id (pinEntries q id set hs) u =
    pinSweep (pinEnd q id (hs.foldl (fun s h => s.dirWrite h ((s.dirEnt h).set 53 false)) v)) := by
  subst hset
  exact (runAct_bind_ok h).trans rfl

theorem pinEntries_pin (hset : set = true) {xs : List Unit}
    (hpin : ((hs.mapM (pinOne q id)).run).run v = (.ok xs, w)) :
    runAct q id (pinEntries q id set hs) u = pinSweep (pinEnd q id w) := by
  subst hset
  exact (runAct_bind_ok h).trans (runAct_bind_ok hpin)

theorem pinEntries_fail (hset : set = true) (hpin : ((hs.mapM (pinOne q id)).run).run v = (.error f, w)) :
    runAct q id (pinEntries q id set hs) u = failWith q id f w := by
  subst hset
  exact (runAct_bind_ok h).trans (runAct_bind_error hpin)

end

/-! ### EVENT_WAIT (R349) -/

section
variable {s : State} {q : Nat} {c : WcsCmd}

theorem eventWaitSatisfied_none (h : s.waiting? q = none) : eventWaitSatisfied q s = s := by rw [eventWaitSatisfied, h]
theorem eventWaitTimeout_none (h : s.waiting? q = none) : eventWaitTimeout q s = s := by rw [eventWaitTimeout, h]

theorem hit_eq_true_iff : c.hit s = true ↔ c.w 2 ≤ s.cevent (bitsOf (c.w 1) 11 0) := decide_eq_true_iff

variable (h : s.waiting? q = some c)
include h

theorem eventWaitSatisfied_ends (hhit : c.hit s = true) (hroom : s.d3Full = false) :
    eventWaitSatisfied q s = waitEnd q c s := by
  simp only [eventWaitSatisfied, h, hhit, hroom, Bool.not_false, Bool.and_true, if_true]

theorem eventWaitSatisfied_waits (hno : c.hit s = false ∨ s.d3Full = true) : eventWaitSatisfied q s = s := by
  rw [eventWaitSatisfied, h]
  exact if_neg (by rcases hno with hno | hno <;> simp [hno])

theorem eventWaitTimeout_waits (hno : c.w 3 % 2 ^ 32 = 0 ∨ c.hit s = true) : eventWaitTimeout q s = s := by
  rw [eventWaitTimeout, h]
  exact if_pos hno

/-- The record of an EVENT_WAIT whose time is over. -/
def hangErr (q : Nat) (c : WcsCmd) : Err :=
  { src := qSrc q, code := ecTaskHang, fw := true, detail := [(32, 1, 4), (36, 4, c.w 3 % 2 ^ 32)] }

theorem eventWaitTimeout_ends (hus : c.w 3 % 2 ^ 32 ≠ 0) (hhit : c.hit s = false) : eventWaitTimeout q s =
    haltQueue q ecTaskHang (failCmd q c.id (hangErr q c) (s.advance (c.since + c.w 3 % 2 ^ 32 * usTicks))) := by
  rw [eventWaitTimeout, h]
  exact if_neg (not_or.mpr ⟨hus, by simp [hhit]⟩)

end

section
variable {s t : State} {q code : Nat}

/-- An active queue that halts is HALTED. -/
theorem qState_haltQueue (h : s.qState q = 1) : (haltQueue q code s).qState q = 2 := by
  rw [haltQueue, if_pos h]
  exact (State.fld_setFld_disjoint _ _ F.hifQStatCode F.hifQStatState _ (by decide) (by decide) (by decide)).trans
    (State.fld_setFld_same _ _ F.hifQStatState _ (by decide))

/-- Neither the event nor the end of a failed command changes the state of a queue. -/
theorem qState_failCmd (s : State) (q : QpId) (id : Nat) (e : Err) : (failCmd q id e s).qState q = s.qState q := by
  have hq := q.isLt
  have hregs := (pairOnly_endCmd (s.raise e) q id ⟨3, e.code, e.word⟩).regs
  have hend : (failCmd q id e s).qState q = (s.raise e).qState q :=
    congrArg F.hifQStatState.of (RegsBut.word hregs (by
      simp only [List.map_cons, List.map_nil, List.mem_singleton, regAddr]
      omega))
  exact hend.trans ((errOnly_raise s e).fld _ (by simp only [errAddr, regAddr]; omega))

end

section
variable {s : State} {q : QpId} (hd : s.dead = false)
include hd

/-- PIN is the command with SET, UNPIN the one without. -/
theorem answers_pin (set : Bool) : Answers (if set then Instr.pin q else .unpin q) s (pin q set s) := by
  cases set <;> exact answers_run hd rfl

theorem answers_pin_other {c : WcsCmd} {set : Bool} (hc : s.nextCmd q = some c)
    (h : c.op ≠ 0x12 ∨ bitAt (c.w 3) 0 ≠ set) : Answers (if set then Instr.pin q else .unpin q) s s :=
  answers_congr (answers_pin hd set) (pin_other hc h)

/-- EVENT_WAIT completes where its event has come to TARGET, else it has only started. -/
theorem wcsRow_eventWait {c : WcsCmd} (hc : s.nextCmd q = some c) :
    let u := markStarted q c.id (wake s)
    let e := bitsOf (c.w 1) 11 0
    s.WcsRow q c (.eventWait q) (c.op = 0x1A) ((1, 63, 12) :: (3, 63, 32) :: emptyFrom 4)
      (if c.w 2 ≤ u.cevent e then endCmd q c.id ⟨0, 0, u.cevent e⟩ u else u) := by
  intro u e
  have hrow := wcsRow_start (meant := c.op = 0x1A) hc (by simp)
    (answers_run (c := .eventWait q) (f := eventWait q) hd rfl)
  simpa only [hit_eq_true_iff, waitEnd] using hrow

end

/-- Settles O40: each row starts the next command of its queue, which checks its fields and acts; the other clauses are
the end of a command alone in its queue, of a PIN's last copy, and of an EVENT_WAIT. -/
theorem wcsCommandsThatOrderOthers : Obligations.WcsCommandsThatOrderOthers := by
  intro s q hd
  have hsatisfied : ∀ {t : State}, eventWaitSatisfied q s = t → Answers (.eventWaitSatisfied q) s t :=
    answers_congr (answers_run hd rfl)
  have htimeout : ∀ {t : State}, eventWaitTimeout q s = t → Answers (.eventWaitTimeout q) s t :=
    answers_congr (answers_run hd rfl)
  refine ⟨fun c e hcs hc hstep hd3 he => ?alone, fun hnone cmd hcmd => ?idle, fun c hc => ?next,
    fun p hp hcopied => pinSweep_last hp hcopied, fun hp => ⟨pinSweep_nil hp, fun id => pinEnd_done hp q id⟩,
    fun hw => ?noWait, fun c hw => ?wait⟩
  case alone =>
    obtain ⟨hcmds, hout, hevent, hno, hrest⟩ := endedAlone_endCmd hcs hc hstep hd3 he
    exact ⟨hcmds, hout, hevent, hno, hrest⟩
  case idle =>
    have hans : ∀ {f : State → State}, exec cmd s = run f s → f s = s → Answers cmd s s := fun hexec hf =>
      answers_congr (answers_run hd hexec) hf
    simp only [List.mem_cons, List.not_mem_nil, or_false] at hcmd
    rcases hcmd with rfl | rfl | rfl | rfl | rfl | rfl | rfl <;> exact hans rfl (startNext_none hnone)
  case next =>
    intro u failed clean row first e
    have hrow : ∀ {cmd meant fs r}, s.WcsRow q c cmd meant fs r → row cmd meant fs r := fun h =>
      ⟨h.other, h.clean, h.failed⟩
    refine ⟨hrow (wcsRow_start hc (by simp) (answers_run (f := wcsNop q) hd rfl)),
      hrow (wcsRow_start hc (by simp [first]) (answers_run (f := wcsFence q) hd rfl)),
      hrow (wcsRow_start hc (by simp [first]) (answers_run (f := eventSignal q) hd rfl)),
      hrow (wcsRow_start hc (by simp [first]) (answers_run (f := progress q) hd rfl)), ?eventWait, ?pin⟩
    case eventWait =>
      exact hrow (wcsRow_eventWait hd hc)
    case pin =>
      intro set cmd start n hs fs
      have hans : ∀ {t : State}, pin q set s = t → Answers cmd s t := answers_congr (answers_pin hd set)
      refine ⟨fun hop => ⟨?_, ?_⟩, ?_, fun hop hbad => ?_, fun hop hclean hle =>
        ⟨fun f v hcheck => ?_, fun v hcheck =>
          ⟨fun hset => ?_, fun hset => ⟨fun xs w hpin => ?_, fun f w hpin => ?_⟩⟩⟩⟩
      · exact answers_pin_other (set := true) hd hc (.inl hop)
      · exact answers_pin_other (set := false) hd hc (.inl hop)
      · have hother := answers_pin_other (set := !set) hd hc (.inr (by simp [set]))
        cases hset : set <;> rwa [hset] at hother
      · obtain ⟨f, hf, hfail⟩ := pin_bad hc hop rfl hbad
        exact failsDecode_of_failWith hf (hans hfail)
      · exact hans ((pin_checked hc hop rfl hclean hle).trans (pinEntries_bad hcheck))
      · exact hans ((pin_checked hc hop rfl hclean hle).trans (pinEntries_unpin hcheck hset))
      · exact hans ((pin_checked hc hop rfl hclean hle).trans (pinEntries_pin hcheck hset hpin))
      · exact hans ((pin_checked hc hop rfl hclean hle).trans (pinEntries_fail hcheck hset hpin))
  case noWait =>
    exact ⟨hsatisfied (eventWaitSatisfied_none hw), htimeout (eventWaitTimeout_none hw)⟩
  case wait =>
    intro e us
    have hhit : c.hit s = true ↔ c.w 2 ≤ s.cevent e := hit_eq_true_iff
    have hmiss : c.hit s = false ↔ s.cevent e < c.w 2 := by rw [← Bool.not_eq_true, hhit, not_le]
    refine ⟨fun hle hroom => ?_, fun hno => ?_, fun hno => ?_, fun hus hlt => ?_⟩
    · exact hsatisfied (eventWaitSatisfied_ends hw (hhit.mpr hle) hroom)
    · exact hsatisfied (eventWaitSatisfied_waits hw (hno.imp_left hmiss.mpr))
    · exact htimeout (eventWaitTimeout_waits hw (hno.imp_right hhit.mpr))
    · refine ⟨_, (hangErr q c).word, errorRaised_raise _ (e := hangErr q c) rfl,
        htimeout (eventWaitTimeout_ends hw hus (hmiss.mpr hlt)), fun hq => ?_⟩
      exact qState_haltQueue ((qState_failCmd ..).trans hq)

end Sys2Proof.Machine
end

section
/-! PROOFS. Aborts of collectives (R401): what the loss of a destination leaves alone, and the end of the only
collective that waits. -/

namespace Sys2Proof.Machine

/-- A fold over a range in which one index alone does something. -/
theorem foldl_range_one {σ : Type} {f : σ → Nat → σ} {n q : Nat} {s t : σ} (hq : q < n) (hf : f s q = t)
    (hs : ∀ p < n, p ≠ q → f s p = s) (ht : ∀ p < n, p ≠ q → f t p = t) : (List.range n).foldl f s = t := by
  have hbefore : ∀ m ≤ q, (List.range m).foldl f s = s := fun m hm =>
    List.foldlRecOn (motive := (· = s)) _ _ rfl fun u hu p hp => by
      have hlt := List.mem_range.mp hp
      rw [hu, hs p (by omega) (by omega)]
  induction n with
  | zero => omega
  | succ n ih =>
    rw [List.range_succ, List.foldl_append, List.foldl_cons, List.foldl_nil]
    rcases Nat.lt_succ_iff_lt_or_eq.mp hq with hlt | rfl
    · rw [ih hlt (fun p hp => hs p (by omega)) (fun p hp => ht p (by omega)), ht n (by omega) (by omega)]
    · rw [hbefore q le_rfl, hf]

section
variable {s t : State} {q : Nat} {c : WcsCmd} {k : Coll}

/-- Undefined bytes are memory's alone. -/
theorem loseRange_rest (a n : Nat) (s : State) :
    loseRange a n s = { s with mem := (loseRange a n s).mem, draws := (loseRange a n s).draws } := by
  cases n with
  | zero => rfl
  | succ n =>
    refine List.foldlRecOn (motive := fun t : State => t = { s with mem := t.mem, draws := t.draws }) _ _ rfl
      fun u hu i _ => ?_
    rw [hu]
    rfl

theorem collLost_rest (k : Coll) (s : State) :
    collLost k s = { s with mem := (collLost k s).mem, draws := (collLost k s).draws } := by
  unfold collLost
  dsimp only
  split
  · exact loseRange_rest ..
  · rfl

theorem collWaiting_of_qp_eq (h : t.qp q = s.qp q) : t.collWaiting q = s.collWaiting q := by
  rw [State.collWaiting, State.collWaiting, h]

/-- The end of a collective leaves what the other queues wait for. -/
theorem collWaiting_endCmd_collLost {p : Nat} (hp : p ≠ q) (id : Nat) (e : WcsEnd) :
    (endCmd q id e (collLost k s)).collWaiting p = s.collWaiting p := by
  refine collWaiting_of_qp_eq (((pairOnly_endCmd ..).others p hp).trans ?_)
  rw [collLost_rest]
  rfl

theorem net_endCmd_collLost (id : Nat) (e : WcsEnd) : (endCmd q id e (collLost k s)).net = s.net := by
  rw [(pairOnly_endCmd ..).rest, collLost_rest]

/-- An abort that concerns the only collective that waits ends it with the abort's code. -/
theorem collSweep_one {a : CollAbort} (hq : q < 64) (ha : s.net.aborts = [a]) (hgroup : a.group ≠ none)
    (hc : s.collWaiting q = some c) (hhit : abortHits s (collOf c).group a = true)
    (hothers : ∀ p < 64, p ≠ q → s.collWaiting p = none) : collSweep s =
      (endCmd q c.id ⟨3, a.code, 0⟩ (collLost (collOf c) s)).modNet fun n => { n with aborts := [] } := by
  have hnone : a.group.isNone = false := Option.isNone_eq_false_iff.mpr (Option.isSome_iff_ne_none.mpr hgroup)
  have hused : (s.net.aborts.filter fun a => a.group.isNone || (List.range 64).any fun q =>
      (s.collWaiting q).any fun c => abortHits s (collOf c).group a) = [a] := by
    rw [ha]
    exact List.filter_eq_self.mpr fun b hb => by
      rw [List.mem_singleton.mp hb, Bool.or_eq_true]
      exact .inr (List.any_eq_true.mpr ⟨q, List.mem_range.mpr hq, by rw [hc]; exact hhit⟩)
  unfold collSweep
  dsimp only
  rw [hused, foldl_range_one (q := q) (t := endCmd q c.id ⟨3, a.code, 0⟩ (collLost (collOf c) s)) hq]
  case hf => simp [hc, ha, hhit, hnone, State.doIf]
  case hs => exact fun p hp hne => by simp [hothers p hp hne]
  case ht => exact fun p hp hne => by simp [collWaiting_endCmd_collLost hne, hothers p hp hne]
  · simp [State.modNet, net_endCmd_collLost, ha]

end

end Sys2Proof.Machine
end

section
/-! PROOFS. Barriers, step boundaries and timeouts of collectives (O44). -/

namespace Sys2Proof.Machine

/-! ### A collective starts (R396) -/

section
variable {s v : State} {op q : Nat} {c : WcsCmd} {go : WcsCmd → State → State}

theorem collStart_idle
    (h : s.nextCmd q = none ∨ ∃ c, s.nextCmd q = some c ∧ (c.op ≠ 0x10 ∨ (collOf c).op ≠ op)) :
    collStart op q go s = s := by
  rcases h with h | ⟨c, hc, hno⟩
  · exact startNext_none h
  · exact startNext_other hc (by simpa only [Bool.and_eq_false_iff, beq_eq_false_iff_ne] using hno)

variable (hc : s.nextCmd q = some c) (hop : c.op = 0x10) (hcoll : (collOf c).op = op)
include hc hop hcoll

theorem collStart_failed {f : Fail} (h : ((collDecode q c).run).run (markStarted q c.id (wake s)) = (.error f, v)) :
    collStart op q go s = failWith q c.id f v := by
  rw [collStart, startNext_next hc (by simp [hop, hcoll]), h]

/-- A decoded collective that is no ALL_GATHER takes its serial number and writes its plan record. -/
theorem collStart_decoded (hgather : op ≠ 2)
    (h : ((collDecode q c).run).run (markStarted q c.id (wake s)) = (.ok (), v)) : collStart op q go s =
      let n := v.modNet fun n => { n with serial := (n.serial + 1) % 2 ^ 32 }
      collSweep (go c (if c.trace
        then n.putUnits (c.w 7) [⟨planBytes 0 0 0 0 0 0 0 4 0 1 0 0 0 n.coreMask 0, false⟩] else n)) := by
  have hgathers : c.gathers = false := by
    rw [WcsCmd.gathers, Bool.and_eq_false_iff]
    exact .inr (beq_eq_false_iff_ne.mpr (hcoll.trans_ne hgather))
  rw [collStart, startNext_next hc (by simp [hop, hcoll]), h]
  simp only [hgathers, State.doIf, Bool.false_eq_true, if_false]

end

/-! ### BARRIER (R412) -/

section
variable {s : State} {q : Nat} {c : WcsCmd}

/-- The barrier of a queue may complete. -/
def State.barGo (s : State) (c : WcsCmd) : Prop :=
  (collOf c).op = 5 ∧ s.barOpen (collOf c).group = true ∧ s.d3Full = false

theorem barTry_none (h : s.collWaiting q = none) : barTry q s = s := by rw [barTry, h]

theorem barTry_waits (hc : s.collWaiting q = some c) (h : ¬ s.barGo c) : barTry q s = s := by
  rw [barTry, hc]
  exact if_neg (by simpa [State.barGo] using h)

/-- An open barrier completes, its generation's messages gone. -/
theorem barTry_open (hc : s.collWaiting q = some c) (h : s.barGo c) : barTry q s =
    let g := (collOf c).group
    finishCmd q c.id ((s.modNet fun n => { n with
      barriers := n.barriers.filter fun b => !(b.group == g && b.gen == s.barGenOf g)
      barGen := tabSet n.barGen g ((s.barGenOf g + 1) % 2 ^ 32) }).bump .csrtStat F.csrtStatDone 1) := by
  rw [barTry, hc]
  exact if_pos (by simpa [State.barGo] using h)

variable {u : State} (hu : collSweep s = u)
include hu

theorem collBarrier_waiting (hc : u.collWaiting q = some c) : collBarrier q s = barTry q u := by
  unfold collBarrier
  simp only [hu, hc]

theorem collBarrier_starts (hc : u.collWaiting q = none) :
    collBarrier q s = barTry q (collStart 5 q (fun c s => barArriveAt (collOf c).group s) u) := by
  unfold collBarrier
  simp only [hu, hc]

theorem collBarrier_idle (hc : u.collWaiting q = none)
    (h : u.nextCmd q = none ∨ ∃ c, u.nextCmd q = some c ∧ (c.op ≠ 0x10 ∨ (collOf c).op ≠ 5)) :
    collBarrier q s = u := by
  rw [collBarrier_starts hu hc, collStart_idle h, barTry_none hc]

end

/-! ### STEP_BOUNDARY (R350, R405) -/

section
variable {s : State} {q : Nat} {c : WcsCmd} {e : WcsEnd}

theorem stepBoundary_none (h : s.atBoundary q = none) : stepBoundary q s = s := by rw [stepBoundary, h]

theorem stepCommits_nil (hc : s.atBoundary q = some c) (h : (s.qp q).slots = []) :
    stepCommits q s = s.modQp q fun x => { x with slots := [] } := by
  simp only [stepCommits, hc, h, List.mergeSort_nil, List.foldl_nil]

/-- A step with a re-shard to come, or without room for its entry, has only committed. -/
theorem stepBoundary_waits (hc : s.atBoundary q = some c)
    (h : ((stepCommits q s).qp q).reshards ≠ [] ∨ (stepCommits q s).d3Full = true) :
    stepBoundary q s = stepCommits q s := by
  rw [stepBoundary, hc]
  exact if_pos h

theorem stepBoundary_ends (hc : s.atBoundary q = some c) (he : c.fin = some e)
    (hshards : ((stepCommits q s).qp q).reshards = []) (hroom : (stepCommits q s).d3Full = false) :
    stepBoundary q s = sweep q ((placeBoundary (microBoundary q (stepCommits q s))).modQp q fun x =>
      { x with cmds := x.cmds.drop 1, out := x.out ++ entryOf q c e }) := by
  simp only [stepBoundary, hc, hshards, hroom, he, ne_eq, not_true_eq_false, Bool.false_eq_true, or_self, if_false]

/-- A re-partition that was decided takes effect, and none waits then. -/
theorem placeBoundary_next (s : State) : (placeBoundary s).net.place.next = none := by
  unfold placeBoundary
  split
  · assumption
  · rfl

theorem placeBoundary_now {d : Division} (h : s.net.place.next = some d) : (placeBoundary s).net.place.now = d := by
  rw [placeBoundary, h]

theorem microBoundary_ends (hq : (s.net.micro.any fun m => m.q == q) = true)
    (hissued : (s.net.micro.all fun m => m.issued) = true) :
    (microBoundary q s).net.micro = s.net.micro.map fun m => { q := m.q } := by
  rw [microBoundary, if_pos ⟨hq, hissued⟩]

end

/-! ### Timeouts (R401) -/

section
variable {s : State} {q peer step us : Nat} {c : WcsCmd}

theorem collTimeout_waiting (hc : s.collWaiting q = some c) : collTimeout q peer step us s =
    let u := (s.advance (c.since + us * usTicks)).bump .csrtStat F.csrtStatTimeouts 1
    abortOwn q c step (timeoutErr (collOf c).group peer step u) u := by
  simp only [collTimeout, hc]

/-- The step boundary gives up the oldest re-shard. -/
theorem collTimeout_reshard {b : WcsCmd} {ws : List Word} {rest : List (List Word)} (hc : s.collWaiting q = none)
    (hb : s.atBoundary q = some b) (hws : (s.qp q).reshards = ws :: rest) : collTimeout q peer step us s =
    let k := collOf { id := 0, ws := ws }
    let u := s.bump .csrtStat F.csrtStatTimeouts 1
    (collLost k (sendAborts k.group step ecCollTimeout (u.raise (timeoutErr k.group peer step u)))).modQp q fun x =>
      { x with reshards := x.reshards.drop 1 } := by
  simp only [collTimeout, hc, hb, hws]
  rfl

/-- A queue waits for a re-shard only at a boundary. -/
theorem atBoundary_of_collNow {k : Coll} (h : s.collNow q = some k) (hc : s.collWaiting q = none)
    {ws : List Word} {rest : List (List Word)} (hws : (s.qp q).reshards = ws :: rest) :
    ∃ b, s.atBoundary q = some b := by
  rw [State.collNow, hc, hws] at h
  exact Option.isSome_iff_exists.mp (by
    by_contra hno
    simp [hno] at h)

variable {u : State} (hu : collSweep s = u)
include hu

theorem stepTimeout_none (h : u.collNow q = none) : stepTimeout q peer step s = u := by
  unfold stepTimeout
  simp only [hu, h]
theorem waitTimeout_none (h : u.collNow q = none) : waitTimeout q s = u := by
  unfold waitTimeout
  simp only [hu, h]

variable {k : Coll} (h : u.collNow q = some k)
include h

/-- GTURN_SET and DEFINE_GROUP wait for no step of another member. -/
theorem stepTimeout_exempt (hop : k.op = 6 ∨ k.op = 15) : stepTimeout q peer step s = u := by
  unfold stepTimeout
  simp only [hu, h, hop, if_true]

theorem stepTimeout_ends (h6 : k.op ≠ 6) (h15 : k.op ≠ 15) : stepTimeout q peer step s =
    collTimeout q (peerField peer) step (if k.ackto = 0 then u.fld .csrtCtl F.csrtCtlCollTimeout else k.ackto) u := by
  unfold stepTimeout
  simp only [hu, h, h6, h15, or_self, if_false]

theorem waitTimeout_zero (hw : k.wait = 0) : waitTimeout q s = u := by
  unfold waitTimeout
  simp only [hu, h, hw, if_true]

theorem waitTimeout_ends (hw : k.wait ≠ 0) : waitTimeout q s = collTimeout q 0 0 k.wait u := by
  unfold waitTimeout
  simp only [hu, h, hw, if_false]

end

/-! ### What the commands answer -/

section
variable {s t : State} {cmd : Instr} {f : State → State} (hd : s.dead = false)
include hd

/-- A command after which local traffic settles. -/
theorem answers_runNet (hexec : exec cmd s = runNet f s) (h : f s = t) : Answers cmd s (linkProg (pump t)) :=
  h ▸ answers_run hd hexec

/-- What a timeout does to the collective that a queue waits for, or to the re-shard that its boundary waits for. -/
def State.TimesOut (s u : State) (cmd : Instr) (q st us : Nat) : Prop :=
  (∀ c, u.collWaiting q = some c → ∃ e d,
    ErrorRaised (collLost (collOf c) (sendAborts (collOf c).group st ecCollTimeout
      ((u.advance (c.since + us * usTicks)).bump .csrtStat F.csrtStatTimeouts 1))) e ∧
    Answers cmd s (linkProg (pump (endCmd q c.id ⟨3, ecCollTimeout, d⟩ e)))) ∧
  (∀ ws rest, u.collWaiting q = none → (u.qp q).reshards = ws :: rest → ∃ e,
    ErrorRaised (u.bump .csrtStat F.csrtStatTimeouts 1) e ∧
    let k := collOf { id := 0, ws := ws }
    Answers cmd s (linkProg (pump ((collLost k (sendAborts k.group st ecCollTimeout e)).modQp q fun x =>
      { x with reshards := x.reshards.drop 1 }))))

theorem timesOut_collTimeout {u : State} {q peer st us : Nat} {k : Coll} (hexec : exec cmd s = runNet f s)
    (hnow : u.collNow q = some k) (h : f s = collTimeout q peer st us u) : s.TimesOut u cmd q st us := by
  refine ⟨fun c hc => ?_, fun ws rest hc hws => ?_⟩
  · exact ⟨_, _, errorRaised_raise _ (e := timeoutErr _ peer st _) rfl,
      answers_runNet hd hexec (h.trans (collTimeout_waiting hc))⟩
  · obtain ⟨b, hb⟩ := atBoundary_of_collNow hnow hc hws
    exact ⟨_, errorRaised_raise _ (e := timeoutErr _ peer st _) rfl,
      answers_runNet hd hexec (h.trans (collTimeout_reshard hc hb hws))⟩

end

/-- Settles O44: aborts that have arrived come first; each clause then is one case of the command's meaning. -/
theorem barriersBoundariesAndTimeouts : Obligations.BarriersBoundariesAndTimeouts := by
  intro s q hd net u
  have hu : collSweep s = u := rfl
  have hbarrier : ∀ {t : State}, collBarrier q s = t → Answers (.collectiveBarrier q) s (net t) :=
    answers_runNet hd rfl
  have hboundary : ∀ {t : State}, stepBoundary q s = t → Answers (.stepBoundary q) s t :=
    answers_congr (answers_run hd rfl)
  refine ⟨collSweep_none, fun a c ha hgroup hc hhit hothers => ?abort, fun c hc => ?waiting, fun hc => ?start,
    fun hb => hboundary (stepBoundary_none hb), fun c e hb he => ?boundary, fun peer step => ?timeout⟩
  case abort =>
    exact collSweep_one q.isLt ha hgroup hc hhit fun p hp hne => hothers ⟨p, hp⟩ (Fin.ne_of_val_ne hne)
  case waiting =>
    have hgo := collBarrier_waiting hu hc
    exact ⟨fun hno => hbarrier (hgo.trans (barTry_waits hc hno)), fun h => hbarrier (hgo.trans (barTry_open hc h))⟩
  case start =>
    refine ⟨fun h => hbarrier (collBarrier_idle hu hc h), fun c hnext hop hcoll =>
      ⟨fun f v hf => ?_, fun v hok => ?_⟩⟩
    · exact hbarrier ((collBarrier_starts hu hc).trans (by rw [collStart_failed hnext hop hcoll hf]))
    · exact hbarrier ((collBarrier_starts hu hc).trans (by rw [collStart_decoded hnext hop hcoll (by decide) hok]))
  case boundary =>
    exact ⟨stepCommits_nil hb, fun h => hboundary (stepBoundary_waits hb h),
      fun hshards hroom => hboundary (stepBoundary_ends hb he hshards hroom),
      fun d => ⟨placeBoundary_next _, placeBoundary_now⟩, microBoundary_ends⟩
  case timeout =>
    have hstep : ∀ {t : State}, stepTimeout q peer step.toNat s = t →
        Answers (.collectiveStepTimeout q peer step) s (net t) := answers_runNet hd rfl
    have hwait : ∀ {t : State}, waitTimeout q s = t → Answers (.collectiveWaitTimeout q) s (net t) :=
      answers_runNet hd rfl
    refine ⟨fun hnow => ⟨hstep (stepTimeout_none hu hnow), hwait (waitTimeout_none hu hnow)⟩, fun k hnow =>
      ⟨fun hop => hstep (stepTimeout_exempt hu hnow hop), fun h6 h15 => ?_,
        fun hw => hwait (waitTimeout_zero hu hnow hw), fun hw => ?_⟩⟩
    · exact timesOut_collTimeout hd rfl hnow (stepTimeout_ends hu hnow h6 h15)
    · exact timesOut_collTimeout hd rfl hnow (waitTimeout_ends hu hnow hw)

end Sys2Proof.Machine
end

section
/-! PROOFS. The records of the transport (R372-R391): what a change of one peer's or one port's record leaves of the
others, and the arrival of a message (R374, R378, R381). -/

namespace Sys2Proof.Machine

/-! ### Records of peers and ports -/

section
variable (s : State) (d : Nat) (f : Peer → Peer) (g : LinkPort → LinkPort)

@[simp] theorem State.peer_modPeer_same : (s.modPeer d f).peer d = f (s.peer d) := tabGet_set_same ..
theorem State.peer_modPeer_other {e : Nat} (h : e ≠ d) : (s.modPeer d f).peer e = s.peer e := tabGet_set_other _ _ _ h
@[simp] theorem State.lport_modLport_same : (s.modLport d g).lport d = g (s.lport d) := tabGet_set_same ..

theorem peer_of_net_eq {t : State} (h : t.net = s.net) (e : Nat) : t.peer e = s.peer e := by
  rw [State.peer, h, State.peer]

end

/-- Two changes of a peer's record that agree on what it is change alike. -/
theorem modPeer_congr {s : State} {d : Nat} {f g : Peer → Peer} (h : f (s.peer d) = g (s.peer d)) :
    s.modPeer d f = s.modPeer d g := by
  unfold State.modPeer State.modNet tabMod
  dsimp only
  rw [show f (tabGet {} s.net.peers d) = g (tabGet {} s.net.peers d) from h]

/-! ### Arrival (R374, R378, R381) -/

/-- A message that keeps time; any other one wakes the device (R440). -/
def Msg.isTime : Msg → Bool
  | .time .. => true
  | _ => false

/-- A port is deaf to a message: it is not ACTIVE, the device has no identity, or the message is its own. -/
abbrev State.deaf (s : State) (p : Nat) (h : BwtHeader) : Prop :=
  s.lpState p ≠ lpActive ∨ s.bit .chipNode F.chipNodeIdValid = false ∨ h.src.val = s.devid
/-- The header is of another version, or its LENGTH is not the message's. -/
abbrev Msg.broken (m : Msg) (h : BwtHeader) : Prop := h.ver ≠ 1 ∨ h.length.toNat ≠ m.bytes
/-- What a message for this device acts on: its arrival wakes it. -/
def Msg.rouses (m : Msg) (s : State) : State := if m.isTime then s else wake s
/-- The ACK field and the ECE mark of a header act. -/
def ackActs (h : BwtHeader) (s : State) : State :=
  (ackArrive h.src.val h.ack.toNat s).doIf h.ece (eceArrive h.src.val)
/-- The CE mark of a datagram is noted at the port, to be echoed. -/
def ceActs (p : Nat) (h : BwtHeader) (s : State) : State := s.doIf (h.ce && decide (16 ≤ p)) fun s =>
  (s.bump (.xpCnt (p - 16)) F.xpCntEcnCe 1).modPeer h.src.val fun r => { r with eceDue := true }
/-- An acknowledgement is due from now on, unless one was. -/
def State.ackDue (s : State) (d : Nat) : State := s.modPeer d fun r => { r with ackSince := some (r.ackSince.getD s.now) }
/-- The next message in sequence is taken. -/
def State.turnTaken (s : State) (d : Nat) : State :=
  s.modPeer d fun r => { r with rxNext := (r.rxNext + 1) % 2 ^ 32, ackSince := some (r.ackSince.getD s.now) }

/-- A message with a SEQ acts in its turn: the next one at once and the held ones after it; one already seen only asks
for an acknowledgement; a later one is held at a gang port and discarded at a scale-out port. -/
def turnActs (p : Nat) (h : BwtHeader) (m : Msg) (b : State) : State :=
  if h.seq.toNat = (b.peer h.src.val).rxNext then
    deliverHeld h.src.val 1024 (deliver (decide (16 ≤ p)) h.src.val h.seq.toNat h.notify m (b.turnTaken h.src.val))
  else if seqBefore h.seq.toNat (b.peer h.src.val).rxNext then b.ackDue h.src.val
  else if 16 ≤ p then b.bump .winCnt F.winCntRefused 1
  else b.modPeer h.src.val fun r => { r with
    held := if r.held.any (fun y => y.seq == h.seq.toNat) then r.held
      else r.held ++ [⟨h.seq.toNat, h.notify, decide (16 ≤ p), m⟩] }

section
variable {s : State} {p : Nat} {h : BwtHeader} {m : Msg}

theorem receive_deaf (hdeaf : s.deaf p h) : receive p h m s = s := if_pos hdeaf

variable (hears : ¬ s.deaf p h)
include hears

theorem receive_broken (hm : m.broken h) : receive p h m s = s.bump .winCnt F.winCntRefused 1 := by
  unfold receive
  dsimp only
  exact (if_neg hears).trans (if_pos hm)

variable (hwhole : ¬ m.broken h)
include hwhole

/-- A message to another device goes no further from a scale-out port, and is relayed from a gang port. -/
theorem receive_foreign (hdst : h.dst.val ≠ s.devid) :
    receive p h m s = if p < 16 then relay h m (wake s) else s := by
  unfold receive
  dsimp only
  exact (if_neg hears).trans ((if_neg hwhole).trans (if_pos hdst))

/-- The header of a message for this device acts, then the message in its turn. -/
theorem receive_own (hdst : h.dst.val = s.devid) : receive p h m s =
    let b := ceActs p h (ackActs h (m.rouses s))
    if m.sequenced = false then b else turnActs p h m b := by
  have hdirect : ¬ h.dst.val ≠ s.devid := not_not.mpr hdst
  have hskip : ∀ {x y z w : State},
      (if s.deaf p h then x else if m.broken h then y else if h.dst.val ≠ s.devid then z else w) = w := by
    intro x y z w
    rw [if_neg hears, if_neg hwhole, if_neg hdirect]
  cases m with
  | _ => exact hskip

end

section
variable {b : State} {p : Nat} {h : BwtHeader} {m : Msg}

theorem ackActs_eq (h : BwtHeader) (s : State) : ackActs h s = if h.ece then
    eceArrive h.src.val (ackArrive h.src.val h.ack.toNat s) else ackArrive h.src.val h.ack.toNat s := rfl
theorem ceActs_eq (p : Nat) (h : BwtHeader) (s : State) : ceActs p h s = if h.ce ∧ 16 ≤ p then
    (s.bump (.xpCnt (p - 16)) F.xpCntEcnCe 1).modPeer h.src.val fun r => { r with eceDue := true } else s := by
  simp only [ceActs, State.doIf, Bool.and_eq_true, decide_eq_true_eq]

theorem turnActs_next (hq : h.seq.toNat = (b.peer h.src.val).rxNext) : turnActs p h m b =
    deliverHeld h.src.val 1024 (deliver (decide (16 ≤ p)) h.src.val h.seq.toNat h.notify m (b.turnTaken h.src.val)) :=
  if_pos hq

variable (hq : h.seq.toNat ≠ (b.peer h.src.val).rxNext)
include hq

theorem turnActs_seen (hseen : seqBefore h.seq.toNat (b.peer h.src.val).rxNext = true) :
    turnActs p h m b = b.ackDue h.src.val := by rw [turnActs, if_neg hq, if_pos hseen]

variable (hlater : seqBefore h.seq.toNat (b.peer h.src.val).rxNext = false)
include hlater

theorem turnActs_discarded (hp : 16 ≤ p) : turnActs p h m b = b.bump .winCnt F.winCntRefused 1 := by
  rw [turnActs, if_neg hq, hlater, if_neg Bool.false_ne_true, if_pos hp]

theorem turnActs_held (hp : p < 16) (hnew : ∀ y ∈ (b.peer h.src.val).held, y.seq ≠ h.seq.toNat) :
    turnActs p h m b = b.modPeer h.src.val fun r =>
      { r with held := r.held ++ [⟨h.seq.toNat, h.notify, false, m⟩] } := by
  have hfresh : ((b.peer h.src.val).held.any fun y => y.seq == h.seq.toNat) = false := by simpa using hnew
  rw [turnActs, if_neg hq, hlater, if_neg Bool.false_ne_true, if_neg (Nat.not_le.mpr hp),
    decide_eq_false (Nat.not_le.mpr hp)]
  exact modPeer_congr (by simp only [hfresh, Bool.false_eq_true, if_false])

end

/-! ### Relaying (R374) -/

section
variable {s : State} {h : BwtHeader} {m : Msg}

theorem relay_none (hg : s.gpTo h.dst.val = []) : relay h m s = s := by rw [relay, hg]

theorem relay_first {g : Nat} {gs : List Nat} (hg : s.gpTo h.dst.val = g :: gs) : relay h m s = s.modNet fun n => { n with
    out := n.out ++ [⟨g, none, h.dst.val, h.seq.toNat, h.ack.toNat, h.ece, h.notify, m, some h.src.val, none⟩] } := by
  rw [relay, hg]

end

end Sys2Proof.Machine
end

section
/-! PROOFS. The timers of the transport (R377, R378, R383, R388, R391): acknowledgements, resends, the rate of a peer,
and the credits that lapse. -/

namespace Sys2Proof.Machine

/-! ### Acknowledgements and resends (R378, R383) -/

/-- The message whose resend falls due first, the earlier sent of two that fall due together. -/
def soonest (a : Option TxMsg) (t : TxMsg) : Option TxMsg :=
  match a with
  | none => some t
  | some b => if t.due < b.due then some t else some b

theorem soonest_stays {x : TxMsg} {l : List TxMsg} (h : ∀ y ∈ l, x.due ≤ y.due) : l.foldl soonest (some x) = some x :=
  List.foldlRecOn (motive := (· = some x)) l soonest rfl fun a ha y hy => by
    rw [ha]
    exact if_neg (Nat.not_lt.mpr (h y hy))

theorem soonest_mem {l : List TxMsg} : ∀ y ∈ l.foldl soonest none, y ∈ l := by
  refine List.foldlRecOn (motive := fun a => ∀ y ∈ a, y ∈ l) l soonest nofun fun a ha t ht y hy => ?_
  cases a with
  | none => exact Option.mem_some.mp hy ▸ ht
  | some b =>
    by_cases hlt : t.due < b.due
    · rw [soonest, if_pos hlt] at hy
      exact Option.mem_some.mp hy ▸ ht
    · rw [soonest, if_neg hlt] at hy
      exact ha y hy

theorem soonest_first {x : TxMsg} {l r : List TxMsg} (hl : ∀ y ∈ l, x.due < y.due) (hr : ∀ y ∈ r, x.due ≤ y.due) :
    (l ++ x :: r).foldl soonest none = some x := by
  have hx : soonest (l.foldl soonest none) x = some x := by
    cases h : l.foldl soonest none with
    | none => rfl
    | some y => exact if_pos (hl y (soonest_mem y (Option.mem_def.mpr h)))
  rw [List.foldl_append, List.foldl_cons, hx, soonest_stays hr]

/-- A resend is noted in the record of its message. -/
def State.retried (s : State) (d : Nat) (x : TxMsg) : State := (s.advance x.due).modPeer d fun p =>
  { p with unacked := p.unacked.map fun u => if u.seq = x.seq then { u with tries := u.tries + 1 } else u }
/-- It is counted at the scale-out port that it leaves by. -/
def State.resentFrom (s : State) (d : Nat) : State :=
  match s.xpUp[d % s.xpUp.length]? with
  | some i => s.bump (.xpCnt (i - 16)) F.xpCntResent 1
  | none => s

section
variable {s : State} {d : Nat}

theorem ackTimer_none (h : (s.peer d).ackSince = none) : ackTimer d s = s := by rw [ackTimer, h]
theorem ackTimer_some {x : Nat} (h : (s.peer d).ackSince = some x) :
    ackTimer d s = (s.advance (x + 200 * fabTicks)).send d .ack false none := by rw [ackTimer, h]

/-- What is resent at what time, written out (R378). -/
theorem TxMsg.due_eq (x : TxMsg) :
    x.due = x.first + (if x.tries = 0 then 8 else if x.tries = 1 then 20 else 30) * usTicks := by
  rw [TxMsg.due]
  split
  · next h => rw [h]; rfl
  · next h => rw [h]; rfl
  · next h0 h1 => rw [if_neg h0, if_neg h1]

theorem resendTimer_idle (h : (s.peer d).inGang = true ∨ d = s.devid ∨ (s.peer d).unacked = []) :
    resendTimer d s = s := by
  unfold resendTimer
  dsimp only
  split
  · rfl
  · next hno =>
    obtain ⟨hgang, hself⟩ := not_or.mp hno
    rw [(h.resolve_left hgang).resolve_left hself]
    rfl

/-- The message that is due first is resent, or its peer given up. -/
theorem resendTimer_due {x : TxMsg} (hgang : (s.peer d).inGang = false) (hself : d ≠ s.devid)
    (h : (s.peer d).unacked.foldl soonest none = some x) : resendTimer d s =
      if 2 ≤ x.tries then failPeer d 2 (s.advance x.due)
      else emit d x.seq x.notify x.msg ((s.retried d x).resentFrom d) := by
  have hno : ¬ ((s.peer d).inGang = true ∨ d = s.devid) := by simp [hgang, hself]
  unfold resendTimer
  dsimp only
  rw [if_neg hno]
  show (match (s.peer d).unacked.foldl soonest none with | none => s | some t => _) = _
  rw [h]
  rfl

theorem xpUp_range {i : Nat} (h : i ∈ s.xpUp) : i = 16 ∨ i = 17 ∨ i = 18 ∨ i = 19 := by
  have hmem := List.mem_of_mem_filter h
  simpa using hmem

theorem resentFrom_leaves (s : State) (d : Nat) : let t := s.resentFrom d
    t = { s with regs := t.regs } ∧ s.RegsBut t [.xpCnt 0, .xpCnt 1, .xpCnt 2, .xpCnt 3] := by
  unfold State.resentFrom
  split
  · next i hi =>
    refine ⟨rfl, regsBut_setFld (regsBut_refl s _) (List.mem_map_of_mem ?_)⟩
    rcases xpUp_range (List.mem_of_getElem? hi) with rfl | rfl | rfl | rfl <;> simp
  · exact ⟨rfl, regsBut_refl s _⟩

theorem resend_leaves (s : State) (d : Nat) (x : TxMsg) : let t := (s.retried d x).resentFrom d
    t.now = (s.advance x.due).now ∧ t.mem = s.mem ∧ s.RegsBut t [.xpCnt 0, .xpCnt 1, .xpCnt 2, .xpCnt 3] ∧
    (t.peer d).unacked =
      (s.peer d).unacked.map fun y => if y.seq = x.seq then { y with tries := y.tries + 1 } else y := by
  obtain ⟨hrest, hregs⟩ := resentFrom_leaves (s.retried d x) d
  refine ⟨by rw [hrest]; rfl, by rw [hrest]; rfl, hregs, ?_⟩
  have hnet : ((s.retried d x).resentFrom d).net = (s.retried d x).net := by rw [hrest]
  rw [peer_of_net_eq _ hnet, State.retried, State.peer_modPeer_same]
  rfl

/-- Ten microseconds without ECE raise the rate of a peer (R377). -/
theorem ecnStep_leaves (s : State) (d : Nat) : let t := ecnStep d s
    t.now = max s.now ((s.peer d).lastEce + 10 * usTicks) ∧
    t.peer d = { s.peer d with rate := min ((s.peer d).rate + 1 / 64) 1, lastEce := t.now } ∧
    t.mem = s.mem ∧ t.regs = s.regs ∧ ∀ e, e ≠ d → t.peer e = s.peer e :=
  ⟨rfl, State.peer_modPeer_same .., rfl, rfl, fun _ he => State.peer_modPeer_other _ _ _ he⟩

end

/-! ### Credits that lapse (R388, R391) -/

section
variable {s : State} {d token w i : Nat}

theorem credRetire_none (h : ∀ c ∈ s.net.creds, c.dev ≠ d ∨ c.token ≠ token) : credRetire d token s = s := by
  have hfind : (s.net.creds.find? fun c => c.dev == d && c.token == token) = none :=
    List.find?_eq_none.mpr fun c hc => by simpa [imp_iff_not_or] using h c hc
  rw [credRetire, hfind]

/-- An unused credit goes back 60 µs after its grant. -/
theorem credRetire_some {as bs : List TxCred} {c : TxCred} (hcs : s.net.creds = as ++ c :: bs) (hd : c.dev = d)
    (ht : c.token = token) (has : ∀ e ∈ as, e.dev ≠ d ∨ e.token ≠ token) : credRetire d token s =
      (((s.advance (c.arr + 60 * usTicks)).modNet fun n => { n with creds := as ++ bs }).send d
        (.credReturn token 1) false none) := by
  have hfind : (s.net.creds.find? fun c => c.dev == d && c.token == token) = some c := by
    rw [hcs, List.find?_append, List.find?_eq_none.mpr fun e he => by simpa [imp_iff_not_or] using has e he]
    simp [hd, ht]
  have hnot : c ∉ as := fun hmem => (has c hmem).elim (· hd) (· ht)
  have herase : s.net.creds.erase c = as ++ bs := by
    rw [hcs, List.erase_append_right _ hnot, List.erase_cons_head]
  have hmod : ((s.advance (c.arr + 60 * usTicks)).modNet fun n => { n with creds := n.creds.erase c }) =
      (s.advance (c.arr + 60 * usTicks)).modNet fun n => { n with creds := as ++ bs } := by
    simp only [State.modNet, State.advance_net, herase]
  rw [credRetire, hfind]
  dsimp only
  rw [hmod]

theorem credWaitOut_none (h : (s.net.remTx.filter fun x => x.dev == d && x.parts != []).length ≤ i) :
    credWaitOut d i s = s := by rw [credWaitOut, List.getElem?_eq_none h]

theorem credWaitOut_some {x : RemTx} (h : (s.net.remTx.filter fun x => x.dev == d && x.parts != [])[i]? = some x) :
    credWaitOut d i s = txFail x.ref ecNoCredit (peerField d)
      (s.advance (x.since + max 1 (s.fld .winGctl F.winGctlCredWait) * usTicks)) := by rw [credWaitOut, h]

theorem creditExpire_none (h : ∀ c ∈ (s.win w).credits, ¬ (c.index = i ∧ c.used = false)) : creditExpire w i s = s := by
  have hfind : ((s.win w).credits.find? fun c => c.index == i && !c.used) = none :=
    List.find?_eq_none.mpr fun c hc => by simpa using h c hc
  rw [creditExpire, hfind]

/-- An unused credit expires 100 µs after its grant. -/
theorem creditExpire_some {as bs : List Credit} {c : Credit} (hcs : (s.win w).credits = as ++ c :: bs)
    (hc : c.index = i ∧ c.used = false) (has : ∀ e ∈ as, ¬ (e.index = i ∧ e.used = false)) :
    creditExpire w i s = creditReturn w i (s.advance (c.granted + 100 * usTicks)) := by
  have hfind : ((s.win w).credits.find? fun c => c.index == i && !c.used) = some c := by
    rw [hcs, List.find?_append, List.find?_eq_none.mpr fun e he => by simpa using has e he]
    simp [hc]
  rw [creditExpire, hfind]

end

end Sys2Proof.Machine
end

section
/-! PROOFS. Messages act in the order of their SEQ (O46): what the arrival of a message answers, and the timers. -/

namespace Sys2Proof.Machine

/-! ### The messages that arrive -/

/-- Command c is the arrival of message m with header h at port p, and `after` acts once it has arrived. -/
structure State.Arrival (s : State) (p : PortId) (h : BwtHeader) (c : Instr) (m : Msg) (after : State → State) : Prop where
  answers : ∀ {r}, receive (portNum p) h m s = r → Answers c s (linkProg (pump (after r)))
  time : m.isTime = true ↔ ∃ x, c = .timeMessage p h x
  ack : m.sequenced = false ↔ c = .ack p h

/-- What comes after a barrier message that has joined those kept: the manager roles pass it on, open barriers complete. -/
def barrierAfter (s : State) (g n : Nat) (rel : Bool) (r : State) : State :=
  if r.net.barriers.length = s.net.barriers.length then r
  else (List.range 64).foldl (fun t q => barTry q t) (barRelay g n ((r.net.barriers.getLast?.map BarMsg.dev).getD 0) rel r)

/-- A DATA message of whole units, at most 64 of them. -/
def wholeUnits (d : DataMsg) : Prop := d.units ≠ [] ∧ d.units.length ≤ 64 ∧ ∀ u ∈ d.units, u.length = 64

section
variable {s : State} {p : PortId} {h : BwtHeader}

theorem not_wholeUnits_iff {d : DataMsg} :
    ¬ wholeUnits d ↔ d.units = [] ∨ 64 < d.units.length ∨ d.units.any (fun u => u.length != 64) = true := by
  simp only [wholeUnits, not_and_or, not_not, Nat.not_le, List.any_eq_true, bne_iff_ne, not_forall, exists_prop]

theorem exec_data (d : DataMsg) : exec (.data p h d) s = runNet (fun s =>
    if d.units = [] ∨ 64 < d.units.length ∨ d.units.any (fun u => u.length != 64) then s.bump .winCnt F.winCntRefused 1
    else receive (portNum p) h (.data d.token.toNat d.offset.toNat (dataUnits d)) s) s := rfl

variable (hd : s.dead = false)
include hd

theorem answers_data_broken {d : DataMsg} (h' : ¬ wholeUnits d) :
    Answers (.data p h d) s (linkProg (pump (s.bump .winCnt F.winCntRefused 1))) :=
  answers_runNet hd (exec_data d) (if_pos (not_wholeUnits_iff.mp h'))

/-- The arrival of a message with a SEQ that keeps no time. -/
theorem arrival_plain {c : Instr} {m : Msg} {f after : State → State} (hexec : exec c s = runNet f s)
    (hf : f s = after (receive (portNum p) h m s)) (hm : m.isTime = false ∧ m.sequenced = true)
    (hc : (∀ x, c ≠ .timeMessage p h x) ∧ c ≠ .ack p h) : s.Arrival p h c m after where
  answers hr := answers_runNet hd hexec (hf.trans (congrArg after hr))
  time := ⟨fun ht => absurd (hm.1.symm.trans ht) nofun, fun ⟨x, hx⟩ => absurd hx (hc.1 x)⟩
  ack := ⟨fun ht => absurd (hm.2.symm.trans ht) nofun, fun hx => absurd hx hc.2⟩

theorem arrival_cstep (g : Byte) (n : W32) (x : BitVec 16) (ab : Bool) (e : Byte) :
    s.Arrival p h (.cstep p h g n x ab e) (.cstep g.toNat n.toNat x.toNat ab e.toNat) collSweep :=
  arrival_plain hd (f := fun s => collSweep (receive (portNum p) h (.cstep g.toNat n.toNat x.toNat ab e.toNat) s)) rfl rfl
    ⟨rfl, rfl⟩ ⟨nofun, nofun⟩

theorem arrival_barrier (g : Byte) (n : W32) (rel : Bool) : s.Arrival p h (.barrierMessage p h g n rel)
    (.barrier g.toNat n.toNat rel) (barrierAfter s g.toNat n.toNat rel) :=
  arrival_plain hd (f := fun s => barrierAfter s g.toNat n.toNat rel
    (receive (portNum p) h (.barrier g.toNat n.toNat rel) s)) rfl rfl ⟨rfl, rfl⟩ ⟨nofun, nofun⟩

/-- The arrival of a message after which nothing more acts. -/
theorem arrival_alone {c : Instr} {m : Msg} (hexec : exec c s = runNet (receive (portNum p) h m) s)
    (hm : m.isTime = false ∧ m.sequenced = true) (hc : (∀ x, c ≠ .timeMessage p h x) ∧ c ≠ .ack p h) :
    s.Arrival p h c m id := arrival_plain hd hexec rfl hm hc

theorem arrival_data {d : DataMsg} (hw : wholeUnits d) :
    s.Arrival p h (.data p h d) (.data d.token.toNat d.offset.toNat (dataUnits d)) id where
  answers hr := answers_runNet hd (exec_data d) ((if_neg fun hbad => not_wholeUnits_iff.mpr hbad hw).trans hr)
  time := ⟨nofun, nofun⟩
  ack := ⟨nofun, nofun⟩

theorem arrival_gturn (x : GturnMsg) : s.Arrival p h (.gturnMessage p h x) (gturnBody x) id :=
  arrival_alone hd rfl (by cases x <;> exact ⟨rfl, rfl⟩) ⟨nofun, nofun⟩

theorem arrival_time (x : ThreeTimes) : s.Arrival p h (.timeMessage p h x)
    (.time x.sent.toNat x.echo.toNat x.arrived.toNat) id where
  answers hr := answers_runNet hd (f := receive (portNum p) h (.time x.sent.toNat x.echo.toNat x.arrived.toNat)) rfl hr
  time := ⟨fun _ => ⟨x, rfl⟩, fun _ => rfl⟩
  ack := ⟨nofun, nofun⟩

theorem arrival_ack : s.Arrival p h (.ack p h) .ack id where
  answers hr := answers_runNet hd (f := receive (portNum p) h .ack) rfl hr
  time := ⟨nofun, nofun⟩
  ack := ⟨fun _ => rfl, fun _ => rfl⟩

end

/-- The message wakes the device unless it keeps time. -/
theorem State.Arrival.rouses {s u : State} {p : PortId} {h : BwtHeader} {c : Instr} {m : Msg} {after : State → State}
    (ha : s.Arrival p h c m after) (htime : (∃ x, c = .timeMessage p h x) → u = s)
    (hother : (¬ ∃ x, c = .timeMessage p h x) → u = wake s) : u = m.rouses s := by
  by_cases ht : m.isTime = true
  · rw [htime (ha.time.mp ht), Msg.rouses, if_pos ht]
  · rw [hother (mt ha.time.mpr ht), Msg.rouses, if_neg ht]

/-- Settles O46: every message that arrives is one arrival, which its header and its SEQ decide; each timer finds its
message, credit or transfer, or nothing. -/
theorem messagesActInOrder : Obligations.MessagesActInOrder := by
  intro s hd net
  refine ⟨fun p h c m after hrow => ?arrives, fun p h d hbad => ?data, fun d => ?timers, fun w i => ?expiry⟩
  case arrives =>
    intro k d q deaf isTime does broken
    have harr : s.Arrival p h c m after := by
      rcases hrow with ⟨g, n, x, ab, e, rfl, rfl, rfl⟩ | ⟨g, n, rel, rfl, rfl, rfl⟩ | ⟨rfl, ⟨d, rfl, rfl, hwhole⟩ |
        ⟨w, k, i, rfl, rfl⟩ | ⟨w, k, i, x, rfl, rfl⟩ | ⟨i, e, q, rfl, rfl⟩ | ⟨x, k, rfl, rfl⟩ | ⟨x, rfl, rfl⟩ |
        ⟨x, rfl, rfl⟩ | ⟨rfl, rfl⟩⟩
      · exact arrival_cstep hd g n x ab e
      · exact arrival_barrier hd g n rel
      · exact arrival_data hd hwhole
      · exact arrival_alone hd rfl ⟨rfl, rfl⟩ ⟨nofun, nofun⟩
      · exact arrival_alone hd rfl ⟨rfl, rfl⟩ ⟨nofun, nofun⟩
      · exact arrival_alone hd rfl ⟨rfl, rfl⟩ ⟨nofun, nofun⟩
      · exact arrival_alone hd rfl ⟨rfl, rfl⟩ ⟨nofun, nofun⟩
      · exact arrival_time hd x
      · exact arrival_gturn hd x
      · exact arrival_ack hd
    refine ⟨fun hdeaf => harr.answers (receive_deaf hdeaf), fun hears hbroken => harr.answers (receive_broken hears hbroken),
      fun hears hwhole hdst => ?foreign, fun hears hwhole hdst u a b htime hother ha hb => ?own⟩
    case foreign =>
      have hforeign := receive_foreign hears hwhole hdst
      refine ⟨fun hk => ?_, fun hk hnone => ?_, fun g gs hk hfirst => ?_⟩
      · exact harr.answers (hforeign.trans (if_neg (Nat.not_lt.mpr hk)))
      · exact harr.answers (hforeign.trans ((if_pos hk).trans (relay_none hnone)))
      · exact harr.answers (hforeign.trans ((if_pos hk).trans (relay_first hfirst)))
    case own =>
      intro next
      have hown := receive_own hears hwhole hdst
      have hmarks : ceActs k h (ackActs h (m.rouses s)) = b := by
        rw [← harr.rouses htime hother, ceActs_eq, ackActs_eq, ← ha, ← hb]
      rw [hmarks] at hown
      refine ⟨fun hack => harr.answers (hown.trans (if_pos (harr.ack.mpr hack))), fun hseq => ?_⟩
      have hturn := hown.trans (if_neg (mt harr.ack.mp hseq))
      exact ⟨fun hq => harr.answers (hturn.trans (turnActs_next hq)),
        fun hq hseen => harr.answers (hturn.trans (turnActs_seen hq hseen)),
        fun hq hlater hk => harr.answers (hturn.trans (turnActs_discarded hq hlater hk)),
        fun hq hlater hk hnew => harr.answers (hturn.trans (turnActs_held hq hlater hk hnew))⟩
  case data =>
    exact answers_data_broken hd (not_wholeUnits_iff.mpr (by simpa using hbad))
  case timers =>
    intro r timed due
    have hack : ∀ {t}, ackTimer d s = t → Answers (.ackTimer d) s (net t) := answers_runNet hd rfl
    have hresend : ∀ {t}, resendTimer d s = t → Answers (.resendTimer d) s (net t) := answers_runNet hd rfl
    have hwait : ∀ i {t}, credWaitOut d i s = t → Answers (.creditWaitTimeout d i) s (net t) :=
      fun _ => answers_runNet hd rfl
    refine ⟨fun h => hack (ackTimer_none h), fun x h => hack (ackTimer_some h), fun h => hresend (resendTimer_idle h),
      fun as x bs hgang hself hsent has hbs => ?resend, ?rate, fun token => ?retire, fun i => ?wait⟩
    case resend =>
      intro u
      have hdue : ∀ y : TxMsg, due y = y.due := fun y => y.due_eq.symm
      simp only [hdue] at has hbs
      have hfirst := resendTimer_due hgang hself ((congrArg _ hsent).trans (soonest_first has hbs))
      have hu : u = s.advance x.due := congrArg s.advance (hdue x)
      refine ⟨fun htries => hu ▸ hresend (hfirst.trans (if_pos htries)), fun htries => ⟨_,
        hresend (hfirst.trans (if_neg (Nat.not_le.mpr htries))), ?_⟩⟩
      rw [hu]
      exact resend_leaves s d x
    case rate => exact ⟨ecnStep d s, answers_runNet hd rfl rfl, ecnStep_leaves s d⟩
    case retire =>
      have hretire : ∀ {t}, credRetire d token.toNat s = t → Answers (.senderCreditRetire d token) s (net t) :=
        answers_runNet hd rfl
      exact ⟨fun h => hretire (credRetire_none h),
        fun as c bs hcs hdev htok has => hretire (credRetire_some hcs hdev htok has)⟩
    case wait =>
      intro waits
      exact ⟨fun h => hwait i (credWaitOut_none h), fun x h => hwait i (credWaitOut_some h)⟩
  case expiry =>
    intro unused
    have hexpiry : ∀ {t}, creditExpire w i s = t → Answers (.creditExpiry w i) s (net t) := answers_runNet hd rfl
    exact ⟨fun h => hexpiry (creditExpire_none h), fun as c bs hcs hc has => hexpiry (creditExpire_some hcs hc has)⟩

end Sys2Proof.Machine
end

section
/-! PROOFS. Link ports (R372-R380): the state of a port in its status register, what retraining, training, a PEER message
and a heartbeat leave, and local traffic that has nothing to settle. -/

namespace Sys2Proof.Machine

/-! ### Local traffic with nothing to settle -/

section
variable {s : State}

theorem selfLoop_nil (h : s.net.self = []) (k : Nat) : selfLoop k s = s := by
  cases k with
  | zero => rfl
  | succ k => rw [selfLoop, h]

/-- An acknowledgement of nothing sent leaves what every peer's record holds. -/
theorem ackArrive_none {d : Nat} (h : (s.peer d).unacked = []) (ack : Nat) : ackArrive d ack s = s.modPeer d id := by
  have hnone : (s.peer d).unacked.filter (fun t => seqBefore t.seq ack) = [] := by rw [h, List.filter_nil]
  unfold ackArrive
  dsimp only
  rw [hnone, List.foldl_nil]
  exact modPeer_congr (by rw [h, List.filter_nil, ← h]; rfl)

theorem linkProg_idle (h : s.fld (.hifProgStat 2) F.hifProgStatState ≠ 1) : linkProg s = s := if_neg h

theorem settled_quiet (hself : s.net.self = []) (hacked : (s.peer s.devid).unacked = [])
    (hprog : s.fld (.hifProgStat 2) F.hifProgStatState ≠ 1) : linkProg (pump s) = s.modPeer s.devid id := by
  have hpump : pump s = s.modPeer s.devid id := by
    unfold pump
    dsimp only
    rw [selfLoop_nil hself, ackArrive_none hacked]
    exact selfLoop_nil (s := s.modPeer s.devid id) hself _
  rw [hpump]
  exact linkProg_idle hprog

theorem peer_modPeer_id (s : State) (d e : Nat) : (s.modPeer d id).peer e = s.peer e := by
  by_cases he : e = d
  · rw [he, State.peer_modPeer_same, id]
  · exact State.peer_modPeer_other _ _ _ he

end

/-! ### The state of a port (R375, R380) -/

/-- The status register of a port. -/
abbrev portStatus (k : Nat) : Reg := if k < 16 then .gpStatus k else .xpStatus (k - 16)

section
variable {s t : State} {k st : Nat}

theorem portStatus_gp (h : k < 16) : portStatus k = .gpStatus k := if_pos h
theorem portStatus_xp (h : 16 ≤ k) : portStatus k = .xpStatus (k - 16) := if_neg (Nat.not_lt.mpr h)

theorem lpState_of_word (h : t.word (portStatus k) = s.word (portStatus k)) : t.lpState k = s.lpState k := by
  unfold State.lpState State.fld
  by_cases hk : k < 16
  · rw [portStatus_gp hk] at h
    rw [if_pos hk, if_pos hk, h]
  · rw [portStatus_xp (Nat.not_lt.mp hk)] at h
    rw [if_neg hk, if_neg hk, h]

theorem onlyRegs_setLp (s : State) (k st : Nat) : s.OnlyRegs (s.setLp k st) [portStatus k] := by
  unfold State.setLp portStatus
  split <;> exact onlyRegs_setFld (onlyRegs_refl s _) (by simp)

theorem lpState_setLp_gp (h : k < 16) (hst : st < 8) : (s.setLp k st).lpState k = st := by
  rw [State.setLp, if_pos h, State.lpState, if_pos h, State.fld_setFld_same _ _ _ _ (by decide)]
  exact Nat.mod_eq_of_lt hst

theorem lpState_setLp_xp (h : 16 ≤ k) (hst : st = lpTraining ∨ st = lpActive) : (s.setLp k st).lpState k = st := by
  have hk := Nat.not_lt.mpr h
  rw [State.setLp, if_neg hk, State.lpState, if_neg hk, State.fld_setFld_same _ _ _ _ (by decide)]
  rcases hst with rfl | rfl <;> rfl

theorem lpState_setLp_training : (s.setLp k lpTraining).lpState k = lpTraining := by
  by_cases h : k < 16
  · exact lpState_setLp_gp h (by decide)
  · exact lpState_setLp_xp (Nat.not_lt.mp h) (.inl rfl)

/-- Losing the time source is noted in one register, which is no port's. -/
theorem onlyRegs_tsyncDrop (s : State) : s.OnlyRegs (tsyncDrop s) [.chipTsync] := by
  unfold tsyncDrop
  dsimp only
  split
  · exact onlyRegs_setFld (onlyRegs_refl s _) (by simp)
  · split
    · exact onlyRegs_setFld (onlyRegs_refl s _) (by simp)
    · exact onlyRegs_refl s _

end

section
variable {p : Nat}

theorem gpStatus_ne_chipNode (h : p < 16) : regAddr .chipNode ≠ regAddr (.gpStatus p) := by
  simp only [regAddr]
  omega
theorem gpStatus_ne_gpCnt (p i : Nat) : regAddr (.gpStatus p) ≠ regAddr (.gpCnt i) := by
  simp only [regAddr]
  omega
theorem gpStatus_ne_gpCtl (p i : Nat) : regAddr (.gpStatus p) ≠ regAddr (.gpCtl i) := by
  simp only [regAddr]
  omega
theorem gpStatus_ne_chipTsync (h : p < 16) : regAddr (.gpStatus p) ≠ regAddr .chipTsync := by
  simp only [regAddr]
  omega
theorem gpStatus_not_errAddr (h : p < 16) : ¬ errAddr (regAddr (.gpStatus p)) := by
  simp only [errAddr, regAddr]
  omega
theorem chipNode_not_errAddr : ¬ errAddr (regAddr .chipNode) := by decide
theorem errHead_ne_gpStatus (h : p < 16) : regAddr .errHead ≠ regAddr (.gpStatus p) := by
  simp only [regAddr]
  omega

end

/-! ### Retraining and training (R372, R375, R380) -/

section
variable {s : State} {k n : Nat}

theorem retrain_off (h : s.portEn k = false ∨ s.chip.pciDown = true) : retrain k s = s :=
  if_neg (by rcases h with h | h <;> simp [h])
theorem retrain_on (hen : s.portEn k = true) (hup : s.chip.pciDown = false) :
    retrain k s = (linkDown k s).setLp k lpTraining := if_pos (by simp [hen, hup])

theorem retrainTimer_off (h : ¬ (s.lpState k = lpDown ∧ s.portEn k = true ∧ s.chip.pciDown = false)) :
    retrainTimer k s = s := if_neg h
theorem retrainTimer_on (h : s.lpState k = lpDown ∧ s.portEn k = true ∧ s.chip.pciDown = false) :
    retrainTimer k s = (s.advance ((s.lport k).downAt + 10000 * usTicks)).setLp k lpTraining := if_pos h

theorem widest_few (h : n < 2) : widest n = 0 := by
  rw [widest, if_neg (by omega), if_neg (by omega), if_neg (by omega)]
theorem widest_some (h : 2 ≤ n) : widest n = if 8 ≤ n then 8 else if 4 ≤ n then 4 else 2 := by
  rw [widest, if_pos h]
theorem widest_ne_zero (h : 2 ≤ n) : widest n ≠ 0 := by
  rw [widest_some h]
  split
  · decide
  · split <;> decide
theorem widest_le (n : Nat) : widest n ≤ 8 := by
  unfold widest
  split
  · decide
  · split
    · decide
    · split <;> decide

/-- The record of a port that trained at too few lanes. -/
def trainErr (k : Nat) : Err := { src := portSrc k, code := ecLinkDown, detail := [(32, 1, k), (33, 1, 3)] }
/-- The record of a port that trained at fewer lanes than it has. -/
def narrowErr (k l : Nat) : Err := { src := portSrc k, code := ecLinkDegraded, detail := [(32, 1, k), (33, 1, l)] }
/-- The message by which a gang port identifies itself (R372). -/
def State.identity (s : State) (k : Nat) : OutMsg := ⟨k, none, 0, 0, 0, false, false,
  .peer (s.fld .chipNode F.chipNodeDevid) (s.fld .chipNode F.chipNodeGang) (s.fld .chipNode F.chipNodeRank)
    (s.fld .chipNode F.chipNodeGsize) k, none, none⟩
/-- A gang port has trained at l lanes. -/
def State.gangTrained (s : State) (k l : Nat) : State :=
  ((s.setFld (.gpStatus k) F.gpStatusLanes l).setLp k lpIdentify).doIf (l != 8) (·.raise (narrowErr k l))

theorem trainDone_idle (h : s.lpState k ≠ lpTraining) : trainDone k n s = s := if_pos h

section
variable (h : s.lpState k = lpTraining)
include h

theorem trainDone_fails (hn : n < 2) :
    trainDone k n s = (linkDown k s).doIf (decide (k < 16)) (·.raise (trainErr k)) :=
  (if_neg (not_not.mpr h)).trans (if_pos (widest_few hn))

variable (hn : 2 ≤ n)
include hn

theorem trainDone_gang (hk : k < 16) : trainDone k n s =
    let t := s.gangTrained k (widest n)
    t.modNet fun x => { x with out := x.out ++ [t.identity k] } :=
  (if_neg (not_not.mpr h)).trans ((if_neg (widest_ne_zero hn)).trans (if_pos hk))

theorem trainDone_scaleOut (hk : 16 ≤ k) : trainDone k n s =
    (s.setFld (.xpStatus (k - 16)) F.xpStatusLanes (widest n)).setLp k lpActive :=
  (if_neg (not_not.mpr h)).trans ((if_neg (widest_ne_zero hn)).trans (if_neg (Nat.not_lt.mpr hk)))

end

theorem errOnly_doIf_raise (s : State) (b : Bool) (e : Err) : ErrOnly s (s.doIf b (·.raise e)) := by
  cases b
  · exact .refl s
  · exact errOnly_raise s e

theorem gangTrained_leaves (s : State) (hk : k < 16) {l : Nat} (hl : l ≤ 8) : let t := s.gangTrained k l
    t.lpState k = lpIdentify ∧ t.fld (.gpStatus k) F.gpStatusLanes = l ∧ (l = 8 → s.RegsBut t [.gpStatus k]) ∧
    s.RegsButErr t [.gpStatus k] ∧ t.mem = s.mem ∧ t.net = s.net ∧ t.identity k = s.identity k := by
  have hset : s.setLp k lpIdentify = s.setFld (.gpStatus k) F.gpStatusState lpIdentify := if_pos hk
  let u := (s.setFld (.gpStatus k) F.gpStatusLanes l).setLp k lpIdentify
  have hu : s.OnlyRegs u [.gpStatus k] := by
    have hstatus := onlyRegs_setLp (s.setFld (.gpStatus k) F.gpStatusLanes l) k lpIdentify
    rw [portStatus_gp hk] at hstatus
    exact onlyRegs_trans (onlyRegs_setFld (onlyRegs_refl s _) (by simp)) hstatus
  have herr : ErrOnly u (s.gangTrained k l) := errOnly_doIf_raise u (l != 8) (narrowErr k l)
  have hword : (s.gangTrained k l).word (portStatus k) = u.word (portStatus k) := by
    rw [portStatus_gp hk]
    exact herr.word (gpStatus_not_errAddr hk)
  have hlanes : u.fld (.gpStatus k) F.gpStatusLanes = l := by
    show (State.setLp _ k lpIdentify).fld _ _ = l
    rw [State.setLp, if_pos hk, State.fld_setFld_disjoint _ _ _ _ _ (by decide) (by decide) (by decide),
      State.fld_setFld_same _ _ _ _ (by decide)]
    exact Nat.mod_eq_of_lt (lt_of_le_of_lt hl (by decide))
  have hnode : ∀ f, (s.gangTrained k l).fld .chipNode f = s.fld .chipNode f := fun f =>
    (herr.fld f chipNode_not_errAddr).trans (RegsBut.fld hu.1 f (by simpa using gpStatus_ne_chipNode hk))
  refine ⟨(lpState_of_word hword).trans (lpState_setLp_gp hk (by decide)),
    (herr.fld _ (gpStatus_not_errAddr hk)).trans hlanes, ?_,
    regsButErr_trans (regsButErr_of_regsBut hu.1) (regsButErr_of_errOnly herr), by rw [herr.1, hu.2], by rw [herr.1, hu.2],
    by simp only [State.identity, hnode]⟩
  rintro rfl
  exact hu.1

end

/-! ### PEER (R372) -/

section
variable {s : State} {k : Nat} {m : PeerMsg}

/-- The peer's device and port are noted. -/
def State.peerNoted (s : State) (k : Nat) (m : PeerMsg) : State :=
  (s.setFld (.gpStatus k) F.gpStatusPeer m.dev.val).setFld (.gpStatus k) F.gpStatusPport m.port.toNat
/-- A peer of the same gang and gang size, with a rank of its own. -/
abbrev State.fitsPeer (s : State) (m : PeerMsg) : Prop :=
  m.gang.toNat = s.fld .chipNode F.chipNodeGang ∧ m.gsize.toNat = s.fld .chipNode F.chipNodeGsize ∧
    m.rank.toNat ≠ s.fld .chipNode F.chipNodeRank
/-- The port is ACTIVE, its heartbeats counted from now. -/
def State.gangJoined (s : State) (k : Nat) (m : PeerMsg) : State :=
  let u := (s.peerNoted k m).setLp k lpActive
  (u.modLport k fun l => { l with hbIn := s.now, hbOut := s.now }).modPeer m.dev.val fun r =>
    { r with inGang := true, rank := m.rank.toNat }
/-- The record of a peer that does not fit. -/
def mismatchErr (k : Nat) (m : PeerMsg) : Err :=
  { src := portSrc k, code := ecConfigConflict, peer := peerField m.dev.val, addr := regAddr (.gpStatus k) }

theorem peerArrive_idle (h : 16 ≤ k ∨ s.lpState k ≠ lpIdentify) : peerArrive k m s = s := if_pos h

theorem onlyRegs_peerNoted (s : State) (k : Nat) (m : PeerMsg) : s.OnlyRegs (s.peerNoted k m) [.gpStatus k] :=
  onlyRegs_setFld (onlyRegs_setFld (onlyRegs_refl s _) (by simp)) (by simp)

theorem peerArrive_identify (hk : k < 16) (h : s.lpState k = lpIdentify) : peerArrive k m s =
    if s.fitsPeer m then s.gangJoined k m else ((s.peerNoted k m).setLp k lpMismatch).raise (mismatchErr k m) := by
  have hact : ¬ (16 ≤ k ∨ s.lpState k ≠ lpIdentify) := by simp [h, hk]
  have hnode : ∀ f, (s.peerNoted k m).fld .chipNode f = s.fld .chipNode f := fun f =>
    RegsBut.fld (onlyRegs_peerNoted s k m).1 f (by simpa using gpStatus_ne_chipNode hk)
  have hbad : (m.gang.toNat ≠ (s.peerNoted k m).fld .chipNode F.chipNodeGang ∨
      m.gsize.toNat ≠ (s.peerNoted k m).fld .chipNode F.chipNodeGsize ∨
      m.rank.toNat = (s.peerNoted k m).fld .chipNode F.chipNodeRank) ↔ ¬ s.fitsPeer m := by
    simp only [hnode, State.fitsPeer, not_and_or, not_not, ne_eq]
  refine (if_neg hact).trans ?_
  by_cases hfits : s.fitsPeer m
  · exact (if_neg fun hno => hbad.mp hno hfits).trans (if_pos hfits).symm
  · exact (if_pos (hbad.mpr hfits)).trans (if_neg hfits).symm

variable (s m) (hk : k < 16) (st : Nat)
include hk

/-- The status of a port after a PEER message. -/
theorem peerStatus_leaves (hst : st < 8) : let t := (s.peerNoted k m).setLp k st
    s.OnlyRegs t [.gpStatus k] ∧ t.lpState k = st ∧ t.fld (.gpStatus k) F.gpStatusPeer = m.dev.val := by
  have hstatus := onlyRegs_setLp (s.peerNoted k m) k st
  rw [portStatus_gp hk] at hstatus
  refine ⟨onlyRegs_trans (onlyRegs_peerNoted s k m) hstatus, lpState_setLp_gp hk hst, ?_⟩
  rw [State.setLp, if_pos hk, State.fld_setFld_disjoint _ _ _ _ _ (by decide) (by decide) (by decide), State.peerNoted,
    State.fld_setFld_disjoint _ _ _ _ _ (by decide) (by decide) (by decide), State.fld_setFld_same _ _ _ _ (by decide)]
  exact Nat.mod_eq_of_lt m.dev.isLt

theorem gangJoined_leaves : let t := s.gangJoined k m
    t.fld (.gpStatus k) F.gpStatusPeer = m.dev.val ∧ t.mem = s.mem ∧ t.cores = s.cores ∧ s.RegsBut t [.gpStatus k] ∧
    t.lpState k = lpActive ∧ (t.lport k).hbIn = s.now ∧ (t.lport k).hbOut = s.now ∧
    (t.peer m.dev.val).inGang = true ∧ (t.peer m.dev.val).rank = m.rank.toNat := by
  obtain ⟨⟨hregs, hrest⟩, hstate, hpeer⟩ := peerStatus_leaves s m hk lpActive (by decide)
  let u := (s.peerNoted k m).setLp k lpActive
  have hport := State.lport_modLport_same u k fun l => { l with hbIn := s.now, hbOut := s.now }
  have hrec := State.peer_modPeer_same (u.modLport k fun l => { l with hbIn := s.now, hbOut := s.now }) m.dev.val
    fun r => { r with inGang := true, rank := m.rank.toNat }
  exact ⟨hpeer, (congrArg State.mem hrest :), (congrArg State.cores hrest :), hregs, hstate, congrArg LinkPort.hbIn hport,
    congrArg LinkPort.hbOut hport, congrArg Peer.inGang hrec, congrArg Peer.rank hrec⟩

theorem mismatched_leaves : let t := ((s.peerNoted k m).setLp k lpMismatch).raise (mismatchErr k m)
    t.fld (.gpStatus k) F.gpStatusPeer = m.dev.val ∧ t.mem = s.mem ∧ t.cores = s.cores ∧ s.RegsButErr t [.gpStatus k] ∧
    t.lpState k = lpMismatch ∧
    t.fld .errHead F.errHeadSeq = (s.fld .errHead F.errHeadSeq + 1) % 2 ^ 32 ∧ t.net = s.net := by
  obtain ⟨⟨hregs, hrest⟩, hstate, hpeer⟩ := peerStatus_leaves s m hk lpMismatch (by decide)
  have herr := errOnly_raise ((s.peerNoted k m).setLp k lpMismatch) (mismatchErr k m)
  refine ⟨(herr.fld _ (gpStatus_not_errAddr hk)).trans hpeer, by rw [herr.1, hrest], by rw [herr.1, hrest],
    regsButErr_trans (regsButErr_of_regsBut hregs) (regsButErr_of_errOnly herr), ?_, ?_, by rw [herr.1, hrest]⟩
  · refine (lpState_of_word ?_).trans hstate
    rw [portStatus_gp hk]
    exact herr.word (gpStatus_not_errAddr hk)
  · rw [raise_seq _ (e := mismatchErr k m) rfl, RegsBut.fld hregs _ (by simpa using errHead_ne_gpStatus hk)]

end

end Sys2Proof.Machine
end

section
/-! PROOFS. Heartbeats, replays and register writes of link ports (R373, R375, R380, R415, R479), and what the commands of
ports answer (O45). -/

namespace Sys2Proof.Machine

/-! ### Heartbeats (R373, R415) -/

section
variable {s : State} {k : Nat}

/-- The time of a heartbeat has come: none that arrived since the last one is a miss. -/
def State.beatDue (s : State) (k : Nat) : State :=
  (s.advance ((s.lport k).hbOut + usTicks)).doIf (decide ((s.lport k).hbIn ≤ (s.lport k).hbOut)) fun s =>
    s.bump (.gpCnt k) F.gpCntHbMiss 1
/-- The heartbeat that a gang port sends to device d. -/
def State.beat (s : State) (k d : Nat) : OutMsg := ⟨k, none, d, 0, (s.peer d).ack, (s.peer d).eceDue, false,
  .heartbeat s.timeNow (s.lport k).peerSent (s.lport k).peerAt, none, none⟩
/-- A heartbeat to device d leaves. -/
def State.beatSent (s : State) (k d : Nat) : State :=
  (s.modNet fun n => { n with out := n.out ++ [s.beat k d] }).modLport k fun l => { l with hbOut := s.now }

theorem beatDue_leaves (s : State) (k : Nat) : let t := s.beatDue k
    t = { s with regs := t.regs, now := max s.now ((s.lport k).hbOut + usTicks) } ∧ s.RegsBut t [.gpCnt k] ∧
    t.fld (.gpCnt k) F.gpCntHbMiss = if (s.lport k).hbIn ≤ (s.lport k).hbOut
      then min (s.fld (.gpCnt k) F.gpCntHbMiss + 1) F.gpCntHbMiss.top else s.fld (.gpCnt k) F.gpCntHbMiss := by
  unfold State.beatDue
  by_cases h : (s.lport k).hbIn ≤ (s.lport k).hbOut
  · rw [decide_eq_true h, if_pos h]
    exact ⟨rfl, regsBut_setFld (fun _ _ => rfl) (by simp), State.fld_bump_same _ _ (by decide) 1⟩
  · rw [decide_eq_false h, if_neg h]
    exact ⟨rfl, fun _ _ => rfl, rfl⟩

/-- What a gang port's heartbeat leaves. -/
theorem beatSent_leaves (s : State) (k d : Nat) : let t := (s.beatDue k).beatSent k d
    t.now = max s.now ((s.lport k).hbOut + usTicks) ∧ (t.lport k).hbOut = t.now ∧ (t.lport k).hbIn = (s.lport k).hbIn ∧
    t.net.out = s.net.out ++ [⟨k, none, d, 0, (s.peer d).ack, (s.peer d).eceDue, false,
      .heartbeat t.timeNow (s.lport k).peerSent (s.lport k).peerAt, none, none⟩] ∧
    (t.fld (.gpCnt k) F.gpCntHbMiss = if (s.lport k).hbIn ≤ (s.lport k).hbOut
      then min (s.fld (.gpCnt k) F.gpCntHbMiss + 1) F.gpCntHbMiss.top else s.fld (.gpCnt k) F.gpCntHbMiss) ∧
    s.RegsBut t [.gpCnt k] ∧ t.mem = s.mem := by
  obtain ⟨hrest, hregs, hmiss⟩ := beatDue_leaves s k
  have hnet : (s.beatDue k).net = s.net := by rw [hrest]
  have hport : (s.beatDue k).lport k = s.lport k := by rw [State.lport, hnet, State.lport]
  have hsent : ((s.beatDue k).beatSent k d).lport k = { s.lport k with hbOut := (s.beatDue k).now } :=
    (State.lport_modLport_same ..).trans (by rw [← hport]; rfl)
  have hout : ((s.beatDue k).beatSent k d).net.out = (s.beatDue k).net.out ++ [(s.beatDue k).beat k d] := rfl
  refine ⟨by rw [hrest]; rfl, by rw [hsent]; rfl, by rw [hsent], ?_, hmiss, hregs, (congrArg State.mem hrest :)⟩
  rw [hout, hnet, State.beat, hport, peer_of_net_eq _ hnet]
  rfl

theorem heartbeatSend_idle (h : s.lpState k ≠ lpActive ∨ s.bit .chipNode F.chipNodeIdValid = false) :
    heartbeatSend k s = s := if_pos h

section
variable (hon : ¬ s.lpState k ≠ lpActive) (hid : s.bit .chipNode F.chipNodeIdValid = true)
include hon hid

theorem heartbeatSend_gang (hk : k < 16) :
    heartbeatSend k s = (s.beatDue k).beatSent k (s.fld (.gpStatus k) F.gpStatusPeer) := by
  have hact : ¬ (s.lpState k ≠ lpActive ∨ s.bit .chipNode F.chipNodeIdValid = false) := by simp [not_not.mp hon, hid]
  obtain ⟨hrest, hregs, -⟩ := beatDue_leaves s k
  have hnet : (s.beatDue k).net = s.net := by rw [hrest]
  have hport : (s.beatDue k).lport k = s.lport k := by rw [State.lport, hnet, State.lport]
  have hpeer : (s.beatDue k).fld (.gpStatus k) F.gpStatusPeer = s.fld (.gpStatus k) F.gpStatusPeer :=
    RegsBut.fld hregs _ (by simpa using gpStatus_ne_gpCnt k k)
  rw [State.beatSent, State.beat, hport, ← hpeer]
  exact (if_neg hact).trans (if_pos hk)

theorem heartbeatSend_worker (hk : 16 ≤ k) (h : s.fld .chipNode F.chipNodeRank ≠ 0 ∨ s.rootDev = s.devid) :
    heartbeatSend k s = s := by
  have hact : ¬ (s.lpState k ≠ lpActive ∨ s.bit .chipNode F.chipNodeIdValid = false) := by simp [not_not.mp hon, hid]
  exact (if_neg hact).trans ((if_neg (Nat.not_lt.mpr hk)).trans (if_neg (by tauto)))

/-- The rank 0 of a gang asks the time source for the time. -/
theorem heartbeatSend_time (hk : 16 ≤ k) (hrank : s.fld .chipNode F.chipNodeRank = 0) (hroot : s.rootDev ≠ s.devid) :
    heartbeatSend k s =
      let u := s.advance (s.net.lastTime + 100 * usTicks)
      (u.send s.rootDev (.time u.timeNow (s.lport 16).peerSent (s.lport 16).peerAt) false none).modNet fun n =>
        { n with lastTime := u.now } := by
  have hact : ¬ (s.lpState k ≠ lpActive ∨ s.bit .chipNode F.chipNodeIdValid = false) := by simp [not_not.mp hon, hid]
  exact (if_neg hact).trans ((if_neg (Nat.not_lt.mpr hk)).trans (if_pos ⟨hrank, hroot⟩))

end

/-- The record of a port without a heartbeat for 3 µs. -/
def silentErr (s : State) (k : Nat) : Err :=
  { src := portSrc k, code := ecLinkDown, peer := peerField (s.fld (.gpStatus k) F.gpStatusPeer),
    detail := [(32, 1, k), (33, 1, 0)] }
/-- A heartbeat has arrived. -/
def State.beatHeard (s : State) (k : Nat) (v : ThreeTimes) : State :=
  s.modLport k fun l => { l with hbIn := s.now, peerSent := v.sent.toNat, peerAt := s.timeNow }

theorem heartbeat_deaf {v : ThreeTimes} (h : 16 ≤ k ∨ s.lpState k ≠ lpActive) : heartbeat k v s = s := if_pos h
theorem heartbeatTimeout_deaf (h : 16 ≤ k ∨ s.lpState k ≠ lpActive) : heartbeatTimeout k s = s := if_pos h

section
variable (hk : k < 16) (hon : ¬ s.lpState k ≠ lpActive)
include hk hon

theorem heartbeat_heard (v : ThreeTimes) : heartbeat k v s = let d := s.fld (.gpStatus k) F.gpStatusPeer
    if (s.peer d).rank = 0 ∧ s.fld .chipNode F.chipNodeRank ≠ 0 then timeSample d 1 v (s.beatHeard k v)
    else s.beatHeard k v :=
  if_neg (not_or.mpr ⟨Nat.not_le.mpr hk, hon⟩)

theorem heartbeatTimeout_down : heartbeatTimeout k s = let u := s.advance ((s.lport k).hbIn + 3 * usTicks)
    linkDown k (u.raise (silentErr u k)) :=
  if_neg (not_or.mpr ⟨Nat.not_le.mpr hk, hon⟩)

end

end

/-! ### Replays and frames that fail (R479) -/

section
variable {s : State} {k seq : Nat}

/-- The record of a flit whose fourth replay has failed. -/
def replayErr (s : State) (k seq : Nat) : Err :=
  { src := portSrc k, code := ecDetectLink, peer := peerField (s.fld (.gpStatus k) F.gpStatusPeer),
    detail := [(32, 1, k), (33, 2, seq), (35, 1, 4)] }

theorem flitReplay_deaf (good : Bool) (h : s.lpState k ≠ lpActive) : flitReplay k seq good s = s := if_pos h

section
variable (h : s.lpState k = lpActive)
include h

theorem flitReplay_good : flitReplay k seq true s =
    (s.bump (.gpCnt k) F.gpCntReplays 1).modLport k fun l => { l with replays := 0 } :=
  (if_neg (not_not.mpr h)).trans (if_pos (.inl rfl))

theorem flitReplay_again (hfew : (s.lport k).replays < 3) : flitReplay k seq false s =
    (s.bump (.gpCnt k) F.gpCntReplays 1).modLport k fun l => { l with replays := (s.lport k).replays + 1 } :=
  (if_neg (not_not.mpr h)).trans (if_pos (.inr (Nat.succ_lt_succ hfew)))

theorem flitReplay_fourth (hmany : 3 ≤ (s.lport k).replays) : flitReplay k seq false s =
    let u := s.bump (.gpCnt k) F.gpCntReplays 1
    retrain k ((u.raise (replayErr u k seq)).modLport k fun l => { l with replays := 0 }) := by
  have hno : ¬ (false = true ∨ (s.lport k).replays + 1 < 4) := by
    rintro (hf | hlt)
    · cases hf
    · omega
  exact (if_neg (not_not.mpr h)).trans (if_neg hno)

end

/-- The record of a frame whose check has failed. -/
def frameErr (k : Nat) : Err := { src := portSrc k, code := ecDetectLink, detail := [(32, 1, k)] }
/-- The port has raised DETECT_LINK within the last 1,000 µs. -/
abbrev State.detected (s : State) (k : Nat) : Prop := ∃ x, (s.lport k).detAt = some x ∧ s.now < x + 1000 * usTicks

theorem any_detAt_iff : ((s.lport k).detAt.any fun t => decide (s.now < t + 1000 * usTicks)) = true ↔ s.detected k := by
  simp [Option.any_eq_true]

theorem fcsFailure_again (h : s.detected k) : fcsFailure k s = s.bump .winCnt F.winCntRefused 1 :=
  if_pos (any_detAt_iff.mpr h)

theorem fcsFailure_first (h : ¬ s.detected k) : fcsFailure k s =
    ((s.bump .winCnt F.winCntRefused 1).raise (frameErr k)).modLport k fun l => { l with detAt := some s.now } :=
  if_neg (mt any_detAt_iff.mp h)

/-- A discarded frame is counted, and one in 1,000 µs raises DETECT_LINK. -/
theorem fcsFailure_leaves (h : ¬ s.detected k) : let t := fcsFailure k s
    t.fld .errHead F.errHeadSeq = (s.fld .errHead F.errHeadSeq + 1) % 2 ^ 32 ∧ (t.lport k).detAt = some s.now ∧
    t.fld .winCnt F.winCntRefused = (s.bump .winCnt F.winCntRefused 1).fld .winCnt F.winCntRefused ∧
    s.RegsButErr t [.winCnt] ∧ t.mem = s.mem := by
  rw [fcsFailure_first h]
  have herr := errOnly_raise (s.bump .winCnt F.winCntRefused 1) (frameErr k)
  have hregs : s.RegsBut (s.bump .winCnt F.winCntRefused 1) [.winCnt] := regsBut_setFld (regsBut_refl s _) (by simp)
  have hboth := regsButErr_trans (regsButErr_of_regsBut hregs) (regsButErr_of_errOnly herr)
  refine ⟨(raise_seq _ (e := frameErr k) rfl).trans ?_, congrArg LinkPort.detAt (State.lport_modLport_same ..),
    herr.fld _ (by decide), hboth, (congrArg State.mem herr.1 :)⟩
  rw [RegsBut.fld hregs _ (by decide)]

theorem arpAnswer_other {p : Nat} {ip : BitVec 128} (h : ¬ (s.lpState (16 + p) = lpActive ∧
    ip.toNat = s.word (.xpIp p 0) + s.word (.xpIp p 1) * 2 ^ 64)) : arpAnswer p ip s = s := if_neg h
theorem arpAnswer_own {p : Nat} {ip : BitVec 128} (h : s.lpState (16 + p) = lpActive ∧
    ip.toNat = s.word (.xpIp p 0) + s.word (.xpIp p 1) * 2 ^ 64) : arpAnswer p ip s = s.modNet fun n => { n with
      out := n.out ++ [⟨16 + p, none, 0, 0, 0, false, false, .arp ip (s.fld (.xpAddr p) F.xpAddrMac), none, none⟩] } :=
  if_pos h

end

/-! ### Registers of ports and of the node (R368, R375, R380) -/

section
variable {s : State} {p v : Nat}

theorem portCtlWrite_gang (hp : p < 16) : portCtlWrite p v s =
    let u := portEnable p (s.plainWrite (.gpCtl p) v)
    if F.gpCtlRetrain.of v = 1 then retrain p u else u := by
  refine (if_pos hp).trans ?_
  simp only [State.doIf, beq_iff_eq]

/-- A field of XP_CTL that is not to change while the port is ACTIVE. -/
abbrev State.keepsXp (s : State) (p v : Nat) (f : Fld) : Prop := f.of v = s.fld (.xpCtl p) f
/-- A write of XP_CTL would change what the traffic of an ACTIVE port depends on. -/
abbrev State.locksXp (s : State) (p v : Nat) : Prop := s.lpState (16 + p) = lpActive ∧
  ¬ (s.keepsXp p v F.xpCtlUdpPort ∧ s.keepsXp p v F.xpCtlMaxlen ∧ s.keepsXp p v F.xpCtlIpv6 ∧ s.keepsXp p v F.xpCtlSpeed)

theorem portCtlWrite_scaleOut : portCtlWrite (16 + p) v s =
    if s.locksXp p v then s.conflict (portSrc (16 + p)) (regAddr (.xpCtl p)) v
    else
      let u := portEnable (16 + p) (s.plainWrite (.xpCtl p) v)
      if F.xpCtlRetrain.of v = 1 then retrain (16 + p) u else u := by
  refine (if_neg (Nat.not_lt.mpr (Nat.le_add_right ..))).trans ?_
  simp only [Nat.add_sub_cancel_left, State.doIf, beq_iff_eq, Bool.not_eq_true', Bool.and_eq_false_iff, beq_eq_false_iff_ne,
    State.locksXp, State.keepsXp, not_and_or, or_assoc, ne_eq]

section
variable (hp : p < 14)
include hp

/-- EN of a gang port as a write of GP_CTL leaves it. -/
theorem portEn_written : (s.plainWrite (.gpCtl p) v).portEn p = (F.gpCtlEn.of v != 0) := by
  have hen := (plainWrite_rw s v (x := .gpCtl p) (f := ⟨F.gpCtlEn, .rw, 1⟩) (by simp [regFields]) rfl).2
  rw [State.portEn, if_pos (by omega), State.bit, hen]

theorem lpState_written : (s.plainWrite (.gpCtl p) v).lpState p = s.lpState p := by
  have hregs := (onlyRegs_plainWrite (r := .gpCtl p) (v := v) (onlyRegs_refl s [.gpCtl p]) (by simp)).1
  refine lpState_of_word (RegsBut.word hregs ?_)
  rw [portStatus_gp (by omega)]
  simpa using gpStatus_ne_gpCtl p p

theorem portEnable_trains (h : s.lpState p = lpDisabled) (hen : F.gpCtlEn.of v = 1) :
    (portEnable p (s.plainWrite (.gpCtl p) v)).lpState p = lpTraining := by
  rw [portEnable, portEn_written hp, hen, if_pos (by decide), lpState_written hp, if_pos h]
  exact lpState_setLp_training

theorem portEnable_disables (h : s.lpState p ≠ lpActive) (hen : F.gpCtlEn.of v = 0) :
    (portEnable p (s.plainWrite (.gpCtl p) v)).lpState p = lpDisabled := by
  have hlow : p < 16 := by omega
  rw [portEnable, portEn_written hp, hen, if_neg (by decide), lpState_written hp]
  dsimp only
  rw [if_neg (fun hand => h hand.1)]
  refine (lpState_of_word (RegsBut.word (onlyRegs_tsyncDrop _).1 ?_)).trans (lpState_setLp_gp hlow (by decide))
  rw [portStatus_gp hlow]
  simpa using gpStatus_ne_chipTsync hlow

end

/-- A port is up: neither DISABLED nor DOWN. -/
abbrev State.anyPortUp (s : State) : Prop := ∃ p ∈ allPorts, s.lpState p ≠ lpDisabled ∧ s.lpState p ≠ lpDown

theorem any_portUp_iff : (allPorts.any fun p => s.lpState p != lpDisabled && s.lpState p != lpDown) = true ↔
    s.anyPortUp := by simp only [List.any_eq_true, Bool.and_eq_true, bne_iff_ne]

theorem chipNodeWrite_refused (h : s.anyPortUp ∨ F.chipNodeGsize.of v = 0 ∨ 8 < F.chipNodeGsize.of v) :
    ErrorRaised s (chipNodeWrite v s) := by
  by_cases hup : s.anyPortUp
  · rw [chipNodeWrite, if_pos (any_portUp_iff.mpr hup)]
    exact errorRaised_conflict ..
  · rw [chipNodeWrite, if_neg (mt any_portUp_iff.mp hup), if_pos (h.resolve_left hup)]
    exact errorRaised_refuseWrite _ _ _ _ rfl

theorem chipNodeWrite_stored (hdown : ¬ s.anyPortUp) (hlo : 1 ≤ F.chipNodeGsize.of v) (hhi : F.chipNodeGsize.of v ≤ 8) :
    chipNodeWrite v s = s.plainWrite .chipNode v := by
  rw [chipNodeWrite, if_neg (mt any_portUp_iff.mp hdown), if_neg (by omega)]

end

end Sys2Proof.Machine
end

section
/-! PROOFS. What the commands of link ports answer (O45). -/

namespace Sys2Proof.Machine

/-- Settles O45: each command of a port or of the node runs one function of the transport, whose cases are the clauses. -/
theorem linkPortsTrainAndWatch : Obligations.LinkPortsTrainAndWatch := by
  intro s hd net raised noted
  refine ⟨fun u hself hacked hprog => ?quiet, fun c k hc => ?retrains, fun p m v => ?port, fun p n htrain hn => ?gang,
    fun p n ip => ?scaleOut, fun p seq => ?replay, fun r v => ⟨fun p => ?gpCtl, fun p => ?xpCtl, ?node⟩⟩
  case quiet =>
    have hnet : net u = u.modPeer u.devid id := settled_quiet hself hacked hprog
    rw [hnet]
    exact ⟨rfl, fun d => peer_modPeer_id u u.devid d⟩
  case retrains =>
    have hrun : ∀ {t}, retrain k s = t → Answers c s (net t) := by
      rcases hc with ⟨p, rfl, rfl⟩ | ⟨p, rfl, rfl⟩
      · exact answers_runNet hd (f := retrain p.val) rfl
      · exact answers_runNet hd (f := retrain (16 + p.val)) rfl
    exact ⟨fun hoff => hrun (retrain_off hoff), fun hen hup => ⟨_, hrun (retrain_on hen hup), lpState_setLp_training, rfl⟩⟩
  case port =>
    intro k off d
    have htrain : ∀ n {t}, trainDone k n s = t → Answers (.linkTrainingDone p n) s (net t) :=
      fun n => answers_runNet hd (f := trainDone k n) rfl
    have htimer : ∀ {t}, retrainTimer k s = t → Answers (.portRetrainTimer p) s (net t) :=
      answers_runNet hd (f := retrainTimer k) rfl
    have hpeer : ∀ {t}, peerArrive k m s = t → Answers (.peer p m) s (net t) :=
      answers_runNet hd (f := peerArrive k m) rfl
    have hsend : ∀ {t}, heartbeatSend k s = t → Answers (.heartbeatSend p) s (net t) :=
      answers_runNet hd (f := heartbeatSend k) rfl
    have hbeat : ∀ {t}, heartbeat k v s = t → Answers (.heartbeat p v) s (net t) :=
      answers_runNet hd (f := heartbeat k v) rfl
    have hsilent : ∀ {t}, heartbeatTimeout k s = t → Answers (.heartbeatTimeout p) s (net t) :=
      answers_runNet hd (f := heartbeatTimeout k) rfl
    refine ⟨fun n hidle => htrain n (trainDone_idle hidle), fun n ht hn => ⟨_, htrain n (trainDone_fails ht hn), ?_, ?_⟩,
      ⟨fun hno => htimer (retrainTimer_off hno), fun hwait => ⟨_, htimer (retrainTimer_on hwait), lpState_setLp_training, ?_⟩⟩,
      fun hidle => hpeer (peerArrive_idle hidle), fun hk hident => ?_,
      fun hoff => hsend (heartbeatSend_idle hoff), fun hon hid => ⟨fun hk => ?_, ?_, ?_⟩,
      fun hdeaf => ⟨hbeat (heartbeat_deaf hdeaf), hsilent (heartbeatTimeout_deaf hdeaf)⟩, fun hk hon => ⟨?_, ?_, ?_⟩⟩
    · intro hk
      rw [decide_eq_false (Nat.not_lt.mpr hk)]
      rfl
    · intro hk
      rw [decide_eq_true hk]
      exact errorRaised_raise _ (e := trainErr k) rfl
    · obtain ⟨hregs, hrest⟩ := onlyRegs_setLp (s.advance ((s.lport k).downAt + 10000 * usTicks)) k lpTraining
      have hnow := congrArg State.now hrest
      refine ⟨hnow, hregs, hrest.trans ?_⟩
      rw [hnow]
      rfl
    · intro fits
      by_cases hfits : fits
      · obtain ⟨hdev, hmem, hcores, hregs, hjoined⟩ := gangJoined_leaves s m hk
        exact ⟨_, hpeer ((peerArrive_identify hk hident).trans (if_pos hfits)), hdev, hmem, hcores,
          regsButErr_of_regsBut hregs, fun _ => ⟨hjoined.1, hregs, hjoined.2⟩, fun hno => absurd hfits hno⟩
      · obtain ⟨hdev, hmem, hcores, hregs, hbad⟩ := mismatched_leaves s m hk
        exact ⟨_, hpeer ((peerArrive_identify hk hident).trans (if_neg hfits)), hdev, hmem, hcores, hregs,
          fun hyes => absurd hyes hfits, fun _ => hbad⟩
    · exact ⟨_, hsend (heartbeatSend_gang hon hid hk), beatSent_leaves s k d⟩
    · exact fun hk hno => hsend (heartbeatSend_worker hon hid hk hno)
    · exact fun hk hrank hroot => hsend (heartbeatSend_time hon hid hk hrank hroot)
    · exact fun hsample => hbeat ((heartbeat_heard hk hon v).trans (if_pos hsample))
    · exact fun hsample => hbeat ((heartbeat_heard hk hon v).trans (if_neg hsample))
    · exact ⟨_, errorRaised_raise _ (e := silentErr _ k) rfl, hsilent (heartbeatTimeout_down hk hon)⟩
  case gang =>
    intro lanes g
    have hk : p.val < 16 := by omega
    obtain ⟨hstate, hlanes, hfull, hregs, hmem, hnet, hid⟩ := gangTrained_leaves s hk (widest_le n)
    refine ⟨_, answers_runNet hd (f := trainDone p.val n) rfl (trainDone_gang htrain hn hk), hstate,
      hlanes.trans (widest_some hn), fun h8 => hfull ((widest_some hn).trans (if_pos h8)), hregs, hmem, ?_⟩
    exact congrArg₂ (fun out x => out ++ [x]) (congrArg Net.out hnet) hid
  case scaleOut =>
    refine ⟨fun htrain hn => ?_, ?_, ?_⟩
    · let u := s.setFld (.xpStatus p) F.xpStatusLanes (widest n)
      have hdone : trainDone (16 + p.val) n s = u.setLp (16 + p) lpActive := by
        rw [trainDone_scaleOut htrain hn (Nat.le_add_right ..), Nat.add_sub_cancel_left]
      have hlp : u.setLp (16 + p) lpActive = u.setFld (.xpStatus p) F.xpStatusState 2 := by
        rw [State.setLp, if_neg (by omega), Nat.add_sub_cancel_left]
        rfl
      refine ⟨_, answers_runNet hd (f := trainDone (16 + p.val) n) rfl hdone,
        lpState_setLp_xp (Nat.le_add_right ..) (.inr rfl), ?_, ?_⟩
      · rw [hlp]
        exact onlyRegs_setFld (onlyRegs_setFld (onlyRegs_refl s _) (by simp)) (by simp)
      · rw [hlp, State.fld_setFld_disjoint _ _ _ _ _ (by decide) (by decide) (by decide),
          State.fld_setFld_same _ _ _ _ (by decide), ← widest_some hn]
        exact Nat.mod_eq_of_lt (lt_of_le_of_lt (widest_le n) (by decide))
    · intro own
      have harp : ∀ {t}, arpAnswer p ip s = t → Answers (.arp p ip) s (net t) :=
        answers_runNet hd (f := arpAnswer p ip) rfl
      exact ⟨fun hother => harp (arpAnswer_other hother), fun hown => harp (arpAnswer_own hown)⟩
    · intro u recent
      have hfcs : ∀ {t}, fcsFailure (16 + p) s = t → Answers (.fcsFailure p) s (net t) :=
        answers_runNet hd (f := fcsFailure (16 + p)) rfl
      exact ⟨fun hrecent => hfcs (fcsFailure_again hrecent), fun hfirst => ⟨_, hfcs rfl, fcsFailure_leaves hfirst⟩⟩
  case replay =>
    have hflit : ∀ good {t}, flitReplay p seq.toNat good s = t → Answers (.flitReplay p seq good) s (net t) :=
      fun good => answers_runNet hd (f := flitReplay p seq.toNat good) rfl
    refine ⟨fun hdeaf ok => hflit ok (flitReplay_deaf ok hdeaf), fun hup => ?_⟩
    intro u
    exact ⟨hflit true (flitReplay_good hup), fun hfew => hflit false (flitReplay_again hup hfew),
      fun hmany => ⟨_, errorRaised_raise u (e := replayErr u p seq.toNat) rfl, hflit false (flitReplay_fourth hup hmany)⟩⟩
  case gpCtl =>
    have hlow : p.val < 14 := p.isLt
    exact ⟨answers_runNet hd (f := portCtlWrite p.val v.toNat) rfl (portCtlWrite_gang (by omega)),
      fun hoff hen => portEnable_trains hlow hoff hen, fun hen hidle => portEnable_disables hlow hidle hen⟩
  case xpCtl =>
    intro same locked u
    have hwrite : ∀ {t}, portCtlWrite (16 + p) v.toNat s = t → Answers (.portCtlWrite r (.xp p) v) s (net t) :=
      answers_runNet hd (f := portCtlWrite (16 + p) v.toNat) rfl
    exact ⟨fun hlocked => ⟨_, hwrite (portCtlWrite_scaleOut.trans (if_pos hlocked)), errorRaised_conflict ..⟩,
      fun hfree => hwrite (portCtlWrite_scaleOut.trans (if_neg hfree))⟩
  case node =>
    intro up size
    have hwrite : ∀ {t}, chipNodeWrite v.toNat s = t → Answers (.chipNodeWrite r v) s (net t) :=
      answers_runNet hd (f := chipNodeWrite v.toNat) rfl
    refine ⟨fun hbad => ⟨_, hwrite rfl, chipNodeWrite_refused hbad⟩, fun hdown hlo hhi =>
      ⟨_, hwrite (chipNodeWrite_stored hdown hlo hhi), onlyRegs_plainWrite (onlyRegs_refl s _) (by simp),
        fun f hf hrw => (plainWrite_rw s v.toNat hf hrw).2⟩⟩

end Sys2Proof.Machine
end

section
/-! PROOFS. Bytes that a collective or a re-shard leaves at its destination (R398, R399, R407): the units of the on-die
memories, and what writing units anywhere keeps of the queues. -/

namespace Sys2Proof.Machine

/-! ### Units outside the stacks (R201, R224, R225) -/

section
variable {s : State} {da : Nat}

theorem placeOf_sram (h : sramAddr da) (j o : Nat) : placeOf da ≠ .stack j o := by
  unfold sramAddr at h
  rw [placeOf, if_neg (by omega), if_neg (by omega)]
  dsimp only
  split_ifs <;> exact Place.noConfusion

theorem parityRange_sound (hu : s.parity.units = []) (da len : Nat) : s.parityRange da len = s := by
  rw [State.parityRange, hu]
  rfl

section
variable (h : sramAddr da)
include h

theorem arrive_sram (write : Bool) (u : UnitP) : s.arrive write da u = (u, s) := by
  unfold State.arrive
  split
  · next j o hplace => exact absurd hplace (placeOf_sram h j o)
  · rfl

theorem sense_sram (hu : s.parity.units = []) : (s.sense da).2 = s := by
  have hgood : s.badUnit da = false := by rw [State.badUnit, hu, List.contains_nil]
  unfold State.sense
  split
  · next j o hplace => exact absurd hplace (placeOf_sram h j o)
  · simp only [parityRange_sound hu, hgood, Bool.false_eq_true, if_false]
  · exact parityRange_sound hu da 64

theorem rmwPart_sram (hu : s.parity.units = []) (bs : List Byte) (p : Bool) : s.rmwPart da bs p = s.wrPart da bs p := by
  unfold State.rmwPart
  split
  · rfl
  · simp only [sense_sram h hu, isStack_sram h, Bool.and_false]
    rfl

theorem units_wrPart (hu : s.parity.units = []) (bs : List Byte) (p : Bool) : (s.wrPart da bs p).parity.units = [] := by
  have hset : ∀ b, ((s.wr da bs).setPoison da b).parity.units = [] := fun b => by
    rw [setPoison_sram h]
    exact (congrArg (List.filter _) hu).trans List.filter_nil
  unfold State.wrPart
  dsimp only
  split_ifs
  · exact hset true
  · exact hset false
  · exact hu

/-- With every unit's parity good, a write from outside is the write of its pieces. -/
theorem rmwPieces_sram (hu : s.parity.units = []) (out : Bool) (bs : List Byte) (ps : List Bool) :
    rmwPieces out da bs ps s = wrPieces da bs ps s := by
  induction ps generalizing da bs s with
  | nil => rw [rmwPieces, wrPieces]
  | cons p ps ih =>
    have hin : (if out then s.arrive true da ⟨[], p⟩ else (⟨[], p⟩, s)) = (⟨[], p⟩, s) := by
      rw [arrive_sram h, ite_self]
    have hrest := ih (s := s.wrPart da (bs.take (64 - da % 64)) p) (da := da + (64 - da % 64))
      (Nat.le_add_right_of_le h) (units_wrPart h hu _ p) (bs.drop (64 - da % 64))
    cases ps with
    | nil => simp only [rmwPieces, wrPieces, hin, rmwPart_sram h hu]
    | cons b qs => simp only [rmwPieces, wrPieces, hin, rmwPart_sram h hu] at hrest ⊢; exact hrest

end

end

/-! ### The records of the queues -/

section
variable (s : State)

theorem qps_doIf {f : State → State} (h : ∀ s, (f s).hif.qps = s.hif.qps) (b : Bool) :
    (s.doIf b f).hif.qps = s.hif.qps := by
  cases b
  · rfl
  · exact h s

@[simp] theorem qps_raise (e : Err) : (s.raise e).hif.qps = s.hif.qps := by rw [(errOnly_raise s e).1]
@[simp] theorem qps_bump (r : Reg) (f : Fld) (v : Nat) : (s.bump r f v).hif.qps = s.hif.qps := rfl
@[simp] theorem qps_dirWrite (h : Nat) (e : DirEnt) : (s.dirWrite h e).hif.qps = s.hif.qps := rfl
@[simp] theorem qps_poisonTile (h : Nat) : (s.poisonTile h).hif.qps = s.hif.qps := qps_dirWrite ..
@[simp] theorem qps_detectStack (k o cause : Nat) (queued : Bool) (tile : Option Nat) :
    (s.detectStack k o cause queued tile).hif.qps = s.hif.qps := qps_raise ..

@[simp] theorem qps_countDetections (n k : Nat) : (countDetections n k s).hif.qps = s.hif.qps := by
  unfold countDetections askTest State.doIf
  dsimp only
  split_ifs <;> rfl

@[simp] theorem qps_parityRange (da len : Nat) : (s.parityRange da len).hif.qps = s.hif.qps := by
  refine List.foldlRecOn (motive := fun t : State => t.hif.qps = s.hif.qps) _ _ rfl fun t ht u _ => Eq.trans ?_ ht
  split
  · rw [qps_countDetections, qps_doIf _ fun s => qps_raise s _]
  · rw [qps_countDetections, qps_doIf _ fun s => qps_raise s _]
  · rfl
  · rfl

@[simp] theorem qps_bankWait (k o : Nat) : (s.bankWait k o).hif.qps = s.hif.qps := by
  unfold State.bankWait
  split
  · split <;> rfl
  · rfl

@[simp] theorem qps_sectorBad (k o : Nat) : (sectorBad k o s).hif.qps = s.hif.qps := by
  have hqueued : ∀ (b : Bool) (r : RowAt) (u : State), (u.doIf b fun s => (s.modGh k fun g => { g with
      repairQ := g.repairQ ++ [r] }).bump (.ghRepairStat k) F.ghRepairStatQueued 1).hif.qps = u.hif.qps :=
    fun b r u => qps_doIf u (fun s => qps_bump (s.modGh k _) ..) b
  unfold sectorBad
  dsimp only
  split
  · rw [qps_detectStack, qps_poisonTile, hqueued, qps_bump]
  · rw [qps_detectStack, hqueued, qps_bump]

@[simp] theorem qps_sense (da : Nat) : (s.sense da).2.hif.qps = s.hif.qps := by
  unfold State.sense
  dsimp only
  split
  · split_ifs
    · exact qps_bankWait ..
    · exact qps_bankWait ..
    · exact (qps_sectorBad ..).trans (qps_bankWait ..)
    · exact (qps_bump ..).trans (qps_bankWait ..)
  · split
    · rw [qps_poisonTile, qps_parityRange]
    · exact qps_parityRange ..
  · exact qps_parityRange ..

@[simp] theorem qps_arrive (write : Bool) (da : Nat) (u : UnitP) : (s.arrive write da u).2.hif.qps = s.hif.qps := by
  unfold State.arrive
  dsimp only
  split
  · split
    · rfl
    · split
      · rfl
      · exact qps_detectStack ..
  · rfl

@[simp] theorem qps_setPoison (da : Nat) (p : Bool) : (s.setPoison da p).hif.qps = s.hif.qps := by
  unfold State.setPoison
  dsimp only
  split <;> rfl

@[simp] theorem qps_wrPart (da : Nat) (bs : List Byte) (p : Bool) : (s.wrPart da bs p).hif.qps = s.hif.qps := by
  unfold State.wrPart
  dsimp only
  split_ifs
  · exact qps_setPoison ..
  · exact qps_setPoison ..
  · rfl

@[simp] theorem qps_rmwPart (da : Nat) (bs : List Byte) (p : Bool) : (s.rmwPart da bs p).hif.qps = s.hif.qps := by
  unfold State.rmwPart
  split
  · exact qps_wrPart ..
  · exact (qps_doIf _ (fun u => qps_setPoison u da false) _).trans ((qps_wrPart ..).trans (qps_sense ..))

theorem qps_rmwPieces (out : Bool) (da : Nat) (bs : List Byte) (ps : List Bool) :
    (rmwPieces out da bs ps s).hif.qps = s.hif.qps := by
  induction ps generalizing s da bs with
  | nil => rw [rmwPieces]
  | cons p ps ih =>
    have hin : (if out then s.arrive true da ⟨[], p⟩ else (⟨[], p⟩, s)).2.hif.qps = s.hif.qps := by
      cases out
      · rfl
      · exact qps_arrive ..
    cases ps with
    | nil =>
      simp only [rmwPieces]
      exact (qps_rmwPart ..).trans hin
    | cons b qs =>
      rw [rmwPieces]
      exact (ih ..).trans ((qps_rmwPart ..).trans hin)

end

/-! ### Elements at their destination (R399) -/

section
variable {s v w : State} {q id da bits : Nat}

theorem length_le_chunks {α : Type} {n k : Nat} {l : List α} (h : l.length ≤ n * k) :
    l.length ≤ n * (chunks n k l).length := by
  induction k generalizing l with
  | zero => simpa [chunks] using h
  | succ k ih =>
    cases l with
    | nil => simp
    | cons a l =>
      have hlen : (chunks n (k + 1) (a :: l)).length = (chunks n k ((a :: l).drop n)).length + 1 := by
        rw [chunks, List.length_cons]
        exact List.cons_ne_nil a l
      have hrest := ih (l := (a :: l).drop n) (by rw [List.length_drop]; rw [Nat.mul_succ] at h; omega)
      rw [List.length_drop] at hrest
      rw [hlen, Nat.mul_succ]
      omega

/-- The units that packed elements fill: poisoned where an element is. -/
def unitPoison (es : List (Byte × Bool)) : List Bool := (chunks 64 (ceilDiv es.length 64) es).map fun c => c.any Prod.snd
theorem unitPoison_nil : unitPoison [] = [] := rfl
/-- Elements of a command at an address. -/
def State.elemsPut (s : State) (q id da bits : Nat) (xs : List (Nat × Bool)) : State :=
  let es := packElems bits xs
  let t := if es.isEmpty then s else rmwPieces true da (es.map Prod.fst) (unitPoison es) s
  t.doIf ((unitPoison es).contains true) fun s => s.modCmd q id fun c => { c with poison := true }

theorem writeElems_run (xs : List (Nat × Bool)) (s : State) :
    ((writeElems q id da bits xs).run).run s = (.ok (), s.elemsPut q id da bits xs) := rfl

theorem elemsPut_nil : s.elemsPut q id da bits [] = s := by
  have hes : packElems bits [] = [] := by unfold packElems; split <;> rfl
  unfold State.elemsPut
  rw [hes]
  rfl

theorem reshards_modCmd (s : State) (q id p : Nat) (f : WcsCmd → WcsCmd) :
    ((s.modCmd q id f).qp p).reshards = (s.qp p).reshards := by
  by_cases h : p = q
  · subst h
    rw [State.modCmd, State.qp_modQp_same]
  · exact congrArg Qp.reshards (State.qp_setQp_other s _ h)

theorem reshards_elemsPut (xs : List (Nat × Bool)) (p : Nat) :
    ((s.elemsPut q id da bits xs).qp p).reshards = (s.qp p).reshards := by
  have hput : ((if (packElems bits xs).isEmpty then s else rmwPieces true da ((packElems bits xs).map Prod.fst)
      (unitPoison (packElems bits xs)) s).qp p) = s.qp p := by
    split
    · rfl
    · exact congrArg (tabGet {} · p) (qps_rmwPieces ..)
  unfold State.elemsPut State.doIf
  dsimp only
  split
  · rw [reshards_modCmd, hput]
  · rw [hput]

/-- Elements written to the on-die memories: their bytes are there, and no register or other byte differs. -/
theorem elemsPut_sram (xs : List (Nat × Bool)) (hda : da % 64 = 0) (h : sramAddr da) (hu : s.parity.units = []) :
    let t := s.elemsPut q id da bits xs
    let bs := (packElems bits xs).map Prod.fst
    t.regs = s.regs ∧ t.now = s.now ∧ memRead t.mem da bs.length = bs ∧ s.MemBut t [(da, bs.length)] := by
  intro t bs
  let u := wrPieces da bs (unitPoison (packElems bits xs)) s
  have honly : s.SramOnly u := sramOnly_wrPieces h ..
  have hmem : u.mem = memWrite s.mem da bs := mem_wrPieces h _ _ _ (by
    have hunits := length_le_chunks (n := 64) (k := ceilDiv (packElems bits xs).length 64) (l := packElems bits xs)
      (by unfold ceilDiv; omega)
    rw [hda, unitPoison, List.length_map, List.length_map]
    omega)
  have hput : (if (packElems bits xs).isEmpty then s else rmwPieces true da bs (unitPoison (packElems bits xs)) s) = u := by
    split
    · next he => simp only [u, List.isEmpty_iff.mp he, unitPoison_nil, wrPieces]
    · exact rmwPieces_sram h hu ..
  have ht : t.regs = u.regs ∧ t.now = u.now ∧ t.mem = u.mem := by
    rw [← hput]
    unfold t State.elemsPut State.doIf
    dsimp only
    split
    · exact ⟨rfl, rfl, rfl⟩
    · exact ⟨rfl, rfl, rfl⟩
  obtain ⟨hregs, hnow, htmem⟩ := ht
  refine ⟨by rw [hregs, honly], by rw [hnow, honly], ?_, fun a ha => ?_⟩
  · rw [htmem, hmem, memRead_write]
  · rw [htmem, hmem]
    exact memByte_write_other _ _ _ _ (ha _ (List.mem_singleton_self _))

end

end Sys2Proof.Machine
end

section
/-! PROOFS. Collectives that move data, re-shards, groups and global turnstile sets (O43). -/

namespace Sys2Proof.Machine

/-! ### A collective that moves data (R396, R398, R399, R409) -/

section
variable {s v w : State} {q op : Nat} {c : WcsCmd} {k : Coll} {peers : List Contribution} {xs : List Sent} {f : Fail}

/-- A decoded collective has its serial number, and its plan record is written. -/
def State.collPlanned (v : State) (q : Nat) (c : WcsCmd) : State :=
  let n := v.modNet fun n => { n with serial := (n.serial + 1) % 2 ^ 32 }
  let n := if c.gathers then microReplay q n else n
  if c.trace then n.putUnits (c.w 7) [⟨planBytes 0 0 0 0 0 0 0 4 0 1 0 0 0 n.coreMask 0, false⟩] else n

theorem collStart_planned {go : WcsCmd → State → State} (hc : s.nextCmd q = some c) (hop : c.op = 0x10)
    (hcoll : (collOf c).op = op) (h : ((collDecode q c).run).run (markStarted q c.id (wake s)) = (.ok (), v)) :
    collStart op q go s = collSweep (go c (v.collPlanned q c)) := by
  rw [collStart, startNext_next hc (by simp [hop, hcoll]), h]
  rfl

/-- The result of a collective at this device. -/
def State.collElems (v : State) (k : Coll) (xs : List Sent) : List (Nat × Bool) :=
  let r := v.rankIn k.group
  let ch := ceilDiv k.count (v.members k.group).length
  match k.op with
  | 0 => (reduced k xs 0 k.count).1
  | 1 => (reduced k xs (r * ch) (min k.count ((r + 1) * ch))).1
  | 2 => xs.flatMap fun x => (List.range k.count).map (convElem k x)
  | 3 => xs.flatMap fun x => (List.range x.n).map (convElem k x)
  | _ => match xs.find? fun x => v.entry k 2 x.rank == r with
    | some x => (List.range k.count).map (convElem k x)
    | none => []

/-- A collective is refused, or writes its result and besides notes at most a total that saturated. -/
theorem collWrite_run (q : Nat) (c : WcsCmd) (k : Coll) (xs : List Sent) (v : State) :
    (∃ f, ((collWrite q c k xs).run).run v = (.error f, v)) ∨ ∃ b, ((collWrite q c k xs).run).run v =
      (.ok (), (v.doIf b (noteInfo q c.id ecAccSatFinal 0)).elemsPut q c.id k.dst k.dbits (v.collElems k xs)) := by
  unfold collWrite State.collElems
  dsimp only
  have hstart : ∀ {body : State → Act Unit} {y : Except Fail Unit × State},
      ((body v).run).run v = y → ((actState >>= body).run).run v = y := fun h => (bind_run_ok (a := actState) rfl).trans h
  rcases k.op with _ | _ | _ | _ | n
  · exact .inr ⟨_, rfl⟩
  · exact .inr ⟨_, rfl⟩
  · exact .inr ⟨false, hstart (writeElems_run ..)⟩
  · generalize (xs.flatMap fun x => (List.range x.n).map (convElem k x)) = es
    cases hbad : !es.isEmpty && v.reach k.dst (bytesFor k.dbits es.length) != 0 with
    | true => exact .inl ⟨_, hstart (bind_run_error (by rw [hbad]; rfl))⟩
    | false => exact .inr ⟨false, hstart ((bind_run_ok (by rw [hbad]; rfl)).trans (writeElems_run ..))⟩
  · cases hfind : xs.find? fun x => v.entry k 2 x.rank == v.rankIn k.group with
    | none =>
      refine .inr ⟨false, hstart ?_⟩
      rw [hfind]
      show (Except.ok (), v) = (Except.ok (), v.elemsPut q c.id k.dst k.dbits [])
      rw [elemsPut_nil]
    | some x => exact .inr ⟨false, hstart (by rw [hfind]; exact writeElems_run ..)⟩

theorem collWrite_ok (h : ((collWrite q c k xs).run).run v = (.ok (), w)) : ∃ b,
    w = (v.doIf b (noteInfo q c.id ecAccSatFinal 0)).elemsPut q c.id k.dst k.dbits (v.collElems k xs) := by
  rcases collWrite_run q c k xs v with ⟨f, hrun⟩ | ⟨b, hrun⟩
  · exact nomatch congrArg Prod.fst (h.symm.trans hrun)
  · exact ⟨b, congrArg Prod.snd (h.symm.trans hrun)⟩

theorem collWrite_sram (h : ((collWrite q c k xs).run).run v = (.ok (), w)) (hdst : k.dst % 64 = 0) (hsram : sramAddr k.dst)
    (hu : v.parity.units = []) :
    let bs := (packElems k.dbits (v.collElems k xs)).map Prod.fst
    w.regs = v.regs ∧ w.now = v.now ∧ memRead w.mem k.dst bs.length = bs ∧ v.MemBut w [(k.dst, bs.length)] := by
  obtain ⟨b, rfl⟩ := collWrite_ok h
  cases b with
  | false => exact elemsPut_sram _ hdst hsram hu
  | true => exact elemsPut_sram (s := noteInfo q c.id ecAccSatFinal 0 v) _ hdst hsram hu

/-! What a started collective does once every member has contributed. -/

theorem collTry_none (hc : s.collWaiting q = none) : collTry q peers s = s := by rw [collTry, hc]

section
variable (hc : s.collWaiting q = some c)
include hc

theorem collTry_waits (h : s.joined (collOf c) peers = false ∨ s.d3Full = true) : collTry q peers s = s := by
  rw [collTry, hc]
  exact if_neg (by rcases h with h | h <;> simp [h])

theorem collTry_joined (hj : s.joined (collOf c) peers = true) (hd3 : s.d3Full = false) :
    collTry q peers s = collFinish q c peers s := by
  rw [collTry, hc]
  exact if_pos (by simp [hj, hd3])

end

theorem collFinish_failed (h : ((allSent (collOf c) peers).run).run s = (.error f, v)) :
    collFinish q c peers s = failWith q c.id f v := by rw [collFinish, h]

section
variable (h : ((allSent (collOf c) peers).run).run s = (.ok xs, v))
include h

/-- A version that differs aborts the collective. -/
theorem collFinish_stale {x : Sent} (hx : staleOf (collOf c) xs = some x) : ∃ e d,
    ErrorRaised (collLost (collOf c) (sendAborts (collOf c).group 0 ecShardStale
      ((if c.gathers then microStale q v else v).bump .csrtStat F.csrtStatStale 1))) e ∧
    collFinish q c peers s = endCmd q c.id ⟨3, ecShardStale, d⟩ e := by
  simp only [collFinish, h, hx]
  exact ⟨_, _, errorRaised_raise _ rfl, rfl⟩

variable (hx : staleOf (collOf c) xs = none)
include hx

theorem collFinish_refused (hw : ((collWrite q c (collOf c) xs).run).run v = (.error f, w)) :
    collFinish q c peers s = microGo (failWith q c.id f w) := by
  simp only [collFinish, h, hx]
  rw [runAct_bind_error hw]

theorem collFinish_done (hw : ((collWrite q c (collOf c) xs).run).run v = (.ok (), w)) :
    collFinish q c peers s = microGo (finishCmd q c.id (w.bump .csrtStat F.csrtStatDone 1)) := by
  simp only [collFinish, h, hx]
  rw [runAct_bind_ok hw]
  rfl

end

/-! What the command of a data collective does. -/

section
variable {u : State} (hu : collSweep s = u)
include hu

theorem collData_waiting (hc : u.collWaiting q = some c) :
    collData op q peers s = if (collOf c).op = op then collTry q peers u else u := by
  unfold collData
  simp only [hu, hc]

variable (hc : u.collWaiting q = none)
include hc

theorem collData_busy (hop : op = 1) (hbusy : microBusy u q = true) : collData op q peers s = u := by
  unfold collData
  simp only [hu, hc, hop, hbusy, and_self, if_true]

theorem collData_idle (h : u.nextCmd q = none ∨ ∃ c, u.nextCmd q = some c ∧ (c.op ≠ 0x10 ∨ (collOf c).op ≠ op)) :
    collData op q peers s = u := by
  unfold collData
  simp only [hu, hc, collStart_idle h, collTry_none hc, ite_self]

section
variable (hfree : op = 1 → microBusy u q = false) (hnext : u.nextCmd q = some c) (hop : c.op = 0x10)
  (hcoll : (collOf c).op = op)
include hfree hnext hop hcoll

theorem collData_failed (h : ((collDecode q c).run).run (markStarted q c.id (wake u)) = (.error f, v)) :
    collData op q peers s = collTry q peers (failWith q c.id f v) := by
  have hno : ¬ (op = 1 ∧ microBusy u q = true) := fun hb => by simp [hfree hb.1] at hb
  unfold collData
  simp only [hu, hc, if_neg hno]
  rw [collStart_failed hnext hop hcoll h]

theorem collData_starts (h : ((collDecode q c).run).run (markStarted q c.id (wake u)) = (.ok (), v)) :
    collData op q peers s = collTry q peers (collSweep (
      let k := collOf c
      let p := v.collPlanned q c
      if op = 4 ∧ k.src = k.dst then finishCmd q c.id (p.modQp q fun x => { x with reshards := x.reshards ++ [c.ws] })
      else if k.count = 0 ∧ op ≠ 3 then finishCmd q c.id (p.bump .csrtStat F.csrtStatDone 1) else p)) := by
  have hno : ¬ (op = 1 ∧ microBusy u q = true) := fun hb => by simp [hfree hb.1] at hb
  unfold collData
  simp only [hu, hc, if_neg hno]
  rw [collStart_planned hnext hop hcoll h, hcoll]

end

end

end

/-! ### Re-shards at the step's boundary (R350, R407, R408) -/

section
variable (s : State)

theorem hif_landReports : (landReports s).hif = s.hif := by
  unfold landReports
  split
  · refine List.foldlRecOn (motive := fun t : State => t.hif = s.hif) _ _ rfl fun t ht r _ => Eq.trans ?_ ht
    cases r.amax <;> cases r.nan <;> rfl
  · rfl

theorem hif_commitComplete (n : Nat) : (commitComplete n s).hif = s.hif := by
  cases h : s.commitOf n with
  | none => rw [commitComplete, h]
  | some c => rw [commitComplete_some h, (onlySlot_foldl (n := n) (endCommit n c.ends s) c.held).2]; rfl

theorem hif_commitPush (n : Nat) : (commitPush n s).hif = s.hif := by
  unfold commitPush
  dsimp only
  split <;> rfl

theorem hif_commitScale (n : Nat) : (commitScale n s).hif = s.hif := by
  unfold commitScale
  dsimp only
  split
  · rfl
  · split
    · rw [(errOnly_raise _ _).1]
      rfl
    · rfl

theorem hif_commitSlot (n : Nat) : (commitSlot n s).hif = s.hif := by
  have hbegun := (hif_commitComplete (landReports s) n).trans (hif_landReports s)
  unfold commitSlot
  dsimp only
  rw [hif_commitScale, hif_commitPush]
  split
  · exact hbegun
  · exact hbegun

/-- The commits of a step keep the queue's re-shards. -/
theorem reshards_stepCommits (q : Nat) : ((stepCommits q s).qp q).reshards = (s.qp q).reshards := by
  have hslots : ∀ ks : List Nat, (ks.foldl (fun s k => (commitSlot k s).advance (s.now + fabTicks)) s).hif = s.hif :=
    fun ks => List.foldlRecOn (motive := fun t : State => t.hif = s.hif) ks _ rfl fun t ht k _ => (hif_commitSlot t k).trans ht
  have hends : ∀ (ks : List Nat) (t : State), (ks.foldl (fun s k => commitComplete k s) t).hif = t.hif := fun ks t =>
    List.foldlRecOn (motive := fun u : State => u.hif = t.hif) ks _ rfl fun u hu k _ => (hif_commitComplete u k).trans hu
  unfold stepCommits
  split
  · rfl
  · rw [State.qp_modQp_same]
    exact congrArg (fun h : Hif => (tabGet {} h.qps q).reshards) ((hends _ _).trans (hslots _))

end

section
variable {s v : State} {q : Nat} {c : WcsCmd} {ws : List Word} {rest : List (List Word)} {peers : List Contribution}
  {p : Contribution}

theorem reshardExecute_idle (h : s.atBoundary q = none ∨ (s.qp q).reshards = []) : reshardExecute q peers s = s := by
  rcases h with h | h
  · rw [reshardExecute, h]
  · cases hb : s.atBoundary q <;> rw [reshardExecute, hb, h]

theorem reshardExecute_oldest (hb : s.atBoundary q = some c) (hws : (s.qp q).reshards = ws :: rest) :
    reshardExecute q peers s = reshardOne q ws peers (stepCommits q s) := by rw [reshardExecute, hb, hws]

/-- The fields of a re-shard as it is executed. -/
abbrev State.reshardColl (v : State) (ws : List Word) : Coll := collOf { id := v.hif.nextCmd, ws := ws }
/-- The rank whose shard this device takes, as the table names it. -/
def State.reshardFrom (v : State) (k : Coll) : Nat :=
  let r := v.rankIn k.group
  ((List.range (v.members k.group).length).find? fun i => v.entry k 2 i == r).getD r
/-- The oldest re-shard of a queue is dropped. -/
def State.dropReshard (s : State) (q : Nat) : State := s.modQp q fun x => { x with reshards := x.reshards.drop 1 }

theorem dropReshard_eq (h : (s.qp q).reshards = ws :: rest) :
    s.dropReshard q = s.modQp q fun x => { x with reshards := rest } := by
  rw [State.dropReshard, State.modQp, State.modQp, h, List.drop_one, List.tail_cons]

theorem reshards_dropReshard (h : (s.qp q).reshards = ws :: rest) : ((s.dropReshard q).qp q).reshards = rest := by
  rw [dropReshard_eq h, State.qp_modQp_same]

/-- A device that keeps its own shard does no more than drop the re-shard. -/
theorem reshardOne_own (h : v.reshardFrom (v.reshardColl ws) = v.rankIn (v.reshardColl ws).group) :
    reshardOne q ws peers v = (progDone 5 0 (progStart 5 v)).dropReshard q := if_pos h

section
variable (h : v.reshardFrom (v.reshardColl ws) ≠ v.rankIn (v.reshardColl ws).group)
include h

theorem reshardOne_waits (hnone : peers.find? (fun p => p.rank == v.reshardFrom (v.reshardColl ws)) = none) :
    reshardOne q ws peers v = v := by
  unfold State.reshardFrom at h hnone
  unfold reshardOne
  simp only [if_neg h, hnone]

section
variable (hp : peers.find? (fun p => p.rank == v.reshardFrom (v.reshardColl ws)) = some p)
include hp

/-- A version that differs drops the re-shard, its destination undefined. -/
theorem reshardOne_stale (hx : staleOf (v.reshardColl ws) [sentOf p] ≠ none) : ∃ e,
    ErrorRaised ((v.bump .csrtStat F.csrtStatStale 1).dropReshard q) e ∧ reshardOne q ws peers v =
      collLost (v.reshardColl ws) (sendAborts (v.reshardColl ws).group 0 ecShardStale e) := by
  obtain ⟨x, hx⟩ := Option.ne_none_iff_exists'.mp hx
  unfold State.reshardFrom at h hp
  unfold reshardOne
  simp only [if_neg h, hp, hx]
  exact ⟨_, errorRaised_raise _ rfl, rfl⟩

theorem reshardOne_moves (hx : staleOf (v.reshardColl ws) [sentOf p] = none) : reshardOne q ws peers v =
    let k := v.reshardColl ws
    let es := (List.range k.count).map (convElem k (sentOf p))
    (progDone 5 (bytesFor k.dbits k.count) (((progStart 5 v).elemsPut q v.hif.nextCmd k.dst k.dbits es).bump .csrtStat
      F.csrtStatDone 1)).dropReshard q := by
  unfold State.reshardFrom at h hp
  unfold reshardOne
  simp only [if_neg h, hp, hx]
  rfl

end

end

section
variable (hq : (v.qp q).reshards = ws :: rest)
include hq

theorem reshardOwn_leaves : let t := (progDone 5 0 (progStart 5 v)).dropReshard q
    (t.qp q).reshards = rest ∧ t.mem = v.mem := by
  have honly := (progOnly_trans (progOnly_progStart v 5) (progOnly_progDone (progStart 5 v) 5 0)).1
  refine ⟨reshards_dropReshard (ws := ws) ?_, (congrArg State.mem honly :)⟩
  rw [honly]
  exact hq

/-- A re-shard that moves is dropped, its elements at the destination. -/
theorem reshardMoved_leaves (id n da bits : Nat) (es : List (Nat × Bool)) :
    let t := (progDone 5 n (((progStart 5 v).elemsPut q id da bits es).bump .csrtStat F.csrtStatDone 1)).dropReshard q
    let bs := (packElems bits es).map Prod.fst
    (t.qp q).reshards = rest ∧ (da % 64 = 0 → sramAddr da → v.parity.units = [] →
      memRead t.mem da bs.length = bs ∧ v.MemBut t [(da, bs.length)]) := by
  have hstart := (progOnly_progStart v 5).1
  let u := ((progStart 5 v).elemsPut q id da bits es).bump .csrtStat F.csrtStatDone 1
  have hdone : progDone 5 n u = { u with regs := _, msixSent := _ } := (progOnly_progDone u 5 n).1
  refine ⟨reshards_dropReshard (ws := ws) ?_, fun hda hsram hu => ?_⟩
  · have hqp : ((progDone 5 n u).qp q) = ((progStart 5 v).elemsPut q id da bits es).qp q := by rw [hdone]; rfl
    rw [hqp, reshards_elemsPut, hstart]
    exact hq
  · have hmem : ((progDone 5 n u).dropReshard q).mem = ((progStart 5 v).elemsPut q id da bits es).mem :=
      (congrArg State.mem hdone :)
    have hmem0 : (progStart 5 v).mem = v.mem := by rw [hstart]
    obtain ⟨-, -, hread, hbut⟩ := elemsPut_sram (s := progStart 5 v) (q := q) (id := id) (bits := bits) es hda hsram
      (by rw [hstart]; exact hu)
    refine ⟨by rw [hmem, hread], fun a ha => ?_⟩
    rw [hmem, hbut a ha, hmem0]

end

end

/-! ### GTURN_SET and DEFINE_GROUP (R397, R413) -/

section
variable {s : State} {q : Nat}

/-- What a DEFINE_GROUP (15) or a GTURN_SET (6) sets: the members of the group, or, at the root, the turnstile. -/
def State.collSet (op : Nat) (c : WcsCmd) (p : State) : State :=
  if op = 15 then p.modNet fun n =>
    { n with groups := tabSet n.groups (collOf c).group ((List.range (collOf c).count).map (p.entry (collOf c) 2)) }
  else if p.role = 2 then p.setGturn (bitsOf (c.w 1) 15 0) ⟨bitsOf (c.w 2) 31 0, bitsOf (c.w 2) 63 32⟩ else p
/-- It is set, and the command completes. -/
def setDone (op q : Nat) (c : WcsCmd) (p : State) : State :=
  finishCmd q c.id ((p.collSet op c).bump .csrtStat F.csrtStatDone 1)

theorem gturnSet_eq : gturnSet q s = collStart 6 q (setDone 6 q) s := by
  have hgo : (fun (c : WcsCmd) (p : State) => finishCmd q c.id ((p.doIf (decide (p.role = 2)) (·.setGturn
      (bitsOf (c.w 1) 15 0) ⟨bitsOf (c.w 2) 31 0, bitsOf (c.w 2) 63 32⟩)).bump .csrtStat F.csrtStatDone 1)) = setDone 6 q := by
    funext c p
    simp only [setDone, State.collSet, State.doIf, decide_eq_true_eq]
    rfl
  exact congrArg (collStart 6 q · s) hgo

theorem defineGroup_eq : defineGroup q s = collStart 15 q (setDone 15 q) s := rfl

end

/-- Settles O43: a started collective waits, fails, is stale or writes its result; one that starts is planned first; a
re-shard stays, is dropped, is stale or moves; a set and a group are set as their command is planned. -/
theorem collectivesMoveData : Obligations.CollectivesMoveData := by
  intro s q peers hd net u plan
  refine ⟨fun cmd op hrow => ?data, fun hidle => ?_, fun c ws rest hb hws => ?reshard, fun cmd op hrow => ?sets⟩
  case data =>
    intro does
    have hrun : ∀ {t}, collData op q peers s = t → does t := by
      simp only [List.mem_cons, List.not_mem_nil, or_false] at hrow
      rcases hrow with ⟨rfl, rfl⟩ | ⟨rfl, rfl⟩ | ⟨rfl, rfl⟩ | ⟨rfl, rfl⟩ | ⟨rfl, rfl⟩
      · exact answers_runNet hd (f := collData 0 q peers) rfl
      · exact answers_runNet hd (f := collData 1 q peers) rfl
      · exact answers_runNet hd (f := collData 2 q peers) rfl
      · exact answers_runNet hd (f := collData 3 q peers) rfl
      · exact answers_runNet hd (f := collData 4 q peers) rfl
    refine ⟨fun c hc => ?started, fun hc hop hbusy => hrun (collData_busy rfl hc hop hbusy),
      fun hc hno => hrun (collData_idle rfl hc hno), fun c hc hfree hnext hcmd hop => ?starts⟩
    case started =>
      intro k
      have hdata := collData_waiting (op := op) (peers := peers) (rfl : collSweep s = u) hc
      refine ⟨fun hwait => hrun (hdata.trans ?_), fun hop hjoined hroom => ?_⟩
      · split
        · next hop => exact collTry_waits hc (hwait.resolve_left (not_not.mpr hop))
        · rfl
      have hfinish : ∀ {t}, collFinish q c peers u = t → does t := fun h =>
        hrun (hdata.trans ((if_pos hop).trans ((collTry_joined hc hjoined hroom).trans h)))
      refine ⟨fun f v hsent => hfinish (collFinish_failed hsent), fun xs v hsent => ⟨fun x hx => ?_, fun hx =>
        ⟨fun f w hw => hfinish (collFinish_refused hsent hx hw), fun w hw => ⟨hfinish (collFinish_done hsent hx hw), ?_⟩⟩⟩⟩
      · obtain ⟨e, d, herr, hend⟩ := collFinish_stale hsent hx
        exact ⟨e, d, herr, hfinish hend⟩
      · intro r ch es bs hdst hsram hunits
        have hes : es = v.collElems k xs := by
          subst hop
          rfl
        simp only [bs, hes]
        exact collWrite_sram hw hdst hsram hunits
    case starts =>
      intro b k
      refine ⟨fun f v hfail => hrun (collData_failed rfl hc hfree hnext hcmd hop hfail), fun v hdecode => ?_⟩
      intro p g
      exact hrun (collData_starts rfl hc hfree hnext hcmd hop hdecode)
  case reshard =>
    intro v k r src does
    have hq : (v.qp q).reshards = ws :: rest := (reshards_stepCommits s q).trans hws
    have hrun : ∀ {t}, reshardOne q ws peers v = t → does t := fun h =>
      answers_runNet hd (f := reshardExecute q peers) rfl ((reshardExecute_oldest hb hws).trans h)
    refine ⟨fun hne hnone => hrun (reshardOne_waits hne (List.find?_eq_none.mpr fun p hp h => hnone p hp (beq_iff_eq.mp h))),
      fun heq => ⟨_, hrun (reshardOne_own heq), reshardOwn_leaves hq⟩, fun p hne hp => ⟨fun hx => ?_, fun hx => ?_⟩⟩
    · obtain ⟨e, herr, hend⟩ := reshardOne_stale hne hp hx
      rw [dropReshard_eq (s := v.bump .csrtStat F.csrtStatStale 1) hq] at herr
      exact ⟨e, hrun hend, herr⟩
    · exact ⟨_, hrun (reshardOne_moves hne hp hx), reshardMoved_leaves hq ..⟩
  case sets =>
    intro does
    have hrun : ∀ {t}, collStart op q (setDone op q) s = t → does t := by
      simp only [List.mem_cons, List.not_mem_nil, or_false] at hrow
      rcases hrow with ⟨rfl, rfl⟩ | ⟨rfl, rfl⟩
      · exact fun h => answers_runNet hd (f := gturnSet q) rfl (gturnSet_eq.trans h)
      · exact fun h => answers_runNet hd (f := defineGroup q) rfl (defineGroup_eq.trans h)
    exact ⟨fun hno => hrun (collStart_idle hno), fun c hnext hcmd hop => ⟨fun f v hfail =>
      hrun (collStart_failed hnext hcmd hop hfail), fun v hdecode => hrun (collStart_planned hnext hcmd hop hdecode)⟩⟩
  · exact answers_runNet hd (f := reshardExecute q peers) rfl (reshardExecute_idle hidle)

end Sys2Proof.Machine
end
